-- ==== Sys2Proof/Word.lean ====
section
/-!
DEFINITION. The word types of the XM16-A: what the spec treats as bits is a bit vector.
Registers are 64 bits wide (R3), ring entries and vectors are built from 64-bit words (R51, R53), side-band accesses
carry 32 bits (R17, R213). Everything that is a number, an index or a name is a `Nat`, an `Int` or an inductive type.
-/
namespace Sys2Proof

/-- A 64-bit register or entry word (R3). -/
abbrev W64 := BitVec 64
/-- A 32-bit half of a register, a beat number or a side-band value (R10, R213). -/
abbrev W32 := BitVec 32
/-- A 16-bit value such as a TAG (R51). -/
abbrev W16 := BitVec 16
/-- One byte of memory or of a packet. -/
abbrev Byte := BitVec 8

end Sys2Proof
end

