-- ==== Sys2Proof/Syntax.lean ====
section
/-!
DEFINITION. The commands of the XM16-A: one constructor per row of spec/opcode_table.json, with the row's operands.
A row that the spec words as an access carries the source and the value; a row that executes a ring entry names the ring
whose front entry runs; a row that the device's own timing or an input brings about names the unit and what the input
shows (an ECC result, a comparator, a read-back), because those come from outside the block.
-/
namespace Sys2Proof

/-- Who makes a register access (R17, R19): the host through BAR0, or the side-band through the management processor. -/
inductive Source where
  | host | sideband
  deriving DecidableEq, Repr, Inhabited

/-- What the ECC check of a memory read shows (R366, R370): an input of the model. -/
inductive EccRead where
  | clean | corrected | uncorrectable
  deriving DecidableEq, Repr, Inhabited

/-- What a read of host memory returns: all bytes, or the bytes that arrived before a failed or poisoned completion. -/
inductive HostRead where
  | ok (bytes : List Byte)
  | fail (got : List Byte)
  deriving DecidableEq, Repr, Inhabited

/-- What the read of one 64 B ring entry returns (R52, R69): the entry's eight words, a failure after word 0 was read,
or a failure before it. -/
inductive EntryRead where
  | ok (ws : List W64)
  | failWithTag (w0 : W64)
  | fail
  deriving DecidableEq, Repr, Inhabited

/-- An access to the MSI-X table or the pending bit array (R60). -/
inductive MsixAccess where
  | write32 (v : W32)
  | write64 (v : W64)
  | read32
  | read64
  deriving DecidableEq, Repr, Inhabited

/-- What happens to a piste in the beat whose sample is due (R25, R153): it computes in time, or overruns; a
transform-grid word read for the sample may be uncorrectable (R371). -/
inductive PisteIssue where
  | ok
  | late
  | gridEcc
  deriving DecidableEq, Repr, Inhabited

/-- The header check of a camera packet (R294). -/
inductive HdrEcc where
  | good | corrected | bad
  deriving DecidableEq, Repr, Inhabited

/-- A Beat Link frame as received: the START fields and the payload words (R399, R400). -/
structure Frame where
  ftype : Nat
  hops : Nat
  dst : Nat
  src : Nat
  seq : Nat
  words : List W64
  deriving DecidableEq, Repr, Inhabited

/-- A 66-bit block as a Beat Link lane carries it (R394): its sync header and its scrambled payload. -/
structure LaneBlock where
  sync : BitVec 2
  payload : W64
  deriving DecidableEq, Repr, Inhabited

/-- A PTP message as the event and general ports carry it: the message type of IEEE 1588 and its time value (R435). -/
structure PtpMsg where
  kind : Nat
  seq : Nat
  t : Int
  corr : Int
  deriving DecidableEq, Repr, Inhabited

/-- What a diagnosed sink shows in its test cycle (R484, R487): its current in µA, its headroom in mV, and whether the pin of the
adjacent channel below or above it lies within 200 mV of its own. -/
structure SinkTest where
  ch : Nat
  current : Nat
  head : Nat
  nearLo : Bool
  nearHi : Bool
  deriving DecidableEq, Repr, Inhabited

/-- What HST obeys of the PCIe configuration space besides MSI-X (R34, R38): Bus Master Enable and the D3hot power state. -/
structure PcieControl where
  bme : Bool
  d3hot : Bool
  deriving DecidableEq, Repr, Inhabited

/-- MSI-X Enable and Function Mask of the function's MSI-X capability (R60). -/
structure MsixControl where
  enable : Bool
  mask : Bool
  deriving DecidableEq, Repr, Inhabited

/-- One point of a calibration measurement (R514): where it was taken and what was measured. -/
structure CalPoint where
  x : Int
  y : Int
  v : Int
  deriving DecidableEq, Repr, Inhabited

/-- The header of a management request as it arrives (R529): side-band source, magic, version, opcode field,
length field and sequence number. -/
structure PmpHdr where
  src : Nat
  magicOk : Bool
  version : Nat
  opOk : Bool
  lenOk : Bool
  seq : Nat
  deriving DecidableEq, Repr, Inhabited

/-- What starts a full device reset (R539). -/
inductive ResetCause where
  | powerOn | resetN | pmp | smbus
  deriving DecidableEq, Repr, Inhabited


/-- The commands, in the order of spec/opcode_table.json. -/
inductive Instr where
  /-- REGISTER_WRITE (R6): A write to a register with no row of its own updates fields by access code, or is refused
  and sets the block's REFUSED bit. -/
  | registerWrite (src : Source) (off : Nat) (v : W64)
  /-- LOWER_HALF_WRITE (R213): A 32-bit lower-half write stores its value in the source's staging latch without
  touching the register. -/
  | lowerHalfWrite (src : Source) (off : Nat) (v : W32)
  /-- UPPER_HALF_WRITE (R213): A 32-bit upper-half write lands the whole 64-bit register with the latched or present
  lower half and empties the staging latch. -/
  | upperHalfWrite (src : Source) (off : Nat) (v : W32)
  /-- LOWER_HALF_READ (R213): A 32-bit lower-half read captures the whole register into the source's read latch and
  returns the lower half. -/
  | lowerHalfRead (src : Source) (off : Nat)
  /-- UPPER_HALF_READ (R213): A 32-bit upper-half read returns the captured or present upper half and empties the
  source's read latch. -/
  | upperHalfRead (src : Source) (off : Nat)
  /-- CLOCK_GATE_ENTRY (R29): A block or island idle for 64 beats with no keep-on condition stops its clocks. -/
  | clockGateEntry (blk isl : Nat)
  /-- ISLAND_OFF_ENTRY (R29): A block or island idle for 20,000,000 beats with no keep-on condition is powered off. -/
  | islandOffEntry (blk isl : Nat)
  /-- ISLAND_WAKE (R29): An island that had work arrive while off returns to ACTIVE at the next beat group boundary at
  least 64 beats later. -/
  | islandWake (blk isl : Nat)
  /-- PCIE_LINK_UP (R64): The PCIe data link layer comes up and HST_STATUS takes the negotiated speed and width. -/
  | pcieLinkUp (speed width : Nat)
  /-- PCIE_LINK_DOWN (R38): The link goes down; outstanding reads are abandoned, part-staged bricks discarded and
  counted, and fetching stops. -/
  | pcieLinkDown
  /-- FUNCTION_LEVEL_RESET (R37): Function-level reset returns HST registers to reset, clears MSI-X, disables every
  ring and sets FLR_SEEN. -/
  | functionLevelReset
  /-- BAR2_WRITE (R36): A host write to the SRAM window lands only while BAR2_WR_EN is 1 and no course is open, else
  it is dropped and counted. -/
  | bar2Write (addr : Nat) (bytes : List Byte) (ecc : EccRead)
  /-- BAR2_READ (R36): A host read of the SRAM window returns the data, poisoned if the word has an uncorrectable ECC
  error. -/
  | bar2Read (addr : Nat) (ecc : EccRead)
  /-- DOORBELL_POLL (R44): At each DOORBELL_POLL beat HST issues one 512 B read of the doorbell table, or skips and
  counts the poll if a read is outstanding. -/
  | doorbellPoll
  /-- DOORBELL_RETURN (R45): The doorbell read returns; each enabled ring's index is range-checked and fetches from
  submission rings are issued. -/
  | doorbellReturn (table : Option (List W32))
  /-- ENTRY_ARRIVAL (R52): A fetched submission entry arrives and passes HST's checks before being passed to its
  receiving block. -/
  | entryArrival (ring : Nat) (rd : EntryRead)
  /-- RING_ENABLE (R48): Setting ENABLE starts a ring from index 0, or is refused for a bad configuration. -/
  | ringEnable (src : Source) (ring : Nat) (v : W64)
  /-- RING_DISABLE (R50): Clearing ENABLE drains a submission ring or stops all writes to a completion ring at once.
  -/
  | ringDisable (src : Source) (ring : Nat) (v : W64)
  /-- ROUTE_WRITE (R67): A write of an event route checks the rings it leaves enabled and stores or refuses the route.
  -/
  | routeWrite (src : Source) (blk : Nat) (v : W64)
  /-- COMPLETION_WRITE (R58): HST writes a DONE, EVENT or STAT entry to its completion ring in stamp order, holding or
  losing it under flow control. -/
  | completionWrite
  /-- MSIX_MOD_TIMER (R61): MOD_BEATS beats after the first unsignalled entry the ring signals its vector. -/
  | msixModTimer (ring : Nat)
  /-- MSIX_TABLE_ACCESS (R60): An access to the MSI-X table or pending bit array acts at once, and unmasking sends a
  pending message. -/
  | msixTableAccess (off : Nat) (acc : MsixAccess)
  /-- PSET_WRITE (R79): A PARAM entry writes one shadow parameter entry, at once or in cycle 0 of START_BEAT. -/
  | psetWrite (ring : Nat)
  /-- PSET_LOAD (R79): A PARAM entry starts reading count parameter entries from host memory into consecutive shadow
  entries. -/
  | psetLoad (ring : Nat)
  /-- PSET_LOAD_DATA (R79): Load data arrives and each entry is written to the shadow bank as it lands. -/
  | psetLoadData (ring : Nat) (rd : HostRead)
  /-- PSET_COMMIT (R80): A PARAM entry requests a copy of the shadow bank into the active bank at its commit beat. -/
  | psetCommit (ring : Nat)
  /-- PARAM_COMMIT (R210): At a commit beat every shadow value of every block is copied into effect in cycle 0, or the
  whole copy is refused. -/
  | paramCommit
  /-- BRICK (R86): A BRICK entry is checked against descriptor, course state and table room, then its brick is read
  into staging. -/
  | brick (ring : Nat)
  /-- BRICK_VERDICT (R87): 16 cycles after the last brick word lands the checker gives its verdict and the brick is
  accepted or rejected. -/
  | brickVerdict (key : Nat) (rd : HostRead)
  /-- COURSE_BEGIN (R89): A COURSE_BEGIN opens a course at its beat, is rejected, or waits. -/
  | courseBegin (ring : Nat)
  /-- COURSE_END (R89): A COURSE_END for the open course starts CLOSING with its BRICK_TOTAL. -/
  | courseEnd (ring : Nat)
  /-- COURSE_ABORT (R92): At the next beat edge the course aborts: staged bricks complete ABORTED and running bricks
  stop without remnants. -/
  | courseAbort (ring : Nat)
  /-- COURSE_CLOSE (R89): When every taken brick of a CLOSING course is resolved and BRICK_TOTAL met, statistics
  latch, records issue and COURSE_END completes. -/
  | courseClose
  /-- ABORT_COMPLETE (R89): When every channel has stopped, the aborting course latches statistics, issues records and
  completes. -/
  | abortComplete
  /-- COURSE_WAIT_RESUME (R90): A ring waiting on a later course's entry resumes once the course unit reaches the
  needed state. -/
  | courseWaitResume (ring : Nat)
  /-- START_BEAT_REACHED (R102): A brick in WAIT_BEAT reaches its START_BEAT and enters READY. -/
  | startBeatReached (key : Nat)
  /-- UNPLACEABLE_TIMEOUT (R119): A brick unplaceable for UNPLACEABLE_WAIT beats completes UNREACHABLE, or returns to
  its feeder. -/
  | unplaceableTimeout (key : Nat)
  /-- STANDSTILL (R105): At a course standstill every brick in WAIT_DEP completes DEP_UNRESOLVED. -/
  | standstill
  /-- STARVE_LIMIT_REACHED (R108): A brick READY for STARVE_LIMIT beats becomes urgent if fewer than URGENT_MAX are
  urgent. -/
  | starveLimitReached (key : Nat)
  /-- HOST_HOLD (R109): Writing MSN_CTL.HOST_HOLD starts or ends a device-wide hold of assignments. -/
  | hostHold (src : Source) (v : W64)
  /-- MASON_SELECTION (R107): In cycles 64 to 79 of each beat the Mason assigns bricks, remnants and seam offers to
  free lasers. -/
  | masonSelection (unserved : W16)
  /-- ASSIGNMENT_IN_FORCE (R106): At the next beat edge an assignment starts an IDLE laser's piste or fills a queued
  slot. -/
  | assignmentInForce (ch : Nat)
  /-- PLUME_GUARD (R114): In beat b minus 1 the guard tests every emitting sample of beat b against live trail and
  sample zones. -/
  | plumeGuard (undecided : W16)
  /-- TRAIL_SLICE_CLOSE (R112): A trail slice closes WINDOW x 16 beats after it opened. -/
  | trailSliceClose (ch : Nat)
  /-- TRAIL_SLICE_EXPIRE (R112): A closed slice WINDOW x 256 beats past its closing beat stops being live and is
  removed. -/
  | trailSliceExpire (ch : Nat)
  /-- HOLD_PASS (R147): At each pass of the hold point the piste offers the sample again and resumes if the guard
  clears it. -/
  | holdPass (ch : Nat)
  /-- PLUME_HOLD_TIMEOUT (R116): A laser held for PLUME_HOLD_MAX beats stops and the rest of its brick becomes an
  urgent remnant. -/
  | plumeHoldTimeout (ch : Nat)
  /-- MASON_DROP (R117): At the beat edge after a drop decision the Mason moves the laser to STOPPING and makes a
  remnant. -/
  | masonDrop (ch : Nat)
  /-- REMNANT_READY (R118): In cycle 48 of beat d + 2 the remnant enters READY, or completes UNREACHABLE if its REACH
  is 0. -/
  | remnantReady (key : Nat)
  /-- STOP_SEGMENT_DONE (R148): The piste reports the stop segment done and the laser leaves STOPPING. -/
  | stopSegmentDone (ch : Nat)
  /-- BRICK_END (R117): The last sample of a brick issues and the brick completes, or the queued brick runs. -/
  | brickEnd (ch : Nat)
  /-- PISTE_SAMPLE_ISSUE (R131): In cycle 0 of each beat each enabled piste issues one sample with emission point,
  head reference and set-point. -/
  | pisteSampleIssue (ch : Nat) (ev : PisteIssue)
  /-- VECTOR_REFILL_DONE (R157): A 128-vector refill from SRAM staging lands in the piste buffer. -/
  | vectorRefillDone (ch : Nat) (ecc : EccRead)
  /-- GRID_LOAD (R155): A CAL entry starts loading 532,576 B into a grid slot no channel uses. -/
  | gridLoad (ring : Nat)
  /-- GRID_LOAD_COMPLETE (R155): The grid load finishes, or fails with VALID 0 written into the slot. -/
  | gridLoadComplete (rd : HostRead)
  /-- GRID_SWAP (R155): A CAL entry checks a slot and assigns it to a channel for a later position tick. -/
  | gridSwap (ring : Nat) (ecc : EccRead)
  /-- GRID_SWAP_EFFECT (R155): At a position tick on a dark part of the path the new slot takes effect and the old one
  is released. -/
  | gridSwapEffect (ch : Nat)
  /-- SEAM_OFFER (R171): SEAM_LEAD beats before t_in the donor's piste raises a hand-over offer, or the candidate is
  declined. -/
  | seamOffer (ch : Nat)
  /-- CHANNEL_ENABLE (R194): Setting LSR EN starts arming with EMIT_EN active and the beacon requested, or is refused.
  -/
  | channelEnable (src : Source) (ch : Nat) (v : W64)
  /-- CHANNEL_DISABLE (R196): Clearing LSR EN turns emission off and drops work in flight. -/
  | channelDisable (src : Source) (ch : Nat) (v : W64)
  /-- ARMING_COMPLETE (R193): Once EMIT_LEAD, READY and beacon conditions hold, the channel becomes ENABLED. -/
  | armingComplete (ch : Nat)
  /-- ARMING_TIMEOUT (R193): ARM_TIMEOUT beats in ARMING without meeting conditions faults the channel. -/
  | armingTimeout (ch : Nat)
  /-- ALARM_QUALIFIED (R192): An ALARM level change held for ALARM_QUAL beats qualifies and faults an active channel.
  -/
  | alarmQualified (ch : Nat) (level : Bool)
  /-- READY_QUALIFIED (R192): A READY level change held for READY_QUAL beats qualifies and may fault an ENABLED
  channel. -/
  | readyQualified (ch : Nat) (level : Bool)
  /-- PAD_READBACK_MISMATCH (R197): EMIT_EN or GATE read-back differing for more than 8 cycles faults the channel. -/
  | padReadbackMismatch (ch : Nat) (emit gate : Bool)
  /-- DAC_COMPLIANCE_LOSS (R197): DAC output out of compliance for 4 beats at code 4,096 or more faults the channel.
  -/
  | dacComplianceLoss (ch : Nat)
  /-- CHANNEL_FAULT_CLEAR (R198): Writing 1 to fault bits clears them and the channel leaves FAULT for OFF once no
  cause persists. -/
  | channelFaultClear (src : Source) (ch : Nat) (v : W64)
  /-- SAFE_IN_LOW (R200): A low SAFE_IN sample opens the chain, forces pads inactive and faults every active channel.
  -/
  | safeInLow
  /-- SAFE_IN_QUALIFIED (R200): SAFE_IN high for SAFE_QUAL beats becomes qualified closed. -/
  | safeInQualified
  /-- HEARTBEAT_BOUNDARY (R201): At each 50,000 ns boundary READY_OUT toggles only if every heartbeat condition held
  throughout. -/
  | heartbeatBoundary
  /-- SAFE_KICK (R203): Writing 0x5AFE to MGT_SAFE_KICK restarts the kick watchdog. -/
  | safeKick (src : Source) (v : W64)
  /-- KICK_TIMEOUT_EXPIRY (R203): KICK_TIMEOUT ms after the last key the watchdog expires. -/
  | kickTimeoutExpiry
  /-- BEACON_REPORT (R204): A beacon status report from LGT is acted on by LSR at the next beat edge, holding or
  releasing linked channels. -/
  | beaconReport (b : Nat)
  /-- BEACON_UNVERIFIED_TIMEOUT (R205): A beacon UNVERIFIED for UNVER_MAX ms becomes a hold cause. -/
  | beaconUnverifiedTimeout (ch : Nat)
  /-- DAC_UPDATE (R190): In cycle 0 of each DAC beat the scaler output sets the DAC and GATE follows the window. -/
  | dacUpdate (ch : Nat)
  /-- MPM_SAMPLE (R229): The photodiodes are sampled and the measurement runs the 240-cycle correction path to the
  DAC. -/
  | mpmSample (ch : Nat) (second : Bool) (mp br : BitVec 14) (late : Bool)
  /-- BR_QUAL_REACHED (R239): BR_QUAL consecutive over samples trip the back-reflection test and fault the channel. -/
  | brQualReached (ch : Nat)
  /-- LOW_BEATS_REACHED (R240): LOW_BEATS consecutive low measurements of a vector raise MP_LOW. -/
  | lowBeatsReached (ch : Nat)
  /-- SAT_BEATS_REACHED (R241): SAT_BEATS consecutive emitting beats at a clamp raise MPM_SAT. -/
  | satBeatsReached (ch : Nat)
  /-- VELOCITY_TICK (R265): At each velocity tick SRV trims position, forms PERR and runs the velocity loop to a new
  current reference. -/
  | velocityTick (ax : Nat) (code : BitVec 24) (late : Bool)
  /-- POSITION_TICK (R265): At each position tick the position loop forms a new velocity reference and axis
  acquisition advances. -/
  | positionTick (ax : Nat) (code : BitVec 24) (late : Bool)
  /-- CURRENT_DECISION (R262): At cycle 76 each beat the comparators decide the bridge state for the next beat: the sensed current in 1/16 of a
  current unit, and the comparators HI, LO and the two trips that a failed sense input holds asserted. -/
  | currentDecision (ax : Nat) (sensed : BitVec 20) (hiHeld loHeld : Bool) (tripHeld : BitVec 2)
  /-- PERR_TICKS_REACHED (R277): PERR beyond PERR_MAX at PERR_TICKS consecutive ticks faults the axis. -/
  | perrTicksReached (ax : Nat)
  /-- STUCK_BEATS_REACHED (R277): Current not following the bridge for STUCK_BEATS decisions faults the axis. -/
  | stuckBeatsReached (ax : Nat)
  /-- CUR_SENSE_COUNT_REACHED (R277): HI and LO both asserted at 4 consecutive decisions faults the axis. -/
  | curSenseCountReached (ax : Nat)
  /-- POS_QUAL_REACHED (R260): POS_QUAL consecutive over-range position samples fault the axis. -/
  | posQualReached (ax : Nat)
  /-- GATE_READBACK_MISMATCH (R277): A gate read-back differing for more than 8 cycles faults the axis. -/
  | gateReadbackMismatch (ax : Nat) (gates : BitVec 4)
  /-- ACQUIRE_TIMEOUT_EXPIRY (R275): ACQ_TIMEOUT position ticks in ACQUIRE, or no grid slot, faults the axis. -/
  | acquireTimeoutExpiry (ax : Nat)
  /-- SRV_COMMIT_EFFECT (R271): At the first position tick after a commit the captured SRV fields take effect and
  banks swap. -/
  | srvCommitEffect
  /-- AXIS_ENABLE (R275): Setting SRV EN moves an axis to ACQUIRE at the next position tick, or is refused. -/
  | axisEnable (src : Source) (ax : Nat) (v : W64)
  /-- AXIS_DISABLE (R275): Clearing SRV EN turns the bridge off, or is refused under an active laser. -/
  | axisDisable (src : Source) (ax : Nat) (v : W64)
  /-- AXIS_FAULT_CLEAR (R279): Writing 1 to axis fault bits clears them and the axis leaves FAULT for OFF. -/
  | axisFaultClear (src : Source) (ax : Nat) (v : W64)
  /-- CAMERA_PORT_ENABLE (R296): Setting a camera port's EN moves it from OFF to IDLE. -/
  | cameraPortEnable (src : Source) (c : Nat) (v : W64)
  /-- CAMERA_PORT_DISABLE (R296): Clearing EN stops the capture and cuts any open frame. -/
  | cameraPortDisable (src : Source) (c : Nat) (v : W64)
  /-- FRAME_START (R296): A Frame Start packet opens a frame, is discarded, or closes an open frame first. -/
  | frameStart (c vc frameNo : Nat) (hdr : HdrEcc)
  /-- FRAME_END (R295): A Frame End packet closes the frame, padding it to HEIGHT. -/
  | frameEnd (c vc : Nat) (hdr : HdrEcc)
  /-- LONG_PACKET (R293): A long packet is taken as one line into the port's buffer or discarded. -/
  | longPacket (c vc dt : Nat) (px : List Nat) (crcOk : Bool) (hdr : HdrEcc)
  /-- DPHY_SOT_ERROR (R293): A D-PHY start-of-transmission error discards the transmission. -/
  | dphySotError (c : Nat) (lanes : BitVec 4)
  /-- CAM_FRAME_TIMEOUT (R295): No Frame End within FRAME_TIMEOUT beats closes the frame. -/
  | camFrameTimeout (c : Nat)
  /-- ENGINE_LINE (R297): A pipeline engine takes the next eligible line by class and turn and processes it. -/
  | engineLine (e : Nat) (ecc : EccRead)
  /-- OUTPUT_HOLD_TIMEOUT (R301): A line whose output writes stay held for 64 beats is abandoned. -/
  | outputHoldTimeout (e : Nat)
  /-- FRAME_WRITEOUT (R309): After a frame closes its remaining rows and trailers are written, then its records are
  issued. -/
  | frameWriteout (c : Nat)
  /-- CAP_ARM (R314): A CAPTURE entry arms a port for frames. -/
  | capArm (ring : Nat)
  /-- CAP_STOP (R313): A CAPTURE entry stops the port's capture at its beat, cutting any open frame. -/
  | capStop (ring : Nat)
  /-- TABLE_LOAD (R315): A CAPTURE entry loads a defect, shading or display table in force from the next Frame Start.
  -/
  | tableLoad (ring : Nat) (rd : HostRead)
  /-- COMPRESS (R329): A CODEC entry requests compression of an input range to DEFLATE. -/
  | compress (ring : Nat) (ctx : HostRead)
  /-- DECOMPRESS (R329): A CODEC entry requests decompression of a DEFLATE stream. -/
  | decompress (ring : Nat) (ctx : HostRead)
  /-- CODEC_JOB_RUN (R331): The codec engine starts the next queued job once the previous one ends. -/
  | codecJobRun
  /-- CODEC_JOB_DONE (R332): A codec job ends, saves its context and completes with counts and check values. -/
  | codecJobDone (input : HostRead) (busErr : Option Nat)
  /-- CODEC_DISABLE (R338): Clearing CDC_CTL.EN drains the running job and completes queued jobs unstarted. -/
  | codecDisable (src : Source) (v : W64)
  /-- CODEC_ENABLE (R338): Setting CDC_CTL.EN resumes fetching of codec jobs. -/
  | codecEnable (src : Source) (v : W64)
  /-- DMA_MOVE (R349): A DMA entry is checked and queued on its channel. -/
  | dmaMove (ring : Nat)
  /-- DMA_ENTRY_START (R344): A channel takes the next entry of its queue once the previous one ends. -/
  | dmaEntryStart (c : Nat)
  /-- DMA_BURST_WRITTEN (R350): A burst's writes all respond, advancing ELEMENTS_DONE and completing the MOVE at its
  last burst. -/
  | dmaBurstWritten (c : Nat) (rd : List Byte)
  /-- DMA_BUS_ERROR (R354): The first bus error of a MOVE stops it and it completes BAD after its outstanding writes.
  -/
  | dmaBusError (c : Nat) (addr : W64) (write : Bool)
  /-- DMA_ABORT (R355): A DMA entry aborts the running MOVE on a channel and optionally flushes its queue. -/
  | dmaAbort (ring : Nat)
  /-- DMA_CHANNEL_DISABLE (R357): Clearing a channel's EN aborts its running MOVE and completes its queue. -/
  | dmaChannelDisable (src : Source) (c : Nat) (v : W64)
  /-- SCRUB_READ (R368): The scrubber reads an SRAM word in a free cycle and corrects it. -/
  | scrubRead (addr : Nat) (ecc : EccRead) (clash : Bool)
  /-- DRAM_READ_RETURN (R373): A DRAM read burst returns, corrected or poisoned by side-band ECC. -/
  | dramReadReturn (addr req : Nat) (ecc : EccRead)
  /-- DDR_ENABLE (R375): Setting a DDR channel's EN starts INIT and the pattern test. -/
  | ddrEnable (src : Source) (c : Nat) (v : W64)
  /-- DDR_INIT_DONE (R375): The channel's init sequence ends and it goes UP or DOWN. -/
  | ddrInitDone (c : Nat) (bad : Option (Nat × Nat))
  /-- DDR_DISABLE (R376): Clearing a DDR channel's EN puts its ranks into self-refresh, or is refused while in use. -/
  | ddrDisable (src : Source) (c : Nat) (v : W64)
  /-- DDR_REFRESH (R378): Each REFI interval a rank receives an all-bank refresh, possibly postponed. -/
  | ddrRefresh (c rank : Nat) (waiting : Bool)
  /-- DDR_MR4_POLL (R378): Each 1 ms the controller reads MR4 and adjusts the refresh interval. -/
  | ddrMr4Poll (c : Nat) (doubled : Bool)
  /-- ROW_WINDOW_END (R379): At each 32 ms window boundary activation counts and throttles reset. -/
  | rowWindowEnd
  /-- ACT_LIMIT_REACHED (R379): A requester reaching ACT_LIMIT on a bank has its activations spaced. -/
  | actLimitReached (c bank req : Nat)
  /-- LANE_TEST_START (R392): Writing PATTERN or LOOP non-zero starts a lane test, or is refused. -/
  | laneTestStart (src : Source) (l : Nat) (v : W64)
  /-- LANE_TEST_STOP (R392): Writing PATTERN and LOOP to 0 ends the lane test. -/
  | laneTestStop (src : Source) (l : Nat) (v : W64) (bits errs : Nat)
  /-- LANE_INJECT (R391): Writing INJECT inverts one bit of the generator output. -/
  | laneInject (src : Source) (l : Nat) (v : W64)
  /-- BL_PORT_ENABLE (R404): Setting a Beat Link port's EN starts TRAINING. -/
  | blPortEnable (src : Source) (p : Nat) (v : W64)
  /-- BL_PORT_DISABLE (R404): Clearing EN discards the port's frames and takes it OFF. -/
  | blPortDisable (src : Source) (p : Nat) (v : W64)
  /-- BL_LANE_LOCK (R404): CDR and block lock on both lanes, and adaptation, move the port to ALIGNING. -/
  | blLaneLock (p : Nat)
  /-- BL_ALIGN_FOUND (R397): ALIGN blocks found on both lanes deskew them and move the port to HELLO. -/
  | blAlignFound (p : Nat) (swapped : Bool)
  /-- BL_ALIGN_TIMEOUT (R404): No alignment within 10 ms returns the port to TRAINING. -/
  | blAlignTimeout (p : Nat)
  /-- BL_HELLO_SEND (R404): A port in HELLO or ISOLATED sends HELLO periodically. -/
  | blHelloSend (p : Nat)
  /-- BL_HELLO_RECEIVE (R404): A peer HELLO brings the port UP or isolates it. -/
  | blHelloReceive (p : Nat) (w0 w1 : W64)
  /-- BL_HELLO_TIMEOUT (R404): No peer HELLO within 100 ms returns the port to TRAINING. -/
  | blHelloTimeout (p : Nat)
  /-- BL_LINK_LOSS (R406): Lost lock or too many block errors take an UP port to TRAINING and discard its frames. -/
  | blLinkLoss (p : Nat) (blockErrors : Nat)
  /-- BL_LINKCTL (R402): A LINKCTL block updates acknowledgements, credits and NAKs, triggering resends. -/
  | blLinkctl (p : Nat) (w : W64)
  /-- BL_FRAME_RECEIVE (R407): A whole frame with good CRC and expected SEQ is taken and routed locally or onward. -/
  | blFrameReceive (p : Nat) (pairs : List (LaneBlock × LaneBlock)) (drift : Int)
  /-- TIME_FRAME_SEND (R409): Every TIME_PERIOD beat groups each UP port sends a TIME frame. -/
  | timeFrameSend (p : Nat) (inner : Int)
  /-- TIME_FRAME_RECEIVE (R410): A received TIME frame yields offset and delay and updates the root selection. -/
  | timeFrameReceive (p : Nat) (words : List W64) (inner : Int) (good : Bool)
  /-- ROOT_TIMEOUT (R411): No usable TIME frame within ROOT_TIMEOUT beat groups makes the device LOST. -/
  | rootTimeout
  /-- BRICK_FRAME_RECEIVE (R414): A BRICK frame for this device joins its fed stream at the receiver. -/
  | brickFrameReceive
  /-- FED_BRICK_STAGING (R414): A waiting BRICK frame moves into staging once its pages are free. -/
  | fedBrickStaging (dev ring : Nat)
  /-- CTRL_ENTRY_RECEIVE (R414): A CTRL ENTRY frame delivers a course entry to the receiver's fed stream. -/
  | ctrlEntryReceive
  /-- REMNANT_FRAME_RECEIVE (R413): A REMNANT frame resolves a fed entry as UNREACHABLE at the feeder. -/
  | remnantFrameReceive
  /-- FED_RESULT_RECEIVE (R413): An EVENT frame of SUB 1 resolves a fed entry with the receiver's completion. -/
  | fedResultReceive
  /-- FOREIGN_EVENT_RECEIVE (R416): An exported event from another device is written to the FOREIGN ring. -/
  | foreignEventReceive
  /-- FEED_TIMEOUT_EXPIRY (R413): A fed entry with no result after FEED_TIMEOUT seconds completes FEED_LOST. -/
  | feedTimeoutExpiry (key : Nat)
  /-- FED_STREAM_CLOSE (R414): A fed stream with all entries complete and no frame for 1 s closes. -/
  | fedStreamClose (dev ring : Nat)
  /-- ETH_LINK_RISE (R424): An Ethernet port gains block lock with no remote fault. -/
  | ethLinkRise (e : Nat)
  /-- ETH_LINK_FALL (R424): An Ethernet port loses its link. -/
  | ethLinkFall (e : Nat)
  /-- TMB_SET_WRITE (R428): Writing TMB_SET while STOPPED replaces domain time at once. -/
  | tmbSetWrite (src : Source) (v : W64)
  /-- TMB_STEP_WRITE (R438): Writing TMB_STEP steps domain time when STOPPED, or adds to STEP_REMAIN for slewing. -/
  | tmbStepWrite (src : Source) (v : W64)
  /-- BEAT_START (R432): Writing BEAT_START arms the beat start at TMB_START_TIME, or is refused. -/
  | beatStart (src : Source) (v : W64)
  /-- BEAT_START_REACHED (R432): When domain time reaches the armed start the generator becomes RUNNING. -/
  | beatStartReached
  /-- PTP_MESSAGE_RECEIVE (R440): A timestamped PTP message is handled by the protocol engine. -/
  | ptpMessageReceive (e : Nat) (m : PtpMsg) (ts : Int) (newState : Nat)
  /-- PTP_MEASUREMENT (R434): A completed offset measurement steps or steers domain time and updates lock state. -/
  | ptpMeasurement (e : Nat) (off : Int)
  /-- SYNC_TIMEOUT (R437): A PTP slave with no Sync for 3 intervals loses its source and free-runs. -/
  | syncTimeout (e : Nat)
  /-- FREQ_UPDATE (R429): At each beat group boundary the timebase writes a new FREQ including any step slew. -/
  | freqUpdate
  /-- STATS_EPOCH (R95): At each stats epoch every ROL counter latches and restarts. -/
  | statsEpoch
  /-- TCAP_EDGE (R443): A selected edge on a capture input is timestamped into TMB_CAP_i. -/
  | tcapEdge (i : Nat) (falling : Bool) (ns : W64) (frac : W16)
  /-- LAUNCH_ARM (R445): Setting ARM schedules a timed frame launch, or is refused. -/
  | launchArm (src : Source) (sl : Nat) (v : W64)
  /-- LAUNCH_CANCEL (R452): Clearing ARM cancels the launch. -/
  | launchCancel (src : Source) (sl : Nat) (v : W64)
  /-- LAUNCH_WINDOW (R445): 4 µs before LAUNCH_TIME the port clears the way or fails the launch. -/
  | launchWindow (sl : Nat)
  /-- LAUNCH_SEND (R444): The slot's frame crosses the ball at LAUNCH_TIME. -/
  | launchSend (sl : Nat) (ns : W64) (frac : W16)
  /-- AXS_MOVE (R460): A MOVE entry runs a coordinated trapezoid move of the named stepper axes. -/
  | axsMove (ring : Nat)
  /-- HOME (R468): A HOME entry seeks the home switch and sets the axis position from its latched edge. -/
  | home (ring : Nat)
  /-- STOP (R461): A STOP entry stops the named axes at DEC or EDEC. -/
  | stop (ring : Nat)
  /-- SET_POS (R461): A SET_POS entry sets POS of idle axes and marks them HOMED. -/
  | setPos (ring : Nat)
  /-- AXS_ENTRY_RESUME (R463): A waiting MOVE or HOME starts once its axes are IDLE. -/
  | axsEntryResume (ring : Nat)
  /-- PROFILE_TICK (R457): At each profile tick the planner fixes the next commanded positions and issues steps. -/
  | profileTick (late : Bool)
  /-- LIMIT_QUALIFIED (R467): A hard limit held for LIM_QUAL ticks stops a moving axis at EDEC. -/
  | limitQualified (m : Nat) (plus level : Bool)
  /-- HOME_QUALIFIED (R468): HOME held for HOME_QUAL ticks latches POS and the axis stops. -/
  | homeQualified (m : Nat) (level : Bool) (latch : W32)
  /-- HOME_INPUT_DEASSERT (R469): HOME deasserting between qualification and rest ends the homing. -/
  | homeInputDeassert (m : Nat)
  /-- HOME_MAX_REACHED (R469): A seek covering HOME_MAX microsteps without qualifying stops the axis. -/
  | homeMaxReached (m : Nat)
  /-- STEPPER_ENABLE (R472): Setting an axis's EN moves it from OFF to IDLE, or is refused while the beat is stopped.
  -/
  | stepperEnable (src : Source) (m : Nat) (v : W64)
  /-- STEPPER_DISABLE (R470): Clearing EN decelerates running moves to rest and the axis goes OFF. -/
  | stepperDisable (src : Source) (m : Nat) (v : W64)
  /-- LIGHT_SET (R482): A LIGHT entry sets COUNT duties at the next frame boundary. -/
  | lightSet (ring : Nat)
  /-- LIGHT_LOAD (R482): A LIGHT entry loads all 96 duties from host memory. -/
  | lightLoad (ring : Nat) (rd : HostRead)
  /-- LIGHT_GROUP_OFF (R482): A LIGHT entry sets the duty of every string and cell in the named groups to 0. -/
  | lightGroupOff (ring : Nat)
  /-- LIGHT_FRAME (R480): At each lighting frame boundary ON times are computed, pulses placed, diagnoses made and
  statuses reported. -/
  | lightFrame (tests : List SinkTest) (late : Bool)
  /-- BOOST_OUT_OF_RANGE (R484): Boost output out of range for the stated span latches BOOST_FAULT and turns strings
  and cells off. -/
  | boostOutOfRange (beyond : Bool)
  /-- BOOST_FAULT_CLEAR (R494): Writing 1 to BOOST_FAULT clears it and restarts the boost at VMAX. -/
  | boostFaultClear (src : Source) (v : W64)
  /-- NTC_CONVERSION (R485): Every 16 frames each NTC input is converted to a temperature and colour gain. -/
  | ntcConversion (c r : Nat)
  /-- LIGHTING_ENABLE (R484): Setting LGT_CTL.EN starts the boost at VMAX and lights stored duties. -/
  | lightingEnable (src : Source) (v : W64)
  /-- LIGHTING_DISABLE (R483): Clearing LGT_CTL.EN turns every output off from the next frame. -/
  | lightingDisable (src : Source) (v : W64)
  /-- LIGHT_CLEAR (R490): Writing CLEAR takes a channel out of FAILED. -/
  | lightClear (src : Source) (i : Nat) (v : W64)
  /-- THERMAL_SAMPLE (R502): The scanner samples a sensor and tests it against its thresholds. -/
  | thermalSample (sn : Nat) (reading : Option Int)
  /-- GRACE_EXPIRY (R502): GRACE_MS after THROTTLE_REQ the throttle enforces on the sensor's heat source. -/
  | graceExpiry (sn : Nat)
  /-- CAL_RUN (R520): A CAL entry requests a calibration kind on a unit and reserves what it needs. -/
  | calRun (ring : Nat) (table : HostRead)
  /-- CAL_MEASUREMENT_START (R516): At the first beat group boundary with preconditions and reservation met, run 1
  starts, then run 2. -/
  | calMeasurementStart
  /-- CAL_RUN_COMPLETE (R517): After run 2 the results are compared, applied, stored and reported. -/
  | calRunComplete (run1 run2 : List CalPoint)
  /-- CAL_RECALL (R523): A CAL entry returns a stored result and optionally applies it. -/
  | calRecall (ring : Nat)
  /-- PMP_IDENT (R529): A PMP IDENT request returns the identity record and slot versions. -/
  | pmpIdent (h : PmpHdr)
  /-- REG_READ (R529): A PMP request reads a 32-bit register half. -/
  | regRead (h : PmpHdr) (off : Nat)
  /-- REG_WRITE (R529): A PMP request writes a 32-bit register half. -/
  | regWrite (h : PmpHdr) (off : Nat) (v : W32)
  /-- LOG_READ (R531): A PMP request returns up to 64 event log entries and the count lost. -/
  | logRead (h : PmpHdr) (first : W32) (count : Nat)
  /-- IMG_BEGIN (R535): A PMP request opens or resumes a firmware load session on a slot. -/
  | imgBegin (h : PmpHdr) (slot len : Nat) (sha : BitVec 384) (flashOk : Bool)
  /-- IMG_PIECE (R535): A PMP request programs one 4 KiB image piece and verifies the slot when complete. -/
  | imgPiece (h : PmpHdr) (slot idx : Nat) (crc : W32) (data : List Byte) (flashOk : Bool)
  /-- IMG_STATUS (R529): A PMP request returns a slot's state and piece bitmap. -/
  | imgStatus (h : PmpHdr) (slot : Nat)
  /-- IMG_ACTIVATE (R537): A PMP request boots a VERIFIED slot on the standby core for handover. -/
  | imgActivate (h : PmpHdr) (slot : Nat)
  /-- FW_HANDOVER (R537): When the new core is ready, the handover is made at the next beat group boundary and the
  slot goes TRIAL. -/
  | fwHandover
  /-- ACTIVATE_TIMEOUT (R537): A new core not ready within 10 s is abandoned. -/
  | activateTimeout
  /-- IMG_CONFIRM (R537): A PMP request makes the TRIAL slot CONFIRMED. -/
  | imgConfirm (h : PmpHdr) (flashOk : Bool)
  /-- IMG_REVERT (R537): A PMP request hands back to the CONFIRMED slot. -/
  | imgRevert (h : PmpHdr) (flashOk : Bool)
  /-- PMP_RESET (R539): A PMP RESET with the key replies then starts a full device reset 1 ms later. -/
  | pmpReset (h : PmpHdr) (k : W16)
  /-- EXPORT (R529): A PMP request starts sending a DRAM range as UDP datagrams on an Ethernet port. -/
  | export_ (h : PmpHdr) (addr : Nat) (len : Nat) (port : Nat) (dst : BitVec 128) (udp : W16)
  /-- EXPORT_COMPLETE (R529): After the last datagram leaves, the export reply is sent. -/
  | exportComplete
  /-- CONFIG_GET (R529): A PMP request returns the settings record in effect. -/
  | configGet (h : PmpHdr)
  /-- CONFIG_SET (R538): A PMP request writes a settings record to the area not in use with the next generation. -/
  | configSet (h : PmpHdr) (settings : List Byte) (flashOk : Bool)
  /-- SMB_STATUS (R532): An SMBus read returns the device status byte. -/
  | smbStatus
  /-- SMB_IDENT (R532): An SMBus block read returns the identity record. -/
  | smbIdent
  /-- SMB_TEMP (R532): An SMBus read returns the highest die temperature. -/
  | smbTemp
  /-- SMB_RESET (R532): An SMBus write of 0xA5 starts a full device reset. -/
  | smbReset (v : Byte)
  /-- SMB_CAUSE (R532): An SMBus read returns the last reset cause. -/
  | smbCause
  /-- FULL_DEVICE_RESET (R540): A full device reset returns registers, SRAM, time and outputs to reset and reboots the
  management processor. -/
  | fullDeviceReset (cause : ResetCause)
  /-- RESET_N_LOW (R557): RESET_N low for 1 µs starts a full device reset. -/
  | resetNLow (ns : Nat)
  /-- RESET_SEQUENCE_COMPLETE (R558): The reset sequence finishes and PCIe is released for training. -/
  | resetSequenceComplete
  /-- STANDBY_POWER_GOOD (R554): Standby rails in tolerance for 1 ms: straps are sampled and MAIN_EN is driven. -/
  | standbyPowerGood (straps : BitVec 5)
  /-- STANDBY_POWER_LOSS (R555): Loss of standby power drops MAIN_EN and loses the event log and shutdown latch. -/
  | standbyPowerLoss
  /-- MAIN_PG_RISE (R555): MAIN_PG rising starts a full device reset with cause power-on. -/
  | mainPgRise
  /-- MAIN_PG_FALL (R555): MAIN_PG falling holds every main-domain block in reset and loses its state. -/
  | mainPgFall
  /-- REF100_LOSS (R556): Loss of the reference clock for over 1 µs is treated as main power loss. -/
  | ref100Loss (ns : Nat)
  /-- PCIE_PERST_N (R548): PCIE_PERST_N low holds the link in Detect and resets HST. -/
  | pciePerstN
  /-- PCIE_CONFIG_WRITE (R38): A host configuration write changes Bus Master Enable or the D3hot power state, stopping
  or resuming HST's requests and updating HST_STATUS.BME, or MSI-X Enable and Function Mask (R60). -/
  | pcieConfigWrite (func : PcieControl) (msix : MsixControl)
  /-- PCIE_PERST_N_RISE (R548): PCIE_PERST_N rising releases HST from reset, and the link starts training within 1 ms
  if the reset sequence is complete. -/
  | pciePerstNRise
  /-- RESET_N_RISE (R558): RESET_N rising, with MAIN_PG high, starts the reset sequence of PLL lock, SRAM zeroing,
  boot and register reset. -/
  | resetNRise
  /-- REF100_RETURN (R556): The 100 MHz reference returns after a loss and a full device reset runs with cause power-
  on. -/
  | ref100Return
  /-- SMB_ALERT_RESPONSE (R552): A read of the SMBus Alert Response Address is answered with the XM16's own SMBus
  address. -/
  | smbAlertResponse
  /-- CHECKER_LOCK (R390): The lane's PRBS checker sees 128 consecutive matching bits, locks, sets CHK_LOCK and starts
  counting ERRORS. -/
  | checkerLock (l : Nat)
  /-- CHECKER_LOCK_LOSS (R390): The PRBS checker counts more than 1,024 errors in 65,536 bits, loses lock and seeks to
  relock. -/
  | checkerLockLoss (l : Nat) (bits errs : Nat)
  /-- READ_BACK_COMPLETE (R353): The read of the last 4 B written by a READ_BACK MOVE completes and the channel writes
  the MOVE's DONE entry. -/
  | readBackComplete (c : Nat)
  /-- FED_BRICK_READ_DONE (R412): A fed BRICK entry's brick has been read whole into local staging pages and is sent
  as a BRICK frame. -/
  | fedBrickReadDone (key : Nat) (rd : HostRead)
  /-- ANNOUNCE_RECEIPT_TIMEOUT (R440): A PTP port receives no Announce within announceReceiptTimeout intervals and
  changes portState, possibly leaving SLAVE. -/
  | announceReceiptTimeout (e newState : Nat)
  /-- PTP_MESSAGE_SEND (R440): At each configured interval a PTP port sends a Sync, Announce, Delay_Req or Pdelay_Req
  message with its hardware timestamp. -/
  | ptpMessageSend (e : Nat) (m : PtpMsg) (ts : Int)
  deriving DecidableEq, Repr, Inhabited

end Sys2Proof
end

