-- ==== Sys2Proof/Decode.lean ====
section
/-!
DEFINITION. Table words. spec/opcode_table.json gives no row of this hardware any bits: commands are accesses, ring entries, link words
and pin events, not words of an instruction stream. No word spells a command.
-/
namespace Sys2Proof

/-- The command that a word of the opcode table spells: the table gives none. -/
def decodeTableWord (_nbits _w : Nat) : Option Instr := none

end Sys2Proof
end

