-- ==== Sys2Proof/Config.lean ====
section
/-!
DEFINITION. What the spec leaves to the part or leaves open: opaque constants with no body.
A free value is `freeValue` (or one of the functions below) applied to plain data; nothing can be proved of it.
-/
namespace Sys2Proof.Config

/-- A value the spec leaves open, by the number of free values already drawn (see notes/assumptions). -/
opaque freeValue : Nat → Nat

/-- What the scramblers of a Beat Link port hold when its line starts: R394 gives them no first value. -/
opaque scrambler : Nat → Nat → BitVec 58

/-- DST and SEQ of a HELLO frame, which is sent before the peer is known and before SEQ starts from 0 (R398, R404). -/
opaque helloDst : BitVec 10
opaque helloSeq : BitVec 12

/-- The body bits of a Huffman-coded block that the codec's search finds, by level, form (1 fixed, 2 dynamic), history and
segment: R327 and R328 bound the search and do not state its result. -/
opaque deflateBits : Nat → Nat → List Byte → List Byte → List Bool

/-- Bytes 64 to 65,535 of the codec's context number `n`, by offset: internal to the engine (R334). -/
opaque contextByte : Nat → Nat → Byte

/-- What is particular to a die in its identity record (R533): LOT, WAFER, DIE_X, DIE_Y, FAB and TEST, bits [127:40]. -/
opaque dieRecord : BitVec 88

/-- Subsystem ID and subsystem vendor ID, as the board table in flash gives them; 0 each where it gives none (R34). -/
opaque subsystemId : BitVec 16
opaque subsystemVendor : BitVec 16

/-- The image version, the SVN and the settings format that an image's header holds (R535). -/
opaque imageVersion : List Byte → Nat
opaque imageSvn : List Byte → Nat
opaque imageFormat : List Byte → Nat

/-- The fused SVN floor (R535). -/
opaque svnFloor : Nat

/-- SHA-384, and the check of an image's key and signature (R535): published standards, with the keys in ROM and fuses. -/
opaque sha384 : List Byte → BitVec 384
opaque signatureOk : List Byte → Bool

/-- Whether an image of settings format `own` can read a record of format `other`, and what it makes of that record's body (R538). -/
opaque canConvert (own other : Nat) : Bool
opaque convertBody (own other : Nat) : List Byte → List Byte

/-- The settings an image of a format starts from by default: body and generation (R538). -/
opaque defaultBody : Nat → List Byte
opaque defaultGeneration : Nat → Nat

end Sys2Proof.Config
end

