-- ==== Sys2Proof/Machine/RegTypes.lean ====
section
/-!
DEFINITION. What a register field is (R3 to R7): its place, its access code and its reset value.
-/
namespace Sys2Proof.Machine

/-- The access codes of R6. -/
inductive Access where
  | rw | ro | wo | w1c | rws | rol
  deriving DecidableEq, Repr, Inhabited

/-- One field of a register or of an array of registers (R3, R6).
`addr` is the BAR0 offset of the register with both indices 0; `s1` and `s2` are the strides of its one or two indices.
`reset` is the value after a full device reset (R5); where the value differs by index, `resets` lists it by index. -/
structure Field where
  addr : Nat
  s1 : Nat := 0
  s2 : Nat := 0
  hi : Nat
  lo : Nat
  acc : Access
  reset : Nat := 0
  resets : List Nat := []
  deriving DecidableEq, Repr, Inhabited

/-- A register, or an array of `n1` by `n2` registers of one layout. -/
structure RegDef where
  addr : Nat
  n1 : Nat := 1
  s1 : Nat := 0
  n2 : Nat := 1
  s2 : Nat := 0
  fields : List Field
  deriving DecidableEq, Repr, Inhabited

end Sys2Proof.Machine
end

