-- ==== Sys2Proof/Machine/RegTable.lean ====
section
/-!
DEFINITION. Every register field of the sixteen blocks, as the register tables of the chapters give it: block base (R16)
plus offset, bit places, access code (R6) and reset value (R5). A field is named block, register, field.
Fields with access RO are listed too: their values are computed from the state they report (Machine/Status.lean).
-/
namespace Sys2Proof.Machine
namespace Reg

/-- MGT_BLOCK_STATE [31:0] STATES (R32). -/
def MGT_BLOCK_STATE_STATES : Field := { addr := 0x000100, hi := 31, lo := 0, acc := .ro }
/-- MGT_BLOCK_STATE (R32). -/
def MGT_BLOCK_STATE : RegDef := { addr := 0x000100, fields := [MGT_BLOCK_STATE_STATES] }
/-- MGT_OVERRUN_SUMMARY [15:0] OVR (R33). -/
def MGT_OVERRUN_SUMMARY_OVR : Field := { addr := 0x000108, hi := 15, lo := 0, acc := .w1c }
/-- MGT_OVERRUN_SUMMARY (R33). -/
def MGT_OVERRUN_SUMMARY : RegDef := { addr := 0x000108, fields := [MGT_OVERRUN_SUMMARY_OVR] }
/-- MGT_STAT_WAKE [63:0] WAKE (R567). -/
def MGT_STAT_WAKE_WAKE : Field := { addr := 0x000180, s1 := 0x8, hi := 63, lo := 0, acc := .rol }
/-- MGT_STAT_WAKE (R567). -/
def MGT_STAT_WAKE : RegDef := { addr := 0x000180, n1 := 16, s1 := 0x8, fields := [MGT_STAT_WAKE_WAKE] }
/-- MGT_SAFE_CTL [47:32] KICK_TIMEOUT (R222). -/
def MGT_SAFE_CTL_KICK_TIMEOUT : Field := { addr := 0x000200, hi := 47, lo := 32, acc := .rw, reset := 100 }
/-- MGT_SAFE_CTL [23:8] SAFE_QUAL (R222). -/
def MGT_SAFE_CTL_SAFE_QUAL : Field := { addr := 0x000200, hi := 23, lo := 8, acc := .rw, reset := 2000 }
/-- MGT_SAFE_CTL [1:1] FAULT_STOPS_READY (R222). -/
def MGT_SAFE_CTL_FAULT_STOPS_READY : Field := { addr := 0x000200, hi := 1, lo := 1, acc := .rw }
/-- MGT_SAFE_CTL [0:0] READY_EN (R222). -/
def MGT_SAFE_CTL_READY_EN : Field := { addr := 0x000200, hi := 0, lo := 0, acc := .rw }
/-- MGT_SAFE_CTL (R222). -/
def MGT_SAFE_CTL : RegDef := { addr := 0x000200, fields := [MGT_SAFE_CTL_KICK_TIMEOUT, MGT_SAFE_CTL_SAFE_QUAL, MGT_SAFE_CTL_FAULT_STOPS_READY, MGT_SAFE_CTL_READY_EN] }
/-- MGT_SAFE_STATUS [5:5] KICK_EXPIRED (R223). -/
def MGT_SAFE_STATUS_KICK_EXPIRED : Field := { addr := 0x000208, hi := 5, lo := 5, acc := .w1c }
/-- MGT_SAFE_STATUS [4:4] HB_RUN (R223). -/
def MGT_SAFE_STATUS_HB_RUN : Field := { addr := 0x000208, hi := 4, lo := 4, acc := .ro }
/-- MGT_SAFE_STATUS [3:3] READY_OUT (R223). -/
def MGT_SAFE_STATUS_READY_OUT : Field := { addr := 0x000208, hi := 3, lo := 3, acc := .ro }
/-- MGT_SAFE_STATUS [2:2] SAFE_CLOSED (R223). -/
def MGT_SAFE_STATUS_SAFE_CLOSED : Field := { addr := 0x000208, hi := 2, lo := 2, acc := .ro }
/-- MGT_SAFE_STATUS [1:1] SAFE_RAW (R223). -/
def MGT_SAFE_STATUS_SAFE_RAW : Field := { addr := 0x000208, hi := 1, lo := 1, acc := .ro }
/-- MGT_SAFE_STATUS [0:0] SAFE_OPENED (R223). -/
def MGT_SAFE_STATUS_SAFE_OPENED : Field := { addr := 0x000208, hi := 0, lo := 0, acc := .w1c }
/-- MGT_SAFE_STATUS (R223). -/
def MGT_SAFE_STATUS : RegDef := { addr := 0x000208, fields := [MGT_SAFE_STATUS_KICK_EXPIRED, MGT_SAFE_STATUS_HB_RUN, MGT_SAFE_STATUS_READY_OUT,
    MGT_SAFE_STATUS_SAFE_CLOSED, MGT_SAFE_STATUS_SAFE_RAW, MGT_SAFE_STATUS_SAFE_OPENED] }
/-- MGT_SAFE_KICK [15:0] KEY (R224). -/
def MGT_SAFE_KICK_KEY : Field := { addr := 0x000210, hi := 15, lo := 0, acc := .wo }
/-- MGT_SAFE_KICK (R224). -/
def MGT_SAFE_KICK : RegDef := { addr := 0x000210, fields := [MGT_SAFE_KICK_KEY] }
/-- MGT_CAL_STATUS [23:16] UNIT (R524). -/
def MGT_CAL_STATUS_UNIT : Field := { addr := 0x000400, hi := 23, lo := 16, acc := .ro }
/-- MGT_CAL_STATUS [15:12] KIND (R524). -/
def MGT_CAL_STATUS_KIND : Field := { addr := 0x000400, hi := 15, lo := 12, acc := .ro }
/-- MGT_CAL_STATUS [2:1] STATE (R524). -/
def MGT_CAL_STATUS_STATE : Field := { addr := 0x000400, hi := 2, lo := 1, acc := .ro }
/-- MGT_CAL_STATUS [0:0] REFUSED (R524). -/
def MGT_CAL_STATUS_REFUSED : Field := { addr := 0x000400, hi := 0, lo := 0, acc := .w1c }
/-- MGT_CAL_STATUS (R524). -/
def MGT_CAL_STATUS : RegDef := { addr := 0x000400, fields := [MGT_CAL_STATUS_UNIT, MGT_CAL_STATUS_KIND, MGT_CAL_STATUS_STATE, MGT_CAL_STATUS_REFUSED] }
/-- MGT_CAL_TOL [31:0] TOL (R525). -/
def MGT_CAL_TOL_TOL : Field := { addr := 0x000520, s1 := 0x20, hi := 31, lo := 0, acc := .rw, resets := [4, 64, 2, 32, 128, 16, 3277] }
/-- MGT_CAL_TOL (R525). -/
def MGT_CAL_TOL : RegDef := { addr := 0x000520, n1 := 7, s1 := 0x20, fields := [MGT_CAL_TOL_TOL] }
/-- MGT_CAL_COUNT [63:32] ACCEPTED (R525). -/
def MGT_CAL_COUNT_ACCEPTED : Field := { addr := 0x000528, s1 := 0x20, hi := 63, lo := 32, acc := .ro }
/-- MGT_CAL_COUNT [31:0] REJECTED (R525). -/
def MGT_CAL_COUNT_REJECTED : Field := { addr := 0x000528, s1 := 0x20, hi := 31, lo := 0, acc := .ro }
/-- MGT_CAL_COUNT (R525). -/
def MGT_CAL_COUNT : RegDef := { addr := 0x000528, n1 := 7, s1 := 0x20, fields := [MGT_CAL_COUNT_ACCEPTED, MGT_CAL_COUNT_REJECTED] }
/-- MGT_CAL_LAST [63:0] TIME (R525). -/
def MGT_CAL_LAST_TIME : Field := { addr := 0x000530, s1 := 0x20, hi := 63, lo := 0, acc := .ro }
/-- MGT_CAL_LAST (R525). -/
def MGT_CAL_LAST : RegDef := { addr := 0x000530, n1 := 7, s1 := 0x20, fields := [MGT_CAL_LAST_TIME] }
/-- MGT_IDENT_LO [63:0] IDENT (R541). -/
def MGT_IDENT_LO_IDENT : Field := { addr := 0x000600, hi := 63, lo := 0, acc := .ro }
/-- MGT_IDENT_LO (R541). -/
def MGT_IDENT_LO : RegDef := { addr := 0x000600, fields := [MGT_IDENT_LO_IDENT] }
/-- MGT_IDENT_HI [63:0] IDENT (R541). -/
def MGT_IDENT_HI_IDENT : Field := { addr := 0x000608, hi := 63, lo := 0, acc := .ro }
/-- MGT_IDENT_HI (R541). -/
def MGT_IDENT_HI : RegDef := { addr := 0x000608, fields := [MGT_IDENT_HI_IDENT] }
/-- MGT_FW_STATUS [63:32] RUN_VERSION (R542). -/
def MGT_FW_STATUS_RUN_VERSION : Field := { addr := 0x000610, hi := 63, lo := 32, acc := .ro }
/-- MGT_FW_STATUS [31:16] SVN_FLOOR (R542). -/
def MGT_FW_STATUS_SVN_FLOOR : Field := { addr := 0x000610, hi := 31, lo := 16, acc := .ro }
/-- MGT_FW_STATUS [11:8] SLOT1 (R542). -/
def MGT_FW_STATUS_SLOT1 : Field := { addr := 0x000610, hi := 11, lo := 8, acc := .ro }
/-- MGT_FW_STATUS [7:4] SLOT0 (R542). -/
def MGT_FW_STATUS_SLOT0 : Field := { addr := 0x000610, hi := 7, lo := 4, acc := .ro }
/-- MGT_FW_STATUS [0:0] RUNNING (R542). -/
def MGT_FW_STATUS_RUNNING : Field := { addr := 0x000610, hi := 0, lo := 0, acc := .ro }
/-- MGT_FW_STATUS (R542). -/
def MGT_FW_STATUS : RegDef := { addr := 0x000610, fields := [MGT_FW_STATUS_RUN_VERSION, MGT_FW_STATUS_SVN_FLOOR, MGT_FW_STATUS_SLOT1, MGT_FW_STATUS_SLOT0,
    MGT_FW_STATUS_RUNNING] }
/-- MGT_LOG_STATUS [63:32] NEXT_SEQ (R542). -/
def MGT_LOG_STATUS_NEXT_SEQ : Field := { addr := 0x000618, hi := 63, lo := 32, acc := .ro }
/-- MGT_LOG_STATUS [31:0] OVERWRITTEN (R542). -/
def MGT_LOG_STATUS_OVERWRITTEN : Field := { addr := 0x000618, hi := 31, lo := 0, acc := .ro }
/-- MGT_LOG_STATUS (R542). -/
def MGT_LOG_STATUS : RegDef := { addr := 0x000618, fields := [MGT_LOG_STATUS_NEXT_SEQ, MGT_LOG_STATUS_OVERWRITTEN] }
/-- MGT_RESET_CAUSE [2:0] CAUSE (R542). -/
def MGT_RESET_CAUSE_CAUSE : Field := { addr := 0x000620, hi := 2, lo := 0, acc := .ro }
/-- MGT_RESET_CAUSE (R542). -/
def MGT_RESET_CAUSE : RegDef := { addr := 0x000620, fields := [MGT_RESET_CAUSE_CAUSE] }
/-- MGT_GPIO [49:49] CLK10_EN (R550). -/
def MGT_GPIO_CLK10_EN : Field := { addr := 0x000700, hi := 49, lo := 49, acc := .rw }
/-- MGT_GPIO [48:48] PPS_EN (R550). -/
def MGT_GPIO_PPS_EN : Field := { addr := 0x000700, hi := 48, lo := 48, acc := .rw }
/-- MGT_GPIO [43:32] IN (R550). -/
def MGT_GPIO_IN : Field := { addr := 0x000700, hi := 43, lo := 32, acc := .ro }
/-- MGT_GPIO [27:16] OE (R550). -/
def MGT_GPIO_OE : Field := { addr := 0x000700, hi := 27, lo := 16, acc := .rw }
/-- MGT_GPIO [11:0] OUT (R550). -/
def MGT_GPIO_OUT : Field := { addr := 0x000700, hi := 11, lo := 0, acc := .rw }
/-- MGT_GPIO (R550). -/
def MGT_GPIO : RegDef := { addr := 0x000700, fields := [MGT_GPIO_CLK10_EN, MGT_GPIO_PPS_EN, MGT_GPIO_IN, MGT_GPIO_OE, MGT_GPIO_OUT] }
/-- HST_CTL [9:9] LINKDOWN_HOLD (R62). -/
def HST_CTL_LINKDOWN_HOLD : Field := { addr := 0x100000, hi := 9, lo := 9, acc := .rw }
/-- HST_CTL [8:8] BAR2_WR_EN (R62). -/
def HST_CTL_BAR2_WR_EN : Field := { addr := 0x100000, hi := 8, lo := 8, acc := .rw }
/-- HST_CTL [3:0] POLL_LOG2 (R62). -/
def HST_CTL_POLL_LOG2 : Field := { addr := 0x100000, hi := 3, lo := 0, acc := .rw, reset := 6 }
/-- HST_CTL (R62). -/
def HST_CTL : RegDef := { addr := 0x100000, fields := [HST_CTL_LINKDOWN_HOLD, HST_CTL_BAR2_WR_EN, HST_CTL_POLL_LOG2] }
/-- HST_DB_BASE [63:9] ADDR (R63). -/
def HST_DB_BASE_ADDR : Field := { addr := 0x100008, hi := 63, lo := 9, acc := .rw }
/-- HST_DB_BASE [0:0] EN (R63). -/
def HST_DB_BASE_EN : Field := { addr := 0x100008, hi := 0, lo := 0, acc := .rw }
/-- HST_DB_BASE (R63). -/
def HST_DB_BASE : RegDef := { addr := 0x100008, fields := [HST_DB_BASE_ADDR, HST_DB_BASE_EN] }
/-- HST_WB_BASE [63:9] ADDR (R63). -/
def HST_WB_BASE_ADDR : Field := { addr := 0x100010, hi := 63, lo := 9, acc := .rw }
/-- HST_WB_BASE [0:0] EN (R63). -/
def HST_WB_BASE_EN : Field := { addr := 0x100010, hi := 0, lo := 0, acc := .rw }
/-- HST_WB_BASE (R63). -/
def HST_WB_BASE : RegDef := { addr := 0x100010, fields := [HST_WB_BASE_ADDR, HST_WB_BASE_EN] }
/-- HST_STATUS [19:16] LINK_SPEED (R64). -/
def HST_STATUS_LINK_SPEED : Field := { addr := 0x100018, hi := 19, lo := 16, acc := .ro }
/-- HST_STATUS [15:8] LINK_WIDTH (R64). -/
def HST_STATUS_LINK_WIDTH : Field := { addr := 0x100018, hi := 15, lo := 8, acc := .ro }
/-- HST_STATUS [5:5] FLR_SEEN (R64). -/
def HST_STATUS_FLR_SEEN : Field := { addr := 0x100018, hi := 5, lo := 5, acc := .w1c }
/-- HST_STATUS [4:4] BME (R64). -/
def HST_STATUS_BME : Field := { addr := 0x100018, hi := 4, lo := 4, acc := .ro }
/-- HST_STATUS [3:3] LINK_UP (R64). -/
def HST_STATUS_LINK_UP : Field := { addr := 0x100018, hi := 3, lo := 3, acc := .ro }
/-- HST_STATUS [2:2] DB_FETCH_ERR (R64). -/
def HST_STATUS_DB_FETCH_ERR : Field := { addr := 0x100018, hi := 2, lo := 2, acc := .w1c }
/-- HST_STATUS [1:1] ANY_RING_ERROR (R64). -/
def HST_STATUS_ANY_RING_ERROR : Field := { addr := 0x100018, hi := 1, lo := 1, acc := .ro }
/-- HST_STATUS [0:0] REFUSED (R64). -/
def HST_STATUS_REFUSED : Field := { addr := 0x100018, hi := 0, lo := 0, acc := .w1c }
/-- HST_STATUS (R64). -/
def HST_STATUS : RegDef := { addr := 0x100018, fields := [HST_STATUS_LINK_SPEED, HST_STATUS_LINK_WIDTH, HST_STATUS_FLR_SEEN, HST_STATUS_BME, HST_STATUS_LINK_UP,
    HST_STATUS_DB_FETCH_ERR, HST_STATUS_ANY_RING_ERROR, HST_STATUS_REFUSED] }
/-- HST_ERR_IRQ [8:8] EN (R65). -/
def HST_ERR_IRQ_EN : Field := { addr := 0x100020, hi := 8, lo := 8, acc := .rw }
/-- HST_ERR_IRQ [7:0] VECTOR (R65). -/
def HST_ERR_IRQ_VECTOR : Field := { addr := 0x100020, hi := 7, lo := 0, acc := .rw }
/-- HST_ERR_IRQ (R65). -/
def HST_ERR_IRQ : RegDef := { addr := 0x100020, fields := [HST_ERR_IRQ_EN, HST_ERR_IRQ_VECTOR] }
/-- HST_DB_SKIPS [63:0] COUNT (R66). -/
def HST_DB_SKIPS_COUNT : Field := { addr := 0x100028, hi := 63, lo := 0, acc := .rol }
/-- HST_DB_SKIPS (R66). -/
def HST_DB_SKIPS : RegDef := { addr := 0x100028, fields := [HST_DB_SKIPS_COUNT] }
/-- HST_ABANDONED [63:0] COUNT (R66). -/
def HST_ABANDONED_COUNT : Field := { addr := 0x100030, hi := 63, lo := 0, acc := .rol }
/-- HST_ABANDONED (R66). -/
def HST_ABANDONED : RegDef := { addr := 0x100030, fields := [HST_ABANDONED_COUNT] }
/-- HST_BAR2_DROPS [63:0] COUNT (R66). -/
def HST_BAR2_DROPS_COUNT : Field := { addr := 0x100038, hi := 63, lo := 0, acc := .rol }
/-- HST_BAR2_DROPS (R66). -/
def HST_BAR2_DROPS : RegDef := { addr := 0x100038, fields := [HST_BAR2_DROPS_COUNT] }
/-- HST_EVT_ROUTE [24:24] STAT_EN (R67). -/
def HST_EVT_ROUTE_STAT_EN : Field := { addr := 0x102000, s1 := 0x8, hi := 24, lo := 24, acc := .rw }
/-- HST_EVT_ROUTE [21:16] STAT_RING (R67). -/
def HST_EVT_ROUTE_STAT_RING : Field := { addr := 0x102000, s1 := 0x8, hi := 21, lo := 16, acc := .rw }
/-- HST_EVT_ROUTE [8:8] EVT_EN (R67). -/
def HST_EVT_ROUTE_EVT_EN : Field := { addr := 0x102000, s1 := 0x8, hi := 8, lo := 8, acc := .rw }
/-- HST_EVT_ROUTE [5:0] EVT_RING (R67). -/
def HST_EVT_ROUTE_EVT_RING : Field := { addr := 0x102000, s1 := 0x8, hi := 5, lo := 0, acc := .rw }
/-- HST_EVT_ROUTE (R67). -/
def HST_EVT_ROUTE : RegDef := { addr := 0x102000, n1 := 16, s1 := 0x8, fields := [HST_EVT_ROUTE_STAT_EN, HST_EVT_ROUTE_STAT_RING, HST_EVT_ROUTE_EVT_EN,
    HST_EVT_ROUTE_EVT_RING] }
/-- HST_FOREIGN_ROUTE [8:8] EVT_EN (R67). -/
def HST_FOREIGN_ROUTE_EVT_EN : Field := { addr := 0x102080, hi := 8, lo := 8, acc := .rw }
/-- HST_FOREIGN_ROUTE [5:0] EVT_RING (R67). -/
def HST_FOREIGN_ROUTE_EVT_RING : Field := { addr := 0x102080, hi := 5, lo := 0, acc := .rw }
/-- HST_FOREIGN_ROUTE (R67). -/
def HST_FOREIGN_ROUTE : RegDef := { addr := 0x102080, fields := [HST_FOREIGN_ROUTE_EVT_EN, HST_FOREIGN_ROUTE_EVT_RING] }
/-- HST_RING_BASE [63:6] ADDR (R68). -/
def HST_RING_BASE_ADDR : Field := { addr := 0x110000, s1 := 0x40, hi := 63, lo := 6, acc := .rw }
/-- HST_RING_BASE (R68). -/
def HST_RING_BASE : RegDef := { addr := 0x110000, n1 := 64, s1 := 0x40, fields := [HST_RING_BASE_ADDR] }
/-- HST_RING_CFG [27:26] PRIO (R68). -/
def HST_RING_CFG_PRIO : Field := { addr := 0x110008, s1 := 0x40, hi := 27, lo := 26, acc := .rw }
/-- HST_RING_CFG [25:25] FOREIGN (R68). -/
def HST_RING_CFG_FOREIGN : Field := { addr := 0x110008, s1 := 0x40, hi := 25, lo := 25, acc := .rw }
/-- HST_RING_CFG [24:24] ENABLE (R68). -/
def HST_RING_CFG_ENABLE : Field := { addr := 0x110008, s1 := 0x40, hi := 24, lo := 24, acc := .rw }
/-- HST_RING_CFG [21:16] DONE_RING (R68). -/
def HST_RING_CFG_DONE_RING : Field := { addr := 0x110008, s1 := 0x40, hi := 21, lo := 16, acc := .rw }
/-- HST_RING_CFG [12:8] LOG2_SIZE (R68). -/
def HST_RING_CFG_LOG2_SIZE : Field := { addr := 0x110008, s1 := 0x40, hi := 12, lo := 8, acc := .rw }
/-- HST_RING_CFG [3:0] CLASS (R68). -/
def HST_RING_CFG_CLASS : Field := { addr := 0x110008, s1 := 0x40, hi := 3, lo := 0, acc := .rw }
/-- HST_RING_CFG (R68). -/
def HST_RING_CFG : RegDef := { addr := 0x110008, n1 := 64, s1 := 0x40, fields := [HST_RING_CFG_PRIO, HST_RING_CFG_FOREIGN, HST_RING_CFG_ENABLE,
    HST_RING_CFG_DONE_RING, HST_RING_CFG_LOG2_SIZE, HST_RING_CFG_CLASS] }
/-- HST_RING_IRQ [47:32] MOD_BEATS (R68). -/
def HST_RING_IRQ_MOD_BEATS : Field := { addr := 0x110010, s1 := 0x40, hi := 47, lo := 32, acc := .rw }
/-- HST_RING_IRQ [31:24] MOD_COUNT (R68). -/
def HST_RING_IRQ_MOD_COUNT : Field := { addr := 0x110010, s1 := 0x40, hi := 31, lo := 24, acc := .rw }
/-- HST_RING_IRQ [16:16] IRQ_EN (R68). -/
def HST_RING_IRQ_IRQ_EN : Field := { addr := 0x110010, s1 := 0x40, hi := 16, lo := 16, acc := .rw }
/-- HST_RING_IRQ [7:0] VECTOR (R68). -/
def HST_RING_IRQ_VECTOR : Field := { addr := 0x110010, s1 := 0x40, hi := 7, lo := 0, acc := .rw }
/-- HST_RING_IRQ (R68). -/
def HST_RING_IRQ : RegDef := { addr := 0x110010, n1 := 64, s1 := 0x40, fields := [HST_RING_IRQ_MOD_BEATS, HST_RING_IRQ_MOD_COUNT, HST_RING_IRQ_IRQ_EN,
    HST_RING_IRQ_VECTOR] }
/-- HST_RING_STATUS [63:48] LAST_ERROR (R68). -/
def HST_RING_STATUS_LAST_ERROR : Field := { addr := 0x110018, s1 := 0x40, hi := 63, lo := 48, acc := .ro }
/-- HST_RING_STATUS [33:32] STATE (R68). -/
def HST_RING_STATUS_STATE : Field := { addr := 0x110018, s1 := 0x40, hi := 33, lo := 32, acc := .ro }
/-- HST_RING_STATUS [31:0] INDEX (R68). -/
def HST_RING_STATUS_INDEX : Field := { addr := 0x110018, s1 := 0x40, hi := 31, lo := 0, acc := .ro }
/-- HST_RING_STATUS (R68). -/
def HST_RING_STATUS : RegDef := { addr := 0x110018, n1 := 64, s1 := 0x40, fields := [HST_RING_STATUS_LAST_ERROR, HST_RING_STATUS_STATE, HST_RING_STATUS_INDEX] }
/-- HST_RING_COUNTS [63:32] LOST (R68). -/
def HST_RING_COUNTS_LOST : Field := { addr := 0x110020, s1 := 0x40, hi := 63, lo := 32, acc := .rol }
/-- HST_RING_COUNTS [31:0] ENTRIES (R68). -/
def HST_RING_COUNTS_ENTRIES : Field := { addr := 0x110020, s1 := 0x40, hi := 31, lo := 0, acc := .rol }
/-- HST_RING_COUNTS (R68). -/
def HST_RING_COUNTS : RegDef := { addr := 0x110020, n1 := 64, s1 := 0x40, fields := [HST_RING_COUNTS_LOST, HST_RING_COUNTS_ENTRIES] }
/-- MSN_CTL [11:8] URGENT_MAX (R122). -/
def MSN_CTL_URGENT_MAX : Field := { addr := 0x200000, hi := 11, lo := 8, acc := .rw, reset := 4 }
/-- MSN_CTL [4:4] DEP_PARTIAL (R122). -/
def MSN_CTL_DEP_PARTIAL : Field := { addr := 0x200000, hi := 4, lo := 4, acc := .rw }
/-- MSN_CTL [3:3] PLUME_MODE (R122). -/
def MSN_CTL_PLUME_MODE : Field := { addr := 0x200000, hi := 3, lo := 3, acc := .rw }
/-- MSN_CTL [2:2] GUARD_EN (R122). -/
def MSN_CTL_GUARD_EN : Field := { addr := 0x200000, hi := 2, lo := 2, acc := .rw, reset := 1 }
/-- MSN_CTL [1:1] HOST_HOLD (R122). -/
def MSN_CTL_HOST_HOLD : Field := { addr := 0x200000, hi := 1, lo := 1, acc := .rw }
/-- MSN_CTL (R122). -/
def MSN_CTL : RegDef := { addr := 0x200000, fields := [MSN_CTL_URGENT_MAX, MSN_CTL_DEP_PARTIAL, MSN_CTL_PLUME_MODE, MSN_CTL_GUARD_EN, MSN_CTL_HOST_HOLD] }
/-- MSN_STATUS [18:18] HOLD_LINK (R123). -/
def MSN_STATUS_HOLD_LINK : Field := { addr := 0x200008, hi := 18, lo := 18, acc := .ro }
/-- MSN_STATUS [17:17] HOLD_THERMAL (R123). -/
def MSN_STATUS_HOLD_THERMAL : Field := { addr := 0x200008, hi := 17, lo := 17, acc := .ro }
/-- MSN_STATUS [16:16] HOLD_HOST (R123). -/
def MSN_STATUS_HOLD_HOST : Field := { addr := 0x200008, hi := 16, lo := 16, acc := .ro }
/-- MSN_STATUS [15:8] URGENT (R123). -/
def MSN_STATUS_URGENT : Field := { addr := 0x200008, hi := 15, lo := 8, acc := .ro }
/-- MSN_STATUS [1:1] DEVICE_HOLD (R123). -/
def MSN_STATUS_DEVICE_HOLD : Field := { addr := 0x200008, hi := 1, lo := 1, acc := .ro }
/-- MSN_STATUS [0:0] REFUSED (R123). -/
def MSN_STATUS_REFUSED : Field := { addr := 0x200008, hi := 0, lo := 0, acc := .w1c }
/-- MSN_STATUS (R123). -/
def MSN_STATUS : RegDef := { addr := 0x200008, fields := [MSN_STATUS_HOLD_LINK, MSN_STATUS_HOLD_THERMAL, MSN_STATUS_HOLD_HOST, MSN_STATUS_URGENT,
    MSN_STATUS_DEVICE_HOLD, MSN_STATUS_REFUSED] }
/-- MSN_GAS [63:32] COS (R124). -/
def MSN_GAS_COS : Field := { addr := 0x200010, hi := 63, lo := 32, acc := .rw, reset := 0x40000000 }
/-- MSN_GAS [31:0] SIN (R124). -/
def MSN_GAS_SIN : Field := { addr := 0x200010, hi := 31, lo := 0, acc := .rw }
/-- MSN_GAS (R124). -/
def MSN_GAS : RegDef := { addr := 0x200010, fields := [MSN_GAS_COS, MSN_GAS_SIN] }
/-- MSN_LIMITS [63:32] UNPLACEABLE_WAIT (R125). -/
def MSN_LIMITS_UNPLACEABLE_WAIT : Field := { addr := 0x200018, hi := 63, lo := 32, acc := .rw, reset := 20000000 }
/-- MSN_LIMITS [31:0] PLUME_HOLD_MAX (R125). -/
def MSN_LIMITS_PLUME_HOLD_MAX : Field := { addr := 0x200018, hi := 31, lo := 0, acc := .rw, reset := 200000 }
/-- MSN_LIMITS (R125). -/
def MSN_LIMITS : RegDef := { addr := 0x200018, fields := [MSN_LIMITS_UNPLACEABLE_WAIT, MSN_LIMITS_PLUME_HOLD_MAX] }
/-- MSN_FAIR [63:32] STARVE_LIMIT (R126). -/
def MSN_FAIR_STARVE_LIMIT : Field := { addr := 0x200020, hi := 63, lo := 32, acc := .rw, reset := 200000 }
/-- MSN_FAIR [10:0] SCAN_DEPTH (R126). -/
def MSN_FAIR_SCAN_DEPTH : Field := { addr := 0x200020, hi := 10, lo := 0, acc := .rw, reset := 256 }
/-- MSN_FAIR (R126). -/
def MSN_FAIR : RegDef := { addr := 0x200020, fields := [MSN_FAIR_STARVE_LIMIT, MSN_FAIR_SCAN_DEPTH] }
/-- MSN_CHAN_STATE [63:0] STATES (R127). -/
def MSN_CHAN_STATE_STATES : Field := { addr := 0x200028, hi := 63, lo := 0, acc := .ro }
/-- MSN_CHAN_STATE (R127). -/
def MSN_CHAN_STATE : RegDef := { addr := 0x200028, fields := [MSN_CHAN_STATE_STATES] }
/-- MSN_CHAN_HOLD [31:0] CAUSES (R127). -/
def MSN_CHAN_HOLD_CAUSES : Field := { addr := 0x200030, hi := 31, lo := 0, acc := .ro }
/-- MSN_CHAN_HOLD (R127). -/
def MSN_CHAN_HOLD : RegDef := { addr := 0x200030, fields := [MSN_CHAN_HOLD_CAUSES] }
/-- MSN_PLUME [63:48] VICTIM (R128). -/
def MSN_PLUME_VICTIM : Field := { addr := 0x200100, s1 := 0x8, hi := 63, lo := 48, acc := .rws }
/-- MSN_PLUME [47:36] WINDOW (R128). -/
def MSN_PLUME_WINDOW : Field := { addr := 0x200100, s1 := 0x8, hi := 47, lo := 36, acc := .rws }
/-- MSN_PLUME [35:18] DOWN (R128). -/
def MSN_PLUME_DOWN : Field := { addr := 0x200100, s1 := 0x8, hi := 35, lo := 18, acc := .rws }
/-- MSN_PLUME [17:0] HALF_W (R128). -/
def MSN_PLUME_HALF_W : Field := { addr := 0x200100, s1 := 0x8, hi := 17, lo := 0, acc := .rws }
/-- MSN_PLUME (R128). -/
def MSN_PLUME : RegDef := { addr := 0x200100, n1 := 16, s1 := 0x8, fields := [MSN_PLUME_VICTIM, MSN_PLUME_WINDOW, MSN_PLUME_DOWN, MSN_PLUME_HALF_W] }
/-- MSN_STAT_ASSIGNED [63:0] COUNT (R129). -/
def MSN_STAT_ASSIGNED_COUNT : Field := { addr := 0x200200, hi := 63, lo := 0, acc := .rol }
/-- MSN_STAT_ASSIGNED (R129). -/
def MSN_STAT_ASSIGNED : RegDef := { addr := 0x200200, fields := [MSN_STAT_ASSIGNED_COUNT] }
/-- MSN_STAT_REMNANTS [63:0] COUNT (R129). -/
def MSN_STAT_REMNANTS_COUNT : Field := { addr := 0x200208, hi := 63, lo := 0, acc := .rol }
/-- MSN_STAT_REMNANTS (R129). -/
def MSN_STAT_REMNANTS : RegDef := { addr := 0x200208, fields := [MSN_STAT_REMNANTS_COUNT] }
/-- MSN_STAT_UNREACHABLE [63:0] COUNT (R129). -/
def MSN_STAT_UNREACHABLE_COUNT : Field := { addr := 0x200210, hi := 63, lo := 0, acc := .rol }
/-- MSN_STAT_UNREACHABLE (R129). -/
def MSN_STAT_UNREACHABLE : RegDef := { addr := 0x200210, fields := [MSN_STAT_UNREACHABLE_COUNT] }
/-- MSN_STAT_PLUME_HOLDS [63:0] COUNT (R129). -/
def MSN_STAT_PLUME_HOLDS_COUNT : Field := { addr := 0x200218, hi := 63, lo := 0, acc := .rol }
/-- MSN_STAT_PLUME_HOLDS (R129). -/
def MSN_STAT_PLUME_HOLDS : RegDef := { addr := 0x200218, fields := [MSN_STAT_PLUME_HOLDS_COUNT] }
/-- MSN_STAT_PLUME_BEATS [63:0] COUNT (R129). -/
def MSN_STAT_PLUME_BEATS_COUNT : Field := { addr := 0x200220, hi := 63, lo := 0, acc := .rol }
/-- MSN_STAT_PLUME_BEATS (R129). -/
def MSN_STAT_PLUME_BEATS : RegDef := { addr := 0x200220, fields := [MSN_STAT_PLUME_BEATS_COUNT] }
/-- MSN_STAT_PLUME_TIMEOUTS [63:0] COUNT (R129). -/
def MSN_STAT_PLUME_TIMEOUTS_COUNT : Field := { addr := 0x200228, hi := 63, lo := 0, acc := .rol }
/-- MSN_STAT_PLUME_TIMEOUTS (R129). -/
def MSN_STAT_PLUME_TIMEOUTS : RegDef := { addr := 0x200228, fields := [MSN_STAT_PLUME_TIMEOUTS_COUNT] }
/-- MSN_STAT_URGENT [63:0] COUNT (R129). -/
def MSN_STAT_URGENT_COUNT : Field := { addr := 0x200230, hi := 63, lo := 0, acc := .rol }
/-- MSN_STAT_URGENT (R129). -/
def MSN_STAT_URGENT : RegDef := { addr := 0x200230, fields := [MSN_STAT_URGENT_COUNT] }
/-- MSN_STAT_IDLE_BEATS [63:0] COUNT (R129). -/
def MSN_STAT_IDLE_BEATS_COUNT : Field := { addr := 0x200238, hi := 63, lo := 0, acc := .rol }
/-- MSN_STAT_IDLE_BEATS (R129). -/
def MSN_STAT_IDLE_BEATS : RegDef := { addr := 0x200238, fields := [MSN_STAT_IDLE_BEATS_COUNT] }
/-- MSN_STAT_HOLD_BEATS [63:0] COUNT (R129). -/
def MSN_STAT_HOLD_BEATS_COUNT : Field := { addr := 0x200240, hi := 63, lo := 0, acc := .rol }
/-- MSN_STAT_HOLD_BEATS (R129). -/
def MSN_STAT_HOLD_BEATS : RegDef := { addr := 0x200240, fields := [MSN_STAT_HOLD_BEATS_COUNT] }
/-- MSN_CRS_STATUS [63:32] COURSE (R96). -/
def MSN_CRS_STATUS_COURSE : Field := { addr := 0x206000, hi := 63, lo := 32, acc := .ro }
/-- MSN_CRS_STATUS [2:2] LAST_VALID (R96). -/
def MSN_CRS_STATUS_LAST_VALID : Field := { addr := 0x206000, hi := 2, lo := 2, acc := .ro }
/-- MSN_CRS_STATUS [1:0] STATE (R96). -/
def MSN_CRS_STATUS_STATE : Field := { addr := 0x206000, hi := 1, lo := 0, acc := .ro }
/-- MSN_CRS_STATUS (R96). -/
def MSN_CRS_STATUS : RegDef := { addr := 0x206000, fields := [MSN_CRS_STATUS_COURSE, MSN_CRS_STATUS_LAST_VALID, MSN_CRS_STATUS_STATE] }
/-- MSN_CRS_COUNT [63:32] ACCEPTED (R97). -/
def MSN_CRS_COUNT_ACCEPTED : Field := { addr := 0x206008, hi := 63, lo := 32, acc := .ro }
/-- MSN_CRS_COUNT [31:0] TOTAL (R97). -/
def MSN_CRS_COUNT_TOTAL : Field := { addr := 0x206008, hi := 31, lo := 0, acc := .ro }
/-- MSN_CRS_COUNT (R97). -/
def MSN_CRS_COUNT : RegDef := { addr := 0x206008, fields := [MSN_CRS_COUNT_ACCEPTED, MSN_CRS_COUNT_TOTAL] }
/-- MSN_PSET_STATUS [63:32] LAST_BEAT (R98). -/
def MSN_PSET_STATUS_LAST_BEAT : Field := { addr := 0x206010, hi := 63, lo := 32, acc := .ro }
/-- MSN_PSET_STATUS [31:16] COMMITS (R98). -/
def MSN_PSET_STATUS_COMMITS : Field := { addr := 0x206010, hi := 31, lo := 16, acc := .rol }
/-- MSN_PSET_STATUS [15:0] REFUSED (R98). -/
def MSN_PSET_STATUS_REFUSED : Field := { addr := 0x206010, hi := 15, lo := 0, acc := .rol }
/-- MSN_PSET_STATUS (R98). -/
def MSN_PSET_STATUS : RegDef := { addr := 0x206010, fields := [MSN_PSET_STATUS_LAST_BEAT, MSN_PSET_STATUS_COMMITS, MSN_PSET_STATUS_REFUSED] }
/-- MSN_STAT_ACCEPTED [63:0] COUNT (R99). -/
def MSN_STAT_ACCEPTED_COUNT : Field := { addr := 0x206020, hi := 63, lo := 0, acc := .rol }
/-- MSN_STAT_ACCEPTED (R99). -/
def MSN_STAT_ACCEPTED : RegDef := { addr := 0x206020, fields := [MSN_STAT_ACCEPTED_COUNT] }
/-- MSN_STAT_REJECTED [63:0] COUNT (R99). -/
def MSN_STAT_REJECTED_COUNT : Field := { addr := 0x206028, hi := 63, lo := 0, acc := .rol }
/-- MSN_STAT_REJECTED (R99). -/
def MSN_STAT_REJECTED : RegDef := { addr := 0x206028, fields := [MSN_STAT_REJECTED_COUNT] }
/-- MSN_STAT_COMPLETED [63:0] COUNT (R99). -/
def MSN_STAT_COMPLETED_COUNT : Field := { addr := 0x206030, hi := 63, lo := 0, acc := .rol }
/-- MSN_STAT_COMPLETED (R99). -/
def MSN_STAT_COMPLETED : RegDef := { addr := 0x206030, fields := [MSN_STAT_COMPLETED_COUNT] }
/-- MSN_STAT_VECTORS [63:0] COUNT (R99). -/
def MSN_STAT_VECTORS_COUNT : Field := { addr := 0x206038, hi := 63, lo := 0, acc := .rol }
/-- MSN_STAT_VECTORS (R99). -/
def MSN_STAT_VECTORS : RegDef := { addr := 0x206038, fields := [MSN_STAT_VECTORS_COUNT] }
/-- PTH_CTL [15:0] CORNER_ANGLE (R160). -/
def PTH_CTL_CORNER_ANGLE : Field := { addr := 0x300000, hi := 15, lo := 0, acc := .rw, reset := 23 }
/-- PTH_CTL (R160). -/
def PTH_CTL : RegDef := { addr := 0x300000, fields := [PTH_CTL_CORNER_ANGLE] }
/-- PTH_STATUS [48:32] SLOTS_FREE (R161). -/
def PTH_STATUS_SLOTS_FREE : Field := { addr := 0x300008, hi := 48, lo := 32, acc := .ro, reset := 0x1FFFF }
/-- PTH_STATUS [0:0] REFUSED (R161). -/
def PTH_STATUS_REFUSED : Field := { addr := 0x300008, hi := 0, lo := 0, acc := .w1c }
/-- PTH_STATUS (R161). -/
def PTH_STATUS : RegDef := { addr := 0x300008, fields := [PTH_STATUS_SLOTS_FREE, PTH_STATUS_REFUSED] }
/-- PTH_GRID_BASE [31:0] ADDR (R161). -/
def PTH_GRID_BASE_ADDR : Field := { addr := 0x300010, hi := 31, lo := 0, acc := .ro, reset := 0x03600000 }
/-- PTH_GRID_BASE (R161). -/
def PTH_GRID_BASE : RegDef := { addr := 0x300010, fields := [PTH_GRID_BASE_ADDR] }
/-- PTH_SPEED [63:48] VEL (R162). -/
def PTH_SPEED_VEL : Field := { addr := 0x300800, s1 := 0x8, hi := 63, lo := 48, acc := .rws, reset := 100 }
/-- PTH_SPEED [43:24] ACC (R162). -/
def PTH_SPEED_ACC : Field := { addr := 0x300800, s1 := 0x8, hi := 43, lo := 24, acc := .rws, reset := 1000 }
/-- PTH_SPEED (R162). -/
def PTH_SPEED : RegDef := { addr := 0x300800, n1 := 256, s1 := 0x8, fields := [PTH_SPEED_VEL, PTH_SPEED_ACC] }
/-- PTH_FIELD_X [63:32] MIN (R163). -/
def PTH_FIELD_X_MIN : Field := { addr := 0x301000, s1 := 0x40, hi := 63, lo := 32, acc := .rw }
/-- PTH_FIELD_X [31:0] MAX (R163). -/
def PTH_FIELD_X_MAX : Field := { addr := 0x301000, s1 := 0x40, hi := 31, lo := 0, acc := .rw }
/-- PTH_FIELD_X (R163). -/
def PTH_FIELD_X : RegDef := { addr := 0x301000, n1 := 16, s1 := 0x40, fields := [PTH_FIELD_X_MIN, PTH_FIELD_X_MAX] }
/-- PTH_FIELD_Y [63:32] MIN (R163). -/
def PTH_FIELD_Y_MIN : Field := { addr := 0x301008, s1 := 0x40, hi := 63, lo := 32, acc := .rw }
/-- PTH_FIELD_Y [31:0] MAX (R163). -/
def PTH_FIELD_Y_MAX : Field := { addr := 0x301008, s1 := 0x40, hi := 31, lo := 0, acc := .rw }
/-- PTH_FIELD_Y (R163). -/
def PTH_FIELD_Y : RegDef := { addr := 0x301008, n1 := 16, s1 := 0x40, fields := [PTH_FIELD_Y_MIN, PTH_FIELD_Y_MAX] }
/-- PTH_DYN [63:48] VMAX_JUMP (R163). -/
def PTH_DYN_VMAX_JUMP : Field := { addr := 0x301010, s1 := 0x40, hi := 63, lo := 48, acc := .rw, reset := 40000 }
/-- PTH_DYN [47:32] VMAX_MARK (R163). -/
def PTH_DYN_VMAX_MARK : Field := { addr := 0x301010, s1 := 0x40, hi := 47, lo := 32, acc := .rw, reset := 20000 }
/-- PTH_DYN [19:0] STOP_ACC (R163). -/
def PTH_DYN_STOP_ACC : Field := { addr := 0x301010, s1 := 0x40, hi := 19, lo := 0, acc := .rw, reset := 100000 }
/-- PTH_DYN (R163). -/
def PTH_DYN : RegDef := { addr := 0x301010, n1 := 16, s1 := 0x40, fields := [PTH_DYN_VMAX_JUMP, PTH_DYN_VMAX_MARK, PTH_DYN_STOP_ACC] }
/-- PTH_FOCUS [63:48] FOCUS_VEL (R163). -/
def PTH_FOCUS_FOCUS_VEL : Field := { addr := 0x301018, s1 := 0x40, hi := 63, lo := 48, acc := .rw, reset := 100 }
/-- PTH_FOCUS [39:20] FOCUS_ACC (R163). -/
def PTH_FOCUS_FOCUS_ACC : Field := { addr := 0x301018, s1 := 0x40, hi := 39, lo := 20, acc := .rw, reset := 100 }
/-- PTH_FOCUS (R163). -/
def PTH_FOCUS : RegDef := { addr := 0x301018, n1 := 16, s1 := 0x40, fields := [PTH_FOCUS_FOCUS_VEL, PTH_FOCUS_FOCUS_ACC] }
/-- PTH_TIMING [15:0] TRACK_DELAY (R163). -/
def PTH_TIMING_TRACK_DELAY : Field := { addr := 0x301020, s1 := 0x40, hi := 15, lo := 0, acc := .rw, reset := 4800 }
/-- PTH_TIMING (R163). -/
def PTH_TIMING : RegDef := { addr := 0x301020, n1 := 16, s1 := 0x40, fields := [PTH_TIMING_TRACK_DELAY] }
/-- PTH_CHSTATUS [12:12] END_NEAR (R163). -/
def PTH_CHSTATUS_END_NEAR : Field := { addr := 0x301028, s1 := 0x40, hi := 12, lo := 12, acc := .ro }
/-- PTH_CHSTATUS [11:9] STATE (R163). -/
def PTH_CHSTATUS_STATE : Field := { addr := 0x301028, s1 := 0x40, hi := 11, lo := 9, acc := .ro }
/-- PTH_CHSTATUS [8:8] FIELD_OK (R163). -/
def PTH_CHSTATUS_FIELD_OK : Field := { addr := 0x301028, s1 := 0x40, hi := 8, lo := 8, acc := .ro }
/-- PTH_CHSTATUS [4:0] SLOT (R163). -/
def PTH_CHSTATUS_SLOT : Field := { addr := 0x301028, s1 := 0x40, hi := 4, lo := 0, acc := .ro, reset := 31 }
/-- PTH_CHSTATUS (R163). -/
def PTH_CHSTATUS : RegDef := { addr := 0x301028, n1 := 16, s1 := 0x40, fields := [PTH_CHSTATUS_END_NEAR, PTH_CHSTATUS_STATE, PTH_CHSTATUS_FIELD_OK, PTH_CHSTATUS_SLOT] }
/-- PTH_REF [63:32] X (R163). -/
def PTH_REF_X : Field := { addr := 0x301030, s1 := 0x40, hi := 63, lo := 32, acc := .ro }
/-- PTH_REF [31:0] Y (R163). -/
def PTH_REF_Y : Field := { addr := 0x301030, s1 := 0x40, hi := 31, lo := 0, acc := .ro }
/-- PTH_REF (R163). -/
def PTH_REF : RegDef := { addr := 0x301030, n1 := 16, s1 := 0x40, fields := [PTH_REF_X, PTH_REF_Y] }
/-- PTH_STAT_JOINS [63:0] COUNT (R164). -/
def PTH_STAT_JOINS_COUNT : Field := { addr := 0x300100, hi := 63, lo := 0, acc := .rol }
/-- PTH_STAT_JOINS (R164). -/
def PTH_STAT_JOINS : RegDef := { addr := 0x300100, fields := [PTH_STAT_JOINS_COUNT] }
/-- PTH_STAT_CLIPPED [63:0] COUNT (R164). -/
def PTH_STAT_CLIPPED_COUNT : Field := { addr := 0x300108, hi := 63, lo := 0, acc := .rol }
/-- PTH_STAT_CLIPPED (R164). -/
def PTH_STAT_CLIPPED : RegDef := { addr := 0x300108, fields := [PTH_STAT_CLIPPED_COUNT] }
/-- PTH_STAT_SPEED_CLAMP [63:0] COUNT (R164). -/
def PTH_STAT_SPEED_CLAMP_COUNT : Field := { addr := 0x300110, hi := 63, lo := 0, acc := .rol }
/-- PTH_STAT_SPEED_CLAMP (R164). -/
def PTH_STAT_SPEED_CLAMP : RegDef := { addr := 0x300110, fields := [PTH_STAT_SPEED_CLAMP_COUNT] }
/-- PTH_STAT_ARC_SLOWED [63:0] COUNT (R164). -/
def PTH_STAT_ARC_SLOWED_COUNT : Field := { addr := 0x300118, hi := 63, lo := 0, acc := .rol }
/-- PTH_STAT_ARC_SLOWED (R164). -/
def PTH_STAT_ARC_SLOWED : RegDef := { addr := 0x300118, fields := [PTH_STAT_ARC_SLOWED_COUNT] }
/-- PTH_STAT_FOCUS_CLAMP [63:0] COUNT (R164). -/
def PTH_STAT_FOCUS_CLAMP_COUNT : Field := { addr := 0x300120, hi := 63, lo := 0, acc := .rol }
/-- PTH_STAT_FOCUS_CLAMP (R164). -/
def PTH_STAT_FOCUS_CLAMP : RegDef := { addr := 0x300120, fields := [PTH_STAT_FOCUS_CLAMP_COUNT] }
/-- PTH_STAT_HOLD_PASSES [63:0] COUNT (R164). -/
def PTH_STAT_HOLD_PASSES_COUNT : Field := { addr := 0x300128, hi := 63, lo := 0, acc := .rol }
/-- PTH_STAT_HOLD_PASSES (R164). -/
def PTH_STAT_HOLD_PASSES : RegDef := { addr := 0x300128, fields := [PTH_STAT_HOLD_PASSES_COUNT] }
/-- PTH_STAT_STOPS [63:0] COUNT (R164). -/
def PTH_STAT_STOPS_COUNT : Field := { addr := 0x300130, hi := 63, lo := 0, acc := .rol }
/-- PTH_STAT_STOPS (R164). -/
def PTH_STAT_STOPS : RegDef := { addr := 0x300130, fields := [PTH_STAT_STOPS_COUNT] }
/-- PTH_SEAM_CTL [51:32] SEAM_LEAD (R183). -/
def PTH_SEAM_CTL_SEAM_LEAD : Field := { addr := 0x304000, hi := 51, lo := 32, acc := .rw, reset := 200000 }
/-- PTH_SEAM_CTL [31:16] TRACK_TOL (R183). -/
def PTH_SEAM_CTL_TRACK_TOL : Field := { addr := 0x304000, hi := 31, lo := 16, acc := .rw }
/-- PTH_SEAM_CTL [0:0] EN (R183). -/
def PTH_SEAM_CTL_EN : Field := { addr := 0x304000, hi := 0, lo := 0, acc := .rw }
/-- PTH_SEAM_CTL (R183). -/
def PTH_SEAM_CTL : RegDef := { addr := 0x304000, fields := [PTH_SEAM_CTL_SEAM_LEAD, PTH_SEAM_CTL_TRACK_TOL, PTH_SEAM_CTL_EN] }
/-- PTH_SEAM_CFG [39:39] REG_REQ (R184). -/
def PTH_SEAM_CFG_REG_REQ : Field := { addr := 0x304100, s1 := 0x40, hi := 39, lo := 39, acc := .rw }
/-- PTH_SEAM_CFG [35:32] PHASE (R184). -/
def PTH_SEAM_CFG_PHASE : Field := { addr := 0x304100, s1 := 0x40, hi := 35, lo := 32, acc := .rw }
/-- PTH_SEAM_CFG [31:25] STRIDE (R184). -/
def PTH_SEAM_CFG_STRIDE : Field := { addr := 0x304100, s1 := 0x40, hi := 31, lo := 25, acc := .rw, reset := 1 }
/-- PTH_SEAM_CFG [24:20] K (R184). -/
def PTH_SEAM_CFG_K : Field := { addr := 0x304100, s1 := 0x40, hi := 24, lo := 20, acc := .rw, reset := 2 }
/-- PTH_SEAM_CFG [19:18] BOND_MODE (R184). -/
def PTH_SEAM_CFG_BOND_MODE : Field := { addr := 0x304100, s1 := 0x40, hi := 19, lo := 18, acc := .rw, reset := 1 }
/-- PTH_SEAM_CFG [17:17] FADE (R184). -/
def PTH_SEAM_CFG_FADE : Field := { addr := 0x304100, s1 := 0x40, hi := 17, lo := 17, acc := .rw }
/-- PTH_SEAM_CFG [16:16] AXIS (R184). -/
def PTH_SEAM_CFG_AXIS : Field := { addr := 0x304100, s1 := 0x40, hi := 16, lo := 16, acc := .rw }
/-- PTH_SEAM_CFG [15:12] CH_HI (R184). -/
def PTH_SEAM_CFG_CH_HI : Field := { addr := 0x304100, s1 := 0x40, hi := 15, lo := 12, acc := .rw }
/-- PTH_SEAM_CFG [11:8] CH_LO (R184). -/
def PTH_SEAM_CFG_CH_LO : Field := { addr := 0x304100, s1 := 0x40, hi := 11, lo := 8, acc := .rw }
/-- PTH_SEAM_CFG [0:0] EN (R184). -/
def PTH_SEAM_CFG_EN : Field := { addr := 0x304100, s1 := 0x40, hi := 0, lo := 0, acc := .rw }
/-- PTH_SEAM_CFG (R184). -/
def PTH_SEAM_CFG : RegDef := { addr := 0x304100, n1 := 32, s1 := 0x40, fields := [PTH_SEAM_CFG_REG_REQ, PTH_SEAM_CFG_PHASE, PTH_SEAM_CFG_STRIDE, PTH_SEAM_CFG_K,
    PTH_SEAM_CFG_BOND_MODE, PTH_SEAM_CFG_FADE, PTH_SEAM_CFG_AXIS, PTH_SEAM_CFG_CH_HI, PTH_SEAM_CFG_CH_LO, PTH_SEAM_CFG_EN] }
/-- PTH_SEAM_LINE [63:32] C (R184). -/
def PTH_SEAM_LINE_C : Field := { addr := 0x304108, s1 := 0x40, hi := 63, lo := 32, acc := .rw }
/-- PTH_SEAM_LINE [31:0] HALF (R184). -/
def PTH_SEAM_LINE_HALF : Field := { addr := 0x304108, s1 := 0x40, hi := 31, lo := 0, acc := .rw }
/-- PTH_SEAM_LINE (R184). -/
def PTH_SEAM_LINE : RegDef := { addr := 0x304108, n1 := 32, s1 := 0x40, fields := [PTH_SEAM_LINE_C, PTH_SEAM_LINE_HALF] }
/-- PTH_SEAM_SPAN [63:32] LO (R184). -/
def PTH_SEAM_SPAN_LO : Field := { addr := 0x304110, s1 := 0x40, hi := 63, lo := 32, acc := .rw }
/-- PTH_SEAM_SPAN [31:0] HI (R184). -/
def PTH_SEAM_SPAN_HI : Field := { addr := 0x304110, s1 := 0x40, hi := 31, lo := 0, acc := .rw }
/-- PTH_SEAM_SPAN (R184). -/
def PTH_SEAM_SPAN : RegDef := { addr := 0x304110, n1 := 32, s1 := 0x40, fields := [PTH_SEAM_SPAN_LO, PTH_SEAM_SPAN_HI] }
/-- PTH_SEAM_BLEND [63:32] BLEND (R184). -/
def PTH_SEAM_BLEND_BLEND : Field := { addr := 0x304118, s1 := 0x40, hi := 63, lo := 32, acc := .rw, reset := 131072 }
/-- PTH_SEAM_BLEND [31:0] RESERVE (R184). -/
def PTH_SEAM_BLEND_RESERVE : Field := { addr := 0x304118, s1 := 0x40, hi := 31, lo := 0, acc := .rw }
/-- PTH_SEAM_BLEND (R184). -/
def PTH_SEAM_BLEND : RegDef := { addr := 0x304118, n1 := 32, s1 := 0x40, fields := [PTH_SEAM_BLEND_BLEND, PTH_SEAM_BLEND_RESERVE] }
/-- PTH_SEAM_SPREAD [31:0] PITCH (R184). -/
def PTH_SEAM_SPREAD_PITCH : Field := { addr := 0x304120, s1 := 0x40, hi := 31, lo := 0, acc := .rw, reset := 0x01000000 }
/-- PTH_SEAM_SPREAD (R184). -/
def PTH_SEAM_SPREAD : RegDef := { addr := 0x304120, n1 := 32, s1 := 0x40, fields := [PTH_SEAM_SPREAD_PITCH] }
/-- PTH_SEAM_REG [63:63] REG_VALID (R184). -/
def PTH_SEAM_REG_REG_VALID : Field := { addr := 0x304128, s1 := 0x40, hi := 63, lo := 63, acc := .ro }
/-- PTH_SEAM_REG [47:32] RESIDUAL (R184). -/
def PTH_SEAM_REG_RESIDUAL : Field := { addr := 0x304128, s1 := 0x40, hi := 47, lo := 32, acc := .ro }
/-- PTH_SEAM_REG [15:0] REG_TOL (R184). -/
def PTH_SEAM_REG_REG_TOL : Field := { addr := 0x304128, s1 := 0x40, hi := 15, lo := 0, acc := .rw, reset := 320 }
/-- PTH_SEAM_REG (R184). -/
def PTH_SEAM_REG : RegDef := { addr := 0x304128, n1 := 32, s1 := 0x40, fields := [PTH_SEAM_REG_REG_VALID, PTH_SEAM_REG_RESIDUAL, PTH_SEAM_REG_REG_TOL] }
/-- PTH_SEAM_STATUS [63:32] H (R184). -/
def PTH_SEAM_STATUS_H : Field := { addr := 0x304130, s1 := 0x40, hi := 63, lo := 32, acc := .ro }
/-- PTH_SEAM_STATUS [12:8] KIDX (R184). -/
def PTH_SEAM_STATUS_KIDX : Field := { addr := 0x304130, s1 := 0x40, hi := 12, lo := 8, acc := .ro }
/-- PTH_SEAM_STATUS [2:2] REG_OK (R184). -/
def PTH_SEAM_STATUS_REG_OK : Field := { addr := 0x304130, s1 := 0x40, hi := 2, lo := 2, acc := .ro }
/-- PTH_SEAM_STATUS [1:1] SUSPENDED (R184). -/
def PTH_SEAM_STATUS_SUSPENDED : Field := { addr := 0x304130, s1 := 0x40, hi := 1, lo := 1, acc := .ro }
/-- PTH_SEAM_STATUS [0:0] ACTIVE (R184). -/
def PTH_SEAM_STATUS_ACTIVE : Field := { addr := 0x304130, s1 := 0x40, hi := 0, lo := 0, acc := .ro }
/-- PTH_SEAM_STATUS (R184). -/
def PTH_SEAM_STATUS : RegDef := { addr := 0x304130, n1 := 32, s1 := 0x40, fields := [PTH_SEAM_STATUS_H, PTH_SEAM_STATUS_KIDX, PTH_SEAM_STATUS_REG_OK,
    PTH_SEAM_STATUS_SUSPENDED, PTH_SEAM_STATUS_ACTIVE] }
/-- PTH_STAT_SEAM_OFFERS [63:0] COUNT (R185). -/
def PTH_STAT_SEAM_OFFERS_COUNT : Field := { addr := 0x304A00, hi := 63, lo := 0, acc := .rol }
/-- PTH_STAT_SEAM_OFFERS (R185). -/
def PTH_STAT_SEAM_OFFERS : RegDef := { addr := 0x304A00, fields := [PTH_STAT_SEAM_OFFERS_COUNT] }
/-- PTH_STAT_SEAM_DECLINED [63:0] COUNT (R185). -/
def PTH_STAT_SEAM_DECLINED_COUNT : Field := { addr := 0x304A08, hi := 63, lo := 0, acc := .rol }
/-- PTH_STAT_SEAM_DECLINED (R185). -/
def PTH_STAT_SEAM_DECLINED : RegDef := { addr := 0x304A08, fields := [PTH_STAT_SEAM_DECLINED_COUNT] }
/-- PTH_STAT_SEAM_WITHDRAWN [63:0] COUNT (R185). -/
def PTH_STAT_SEAM_WITHDRAWN_COUNT : Field := { addr := 0x304A10, hi := 63, lo := 0, acc := .rol }
/-- PTH_STAT_SEAM_WITHDRAWN (R185). -/
def PTH_STAT_SEAM_WITHDRAWN : RegDef := { addr := 0x304A10, fields := [PTH_STAT_SEAM_WITHDRAWN_COUNT] }
/-- PTH_STAT_SEAM_DONE [63:0] COUNT (R185). -/
def PTH_STAT_SEAM_DONE_COUNT : Field := { addr := 0x304A18, hi := 63, lo := 0, acc := .rol }
/-- PTH_STAT_SEAM_DONE (R185). -/
def PTH_STAT_SEAM_DONE : RegDef := { addr := 0x304A18, fields := [PTH_STAT_SEAM_DONE_COUNT] }
/-- PTH_STAT_SEAM_SLID [63:0] COUNT (R185). -/
def PTH_STAT_SEAM_SLID_COUNT : Field := { addr := 0x304A20, hi := 63, lo := 0, acc := .rol }
/-- PTH_STAT_SEAM_SLID (R185). -/
def PTH_STAT_SEAM_SLID : RegDef := { addr := 0x304A20, fields := [PTH_STAT_SEAM_SLID_COUNT] }
/-- PTH_STAT_SEAM_SLIDE_BEATS [63:0] COUNT (R185). -/
def PTH_STAT_SEAM_SLIDE_BEATS_COUNT : Field := { addr := 0x304A28, hi := 63, lo := 0, acc := .rol }
/-- PTH_STAT_SEAM_SLIDE_BEATS (R185). -/
def PTH_STAT_SEAM_SLIDE_BEATS : RegDef := { addr := 0x304A28, fields := [PTH_STAT_SEAM_SLIDE_BEATS_COUNT] }
/-- PTH_STAT_SEAM_CUT [63:0] COUNT (R185). -/
def PTH_STAT_SEAM_CUT_COUNT : Field := { addr := 0x304A30, hi := 63, lo := 0, acc := .rol }
/-- PTH_STAT_SEAM_CUT (R185). -/
def PTH_STAT_SEAM_CUT : RegDef := { addr := 0x304A30, fields := [PTH_STAT_SEAM_CUT_COUNT] }
/-- PTH_STAT_SEAM_MISSED [63:0] COUNT (R185). -/
def PTH_STAT_SEAM_MISSED_COUNT : Field := { addr := 0x304A38, hi := 63, lo := 0, acc := .rol }
/-- PTH_STAT_SEAM_MISSED (R185). -/
def PTH_STAT_SEAM_MISSED : RegDef := { addr := 0x304A38, fields := [PTH_STAT_SEAM_MISSED_COUNT] }
/-- LSR_STATUS [47:32] FAULTED (R214). -/
def LSR_STATUS_FAULTED : Field := { addr := 0x400000, hi := 47, lo := 32, acc := .ro }
/-- LSR_STATUS [31:16] ENABLED (R214). -/
def LSR_STATUS_ENABLED : Field := { addr := 0x400000, hi := 31, lo := 16, acc := .ro }
/-- LSR_STATUS [0:0] REFUSED (R214). -/
def LSR_STATUS_REFUSED : Field := { addr := 0x400000, hi := 0, lo := 0, acc := .w1c }
/-- LSR_STATUS (R214). -/
def LSR_STATUS : RegDef := { addr := 0x400000, fields := [LSR_STATUS_FAULTED, LSR_STATUS_ENABLED, LSR_STATUS_REFUSED] }
/-- LSR_STAT_EMIT_BEATS [63:0] COUNT (R221). -/
def LSR_STAT_EMIT_BEATS_COUNT : Field := { addr := 0x400100, hi := 63, lo := 0, acc := .rol }
/-- LSR_STAT_EMIT_BEATS (R221). -/
def LSR_STAT_EMIT_BEATS : RegDef := { addr := 0x400100, fields := [LSR_STAT_EMIT_BEATS_COUNT] }
/-- LSR_STAT_FAULTS [63:0] COUNT (R221). -/
def LSR_STAT_FAULTS_COUNT : Field := { addr := 0x400108, hi := 63, lo := 0, acc := .rol }
/-- LSR_STAT_FAULTS (R221). -/
def LSR_STAT_FAULTS : RegDef := { addr := 0x400108, fields := [LSR_STAT_FAULTS_COUNT] }
/-- LSR_STAT_HOLDS [63:0] COUNT (R221). -/
def LSR_STAT_HOLDS_COUNT : Field := { addr := 0x400110, hi := 63, lo := 0, acc := .rol }
/-- LSR_STAT_HOLDS (R221). -/
def LSR_STAT_HOLDS : RegDef := { addr := 0x400110, fields := [LSR_STAT_HOLDS_COUNT] }
/-- LSR_STAT_DAC_CLAMPS [63:0] COUNT (R221). -/
def LSR_STAT_DAC_CLAMPS_COUNT : Field := { addr := 0x400118, hi := 63, lo := 0, acc := .rol }
/-- LSR_STAT_DAC_CLAMPS (R221). -/
def LSR_STAT_DAC_CLAMPS : RegDef := { addr := 0x400118, fields := [LSR_STAT_DAC_CLAMPS_COUNT] }
/-- LSR_CHAN_CTL [55:48] ALARM_QUAL (R215). -/
def LSR_CHAN_CTL_ALARM_QUAL : Field := { addr := 0x401000, s1 := 0x40, hi := 55, lo := 48, acc := .rw, reset := 4 }
/-- LSR_CHAN_CTL [47:40] READY_QUAL (R215). -/
def LSR_CHAN_CTL_READY_QUAL : Field := { addr := 0x401000, s1 := 0x40, hi := 47, lo := 40, acc := .rw, reset := 20 }
/-- LSR_CHAN_CTL [31:24] GATE_TRIM (R215). -/
def LSR_CHAN_CTL_GATE_TRIM : Field := { addr := 0x401000, s1 := 0x40, hi := 31, lo := 24, acc := .rw }
/-- LSR_CHAN_CTL [9:8] IFS (R215). -/
def LSR_CHAN_CTL_IFS : Field := { addr := 0x401000, s1 := 0x40, hi := 9, lo := 8, acc := .rw, reset := 3 }
/-- LSR_CHAN_CTL [6:6] ALARM_POL (R215). -/
def LSR_CHAN_CTL_ALARM_POL : Field := { addr := 0x401000, s1 := 0x40, hi := 6, lo := 6, acc := .rw }
/-- LSR_CHAN_CTL [5:5] READY_POL (R215). -/
def LSR_CHAN_CTL_READY_POL : Field := { addr := 0x401000, s1 := 0x40, hi := 5, lo := 5, acc := .rw }
/-- LSR_CHAN_CTL [4:4] READY_REQ (R215). -/
def LSR_CHAN_CTL_READY_REQ : Field := { addr := 0x401000, s1 := 0x40, hi := 4, lo := 4, acc := .rw, reset := 1 }
/-- LSR_CHAN_CTL [0:0] EN (R215). -/
def LSR_CHAN_CTL_EN : Field := { addr := 0x401000, s1 := 0x40, hi := 0, lo := 0, acc := .rw }
/-- LSR_CHAN_CTL (R215). -/
def LSR_CHAN_CTL : RegDef := { addr := 0x401000, n1 := 16, s1 := 0x40, fields := [LSR_CHAN_CTL_ALARM_QUAL, LSR_CHAN_CTL_READY_QUAL, LSR_CHAN_CTL_GATE_TRIM,
    LSR_CHAN_CTL_IFS, LSR_CHAN_CTL_ALARM_POL, LSR_CHAN_CTL_READY_POL, LSR_CHAN_CTL_READY_REQ, LSR_CHAN_CTL_EN] }
/-- LSR_CHAN_ARM [63:32] ARM_TIMEOUT (R216). -/
def LSR_CHAN_ARM_ARM_TIMEOUT : Field := { addr := 0x401008, s1 := 0x40, hi := 63, lo := 32, acc := .rw, reset := 2000000 }
/-- LSR_CHAN_ARM [31:0] EMIT_LEAD (R216). -/
def LSR_CHAN_ARM_EMIT_LEAD : Field := { addr := 0x401008, s1 := 0x40, hi := 31, lo := 0, acc := .rw }
/-- LSR_CHAN_ARM (R216). -/
def LSR_CHAN_ARM : RegDef := { addr := 0x401008, n1 := 16, s1 := 0x40, fields := [LSR_CHAN_ARM_ARM_TIMEOUT, LSR_CHAN_ARM_EMIT_LEAD] }
/-- LSR_CHAN_SCALE [63:48] FULL_SCALE_W (R217). -/
def LSR_CHAN_SCALE_FULL_SCALE_W : Field := { addr := 0x401010, s1 := 0x40, hi := 63, lo := 48, acc := .rws }
/-- LSR_CHAN_SCALE [47:32] GAIN (R217). -/
def LSR_CHAN_SCALE_GAIN : Field := { addr := 0x401010, s1 := 0x40, hi := 47, lo := 32, acc := .rws, reset := 0x8000 }
/-- LSR_CHAN_SCALE [31:16] DAC_MAX (R217). -/
def LSR_CHAN_SCALE_DAC_MAX : Field := { addr := 0x401010, s1 := 0x40, hi := 31, lo := 16, acc := .rws, reset := 0xFFFF }
/-- LSR_CHAN_SCALE [15:0] IDLE_CODE (R217). -/
def LSR_CHAN_SCALE_IDLE_CODE : Field := { addr := 0x401010, s1 := 0x40, hi := 15, lo := 0, acc := .rws }
/-- LSR_CHAN_SCALE (R217). -/
def LSR_CHAN_SCALE : RegDef := { addr := 0x401010, n1 := 16, s1 := 0x40, fields := [LSR_CHAN_SCALE_FULL_SCALE_W, LSR_CHAN_SCALE_GAIN, LSR_CHAN_SCALE_DAC_MAX,
    LSR_CHAN_SCALE_IDLE_CODE] }
/-- LSR_CHAN_BEACON [31:16] UNVER_MAX (R218). -/
def LSR_CHAN_BEACON_UNVER_MAX : Field := { addr := 0x401018, s1 := 0x40, hi := 31, lo := 16, acc := .rw, reset := 500 }
/-- LSR_CHAN_BEACON [2:1] BEACON (R218). -/
def LSR_CHAN_BEACON_BEACON : Field := { addr := 0x401018, s1 := 0x40, hi := 2, lo := 1, acc := .rw }
/-- LSR_CHAN_BEACON [0:0] BEACON_EN (R218). -/
def LSR_CHAN_BEACON_BEACON_EN : Field := { addr := 0x401018, s1 := 0x40, hi := 0, lo := 0, acc := .rw }
/-- LSR_CHAN_BEACON (R218). -/
def LSR_CHAN_BEACON : RegDef := { addr := 0x401018, n1 := 16, s1 := 0x40, fields := [LSR_CHAN_BEACON_UNVER_MAX, LSR_CHAN_BEACON_BEACON, LSR_CHAN_BEACON_BEACON_EN] }
/-- LSR_CHAN_STATUS [23:20] FIRST (R219). -/
def LSR_CHAN_STATUS_FIRST : Field := { addr := 0x401020, s1 := 0x40, hi := 23, lo := 20, acc := .ro, reset := 15 }
/-- LSR_CHAN_STATUS [15:14] BEACON_ST (R219). -/
def LSR_CHAN_STATUS_BEACON_ST : Field := { addr := 0x401020, s1 := 0x40, hi := 15, lo := 14, acc := .ro }
/-- LSR_CHAN_STATUS [13:12] HOLD (R219). -/
def LSR_CHAN_STATUS_HOLD : Field := { addr := 0x401020, s1 := 0x40, hi := 13, lo := 12, acc := .ro }
/-- LSR_CHAN_STATUS [7:7] ALARM_IN (R219). -/
def LSR_CHAN_STATUS_ALARM_IN : Field := { addr := 0x401020, s1 := 0x40, hi := 7, lo := 7, acc := .ro }
/-- LSR_CHAN_STATUS [6:6] READY_IN (R219). -/
def LSR_CHAN_STATUS_READY_IN : Field := { addr := 0x401020, s1 := 0x40, hi := 6, lo := 6, acc := .ro }
/-- LSR_CHAN_STATUS [5:5] GATE_PAD (R219). -/
def LSR_CHAN_STATUS_GATE_PAD : Field := { addr := 0x401020, s1 := 0x40, hi := 5, lo := 5, acc := .ro }
/-- LSR_CHAN_STATUS [4:4] EMIT_PAD (R219). -/
def LSR_CHAN_STATUS_EMIT_PAD : Field := { addr := 0x401020, s1 := 0x40, hi := 4, lo := 4, acc := .ro }
/-- LSR_CHAN_STATUS [2:0] STATE (R219). -/
def LSR_CHAN_STATUS_STATE : Field := { addr := 0x401020, s1 := 0x40, hi := 2, lo := 0, acc := .ro }
/-- LSR_CHAN_STATUS (R219). -/
def LSR_CHAN_STATUS : RegDef := { addr := 0x401020, n1 := 16, s1 := 0x40, fields := [LSR_CHAN_STATUS_FIRST, LSR_CHAN_STATUS_BEACON_ST, LSR_CHAN_STATUS_HOLD,
    LSR_CHAN_STATUS_ALARM_IN, LSR_CHAN_STATUS_READY_IN, LSR_CHAN_STATUS_GATE_PAD, LSR_CHAN_STATUS_EMIT_PAD, LSR_CHAN_STATUS_STATE] }
/-- LSR_CHAN_FAULT [8:0] CAUSE (R220). -/
def LSR_CHAN_FAULT_CAUSE : Field := { addr := 0x401028, s1 := 0x40, hi := 8, lo := 0, acc := .w1c }
/-- LSR_CHAN_FAULT (R220). -/
def LSR_CHAN_FAULT : RegDef := { addr := 0x401028, n1 := 16, s1 := 0x40, fields := [LSR_CHAN_FAULT_CAUSE] }
/-- SRV_STATUS [0:0] REFUSED (R281). -/
def SRV_STATUS_REFUSED : Field := { addr := 0x500000, hi := 0, lo := 0, acc := .w1c }
/-- SRV_STATUS (R281). -/
def SRV_STATUS : RegDef := { addr := 0x500000, fields := [SRV_STATUS_REFUSED] }
/-- SRV_CLOSED [47:0] CLOSED (R281). -/
def SRV_CLOSED_CLOSED : Field := { addr := 0x500008, hi := 47, lo := 0, acc := .ro }
/-- SRV_CLOSED (R281). -/
def SRV_CLOSED : RegDef := { addr := 0x500008, fields := [SRV_CLOSED_CLOSED] }
/-- SRV_FAULTED [47:0] FAULTED (R281). -/
def SRV_FAULTED_FAULTED : Field := { addr := 0x500010, hi := 47, lo := 0, acc := .ro }
/-- SRV_FAULTED (R281). -/
def SRV_FAULTED : RegDef := { addr := 0x500010, fields := [SRV_FAULTED_FAULTED] }
/-- SRV_STAT_SWITCHES [63:0] COUNT (R289). -/
def SRV_STAT_SWITCHES_COUNT : Field := { addr := 0x500100, hi := 63, lo := 0, acc := .rol }
/-- SRV_STAT_SWITCHES (R289). -/
def SRV_STAT_SWITCHES : RegDef := { addr := 0x500100, fields := [SRV_STAT_SWITCHES_COUNT] }
/-- SRV_STAT_CLAMP_TICKS [63:0] COUNT (R289). -/
def SRV_STAT_CLAMP_TICKS_COUNT : Field := { addr := 0x500108, hi := 63, lo := 0, acc := .rol }
/-- SRV_STAT_CLAMP_TICKS (R289). -/
def SRV_STAT_CLAMP_TICKS : RegDef := { addr := 0x500108, fields := [SRV_STAT_CLAMP_TICKS_COUNT] }
/-- SRV_STAT_WRAPS [63:0] COUNT (R289). -/
def SRV_STAT_WRAPS_COUNT : Field := { addr := 0x500110, hi := 63, lo := 0, acc := .rol }
/-- SRV_STAT_WRAPS (R289). -/
def SRV_STAT_WRAPS : RegDef := { addr := 0x500110, fields := [SRV_STAT_WRAPS_COUNT] }
/-- SRV_STAT_SWAPS [63:0] COUNT (R289). -/
def SRV_STAT_SWAPS_COUNT : Field := { addr := 0x500118, hi := 63, lo := 0, acc := .rol }
/-- SRV_STAT_SWAPS (R289). -/
def SRV_STAT_SWAPS : RegDef := { addr := 0x500118, fields := [SRV_STAT_SWAPS_COUNT] }
/-- SRV_STAT_PERR_PEAK [63:0] COUNT (R289). -/
def SRV_STAT_PERR_PEAK_COUNT : Field := { addr := 0x500120, hi := 63, lo := 0, acc := .rol }
/-- SRV_STAT_PERR_PEAK (R289). -/
def SRV_STAT_PERR_PEAK : RegDef := { addr := 0x500120, fields := [SRV_STAT_PERR_PEAK_COUNT] }
/-- SRV_AXIS_CTL [63:48] STUCK_BEATS (R282). -/
def SRV_AXIS_CTL_STUCK_BEATS : Field := { addr := 0x501000, s1 := 0x40, hi := 63, lo := 48, acc := .rw, reset := 200 }
/-- SRV_AXIS_CTL [47:40] POS_QUAL (R282). -/
def SRV_AXIS_CTL_POS_QUAL : Field := { addr := 0x501000, s1 := 0x40, hi := 47, lo := 40, acc := .rw, reset := 4 }
/-- SRV_AXIS_CTL [21:16] DEAD (R282). -/
def SRV_AXIS_CTL_DEAD : Field := { addr := 0x501000, s1 := 0x40, hi := 21, lo := 16, acc := .rw, reset := 16 }
/-- SRV_AXIS_CTL [11:8] MIN_DWELL (R282). -/
def SRV_AXIS_CTL_MIN_DWELL : Field := { addr := 0x501000, s1 := 0x40, hi := 11, lo := 8, acc := .rw, reset := 2 }
/-- SRV_AXIS_CTL [1:1] DECAY (R282). -/
def SRV_AXIS_CTL_DECAY : Field := { addr := 0x501000, s1 := 0x40, hi := 1, lo := 1, acc := .rw }
/-- SRV_AXIS_CTL [0:0] EN (R282). -/
def SRV_AXIS_CTL_EN : Field := { addr := 0x501000, s1 := 0x40, hi := 0, lo := 0, acc := .rw }
/-- SRV_AXIS_CTL (R282). -/
def SRV_AXIS_CTL : RegDef := { addr := 0x501000, n1 := 48, s1 := 0x40, fields := [SRV_AXIS_CTL_STUCK_BEATS, SRV_AXIS_CTL_POS_QUAL, SRV_AXIS_CTL_DEAD,
    SRV_AXIS_CTL_MIN_DWELL, SRV_AXIS_CTL_DECAY, SRV_AXIS_CTL_EN] }
/-- SRV_AXIS_CUR [63:48] I_TRIP (R283). -/
def SRV_AXIS_CUR_I_TRIP : Field := { addr := 0x501008, s1 := 0x40, hi := 63, lo := 48, acc := .rw, reset := 32000 }
/-- SRV_AXIS_CUR [47:32] I_MAX (R283). -/
def SRV_AXIS_CUR_I_MAX : Field := { addr := 0x501008, s1 := 0x40, hi := 47, lo := 32, acc := .rw, reset := 16384 }
/-- SRV_AXIS_CUR [15:0] HYST (R283). -/
def SRV_AXIS_CUR_HYST : Field := { addr := 0x501008, s1 := 0x40, hi := 15, lo := 0, acc := .rw, reset := 1024 }
/-- SRV_AXIS_CUR (R283). -/
def SRV_AXIS_CUR : RegDef := { addr := 0x501008, n1 := 48, s1 := 0x40, fields := [SRV_AXIS_CUR_I_TRIP, SRV_AXIS_CUR_I_MAX, SRV_AXIS_CUR_HYST] }
/-- SRV_AXIS_LOOP [63:32] VREF_MAX (R284). -/
def SRV_AXIS_LOOP_VREF_MAX : Field := { addr := 0x501010, s1 := 0x40, hi := 63, lo := 32, acc := .rw, reset := 0x01000000 }
/-- SRV_AXIS_LOOP [31:16] VFF (R284). -/
def SRV_AXIS_LOOP_VFF : Field := { addr := 0x501010, s1 := 0x40, hi := 31, lo := 16, acc := .rw, reset := 0x8000 }
/-- SRV_AXIS_LOOP [15:0] ACQ_STEP (R284). -/
def SRV_AXIS_LOOP_ACQ_STEP : Field := { addr := 0x501010, s1 := 0x40, hi := 15, lo := 0, acc := .rw, reset := 0x10 }
/-- SRV_AXIS_LOOP (R284). -/
def SRV_AXIS_LOOP : RegDef := { addr := 0x501010, n1 := 48, s1 := 0x40, fields := [SRV_AXIS_LOOP_VREF_MAX, SRV_AXIS_LOOP_VFF, SRV_AXIS_LOOP_ACQ_STEP] }
/-- SRV_AXIS_PERR [63:32] PERR_MAX (R285). -/
def SRV_AXIS_PERR_PERR_MAX : Field := { addr := 0x501018, s1 := 0x40, hi := 63, lo := 32, acc := .rw }
/-- SRV_AXIS_PERR [31:16] PERR_TICKS (R285). -/
def SRV_AXIS_PERR_PERR_TICKS : Field := { addr := 0x501018, s1 := 0x40, hi := 31, lo := 16, acc := .rw, reset := 8 }
/-- SRV_AXIS_PERR [15:0] ACQ_TIMEOUT (R285). -/
def SRV_AXIS_PERR_ACQ_TIMEOUT : Field := { addr := 0x501018, s1 := 0x40, hi := 15, lo := 0, acc := .rw, reset := 12500 }
/-- SRV_AXIS_PERR (R285). -/
def SRV_AXIS_PERR : RegDef := { addr := 0x501018, n1 := 48, s1 := 0x40, fields := [SRV_AXIS_PERR_PERR_MAX, SRV_AXIS_PERR_PERR_TICKS, SRV_AXIS_PERR_ACQ_TIMEOUT] }
/-- SRV_AXIS_TRIM [63:32] OFFSET (R286). -/
def SRV_AXIS_TRIM_OFFSET : Field := { addr := 0x501020, s1 := 0x40, hi := 63, lo := 32, acc := .rws }
/-- SRV_AXIS_TRIM [31:0] GAIN (R286). -/
def SRV_AXIS_TRIM_GAIN : Field := { addr := 0x501020, s1 := 0x40, hi := 31, lo := 0, acc := .rws, reset := 0x40000000 }
/-- SRV_AXIS_TRIM (R286). -/
def SRV_AXIS_TRIM : RegDef := { addr := 0x501020, n1 := 48, s1 := 0x40, fields := [SRV_AXIS_TRIM_OFFSET, SRV_AXIS_TRIM_GAIN] }
/-- SRV_AXIS_BANK [4:0] BANK (R286). -/
def SRV_AXIS_BANK_BANK : Field := { addr := 0x501028, s1 := 0x40, hi := 4, lo := 0, acc := .rws }
/-- SRV_AXIS_BANK (R286). -/
def SRV_AXIS_BANK : RegDef := { addr := 0x501028, n1 := 48, s1 := 0x40, fields := [SRV_AXIS_BANK_BANK] }
/-- SRV_AXIS_STATUS [63:32] POS (R287). -/
def SRV_AXIS_STATUS_POS : Field := { addr := 0x501030, s1 := 0x40, hi := 63, lo := 32, acc := .ro }
/-- SRV_AXIS_STATUS [31:16] WRAPS (R287). -/
def SRV_AXIS_STATUS_WRAPS : Field := { addr := 0x501030, s1 := 0x40, hi := 31, lo := 16, acc := .ro }
/-- SRV_AXIS_STATUS [9:8] BRIDGE (R287). -/
def SRV_AXIS_STATUS_BRIDGE : Field := { addr := 0x501030, s1 := 0x40, hi := 9, lo := 8, acc := .ro }
/-- SRV_AXIS_STATUS [2:0] STATE (R287). -/
def SRV_AXIS_STATUS_STATE : Field := { addr := 0x501030, s1 := 0x40, hi := 2, lo := 0, acc := .ro }
/-- SRV_AXIS_STATUS (R287). -/
def SRV_AXIS_STATUS : RegDef := { addr := 0x501030, n1 := 48, s1 := 0x40, fields := [SRV_AXIS_STATUS_POS, SRV_AXIS_STATUS_WRAPS, SRV_AXIS_STATUS_BRIDGE,
    SRV_AXIS_STATUS_STATE] }
/-- SRV_AXIS_FAULT [63:32] PERR (R287). -/
def SRV_AXIS_FAULT_PERR : Field := { addr := 0x501038, s1 := 0x40, hi := 63, lo := 32, acc := .ro }
/-- SRV_AXIS_FAULT [27:24] FIRST (R287). -/
def SRV_AXIS_FAULT_FIRST : Field := { addr := 0x501038, s1 := 0x40, hi := 27, lo := 24, acc := .ro, reset := 15 }
/-- SRV_AXIS_FAULT [6:0] CAUSE (R287). -/
def SRV_AXIS_FAULT_CAUSE : Field := { addr := 0x501038, s1 := 0x40, hi := 6, lo := 0, acc := .w1c }
/-- SRV_AXIS_FAULT (R287). -/
def SRV_AXIS_FAULT : RegDef := { addr := 0x501038, n1 := 48, s1 := 0x40, fields := [SRV_AXIS_FAULT_PERR, SRV_AXIS_FAULT_FIRST, SRV_AXIS_FAULT_CAUSE] }
/-- SRV_BANK_POS_B01 [63:32] B0 (R288). -/
def SRV_BANK_POS_B01_B0 : Field := { addr := 0x504000, s1 := 0x100, hi := 63, lo := 32, acc := .rws }
/-- SRV_BANK_POS_B01 [31:0] B1 (R288). -/
def SRV_BANK_POS_B01_B1 : Field := { addr := 0x504000, s1 := 0x100, hi := 31, lo := 0, acc := .rws }
/-- SRV_BANK_POS_B01 (R288). -/
def SRV_BANK_POS_B01 : RegDef := { addr := 0x504000, n1 := 32, s1 := 0x100, fields := [SRV_BANK_POS_B01_B0, SRV_BANK_POS_B01_B1] }
/-- SRV_BANK_POS_B23 [63:32] B2 (R288). -/
def SRV_BANK_POS_B23_B2 : Field := { addr := 0x504008, s1 := 0x100, hi := 63, lo := 32, acc := .rws }
/-- SRV_BANK_POS_B23 [31:0] B3 (R288). -/
def SRV_BANK_POS_B23_B3 : Field := { addr := 0x504008, s1 := 0x100, hi := 31, lo := 0, acc := .rws }
/-- SRV_BANK_POS_B23 (R288). -/
def SRV_BANK_POS_B23 : RegDef := { addr := 0x504008, n1 := 32, s1 := 0x100, fields := [SRV_BANK_POS_B23_B2, SRV_BANK_POS_B23_B3] }
/-- SRV_BANK_POS_A12 [63:32] A1 (R288). -/
def SRV_BANK_POS_A12_A1 : Field := { addr := 0x504010, s1 := 0x100, hi := 63, lo := 32, acc := .rws }
/-- SRV_BANK_POS_A12 [31:0] A2 (R288). -/
def SRV_BANK_POS_A12_A2 : Field := { addr := 0x504010, s1 := 0x100, hi := 31, lo := 0, acc := .rws }
/-- SRV_BANK_POS_A12 (R288). -/
def SRV_BANK_POS_A12 : RegDef := { addr := 0x504010, n1 := 32, s1 := 0x100, fields := [SRV_BANK_POS_A12_A1, SRV_BANK_POS_A12_A2] }
/-- SRV_BANK_POS_A3 [63:32] A3 (R288). -/
def SRV_BANK_POS_A3_A3 : Field := { addr := 0x504018, s1 := 0x100, hi := 63, lo := 32, acc := .rws }
/-- SRV_BANK_POS_A3 (R288). -/
def SRV_BANK_POS_A3 : RegDef := { addr := 0x504018, n1 := 32, s1 := 0x100, fields := [SRV_BANK_POS_A3_A3] }
/-- SRV_BANK_VEL_B01 [63:32] B0 (R288). -/
def SRV_BANK_VEL_B01_B0 : Field := { addr := 0x504020, s1 := 0x100, hi := 63, lo := 32, acc := .rws }
/-- SRV_BANK_VEL_B01 [31:0] B1 (R288). -/
def SRV_BANK_VEL_B01_B1 : Field := { addr := 0x504020, s1 := 0x100, hi := 31, lo := 0, acc := .rws }
/-- SRV_BANK_VEL_B01 (R288). -/
def SRV_BANK_VEL_B01 : RegDef := { addr := 0x504020, n1 := 32, s1 := 0x100, fields := [SRV_BANK_VEL_B01_B0, SRV_BANK_VEL_B01_B1] }
/-- SRV_BANK_VEL_B23 [63:32] B2 (R288). -/
def SRV_BANK_VEL_B23_B2 : Field := { addr := 0x504028, s1 := 0x100, hi := 63, lo := 32, acc := .rws }
/-- SRV_BANK_VEL_B23 [31:0] B3 (R288). -/
def SRV_BANK_VEL_B23_B3 : Field := { addr := 0x504028, s1 := 0x100, hi := 31, lo := 0, acc := .rws }
/-- SRV_BANK_VEL_B23 (R288). -/
def SRV_BANK_VEL_B23 : RegDef := { addr := 0x504028, n1 := 32, s1 := 0x100, fields := [SRV_BANK_VEL_B23_B2, SRV_BANK_VEL_B23_B3] }
/-- SRV_BANK_VEL_A12 [63:32] A1 (R288). -/
def SRV_BANK_VEL_A12_A1 : Field := { addr := 0x504030, s1 := 0x100, hi := 63, lo := 32, acc := .rws }
/-- SRV_BANK_VEL_A12 [31:0] A2 (R288). -/
def SRV_BANK_VEL_A12_A2 : Field := { addr := 0x504030, s1 := 0x100, hi := 31, lo := 0, acc := .rws }
/-- SRV_BANK_VEL_A12 (R288). -/
def SRV_BANK_VEL_A12 : RegDef := { addr := 0x504030, n1 := 32, s1 := 0x100, fields := [SRV_BANK_VEL_A12_A1, SRV_BANK_VEL_A12_A2] }
/-- SRV_BANK_VEL_A3 [63:32] A3 (R288). -/
def SRV_BANK_VEL_A3_A3 : Field := { addr := 0x504038, s1 := 0x100, hi := 63, lo := 32, acc := .rws }
/-- SRV_BANK_VEL_A3 (R288). -/
def SRV_BANK_VEL_A3 : RegDef := { addr := 0x504038, n1 := 32, s1 := 0x100, fields := [SRV_BANK_VEL_A3_A3] }
/-- SRV_BANK_POS_PRE [63:0] PRE (R288). -/
def SRV_BANK_POS_PRE_PRE : Field := { addr := 0x504040, s1 := 0x100, hi := 63, lo := 0, acc := .rws }
/-- SRV_BANK_POS_PRE (R288). -/
def SRV_BANK_POS_PRE : RegDef := { addr := 0x504040, n1 := 32, s1 := 0x100, fields := [SRV_BANK_POS_PRE_PRE] }
/-- SRV_BANK_VEL_PRE [63:0] PRE (R288). -/
def SRV_BANK_VEL_PRE_PRE : Field := { addr := 0x504048, s1 := 0x100, hi := 63, lo := 0, acc := .rws }
/-- SRV_BANK_VEL_PRE (R288). -/
def SRV_BANK_VEL_PRE : RegDef := { addr := 0x504048, n1 := 32, s1 := 0x100, fields := [SRV_BANK_VEL_PRE_PRE] }
/-- SRV_BANK_CFG [63:63] VALID (R288). -/
def SRV_BANK_CFG_VALID : Field := { addr := 0x504050, s1 := 0x100, hi := 63, lo := 63, acc := .rws }
/-- SRV_BANK_CFG [1:0] MODE (R288). -/
def SRV_BANK_CFG_MODE : Field := { addr := 0x504050, s1 := 0x100, hi := 1, lo := 0, acc := .rws }
/-- SRV_BANK_CFG (R288). -/
def SRV_BANK_CFG : RegDef := { addr := 0x504050, n1 := 32, s1 := 0x100, fields := [SRV_BANK_CFG_VALID, SRV_BANK_CFG_MODE] }
/-- MPM_STATUS [31:16] AT_CLAMP (R246). -/
def MPM_STATUS_AT_CLAMP : Field := { addr := 0x600000, hi := 31, lo := 16, acc := .ro }
/-- MPM_STATUS [0:0] REFUSED (R246). -/
def MPM_STATUS_REFUSED : Field := { addr := 0x600000, hi := 0, lo := 0, acc := .w1c }
/-- MPM_STATUS (R246). -/
def MPM_STATUS : RegDef := { addr := 0x600000, fields := [MPM_STATUS_AT_CLAMP, MPM_STATUS_REFUSED] }
/-- MPM_STAT_UPDATES [63:0] COUNT (R253). -/
def MPM_STAT_UPDATES_COUNT : Field := { addr := 0x600100, hi := 63, lo := 0, acc := .rol }
/-- MPM_STAT_UPDATES (R253). -/
def MPM_STAT_UPDATES : RegDef := { addr := 0x600100, fields := [MPM_STAT_UPDATES_COUNT] }
/-- MPM_STAT_HELD_BEATS [63:0] COUNT (R253). -/
def MPM_STAT_HELD_BEATS_COUNT : Field := { addr := 0x600108, hi := 63, lo := 0, acc := .rol }
/-- MPM_STAT_HELD_BEATS (R253). -/
def MPM_STAT_HELD_BEATS : RegDef := { addr := 0x600108, fields := [MPM_STAT_HELD_BEATS_COUNT] }
/-- MPM_STAT_CLAMP_BEATS [63:0] COUNT (R253). -/
def MPM_STAT_CLAMP_BEATS_COUNT : Field := { addr := 0x600110, hi := 63, lo := 0, acc := .rol }
/-- MPM_STAT_CLAMP_BEATS (R253). -/
def MPM_STAT_CLAMP_BEATS : RegDef := { addr := 0x600110, fields := [MPM_STAT_CLAMP_BEATS_COUNT] }
/-- MPM_STAT_BR_TRIPS [63:0] COUNT (R253). -/
def MPM_STAT_BR_TRIPS_COUNT : Field := { addr := 0x600118, hi := 63, lo := 0, acc := .rol }
/-- MPM_STAT_BR_TRIPS (R253). -/
def MPM_STAT_BR_TRIPS : RegDef := { addr := 0x600118, fields := [MPM_STAT_BR_TRIPS_COUNT] }
/-- MPM_STAT_OVERRANGE [63:0] COUNT (R253). -/
def MPM_STAT_OVERRANGE_COUNT : Field := { addr := 0x600120, hi := 63, lo := 0, acc := .rol }
/-- MPM_STAT_OVERRANGE (R253). -/
def MPM_STAT_OVERRANGE : RegDef := { addr := 0x600120, fields := [MPM_STAT_OVERRANGE_COUNT] }
/-- MPM_STAT_RECORDS [63:0] COUNT (R253). -/
def MPM_STAT_RECORDS_COUNT : Field := { addr := 0x600128, hi := 63, lo := 0, acc := .rol }
/-- MPM_STAT_RECORDS (R253). -/
def MPM_STAT_RECORDS : RegDef := { addr := 0x600128, fields := [MPM_STAT_RECORDS_COUNT] }
/-- MPM_STAT_REF_INVALID [63:0] COUNT (R253). -/
def MPM_STAT_REF_INVALID_COUNT : Field := { addr := 0x600130, hi := 63, lo := 0, acc := .rol }
/-- MPM_STAT_REF_INVALID (R253). -/
def MPM_STAT_REF_INVALID : RegDef := { addr := 0x600130, fields := [MPM_STAT_REF_INVALID_COUNT] }
/-- MPM_CHAN_CTL [63:56] BR_QUAL (R247). -/
def MPM_CHAN_CTL_BR_QUAL : Field := { addr := 0x601000, s1 := 0x40, hi := 63, lo := 56, acc := .rw, reset := 2 }
/-- MPM_CHAN_CTL [55:48] LOW_RATIO (R247). -/
def MPM_CHAN_CTL_LOW_RATIO : Field := { addr := 0x601000, s1 := 0x40, hi := 55, lo := 48, acc := .rw }
/-- MPM_CHAN_CTL [47:32] LOW_BEATS (R247). -/
def MPM_CHAN_CTL_LOW_BEATS : Field := { addr := 0x601000, s1 := 0x40, hi := 47, lo := 32, acc := .rw, reset := 2000 }
/-- MPM_CHAN_CTL [31:16] SAT_BEATS (R247). -/
def MPM_CHAN_CTL_SAT_BEATS : Field := { addr := 0x601000, s1 := 0x40, hi := 31, lo := 16, acc := .rw, reset := 20000 }
/-- MPM_CHAN_CTL [11:10] TIA_BR (R247). -/
def MPM_CHAN_CTL_TIA_BR : Field := { addr := 0x601000, s1 := 0x40, hi := 11, lo := 10, acc := .rw, reset := 1 }
/-- MPM_CHAN_CTL [9:8] TIA_MP (R247). -/
def MPM_CHAN_CTL_TIA_MP : Field := { addr := 0x601000, s1 := 0x40, hi := 9, lo := 8, acc := .rw, reset := 1 }
/-- MPM_CHAN_CTL [2:2] LOW_FAULT (R247). -/
def MPM_CHAN_CTL_LOW_FAULT : Field := { addr := 0x601000, s1 := 0x40, hi := 2, lo := 2, acc := .rw }
/-- MPM_CHAN_CTL [1:1] REC_EN (R247). -/
def MPM_CHAN_CTL_REC_EN : Field := { addr := 0x601000, s1 := 0x40, hi := 1, lo := 1, acc := .rw }
/-- MPM_CHAN_CTL [0:0] LOOP_EN (R247). -/
def MPM_CHAN_CTL_LOOP_EN : Field := { addr := 0x601000, s1 := 0x40, hi := 0, lo := 0, acc := .rw }
/-- MPM_CHAN_CTL (R247). -/
def MPM_CHAN_CTL : RegDef := { addr := 0x601000, n1 := 16, s1 := 0x40, fields := [MPM_CHAN_CTL_BR_QUAL, MPM_CHAN_CTL_LOW_RATIO, MPM_CHAN_CTL_LOW_BEATS,
    MPM_CHAN_CTL_SAT_BEATS, MPM_CHAN_CTL_TIA_BR, MPM_CHAN_CTL_TIA_MP, MPM_CHAN_CTL_LOW_FAULT, MPM_CHAN_CTL_REC_EN, MPM_CHAN_CTL_LOOP_EN] }
/-- MPM_CHAN_TRIM [63:48] BR_GAIN (R248). -/
def MPM_CHAN_TRIM_BR_GAIN : Field := { addr := 0x601008, s1 := 0x40, hi := 63, lo := 48, acc := .rws, reset := 0x8000 }
/-- MPM_CHAN_TRIM [47:32] BR_OFFSET (R248). -/
def MPM_CHAN_TRIM_BR_OFFSET : Field := { addr := 0x601008, s1 := 0x40, hi := 47, lo := 32, acc := .rws }
/-- MPM_CHAN_TRIM [31:16] MP_GAIN (R248). -/
def MPM_CHAN_TRIM_MP_GAIN : Field := { addr := 0x601008, s1 := 0x40, hi := 31, lo := 16, acc := .rws, reset := 0x8000 }
/-- MPM_CHAN_TRIM [15:0] MP_OFFSET (R248). -/
def MPM_CHAN_TRIM_MP_OFFSET : Field := { addr := 0x601008, s1 := 0x40, hi := 15, lo := 0, acc := .rws }
/-- MPM_CHAN_TRIM (R248). -/
def MPM_CHAN_TRIM : RegDef := { addr := 0x601008, n1 := 16, s1 := 0x40, fields := [MPM_CHAN_TRIM_BR_GAIN, MPM_CHAN_TRIM_BR_OFFSET, MPM_CHAN_TRIM_MP_GAIN,
    MPM_CHAN_TRIM_MP_OFFSET] }
/-- MPM_CHAN_LIMIT [31:16] REC_MIN_BEATS (R247). -/
def MPM_CHAN_LIMIT_REC_MIN_BEATS : Field := { addr := 0x601010, s1 := 0x40, hi := 31, lo := 16, acc := .rw, reset := 2000 }
/-- MPM_CHAN_LIMIT [15:0] BR_LIMIT (R247). -/
def MPM_CHAN_LIMIT_BR_LIMIT : Field := { addr := 0x601010, s1 := 0x40, hi := 15, lo := 0, acc := .rw, reset := 0xFFFF }
/-- MPM_CHAN_LIMIT (R247). -/
def MPM_CHAN_LIMIT : RegDef := { addr := 0x601010, n1 := 16, s1 := 0x40, fields := [MPM_CHAN_LIMIT_REC_MIN_BEATS, MPM_CHAN_LIMIT_BR_LIMIT] }
/-- MPM_CHAN_STATUS [63:48] LAST_M (R249). -/
def MPM_CHAN_STATUS_LAST_M : Field := { addr := 0x601018, s1 := 0x40, hi := 63, lo := 48, acc := .ro }
/-- MPM_CHAN_STATUS [47:32] LAST_C (R249). -/
def MPM_CHAN_STATUS_LAST_C : Field := { addr := 0x601018, s1 := 0x40, hi := 47, lo := 32, acc := .ro }
/-- MPM_CHAN_STATUS [31:16] LAST_BR (R249). -/
def MPM_CHAN_STATUS_LAST_BR : Field := { addr := 0x601018, s1 := 0x40, hi := 31, lo := 16, acc := .ro }
/-- MPM_CHAN_STATUS [2:0] ROW (R249). -/
def MPM_CHAN_STATUS_ROW : Field := { addr := 0x601018, s1 := 0x40, hi := 2, lo := 0, acc := .ro }
/-- MPM_CHAN_STATUS (R249). -/
def MPM_CHAN_STATUS : RegDef := { addr := 0x601018, n1 := 16, s1 := 0x40, fields := [MPM_CHAN_STATUS_LAST_M, MPM_CHAN_STATUS_LAST_C, MPM_CHAN_STATUS_LAST_BR,
    MPM_CHAN_STATUS_ROW] }
/-- MPM_COEF_B0 [31:0] COEF (R250). -/
def MPM_COEF_B0_COEF : Field := { addr := 0x602000, s1 := 0x40, hi := 31, lo := 0, acc := .rws }
/-- MPM_COEF_B0 (R250). -/
def MPM_COEF_B0 : RegDef := { addr := 0x602000, n1 := 16, s1 := 0x40, fields := [MPM_COEF_B0_COEF] }
/-- MPM_COEF_B1 [31:0] COEF (R250). -/
def MPM_COEF_B1_COEF : Field := { addr := 0x602008, s1 := 0x40, hi := 31, lo := 0, acc := .rws }
/-- MPM_COEF_B1 (R250). -/
def MPM_COEF_B1 : RegDef := { addr := 0x602008, n1 := 16, s1 := 0x40, fields := [MPM_COEF_B1_COEF] }
/-- MPM_COEF_B2 [31:0] COEF (R250). -/
def MPM_COEF_B2_COEF : Field := { addr := 0x602010, s1 := 0x40, hi := 31, lo := 0, acc := .rws }
/-- MPM_COEF_B2 (R250). -/
def MPM_COEF_B2 : RegDef := { addr := 0x602010, n1 := 16, s1 := 0x40, fields := [MPM_COEF_B2_COEF] }
/-- MPM_COEF_A1 [31:0] COEF (R250). -/
def MPM_COEF_A1_COEF : Field := { addr := 0x602018, s1 := 0x40, hi := 31, lo := 0, acc := .rws }
/-- MPM_COEF_A1 (R250). -/
def MPM_COEF_A1 : RegDef := { addr := 0x602018, n1 := 16, s1 := 0x40, fields := [MPM_COEF_A1_COEF] }
/-- MPM_COEF_A2 [31:0] COEF (R250). -/
def MPM_COEF_A2_COEF : Field := { addr := 0x602020, s1 := 0x40, hi := 31, lo := 0, acc := .rws }
/-- MPM_COEF_A2 (R250). -/
def MPM_COEF_A2 : RegDef := { addr := 0x602020, n1 := 16, s1 := 0x40, fields := [MPM_COEF_A2_COEF] }
/-- MPM_MAP [63:48] GAIN3 (R251). -/
def MPM_MAP_GAIN3 : Field := { addr := 0x604000, s1 := 0x400, s2 := 0x8, hi := 63, lo := 48, acc := .rws, reset := 0x8000 }
/-- MPM_MAP [47:32] GAIN2 (R251). -/
def MPM_MAP_GAIN2 : Field := { addr := 0x604000, s1 := 0x400, s2 := 0x8, hi := 47, lo := 32, acc := .rws, reset := 0x8000 }
/-- MPM_MAP [31:16] GAIN1 (R251). -/
def MPM_MAP_GAIN1 : Field := { addr := 0x604000, s1 := 0x400, s2 := 0x8, hi := 31, lo := 16, acc := .rws, reset := 0x8000 }
/-- MPM_MAP [15:0] GAIN0 (R251). -/
def MPM_MAP_GAIN0 : Field := { addr := 0x604000, s1 := 0x400, s2 := 0x8, hi := 15, lo := 0, acc := .rws, reset := 0x8000 }
/-- MPM_MAP (R251). -/
def MPM_MAP : RegDef := { addr := 0x604000, n1 := 16, s1 := 0x400, n2 := 72, s2 := 0x8, fields := [MPM_MAP_GAIN3, MPM_MAP_GAIN2, MPM_MAP_GAIN1, MPM_MAP_GAIN0] }
/-- MPM_MAP72 [15:0] GAIN0 (R251). -/
def MPM_MAP72_GAIN0 : Field := { addr := 0x604240, s1 := 0x400, hi := 15, lo := 0, acc := .rws, reset := 0x8000 }
/-- MPM_MAP72 (R251). -/
def MPM_MAP72 : RegDef := { addr := 0x604240, n1 := 16, s1 := 0x400, fields := [MPM_MAP72_GAIN0] }
/-- MPM_REF0 [63:63] VALID (R252). -/
def MPM_REF0_VALID : Field := { addr := 0x610000, s1 := 0x10, hi := 63, lo := 63, acc := .rws }
/-- MPM_REF0 [55:52] BANK (R252). -/
def MPM_REF0_BANK : Field := { addr := 0x610000, s1 := 0x10, hi := 55, lo := 52, acc := .rws }
/-- MPM_REF0 [51:51] RESTART (R252). -/
def MPM_REF0_RESTART : Field := { addr := 0x610000, s1 := 0x10, hi := 51, lo := 51, acc := .rws }
/-- MPM_REF0 [50:50] PSCALE (R252). -/
def MPM_REF0_PSCALE : Field := { addr := 0x610000, s1 := 0x10, hi := 50, lo := 50, acc := .rws }
/-- MPM_REF0 [47:32] DEADBAND (R252). -/
def MPM_REF0_DEADBAND : Field := { addr := 0x610000, s1 := 0x10, hi := 47, lo := 32, acc := .rws }
/-- MPM_REF0 [31:16] SLEW (R252). -/
def MPM_REF0_SLEW : Field := { addr := 0x610000, s1 := 0x10, hi := 31, lo := 16, acc := .rws }
/-- MPM_REF0 [15:0] LEVEL (R252). -/
def MPM_REF0_LEVEL : Field := { addr := 0x610000, s1 := 0x10, hi := 15, lo := 0, acc := .rws }
/-- MPM_REF0 (R252). -/
def MPM_REF0 : RegDef := { addr := 0x610000, n1 := 4096, s1 := 0x10, fields := [MPM_REF0_VALID, MPM_REF0_BANK, MPM_REF0_RESTART, MPM_REF0_PSCALE, MPM_REF0_DEADBAND,
    MPM_REF0_SLEW, MPM_REF0_LEVEL] }
/-- MPM_REF1 [63:48] CLAMP_HI (R252). -/
def MPM_REF1_CLAMP_HI : Field := { addr := 0x610008, s1 := 0x10, hi := 63, lo := 48, acc := .rws }
/-- MPM_REF1 [47:32] CLAMP_LO (R252). -/
def MPM_REF1_CLAMP_LO : Field := { addr := 0x610008, s1 := 0x10, hi := 47, lo := 32, acc := .rws }
/-- MPM_REF1 (R252). -/
def MPM_REF1 : RegDef := { addr := 0x610008, n1 := 4096, s1 := 0x10, fields := [MPM_REF1_CLAMP_HI, MPM_REF1_CLAMP_LO] }
/-- CAM_STATUS [47:32] STATES (R317). -/
def CAM_STATUS_STATES : Field := { addr := 0x700000, hi := 47, lo := 32, acc := .ro }
/-- CAM_STATUS [0:0] REFUSED (R317). -/
def CAM_STATUS_REFUSED : Field := { addr := 0x700000, hi := 0, lo := 0, acc := .w1c }
/-- CAM_STATUS (R317). -/
def CAM_STATUS : RegDef := { addr := 0x700000, fields := [CAM_STATUS_STATES, CAM_STATUS_REFUSED] }
/-- CAM_STAT_PIXELS [63:0] COUNT (R322). -/
def CAM_STAT_PIXELS_COUNT : Field := { addr := 0x700100, hi := 63, lo := 0, acc := .rol }
/-- CAM_STAT_PIXELS (R322). -/
def CAM_STAT_PIXELS : RegDef := { addr := 0x700100, fields := [CAM_STAT_PIXELS_COUNT] }
/-- CAM_STAT_E0_BUSY [63:0] COUNT (R322). -/
def CAM_STAT_E0_BUSY_COUNT : Field := { addr := 0x700108, hi := 63, lo := 0, acc := .rol }
/-- CAM_STAT_E0_BUSY (R322). -/
def CAM_STAT_E0_BUSY : RegDef := { addr := 0x700108, fields := [CAM_STAT_E0_BUSY_COUNT] }
/-- CAM_STAT_E1_BUSY [63:0] COUNT (R322). -/
def CAM_STAT_E1_BUSY_COUNT : Field := { addr := 0x700110, hi := 63, lo := 0, acc := .rol }
/-- CAM_STAT_E1_BUSY (R322). -/
def CAM_STAT_E1_BUSY : RegDef := { addr := 0x700110, fields := [CAM_STAT_E1_BUSY_COUNT] }
/-- CAM_STAT_FRAMES [63:0] COUNT (R322). -/
def CAM_STAT_FRAMES_COUNT : Field := { addr := 0x700118, hi := 63, lo := 0, acc := .rol }
/-- CAM_STAT_FRAMES (R322). -/
def CAM_STAT_FRAMES : RegDef := { addr := 0x700118, fields := [CAM_STAT_FRAMES_COUNT] }
/-- CAM_STAT_UNARMED [63:0] COUNT (R322). -/
def CAM_STAT_UNARMED_COUNT : Field := { addr := 0x700120, hi := 63, lo := 0, acc := .rol }
/-- CAM_STAT_UNARMED (R322). -/
def CAM_STAT_UNARMED : RegDef := { addr := 0x700120, fields := [CAM_STAT_UNARMED_COUNT] }
/-- CAM_PORT_CFG [63:52] LANE_RATE (R318). -/
def CAM_PORT_CFG_LANE_RATE : Field := { addr := 0x701000, s1 := 0x40, hi := 63, lo := 52, acc := .rw, reset := 1000 }
/-- CAM_PORT_CFG [51:48] LANE_POL (R318). -/
def CAM_PORT_CFG_LANE_POL : Field := { addr := 0x701000, s1 := 0x40, hi := 51, lo := 48, acc := .rw }
/-- CAM_PORT_CFG [39:36] COAX_CH (R318). -/
def CAM_PORT_CFG_COAX_CH : Field := { addr := 0x701000, s1 := 0x40, hi := 39, lo := 36, acc := .rw }
/-- CAM_PORT_CFG [35:35] COAX_EN (R318). -/
def CAM_PORT_CFG_COAX_EN : Field := { addr := 0x701000, s1 := 0x40, hi := 35, lo := 35, acc := .rw }
/-- CAM_PORT_CFG [31:28] WEIGHT (R318). -/
def CAM_PORT_CFG_WEIGHT : Field := { addr := 0x701000, s1 := 0x40, hi := 31, lo := 28, acc := .rw, reset := 1 }
/-- CAM_PORT_CFG [27:27] CLASS (R318). -/
def CAM_PORT_CFG_CLASS : Field := { addr := 0x701000, s1 := 0x40, hi := 27, lo := 27, acc := .rw }
/-- CAM_PORT_CFG [24:24] ENGINE (R318). -/
def CAM_PORT_CFG_ENGINE : Field := { addr := 0x701000, s1 := 0x40, hi := 24, lo := 24, acc := .rw, resets := [0, 0, 1, 1] }
/-- CAM_PORT_CFG [21:16] DT (R318). -/
def CAM_PORT_CFG_DT : Field := { addr := 0x701000, s1 := 0x40, hi := 21, lo := 16, acc := .rw, reset := 0x2B }
/-- CAM_PORT_CFG [9:8] VC (R318). -/
def CAM_PORT_CFG_VC : Field := { addr := 0x701000, s1 := 0x40, hi := 9, lo := 8, acc := .rw }
/-- CAM_PORT_CFG [3:1] LANES (R318). -/
def CAM_PORT_CFG_LANES : Field := { addr := 0x701000, s1 := 0x40, hi := 3, lo := 1, acc := .rw, reset := 4 }
/-- CAM_PORT_CFG [0:0] EN (R318). -/
def CAM_PORT_CFG_EN : Field := { addr := 0x701000, s1 := 0x40, hi := 0, lo := 0, acc := .rw }
/-- CAM_PORT_CFG (R318). -/
def CAM_PORT_CFG : RegDef := { addr := 0x701000, n1 := 4, s1 := 0x40, fields := [CAM_PORT_CFG_LANE_RATE, CAM_PORT_CFG_LANE_POL, CAM_PORT_CFG_COAX_CH,
    CAM_PORT_CFG_COAX_EN, CAM_PORT_CFG_WEIGHT, CAM_PORT_CFG_CLASS, CAM_PORT_CFG_ENGINE, CAM_PORT_CFG_DT, CAM_PORT_CFG_VC, CAM_PORT_CFG_LANES, CAM_PORT_CFG_EN] }
/-- CAM_PORT_GEOM [63:48] WIDTH (R319). -/
def CAM_PORT_GEOM_WIDTH : Field := { addr := 0x701008, s1 := 0x40, hi := 63, lo := 48, acc := .rw, reset := 1024 }
/-- CAM_PORT_GEOM [47:32] HEIGHT (R319). -/
def CAM_PORT_GEOM_HEIGHT : Field := { addr := 0x701008, s1 := 0x40, hi := 47, lo := 32, acc := .rw, reset := 1024 }
/-- CAM_PORT_GEOM [31:0] FRAME_TIMEOUT (R319). -/
def CAM_PORT_GEOM_FRAME_TIMEOUT : Field := { addr := 0x701008, s1 := 0x40, hi := 31, lo := 0, acc := .rw, reset := 20000000 }
/-- CAM_PORT_GEOM (R319). -/
def CAM_PORT_GEOM : RegDef := { addr := 0x701008, n1 := 4, s1 := 0x40, fields := [CAM_PORT_GEOM_WIDTH, CAM_PORT_GEOM_HEIGHT, CAM_PORT_GEOM_FRAME_TIMEOUT] }
/-- CAM_PORT_LEVEL [63:48] BLACK (R320). -/
def CAM_PORT_LEVEL_BLACK : Field := { addr := 0x701010, s1 := 0x40, hi := 63, lo := 48, acc := .rws }
/-- CAM_PORT_LEVEL [47:32] PAD (R320). -/
def CAM_PORT_LEVEL_PAD : Field := { addr := 0x701010, s1 := 0x40, hi := 47, lo := 32, acc := .rws }
/-- CAM_PORT_LEVEL [31:16] THRESH (R320). -/
def CAM_PORT_LEVEL_THRESH : Field := { addr := 0x701010, s1 := 0x40, hi := 31, lo := 16, acc := .rws }
/-- CAM_PORT_LEVEL (R320). -/
def CAM_PORT_LEVEL : RegDef := { addr := 0x701010, n1 := 4, s1 := 0x40, fields := [CAM_PORT_LEVEL_BLACK, CAM_PORT_LEVEL_PAD, CAM_PORT_LEVEL_THRESH] }
/-- CAM_PORT_STATUS [63:32] SEQ (R321). -/
def CAM_PORT_STATUS_SEQ : Field := { addr := 0x701018, s1 := 0x40, hi := 63, lo := 32, acc := .ro }
/-- CAM_PORT_STATUS [19:16] BUF_PEAK (R321). -/
def CAM_PORT_STATUS_BUF_PEAK : Field := { addr := 0x701018, s1 := 0x40, hi := 19, lo := 16, acc := .rol }
/-- CAM_PORT_STATUS [11:8] BUF_NOW (R321). -/
def CAM_PORT_STATUS_BUF_NOW : Field := { addr := 0x701018, s1 := 0x40, hi := 11, lo := 8, acc := .ro }
/-- CAM_PORT_STATUS (R321). -/
def CAM_PORT_STATUS : RegDef := { addr := 0x701018, n1 := 4, s1 := 0x40, fields := [CAM_PORT_STATUS_SEQ, CAM_PORT_STATUS_BUF_PEAK, CAM_PORT_STATUS_BUF_NOW] }
/-- CAM_PORT_COUNTS [63:32] FRAMES (R321). -/
def CAM_PORT_COUNTS_FRAMES : Field := { addr := 0x701020, s1 := 0x40, hi := 63, lo := 32, acc := .rol }
/-- CAM_PORT_COUNTS [31:0] LINES_DROPPED (R321). -/
def CAM_PORT_COUNTS_LINES_DROPPED : Field := { addr := 0x701020, s1 := 0x40, hi := 31, lo := 0, acc := .rol }
/-- CAM_PORT_COUNTS (R321). -/
def CAM_PORT_COUNTS : RegDef := { addr := 0x701020, n1 := 4, s1 := 0x40, fields := [CAM_PORT_COUNTS_FRAMES, CAM_PORT_COUNTS_LINES_DROPPED] }
/-- CAM_PORT_ERRS [63:48] ECC_CORRECTED (R321). -/
def CAM_PORT_ERRS_ECC_CORRECTED : Field := { addr := 0x701028, s1 := 0x40, hi := 63, lo := 48, acc := .rol }
/-- CAM_PORT_ERRS [47:32] HDR_DISCARDED (R321). -/
def CAM_PORT_ERRS_HDR_DISCARDED : Field := { addr := 0x701028, s1 := 0x40, hi := 47, lo := 32, acc := .rol }
/-- CAM_PORT_ERRS [31:16] CRC_ERRORS (R321). -/
def CAM_PORT_ERRS_CRC_ERRORS : Field := { addr := 0x701028, s1 := 0x40, hi := 31, lo := 16, acc := .rol }
/-- CAM_PORT_ERRS [15:0] OTHER_PKTS (R321). -/
def CAM_PORT_ERRS_OTHER_PKTS : Field := { addr := 0x701028, s1 := 0x40, hi := 15, lo := 0, acc := .rol }
/-- CAM_PORT_ERRS (R321). -/
def CAM_PORT_ERRS : RegDef := { addr := 0x701028, n1 := 4, s1 := 0x40, fields := [CAM_PORT_ERRS_ECC_CORRECTED, CAM_PORT_ERRS_HDR_DISCARDED, CAM_PORT_ERRS_CRC_ERRORS,
    CAM_PORT_ERRS_OTHER_PKTS] }
/-- CDC_CTL [0:0] EN (R339). -/
def CDC_CTL_EN : Field := { addr := 0x800000, hi := 0, lo := 0, acc := .rw, reset := 1 }
/-- CDC_CTL (R339). -/
def CDC_CTL : RegDef := { addr := 0x800000, fields := [CDC_CTL_EN] }
/-- CDC_STATUS [57:52] RING (R340). -/
def CDC_STATUS_RING : Field := { addr := 0x800008, hi := 57, lo := 52, acc := .ro }
/-- CDC_STATUS [51:20] INDEX (R340). -/
def CDC_STATUS_INDEX : Field := { addr := 0x800008, hi := 51, lo := 20, acc := .ro }
/-- CDC_STATUS [7:4] QUEUED (R340). -/
def CDC_STATUS_QUEUED : Field := { addr := 0x800008, hi := 7, lo := 4, acc := .ro }
/-- CDC_STATUS [3:2] STATE (R340). -/
def CDC_STATUS_STATE : Field := { addr := 0x800008, hi := 3, lo := 2, acc := .ro }
/-- CDC_STATUS [0:0] REFUSED (R340). -/
def CDC_STATUS_REFUSED : Field := { addr := 0x800008, hi := 0, lo := 0, acc := .w1c }
/-- CDC_STATUS (R340). -/
def CDC_STATUS : RegDef := { addr := 0x800008, fields := [CDC_STATUS_RING, CDC_STATUS_INDEX, CDC_STATUS_QUEUED, CDC_STATUS_STATE, CDC_STATUS_REFUSED] }
/-- CDC_STAT_JOBS [63:0] COUNT (R341). -/
def CDC_STAT_JOBS_COUNT : Field := { addr := 0x800100, hi := 63, lo := 0, acc := .rol }
/-- CDC_STAT_JOBS (R341). -/
def CDC_STAT_JOBS : RegDef := { addr := 0x800100, fields := [CDC_STAT_JOBS_COUNT] }
/-- CDC_STAT_IN_BYTES [63:0] COUNT (R341). -/
def CDC_STAT_IN_BYTES_COUNT : Field := { addr := 0x800108, hi := 63, lo := 0, acc := .rol }
/-- CDC_STAT_IN_BYTES (R341). -/
def CDC_STAT_IN_BYTES : RegDef := { addr := 0x800108, fields := [CDC_STAT_IN_BYTES_COUNT] }
/-- CDC_STAT_OUT_BYTES [63:0] COUNT (R341). -/
def CDC_STAT_OUT_BYTES_COUNT : Field := { addr := 0x800110, hi := 63, lo := 0, acc := .rol }
/-- CDC_STAT_OUT_BYTES (R341). -/
def CDC_STAT_OUT_BYTES : RegDef := { addr := 0x800110, fields := [CDC_STAT_OUT_BYTES_COUNT] }
/-- CDC_STAT_ERRORS [63:0] COUNT (R341). -/
def CDC_STAT_ERRORS_COUNT : Field := { addr := 0x800118, hi := 63, lo := 0, acc := .rol }
/-- CDC_STAT_ERRORS (R341). -/
def CDC_STAT_ERRORS : RegDef := { addr := 0x800118, fields := [CDC_STAT_ERRORS_COUNT] }
/-- CDC_STAT_BUSY [63:0] COUNT (R341). -/
def CDC_STAT_BUSY_COUNT : Field := { addr := 0x800120, hi := 63, lo := 0, acc := .rol }
/-- CDC_STAT_BUSY (R341). -/
def CDC_STAT_BUSY : RegDef := { addr := 0x800120, fields := [CDC_STAT_BUSY_COUNT] }
/-- DMA_STATUS [63:32] BUSY (R359). -/
def DMA_STATUS_BUSY : Field := { addr := 0x900000, hi := 63, lo := 32, acc := .ro }
/-- DMA_STATUS [4:0] QUEUED (R359). -/
def DMA_STATUS_QUEUED : Field := { addr := 0x900000, hi := 4, lo := 0, acc := .ro }
/-- DMA_STATUS (R359). -/
def DMA_STATUS : RegDef := { addr := 0x900000, fields := [DMA_STATUS_BUSY, DMA_STATUS_QUEUED] }
/-- DMA_STAT_ENTRIES [63:0] COUNT (R362). -/
def DMA_STAT_ENTRIES_COUNT : Field := { addr := 0x900100, hi := 63, lo := 0, acc := .rol }
/-- DMA_STAT_ENTRIES (R362). -/
def DMA_STAT_ENTRIES : RegDef := { addr := 0x900100, fields := [DMA_STAT_ENTRIES_COUNT] }
/-- DMA_STAT_BYTES_READ [63:0] COUNT (R362). -/
def DMA_STAT_BYTES_READ_COUNT : Field := { addr := 0x900108, hi := 63, lo := 0, acc := .rol }
/-- DMA_STAT_BYTES_READ (R362). -/
def DMA_STAT_BYTES_READ : RegDef := { addr := 0x900108, fields := [DMA_STAT_BYTES_READ_COUNT] }
/-- DMA_STAT_BYTES_WRITTEN [63:0] COUNT (R362). -/
def DMA_STAT_BYTES_WRITTEN_COUNT : Field := { addr := 0x900110, hi := 63, lo := 0, acc := .rol }
/-- DMA_STAT_BYTES_WRITTEN (R362). -/
def DMA_STAT_BYTES_WRITTEN : RegDef := { addr := 0x900110, fields := [DMA_STAT_BYTES_WRITTEN_COUNT] }
/-- DMA_STAT_BAD [63:0] COUNT (R362). -/
def DMA_STAT_BAD_COUNT : Field := { addr := 0x900118, hi := 63, lo := 0, acc := .rol }
/-- DMA_STAT_BAD (R362). -/
def DMA_STAT_BAD : RegDef := { addr := 0x900118, fields := [DMA_STAT_BAD_COUNT] }
/-- DMA_STAT_ABORTED [63:0] COUNT (R362). -/
def DMA_STAT_ABORTED_COUNT : Field := { addr := 0x900120, hi := 63, lo := 0, acc := .rol }
/-- DMA_STAT_ABORTED (R362). -/
def DMA_STAT_ABORTED : RegDef := { addr := 0x900120, fields := [DMA_STAT_ABORTED_COUNT] }
/-- DMA_CHAN_CFG [11:8] WEIGHT (R360). -/
def DMA_CHAN_CFG_WEIGHT : Field := { addr := 0x901000, s1 := 0x40, hi := 11, lo := 8, acc := .rw, reset := 1 }
/-- DMA_CHAN_CFG [0:0] EN (R360). -/
def DMA_CHAN_CFG_EN : Field := { addr := 0x901000, s1 := 0x40, hi := 0, lo := 0, acc := .rw, reset := 1 }
/-- DMA_CHAN_CFG (R360). -/
def DMA_CHAN_CFG : RegDef := { addr := 0x901000, n1 := 32, s1 := 0x40, fields := [DMA_CHAN_CFG_WEIGHT, DMA_CHAN_CFG_EN] }
/-- DMA_CHAN_STATUS [63:58] RING (R361). -/
def DMA_CHAN_STATUS_RING : Field := { addr := 0x901008, s1 := 0x40, hi := 63, lo := 58, acc := .ro }
/-- DMA_CHAN_STATUS [51:20] INDEX (R361). -/
def DMA_CHAN_STATUS_INDEX : Field := { addr := 0x901008, s1 := 0x40, hi := 51, lo := 20, acc := .ro }
/-- DMA_CHAN_STATUS [6:4] QUEUED (R361). -/
def DMA_CHAN_STATUS_QUEUED : Field := { addr := 0x901008, s1 := 0x40, hi := 6, lo := 4, acc := .ro }
/-- DMA_CHAN_STATUS [3:2] STATE (R361). -/
def DMA_CHAN_STATUS_STATE : Field := { addr := 0x901008, s1 := 0x40, hi := 3, lo := 2, acc := .ro }
/-- DMA_CHAN_STATUS [0:0] REFUSED (R361). -/
def DMA_CHAN_STATUS_REFUSED : Field := { addr := 0x901008, s1 := 0x40, hi := 0, lo := 0, acc := .w1c }
/-- DMA_CHAN_STATUS (R361). -/
def DMA_CHAN_STATUS : RegDef := { addr := 0x901008, n1 := 32, s1 := 0x40, fields := [DMA_CHAN_STATUS_RING, DMA_CHAN_STATUS_INDEX, DMA_CHAN_STATUS_QUEUED,
    DMA_CHAN_STATUS_STATE, DMA_CHAN_STATUS_REFUSED] }
/-- DMA_CHAN_PROGRESS [63:32] ELEMENTS_DONE (R361). -/
def DMA_CHAN_PROGRESS_ELEMENTS_DONE : Field := { addr := 0x901010, s1 := 0x40, hi := 63, lo := 32, acc := .ro }
/-- DMA_CHAN_PROGRESS [31:0] COUNT (R361). -/
def DMA_CHAN_PROGRESS_COUNT : Field := { addr := 0x901010, s1 := 0x40, hi := 31, lo := 0, acc := .ro }
/-- DMA_CHAN_PROGRESS (R361). -/
def DMA_CHAN_PROGRESS : RegDef := { addr := 0x901010, n1 := 32, s1 := 0x40, fields := [DMA_CHAN_PROGRESS_ELEMENTS_DONE, DMA_CHAN_PROGRESS_COUNT] }
/-- MEM_STATUS [0:0] REFUSED (R380). -/
def MEM_STATUS_REFUSED : Field := { addr := 0xA00000, hi := 0, lo := 0, acc := .w1c }
/-- MEM_STATUS (R380). -/
def MEM_STATUS : RegDef := { addr := 0xA00000, fields := [MEM_STATUS_REFUSED] }
/-- MEM_SRAM_CTL [15:0] SCRUB_PERIOD (R380). -/
def MEM_SRAM_CTL_SCRUB_PERIOD : Field := { addr := 0xA00008, hi := 15, lo := 0, acc := .rw, reset := 1000 }
/-- MEM_SRAM_CTL (R380). -/
def MEM_SRAM_CTL : RegDef := { addr := 0xA00008, fields := [MEM_SRAM_CTL_SCRUB_PERIOD] }
/-- MEM_DRAM_MAP [16:16] INTERLEAVED (R380). -/
def MEM_DRAM_MAP_INTERLEAVED : Field := { addr := 0xA00010, hi := 16, lo := 16, acc := .ro }
/-- MEM_DRAM_MAP [15:8] SIZE1 (R380). -/
def MEM_DRAM_MAP_SIZE1 : Field := { addr := 0xA00010, hi := 15, lo := 8, acc := .ro }
/-- MEM_DRAM_MAP [7:0] SIZE0 (R380). -/
def MEM_DRAM_MAP_SIZE0 : Field := { addr := 0xA00010, hi := 7, lo := 0, acc := .ro }
/-- MEM_DRAM_MAP (R380). -/
def MEM_DRAM_MAP : RegDef := { addr := 0xA00010, fields := [MEM_DRAM_MAP_INTERLEAVED, MEM_DRAM_MAP_SIZE1, MEM_DRAM_MAP_SIZE0] }
/-- MEM_STAT_SRAM_CE [63:0] COUNT (R385). -/
def MEM_STAT_SRAM_CE_COUNT : Field := { addr := 0xA00100, hi := 63, lo := 0, acc := .rol }
/-- MEM_STAT_SRAM_CE (R385). -/
def MEM_STAT_SRAM_CE : RegDef := { addr := 0xA00100, fields := [MEM_STAT_SRAM_CE_COUNT] }
/-- MEM_STAT_SRAM_UE [63:0] COUNT (R385). -/
def MEM_STAT_SRAM_UE_COUNT : Field := { addr := 0xA00108, hi := 63, lo := 0, acc := .rol }
/-- MEM_STAT_SRAM_UE (R385). -/
def MEM_STAT_SRAM_UE : RegDef := { addr := 0xA00108, fields := [MEM_STAT_SRAM_UE_COUNT] }
/-- MEM_STAT_DRAM_CE [63:0] COUNT (R385). -/
def MEM_STAT_DRAM_CE_COUNT : Field := { addr := 0xA00110, hi := 63, lo := 0, acc := .rol }
/-- MEM_STAT_DRAM_CE (R385). -/
def MEM_STAT_DRAM_CE : RegDef := { addr := 0xA00110, fields := [MEM_STAT_DRAM_CE_COUNT] }
/-- MEM_STAT_DRAM_UE [63:0] COUNT (R385). -/
def MEM_STAT_DRAM_UE_COUNT : Field := { addr := 0xA00118, hi := 63, lo := 0, acc := .rol }
/-- MEM_STAT_DRAM_UE (R385). -/
def MEM_STAT_DRAM_UE : RegDef := { addr := 0xA00118, fields := [MEM_STAT_DRAM_UE_COUNT] }
/-- MEM_STAT_ACT_DELAYED [63:0] COUNT (R385). -/
def MEM_STAT_ACT_DELAYED_COUNT : Field := { addr := 0xA00120, hi := 63, lo := 0, acc := .rol }
/-- MEM_STAT_ACT_DELAYED (R385). -/
def MEM_STAT_ACT_DELAYED : RegDef := { addr := 0xA00120, fields := [MEM_STAT_ACT_DELAYED_COUNT] }
/-- MEM_STAT_STAGE_PEAK [63:0] COUNT (R385). -/
def MEM_STAT_STAGE_PEAK_COUNT : Field := { addr := 0xA00128, hi := 63, lo := 0, acc := .rol }
/-- MEM_STAT_STAGE_PEAK (R385). -/
def MEM_STAT_STAGE_PEAK : RegDef := { addr := 0xA00128, fields := [MEM_STAT_STAGE_PEAK_COUNT] }
/-- MEM_STAT_STAGE_WAIT [63:0] COUNT (R385). -/
def MEM_STAT_STAGE_WAIT_COUNT : Field := { addr := 0xA00130, hi := 63, lo := 0, acc := .rol }
/-- MEM_STAT_STAGE_WAIT (R385). -/
def MEM_STAT_STAGE_WAIT : RegDef := { addr := 0xA00130, fields := [MEM_STAT_STAGE_WAIT_COUNT] }
/-- MEM_DDR_CFG [47:32] RATE (R381). -/
def MEM_DDR_CFG_RATE : Field := { addr := 0xA01000, s1 := 0x200, hi := 47, lo := 32, acc := .rw, reset := 4800 }
/-- MEM_DDR_CFG [11:8] DENSITY (R381). -/
def MEM_DDR_CFG_DENSITY : Field := { addr := 0xA01000, s1 := 0x200, hi := 11, lo := 8, acc := .rw }
/-- MEM_DDR_CFG [5:5] WIDTH (R381). -/
def MEM_DDR_CFG_WIDTH : Field := { addr := 0xA01000, s1 := 0x200, hi := 5, lo := 5, acc := .rw }
/-- MEM_DDR_CFG [4:4] RANKS (R381). -/
def MEM_DDR_CFG_RANKS : Field := { addr := 0xA01000, s1 := 0x200, hi := 4, lo := 4, acc := .rw }
/-- MEM_DDR_CFG [0:0] EN (R381). -/
def MEM_DDR_CFG_EN : Field := { addr := 0xA01000, s1 := 0x200, hi := 0, lo := 0, acc := .rw }
/-- MEM_DDR_CFG (R381). -/
def MEM_DDR_CFG : RegDef := { addr := 0xA01000, n1 := 2, s1 := 0x200, fields := [MEM_DDR_CFG_RATE, MEM_DDR_CFG_DENSITY, MEM_DDR_CFG_WIDTH, MEM_DDR_CFG_RANKS,
    MEM_DDR_CFG_EN] }
/-- MEM_DDR_TIMING [63:48] REFI (R381). -/
def MEM_DDR_TIMING_REFI : Field := { addr := 0xA01008, s1 := 0x200, hi := 63, lo := 48, acc := .rw, reset := 9360 }
/-- MEM_DDR_TIMING [47:36] RFC (R381). -/
def MEM_DDR_TIMING_RFC : Field := { addr := 0xA01008, s1 := 0x200, hi := 47, lo := 36, acc := .rw, reset := 984 }
/-- MEM_DDR_TIMING [31:24] RAS (R381). -/
def MEM_DDR_TIMING_RAS : Field := { addr := 0xA01008, s1 := 0x200, hi := 31, lo := 24, acc := .rw, reset := 77 }
/-- MEM_DDR_TIMING [23:16] RP (R381). -/
def MEM_DDR_TIMING_RP : Field := { addr := 0xA01008, s1 := 0x200, hi := 23, lo := 16, acc := .rw, reset := 40 }
/-- MEM_DDR_TIMING [15:8] RCD (R381). -/
def MEM_DDR_TIMING_RCD : Field := { addr := 0xA01008, s1 := 0x200, hi := 15, lo := 8, acc := .rw, reset := 40 }
/-- MEM_DDR_TIMING [7:0] CL (R381). -/
def MEM_DDR_TIMING_CL : Field := { addr := 0xA01008, s1 := 0x200, hi := 7, lo := 0, acc := .rw, reset := 40 }
/-- MEM_DDR_TIMING (R381). -/
def MEM_DDR_TIMING : RegDef := { addr := 0xA01008, n1 := 2, s1 := 0x200, fields := [MEM_DDR_TIMING_REFI, MEM_DDR_TIMING_RFC, MEM_DDR_TIMING_RAS, MEM_DDR_TIMING_RP,
    MEM_DDR_TIMING_RCD, MEM_DDR_TIMING_CL] }
/-- MEM_DDR_ROW [63:32] ACT_LIMIT (R382). -/
def MEM_DDR_ROW_ACT_LIMIT : Field := { addr := 0xA01010, s1 := 0x200, hi := 63, lo := 32, acc := .rw, reset := 16384 }
/-- MEM_DDR_ROW [31:0] THROTTLE_GAP (R382). -/
def MEM_DDR_ROW_THROTTLE_GAP : Field := { addr := 0xA01010, s1 := 0x200, hi := 31, lo := 0, acc := .rw, reset := 1954 }
/-- MEM_DDR_ROW (R382). -/
def MEM_DDR_ROW : RegDef := { addr := 0xA01010, n1 := 2, s1 := 0x200, fields := [MEM_DDR_ROW_ACT_LIMIT, MEM_DDR_ROW_THROTTLE_GAP] }
/-- MEM_DDR_STATUS [9:8] STATE (R382). -/
def MEM_DDR_STATUS_STATE : Field := { addr := 0xA01018, s1 := 0x200, hi := 9, lo := 8, acc := .ro }
/-- MEM_DDR_STATUS [7:0] THROTTLED (R382). -/
def MEM_DDR_STATUS_THROTTLED : Field := { addr := 0xA01018, s1 := 0x200, hi := 7, lo := 0, acc := .ro }
/-- MEM_DDR_STATUS (R382). -/
def MEM_DDR_STATUS : RegDef := { addr := 0xA01018, n1 := 2, s1 := 0x200, fields := [MEM_DDR_STATUS_STATE, MEM_DDR_STATUS_THROTTLED] }
/-- MEM_DDR_LANE [39:32] RD_GATE_CK (R383). -/
def MEM_DDR_LANE_RD_GATE_CK : Field := { addr := 0xA01040, s1 := 0x200, s2 := 0x8, hi := 39, lo := 32, acc := .rw }
/-- MEM_DDR_LANE [31:24] WR_LVL (R383). -/
def MEM_DDR_LANE_WR_LVL : Field := { addr := 0xA01040, s1 := 0x200, s2 := 0x8, hi := 31, lo := 24, acc := .rw }
/-- MEM_DDR_LANE [23:16] RD_GATE (R383). -/
def MEM_DDR_LANE_RD_GATE : Field := { addr := 0xA01040, s1 := 0x200, s2 := 0x8, hi := 23, lo := 16, acc := .rw }
/-- MEM_DDR_LANE [15:8] RD_DQS (R383). -/
def MEM_DDR_LANE_RD_DQS : Field := { addr := 0xA01040, s1 := 0x200, s2 := 0x8, hi := 15, lo := 8, acc := .rw }
/-- MEM_DDR_LANE [7:0] WR_DQ (R383). -/
def MEM_DDR_LANE_WR_DQ : Field := { addr := 0xA01040, s1 := 0x200, s2 := 0x8, hi := 7, lo := 0, acc := .rw }
/-- MEM_DDR_LANE (R383). -/
def MEM_DDR_LANE : RegDef := { addr := 0xA01040, n1 := 2, s1 := 0x200, n2 := 10, s2 := 0x8, fields := [MEM_DDR_LANE_RD_GATE_CK, MEM_DDR_LANE_WR_LVL,
    MEM_DDR_LANE_RD_GATE, MEM_DDR_LANE_RD_DQS, MEM_DDR_LANE_WR_DQ] }
/-- MEM_DDR_MR [16:16] USE (R384). -/
def MEM_DDR_MR_USE : Field := { addr := 0xA01100, s1 := 0x200, s2 := 0x8, hi := 16, lo := 16, acc := .rw }
/-- MEM_DDR_MR [15:8] ADDR (R384). -/
def MEM_DDR_MR_ADDR : Field := { addr := 0xA01100, s1 := 0x200, s2 := 0x8, hi := 15, lo := 8, acc := .rw }
/-- MEM_DDR_MR [7:0] DATA (R384). -/
def MEM_DDR_MR_DATA : Field := { addr := 0xA01100, s1 := 0x200, s2 := 0x8, hi := 7, lo := 0, acc := .rw }
/-- MEM_DDR_MR (R384). -/
def MEM_DDR_MR : RegDef := { addr := 0xA01100, n1 := 2, s1 := 0x200, n2 := 32, s2 := 0x8, fields := [MEM_DDR_MR_USE, MEM_DDR_MR_ADDR, MEM_DDR_MR_DATA] }
/-- LNK_DEV [63:48] DOMAIN (R418). -/
def LNK_DEV_DOMAIN : Field := { addr := 0xB00000, hi := 63, lo := 48, acc := .rw }
/-- LNK_DEV [25:25] ROOT (R418). -/
def LNK_DEV_ROOT : Field := { addr := 0xB00000, hi := 25, lo := 25, acc := .rw }
/-- LNK_DEV [24:24] EXT_PORTS (R418). -/
def LNK_DEV_EXT_PORTS : Field := { addr := 0xB00000, hi := 24, lo := 24, acc := .rw }
/-- LNK_DEV [9:0] DEVICE (R418). -/
def LNK_DEV_DEVICE : Field := { addr := 0xB00000, hi := 9, lo := 0, acc := .rw }
/-- LNK_DEV (R418). -/
def LNK_DEV : RegDef := { addr := 0xB00000, fields := [LNK_DEV_DOMAIN, LNK_DEV_ROOT, LNK_DEV_EXT_PORTS, LNK_DEV_DEVICE] }
/-- LNK_STATUS [47:38] ROOT (R419). -/
def LNK_STATUS_ROOT : Field := { addr := 0xB00008, hi := 47, lo := 38, acc := .ro }
/-- LNK_STATUS [37:36] TIME_STATE (R419). -/
def LNK_STATUS_TIME_STATE : Field := { addr := 0xB00008, hi := 37, lo := 36, acc := .ro, reset := 2 }
/-- LNK_STATUS [35:31] ROOT_HOPS (R419). -/
def LNK_STATUS_ROOT_HOPS : Field := { addr := 0xB00008, hi := 35, lo := 31, acc := .ro, reset := 31 }
/-- LNK_STATUS [30:27] UPSTREAM (R419). -/
def LNK_STATUS_UPSTREAM : Field := { addr := 0xB00008, hi := 30, lo := 27, acc := .ro, reset := 15 }
/-- LNK_STATUS [26:17] PORTS_UP (R419). -/
def LNK_STATUS_PORTS_UP : Field := { addr := 0xB00008, hi := 26, lo := 17, acc := .ro }
/-- LNK_STATUS [0:0] REFUSED (R419). -/
def LNK_STATUS_REFUSED : Field := { addr := 0xB00008, hi := 0, lo := 0, acc := .w1c }
/-- LNK_STATUS (R419). -/
def LNK_STATUS : RegDef := { addr := 0xB00008, fields := [LNK_STATUS_ROOT, LNK_STATUS_TIME_STATE, LNK_STATUS_ROOT_HOPS, LNK_STATUS_UPSTREAM, LNK_STATUS_PORTS_UP,
    LNK_STATUS_REFUSED] }
/-- LNK_TIME_CTL [47:32] ROOT_TIMEOUT (R420). -/
def LNK_TIME_CTL_ROOT_TIMEOUT : Field := { addr := 0xB00010, hi := 47, lo := 32, acc := .rw, reset := 64 }
/-- LNK_TIME_CTL [7:0] TIME_PERIOD (R420). -/
def LNK_TIME_CTL_TIME_PERIOD : Field := { addr := 0xB00010, hi := 7, lo := 0, acc := .rw, reset := 16 }
/-- LNK_TIME_CTL (R420). -/
def LNK_TIME_CTL : RegDef := { addr := 0xB00010, fields := [LNK_TIME_CTL_ROOT_TIMEOUT, LNK_TIME_CTL_TIME_PERIOD] }
/-- LNK_EVT_EXPORT [63:48] BLOCKS (R420). -/
def LNK_EVT_EXPORT_BLOCKS : Field := { addr := 0xB00018, hi := 63, lo := 48, acc := .rw }
/-- LNK_EVT_EXPORT [25:16] DEVICE (R420). -/
def LNK_EVT_EXPORT_DEVICE : Field := { addr := 0xB00018, hi := 25, lo := 16, acc := .rw }
/-- LNK_EVT_EXPORT [0:0] EN (R420). -/
def LNK_EVT_EXPORT_EN : Field := { addr := 0xB00018, hi := 0, lo := 0, acc := .rw }
/-- LNK_EVT_EXPORT (R420). -/
def LNK_EVT_EXPORT : RegDef := { addr := 0xB00018, fields := [LNK_EVT_EXPORT_BLOCKS, LNK_EVT_EXPORT_DEVICE, LNK_EVT_EXPORT_EN] }
/-- LNK_FEED_CTL [15:0] FEED_TIMEOUT (R420). -/
def LNK_FEED_CTL_FEED_TIMEOUT : Field := { addr := 0xB00020, hi := 15, lo := 0, acc := .rw }
/-- LNK_FEED_CTL (R420). -/
def LNK_FEED_CTL : RegDef := { addr := 0xB00020, fields := [LNK_FEED_CTL_FEED_TIMEOUT] }
/-- LNK_STAT_FRAMES_TX [63:0] COUNT (R425). -/
def LNK_STAT_FRAMES_TX_COUNT : Field := { addr := 0xB00100, hi := 63, lo := 0, acc := .rol }
/-- LNK_STAT_FRAMES_TX (R425). -/
def LNK_STAT_FRAMES_TX : RegDef := { addr := 0xB00100, fields := [LNK_STAT_FRAMES_TX_COUNT] }
/-- LNK_STAT_FRAMES_RX [63:0] COUNT (R425). -/
def LNK_STAT_FRAMES_RX_COUNT : Field := { addr := 0xB00108, hi := 63, lo := 0, acc := .rol }
/-- LNK_STAT_FRAMES_RX (R425). -/
def LNK_STAT_FRAMES_RX : RegDef := { addr := 0xB00108, fields := [LNK_STAT_FRAMES_RX_COUNT] }
/-- LNK_STAT_FORWARDED [63:0] COUNT (R425). -/
def LNK_STAT_FORWARDED_COUNT : Field := { addr := 0xB00110, hi := 63, lo := 0, acc := .rol }
/-- LNK_STAT_FORWARDED (R425). -/
def LNK_STAT_FORWARDED : RegDef := { addr := 0xB00110, fields := [LNK_STAT_FORWARDED_COUNT] }
/-- LNK_STAT_DISCARDED [63:0] COUNT (R425). -/
def LNK_STAT_DISCARDED_COUNT : Field := { addr := 0xB00118, hi := 63, lo := 0, acc := .rol }
/-- LNK_STAT_DISCARDED (R425). -/
def LNK_STAT_DISCARDED : RegDef := { addr := 0xB00118, fields := [LNK_STAT_DISCARDED_COUNT] }
/-- LNK_STAT_FED [63:0] COUNT (R425). -/
def LNK_STAT_FED_COUNT : Field := { addr := 0xB00120, hi := 63, lo := 0, acc := .rol }
/-- LNK_STAT_FED (R425). -/
def LNK_STAT_FED : RegDef := { addr := 0xB00120, fields := [LNK_STAT_FED_COUNT] }
/-- LNK_STAT_FED_LATE [63:0] COUNT (R425). -/
def LNK_STAT_FED_LATE_COUNT : Field := { addr := 0xB00128, hi := 63, lo := 0, acc := .rol }
/-- LNK_STAT_FED_LATE (R425). -/
def LNK_STAT_FED_LATE : RegDef := { addr := 0xB00128, fields := [LNK_STAT_FED_LATE_COUNT] }
/-- LNK_STAT_EXPORT_LOST [63:0] COUNT (R425). -/
def LNK_STAT_EXPORT_LOST_COUNT : Field := { addr := 0xB00130, hi := 63, lo := 0, acc := .rol }
/-- LNK_STAT_EXPORT_LOST (R425). -/
def LNK_STAT_EXPORT_LOST : RegDef := { addr := 0xB00130, fields := [LNK_STAT_EXPORT_LOST_COUNT] }
/-- LNK_BL_CFG [31:24] RETRY_MAX (R421). -/
def LNK_BL_CFG_RETRY_MAX : Field := { addr := 0xB01000, s1 := 0x80, hi := 31, lo := 24, acc := .rw, reset := 8 }
/-- LNK_BL_CFG [16:16] EQ_CLASS (R421). -/
def LNK_BL_CFG_EQ_CLASS : Field := { addr := 0xB01000, s1 := 0x80, hi := 16, lo := 16, acc := .rw }
/-- LNK_BL_CFG [9:8] LANE_POL (R421). -/
def LNK_BL_CFG_LANE_POL : Field := { addr := 0xB01000, s1 := 0x80, hi := 9, lo := 8, acc := .rw }
/-- LNK_BL_CFG [0:0] EN (R421). -/
def LNK_BL_CFG_EN : Field := { addr := 0xB01000, s1 := 0x80, hi := 0, lo := 0, acc := .rw }
/-- LNK_BL_CFG (R421). -/
def LNK_BL_CFG : RegDef := { addr := 0xB01000, n1 := 10, s1 := 0x80, fields := [LNK_BL_CFG_RETRY_MAX, LNK_BL_CFG_EQ_CLASS, LNK_BL_CFG_LANE_POL, LNK_BL_CFG_EN] }
/-- LNK_BL_ASYM [63:32] TX_LAT (R421). -/
def LNK_BL_ASYM_TX_LAT : Field := { addr := 0xB01008, s1 := 0x80, hi := 63, lo := 32, acc := .rw }
/-- LNK_BL_ASYM [31:0] RX_LAT (R421). -/
def LNK_BL_ASYM_RX_LAT : Field := { addr := 0xB01008, s1 := 0x80, hi := 31, lo := 0, acc := .rw }
/-- LNK_BL_ASYM (R421). -/
def LNK_BL_ASYM : RegDef := { addr := 0xB01008, n1 := 10, s1 := 0x80, fields := [LNK_BL_ASYM_TX_LAT, LNK_BL_ASYM_RX_LAT] }
/-- LNK_BL_STATUS [63:54] PEER_DEVICE (R421). -/
def LNK_BL_STATUS_PEER_DEVICE : Field := { addr := 0xB01010, s1 := 0x80, hi := 63, lo := 54, acc := .ro }
/-- LNK_BL_STATUS [53:50] PEER_PORT (R421). -/
def LNK_BL_STATUS_PEER_PORT : Field := { addr := 0xB01010, s1 := 0x80, hi := 53, lo := 50, acc := .ro }
/-- LNK_BL_STATUS [3:3] LANES_SWAPPED (R421). -/
def LNK_BL_STATUS_LANES_SWAPPED : Field := { addr := 0xB01010, s1 := 0x80, hi := 3, lo := 3, acc := .ro }
/-- LNK_BL_STATUS [2:0] STATE (R421). -/
def LNK_BL_STATUS_STATE : Field := { addr := 0xB01010, s1 := 0x80, hi := 2, lo := 0, acc := .ro }
/-- LNK_BL_STATUS (R421). -/
def LNK_BL_STATUS : RegDef := { addr := 0xB01010, n1 := 10, s1 := 0x80, fields := [LNK_BL_STATUS_PEER_DEVICE, LNK_BL_STATUS_PEER_PORT, LNK_BL_STATUS_LANES_SWAPPED,
    LNK_BL_STATUS_STATE] }
/-- LNK_BL_OFFSET [63:0] OFFSET (R421). -/
def LNK_BL_OFFSET_OFFSET : Field := { addr := 0xB01018, s1 := 0x80, hi := 63, lo := 0, acc := .ro }
/-- LNK_BL_OFFSET (R421). -/
def LNK_BL_OFFSET : RegDef := { addr := 0xB01018, n1 := 10, s1 := 0x80, fields := [LNK_BL_OFFSET_OFFSET] }
/-- LNK_BL_DELAY [63:0] DELAY (R421). -/
def LNK_BL_DELAY_DELAY : Field := { addr := 0xB01020, s1 := 0x80, hi := 63, lo := 0, acc := .ro }
/-- LNK_BL_DELAY (R421). -/
def LNK_BL_DELAY : RegDef := { addr := 0xB01020, n1 := 10, s1 := 0x80, fields := [LNK_BL_DELAY_DELAY] }
/-- LNK_BL_COUNTS [63:32] BLOCK_ERRORS (R421). -/
def LNK_BL_COUNTS_BLOCK_ERRORS : Field := { addr := 0xB01028, s1 := 0x80, hi := 63, lo := 32, acc := .rol }
/-- LNK_BL_COUNTS [31:0] RETRIES (R421). -/
def LNK_BL_COUNTS_RETRIES : Field := { addr := 0xB01028, s1 := 0x80, hi := 31, lo := 0, acc := .rol }
/-- LNK_BL_COUNTS (R421). -/
def LNK_BL_COUNTS : RegDef := { addr := 0xB01028, n1 := 10, s1 := 0x80, fields := [LNK_BL_COUNTS_BLOCK_ERRORS, LNK_BL_COUNTS_RETRIES] }
/-- LNK_LANE_EQ [27:24] CTLE (R422). -/
def LNK_LANE_EQ_CTLE : Field := { addr := 0xB02000, s1 := 0x40, hi := 27, lo := 24, acc := .rw, reset := 4 }
/-- LNK_LANE_EQ [21:16] TX_POST (R422). -/
def LNK_LANE_EQ_TX_POST : Field := { addr := 0xB02000, s1 := 0x40, hi := 21, lo := 16, acc := .rw, reset := 8 }
/-- LNK_LANE_EQ [11:8] TX_PRE (R422). -/
def LNK_LANE_EQ_TX_PRE : Field := { addr := 0xB02000, s1 := 0x40, hi := 11, lo := 8, acc := .rw, reset := 4 }
/-- LNK_LANE_EQ [5:0] TX_MAIN (R422). -/
def LNK_LANE_EQ_TX_MAIN : Field := { addr := 0xB02000, s1 := 0x40, hi := 5, lo := 0, acc := .rw, reset := 51 }
/-- LNK_LANE_EQ (R422). -/
def LNK_LANE_EQ : RegDef := { addr := 0xB02000, n1 := 32, s1 := 0x40, fields := [LNK_LANE_EQ_CTLE, LNK_LANE_EQ_TX_POST, LNK_LANE_EQ_TX_PRE, LNK_LANE_EQ_TX_MAIN] }
/-- LNK_LANE_TEST [63:32] INJ_PERIOD (R422). -/
def LNK_LANE_TEST_INJ_PERIOD : Field := { addr := 0xB02008, s1 := 0x40, hi := 63, lo := 32, acc := .rw }
/-- LNK_LANE_TEST [16:16] INJECT (R422). -/
def LNK_LANE_TEST_INJECT : Field := { addr := 0xB02008, s1 := 0x40, hi := 16, lo := 16, acc := .wo }
/-- LNK_LANE_TEST [15:12] RATE (R422). -/
def LNK_LANE_TEST_RATE : Field := { addr := 0xB02008, s1 := 0x40, hi := 15, lo := 12, acc := .rw }
/-- LNK_LANE_TEST [5:4] LOOP (R422). -/
def LNK_LANE_TEST_LOOP : Field := { addr := 0xB02008, s1 := 0x40, hi := 5, lo := 4, acc := .rw }
/-- LNK_LANE_TEST [2:0] PATTERN (R422). -/
def LNK_LANE_TEST_PATTERN : Field := { addr := 0xB02008, s1 := 0x40, hi := 2, lo := 0, acc := .rw }
/-- LNK_LANE_TEST (R422). -/
def LNK_LANE_TEST : RegDef := { addr := 0xB02008, n1 := 32, s1 := 0x40, fields := [LNK_LANE_TEST_INJ_PERIOD, LNK_LANE_TEST_INJECT, LNK_LANE_TEST_RATE,
    LNK_LANE_TEST_LOOP, LNK_LANE_TEST_PATTERN] }
/-- LNK_LANE_STATUS [63:16] ERRORS (R422). -/
def LNK_LANE_STATUS_ERRORS : Field := { addr := 0xB02010, s1 := 0x40, hi := 63, lo := 16, acc := .ro }
/-- LNK_LANE_STATUS [2:2] ADAPTED (R422). -/
def LNK_LANE_STATUS_ADAPTED : Field := { addr := 0xB02010, s1 := 0x40, hi := 2, lo := 2, acc := .ro }
/-- LNK_LANE_STATUS [1:1] CHK_LOCK (R422). -/
def LNK_LANE_STATUS_CHK_LOCK : Field := { addr := 0xB02010, s1 := 0x40, hi := 1, lo := 1, acc := .ro }
/-- LNK_LANE_STATUS [0:0] CDR_LOCK (R422). -/
def LNK_LANE_STATUS_CDR_LOCK : Field := { addr := 0xB02010, s1 := 0x40, hi := 0, lo := 0, acc := .ro }
/-- LNK_LANE_STATUS (R422). -/
def LNK_LANE_STATUS : RegDef := { addr := 0xB02010, n1 := 32, s1 := 0x40, fields := [LNK_LANE_STATUS_ERRORS, LNK_LANE_STATUS_ADAPTED, LNK_LANE_STATUS_CHK_LOCK,
    LNK_LANE_STATUS_CDR_LOCK] }
/-- LNK_LANE_BITS [47:0] BITS (R422). -/
def LNK_LANE_BITS_BITS : Field := { addr := 0xB02018, s1 := 0x40, hi := 47, lo := 0, acc := .ro }
/-- LNK_LANE_BITS (R422). -/
def LNK_LANE_BITS : RegDef := { addr := 0xB02018, n1 := 32, s1 := 0x40, fields := [LNK_LANE_BITS_BITS] }
/-- LNK_ROUTE [3:0] P0 (R423). -/
def LNK_ROUTE_P0 : Field := { addr := 0xB03000, s1 := 0x8, hi := 3, lo := 0, acc := .rw, reset := 15 }
/-- LNK_ROUTE [7:4] P1 (R423). -/
def LNK_ROUTE_P1 : Field := { addr := 0xB03000, s1 := 0x8, hi := 7, lo := 4, acc := .rw, reset := 15 }
/-- LNK_ROUTE [11:8] P2 (R423). -/
def LNK_ROUTE_P2 : Field := { addr := 0xB03000, s1 := 0x8, hi := 11, lo := 8, acc := .rw, reset := 15 }
/-- LNK_ROUTE [15:12] P3 (R423). -/
def LNK_ROUTE_P3 : Field := { addr := 0xB03000, s1 := 0x8, hi := 15, lo := 12, acc := .rw, reset := 15 }
/-- LNK_ROUTE [19:16] P4 (R423). -/
def LNK_ROUTE_P4 : Field := { addr := 0xB03000, s1 := 0x8, hi := 19, lo := 16, acc := .rw, reset := 15 }
/-- LNK_ROUTE [23:20] P5 (R423). -/
def LNK_ROUTE_P5 : Field := { addr := 0xB03000, s1 := 0x8, hi := 23, lo := 20, acc := .rw, reset := 15 }
/-- LNK_ROUTE [27:24] P6 (R423). -/
def LNK_ROUTE_P6 : Field := { addr := 0xB03000, s1 := 0x8, hi := 27, lo := 24, acc := .rw, reset := 15 }
/-- LNK_ROUTE [31:28] P7 (R423). -/
def LNK_ROUTE_P7 : Field := { addr := 0xB03000, s1 := 0x8, hi := 31, lo := 28, acc := .rw, reset := 15 }
/-- LNK_ROUTE [35:32] P8 (R423). -/
def LNK_ROUTE_P8 : Field := { addr := 0xB03000, s1 := 0x8, hi := 35, lo := 32, acc := .rw, reset := 15 }
/-- LNK_ROUTE [39:36] P9 (R423). -/
def LNK_ROUTE_P9 : Field := { addr := 0xB03000, s1 := 0x8, hi := 39, lo := 36, acc := .rw, reset := 15 }
/-- LNK_ROUTE [43:40] P10 (R423). -/
def LNK_ROUTE_P10 : Field := { addr := 0xB03000, s1 := 0x8, hi := 43, lo := 40, acc := .rw, reset := 15 }
/-- LNK_ROUTE [47:44] P11 (R423). -/
def LNK_ROUTE_P11 : Field := { addr := 0xB03000, s1 := 0x8, hi := 47, lo := 44, acc := .rw, reset := 15 }
/-- LNK_ROUTE [51:48] P12 (R423). -/
def LNK_ROUTE_P12 : Field := { addr := 0xB03000, s1 := 0x8, hi := 51, lo := 48, acc := .rw, reset := 15 }
/-- LNK_ROUTE [55:52] P13 (R423). -/
def LNK_ROUTE_P13 : Field := { addr := 0xB03000, s1 := 0x8, hi := 55, lo := 52, acc := .rw, reset := 15 }
/-- LNK_ROUTE [59:56] P14 (R423). -/
def LNK_ROUTE_P14 : Field := { addr := 0xB03000, s1 := 0x8, hi := 59, lo := 56, acc := .rw, reset := 15 }
/-- LNK_ROUTE [63:60] P15 (R423). -/
def LNK_ROUTE_P15 : Field := { addr := 0xB03000, s1 := 0x8, hi := 63, lo := 60, acc := .rw, reset := 15 }
/-- LNK_ROUTE (R423). -/
def LNK_ROUTE : RegDef := { addr := 0xB03000, n1 := 64, s1 := 0x8, fields := [LNK_ROUTE_P0, LNK_ROUTE_P1, LNK_ROUTE_P2, LNK_ROUTE_P3, LNK_ROUTE_P4, LNK_ROUTE_P5,
    LNK_ROUTE_P6, LNK_ROUTE_P7, LNK_ROUTE_P8, LNK_ROUTE_P9, LNK_ROUTE_P10, LNK_ROUTE_P11, LNK_ROUTE_P12, LNK_ROUTE_P13, LNK_ROUTE_P14, LNK_ROUTE_P15] }
/-- LNK_FEED [16:16] EN (R423). -/
def LNK_FEED_EN : Field := { addr := 0xB03400, s1 := 0x8, hi := 16, lo := 16, acc := .rw }
/-- LNK_FEED [9:0] DEVICE (R423). -/
def LNK_FEED_DEVICE : Field := { addr := 0xB03400, s1 := 0x8, hi := 9, lo := 0, acc := .rw }
/-- LNK_FEED (R423). -/
def LNK_FEED : RegDef := { addr := 0xB03400, n1 := 64, s1 := 0x8, fields := [LNK_FEED_EN, LNK_FEED_DEVICE] }
/-- LNK_ETH_CFG [63:16] MAC (R424). -/
def LNK_ETH_CFG_MAC : Field := { addr := 0xB04000, s1 := 0x40, hi := 63, lo := 16, acc := .rw }
/-- LNK_ETH_CFG [4:4] LANE (R424). -/
def LNK_ETH_CFG_LANE : Field := { addr := 0xB04000, s1 := 0x40, hi := 4, lo := 4, acc := .rw }
/-- LNK_ETH_CFG [3:2] FEC (R424). -/
def LNK_ETH_CFG_FEC : Field := { addr := 0xB04000, s1 := 0x40, hi := 3, lo := 2, acc := .rw }
/-- LNK_ETH_CFG [1:1] SPEED (R424). -/
def LNK_ETH_CFG_SPEED : Field := { addr := 0xB04000, s1 := 0x40, hi := 1, lo := 1, acc := .rw }
/-- LNK_ETH_CFG [0:0] EN (R424). -/
def LNK_ETH_CFG_EN : Field := { addr := 0xB04000, s1 := 0x40, hi := 0, lo := 0, acc := .rw }
/-- LNK_ETH_CFG (R424). -/
def LNK_ETH_CFG : RegDef := { addr := 0xB04000, n1 := 2, s1 := 0x40, fields := [LNK_ETH_CFG_MAC, LNK_ETH_CFG_LANE, LNK_ETH_CFG_FEC, LNK_ETH_CFG_SPEED, LNK_ETH_CFG_EN] }
/-- LNK_ETH_STATUS [63:32] FCS_ERRORS (R424). -/
def LNK_ETH_STATUS_FCS_ERRORS : Field := { addr := 0xB04008, s1 := 0x40, hi := 63, lo := 32, acc := .rol }
/-- LNK_ETH_STATUS [0:0] LINK_UP (R424). -/
def LNK_ETH_STATUS_LINK_UP : Field := { addr := 0xB04008, s1 := 0x40, hi := 0, lo := 0, acc := .ro }
/-- LNK_ETH_STATUS (R424). -/
def LNK_ETH_STATUS : RegDef := { addr := 0xB04008, n1 := 2, s1 := 0x40, fields := [LNK_ETH_STATUS_FCS_ERRORS, LNK_ETH_STATUS_LINK_UP] }
/-- TMB_CTL [23:16] SLEW_PPM (R446). -/
def TMB_CTL_SLEW_PPM : Field := { addr := 0xC00000, hi := 23, lo := 16, acc := .rw, reset := 50 }
/-- TMB_CTL [0:0] BEAT_START (R446). -/
def TMB_CTL_BEAT_START : Field := { addr := 0xC00000, hi := 0, lo := 0, acc := .wo }
/-- TMB_CTL (R446). -/
def TMB_CTL : RegDef := { addr := 0xC00000, fields := [TMB_CTL_SLEW_PPM, TMB_CTL_BEAT_START] }
/-- TMB_STATUS [8:8] START_ARMED (R446). -/
def TMB_STATUS_START_ARMED : Field := { addr := 0xC00008, hi := 8, lo := 8, acc := .ro }
/-- TMB_STATUS [7:7] SLEWING (R446). -/
def TMB_STATUS_SLEWING : Field := { addr := 0xC00008, hi := 7, lo := 7, acc := .ro }
/-- TMB_STATUS [6:5] TIME_STATE (R446). -/
def TMB_STATUS_TIME_STATE : Field := { addr := 0xC00008, hi := 6, lo := 5, acc := .ro, reset := 2 }
/-- TMB_STATUS [4:3] SOURCE (R446). -/
def TMB_STATUS_SOURCE : Field := { addr := 0xC00008, hi := 4, lo := 3, acc := .ro }
/-- TMB_STATUS [2:2] SERVO_LOCKED (R446). -/
def TMB_STATUS_SERVO_LOCKED : Field := { addr := 0xC00008, hi := 2, lo := 2, acc := .ro }
/-- TMB_STATUS [1:1] BEAT_RUN (R446). -/
def TMB_STATUS_BEAT_RUN : Field := { addr := 0xC00008, hi := 1, lo := 1, acc := .ro }
/-- TMB_STATUS [0:0] REFUSED (R446). -/
def TMB_STATUS_REFUSED : Field := { addr := 0xC00008, hi := 0, lo := 0, acc := .w1c }
/-- TMB_STATUS (R446). -/
def TMB_STATUS : RegDef := { addr := 0xC00008, fields := [TMB_STATUS_START_ARMED, TMB_STATUS_SLEWING, TMB_STATUS_TIME_STATE, TMB_STATUS_SOURCE,
    TMB_STATUS_SERVO_LOCKED, TMB_STATUS_BEAT_RUN, TMB_STATUS_REFUSED] }
/-- TMB_TIME [63:0] TIME (R447). -/
def TMB_TIME_TIME : Field := { addr := 0xC00010, hi := 63, lo := 0, acc := .ro }
/-- TMB_TIME (R447). -/
def TMB_TIME : RegDef := { addr := 0xC00010, fields := [TMB_TIME_TIME] }
/-- TMB_SET [63:0] SET (R447). -/
def TMB_SET_SET : Field := { addr := 0xC00018, hi := 63, lo := 0, acc := .rw }
/-- TMB_SET (R447). -/
def TMB_SET : RegDef := { addr := 0xC00018, fields := [TMB_SET_SET] }
/-- TMB_START_TIME [63:0] START_TIME (R447). -/
def TMB_START_TIME_START_TIME : Field := { addr := 0xC00020, hi := 63, lo := 0, acc := .rw }
/-- TMB_START_TIME (R447). -/
def TMB_START_TIME : RegDef := { addr := 0xC00020, fields := [TMB_START_TIME_START_TIME] }
/-- TMB_INCR [63:0] INCR (R447). -/
def TMB_INCR_INCR : Field := { addr := 0xC00028, hi := 63, lo := 0, acc := .rw, reset := 0xA0000000 }
/-- TMB_INCR (R447). -/
def TMB_INCR : RegDef := { addr := 0xC00028, fields := [TMB_INCR_INCR] }
/-- TMB_SERVO [63:48] KP (R448). -/
def TMB_SERVO_KP : Field := { addr := 0xC00030, hi := 63, lo := 48, acc := .rw, reset := 0x4000 }
/-- TMB_SERVO [47:32] KI (R448). -/
def TMB_SERVO_KI : Field := { addr := 0xC00030, hi := 47, lo := 32, acc := .rw, reset := 0x0400 }
/-- TMB_SERVO [31:0] LOCK_NS (R448). -/
def TMB_SERVO_LOCK_NS : Field := { addr := 0xC00030, hi := 31, lo := 0, acc := .rw, reset := 0x10000 }
/-- TMB_SERVO (R448). -/
def TMB_SERVO : RegDef := { addr := 0xC00030, fields := [TMB_SERVO_KP, TMB_SERVO_KI, TMB_SERVO_LOCK_NS] }
/-- TMB_FREQ [63:0] FREQ (R447). -/
def TMB_FREQ_FREQ : Field := { addr := 0xC00038, hi := 63, lo := 0, acc := .ro }
/-- TMB_FREQ (R447). -/
def TMB_FREQ : RegDef := { addr := 0xC00038, fields := [TMB_FREQ_FREQ] }
/-- TMB_STEP [63:0] STEP (R447). -/
def TMB_STEP_STEP : Field := { addr := 0xC00040, hi := 63, lo := 0, acc := .wo }
/-- TMB_STEP (R447). -/
def TMB_STEP : RegDef := { addr := 0xC00040, fields := [TMB_STEP_STEP] }
/-- TMB_STEP_REMAIN [63:0] REMAIN (R447). -/
def TMB_STEP_REMAIN_REMAIN : Field := { addr := 0xC00048, hi := 63, lo := 0, acc := .ro }
/-- TMB_STEP_REMAIN (R447). -/
def TMB_STEP_REMAIN : RegDef := { addr := 0xC00048, fields := [TMB_STEP_REMAIN_REMAIN] }
/-- TMB_OFFSET [63:0] OFFSET (R447). -/
def TMB_OFFSET_OFFSET : Field := { addr := 0xC00050, hi := 63, lo := 0, acc := .ro }
/-- TMB_OFFSET (R447). -/
def TMB_OFFSET : RegDef := { addr := 0xC00050, fields := [TMB_OFFSET_OFFSET] }
/-- TMB_EPOCH [31:0] EPOCH_MS (R449). -/
def TMB_EPOCH_EPOCH_MS : Field := { addr := 0xC00058, hi := 31, lo := 0, acc := .rw, reset := 1000 }
/-- TMB_EPOCH (R449). -/
def TMB_EPOCH : RegDef := { addr := 0xC00058, fields := [TMB_EPOCH_EPOCH_MS] }
/-- TMB_PTP_CFG [63:56] CLASS_FREE (R450). -/
def TMB_PTP_CFG_CLASS_FREE : Field := { addr := 0xC00100, hi := 63, lo := 56, acc := .rw, reset := 248 }
/-- TMB_PTP_CFG [55:48] CLASS_LOCKED (R450). -/
def TMB_PTP_CFG_CLASS_LOCKED : Field := { addr := 0xC00100, hi := 55, lo := 48, acc := .rw, reset := 248 }
/-- TMB_PTP_CFG [47:40] PRIORITY2 (R450). -/
def TMB_PTP_CFG_PRIORITY2 : Field := { addr := 0xC00100, hi := 47, lo := 40, acc := .rw, reset := 128 }
/-- TMB_PTP_CFG [39:32] PRIORITY1 (R450). -/
def TMB_PTP_CFG_PRIORITY1 : Field := { addr := 0xC00100, hi := 39, lo := 32, acc := .rw, reset := 128 }
/-- TMB_PTP_CFG [31:28] LOG_SYNC (R450). -/
def TMB_PTP_CFG_LOG_SYNC : Field := { addr := 0xC00100, hi := 31, lo := 28, acc := .rw, reset := 0xD }
/-- TMB_PTP_CFG [27:24] LOG_ANNOUNCE (R450). -/
def TMB_PTP_CFG_LOG_ANNOUNCE : Field := { addr := 0xC00100, hi := 27, lo := 24, acc := .rw, reset := 1 }
/-- TMB_PTP_CFG [23:16] DOMAIN_NUMBER (R450). -/
def TMB_PTP_CFG_DOMAIN_NUMBER : Field := { addr := 0xC00100, hi := 23, lo := 16, acc := .rw }
/-- TMB_PTP_CFG [9:8] PORTS (R450). -/
def TMB_PTP_CFG_PORTS : Field := { addr := 0xC00100, hi := 9, lo := 8, acc := .rw }
/-- TMB_PTP_CFG [6:6] ONE_STEP (R450). -/
def TMB_PTP_CFG_ONE_STEP : Field := { addr := 0xC00100, hi := 6, lo := 6, acc := .rw }
/-- TMB_PTP_CFG [5:5] P2P (R450). -/
def TMB_PTP_CFG_P2P : Field := { addr := 0xC00100, hi := 5, lo := 5, acc := .rw }
/-- TMB_PTP_CFG [4:3] TRANSPORT (R450). -/
def TMB_PTP_CFG_TRANSPORT : Field := { addr := 0xC00100, hi := 4, lo := 3, acc := .rw, reset := 1 }
/-- TMB_PTP_CFG [0:0] EN (R450). -/
def TMB_PTP_CFG_EN : Field := { addr := 0xC00100, hi := 0, lo := 0, acc := .rw }
/-- TMB_PTP_CFG (R450). -/
def TMB_PTP_CFG : RegDef := { addr := 0xC00100, fields := [TMB_PTP_CFG_CLASS_FREE, TMB_PTP_CFG_CLASS_LOCKED, TMB_PTP_CFG_PRIORITY2, TMB_PTP_CFG_PRIORITY1,
    TMB_PTP_CFG_LOG_SYNC, TMB_PTP_CFG_LOG_ANNOUNCE, TMB_PTP_CFG_DOMAIN_NUMBER, TMB_PTP_CFG_PORTS, TMB_PTP_CFG_ONE_STEP, TMB_PTP_CFG_P2P, TMB_PTP_CFG_TRANSPORT,
    TMB_PTP_CFG_EN] }
/-- TMB_PTP_STATUS [7:0] STATES (R451). -/
def TMB_PTP_STATUS_STATES : Field := { addr := 0xC00108, hi := 7, lo := 0, acc := .ro, reset := 0x11 }
/-- TMB_PTP_STATUS (R451). -/
def TMB_PTP_STATUS : RegDef := { addr := 0xC00108, fields := [TMB_PTP_STATUS_STATES] }
/-- TMB_PTP_ASYM [63:0] ASYM (R450). -/
def TMB_PTP_ASYM_ASYM : Field := { addr := 0xC00110, s1 := 0x8, hi := 63, lo := 0, acc := .rw }
/-- TMB_PTP_ASYM (R450). -/
def TMB_PTP_ASYM : RegDef := { addr := 0xC00110, n1 := 2, s1 := 0x8, fields := [TMB_PTP_ASYM_ASYM] }
/-- TMB_CAP_CTL [1:0] EDGE0 (R451). -/
def TMB_CAP_CTL_EDGE0 : Field := { addr := 0xC00200, hi := 1, lo := 0, acc := .rw }
/-- TMB_CAP_CTL [3:2] EDGE1 (R451). -/
def TMB_CAP_CTL_EDGE1 : Field := { addr := 0xC00200, hi := 3, lo := 2, acc := .rw }
/-- TMB_CAP_CTL [5:4] EDGE2 (R451). -/
def TMB_CAP_CTL_EDGE2 : Field := { addr := 0xC00200, hi := 5, lo := 4, acc := .rw }
/-- TMB_CAP_CTL [7:6] EDGE3 (R451). -/
def TMB_CAP_CTL_EDGE3 : Field := { addr := 0xC00200, hi := 7, lo := 6, acc := .rw }
/-- TMB_CAP_CTL [9:8] EDGE4 (R451). -/
def TMB_CAP_CTL_EDGE4 : Field := { addr := 0xC00200, hi := 9, lo := 8, acc := .rw }
/-- TMB_CAP_CTL [11:10] EDGE5 (R451). -/
def TMB_CAP_CTL_EDGE5 : Field := { addr := 0xC00200, hi := 11, lo := 10, acc := .rw }
/-- TMB_CAP_CTL [13:12] EDGE6 (R451). -/
def TMB_CAP_CTL_EDGE6 : Field := { addr := 0xC00200, hi := 13, lo := 12, acc := .rw }
/-- TMB_CAP_CTL [15:14] EDGE7 (R451). -/
def TMB_CAP_CTL_EDGE7 : Field := { addr := 0xC00200, hi := 15, lo := 14, acc := .rw }
/-- TMB_CAP_CTL (R451). -/
def TMB_CAP_CTL : RegDef := { addr := 0xC00200, fields := [TMB_CAP_CTL_EDGE0, TMB_CAP_CTL_EDGE1, TMB_CAP_CTL_EDGE2, TMB_CAP_CTL_EDGE3, TMB_CAP_CTL_EDGE4,
    TMB_CAP_CTL_EDGE5, TMB_CAP_CTL_EDGE6, TMB_CAP_CTL_EDGE7] }
/-- TMB_CAP [63:16] NS (R451). -/
def TMB_CAP_NS : Field := { addr := 0xC00210, s1 := 0x8, hi := 63, lo := 16, acc := .ro }
/-- TMB_CAP [15:0] FRAC (R451). -/
def TMB_CAP_FRAC : Field := { addr := 0xC00210, s1 := 0x8, hi := 15, lo := 0, acc := .ro }
/-- TMB_CAP (R451). -/
def TMB_CAP : RegDef := { addr := 0xC00210, n1 := 8, s1 := 0x8, fields := [TMB_CAP_NS, TMB_CAP_FRAC] }
/-- TMB_STAT_OFFSET_PEAK [63:0] COUNT (R453). -/
def TMB_STAT_OFFSET_PEAK_COUNT : Field := { addr := 0xC00300, hi := 63, lo := 0, acc := .rol }
/-- TMB_STAT_OFFSET_PEAK (R453). -/
def TMB_STAT_OFFSET_PEAK : RegDef := { addr := 0xC00300, fields := [TMB_STAT_OFFSET_PEAK_COUNT] }
/-- TMB_STAT_CAPTURES [63:0] COUNT (R453). -/
def TMB_STAT_CAPTURES_COUNT : Field := { addr := 0xC00308, hi := 63, lo := 0, acc := .rol }
/-- TMB_STAT_CAPTURES (R453). -/
def TMB_STAT_CAPTURES : RegDef := { addr := 0xC00308, fields := [TMB_STAT_CAPTURES_COUNT] }
/-- TMB_STAT_LAUNCHES [63:0] COUNT (R453). -/
def TMB_STAT_LAUNCHES_COUNT : Field := { addr := 0xC00310, hi := 63, lo := 0, acc := .rol }
/-- TMB_STAT_LAUNCHES (R453). -/
def TMB_STAT_LAUNCHES : RegDef := { addr := 0xC00310, fields := [TMB_STAT_LAUNCHES_COUNT] }
/-- TMB_LAUNCH_CTL [57:48] DST (R452). -/
def TMB_LAUNCH_CTL_DST : Field := { addr := 0xC01000, s1 := 0x1000, hi := 57, lo := 48, acc := .rw }
/-- TMB_LAUNCH_CTL [26:16] LENGTH (R452). -/
def TMB_LAUNCH_CTL_LENGTH : Field := { addr := 0xC01000, s1 := 0x1000, hi := 26, lo := 16, acc := .rw, reset := 60 }
/-- TMB_LAUNCH_CTL [7:4] PORT (R452). -/
def TMB_LAUNCH_CTL_PORT : Field := { addr := 0xC01000, s1 := 0x1000, hi := 7, lo := 4, acc := .rw }
/-- TMB_LAUNCH_CTL [0:0] ARM (R452). -/
def TMB_LAUNCH_CTL_ARM : Field := { addr := 0xC01000, s1 := 0x1000, hi := 0, lo := 0, acc := .rw }
/-- TMB_LAUNCH_CTL (R452). -/
def TMB_LAUNCH_CTL : RegDef := { addr := 0xC01000, n1 := 8, s1 := 0x1000, fields := [TMB_LAUNCH_CTL_DST, TMB_LAUNCH_CTL_LENGTH, TMB_LAUNCH_CTL_PORT, TMB_LAUNCH_CTL_ARM] }
/-- TMB_LAUNCH_TIME [63:0] TIME (R452). -/
def TMB_LAUNCH_TIME_TIME : Field := { addr := 0xC01008, s1 := 0x1000, hi := 63, lo := 0, acc := .rw }
/-- TMB_LAUNCH_TIME (R452). -/
def TMB_LAUNCH_TIME : RegDef := { addr := 0xC01008, n1 := 8, s1 := 0x1000, fields := [TMB_LAUNCH_TIME_TIME] }
/-- TMB_LAUNCH_DATA [63:0] DATA (R452). -/
def TMB_LAUNCH_DATA_DATA : Field := { addr := 0xC01100, s1 := 0x1000, s2 := 0x8, hi := 63, lo := 0, acc := .rw }
/-- TMB_LAUNCH_DATA (R452). -/
def TMB_LAUNCH_DATA : RegDef := { addr := 0xC01100, n1 := 8, s1 := 0x1000, n2 := 192, s2 := 0x8, fields := [TMB_LAUNCH_DATA_DATA] }
/-- AXS_STATUS [39:32] LIMIT (R473). -/
def AXS_STATUS_LIMIT : Field := { addr := 0xD00000, hi := 39, lo := 32, acc := .ro }
/-- AXS_STATUS [31:24] HOMED (R473). -/
def AXS_STATUS_HOMED : Field := { addr := 0xD00000, hi := 31, lo := 24, acc := .ro }
/-- AXS_STATUS [23:16] BUSY (R473). -/
def AXS_STATUS_BUSY : Field := { addr := 0xD00000, hi := 23, lo := 16, acc := .ro }
/-- AXS_STATUS [15:8] ENABLED (R473). -/
def AXS_STATUS_ENABLED : Field := { addr := 0xD00000, hi := 15, lo := 8, acc := .ro }
/-- AXS_STATUS [0:0] REFUSED (R473). -/
def AXS_STATUS_REFUSED : Field := { addr := 0xD00000, hi := 0, lo := 0, acc := .w1c }
/-- AXS_STATUS (R473). -/
def AXS_STATUS : RegDef := { addr := 0xD00000, fields := [AXS_STATUS_LIMIT, AXS_STATUS_HOMED, AXS_STATUS_BUSY, AXS_STATUS_ENABLED, AXS_STATUS_REFUSED] }
/-- AXS_PROF0 [63:32] VMAX (R474). -/
def AXS_PROF0_VMAX : Field := { addr := 0xD00100, s1 := 0x10, hi := 63, lo := 32, acc := .rws, reset := 64000 }
/-- AXS_PROF0 [31:0] ACC (R474). -/
def AXS_PROF0_ACC : Field := { addr := 0xD00100, s1 := 0x10, hi := 31, lo := 0, acc := .rws, reset := 640000 }
/-- AXS_PROF0 (R474). -/
def AXS_PROF0 : RegDef := { addr := 0xD00100, n1 := 8, s1 := 0x10, fields := [AXS_PROF0_VMAX, AXS_PROF0_ACC] }
/-- AXS_PROF1 [63:32] DEC (R474). -/
def AXS_PROF1_DEC : Field := { addr := 0xD00108, s1 := 0x10, hi := 63, lo := 32, acc := .rws, reset := 640000 }
/-- AXS_PROF1 [31:0] EDEC (R474). -/
def AXS_PROF1_EDEC : Field := { addr := 0xD00108, s1 := 0x10, hi := 31, lo := 0, acc := .rws, reset := 3200000 }
/-- AXS_PROF1 (R474). -/
def AXS_PROF1 : RegDef := { addr := 0xD00108, n1 := 8, s1 := 0x10, fields := [AXS_PROF1_DEC, AXS_PROF1_EDEC] }
/-- AXS_STAT_STEPS [63:0] COUNT (R477). -/
def AXS_STAT_STEPS_COUNT : Field := { addr := 0xD00200, hi := 63, lo := 0, acc := .rol }
/-- AXS_STAT_STEPS (R477). -/
def AXS_STAT_STEPS : RegDef := { addr := 0xD00200, fields := [AXS_STAT_STEPS_COUNT] }
/-- AXS_STAT_MOVES [63:0] COUNT (R477). -/
def AXS_STAT_MOVES_COUNT : Field := { addr := 0xD00208, hi := 63, lo := 0, acc := .rol }
/-- AXS_STAT_MOVES (R477). -/
def AXS_STAT_MOVES : RegDef := { addr := 0xD00208, fields := [AXS_STAT_MOVES_COUNT] }
/-- AXS_STAT_LIMIT_STOPS [63:0] COUNT (R477). -/
def AXS_STAT_LIMIT_STOPS_COUNT : Field := { addr := 0xD00210, hi := 63, lo := 0, acc := .rol }
/-- AXS_STAT_LIMIT_STOPS (R477). -/
def AXS_STAT_LIMIT_STOPS : RegDef := { addr := 0xD00210, fields := [AXS_STAT_LIMIT_STOPS_COUNT] }
/-- AXS_AXIS_CFG [63:48] HOME_QUAL (R475). -/
def AXS_AXIS_CFG_HOME_QUAL : Field := { addr := 0xD01000, s1 := 0x40, hi := 63, lo := 48, acc := .rw, reset := 20 }
/-- AXS_AXIS_CFG [47:32] LIM_QUAL (R475). -/
def AXS_AXIS_CFG_LIM_QUAL : Field := { addr := 0xD01000, s1 := 0x40, hi := 47, lo := 32, acc := .rw, reset := 4 }
/-- AXS_AXIS_CFG [31:20] DIR_GAP (R475). -/
def AXS_AXIS_CFG_DIR_GAP : Field := { addr := 0xD01000, s1 := 0x40, hi := 31, lo := 20, acc := .rw, reset := 1600 }
/-- AXS_AXIS_CFG [19:11] STEP_W (R475). -/
def AXS_AXIS_CFG_STEP_W : Field := { addr := 0xD01000, s1 := 0x40, hi := 19, lo := 11, acc := .rw, reset := 160 }
/-- AXS_AXIS_CFG [6:6] DIR_INV (R475). -/
def AXS_AXIS_CFG_DIR_INV : Field := { addr := 0xD01000, s1 := 0x40, hi := 6, lo := 6, acc := .rw }
/-- AXS_AXIS_CFG [5:5] HOME_POL (R475). -/
def AXS_AXIS_CFG_HOME_POL : Field := { addr := 0xD01000, s1 := 0x40, hi := 5, lo := 5, acc := .rw }
/-- AXS_AXIS_CFG [4:4] LIM_POL (R475). -/
def AXS_AXIS_CFG_LIM_POL : Field := { addr := 0xD01000, s1 := 0x40, hi := 4, lo := 4, acc := .rw }
/-- AXS_AXIS_CFG [2:2] ALLOW_UNHOMED (R475). -/
def AXS_AXIS_CFG_ALLOW_UNHOMED : Field := { addr := 0xD01000, s1 := 0x40, hi := 2, lo := 2, acc := .rw }
/-- AXS_AXIS_CFG [1:1] VLIM_EN (R475). -/
def AXS_AXIS_CFG_VLIM_EN : Field := { addr := 0xD01000, s1 := 0x40, hi := 1, lo := 1, acc := .rw }
/-- AXS_AXIS_CFG [0:0] EN (R475). -/
def AXS_AXIS_CFG_EN : Field := { addr := 0xD01000, s1 := 0x40, hi := 0, lo := 0, acc := .rw }
/-- AXS_AXIS_CFG (R475). -/
def AXS_AXIS_CFG : RegDef := { addr := 0xD01000, n1 := 8, s1 := 0x40, fields := [AXS_AXIS_CFG_HOME_QUAL, AXS_AXIS_CFG_LIM_QUAL, AXS_AXIS_CFG_DIR_GAP,
    AXS_AXIS_CFG_STEP_W, AXS_AXIS_CFG_DIR_INV, AXS_AXIS_CFG_HOME_POL, AXS_AXIS_CFG_LIM_POL, AXS_AXIS_CFG_ALLOW_UNHOMED, AXS_AXIS_CFG_VLIM_EN, AXS_AXIS_CFG_EN] }
/-- AXS_AXIS_VLIM [63:32] LO (R476). -/
def AXS_AXIS_VLIM_LO : Field := { addr := 0xD01008, s1 := 0x40, hi := 63, lo := 32, acc := .rw, reset := 0x80000000 }
/-- AXS_AXIS_VLIM [31:0] HI (R476). -/
def AXS_AXIS_VLIM_HI : Field := { addr := 0xD01008, s1 := 0x40, hi := 31, lo := 0, acc := .rw, reset := 0x7FFFFFFF }
/-- AXS_AXIS_VLIM (R476). -/
def AXS_AXIS_VLIM : RegDef := { addr := 0xD01008, n1 := 8, s1 := 0x40, fields := [AXS_AXIS_VLIM_LO, AXS_AXIS_VLIM_HI] }
/-- AXS_AXIS_HOME [63:32] HOME_MAX (R476). -/
def AXS_AXIS_HOME_HOME_MAX : Field := { addr := 0xD01010, s1 := 0x40, hi := 63, lo := 32, acc := .rw }
/-- AXS_AXIS_HOME (R476). -/
def AXS_AXIS_HOME : RegDef := { addr := 0xD01010, n1 := 8, s1 := 0x40, fields := [AXS_AXIS_HOME_HOME_MAX] }
/-- AXS_AXIS_POS [63:32] POS (R476). -/
def AXS_AXIS_POS_POS : Field := { addr := 0xD01018, s1 := 0x40, hi := 63, lo := 32, acc := .ro }
/-- AXS_AXIS_POS [31:0] CMD (R476). -/
def AXS_AXIS_POS_CMD : Field := { addr := 0xD01018, s1 := 0x40, hi := 31, lo := 0, acc := .ro }
/-- AXS_AXIS_POS (R476). -/
def AXS_AXIS_POS : RegDef := { addr := 0xD01018, n1 := 8, s1 := 0x40, fields := [AXS_AXIS_POS_POS, AXS_AXIS_POS_CMD] }
/-- AXS_AXIS_STATUS [63:32] LATCH (R476). -/
def AXS_AXIS_STATUS_LATCH : Field := { addr := 0xD01020, s1 := 0x40, hi := 63, lo := 32, acc := .ro }
/-- AXS_AXIS_STATUS [7:7] HOMED (R476). -/
def AXS_AXIS_STATUS_HOMED : Field := { addr := 0xD01020, s1 := 0x40, hi := 7, lo := 7, acc := .ro }
/-- AXS_AXIS_STATUS [6:6] LIM_N (R476). -/
def AXS_AXIS_STATUS_LIM_N : Field := { addr := 0xD01020, s1 := 0x40, hi := 6, lo := 6, acc := .ro }
/-- AXS_AXIS_STATUS [5:5] LIM_P (R476). -/
def AXS_AXIS_STATUS_LIM_P : Field := { addr := 0xD01020, s1 := 0x40, hi := 5, lo := 5, acc := .ro }
/-- AXS_AXIS_STATUS [4:4] HOME_IN (R476). -/
def AXS_AXIS_STATUS_HOME_IN : Field := { addr := 0xD01020, s1 := 0x40, hi := 4, lo := 4, acc := .ro }
/-- AXS_AXIS_STATUS [2:0] STATE (R476). -/
def AXS_AXIS_STATUS_STATE : Field := { addr := 0xD01020, s1 := 0x40, hi := 2, lo := 0, acc := .ro }
/-- AXS_AXIS_STATUS (R476). -/
def AXS_AXIS_STATUS : RegDef := { addr := 0xD01020, n1 := 8, s1 := 0x40, fields := [AXS_AXIS_STATUS_LATCH, AXS_AXIS_STATUS_HOMED, AXS_AXIS_STATUS_LIM_N,
    AXS_AXIS_STATUS_LIM_P, AXS_AXIS_STATUS_HOME_IN, AXS_AXIS_STATUS_STATE] }
/-- LGT_CTL [47:32] PRE_CYC (R493). -/
def LGT_CTL_PRE_CYC : Field := { addr := 0xE00000, hi := 47, lo := 32, acc := .rw, reset := 160 }
/-- LGT_CTL [31:24] PRE_OFS (R493). -/
def LGT_CTL_PRE_OFS : Field := { addr := 0xE00000, hi := 31, lo := 24, acc := .rw, reset := 30 }
/-- LGT_CTL [23:16] GROUP_FAIL_OFF (R493). -/
def LGT_CTL_GROUP_FAIL_OFF : Field := { addr := 0xE00000, hi := 23, lo := 16, acc := .rw }
/-- LGT_CTL [15:12] FAIL_QUAL (R493). -/
def LGT_CTL_FAIL_QUAL : Field := { addr := 0xE00000, hi := 15, lo := 12, acc := .rw, reset := 2 }
/-- LGT_CTL [11:8] FRAME_LOG2 (R493). -/
def LGT_CTL_FRAME_LOG2 : Field := { addr := 0xE00000, hi := 11, lo := 8, acc := .rw, reset := 10 }
/-- LGT_CTL [7:4] DIAG_LOG2 (R493). -/
def LGT_CTL_DIAG_LOG2 : Field := { addr := 0xE00000, hi := 7, lo := 4, acc := .rw, reset := 6 }
/-- LGT_CTL [1:1] STRETCH_EN (R493). -/
def LGT_CTL_STRETCH_EN : Field := { addr := 0xE00000, hi := 1, lo := 1, acc := .rw, reset := 1 }
/-- LGT_CTL [0:0] EN (R493). -/
def LGT_CTL_EN : Field := { addr := 0xE00000, hi := 0, lo := 0, acc := .rw }
/-- LGT_CTL (R493). -/
def LGT_CTL : RegDef := { addr := 0xE00000, fields := [LGT_CTL_PRE_CYC, LGT_CTL_PRE_OFS, LGT_CTL_GROUP_FAIL_OFF, LGT_CTL_FAIL_QUAL, LGT_CTL_FRAME_LOG2,
    LGT_CTL_DIAG_LOG2, LGT_CTL_STRETCH_EN, LGT_CTL_EN] }
/-- LGT_STATUS [47:32] VSET (R494). -/
def LGT_STATUS_VSET : Field := { addr := 0xE00008, hi := 47, lo := 32, acc := .ro }
/-- LGT_STATUS [2:2] NTC_FAULT (R494). -/
def LGT_STATUS_NTC_FAULT : Field := { addr := 0xE00008, hi := 2, lo := 2, acc := .ro }
/-- LGT_STATUS [1:1] BOOST_FAULT (R494). -/
def LGT_STATUS_BOOST_FAULT : Field := { addr := 0xE00008, hi := 1, lo := 1, acc := .w1c }
/-- LGT_STATUS [0:0] REFUSED (R494). -/
def LGT_STATUS_REFUSED : Field := { addr := 0xE00008, hi := 0, lo := 0, acc := .w1c }
/-- LGT_STATUS (R494). -/
def LGT_STATUS : RegDef := { addr := 0xE00008, fields := [LGT_STATUS_VSET, LGT_STATUS_NTC_FAULT, LGT_STATUS_BOOST_FAULT, LGT_STATUS_REFUSED] }
/-- LGT_BOOST [63:48] VMAX (R494). -/
def LGT_BOOST_VMAX : Field := { addr := 0xE00010, hi := 63, lo := 48, acc := .rw, reset := 240 }
/-- LGT_BOOST [47:32] VMIN (R494). -/
def LGT_BOOST_VMIN : Field := { addr := 0xE00010, hi := 47, lo := 32, acc := .rw, reset := 50 }
/-- LGT_BOOST [31:24] HEAD_HI (R494). -/
def LGT_BOOST_HEAD_HI : Field := { addr := 0xE00010, hi := 31, lo := 24, acc := .rw, reset := 20 }
/-- LGT_BOOST [23:16] HEAD_LO (R494). -/
def LGT_BOOST_HEAD_LO : Field := { addr := 0xE00010, hi := 23, lo := 16, acc := .rw, reset := 6 }
/-- LGT_BOOST [15:8] SHORT_V (R494). -/
def LGT_BOOST_SHORT_V : Field := { addr := 0xE00010, hi := 15, lo := 8, acc := .rw, reset := 25 }
/-- LGT_BOOST (R494). -/
def LGT_BOOST : RegDef := { addr := 0xE00010, fields := [LGT_BOOST_VMAX, LGT_BOOST_VMIN, LGT_BOOST_HEAD_HI, LGT_BOOST_HEAD_LO, LGT_BOOST_SHORT_V] }
/-- LGT_TEMP [63:0] TEMPS (R494). -/
def LGT_TEMP_TEMPS : Field := { addr := 0xE00018, hi := 63, lo := 0, acc := .ro }
/-- LGT_TEMP (R494). -/
def LGT_TEMP : RegDef := { addr := 0xE00018, fields := [LGT_TEMP_TEMPS] }
/-- LGT_NTC [63:48] R26 (R495). -/
def LGT_NTC_R26 : Field := { addr := 0xE00100, s1 := 0x8, hi := 63, lo := 48, acc := .rws, reset := 1000 }
/-- LGT_NTC [47:32] BETA (R495). -/
def LGT_NTC_BETA : Field := { addr := 0xE00100, s1 := 0x8, hi := 47, lo := 32, acc := .rws, reset := 3435 }
/-- LGT_NTC [31:24] T_REF (R495). -/
def LGT_NTC_T_REF : Field := { addr := 0xE00100, s1 := 0x8, hi := 31, lo := 24, acc := .rws, reset := 25 }
/-- LGT_NTC [15:0] K (R495). -/
def LGT_NTC_K : Field := { addr := 0xE00100, s1 := 0x8, hi := 15, lo := 0, acc := .rws }
/-- LGT_NTC (R495). -/
def LGT_NTC : RegDef := { addr := 0xE00100, n1 := 4, s1 := 0x8, fields := [LGT_NTC_R26, LGT_NTC_BETA, LGT_NTC_T_REF, LGT_NTC_K] }
/-- LGT_BEACON [63:48] BDUTY (R497). -/
def LGT_BEACON_BDUTY : Field := { addr := 0xE00200, s1 := 0x8, hi := 63, lo := 48, acc := .rw, reset := 0x8000 }
/-- LGT_BEACON [0:0] IS_BEACON (R497). -/
def LGT_BEACON_IS_BEACON : Field := { addr := 0xE00200, s1 := 0x8, hi := 0, lo := 0, acc := .rw }
/-- LGT_BEACON (R497). -/
def LGT_BEACON : RegDef := { addr := 0xE00200, n1 := 4, s1 := 0x8, fields := [LGT_BEACON_BDUTY, LGT_BEACON_IS_BEACON] }
/-- LGT_STAT_DIAGS [63:0] COUNT (R498). -/
def LGT_STAT_DIAGS_COUNT : Field := { addr := 0xE00300, hi := 63, lo := 0, acc := .rol }
/-- LGT_STAT_DIAGS (R498). -/
def LGT_STAT_DIAGS : RegDef := { addr := 0xE00300, fields := [LGT_STAT_DIAGS_COUNT] }
/-- LGT_STAT_STRETCHES [63:0] COUNT (R498). -/
def LGT_STAT_STRETCHES_COUNT : Field := { addr := 0xE00308, hi := 63, lo := 0, acc := .rol }
/-- LGT_STAT_STRETCHES (R498). -/
def LGT_STAT_STRETCHES : RegDef := { addr := 0xE00308, fields := [LGT_STAT_STRETCHES_COUNT] }
/-- LGT_STAT_FAILS [63:0] COUNT (R498). -/
def LGT_STAT_FAILS_COUNT : Field := { addr := 0xE00310, hi := 63, lo := 0, acc := .rol }
/-- LGT_STAT_FAILS (R498). -/
def LGT_STAT_FAILS : RegDef := { addr := 0xE00310, fields := [LGT_STAT_FAILS_COUNT] }
/-- LGT_STAT_UNVER_FRAMES [63:0] COUNT (R498). -/
def LGT_STAT_UNVER_FRAMES_COUNT : Field := { addr := 0xE00318, hi := 63, lo := 0, acc := .rol }
/-- LGT_STAT_UNVER_FRAMES (R498). -/
def LGT_STAT_UNVER_FRAMES : RegDef := { addr := 0xE00318, fields := [LGT_STAT_UNVER_FRAMES_COUNT] }
/-- LGT_CH [63:48] DUTY (R496). -/
def LGT_CH_DUTY : Field := { addr := 0xE01000, s1 := 0x8, hi := 63, lo := 48, acc := .ro }
/-- LGT_CH [47:24] ON (R496). -/
def LGT_CH_ON : Field := { addr := 0xE01000, s1 := 0x8, hi := 47, lo := 24, acc := .ro }
/-- LGT_CH [23:16] I_SET (R496). -/
def LGT_CH_I_SET : Field := { addr := 0xE01000, s1 := 0x8, hi := 23, lo := 16, acc := .rw }
/-- LGT_CH [15:15] COMP_EN (R496). -/
def LGT_CH_COMP_EN : Field := { addr := 0xE01000, s1 := 0x8, hi := 15, lo := 15, acc := .rw }
/-- LGT_CH [14:13] COLOUR (R496). -/
def LGT_CH_COLOUR : Field := { addr := 0xE01000, s1 := 0x8, hi := 14, lo := 13, acc := .rw }
/-- LGT_CH [12:10] GROUP (R496). -/
def LGT_CH_GROUP : Field := { addr := 0xE01000, s1 := 0x8, hi := 12, lo := 10, acc := .rw }
/-- LGT_CH [5:4] STATE (R496). -/
def LGT_CH_STATE : Field := { addr := 0xE01000, s1 := 0x8, hi := 5, lo := 4, acc := .ro }
/-- LGT_CH [3:2] CAUSE (R496). -/
def LGT_CH_CAUSE : Field := { addr := 0xE01000, s1 := 0x8, hi := 3, lo := 2, acc := .ro }
/-- LGT_CH [1:1] CLEAR (R496). -/
def LGT_CH_CLEAR : Field := { addr := 0xE01000, s1 := 0x8, hi := 1, lo := 1, acc := .wo }
/-- LGT_CH (R496). -/
def LGT_CH : RegDef := { addr := 0xE01000, n1 := 96, s1 := 0x8, fields := [LGT_CH_DUTY, LGT_CH_ON, LGT_CH_I_SET, LGT_CH_COMP_EN, LGT_CH_COLOUR, LGT_CH_GROUP,
    LGT_CH_STATE, LGT_CH_CAUSE, LGT_CH_CLEAR] }
/-- THM_CTL [47:32] GRACE_MS (R508). -/
def THM_CTL_GRACE_MS : Field := { addr := 0xF00000, hi := 47, lo := 32, acc := .rw, reset := 2000 }
/-- THM_CTL (R508). -/
def THM_CTL : RegDef := { addr := 0xF00000, fields := [THM_CTL_GRACE_MS] }
/-- THM_STATUS [63:48] DIE_MAX (R509). -/
def THM_STATUS_DIE_MAX : Field := { addr := 0xF00008, hi := 63, lo := 48, acc := .ro }
/-- THM_STATUS [47:32] DIE_MIN (R509). -/
def THM_STATUS_DIE_MIN : Field := { addr := 0xF00008, hi := 47, lo := 32, acc := .ro }
/-- THM_STATUS [4:4] SHUTDOWN (R509). -/
def THM_STATUS_SHUTDOWN : Field := { addr := 0xF00008, hi := 4, lo := 4, acc := .ro }
/-- THM_STATUS [3:3] WINDOW_OK (R509). -/
def THM_STATUS_WINDOW_OK : Field := { addr := 0xF00008, hi := 3, lo := 3, acc := .ro }
/-- THM_STATUS [2:2] DIE_ENFORCE (R509). -/
def THM_STATUS_DIE_ENFORCE : Field := { addr := 0xF00008, hi := 2, lo := 2, acc := .ro }
/-- THM_STATUS [1:1] ANY_ENFORCE (R509). -/
def THM_STATUS_ANY_ENFORCE : Field := { addr := 0xF00008, hi := 1, lo := 1, acc := .ro }
/-- THM_STATUS [0:0] REFUSED (R509). -/
def THM_STATUS_REFUSED : Field := { addr := 0xF00008, hi := 0, lo := 0, acc := .w1c }
/-- THM_STATUS (R509). -/
def THM_STATUS : RegDef := { addr := 0xF00008, fields := [THM_STATUS_DIE_MAX, THM_STATUS_DIE_MIN, THM_STATUS_SHUTDOWN, THM_STATUS_WINDOW_OK, THM_STATUS_DIE_ENFORCE,
    THM_STATUS_ANY_ENFORCE, THM_STATUS_REFUSED] }
/-- THM_SENS_CFG [63:48] R26 (R510). -/
def THM_SENS_CFG_R26 : Field := { addr := 0xF01000, s1 := 0x20, hi := 63, lo := 48, acc := .rw, reset := 1000 }
/-- THM_SENS_CFG [47:32] BETA (R510). -/
def THM_SENS_CFG_BETA : Field := { addr := 0xF01000, s1 := 0x20, hi := 47, lo := 32, acc := .rw, reset := 3435 }
/-- THM_SENS_CFG [31:16] IDEALITY (R510). -/
def THM_SENS_CFG_IDEALITY : Field := { addr := 0xF01000, s1 := 0x20, hi := 31, lo := 16, acc := .rw, reset := 0x4083 }
/-- THM_SENS_CFG [11:8] CH (R510). -/
def THM_SENS_CFG_CH : Field := { addr := 0xF01000, s1 := 0x20, hi := 11, lo := 8, acc := .rw }
/-- THM_SENS_CFG [5:4] ROLE (R510). -/
def THM_SENS_CFG_ROLE : Field := { addr := 0xF01000, s1 := 0x20, hi := 5, lo := 4, acc := .rw, resets := [0, 0, 0, 0, 0, 0, 0, 0, 0, 0, 0, 0, 0, 0, 0, 0, 1, 1, 1, 1,
    1, 1, 1, 1] }
/-- THM_SENS_CFG [3:3] FAULT_THROT (R510). -/
def THM_SENS_CFG_FAULT_THROT : Field := { addr := 0xF01000, s1 := 0x20, hi := 3, lo := 3, acc := .rw, reset := 1 }
/-- THM_SENS_CFG [2:2] SHUT_EN (R510). -/
def THM_SENS_CFG_SHUT_EN : Field := { addr := 0xF01000, s1 := 0x20, hi := 2, lo := 2, acc := .rw, reset := 1 }
/-- THM_SENS_CFG [1:0] TYPE (R510). -/
def THM_SENS_CFG_TYPE : Field := { addr := 0xF01000, s1 := 0x20, hi := 1, lo := 0, acc := .rw, resets := [0, 0, 0, 0, 0, 0, 0, 0, 0, 0, 0, 0, 0, 0, 0, 0, 1, 1, 1, 1,
    1, 1, 1, 1] }
/-- THM_SENS_CFG (R510). -/
def THM_SENS_CFG : RegDef := { addr := 0xF01000, n1 := 24, s1 := 0x20, fields := [THM_SENS_CFG_R26, THM_SENS_CFG_BETA, THM_SENS_CFG_IDEALITY, THM_SENS_CFG_CH,
    THM_SENS_CFG_ROLE, THM_SENS_CFG_FAULT_THROT, THM_SENS_CFG_SHUT_EN, THM_SENS_CFG_TYPE] }
/-- THM_SENS_THRESH [63:48] WARN (R511). -/
def THM_SENS_THRESH_WARN : Field := { addr := 0xF01008, s1 := 0x20, hi := 63, lo := 48, acc := .rw, resets := [1120, 1120, 1120, 1120, 1120, 1120, 1120, 1120, 1120,
    1120, 1120, 1120, 1120, 1120, 1120, 1120, 1600, 1600, 1600, 1600, 1600, 1600, 1600, 1600] }
/-- THM_SENS_THRESH [47:32] THROT (R511). -/
def THM_SENS_THRESH_THROT : Field := { addr := 0xF01008, s1 := 0x20, hi := 47, lo := 32, acc := .rw, resets := [1280, 1280, 1280, 1280, 1280, 1280, 1280, 1280, 1280,
    1280, 1280, 1280, 1280, 1280, 1280, 1280, 1680, 1680, 1680, 1680, 1680, 1680, 1680, 1680] }
/-- THM_SENS_THRESH [31:16] SHUT (R511). -/
def THM_SENS_THRESH_SHUT : Field := { addr := 0xF01008, s1 := 0x20, hi := 31, lo := 16, acc := .rw, resets := [1440, 1440, 1440, 1440, 1440, 1440, 1440, 1440, 1440,
    1440, 1440, 1440, 1440, 1440, 1440, 1440, 1840, 1840, 1840, 1840, 1840, 1840, 1840, 1840] }
/-- THM_SENS_THRESH [15:0] HYST (R511). -/
def THM_SENS_THRESH_HYST : Field := { addr := 0xF01008, s1 := 0x20, hi := 15, lo := 0, acc := .rw, resets := [48, 48, 48, 48, 48, 48, 48, 48, 48, 48, 48, 48, 48, 48,
    48, 48, 80, 80, 80, 80, 80, 80, 80, 80] }
/-- THM_SENS_THRESH (R511). -/
def THM_SENS_THRESH : RegDef := { addr := 0xF01008, n1 := 24, s1 := 0x20, fields := [THM_SENS_THRESH_WARN, THM_SENS_THRESH_THROT, THM_SENS_THRESH_SHUT,
    THM_SENS_THRESH_HYST] }
/-- THM_SENS_STATUS [63:48] TEMP (R512). -/
def THM_SENS_STATUS_TEMP : Field := { addr := 0xF01010, s1 := 0x20, hi := 63, lo := 48, acc := .ro }
/-- THM_SENS_STATUS [47:32] PEAK (R512). -/
def THM_SENS_STATUS_PEAK : Field := { addr := 0xF01010, s1 := 0x20, hi := 47, lo := 32, acc := .rol }
/-- THM_SENS_STATUS [4:4] FAULT (R512). -/
def THM_SENS_STATUS_FAULT : Field := { addr := 0xF01010, s1 := 0x20, hi := 4, lo := 4, acc := .ro }
/-- THM_SENS_STATUS [3:3] FAST (R512). -/
def THM_SENS_STATUS_FAST : Field := { addr := 0xF01010, s1 := 0x20, hi := 3, lo := 3, acc := .ro }
/-- THM_SENS_STATUS [2:0] STATE (R512). -/
def THM_SENS_STATUS_STATE : Field := { addr := 0xF01010, s1 := 0x20, hi := 2, lo := 0, acc := .ro }
/-- THM_SENS_STATUS (R512). -/
def THM_SENS_STATUS : RegDef := { addr := 0xF01010, n1 := 24, s1 := 0x20, fields := [THM_SENS_STATUS_TEMP, THM_SENS_STATUS_PEAK, THM_SENS_STATUS_FAULT,
    THM_SENS_STATUS_FAST, THM_SENS_STATUS_STATE] }

/-- The registers of block MGT. -/
def tableMGT : List RegDef :=
  [MGT_BLOCK_STATE, MGT_OVERRUN_SUMMARY, MGT_STAT_WAKE, MGT_SAFE_CTL, MGT_SAFE_STATUS, MGT_SAFE_KICK, MGT_CAL_STATUS, MGT_CAL_TOL, MGT_CAL_COUNT, MGT_CAL_LAST,
    MGT_IDENT_LO, MGT_IDENT_HI, MGT_FW_STATUS, MGT_LOG_STATUS, MGT_RESET_CAUSE, MGT_GPIO]
/-- The registers of block HST. -/
def tableHST : List RegDef :=
  [HST_CTL, HST_DB_BASE, HST_WB_BASE, HST_STATUS, HST_ERR_IRQ, HST_DB_SKIPS, HST_ABANDONED, HST_BAR2_DROPS, HST_EVT_ROUTE, HST_FOREIGN_ROUTE, HST_RING_BASE,
    HST_RING_CFG, HST_RING_IRQ, HST_RING_STATUS, HST_RING_COUNTS]
/-- The registers of block MSN. -/
def tableMSN : List RegDef :=
  [MSN_CTL, MSN_STATUS, MSN_GAS, MSN_LIMITS, MSN_FAIR, MSN_CHAN_STATE, MSN_CHAN_HOLD, MSN_PLUME, MSN_STAT_ASSIGNED, MSN_STAT_REMNANTS, MSN_STAT_UNREACHABLE,
    MSN_STAT_PLUME_HOLDS, MSN_STAT_PLUME_BEATS, MSN_STAT_PLUME_TIMEOUTS, MSN_STAT_URGENT, MSN_STAT_IDLE_BEATS, MSN_STAT_HOLD_BEATS, MSN_CRS_STATUS, MSN_CRS_COUNT,
    MSN_PSET_STATUS, MSN_STAT_ACCEPTED, MSN_STAT_REJECTED, MSN_STAT_COMPLETED, MSN_STAT_VECTORS]
/-- The registers of block PTH. -/
def tablePTH : List RegDef :=
  [PTH_CTL, PTH_STATUS, PTH_GRID_BASE, PTH_SPEED, PTH_FIELD_X, PTH_FIELD_Y, PTH_DYN, PTH_FOCUS, PTH_TIMING, PTH_CHSTATUS, PTH_REF, PTH_STAT_JOINS, PTH_STAT_CLIPPED,
    PTH_STAT_SPEED_CLAMP, PTH_STAT_ARC_SLOWED, PTH_STAT_FOCUS_CLAMP, PTH_STAT_HOLD_PASSES, PTH_STAT_STOPS, PTH_SEAM_CTL, PTH_SEAM_CFG, PTH_SEAM_LINE, PTH_SEAM_SPAN,
    PTH_SEAM_BLEND, PTH_SEAM_SPREAD, PTH_SEAM_REG, PTH_SEAM_STATUS, PTH_STAT_SEAM_OFFERS, PTH_STAT_SEAM_DECLINED, PTH_STAT_SEAM_WITHDRAWN, PTH_STAT_SEAM_DONE,
    PTH_STAT_SEAM_SLID, PTH_STAT_SEAM_SLIDE_BEATS, PTH_STAT_SEAM_CUT, PTH_STAT_SEAM_MISSED]
/-- The registers of block LSR. -/
def tableLSR : List RegDef :=
  [LSR_STATUS, LSR_STAT_EMIT_BEATS, LSR_STAT_FAULTS, LSR_STAT_HOLDS, LSR_STAT_DAC_CLAMPS, LSR_CHAN_CTL, LSR_CHAN_ARM, LSR_CHAN_SCALE, LSR_CHAN_BEACON,
    LSR_CHAN_STATUS, LSR_CHAN_FAULT]
/-- The registers of block SRV. -/
def tableSRV : List RegDef :=
  [SRV_STATUS, SRV_CLOSED, SRV_FAULTED, SRV_STAT_SWITCHES, SRV_STAT_CLAMP_TICKS, SRV_STAT_WRAPS, SRV_STAT_SWAPS, SRV_STAT_PERR_PEAK, SRV_AXIS_CTL, SRV_AXIS_CUR,
    SRV_AXIS_LOOP, SRV_AXIS_PERR, SRV_AXIS_TRIM, SRV_AXIS_BANK, SRV_AXIS_STATUS, SRV_AXIS_FAULT, SRV_BANK_POS_B01, SRV_BANK_POS_B23, SRV_BANK_POS_A12,
    SRV_BANK_POS_A3, SRV_BANK_VEL_B01, SRV_BANK_VEL_B23, SRV_BANK_VEL_A12, SRV_BANK_VEL_A3, SRV_BANK_POS_PRE, SRV_BANK_VEL_PRE, SRV_BANK_CFG]
/-- The registers of block MPM. -/
def tableMPM : List RegDef :=
  [MPM_STATUS, MPM_STAT_UPDATES, MPM_STAT_HELD_BEATS, MPM_STAT_CLAMP_BEATS, MPM_STAT_BR_TRIPS, MPM_STAT_OVERRANGE, MPM_STAT_RECORDS, MPM_STAT_REF_INVALID,
    MPM_CHAN_CTL, MPM_CHAN_TRIM, MPM_CHAN_LIMIT, MPM_CHAN_STATUS, MPM_COEF_B0, MPM_COEF_B1, MPM_COEF_B2, MPM_COEF_A1, MPM_COEF_A2, MPM_MAP, MPM_MAP72, MPM_REF0,
    MPM_REF1]
/-- The registers of block CAM. -/
def tableCAM : List RegDef :=
  [CAM_STATUS, CAM_STAT_PIXELS, CAM_STAT_E0_BUSY, CAM_STAT_E1_BUSY, CAM_STAT_FRAMES, CAM_STAT_UNARMED, CAM_PORT_CFG, CAM_PORT_GEOM, CAM_PORT_LEVEL, CAM_PORT_STATUS,
    CAM_PORT_COUNTS, CAM_PORT_ERRS]
/-- The registers of block CDC. -/
def tableCDC : List RegDef :=
  [CDC_CTL, CDC_STATUS, CDC_STAT_JOBS, CDC_STAT_IN_BYTES, CDC_STAT_OUT_BYTES, CDC_STAT_ERRORS, CDC_STAT_BUSY]
/-- The registers of block DMA. -/
def tableDMA : List RegDef :=
  [DMA_STATUS, DMA_STAT_ENTRIES, DMA_STAT_BYTES_READ, DMA_STAT_BYTES_WRITTEN, DMA_STAT_BAD, DMA_STAT_ABORTED, DMA_CHAN_CFG, DMA_CHAN_STATUS, DMA_CHAN_PROGRESS]
/-- The registers of block MEM. -/
def tableMEM : List RegDef :=
  [MEM_STATUS, MEM_SRAM_CTL, MEM_DRAM_MAP, MEM_STAT_SRAM_CE, MEM_STAT_SRAM_UE, MEM_STAT_DRAM_CE, MEM_STAT_DRAM_UE, MEM_STAT_ACT_DELAYED, MEM_STAT_STAGE_PEAK,
    MEM_STAT_STAGE_WAIT, MEM_DDR_CFG, MEM_DDR_TIMING, MEM_DDR_ROW, MEM_DDR_STATUS, MEM_DDR_LANE, MEM_DDR_MR]
/-- The registers of block LNK. -/
def tableLNK : List RegDef :=
  [LNK_DEV, LNK_STATUS, LNK_TIME_CTL, LNK_EVT_EXPORT, LNK_FEED_CTL, LNK_STAT_FRAMES_TX, LNK_STAT_FRAMES_RX, LNK_STAT_FORWARDED, LNK_STAT_DISCARDED, LNK_STAT_FED,
    LNK_STAT_FED_LATE, LNK_STAT_EXPORT_LOST, LNK_BL_CFG, LNK_BL_ASYM, LNK_BL_STATUS, LNK_BL_OFFSET, LNK_BL_DELAY, LNK_BL_COUNTS, LNK_LANE_EQ, LNK_LANE_TEST,
    LNK_LANE_STATUS, LNK_LANE_BITS, LNK_ROUTE, LNK_FEED, LNK_ETH_CFG, LNK_ETH_STATUS]
/-- The registers of block TMB. -/
def tableTMB : List RegDef :=
  [TMB_CTL, TMB_STATUS, TMB_TIME, TMB_SET, TMB_START_TIME, TMB_INCR, TMB_SERVO, TMB_FREQ, TMB_STEP, TMB_STEP_REMAIN, TMB_OFFSET, TMB_EPOCH, TMB_PTP_CFG,
    TMB_PTP_STATUS, TMB_PTP_ASYM, TMB_CAP_CTL, TMB_CAP, TMB_STAT_OFFSET_PEAK, TMB_STAT_CAPTURES, TMB_STAT_LAUNCHES, TMB_LAUNCH_CTL, TMB_LAUNCH_TIME, TMB_LAUNCH_DATA]
/-- The registers of block AXS. -/
def tableAXS : List RegDef :=
  [AXS_STATUS, AXS_PROF0, AXS_PROF1, AXS_STAT_STEPS, AXS_STAT_MOVES, AXS_STAT_LIMIT_STOPS, AXS_AXIS_CFG, AXS_AXIS_VLIM, AXS_AXIS_HOME, AXS_AXIS_POS, AXS_AXIS_STATUS]
/-- The registers of block LGT. -/
def tableLGT : List RegDef :=
  [LGT_CTL, LGT_STATUS, LGT_BOOST, LGT_TEMP, LGT_NTC, LGT_BEACON, LGT_STAT_DIAGS, LGT_STAT_STRETCHES, LGT_STAT_FAILS, LGT_STAT_UNVER_FRAMES, LGT_CH]
/-- The registers of block THM. -/
def tableTHM : List RegDef :=
  [THM_CTL, THM_STATUS, THM_SENS_CFG, THM_SENS_THRESH, THM_SENS_STATUS]

end Reg

/-- The registers of block `b` (R16). -/
def regTable (b : Nat) : List RegDef :=
  match b with
  | 0 => Reg.tableMGT
  | 1 => Reg.tableHST
  | 2 => Reg.tableMSN
  | 3 => Reg.tablePTH
  | 4 => Reg.tableLSR
  | 5 => Reg.tableSRV
  | 6 => Reg.tableMPM
  | 7 => Reg.tableCAM
  | 8 => Reg.tableCDC
  | 9 => Reg.tableDMA
  | 10 => Reg.tableMEM
  | 11 => Reg.tableLNK
  | 12 => Reg.tableTMB
  | 13 => Reg.tableAXS
  | 14 => Reg.tableLGT
  | 15 => Reg.tableTHM
  | _ => []

end Sys2Proof.Machine
end

