-- ==== Sys2Proof/Machine/State.lean ====
section
/-!
DEFINITION. The state of the XM16-A as plain data: the register file, the events on their way out, the memories and, block
by block, everything the chapters give the machine. `State.reset` is the state after a full device reset (R539).
Sparse maps (registers by field key, memory bytes by address) are association lists in one canonical form: keys strictly
rising and no entry equal to what an absent key reads as.
-/
namespace Sys2Proof.Machine

/-- Why the machine stops with a fault. -/
inductive Fault where
  /-- Raised by a register access outside the 16 MiB of BAR0 or at an offset that is no multiple of its width (R3, R16):
  the spec gives no such register. Safe: the hardware has no such access to answer. -/
  | noSuchRegister
  /-- Raised by a BAR2 access outside the 64 MiB of the SRAM window (R36). Safe: no such byte exists. -/
  | noSuchMemory
  deriving DecidableEq, Repr

/-- Why a command is refused by the model. -/
inductive Refusal where
  /-- Raised by the dispatch of a command that has no meaning in this model yet. Safe: nothing is claimed of it. -/
  | notModelled (mnemonic : String)
  deriving DecidableEq, Repr

/-! ## Shared pieces -/

/-- A sparse map from natural keys, in canonical form (see `Assoc` in Machine/Ops.lean). -/
abbrev AssocMap (α : Type) := List (Nat × α)

/-- A sparse map of register field values, keyed by 64 times the field's BAR0 offset plus its lowest bit. -/
abbrev FieldMap := AssocMap Nat

/-- The register file of all sixteen blocks (R3 to R7, R20). A field absent from its map holds its reset value. -/
structure RegFile where
  /-- RW fields as last written. -/
  rw : FieldMap := []
  /-- RW fields as the data path sampled them in cycle 0 of the present beat (R20). -/
  rwAct : FieldMap := []
  /-- RWS fields as last written (R6). -/
  shadow : FieldMap := []
  /-- RWS fields as written before cycle 0 of the present beat: what a commit at this edge makes effective (R210). -/
  shadowAt : FieldMap := []
  /-- RWS fields in effect (R7). -/
  effect : FieldMap := []
  /-- SRV's RWS fields captured at a commit, in effect from the next position tick (R271). -/
  srvNext : FieldMap := []
  /-- W1C fields. -/
  w1c : FieldMap := []
  /-- Running values behind ROL fields. -/
  cnt : FieldMap := []
  /-- ROL fields as last latched (R95). -/
  rol : FieldMap := []
  /-- The beat, unwrapped, of the last latch (R95). -/
  rolBeat : Int := -1
  deriving DecidableEq, Repr, Inhabited

/-- A stamp (R9). -/
structure Stamp where
  beat : Nat
  cycle : Nat
  source : Nat
  sub : Nat
  device : Nat
  time : Nat
  deriving DecidableEq, Repr, Inhabited

/-- What kind of completion entry an item becomes (R53). -/
inductive ItemKind where
  | done (ring idx tag : Nat)
  | event (blk : Nat)
  | stat (blk recType : Nat)
  | foreignEvent
  deriving DecidableEq, Repr, Inhabited

/-- A completion, event or record on its way to the completion writer (R53, R59). `unit` orders the events that one source
raises in one cycle (R12). -/
structure Item where
  kind : ItemKind
  code : Nat := 0
  detail : Nat := 0
  payload : List W64 := []
  stamp : Stamp
  unit : Nat := 0
  deriving DecidableEq, Repr, Inhabited

/-- A submission entry that passed HST's checks (R51): the ring, its index there and its eight words. -/
structure Entry where
  ring : Nat
  idx : Nat
  /-- The place in the order in which HST passed entries on. -/
  seq : Nat := 0
  /-- The beat, unwrapped, in which HST passed it on: its acceptance. -/
  beat : Int := 0
  words : List W64
  deriving DecidableEq, Repr, Inhabited

/-- What the device puts out: PCIe requests, messages, frames and replies, and the value a read returns. -/
inductive Out where
  /-- A write of 64-bit words to host memory (R47, R53). -/
  | hostWrite (addr : Nat) (ws : List W64)
  /-- A write of bytes to host memory. -/
  | hostBytes (addr : Nat) (bs : List Byte)
  /-- A read request to host memory. -/
  | hostRead (addr len : Nat)
  /-- An MSI-X message (R61). -/
  | msix (vector : Nat) (addr : W64) (data : W32)
  /-- The value a register read returned to its source. -/
  | regValue (src : Source) (v : W64)
  /-- The bytes a BAR2 read returned, and whether its completion is poisoned (R36). -/
  | bar2 (bs : List Byte) (poisoned : Bool)
  /-- A management reply (R529): source, sequence number, status, access status and data bytes. -/
  | pmp (src seq status : Nat) (data : List Byte)
  /-- An SMBus reply (R535). -/
  | smbus (bs : List Byte)
  /-- A Beat Link frame that a port starts to send (R399). -/
  | blFrame (port : Nat) (f : Frame)
  /-- A LINKCTL block, or the words of a HELLO, that a port starts to send (R395, R399). -/
  | blWord (port : Nat) (ws : List W64)
  /-- A block pair on the two lanes of a port (R394). -/
  | blPair (port : Nat) (lane0 lane1 : LaneBlock)
  /-- An Ethernet frame or PTP message sent (R413, R435, R443). -/
  | eth (e : Nat) (bs : List Byte)
  | ptp (e : Nat) (m : PtpMsg) (ts : Int)
  /-- What an Announce message says of the device: clockClass, PRIORITY1, PRIORITY2 and domainNumber (R442). -/
  | announce (e cls prio1 prio2 dom : Nat)
  deriving DecidableEq, Repr, Inhabited

/-- Events and completions on their way, and the outputs so far. -/
structure Stream where
  /-- The stamp-ordered merge of all local entries not yet written (R59). -/
  merge : List Item := []
  /-- Outputs, newest first: the model's own record of what left the device. -/
  out : List Out := []
  deriving DecidableEq, Repr, Inhabited

/-! ## HST: link, rings, MSI-X (chapter 02) -/

/-- The state of a ring (R68). -/
inductive RingState where
  | disabled | active | error
  deriving DecidableEq, Repr, Inhabited

/-- The entries lost in loss mode (R55). -/
structure Loss where
  count : Nat
  first : Stamp
  last : Stamp
  deriving DecidableEq, Repr, Inhabited

/-- One of the 64 rings (R39 to R50, R55, R61). -/
structure Ring where
  st : RingState := .disabled
  /-- HST's own index (R45). -/
  index : Nat := 0
  /-- The host's index as last read from the doorbell table. -/
  host : Nat := 0
  lastError : Nat := 0
  /-- Entry reads issued and not returned. -/
  fetching : Nat := 0
  /-- Entries passed to their block and not completed. -/
  passed : Nat := 0
  /-- Entries behind a FENCE (R51). -/
  fenced : List Entry := []
  /-- Entries passed to the receiving block and not yet executed: the block's input queue, ring by ring. -/
  inQ : List Entry := []
  /-- Completion rings: the hold queue (R55). -/
  holdQ : List Item := []
  loss : Option Loss := none
  /-- Events written since enable (R53). -/
  evSeq : Nat := 0
  /-- Entries written since the last signal, and the beat of the first of them (R61). -/
  unsignalled : Nat := 0
  firstBeat : Option Nat := none
  deriving DecidableEq, Repr, Inhabited

/-- One MSI-X table entry (R60). -/
structure MsixVec where
  addr : W64 := 0
  data : W32 := 0
  ctrl : W32 := 1
  pending : Bool := false
  deriving DecidableEq, Repr, Inhabited

structure Hst where
  linkUp : Bool := false
  speed : Nat := 0
  width : Nat := 0
  bme : Bool := false
  d3hot : Bool := false
  /-- MSI-X Enable and Function Mask of the function's MSI-X capability (R60). -/
  msixEnable : Bool := false
  msixMask : Bool := false
  /-- PERST_N held low (R556). -/
  perst : Bool := false
  /-- A doorbell read is outstanding, and the beat or service edge, unwrapped, of the last poll (R44). -/
  dbOut : Bool := false
  polled : Int := -1
  /-- An index changed since the last write-back (R47). -/
  wbDirty : Bool := false
  /-- Entries passed on so far: the order in which blocks with one queue take them. -/
  passSeq : Nat := 0
  rings : Vector Ring 64 := Vector.replicate 64 {}
  msix : Vector MsixVec 256 := Vector.replicate 256 {}
  deriving DecidableEq, Repr, Inhabited

/-! ## MSN, course unit: parameter commits, courses and bricks (chapter 03) -/

/-- The states of the course unit (R89). -/
inductive CourseState where
  | idle | open | closing | aborting
  deriving DecidableEq, Repr, Inhabited

/-- Where a brick is between its descriptor and its DONE entry (R87, R102). -/
inductive BrickState where
  /-- Taken; its data or verdict outstanding. -/
  | checking
  | waitDep | waitBeat | ready | queued | running
  deriving DecidableEq, Repr, Inhabited

/-- The exact position from which a remnant resumes (R118). -/
structure Resume where
  /-- The vector in which marking stopped. -/
  v : Nat := 0
  /-- The part of it done, in 1/1,048,576, rounded down. -/
  f : Nat := 0
  /-- The resume point in bed units. -/
  x : Int := 0
  y : Int := 0
  /-- The start point of that vector. -/
  sx : Int := 0
  sy : Int := 0
  /-- The part done, exactly as the piste holds it: path length in 1/65,536 bu for a MARK or ARC, cycles for a DWELL. -/
  done : Nat := 0
  /-- The parameter set in force there. -/
  pset : Nat := 0
  /-- The speed copy of the parent's first JUMP (R144): VEL in mm/s and ACC in m/s^2. -/
  jump : Option (Nat × Nat) := none
  deriving DecidableEq, Repr, Inhabited

/-- A brick taken by the course unit (R83, R87, R102). -/
structure Brick where
  key : Nat
  entry : Entry
  /-- The feeding device, where the brick arrived over Beat Link (R413). -/
  fedBy : Option Nat := none
  course : Nat := 0
  bytes : Nat := 0
  st : BrickState := .checking
  id : Nat := 0
  reach : Nat := 0
  plume : Nat := 0
  pset : Nat := 0
  deps : List Nat := []
  vcount : Nat := 0
  seamEn : Bool := false
  xmin : Int := 0
  ymin : Int := 0
  xmax : Int := 0
  ymax : Int := 0
  vcrc : Nat := 0
  /-- Staging pages, in order (R369). -/
  pages : List Nat := []
  /-- Every parameter set the brick names (R81). -/
  psets : List Nat := []
  /-- The remnant's resume position; none while the brick is whole. -/
  resume : Option Resume := none
  remnants : Nat := 0
  dropped : Nat := 0
  marked : Nat := 0
  vectorsDone : Nat := 0
  started : Bool := false
  /-- Vectors below this index have been handed over (R169). -/
  handedV : Nat := 0
  /-- The beat, unwrapped, in which it entered READY (R108). -/
  readyAt : Int := 0
  urgent : Bool := false
  /-- The beat, unwrapped, since which it has been unplaceable (R119). -/
  unplaceable : Option Int := none
  deriving DecidableEq, Repr, Inhabited

/-- What the course records count for one channel (R94). -/
structure ChanCourse where
  enabled : Bool := false
  vectors : Nat := 0
  /-- Marked path length in 2^-32 bu; its record rounds it to the nearest bu. -/
  length : Nat := 0
  emitBeats : Nat := 0
  bricks : Nat := 0
  remnants : Nat := 0
  deriving DecidableEq, Repr, Inhabited

structure Course where
  st : CourseState := .idle
  number : Nat := 0
  /-- A course has closed since reset (R96). -/
  lastValid : Bool := false
  taken : Nat := 0
  total : Nat := 0
  endEntry : Option Entry := none
  abortEntry : Option Entry := none
  /-- The opening beat, unwrapped. -/
  openBeat : Int := 0
  completed : Nat := 0
  rejected : Nat := 0
  remnants : Nat := 0
  unreachable : Nat := 0
  commits : Nat := 0
  chans : Vector ChanCourse 16 := Vector.replicate 16 {}
  /-- The brick table (R93): by BRICK_ID, 1 for accepted, 0x1_0000 plus CODE for completed. -/
  table : AssocMap Nat := []
  bricks : List Brick := []
  /-- Staging pages in use (R369). -/
  pagesUsed : List Nat := []
  /-- PSET_LOAD entries whose data is outstanding, and commit requests with their commit beats (R79, R211). -/
  loads : List Entry := []
  commitReqs : List (Nat × Entry) := []
  lastCommit : Nat := 0
  /-- SRV captured its RWS fields at a commit and has not taken them into effect yet (R271). -/
  srvPending : Bool := false
  deriving DecidableEq, Repr, Inhabited

/-! ## PTH: pistes (chapter 05)

Path time is counted in FCLK cycles from the domain epoch, in units of 2^-32 cycle; lengths are in 2^-32 bu; speeds in
2^-64 bu per cycle. -/

/-- The curve a piece of path lies on. -/
inductive Curve where
  | line (x0 y0 x1 y1 : Int)
  /-- Centre, radius vector at the start, and signed sweep in 2^-60 rad. -/
  | arc (cx cy rx ry : Int) (sweep : Int)
  deriving DecidableEq, Repr, Inhabited

/-- A piece of path: part of a curve run with constant acceleration from speed `v0` to `v1`. -/
structure Piece where
  curve : Curve
  /-- Length of the whole curve, and where on it the piece starts. -/
  total : Nat := 0
  s0 : Nat := 0
  len : Nat := 0
  v0 : Nat := 0
  v1 : Nat := 0
  t0 : Int := 0
  dur : Nat := 0
  /-- The dip acceleration that R145 gives the piece, in 1e-10 bu per cycle squared (m/s^2). -/
  acc : Nat := 1000
  /-- 1 VECTOR, 2 JOIN, 3 HOLD, 4 STOP; 0 PARK (R131). -/
  kind : Nat := 0
  deriving DecidableEq, Repr, Inhabited

/-- A focus move along the path (R141): from `z0` to `z1` (1/16 µm) by a trapezoid. -/
structure FocusMove where
  t0 : Int
  z0 : Int
  z1 : Int
  vel : Nat
  acc : Nat
  deriving DecidableEq, Repr, Inhabited

/-- A motion vector as planned (R137, R139): where it lies in path time, and its emission window in whole cycles. -/
structure Planned where
  key : Nat := 0
  v : Nat := 0
  op : Nat := 0
  sx : Int := 0
  sy : Int := 0
  ex : Int := 0
  ey : Int := 0
  t0 : Int := 0
  t1 : Int := 0
  /-- Length of the part planned (1/65,536 bu) or duration (cycles), and of what a remnant had done before it. -/
  len : Nat := 0
  before : Nat := 0
  /-- Emission window, path time in whole cycles; empty when `on = off`. -/
  on : Int := 0
  off : Int := 0
  pset : Nat := 0
  pmod : Int := 0
  dwell : Bool := false
  mpmHold : Bool := false
  noSeam : Bool := false
  /-- It emits nothing whatever its skews: a JUMP, a DARK vector, a FOCUS vector (`op` 6), a MARK of no length (R137, R140). -/
  dark : Bool := false
  /-- ARC slowed (R138): the set-point is multiplied by `num / den`. -/
  num : Nat := 1
  den : Nat := 1
  /-- The parameter entry's words 0 and 1, read in the vector's first beat (R78); its window then follows their skews. -/
  entry : Option (W64 × W64) := none
  /-- The vector was counted as completed (R88). -/
  counted : Bool := false
  deriving DecidableEq, Repr, Inhabited

/-- A vector in the buffer: its index in its brick and its two words (R72, R157). -/
structure Vec where
  v : Nat
  w0 : W64
  w1 : W64
  deriving DecidableEq, Repr, Inhabited

/-- One brick, or remnant, on a piste. -/
structure Feed where
  key : Nat
  plume : Nat := 0
  bid : Nat := 0
  vcount : Nat := 0
  /-- Vectors in the buffer and not planned, and the index of the next one to read from staging. -/
  buf : List Vec := []
  next : Nat := 0
  /-- A refill is outstanding (R157). -/
  refill : Bool := false
  pset : Nat := 0
  /-- The speed copy of the brick's first JUMP: VEL in mm/s and ACC in m/s^2 (R144). -/
  jump : Option (Nat × Nat) := none
  resume : Option Resume := none
  /-- The path time at which a seam's approach must arrive (R173). -/
  arrive : Option Int := none
  /-- Vectors below this index have had their seam offer raised, declined or missed (R171). -/
  seamTried : Nat := 0
  deriving DecidableEq, Repr, Inhabited

/-- The state from which the next join is planned: point, heading (2^-60 unit vector), speed and the exit vector's ACC. -/
structure Exit where
  t : Int := 0
  x : Int := 0
  y : Int := 0
  hx : Int := 1152921504606846976
  hy : Int := 0
  v : Nat := 0
  acc : Nat := 1000
  /-- The vector before ended with this focus position (1/16 µm). -/
  z : Int := 0
  /-- The join into the next vector is already planned: the exit state is that vector's entry state. -/
  joined : Bool := false
  /-- The speed copy (VEL, ACC) that the join read for that vector (R135); the motion before was an emitting vector (R142). -/
  speed : Option (Nat × Nat) := none
  lit : Bool := false
  deriving DecidableEq, Repr, Inhabited

/-- The piste states of R151. -/
inductive PisteState where
  | off | parked | running | holding | stopping
  deriving DecidableEq, Repr, Inhabited

structure Piste where
  st : PisteState := .off
  /-- The grid slot in use (R161); 31 none. A swap waiting to take effect: slot and entry (R155). -/
  slot : Nat := 31
  swap : Option (Nat × Entry) := none
  /-- A sample has been issued since reset (R152), and the bed point and focus of the last head reference, with its path time. -/
  issued : Bool := false
  refX : Int := 0
  refY : Int := 0
  refZ : Int := 0
  refT : Int := 0
  /-- Head coordinates of the last head reference and of the one before it (R154, R265), and the beat, unwrapped, in which
  the last was issued. -/
  head : Int × Int × Int := (0, 0, 0)
  headOld : Int × Int × Int := (0, 0, 0)
  headBeat : Int := 0
  pieces : List Piece := []
  focus : List FocusMove := []
  planned : List Planned := []
  exit : Exit := {}
  /-- The plan holds a run-out to rest after the last vector (R142). -/
  ranOut : Bool := false
  /-- The exit state that the run-out set out from: a brick queued while the brick still runs is joined from there (R142, R151). -/
  ranFrom : Exit := {}
  run : Option Feed := none
  queued : Option Feed := none
  /-- The beat, unwrapped, whose sample is the next brick's first (R26). -/
  startBeat : Int := 0
  /-- The path time of the last sample's emission point (t_b of R131), in whole cycles. -/
  lastT : Int := 0
  endNear : Bool := false
  /-- The hold point in path time, its loop, and whether the present sample is a pass (R147). -/
  holdT : Int := 0
  holdDur : Nat := 0
  /-- The path time at which a stop segment comes to rest (R148), and whether a fault or a disable ended it. -/
  stopEnd : Int := 0
  /-- The seam, by its brick and vector, for which this donor raised SEAM_TRACK (R182). -/
  trackSaid : Option (Nat × Nat) := none
  deriving DecidableEq, Repr, Inhabited

/-- An offer of a vector to a neighbour laser, or the seam it became (R171 to R180). Times are path times in 2^-32 cycle. -/
structure Seam where
  zone : Nat
  donor : Nat
  receiver : Nat
  key : Nat
  bid : Nat
  /-- The vector, its start, and where the receiver enters it: length from its start in 1/65,536 bu. -/
  v : Nat
  sx : Int
  sy : Int
  enter : Nat
  tIn : Int
  tOut : Int
  blend0 : Int
  blendDur : Nat
  reserve : Nat
  /-- The blend's elapsed time, and by how much it slid, in 2^-32 cycle; the beats of slide. -/
  elapsed : Nat := 0
  slid : Nat := 0
  slidBeats : Nat := 0
  /-- The receiver has emitted in at least one beat of the blend. -/
  started : Bool := false
  /-- The donor's exit, once fixed (R174). -/
  exit : Option Int := none
  /-- What the guard holds of the coming beat. -/
  recvHeld : Bool := false
  donorHeld : Bool := false
  /-- The receiver dropped after the blend started. -/
  recvDropped : Bool := false
  /-- The beat, unwrapped, the seam last stepped in, and the receiver's share of that beat in 2^-32. -/
  beat : Int := -1
  mean : Nat := 0
  /-- In the present beat the receiver, and the donor, emit. -/
  recvOn : Bool := false
  donorOn : Bool := true
  deriving DecidableEq, Repr, Inhabited

/-- What a mortar zone holds beside its registers (R167, R181). -/
structure Zone where
  /-- Suspended for the present course by the test of R167. -/
  suspended : Bool := false
  regValid : Bool := false
  residual : Nat := 0
  deriving DecidableEq, Repr, Inhabited

/-- A GRID_LOAD whose read of host memory is outstanding: its entry and slot (R155). -/
structure GridLoad where
  entry : Entry
  slot : Nat
  deriving DecidableEq, Repr, Inhabited

structure Pth where
  zones : Vector Zone 32 := Vector.replicate 32 {}
  /-- Offers waiting for the selection of their beat, and seams accepted. -/
  offers : List Seam := []
  seams : List Seam := []
  load : Option GridLoad := none
  p : Vector Piste 16 := Vector.replicate 16 {}
  deriving DecidableEq, Repr, Inhabited

/-! ## MSN: the Mason (chapter 04) -/

/-- The laser states of R117. -/
inductive LaserState where
  | off | idle | running | plumeHeld | stopping | chanHold
  deriving DecidableEq, Repr, Inhabited

/-- A slice of a laser's trail (R112): a gas-frame box, the brick and class marked, and its first and last emitting beats. -/
structure Slice where
  u0 : Int
  u1 : Int
  v0 : Int
  v1 : Int
  cls : Nat
  bid : Nat
  opened : Int
  last : Int
  deriving DecidableEq, Repr, Inhabited

/-- What the guard found when it held the sample of a RUNNING laser's coming beat (R114, R130): the zone's laser and class, the brick and the
point. -/
structure PlumePend where
  zone : Nat
  cls : Nat
  bid : Nat
  x : Int
  y : Int
  deriving DecidableEq, Repr, Inhabited

structure Laser where
  st : LaserState := .off
  /-- The running and queued bricks, and an assignment not yet in force. -/
  running : Option Nat := none
  queued : Option Nat := none
  assigned : Option Nat := none
  /-- The beat, unwrapped, of the last assignment; of the entry to PLUME_HELD. -/
  lastAssign : Int := 0
  heldSince : Int := 0
  /-- The trail, newest first; `sliceOpen` when the first is open (R112). -/
  trail : List Slice := []
  sliceOpen : Bool := false
  /-- The state after STOPPING (R117). -/
  after : LaserState := .idle
  /-- The guard holds the sample of a PLUME_HELD laser's coming beat (R114); it holds that of a RUNNING one, which goes to PLUME_HELD at the
  next beat edge (R117). -/
  guardHold : Bool := false
  pendHold : Option PlumePend := none
  /-- The running brick went on to another laser in a seam: it does not complete here (R174). -/
  handed : Bool := false
  deriving DecidableEq, Repr, Inhabited

structure Msn where
  lasers : Vector Laser 16 := Vector.replicate 16 {}
  /-- The ready list, in order (R107). -/
  ready : List Nat := []
  /-- Remnants whose entry to READY is due: brick key and the beat, unwrapped (R118). -/
  due : List (Nat × Int) := []
  /-- The causes of a device hold now in force (R109): bit 0 host, bit 1 die temperature, bit 2 link. -/
  holdCauses : Nat := 0
  /-- The die-temperature throttle is enforcing (R109). -/
  dieHold : Bool := false
  /-- Remnants made by a plume time-out, urgent when they enter READY (R108). -/
  timedOut : List Nat := []
  /-- What counts in the selection of the present beat (R103, R106): the READY bricks, the free lasers and whether a device hold is in
  force, as they stood at the end of cycle 63; and the beat, unwrapped, of the last selection. -/
  cutReady : List Nat := []
  cutFree : Nat := 0
  cutHold : Bool := false
  selBeat : Int := -1
  deriving DecidableEq, Repr, Inhabited

/-! ## LSR: laser channels; the safety monitor (chapter 07) -/

/-- One beat sample as the laser channel and the melt-pool loop take it (R131): set-point, emission window, emission point and
what the loop needs of the vector. -/
structure Sample where
  /-- The DAC beat, unwrapped (R190). -/
  beat : Int := -1
  /-- Set-point before correction and the vector's nominal set-point, 0 to 65,535 (R74, R232). -/
  s : Nat := 0
  nom : Nat := 0
  on : Nat := 0
  off : Nat := 0
  /-- Emission point in bed units, and the focus. -/
  x : Int := 0
  y : Int := 0
  z : Int := 0
  /-- Parameter set, plume class, MPM_EN, MPM_REF and MPM_HOLD in force (R75, R77, R131). -/
  pset : Nat := 0
  plume : Nat := 0
  mpm : Bool := false
  mpmRef : Nat := 0
  hold : Bool := false
  /-- The part of the path: 0 PARK, 1 VECTOR, 2 JOIN, 3 HOLD, 4 STOP. -/
  kind : Nat := 0
  /-- The brick that runs, the emitting vector's brick key and its index plus 1. -/
  brick : Nat := 0
  key : Nat := 0
  vec : Nat := 0
  /-- The vector whose DAC beat it is, emitting or not: its brick's key, its index plus 1, and the remnants made of the brick before it runs. -/
  pv : Option (Nat × Nat × Nat) := none
  /-- A blend beat (R175): 1 on the donor, 2 on the receiver. -/
  blend : Nat := 0
  deriving DecidableEq, Repr, Inhabited

/-- The channel states of R193. -/
inductive ChanState where
  | off | arming | enabled | hold | fault
  deriving DecidableEq, Repr, Inhabited

structure Chan where
  st : ChanState := .off
  /-- The beat, unwrapped, in which the arming timer started (R193). -/
  since : Int := 0
  /-- Hold causes: bit 0 thermal, bit 1 beacon (R205, R206, R219). -/
  hold : Nat := 0
  /-- The first cause of the present FAULT (R219). -/
  first : Nat := 15
  /-- The causes reported to the Mason from the beat HOLD is entered until the channel is back in ENABLED (R127, R195). -/
  report : Nat := 0
  /-- The qualified levels of the inputs ALARM and READY, and the FCLK cycle in which each was qualified last (R192). -/
  alarm : Bool := false
  ready : Bool := false
  alarmAt : Int := 0
  readyAt : Int := 0
  /-- Read-back levels of EMIT_EN and GATE where they were last seen to differ from the driven level (R197). -/
  emitPad : Option Bool := none
  gatePad : Option Bool := none
  /-- The state decided in this beat, taken at the next beat edge (R196). -/
  next : Option ChanState := none
  /-- Fault causes 6 to 8 that another block decided in this beat: they reach LSR at the next beat edge (R197). -/
  pend : Nat := 0
  /-- The channel left ENABLED and the Mason has not acted on the drop yet (R196). -/
  drop : Bool := false
  /-- The FCLK cycle, in path time, in which EMIT_EN and GATE went inactive at the pad for that drop (R118, R196). -/
  offAt : Int := 0
  /-- The beat in which the channel's last drop was decided (R118). -/
  dropBeat : Int := 0
  /-- The beat, unwrapped, of the first UNVERIFIED report of the present run of them, received in ENABLED (R205). -/
  unverSince : Option Int := none
  /-- Samples issued by the piste and not yet at the DAC, oldest first (R190). -/
  pipe : List Sample := []
  /-- The sample of the present DAC beat and of the one before (R190, R191). -/
  now : Sample := {}
  prev : Sample := {}
  /-- The DAC code (R189), and for how many consecutive beats it has been at least 4,096 (R197). -/
  code : Nat := 0
  highRun : Nat := 0
  deriving DecidableEq, Repr, Inhabited

structure Lsr where
  ch : Vector Chan 16 := Vector.replicate 16 {}
  /-- The last report of each beacon that LSR acted on: 0 OFF, 1 OK, 2 FAILED, 3 UNVERIFIED (R204, R219). -/
  beacon : Vector Nat 4 := Vector.replicate 4 0
  /-- A report that has arrived in this beat: LSR acts on it at the next beat edge (R204). -/
  reported : Vector (Option Nat) 4 := Vector.replicate 4 none
  deriving DecidableEq, Repr, Inhabited

/-- The safety monitor (R200 to R203). -/
structure Safety where
  /-- SAFE_IN at the last sample, and the FCLK cycle of the last low one (R200). -/
  raw : Bool := false
  lowAt : Int := 0
  /-- SAFE_IN is qualified closed. -/
  closed : Bool := false
  readyOut : Bool := false
  /-- READY_OUT toggled at the last boundary. -/
  hbRun : Bool := false
  /-- The conditions of R202 that failed at some beat edge since the last boundary, as a bit set. -/
  lapsed : Nat := 63
  /-- The standby-clock time (2^-32 ns) of the last key write, and whether the watchdog has expired (R203). -/
  kickAt : Int := 0
  expired : Bool := false
  deriving DecidableEq, Repr, Inhabited


/-! ## MPM: the melt-pool loops (chapter 08) -/

/-- A vector's copy of its reference entry and of the coefficient bank that names (R232, R234, R235). -/
structure LoopRef where
  valid : Bool := false
  level : Nat := 0
  pscale : Bool := false
  restart : Bool := false
  deadband : Nat := 0
  slew : Nat := 0
  lo : Int := 0
  hi : Int := 0
  b0 : Int := 0
  b1 : Int := 0
  b2 : Int := 0
  a1 : Int := 0
  a2 : Int := 0
  deriving DecidableEq, Repr, Inhabited

/-- The measurement of one beat (R231): of which vector, its value and reference, and the BR samples of the beat. -/
structure Meas where
  beat : Int := -1
  pv : Option (Nat × Nat × Nat) := none
  m : Nat := 0
  r : Nat := 1
  valid : Bool := false
  /-- An MP sample of the beat was over-range. -/
  ranged : Bool := false
  /-- Stages 4 to 6 did not complete: no update (R242). -/
  late : Bool := false
  br : List Nat := []
  deriving DecidableEq, Repr, Inhabited

/-- The record being gathered (R244, R245). -/
structure Trace where
  brick : Nat
  key : Nat
  firstVec : Nat
  lastVec : Nat
  /-- The last DAC beat covered, unwrapped, and the vector it belongs to. -/
  lastBeat : Int := 0
  lastPv : Option (Nat × Nat × Nat) := none
  valid : Nat := 0
  sumM : Nat := 0
  minM : Nat := 65535
  maxM : Nat := 0
  sumR : Nat := 0
  sumC : Int := 0
  minC : Int := 32767
  maxC : Int := -32768
  clamped : Nat := 0
  maxBr : Nat := 0
  sumBr : Nat := 0
  nBr : Nat := 0
  beats : Nat := 0
  deriving DecidableEq, Repr, Inhabited

/-- What a past DAC beat applied, until its measurement is in. -/
structure Applied where
  sample : Sample := {}
  c : Int := 0
  clamp : Bool := false
  deriving DecidableEq, Repr, Inhabited

structure MpmChan where
  e1 : Int := 0
  e2 : Int := 0
  y1 : Int := 0
  y2 : Int := 0
  /-- The vector the copy belongs to, and the copy; the vector has not emitted yet (R237). -/
  refOf : Option (Nat × Nat × Nat) := none
  ref : LoopRef := {}
  fresh : Bool := false
  /-- The receiver's blend has just ended: the state is zeroed in the next DAC beat (R237). -/
  zeroNext : Bool := false
  /-- Measurements of the last beats, newest first. -/
  meas : List Meas := []
  /-- The last two DAC beats, newest first. -/
  applied : List Applied := []
  brRun : Nat := 0
  lowRun : Nat := 0
  satRun : Nat := 0
  /-- The clamp the run stands at is CLAMP_HI. -/
  satHi : Bool := false
  /-- MP_LOW, MPM_SAT and ADC_OVERRANGE were raised for the present vector. -/
  lowSaid : Bool := false
  satSaid : Bool := false
  rangeSaid : Bool := false
  lastM : Nat := 0
  lastC : Int := 0
  lastBr : Nat := 0
  row : Nat := 0
  atClamp : Bool := false
  trace : Option Trace := none
  /-- A calibration has the channel's ADCs out of service (R243). -/
  out : Bool := false
  deriving DecidableEq, Repr, Inhabited

structure Mpm where
  ch : Vector MpmChan 16 := Vector.replicate 16 {}
  deriving DecidableEq, Repr, Inhabited

/-! ## SRV: the servo engine (chapter 09) -/

/-- The bridge states of R263. -/
inductive Bridge where
  | off | fwd | rev | coast
  deriving DecidableEq, Repr, Inhabited

/-- The axis states of R275. -/
inductive AxisState where
  | off | acquire | closed | fault
  deriving DecidableEq, Repr, Inhabited

/-- One loop's working copy of its coefficients (signed 8.24) and its state (R267, R270). -/
structure Loop where
  b0 : Int := 0
  b1 : Int := 0
  b2 : Int := 0
  b3 : Int := 0
  a1 : Int := 0
  a2 : Int := 0
  a3 : Int := 0
  e1 : Int := 0
  e2 : Int := 0
  e3 : Int := 0
  acc1 : Int := 0
  acc2 : Int := 0
  acc3 : Int := 0
  deriving DecidableEq, Repr, Inhabited

structure Axis where
  st : AxisState := .off
  /-- EN is written and the axis waits for the next position tick (R275). -/
  waiting : Bool := false
  /-- A fault was decided in this beat: the state changes and the bridge goes OFF at the next beat edge (R275, R278). -/
  faulting : Bool := false
  /-- The bank the working copy came from, and the fields it was loaded from (R270, R272). -/
  bank : Nat := 0
  loaded : List Int := []
  /-- A swap to a bank that was not VALID is still to be made (R273). -/
  swapDue : Bool := false
  pl : Loop := {}
  vl : Loop := {}
  /-- Trimmed position now and at the velocity tick before (R259, R266), and the beat, unwrapped, of the last sample. -/
  pos : Int := 0
  posOld : Int := 0
  sampledAt : Int := -1
  /-- The beats, unwrapped, of the last position tick, velocity tick and current decision that the axis had (R262, R265). -/
  posAt : Int := -1
  velAt : Int := -1
  decAt : Int := -1
  /-- The reference at this tick, and at the last position tick (R265, R269). -/
  r : Int := 0
  rPrev : Int := 0
  perr : Int := 0
  /-- The position loop's last output, and the velocity and current references (R267, R269). -/
  posOut : Int := 0
  vref : Int := 0
  iref : Int := 0
  /-- The current reference before the last one, and the beat of the velocity tick that made the last, whose thresholds act a beat later (R265). -/
  irefOld : Int := 0
  irefAt : Int := -1
  /-- The local reference of ACQUIRE, and position ticks passed in it (R275). -/
  localRef : Int := 0
  acqTicks : Nat := 0
  /-- The bridge, its state before the last change, and the one decided for the next beat (R262, R263). -/
  bridge : Bridge := .off
  bridgeOld : Bridge := .off
  bridgeNext : Option Bridge := none
  /-- Whole beats since the bridge last changed, at most 15 (R262). -/
  dwell : Nat := 0
  /-- Consecutive counts behind FOLLOW_ERROR, CUR_STUCK, CUR_SENSE and POS_RANGE (R277). -/
  perrRun : Nat := 0
  stuckRun : Nat := 0
  senseRun : Nat := 0
  rangeRun : Nat := 0
  /-- Gates read back at a level other than the one driven for more than 8 cycles, and the levels driven then (R277). -/
  gateBad : Nat := 0
  gateWas : Nat := 0
  wraps : Nat := 0
  /-- The first cause of the present FAULT; 15 none (R287). -/
  first : Nat := 15
  deriving DecidableEq, Repr, Inhabited

structure Srv where
  ax : Vector Axis 48 := Vector.replicate 48 {}
  deriving DecidableEq, Repr, Inhabited

/-! ## CAM: camera ports and engines (chapter 10) -/

/-- The port states of R296. -/
inductive CamState where
  | off | idle | armed | frame
  deriving DecidableEq, Repr, Inhabited

/-- A row of a frame as the engine made it: aligned raw and corrected pixels, and how many of them came from the sensor. -/
structure CamRow where
  row : Nat
  raw : List Nat
  val : List Nat
  real : Nat
  deriving DecidableEq, Repr, Inhabited

/-- A line in a port's buffer (R297): the frame and row it belongs to, its aligned pixels made up to WIDTH, and how many came in. -/
structure CamLine where
  seq : Nat
  cap : Nat := 0
  row : Nat
  px : List Nat
  real : Nat
  deriving DecidableEq, Repr, Inhabited

/-- A frame, open or closed and not yet written out whole (R295, R307 to R309). -/
structure CamFrame where
  seq : Nat
  /-- The capture it belongs to, counted on its port. -/
  cap : Nat := 0
  arm : Entry
  flags : Nat := 0
  frameNo : Nat := 0
  sof : Stamp
  close : Stamp := default
  /-- The beat, unwrapped, of Frame Start. -/
  since : Int := 0
  /-- What the port's registers and tables say at Frame Start, for the whole frame (R302, R315). -/
  width : Nat := 0
  height : Nat := 0
  bits : Nat := 8
  vc : Nat := 0
  dt : Nat := 0
  engine : Nat := 0
  black : Nat := 0
  pad : Nat := 0
  thresh : Nat := 0
  defects : List (Nat × Nat) := []
  shading : List Nat := []
  lut : List Nat := []
  coax : Bool := false
  bid : Nat := 0
  ex : Int := 0
  ey : Int := 0
  received : Nat := 0
  /-- Rows made so far; every other row is a pad line. -/
  rows : List CamRow := []
  /-- Entries that complete after this frame's record, with their codes and word 4 (R316). -/
  done : List (Entry × Nat × W64) := []
  deriving DecidableEq, Repr, Inhabited

structure CamPort where
  st : CamState := .off
  /-- The CAP_ARM in force, the SEQ of its next frame, frames closed, and frames closed with any flag. -/
  arm : Option Entry := none
  seq : Nat := 0
  closed : Nat := 0
  flagged : Nat := 0
  /-- CAP_ARMs taken so far: lines and frames of one capture are told from those of the next by it (R296). -/
  capture : Nat := 0
  frame : Option CamFrame := none
  closing : List CamFrame := []
  buf : List CamLine := []
  /-- Packets up to the next Frame End belong to a frame whose Frame Start was taken and which is discarded whole; SYNC_ERR was raised since the last Frame Start. -/
  discard : Bool := false
  syncSaid : Bool := false
  /-- Defects (y, x), shading gains and display LUT (R303, R304, R315). -/
  defects : List (Nat × Nat) := []
  shading : List Nat := List.replicate 1089 0x4000
  lut : List Nat := (List.range 1024).map (fun k => k * 255 / 1023)
  deriving DecidableEq, Repr, Inhabited

/-- A pipeline engine (R298, R301): whose turn it is in each class and how many lines that turn has served, and a line whose output
writes are held, with its port and the beat, unwrapped, since which they are. -/
structure CamEngine where
  turn : Vector Nat 2 := Vector.replicate 2 3
  served : Vector Nat 2 := Vector.replicate 2 8
  held : Option (Nat × CamLine × Int) := none
  deriving DecidableEq, Repr, Inhabited

structure Cam where
  port : Vector CamPort 4 := Vector.replicate 4 {}
  eng : Vector CamEngine 2 := Vector.replicate 2 {}
  deriving DecidableEq, Repr, Inhabited

/-! ## CDC: the codec (chapter 11) -/

/-- What a context holds of an unfinished stream (R334, R335). -/
structure CodecStream where
  decompress : Bool := false
  container : Nat := 0
  level : Nat := 0
  /-- Running values of the uncompressed stream: CRC-32, Adler-32 and bytes. -/
  crc : Nat := 0
  adler : Nat := 1
  total : Nat := 0
  /-- COMPRESS: the last 32 KiB of input, and the bits of the output byte begun; the stream's header has been written. -/
  history : List Byte := []
  partialBits : List Bool := []
  begun : Bool := false
  /-- The final block is written, and only the trailer is missing. -/
  ended : Bool := false
  /-- Blocks completed in the jobs before (R332). -/
  blocks : Nat := 0
  /-- DECOMPRESS: the stream's input consumed so far, and its output bytes written so far. -/
  input : List Byte := []
  produced : Nat := 0
  deriving DecidableEq, Repr, Inhabited

/-- A job that passed its checks (R330): its entry and the stream it begins or continues. -/
structure CodecJob where
  entry : Entry
  stream : CodecStream
  /-- EN was cleared while it ran: a free value that says how far it had got (R338). -/
  stop : Option Nat := none
  deriving DecidableEq, Repr, Inhabited

structure Cdc where
  job : Option CodecJob := none
  queue : List CodecJob := []
  /-- The contexts written so far: the number whose free bytes fill bytes 64 to 65,535, and the stream they stand for. -/
  contexts : List (Nat × CodecStream) := []
  deriving DecidableEq, Repr, Inhabited

/-! ## DMA: the movers (chapter 12) -/

/-- The running MOVE of a channel (R350 to R355). -/
structure DmaRun where
  entry : Entry
  /-- Elements done (R351), and the CRC-32 of the bytes written so far. -/
  done : Nat := 0
  crc : Nat := 0
  /-- While an abort finishes bursts: how many are still to be written. -/
  aborting : Option Nat := none
  /-- The abort entry that completes after it, and the code its queue is flushed with. -/
  abort : Option Entry := none
  flush : Option Nat := none
  /-- Every burst is written, and the read-back is outstanding (R353). -/
  readBack : Bool := false
  deriving DecidableEq, Repr, Inhabited

structure DmaChan where
  run : Option DmaRun := none
  queue : List Entry := []
  /-- ELEMENTS_DONE and COUNT of the running or last MOVE (R361). -/
  done : Nat := 0
  count : Nat := 0
  deriving DecidableEq, Repr, Inhabited

structure Dma where
  ch : Vector DmaChan 32 := Vector.replicate 32 {}
  deriving DecidableEq, Repr, Inhabited

/-! ## MEM: the memory controllers (chapter 13) -/

/-- The states of a DRAM channel (R382). -/
inductive DdrState where
  | off | init | up | down
  deriving DecidableEq, Repr, Inhabited

structure Ddr where
  st : DdrState := .off
  /-- The ranks are in self-refresh and keep their contents (R376). -/
  kept : Bool := false
  /-- Postponed refreshes of each rank (R378). -/
  postponed : Vector Nat 2 := Vector.replicate 2 0
  /-- A device asked for doubled refresh at the last MR4 read (R378). -/
  doubled : Bool := false
  /-- Bank and requester pairs that reached ACT_LIMIT in the present window, and the requesters reported in it (R379). -/
  throttled : List (Nat × Nat) := []
  reported : List Nat := []
  deriving DecidableEq, Repr, Inhabited

structure Memc where
  /-- The window of 32 ms in force, numbered from domain time 0 (R379). -/
  window : Int := 0
  ddr : Vector Ddr 2 := Vector.replicate 2 {}
  /-- The ROW values in force in the present window (R382). -/
  actLimit : Vector Nat 2 := Vector.replicate 2 16384
  gap : Vector Nat 2 := Vector.replicate 2 1954
  /-- A correction was reported in the present stats epoch (R386). -/
  ceSram : Bool := false
  ceDram : Bool := false
  deriving DecidableEq, Repr, Inhabited

/-! ## LNK: lanes, Beat Link and Ethernet (chapter 14) -/

/-- The port states of R404. -/
inductive BlState where
  | off | training | aligning | hello | up | isolated
  deriving DecidableEq, Repr, Inhabited

/-- One virtual lane of a port (R401, R402). -/
structure VLane where
  /-- Sending: the next SEQ, frames started and the peer's credit (modulo 256), frames not acknowledged, and frames that wait. -/
  next : Nat := 0
  started : Nat := 0
  credit : Nat := 0
  retry : List Frame := []
  queue : List Frame := []
  /-- Receiving: the SEQ expected, and the slots freed (modulo 256). -/
  expect : Nat := 0
  freed : Nat := 0
  /-- Consecutive NAKs received, and the ACK value they carried. -/
  naks : Nat := 0
  nakAck : Nat := 0
  deriving DecidableEq, Repr, Inhabited

/-- What a port's last TIME frame said (R409, R411), and the beat, unwrapped, in which it came. -/
structure Heard where
  root : Nat
  hops : Nat
  state : Nat
  upDev : Nat
  beat : Int
  deriving DecidableEq, Repr, Inhabited

/-- What the next TIME frame echoes (R409): TSEQ, T_TX and receive time of the last one received, in 2^-16 ns. -/
structure Echo where
  tseq : Nat
  tx : Int
  rx : Int
  deriving DecidableEq, Repr, Inhabited

/-- A block before scrambling (R394): its payload, and whether it is a control block. -/
structure BlBlock where
  control : Bool
  word : W64
  deriving DecidableEq, Repr, Inhabited

/-- A frame that a port is receiving (R405): its blocks so far, and whether a block error fell in it. -/
structure FrameIn where
  blocks : List BlBlock
  bad : Bool := false
  deriving DecidableEq, Repr, Inhabited

/-- The line of one Beat Link port (R394 to R398). -/
structure BlLine where
  /-- The standby-clock time (2^-32 ns) of the first block pair, the pairs sent since, and those since the last SKIP pair. -/
  start : Int := 0
  pairs : Nat := 0
  sinceSkip : Nat := 0
  /-- The last 58 bits sent, and received, on each lane. -/
  tx0 : BitVec 58 := 0
  tx1 : BitVec 58 := 0
  rx0 : BitVec 58 := 0
  rx1 : BitVec 58 := 0
  /-- Blocks to send: LINKCTL, the rest of the VL0 frame in progress, waiting VL0 frames, the VL1 frames. -/
  ctl : List BlBlock := []
  now : List BlBlock := []
  vl0 : List (List BlBlock) := []
  vl1 : List BlBlock := []
  /-- By how many pairs the elastic buffer runs over half full, and the frames being received on VL0 and VL1. -/
  fill : Int := 0
  in0 : Option FrameIn := none
  in1 : Option FrameIn := none
  deriving DecidableEq, Repr, Inhabited

structure BlPort where
  st : BlState := .off
  /-- The standby-clock time (2^-32 ns) since which the port is in its state, and of the last HELLO sent in it. -/
  since : Int := 0
  helloAt : Option Int := none
  peerDev : Nat := 0
  peerPort : Nat := 0
  peerDomain : Nat := 0
  swapped : Bool := false
  vl : Vector VLane 2 := Vector.replicate 2 {}
  tseq : Nat := 0
  echo : Option Echo := none
  heard : Option Heard := none
  /-- The last offset and delay measured, in 2^-16 ns (R410). -/
  offset : Int := 0
  delay : Int := 0
  deriving DecidableEq, Repr, Inhabited

/-- One serial lane's receiver and checker (R388 to R392, R422). -/
structure LaneState where
  cdr : Bool := false
  adapted : Bool := false
  chk : Bool := false
  errors : Nat := 0
  bits : Nat := 0
  /-- Bits the generator has inverted on request. -/
  injected : Nat := 0
  deriving DecidableEq, Repr, Inhabited

/-- An entry of a fed ring (R412, R413): to which device, the staging pages of its brick, whether it was sent, and the
standby-clock time since which its result is awaited. -/
structure FedEntry where
  entry : Entry
  dev : Nat
  pages : List Nat := []
  sent : Bool := false
  since : Int := 0
  deriving DecidableEq, Repr, Inhabited

/-- A frame of a fed stream not yet taken up (R414): the port whose slot it fills, and the staging pages it moved into. -/
structure FedIn where
  frame : Frame
  port : Option Nat := none
  pages : List Nat := []
  deriving DecidableEq, Repr, Inhabited

/-- A fed stream (R414): its feeder and ring, its frames not yet taken up, and the standby-clock time of its last frame. -/
structure FedStream where
  dev : Nat
  ring : Nat
  q : List FedIn := []
  last : Int := 0
  deriving DecidableEq, Repr, Inhabited

structure Lnk where
  ports : Vector BlPort 10 := Vector.replicate 10 {}
  lanes : Vector LaneState 32 := Vector.replicate 32 {}
  lines : Vector BlLine 10 := Vector.replicate 10 {}
  /-- The upstream port (15 none), root, hops and state in force (R411, R419). -/
  upstream : Nat := 15
  root : Nat := 0
  rootHops : Nat := 31
  timeState : Nat := 2
  /-- ROOT_LOST was raised and ROOT_FOUND has not followed (R411). -/
  lostSaid : Bool := false
  fed : List FedEntry := []
  streams : List FedStream := []
  /-- Frames for this device that no unit has taken yet, with the port whose slot they fill, in order of arrival. -/
  arrived : List (Option Nat × Frame) := []
  /-- Events waiting for export, and those lost (R416). -/
  exports : List Item := []
  exportLoss : Option Loss := none
  ethUp : Vector Bool 2 := Vector.replicate 2 false
  deriving DecidableEq, Repr, Inhabited
/-! ## TMB: domain time, the beat and PTP (chapter 15) -/

/-- One PTP port (R440, R451): its portState as IEEE 1588 numbers it, and the domain time of its last Sync. -/
structure PtpPort where
  state : Nat := 1
  lastSync : Option Int := none
  /-- The timestamp of the last event message received, with the board's asymmetry, in 2^-16 ns (R441). -/
  stamp : Int := 0
  deriving DecidableEq, Repr, Inhabited

/-- One capture input (R443): the last capture, the beat it fell in and the edges missed in that beat. -/
structure Capture where
  ns : Nat := 0
  frac : Nat := 0
  beat : Option Nat := none
  missed : Nat := 0
  deriving DecidableEq, Repr, Inhabited

/-- The measurement the servo last used (R434): from which source and port, and at which domain time. -/
structure Measured where
  source : Nat
  port : Nat
  time : Int
  deriving DecidableEq, Repr, Inhabited

structure Tmb where
  /-- Domain time in units of 2^-32 ns, unwrapped (R427, R439). -/
  time : Int := 0
  /-- FCLK cycle since the last beat or service edge (R9). -/
  cycle : Nat := 0
  /-- The beat generator is RUNNING (R430). -/
  run : Bool := false
  /-- The armed start time in ns (R432). -/
  startAt : Option Nat := none
  /-- The servo's integral, proportional and slew terms and the FREQ in force, in units of 2^-40 (R429, R434, R438). -/
  integ : Int := 0
  prop : Int := 0
  slew : Int := 0
  freq : Int := 0
  /-- The rate at which STEP_REMAIN shrinks: FREQ in force less integ as it stood when that FREQ was written (R438). -/
  stepRate : Int := 0
  /-- The beat or service edge, unwrapped, of the last new FREQ. -/
  freqBeat : Int := -1
  /-- STEP_REMAIN in units of 2^-40 ns, and the domain time it stands for (R438). -/
  stepRemain : Int := 0
  stepAt : Int := 0
  /-- The present slew removes what is left of the step (R438). -/
  stepLast : Bool := false
  measured : Option Measured := none
  /-- Consecutive measurements within LOCK_NS, and beyond 4 LOCK_NS (R435). -/
  good : Nat := 0
  bad : Nat := 0
  locked : Bool := false
  farRaised : Bool := false
  freeRun : Bool := false
  /-- The last measured offset, in 2^-16 ns (R447). -/
  offset : Int := 0
  ports : Vector PtpPort 2 := Vector.replicate 2 {}
  caps : Vector Capture 8 := Vector.replicate 8 {}
  /-- The levels of PPS_OUT and CLK10_OUT (R549). -/
  pps : Bool := false
  clk10 : Bool := false
  /-- The launch slots whose port cleared the way for them (R445). -/
  launchReady : Vector Bool 8 := Vector.replicate 8 false
  deriving DecidableEq, Repr, Inhabited


/-! ## AXS: stepper axes (chapter 16)

Positions and lengths are in 5·10^-13 microstep, speeds in 10^-12 microstep per profile tick: every profile value is a whole number of
these, and a tick moves an axis by the sum of the speeds at its two ends. -/

/-- Where a homing stands (R468): moving off the switch, coming to rest after that, seeking, or coming to rest after it. -/
inductive HomePhase where
  | away | awayStop | seek | seekStop
  deriving DecidableEq, Repr, Inhabited

structure HomeRun where
  phase : HomePhase
  /-- HDIR is the positive direction. -/
  plus : Bool
  homePos : Int := 0
  deriving DecidableEq, Repr, Inhabited

/-- A move, homing or stop in progress (R460 to R471). -/
structure AxMove where
  /-- Its entry; none once it has been superseded and completed. -/
  entry : Option Entry
  mask : Nat
  /-- The leading axis; start and distance of every named axis; length of the leading axis's whole way, where on it the move ends, and
  how far along it is. -/
  lead : Nat
  start : Vector Int 8 := Vector.replicate 8 0
  dist : Vector Int 8 := Vector.replicate 8 0
  full : Nat := 0
  len : Nat := 0
  s : Nat := 0
  v : Nat := 0
  /-- How far along it will be at the next tick, and its speed there, as the planner has fixed them (R457). -/
  ns : Nat := 0
  nv : Nat := 0
  vmax : Nat
  acc : Nat
  dec : Nat
  edec : Nat
  /-- Truncated at a virtual limit (R465). -/
  soft : Bool := false
  /-- The deceleration of a stop in force (0 none), the code of its first cause, and the profile tick it came in (R471). -/
  decel : Nat := 0
  cause : Nat := 0
  causeTick : Int := 0
  home : Option HomeRun := none
  deriving DecidableEq, Repr, Inhabited

structure AxsAxis where
  on : Bool := false
  /-- Commanded position at the last profile tick and at the next (R457), and POS in microsteps (R456). -/
  p : Int := 0
  pNext : Int := 0
  pos : Int := 0
  /-- The last whole microstep that the commanded line has crossed: POS follows it, behind it while steps wait (R457, R458). -/
  goal : Int := 0
  /-- DIR stands at its positive level; the FCLK cycles of the last DIR change and of the last STEP (R458). -/
  dir : Bool := true
  dirAt : Option Int := none
  stepAt : Option Int := none
  homed : Bool := false
  /-- The qualified levels of LIM_P, LIM_N and HOME, and the FCLK cycles in which each was qualified last (R467, R468). -/
  limP : Bool := false
  limN : Bool := false
  homeIn : Bool := false
  limPAt : Int := 0
  limNAt : Int := 0
  homeAt : Int := 0
  latch : Int := 0
  deriving DecidableEq, Repr, Inhabited

structure Axs where
  ax : Vector AxsAxis 8 := Vector.replicate 8 {}
  moves : List AxMove := []
  /-- STOP entries whose axes are not at rest yet; REPLACE moves that wait for their axes to come to rest (R464, R466). -/
  stops : List Entry := []
  waiting : List Entry := []
  /-- The beat, unwrapped, of the last profile tick; the planner missed it (R472). -/
  tick : Int := -1
  late : Bool := false
  deriving DecidableEq, Repr, Inhabited

/-! ## LGT: lighting and beacons (chapter 17) -/

/-- One lit element (R479, R482, R490). -/
structure LightCh where
  duty : Nat := 0
  /-- T_i of the present frame, its pulse's start in its window, and whether its diagnosis is made in it (R481, R488). -/
  on : Nat := 0
  start : Nat := 0
  tested : Bool := false
  /-- Status 0 OFF, 1 OK, 2 FAILED, 3 UNVERIFIED, and cause 0 none, 1 OPEN, 2 SHORT, 3 NEIGHBOUR (R496). -/
  st : Nat := 0
  cause : Nat := 0
  /-- Consecutive failed diagnoses, and the frame count at the last pass if none has failed since. -/
  fails : Nat := 0
  passAt : Option Int := none
  /-- The duty behind the last frame, and the excess being repaid: the whole of it, over how many frames, and the frames left (R489). -/
  last : Nat := 0
  excess : Nat := 0
  beyond : Nat := 0
  left : Nat := 0
  deriving DecidableEq, Repr, Inhabited

structure Lgt where
  ch : Vector LightCh 96 := Vector.replicate 96 {}
  vset : Nat := 0
  /-- Consecutive frames in which every sampled headroom was above HEAD_HI. -/
  highRun : Nat := 0
  /-- NTC temperatures in 2^-32 °C, gains in 2^-32, and the inputs out of range (R485). -/
  temp : Vector Int 4 := Vector.replicate 4 0
  gain : Vector Nat 4 := Vector.replicate 4 4294967296
  ntcBad : Nat := 0
  /-- Groups dark under R491. -/
  groupOff : Nat := 0
  /-- Frames begun, and the beat, unwrapped, of the last frame boundary. -/
  count : Int := 0
  frame : Int := -1
  /-- The present frame began with EN at 1 (R483). -/
  lit : Bool := false
  /-- The beat, unwrapped, at which the boost last started, and the frames in a row since then with a string or cell lit, up to 16 (R484). -/
  boostAt : Int := 0
  litRun : Nat := 0
  /-- The frame, numbered without wrap, in which each NTC input was last converted (R485). -/
  ntcAt : Vector Int 4 := Vector.replicate 4 (-1)
  deriving DecidableEq, Repr, Inhabited

/-! ## THM: sensors, throttle and shutdown (chapter 18) -/

/-- The sensor states of R502 and R512. -/
inductive SensState where
  | off | normal | warn | grace | enforced
  deriving DecidableEq, Repr, Inhabited

structure Sensor where
  st : SensState := .off
  /-- The last valid reading, in 1/16 °C; whether there has been one, and whether the last reading was valid. -/
  temp : Int := 0
  read : Bool := false
  /-- The highest valid reading in the statistics interval, if there was one (R512). -/
  peak : Option Int := none
  fault : Bool := false
  /-- The standby-clock times (2^-32 ns) of THROTTLE_REQ and of the last sample. -/
  graceAt : Int := 0
  sampledAt : Option Int := none
  deriving DecidableEq, Repr, Inhabited

structure Thm where
  /-- Sensors 0 to 15 remote, 16 to 23 on the die, which are always on. -/
  sens : Vector Sensor 24 := Vector.ofFn (fun i => if i.val < 16 then ({} : Sensor) else { st := .normal })
  /-- The shutdown latch (R505). -/
  latch : Bool := false
  /-- The enforcement that LSR has been told of, channel by channel (R503). -/
  chans : Nat := 0
  deriving DecidableEq, Repr, Inhabited

/-! ## MGT: the calibration unit (chapter 19) -/

/-- What the calibration unit is at (R524). -/
inductive CalPhase where
  | draining | run1 | run2
  deriving DecidableEq, Repr, Inhabited

/-- The CAL_RUN in progress (R515, R520): its entry, what it calibrates, and since which beat, unwrapped, it is in its phase. -/
structure CalRun where
  entry : Entry
  kind : Nat
  unit : Nat
  phase : CalPhase := .draining
  since : Int := 0
  /-- The fiducial table as it was read. -/
  table : List (Int × Int) := []
  deriving DecidableEq, Repr, Inhabited

/-- An accepted result (R521): its record's words, header first. -/
structure CalRecord where
  kind : Nat
  unit : Nat
  words : List W64
  deriving DecidableEq, Repr, Inhabited

/-- The counts of one kind (R525). -/
structure CalCount where
  accepted : Nat := 0
  rejected : Nat := 0
  last : Nat := 0
  deriving DecidableEq, Repr, Inhabited

structure Cal where
  run : Option CalRun := none
  /-- The calibration store, in flash (R522, R534). -/
  store : List CalRecord := []
  counts : Vector CalCount 8 := Vector.replicate 8 {}
  deriving DecidableEq, Repr, Inhabited

/-! ## MGT: management processor, flash, log and power (chapters 01, 20 and 21) -/

/-- The firmware slot states of R536. -/
inductive SlotState where
  | empty | loading | verified | trial | confirmed | bad
  deriving DecidableEq, Repr, Inhabited

/-- A firmware slot in flash (R534, R535): its state, the load session open on it, and the pieces held. -/
structure FwSlot where
  st : SlotState := .empty
  len : Nat := 0
  sha : BitVec 384 := 0
  pieces : AssocMap (List Byte) := []
  deriving DecidableEq, Repr, Inhabited

/-- A settings area in flash (R538): none while it holds no valid record. -/
structure Settings where
  format : Nat
  gen : Nat
  body : List Byte
  deriving DecidableEq, Repr, Inhabited

/-- What the management processor is handing over (R537): to which slot, since when on the standby clock (2^-32 ns), and whether
the hand-over reverts. -/
structure Activation where
  slot : Nat
  since : Int
  revert : Bool := false
  deriving DecidableEq, Repr, Inhabited

/-- A running export (R529): who asked, and its ID. -/
structure Export where
  src : Nat
  seq : Nat
  id : Nat
  addr : Nat
  len : Nat
  port : Nat
  dst : BitVec 128
  udp : W16
  deriving DecidableEq, Repr, Inhabited

/-- The last reply kept for a requester (R528). -/
structure Reply where
  src : Nat
  seq : Nat
  status : Nat
  data : List Byte
  deriving DecidableEq, Repr, Inhabited

/-- A 32-bit half kept between two half accesses (R213): the register's offset and the half. -/
structure HalfLatch where
  off : Nat
  v : W32
  deriving DecidableEq, Repr, Inhabited

structure Mgt where
  /-- The event log, newest first; the next sequence number; entries overwritten (R531, R542). -/
  log : List Item := [{ kind := .event 0, code := 0x0108, stamp := default }, { kind := .event 0, code := 0x0109, stamp := default }]
  nextSeq : Nat := 2
  overwritten : Nat := 0
  /-- The staging and read latches of the host (0) and of the side-band (1) (R213). -/
  stage : Vector (Option HalfLatch) 2 := Vector.replicate 2 none
  rdLatch : Vector (Option HalfLatch) 2 := Vector.replicate 2 none
  slots : Vector FwSlot 2 := ⟨#[{ st := .confirmed }, {}], rfl⟩
  confirmed : Nat := 0
  running : Nat := 0
  act : Option Activation := none
  /-- The beat or service edge, unwrapped, from which the new core serves after a handover: until then requests wait (R537). -/
  serveFrom : Option Int := none
  areas : Vector (Option Settings) 2 := Vector.replicate 2 none
  /-- The settings in effect, and the area their record stands in (R538). -/
  settings : Option Settings := none
  area : Nat := 0
  /-- The area that keeps the CONFIRMED image's record while a slot is in TRIAL (R538). -/
  guarded : Option Nat := none
  replies : List Reply := []
  exporting : Option Export := none
  /-- The standby-clock time at which a PMP RESET starts the reset (R539); the cause of the last reset (R542). -/
  resetAt : Option Int := none
  cause : Nat := 0
  deriving DecidableEq, Repr, Inhabited

/-- Power, straps and resets (R29, R551 to R558). -/
structure Power where
  /-- Standby power is good; the straps as then sampled; MAIN_EN is driven high. -/
  standby : Bool := true
  straps : BitVec 5 := 0
  mainEn : Bool := true
  mainPg : Bool := true
  ref100 : Bool := true
  /-- RESET_N is high; the reset sequence has completed. -/
  resetN : Bool := true
  seqDone : Bool := true
  /-- The standby clock, in 2^-32 ns since standby power became good. -/
  clock : Int := 0
  /-- Islands that are not ACTIVE, by 64 times the block plus the island: 1 CLOCK_GATED, 2 ISLAND_OFF (R29). -/
  isl : AssocMap Nat := []
  /-- For how many beat or service edges each island has been idle, up to 20,000,000 (R29). -/
  idle : AssocMap Nat := []
  /-- For islands off with work waiting: the beat, unwrapped, in which it arrived. -/
  wake : List (Nat × Int) := []
  deriving DecidableEq, Repr, Inhabited
/-! ## The whole machine -/

/-- The memories (R364, R365, R369): bytes by address, and the words an uncorrectable error has poisoned.
The DRAM's bytes go by channel and place in the channel (`dramCell` in Machine/MemOps.lean). -/
structure Mem where
  sram : List Host.Cell := []
  dram : List Host.Cell := []
  /-- SRAM word addresses whose stored check bits are bad (R366). -/
  poisoned : List Nat := []
  deriving DecidableEq, Repr, Inhabited

/-- Everything but the memories and the waiting commands. -/
structure Dev where
  regs : RegFile := {}
  ev : Stream := {}
  /-- How many free values have been drawn: the model's own counter (Config.freeValue). -/
  freeCount : Nat := 0
  hst : Hst := {}
  lnk : Lnk := {}
  crs : Course := {}
  msn : Msn := {}
  pth : Pth := {}
  lsr : Lsr := {}
  mpm : Mpm := {}
  srv : Srv := {}
  safe : Safety := {}
  cam : Cam := {}
  cdc : Cdc := {}
  dma : Dma := {}
  memc : Memc := {}
  tmb : Tmb := {}
  axs : Axs := {}
  lgt : Lgt := {}
  thm : Thm := {}
  cal : Cal := {}
  mgt : Mgt := {}
  pwr : Power := {}
  deriving DecidableEq, Repr, Inhabited

/-- The state: the memories, the device and the commands that wait, first in first out. -/
structure State where
  mem : Mem := {}
  dev : Dev := {}
  pending : List Instr := []
  deriving DecidableEq, Repr, Inhabited

/-- The machine right after a full device reset (R539). -/
def State.reset : State := {}

end Sys2Proof.Machine
end

