-- ==== Sys2Proof/Machine/Ops.lean ====
section
/-!
DEFINITION. The named operations over memory, registers, time, events and ring entries that every meaning is built from.
-/
namespace Sys2Proof.Machine

/-! ## Sparse maps in canonical form -/

/-- What a map holds for key `q`; `dflt` is what an absent key reads as. -/
def Assoc.get {α : Type} : AssocMap α → Nat → α → α
  | [], _, dflt => dflt
  | (k, v) :: t, q, dflt => if k = q then v else Assoc.get t q dflt

/-- Write `v` at key `q`, keeping keys rising and listing no entry equal to `dflt`. -/
def Assoc.put {α : Type} [DecidableEq α] : AssocMap α → Nat → α → α → AssocMap α
  | [], q, v, dflt => if v = dflt then [] else [(q, v)]
  | (k, w) :: t, q, v, dflt =>
    if q < k then (if v = dflt then (k, w) :: t else (q, v) :: (k, w) :: t)
    else if q = k then (if v = dflt then t else (q, v) :: t)
    else (k, w) :: Assoc.put t q v dflt

/-- Every key of the map lies above `b`. -/
def Assoc.above {α : Type} (b : Nat) (m : AssocMap α) : Bool := m.all (fun p => b < p.1)

/-- The canonical form: keys strictly rising, and no entry equal to `dflt`. -/
def Assoc.wf {α : Type} [DecidableEq α] (dflt : α) : AssocMap α → Bool
  | [] => true
  | (k, v) :: t => Assoc.above k t && !(decide (v = dflt)) && Assoc.wf dflt t

/-! ## Bits and numbers -/

/-- Bits [hi:lo] of a number. -/
def bitsOf (w hi lo : Nat) : Nat := (w / 2 ^ lo) % 2 ^ (hi + 1 - lo)

/-- Bit `i` of a number. -/
def bitOf (w i : Nat) : Bool := (w / 2 ^ i) % 2 == 1

/-- Bits [hi:lo] of a word. -/
def wbits (w : W64) (hi lo : Nat) : Nat := bitsOf w.toNat hi lo

/-- The two's complement value of the low `n` bits (chapter 00, signed fields). -/
def signed (n v : Nat) : Int :=
  if v % 2 ^ n < 2 ^ (n - 1) then ((v % 2 ^ n : Nat) : Int) else ((v % 2 ^ n : Nat) : Int) - ((2 ^ n : Nat) : Int)

/-- The low `n` bits of an integer, as two's complement. -/
def unsigned (n : Nat) (x : Int) : Nat := (x % ((2 ^ n : Nat) : Int)).toNat

/-- An integer as a 64-bit word. -/
def word (x : Int) : W64 := BitVec.ofNat 64 (unsigned 64 x)

/-- A word made of numbers placed at their lowest bits. -/
def pack (parts : List (Nat × Nat)) : W64 := BitVec.ofNat 64 (parts.foldl (fun a p => a + p.1 * 2 ^ p.2) 0)

/-- `b` as 0 or 1. -/
def bit (b : Bool) : Nat := if b then 1 else 0

/-- Clamp into [lo, hi]. -/
def clampI (lo hi x : Int) : Int := max lo (min hi x)

/-- Clamp a number into [lo, hi]. -/
def clampN (lo hi x : Nat) : Nat := max lo (min hi x)

/-- Divide, rounding half up (towards plus infinity). -/
def divRound (a : Int) (b : Nat) : Int := (2 * a + b) / ((2 * b : Nat) : Int)

/-- The bit set of the indices below `n` that satisfy `p`. -/
def bitset (n : Nat) (p : Nat → Bool) : Nat := (List.range n).foldl (fun a i => if p i then a + 2 ^ i else a) 0

/-- The signed 32-bit difference of two beat numbers (R13, R14). -/
def beatDiff (a b : Nat) : Int := signed 32 (unsigned 32 ((a : Int) - (b : Int)))

/-- The signed 64-bit difference of two domain times in ns (R15). -/
def timeDiff (a b : Nat) : Int := signed 64 (unsigned 64 ((a : Int) - (b : Int)))

/-! ## The identity record (R1, R533) -/

/-- One bit of the CRC-16 of R533: polynomial 0x1021, no reflection. -/
def crc16Step (c : Nat) (b : Bool) : Nat := if bitOf c 15 != b then (2 * c % 65536) ^^^ 0x1021 else 2 * c % 65536

/-- The CRC-16 of the low `n` bits of a number, the highest first. -/
def crc16 (n w : Nat) : Nat := (List.range n).foldl (fun c i => crc16Step c (bitOf w (n - 1 - i))) 0xFFFF

/-- The identity record in the fuses: STEPPING is 0x00 for A0, bits [31:16] are 0, and CHECK covers bits [127:16]. -/
def identity : BitVec 128 :=
  let w := Config.dieRecord.toNat * 2 ^ 24
  BitVec.ofNat 128 (w * 2 ^ 16 + crc16 112 w)

/-! ## Fixed arrays -/

/-- Element `i`, or the default where there is none. -/
def at' {α : Type} [Inhabited α] {n : Nat} (v : Vector α n) (i : Nat) : α := if h : i < n then v[i] else default

/-- Change element `i`; nothing changes where there is none. -/
def upd {α : Type} {n : Nat} (v : Vector α n) (i : Nat) (f : α → α) : Vector α n :=
  if h : i < n then v.set i (f v[i]) else v

/-- Apply `f` once for each index below `n`, in ascending order. -/
def forRange {σ : Type} (n : Nat) (s : σ) (f : σ → Nat → σ) : σ := (List.range n).foldl f s

/-! ## Register fields -/

/-- The place of a field in the register maps. -/
def Field.key (f : Field) (i j : Nat) : Nat := (f.addr + i * f.s1 + j * f.s2) * 64 + f.lo

/-- The width of a field. -/
def Field.width (f : Field) : Nat := f.hi + 1 - f.lo

/-- The reset value of a field (R5). -/
def Field.resetAt (f : Field) (i : Nat) : Nat := f.resets.getD i f.reset

/-- A value cut to the field's width. -/
def Field.fit (f : Field) (v : Nat) : Nat := v % 2 ^ f.width

/-- An RW field as last written: what a read returns (R6). -/
def Dev.cur (d : Dev) (f : Field) (i : Nat := 0) (j : Nat := 0) : Nat := Assoc.get d.regs.rw (f.key i j) (f.resetAt i)

/-- An RW field as the data path sees it in the present beat (R20). -/
def Dev.act (d : Dev) (f : Field) (i : Nat := 0) (j : Nat := 0) : Nat := Assoc.get d.regs.rwAct (f.key i j) (f.resetAt i)

/-- A one-bit RW field was 0 in the beat before, of whose end `was` is the register file, and is 1 as sampled for this one (R20). -/
def Dev.turnsOn (d : Dev) (was : RegFile) (f : Field) (i : Nat := 0) : Bool :=
  Assoc.get was.rwAct (f.key i 0) (f.resetAt i) == 0 && d.act f i == 1

/-- It was 1, and is 0. -/
def Dev.turnsOff (d : Dev) (was : RegFile) (f : Field) (i : Nat := 0) : Bool :=
  Assoc.get was.rwAct (f.key i 0) (f.resetAt i) == 1 && d.act f i == 0

/-- A one-bit RW field in force. -/
def Dev.on (d : Dev) (f : Field) (i : Nat := 0) (j : Nat := 0) : Bool := d.act f i j == 1

/-- A signed RW field in force. -/
def Dev.actS (d : Dev) (f : Field) (i : Nat := 0) (j : Nat := 0) : Int := signed f.width (d.act f i j)

/-- An RWS field as last written (R6). -/
def Dev.shadow (d : Dev) (f : Field) (i : Nat := 0) (j : Nat := 0) : Nat := Assoc.get d.regs.shadow (f.key i j) (f.resetAt i)

/-- An RWS field in effect (R7). -/
def Dev.eff (d : Dev) (f : Field) (i : Nat := 0) (j : Nat := 0) : Nat := Assoc.get d.regs.effect (f.key i j) (f.resetAt i)

/-- A signed RWS field in effect. -/
def Dev.effS (d : Dev) (f : Field) (i : Nat := 0) (j : Nat := 0) : Int := signed f.width (d.eff f i j)

/-- A W1C field. -/
def Dev.flag (d : Dev) (f : Field) (i : Nat := 0) (j : Nat := 0) : Nat := Assoc.get d.regs.w1c (f.key i j) (f.resetAt i)

/-- Set an RW field as written. -/
def Dev.setRw (d : Dev) (f : Field) (v : Nat) (i : Nat := 0) (j : Nat := 0) : Dev :=
  { d with regs.rw := Assoc.put d.regs.rw (f.key i j) (f.fit v) (f.resetAt i) }

/-- Set an RW field as written and in force at once: the device's own change of a control bit. -/
def Dev.setRwNow (d : Dev) (f : Field) (v : Nat) (i : Nat := 0) (j : Nat := 0) : Dev :=
  { d with regs.rw := Assoc.put d.regs.rw (f.key i j) (f.fit v) (f.resetAt i),
           regs.rwAct := Assoc.put d.regs.rwAct (f.key i j) (f.fit v) (f.resetAt i) }

/-- Set an RWS field's shadow. -/
def Dev.setShadow (d : Dev) (f : Field) (v : Nat) (i : Nat := 0) (j : Nat := 0) : Dev :=
  { d with regs.shadow := Assoc.put d.regs.shadow (f.key i j) (f.fit v) (f.resetAt i) }

/-- Set a W1C field. -/
def Dev.setFlag (d : Dev) (f : Field) (v : Nat) (i : Nat := 0) (j : Nat := 0) : Dev :=
  { d with regs.w1c := Assoc.put d.regs.w1c (f.key i j) (f.fit v) (f.resetAt i) }

/-- Set bits of a W1C field that are not set yet. -/
def Dev.orFlag (d : Dev) (f : Field) (v : Nat) (i : Nat := 0) (j : Nat := 0) : Dev := d.setFlag f (d.flag f i j ||| v) i j

/-- The running value behind a ROL field. -/
def Dev.count (d : Dev) (f : Field) (i : Nat := 0) (j : Nat := 0) : Nat := Assoc.get d.regs.cnt (f.key i j) 0

/-- Set the running value behind a ROL field. -/
def Dev.setCount (d : Dev) (f : Field) (v : Nat) (i : Nat := 0) (j : Nat := 0) : Dev :=
  { d with regs.cnt := Assoc.put d.regs.cnt (f.key i j) (f.fit v) 0 }

/-- Count `n` more on the counter behind a ROL field. -/
def Dev.bump (d : Dev) (f : Field) (n : Nat := 1) (i : Nat := 0) (j : Nat := 0) : Dev := d.setCount f (d.count f i j + n) i j

/-- Count one more on a counter that saturates at its width. -/
def Dev.bumpSat (d : Dev) (f : Field) (i : Nat := 0) : Dev := d.setCount f (min (d.count f i + 1) (2 ^ f.width - 1)) i

/-- Raise a peak value behind a ROL field. -/
def Dev.peak (d : Dev) (f : Field) (v : Nat) (i : Nat := 0) (j : Nat := 0) : Dev := d.setCount f (max (d.count f i j) v) i j

/-! ## Writing a register (R3 to R6, R21) -/

/-- The value a 64-bit write carries for a field. -/
def Field.of (f : Field) (v : W64) : Nat := wbits v f.hi f.lo

/-- Store a written word field by field, by access code (R6): RW and RWS take the value, W1C clears where 1 is written. -/
def Dev.store (d : Dev) (r : RegDef) (v : W64) (i j : Nat) : Dev :=
  r.fields.foldl (fun d f =>
    match f.acc with
    | .rw => d.setRw f (f.of v) i j
    | .rws => d.setShadow f (f.of v) i j
    | .w1c => d.setFlag f (d.flag f i j &&& (2 ^ f.width - 1 - f.of v)) i j
    | .ro | .wo | .rol => d) d

/-- Refuse a write: nothing changes but the block's REFUSED bit (R21). -/
def Dev.refuse (d : Dev) (f : Field) (i : Nat := 0) : Dev := d.orFlag f 1 i

/-- Store the word if `ok`, else refuse it on the block's REFUSED bit. -/
def Dev.storeIf (d : Dev) (refused : Field) (ok : Bool) (r : RegDef) (v : W64) (i : Nat := 0) (j : Nat := 0) : Dev :=
  if ok then d.store r v i j else d.refuse refused

/-- The write changes some RW or RWS field of the register other than those listed. -/
def Dev.changes (d : Dev) (r : RegDef) (but : List Field) (v : W64) (i : Nat := 0) (j : Nat := 0) : Bool :=
  r.fields.any (fun f => !(but.contains f) &&
    match f.acc with
    | .rw => d.cur f i j != f.of v
    | .rws => d.shadow f i j != f.of v
    | _ => false)

/-! ## Domain time and the beat (R10, R22, R427, R431, R439) -/

/-- One ns, in the units of the domain time counter. -/
def nsUnit : Int := 4294967296

/-- Domain time in whole ns, unwrapped (R439). -/
def Dev.nsWide (d : Dev) : Int := d.tmb.time / nsUnit

/-- Domain time in whole ns as stamps and TMB_TIME give it (R427). -/
def Dev.ns (d : Dev) : Nat := unsigned 64 d.nsWide

/-- The beat or service edge count, unwrapped. -/
def Dev.beatWide (d : Dev) : Int := d.nsWide / 50

/-- The beat number (R10), or the service edge number while the generator is STOPPED (R431). -/
def Dev.beat (d : Dev) : Nat := unsigned 32 d.beatWide

/-- The present beat, or service edge, is one where the beat number is a multiple of `n` (R24). -/
def Dev.beatMultiple (d : Dev) (n : Nat) : Bool := d.beat % n == 0

/-- The device ID in the build domain (R9, R418). -/
def Dev.id (d : Dev) : Nat := d.act Reg.LNK_DEV_DEVICE

/-- The stamp of something a source does in the present cycle (R9). -/
def Dev.stamp (d : Dev) (src : Nat) : Stamp :=
  { beat := d.beat, cycle := min d.tmb.cycle 127, source := src, sub := 0, device := d.id, time := d.ns }

/-- The stamp of a source for cycle 0 of beat `b`. -/
def Dev.beatStamp (d : Dev) (src : Nat) (b : Int) : Stamp := { d.stamp src with beat := unsigned 32 b, cycle := 0, time := unsigned 64 (b * 50) }

/-- The two words of a stamp (R9). -/
def Stamp.words (t : Stamp) : List W64 :=
  [pack [(t.beat, 32), (t.cycle, 24), (t.source, 16), (t.sub, 10), (t.device, 0)], BitVec.ofNat 64 t.time]

/-- Stamp order (R13). -/
def precedes (a b : Stamp) : Bool :=
  if a.beat ≠ b.beat then decide (beatDiff a.beat b.beat < 0)
  else if a.cycle ≠ b.cycle then a.cycle < b.cycle
  else if a.source ≠ b.source then a.source < b.source
  else if a.sub ≠ b.sub then a.sub < b.sub
  else a.device < b.device

/-! ## Events, records and completions -/

/-- Insert an item behind every item whose stamp does not follow its own. -/
def insertItem (x : Item) : List Item → List Item
  | [] => [x]
  | y :: t => if precedes x.stamp y.stamp then x :: y :: t else y :: insertItem x t

/-- The item is an event of the device's own. -/
def Item.isEvent (x : Item) : Bool := match x.kind with | .event _ => true | _ => false

/-- Both items are events of one source in one cycle (R12). -/
def sameInstant (x y : Item) : Bool :=
  y.isEvent && x.stamp.beat == y.stamp.beat && x.stamp.cycle == y.stamp.cycle && x.stamp.source == y.stamp.source &&
    x.stamp.time == y.stamp.time

/-- Insert by unit, then by code (R12). -/
def insertByUnit (x : Item) : List Item → List Item
  | [] => [x]
  | y :: t => if x.unit < y.unit || (x.unit == y.unit && x.code < y.code) then x :: y :: t else y :: insertByUnit x t

/-- Give events of one instant their SUB numbers, from `n` upward (R12). -/
def renumber : Nat → List Item → List Item
  | _, [] => []
  | n, y :: t => { y with stamp.sub := min n 63 } :: renumber (n + 1) t

/-- Add an event to the merge: the events of its source in its cycle are ordered by unit and code (R12, R59). An event whose DETAIL names no
one unit stands as unit 0: the model's choice (log entry 112). -/
def addEvent (ev : Stream) (x : Item) : Stream :=
  let same := insertByUnit x (ev.merge.filter (sameInstant x))
  let rest := ev.merge.filter (fun y => !sameInstant x y)
  { ev with merge := (renumber 0 same).foldl (fun m y => insertItem y m) rest }

/-- Main power is absent or a shutdown is latched: the main domain is held in reset (R28, R505, R555, R556). -/
def Dev.mainOff (d : Dev) : Bool := !d.pwr.standby || !d.pwr.mainPg || !d.pwr.ref100 || d.thm.latch

/-- The main domain runs: it has power, and its reset sequence is complete (R558). -/
def Dev.mainUp (d : Dev) : Bool := !d.mainOff && d.pwr.seqDone

/-- A command for a unit of the main domain has its effect, the state `t`, only while that runs (R28, R555, R558). -/
def State.mainOnly (s t : State) : Host.Outcome State Fault Refusal := .next (if s.dev.mainUp then t else s)

/-- Enter an event into the management event log (R59, R531). -/
def Dev.logEvent (d : Dev) (x : Item) : Dev :=
  { d with mgt.log := (x :: d.mgt.log).take 32768, mgt.nextSeq := (d.mgt.nextSeq + 1) % 2 ^ 32,
           mgt.overwritten := if d.mgt.log.length ≥ 32768 then min (d.mgt.overwritten + 1) 0xFFFFFFFF else d.mgt.overwritten }

/-- Raise an event: its source, the unit it concerns, its code, DETAIL and payload words 4 to 7 (R8, R53, R59). With main power
absent or a shutdown latched its stamp is all zeros and it goes to the log alone (R507). -/
def Dev.raise (d : Dev) (src unit code detail : Nat) (payload : List W64 := []) : Dev :=
  let x : Item := { kind := .event (src / 16), code, detail := detail % 2 ^ 32, payload, stamp := d.stamp src, unit }
  if d.mainUp then { d with ev := addEvent d.ev x } else d.logEvent { x with stamp := default }

/-- Raise a block's overrun event and set its bit in MGT_OVERRUN_SUMMARY (R25, R33). -/
def Dev.overrun (d : Dev) (src unit code detail : Nat) (payload : List W64 := []) : Dev :=
  (d.raise src unit code detail payload).orFlag Reg.MGT_OVERRUN_SUMMARY_OVR (2 ^ (src / 16))

/-- Send a STAT record of a block with a stamp (R53, R56). -/
def Dev.recordAt (d : Dev) (stamp : Stamp) (src recType detail : Nat) (payload : List W64) : Dev :=
  let x : Item := { kind := .stat (src / 16) recType, detail := detail % 2 ^ 32, payload, stamp }
  { d with ev.merge := insertItem x d.ev.merge }

/-- Send a STAT record of a block (R53, R56). -/
def Dev.record (d : Dev) (src recType detail : Nat) (payload : List W64) : Dev := d.recordAt (d.stamp src) src recType detail payload

/-- Put something out. -/
def Dev.emit (d : Dev) (o : Out) : Dev := { d with ev.out := o :: d.ev.out }

/-- Draw a free value: what the spec leaves open (Config.freeValue). -/
def Dev.free (d : Dev) : Nat × Dev := (Config.freeValue d.freeCount, { d with freeCount := d.freeCount + 1 })

/-! ## Ring entries -/

/-- Word `i` of an entry. -/
def Entry.w (e : Entry) (i : Nat) : W64 := e.words.getD i 0

/-- Bits [hi:lo] of word `i`. -/
def Entry.f (e : Entry) (i hi lo : Nat) : Nat := wbits (e.w i) hi lo

/-- The fields of word 0 (R51). -/
def Entry.opcode (e : Entry) : Nat := e.f 0 63 56
def Entry.cls (e : Entry) : Nat := e.f 0 55 52
def Entry.sched (e : Entry) : Bool := e.f 0 51 51 == 1
def Entry.noDone (e : Entry) : Bool := e.f 0 50 50 == 1
def Entry.fence (e : Entry) : Bool := e.f 0 49 49 == 1
def Entry.tag (e : Entry) : Nat := e.f 0 47 32
def Entry.startBeat (e : Entry) : Nat := e.f 0 31 0

/-- Ring `n`. -/
def Dev.ring (d : Dev) (n : Nat) : Ring := at' d.hst.rings n

/-- Change ring `n`. -/
def Dev.updRing (d : Dev) (n : Nat) (f : Ring → Ring) : Dev := { d with hst.rings := upd d.hst.rings n f }

/-- Pass entries on from behind their fences while nothing earlier is outstanding (R51). -/
def passFenced (seq : Nat) (beat : Int) : List Entry → Nat → List Entry → Nat × List Entry × List Entry
  | [], passed, inQ => (passed, inQ, [])
  | e :: t, passed, inQ =>
    if e.fence && passed ≠ 0 then (passed, inQ, e :: t)
    else passFenced (seq + 1) beat t (passed + 1) (inQ ++ [{ e with seq, beat }])

/-- Entries of ring `n` pass on as far as their fences allow. -/
def Dev.passOn (d : Dev) (n : Nat) : Dev :=
  let r := d.ring n
  let (p, q, f) := passFenced d.hst.passSeq d.beatWide r.fenced r.passed r.inQ
  { d with hst.passSeq := d.hst.passSeq + (p - r.passed),
           hst.rings := upd d.hst.rings n (fun r => { r with passed := p, inQ := q, fenced := f }) }

/-- The DONE item of an entry (R53, R54). -/
def doneItem (d : Dev) (e : Entry) (src code detail : Nat) (payload : List W64) : Item :=
  { kind := .done e.ring e.idx e.tag, code, detail := detail % 2 ^ 32, payload, stamp := d.stamp src }

/-- Complete an entry: its DONE entry goes to the merge, unless NO_DONE asks for none on success (R51). -/
def Dev.complete (d : Dev) (e : Entry) (src code : Nat) (detail : Nat := 0) (payload : List W64 := []) : Dev :=
  let d := if code == 0 && e.noDone then d
    else { d with ev.merge := insertItem (doneItem d e src code detail payload) d.ev.merge }
  (d.updRing e.ring (fun r => { r with passed := r.passed - 1 })).passOn e.ring

/-- The islands, as block and island numbers, that the block of an entry's class needs: the course unit, the axes, the lights, the
codec, the movers, and for a capture its port (0 to 3) and its engine (4, 5). The management block is never off (R30). -/
def Dev.entryIslands (d : Dev) (e : Entry) : List Nat :=
  match e.cls with
  | 1 | 2 => [128]
  | 3 => [832]
  | 4 => [896]
  | 5 => [512]
  | 6 => [576]
  | 7 => [448 + e.f 1 1 0, 452 + d.cur Reg.CAM_PORT_CFG_ENGINE (e.f 1 1 0)]
  | _ => []

/-- The power state of an island, by 64 times its block plus its number: 0 ACTIVE, 1 CLOCK_GATED, 2 ISLAND_OFF (R29). -/
def Dev.island (d : Dev) (k : Nat) : Nat := Assoc.get d.pwr.isl k 0

/-- Work arrives for islands: a gated one is ACTIVE at once, and one that is off notes the beat in which its wait began (R29). -/
def Dev.workFor (d : Dev) (ks : List Nat) : Dev :=
  let d : Dev := { d with pwr.idle := d.pwr.idle.filter (fun p => !ks.contains p.1) }
  ks.foldl (fun d k =>
    if d.island k == 1 then { d with pwr.isl := Assoc.put d.pwr.isl k 0 0 }
    else if d.island k == 2 && !d.pwr.wake.any (fun w => w.1 == k) then
      { d with pwr.wake := d.pwr.wake ++ [(k, d.beatWide)] }
    else d) d

/-- The entry at the front of ring `n`'s way into its block, if it is of class `c` and opcode `op`; work for a block whose island is
off waits (R29). -/
def Dev.front (d : Dev) (n c op : Nat) : Option Entry :=
  match (d.ring n).inQ with
  | e :: _ => if e.cls == c && e.opcode == op && (d.entryIslands e).all (fun k => d.island k != 2) then some e else none
  | [] => none

/-- Take the front entry of ring `n`. -/
def Dev.pop (d : Dev) (n : Nat) : Dev := d.updRing n (fun r => { r with inQ := r.inQ.drop 1 })

/-- No entry of class `c` on another ring was passed on before `e`: `e` is next in its block's one queue. -/
def Dev.isNext (d : Dev) (c : Nat) (e : Entry) : Bool :=
  d.hst.rings.toList.all (fun r => match r.inQ with
    | x :: _ => x.cls != c || decide (e.seq ≤ x.seq)
    | [] => true)

/-- A scheduled entry's beat has passed (R14, R52). -/
def Dev.beatPassed (d : Dev) (b : Nat) : Bool := beatDiff b d.beat < 0

/-- A scheduled entry's beat is yet to come. -/
def Dev.beatAhead (d : Dev) (b : Nat) : Bool := beatDiff b d.beat > 0

/-! ## Bytes -/

/-- A little-endian number from bytes (R71). -/
def leNat (bs : List Byte) : Nat := bs.foldr (fun b a => b.toNat + 256 * a) 0

/-- The little-endian bytes of a number (R71). -/
def leBytes : Nat → Nat → List Byte
  | 0, _ => []
  | n + 1, v => BitVec.ofNat 8 v :: leBytes n (v / 256)

/-- The 64-bit words of a byte list, little-endian (R71). -/
def leWords : Nat → List Byte → List W64
  | 0, _ => []
  | n + 1, bs => BitVec.ofNat 64 (leNat (bs.take 8)) :: leWords n (bs.drop 8)

/-- The bytes of 64-bit words, little-endian (R71). -/
def wordBytes (ws : List W64) : List Byte := ws.flatMap (fun w => leBytes 8 w.toNat)

/-! ## Memory -/

/-- The size of the SRAM (R36, R364). -/
def sramSize : Nat := 0x4000000

/-- What a byte of memory reads as: 0 where nothing is listed (R365 for the SRAM). -/
def byteAt (cells : List Host.Cell) (a : Nat) : Byte := Assoc.get cells a 0

/-- Write one byte. -/
def putByte (cells : List Host.Cell) (a : Nat) (b : Byte) : List Host.Cell := Assoc.put cells a b 0

/-- Read `n` bytes from `a` upward. -/
def readBytes (cells : List Host.Cell) (a n : Nat) : List Byte := (List.range n).map (fun i => byteAt cells (a + i))

/-- Write bytes from `a` upward. -/
def writeBytes : List Host.Cell → Nat → List Byte → List Host.Cell
  | cells, _, [] => cells
  | cells, a, b :: t => writeBytes (putByte cells a b) (a + 1) t

/-- A 64-bit word of memory (R71). -/
def memWord (cells : List Host.Cell) (a : Nat) : W64 := BitVec.ofNat 64 (leNat (readBytes cells a 8))

/-- Add a number to a rising list. -/
def insertRising (x : Nat) : List Nat → List Nat
  | [] => [x]
  | y :: t => if x < y then x :: y :: t else if x = y then y :: t else y :: insertRising x t

/-- A strictly rising list. -/
def rising : List Nat → Bool
  | [] => true
  | x :: t => t.all (fun y => x < y) && rising t

/-- The canonical form of the memories: addresses rising, no byte listed that reads as an unlisted one does, and the poisoned words
rising. -/
def Mem.wf (m : Mem) : Bool := Assoc.wf 0 m.sram && Assoc.wf 0 m.dram && rising m.poisoned

/-- Write bytes into the SRAM. Written words are good again (R366). -/
def Mem.putSram (m : Mem) (a : Nat) (bs : List Byte) : Mem :=
  { m with sram := writeBytes m.sram a bs,
           poisoned := m.poisoned.filter (fun p => !(decide (a ≤ p * 8) && decide (p * 8 + 8 ≤ a + bs.length))) }

/-- Write bytes into the DRAM. -/
def Mem.putDram (m : Mem) (a : Nat) (bs : List Byte) : Mem := { m with dram := writeBytes m.dram a bs }

end Sys2Proof.Machine
end

