-- ==== Sys2Proof/Machine/MemOps.lean ====
section
/-!
DEFINITION. What every user of the memories shares: SRAM and DRAM error reports, the DRAM address map, and address windows
(chapter 13).
-/
namespace Sys2Proof.Machine

/-! ## SRAM errors (R366, R386) -/

/-- The report of an SRAM read at byte address `a` for requester `blk`, by MEM source `src`. -/
def Dev.sramErr (d : Dev) (src blk a : Nat) (ecc : EccRead) : Dev :=
  let ws := [BitVec.ofNat 64 a, BitVec.ofNat 64 blk]
  match ecc with
  | .clean => d
  | .corrected =>
    let d := d.bump Reg.MEM_STAT_SRAM_CE_COUNT
    if d.memc.ceSram then d else ({ d with memc.ceSram := true }).raise src 0 0xA001 0 ws
  | .uncorrectable => (d.bump Reg.MEM_STAT_SRAM_UE_COUNT).raise src 0 0xA002 0 ws

/-- The report of an SRAM read by block `blk` at byte address `a`. -/
def Dev.sramRead (d : Dev) (blk a : Nat) (ecc : EccRead) : Dev := d.sramErr 160 blk a ecc

/-- The reserved range of the SRAM: it reads 0 and ignores writes (R364). -/
def sramReserved : Nat := 0x3EC4000

/-- The part of a write of `bs` at `a` that falls in [lo, hi), moved to start at `lo'` in place of `lo`. -/
def Mem.putPart (m : Mem) (a : Nat) (bs : List Byte) (lo hi lo' : Nat) : Mem :=
  let s := max a lo
  if s < min (a + bs.length) hi then m.putSram (s - lo + lo') ((bs.drop (s - a)).take (hi - s)) else m

/-- Write bytes at `a`: the reserved range stays as it is (R364), and a write to a parameter bank writes both copies (R367). -/
def Mem.putMapped (m : Mem) (a : Nat) (bs : List Byte) : Mem :=
  if a < sramReserved then
    let m := m.putSram a (bs.take (sramReserved - a))
    (m.putPart a bs 0x2000000 0x2040000 0x2040000).putPart a bs 0x2040000 0x2080000 0x2000000
  else m

/-! ## The DRAM map (R372, R374) -/

/-- DRAM channel `c`. -/
def Dev.ddr (d : Dev) (c : Nat) : Ddr := at' d.memc.ddr c

/-- Change DRAM channel `c`. -/
def Dev.updDdr (d : Dev) (c : Nat) (f : Ddr → Ddr) : Dev := { d with memc.ddr := upd d.memc.ddr c f }

/-- The device density of channel `c` in Gb. -/
def Dev.ddrDensity (d : Dev) (c : Nat) : Nat :=
  match d.cur Reg.MEM_DDR_CFG_DENSITY c with | 0 => 16 | 1 => 24 | 2 => 32 | _ => 64

/-- The size of channel `c` in GiB while it is UP, else 0 (R372, R380). -/
def Dev.ddrSize (d : Dev) (c : Nat) : Nat :=
  if (d.ddr c).st == .up then
    (d.ddrDensity c * (if d.cur Reg.MEM_DDR_CFG_WIDTH c == 1 then 2 else 4) / 8) * (d.cur Reg.MEM_DDR_CFG_RANKS c + 1)
  else 0

/-- One GiB. -/
def gib : Nat := 2 ^ 30

/-- Addresses alternate between the channels (R374, R380). -/
def Dev.interleaved (d : Dev) : Bool := d.ddrSize 0 != 0 && d.ddrSize 0 == d.ddrSize 1

/-- The channel that holds a DRAM address; none beyond the total (R374). -/
def Dev.dramChan (d : Dev) (a : Nat) : Option Nat :=
  if a ≥ gib * (d.ddrSize 0 + d.ddrSize 1) then none
  else if d.interleaved then some (bitsOf a 12 12)
  else if a < gib * d.ddrSize 0 then some 0
  else some 1

/-- Every byte of a DRAM range exists on a channel that is UP. -/
def Dev.dramOk (d : Dev) (a len : Nat) : Bool := a + len ≤ gib * (d.ddrSize 0 + d.ddrSize 1)

/-- The key of channel `c`'s byte `off` in the DRAM. -/
def dramCell (c off : Nat) : Nat := c * 2 ^ 40 + off

/-- The channel and the byte of it that a DRAM address names (R374): blocks of 4 KiB alternate while the channels are interleaved. -/
def Dev.dramKey (d : Dev) (a : Nat) : Nat :=
  if d.interleaved then dramCell (bitsOf a 12 12) (a / 8192 * 4096 + a % 4096)
  else if a < gib * d.ddrSize 0 then dramCell 0 a
  else dramCell 1 (a - gib * d.ddrSize 0)

/-- Read `n` bytes of the DRAM from address `a` upward. -/
def Dev.dramGet (d : Dev) (m : Mem) (a n : Nat) : List Byte := (List.range n).map (fun i => byteAt m.dram (d.dramKey (a + i)))

/-- Write bytes into the DRAM from address `a` upward. -/
def Dev.dramPut (d : Dev) (m : Mem) (a : Nat) (bs : List Byte) : Mem :=
  (bs.foldl (fun (p : Mem × Nat) b => (p.1.putDram (d.dramKey p.2) [b], p.2 + 1)) (m, a)).1

/-- DDR_ADDR_ERR for an access that fails under R374. -/
def Dev.dramAddrErr (d : Dev) (a req : Nat) : Dev :=
  let c := if d.interleaved then bitsOf a 12 12 else if a < gib * d.ddrSize 0 || d.ddrSize 0 == 0 then 0 else 1
  d.raise (162 + c) c 0xA007 c [BitVec.ofNat 64 a, BitVec.ofNat 64 req]

/-- The report of a DRAM burst read for requester `req` at address `a` (R373, R374). -/
def Dev.dramRead (d : Dev) (a req : Nat) (ecc : EccRead) : Dev :=
  match d.dramChan a with
  | none => d.dramAddrErr a req
  | some c =>
    let ws := [BitVec.ofNat 64 a, BitVec.ofNat 64 req]
    match ecc with
    | .clean => d
    | .corrected =>
      let d := d.bump Reg.MEM_STAT_DRAM_CE_COUNT
      if d.memc.ceDram then d else ({ d with memc.ceDram := true }).raise (162 + c) c 0xA003 c ws
    | .uncorrectable => (d.bump Reg.MEM_STAT_DRAM_UE_COUNT).raise (162 + c) c 0xA004 c ws

end Sys2Proof.Machine
end

