-- ==== Sys2Proof/Machine/Flags.lean ====
section
/-!
DEFINITION. The REFUSED status bits of the sixteen blocks (R21) and the sticky bits set by more than one unit.
-/
namespace Sys2Proof.Machine

/-- The REFUSED bit of a block's status register (R21); none where the block has none of its own. -/
def refusedBit (blk : Nat) : Option Field :=
  match blk with
  | 1 => some Reg.HST_STATUS_REFUSED
  | 2 => some Reg.MSN_STATUS_REFUSED
  | 3 => some Reg.PTH_STATUS_REFUSED
  | 4 => some Reg.LSR_STATUS_REFUSED
  | 5 => some Reg.SRV_STATUS_REFUSED
  | 6 => some Reg.MPM_STATUS_REFUSED
  | 7 => some Reg.CAM_STATUS_REFUSED
  | 8 => some Reg.CDC_STATUS_REFUSED
  | 10 => some Reg.MEM_STATUS_REFUSED
  | 11 => some Reg.LNK_STATUS_REFUSED
  | 12 => some Reg.TMB_STATUS_REFUSED
  | 13 => some Reg.AXS_STATUS_REFUSED
  | 14 => some Reg.LGT_STATUS_REFUSED
  | 15 => some Reg.THM_STATUS_REFUSED
  | _ => none

/-- Refuse a write to a register of block `blk` (R21). -/
def Dev.refuseBlock (d : Dev) (blk : Nat) : Dev :=
  match refusedBit blk with
  | some f => d.refuse f
  | none => d

end Sys2Proof.Machine
end

