-- ==== Sys2Proof/Machine/Operands.lean ====
section
/-!
DEFINITION. The operand forms of ring entries: which operations each class has, which body bits each operation uses (every
other bit is reserved), and the classes of rings (R39, R51, R52).
-/
namespace Sys2Proof.Machine

/-- The submission classes of R39. -/
def clsBrick : Nat := 1
def clsParam : Nat := 2
def clsMove : Nat := 3
def clsLight : Nat := 4
def clsCodec : Nat := 5
def clsDma : Nat := 6
def clsCapture : Nat := 7
def clsCal : Nat := 8
/-- The completion classes of R39. -/
def clsDone : Nat := 9
def clsEvent : Nat := 10
def clsStat : Nat := 11

/-- Every bit of a word. -/
def allBits : Nat := 0xFFFFFFFFFFFFFFFF

/-- The body bits, word 1 to word 7, that an operation of a class has; none where the class has no such operation. R461 gives the MOVE class one
layout for its four operations, of which each uses some fields: one that an operation does not use is no reserved field
(R79, R86, R313, R314, R329, R346, R347, R461, R482, R519, R520). -/
def bodyBits (cls op : Nat) : Option (List Nat) :=
  match cls, op with
  | 1, 1 => some [allBits, allBits, 0, 0, 0, 0, 0]
  | 1, 2 => some [0xFFFFFFFF00000001, 0, 0, 0, 0, 0, 0]
  | 1, 3 => some [allBits, 0, 0, 0, 0, 0, 0]
  | 1, 4 => some [0xFFFFFFFF00000000, 0, 0, 0, 0, 0, 0]
  | 2, 1 => some [0xFFF, allBits, allBits, allBits, allBits, 0, 0]
  | 2, 2 => some [0xFFFFFFFFFFFFFFE0, 0x1FFF1FFF, 0, 0, 0, 0, 0]
  | 2, 3 => some [0, 0, 0, 0, 0, 0, 0]
  | 3, 1 | 3, 2 | 3, 3 | 3, 4 => some [0x10707FF, 0, 0, allBits, allBits, allBits, allBits]
  | 4, 1 => some [0x1F7F, allBits, allBits, allBits, allBits, allBits, allBits]
  | 4, 2 => some [allBits, 0, 0, 0, 0, 0, 0]
  | 4, 3 => some [0xFF, 0, 0, 0, 0, 0, 0]
  | 5, 1 => some [allBits, allBits, allBits, allBits, 0xFFFFFFFF00000000, 0xFFF8000000000000, 0]
  | 5, 2 => some [allBits, allBits, allBits, allBits, 0xFFFFFFFF00000000, 0xFFF8000000000000, 0]
  | 6, 1 => some [allBits, allBits, allBits, 0xFFFFFFFF80000000, 0, 0, 0]
  | 6, 2 => some [0x11F, 0, 0, 0, 0, 0, 0]
  | 7, 1 => some [0xFFFFFFFF00000003, allBits, allBits, allBits, allBits, 0, 0]
  | 7, 2 => some [0x3, 0, 0, 0, 0, 0, 0]
  | 7, 3 => some [0x303, allBits, 0xFFFFFFFF, 0, 0, 0, 0]
  | 8, 1 => some [allBits, 0x11F, 0, 0, 0, 0, 0]
  | 8, 2 => some [0x1F0F, 0, 0, 0, 0, 0, 0]
  | 8, 3 => some [0x3FF0F, allBits, allBits, 0xFFFFFFFF, 0, 0, 0]
  | 8, 4 => some [0x1FF0F, allBits, 0, 0, 0, 0, 0]
  | _, _ => none

/-- Every reserved bit of the entry is 0 (R52 check 3): bit 48 of word 0 and every body bit the operation does not use. -/
def reservedClear (e : Entry) (masks : List Nat) : Bool :=
  e.f 0 48 48 == 0 && (List.range 7).all (fun i => (e.w (i + 1)).toNat &&& masks.getD i 0 == (e.w (i + 1)).toNat)

/-- The checks of R52, in order: the code of the first that fails. -/
def Dev.entryCheck (d : Dev) (cls : Nat) (e : Entry) : Option Nat :=
  if e.cls != cls then some 0x1001
  else match bodyBits cls e.opcode with
    | none => some 0x1002
    | some m =>
      if !reservedClear e m then some 0x1003
      else if e.sched && d.beatPassed e.startBeat && !(cls == clsBrick && e.opcode == 1) then some 0x1004
      else none

/-- A class of submission rings (R39). -/
def isSubmission (c : Nat) : Bool := 1 ≤ c && c ≤ 8

/-- A class of completion rings (R39). -/
def isCompletion (c : Nat) : Bool := 9 ≤ c && c ≤ 11

/-! ## The NTC formula (R485, R500) -/

/-- The sum of z^(2j+1) / (2j+1) over j below `n`, with z in 2^-64: `p` is the running power and `j` its index. -/
def atanhSum : Nat → Nat → Int → Int → Int
  | 0, _, _, _ => 0
  | n + 1, j, p, zz => p / ((2 * j + 1 : Nat) : Int) + atanhSum n (j + 1) (p * zz / 18446744073709551616) zz

/-- 2 atanh(a / b) in 2^-64. -/
def twoAtanh (a b : Int) : Int :=
  let z := a * 18446744073709551616 / b
  2 * atanhSum 42 0 z (z * z / 18446744073709551616)

/-- The natural logarithm of a / b in 2^-64, for positive numbers below 2^32: a / b is brought into [1, 2) by powers of two. -/
def lnRatio (a b : Nat) : Int :=
  let k : Int := (a.log2 : Int) - (b.log2 : Int)
  let k := if (if k ≥ 0 then a < b * 2 ^ k.toNat else a * 2 ^ (-k).toNat < b) then k - 1 else k
  let a' : Int := if k ≥ 0 then (a : Int) else (a * 2 ^ (-k).toNat : Nat)
  let b' : Int := if k ≥ 0 then ((b * 2 ^ k.toNat : Nat) : Int) else (b : Int)
  k * twoAtanh 1 3 + twoAtanh (a' - b') (a' + b')

/-- T_c in 2^-32 °C for a resistance in Ω, R25 in Ω and BETA; none where the formula divides by 0 (R485). -/
def ntcTemp (r r25 beta : Nat) : Option Int :=
  if r == 0 || r25 == 0 || beta == 0 then none
  else
    let q : Int := 20 * beta * 18446744073709551616 + 5963 * lnRatio r r25
    if q == 0 then none
    else some ((5963 * beta * 79228162514264337593543950336 : Int) / q - 27315 * 4294967296 / 100)

end Sys2Proof.Machine
end

