-- ==== Sys2Proof/Machine/Hst.lean ====
section
/-!
DEFINITION. HST: the link, the rings, the doorbell table, completion entries and MSI-X (chapter 02).
-/
namespace Sys2Proof.Machine

/-! ## The PCIe function (R34) -/

/-- What configuration space says of the function. -/
structure PcieFunction where
  vendorId : BitVec 16
  deviceId : BitVec 16
  revisionId : BitVec 8
  classCode : BitVec 24
  subsystemVendor : BitVec 16
  subsystemId : BitVec 16
  headerType : BitVec 8
  interruptPin : BitVec 8
  /-- Sizes in bytes of BAR0/BAR1 (non-prefetchable) and of BAR2/BAR3 (prefetchable); no other BAR and no expansion ROM. -/
  bar0 : Nat
  bar2 : Nat
  msixVectors : Nat
  maxPayload : Nat
  maxReadRequest : Nat
  outstanding : Nat
  serialNumber : BitVec 64
  deriving DecidableEq, Repr

/-- The one function of the XM16 (R34): its serial number is bits [127:64] of the identity record. -/
def pcieFunction : PcieFunction :=
  { vendorId := 0x1FD3, deviceId := 0x0016, revisionId := 0, classCode := 0x118000,
    subsystemVendor := Config.subsystemVendor, subsystemId := Config.subsystemId, headerType := 0, interruptPin := 0,
    bar0 := 0x1000000, bar2 := sramSize, msixVectors := 256, maxPayload := 512, maxReadRequest := 4096, outstanding := 256,
    serialNumber := identity.extractLsb' 64 64 }

/-! ## The link and its requests (R38, R64) -/

/-- HST may issue requests (R38). -/
def Dev.canRequest (d : Dev) : Bool := d.hst.linkUp && d.hst.bme && !d.hst.d3hot

/-- The HST register blocks' own fields: everything in block 1 of a field map. -/
def inHst (p : Nat × Nat) : Bool := 0x100000 * 64 ≤ p.1 && p.1 < 0x200000 * 64

/-! ## Rings (R39 to R50) -/

/-- The fields of a ring's registers as they act (R20). -/
def Dev.ringClass (d : Dev) (n : Nat) : Nat := d.act Reg.HST_RING_CFG_CLASS n
def Dev.ringLog2 (d : Dev) (n : Nat) : Nat := d.act Reg.HST_RING_CFG_LOG2_SIZE n
def Dev.ringBase (d : Dev) (n : Nat) : Nat := d.act Reg.HST_RING_BASE_ADDR n * 64

/-- ENABLE of ring `n` as written: what the checks of a later write look at. -/
def Dev.ringEnabled (d : Dev) (n : Nat) : Bool := d.cur Reg.HST_RING_CFG_ENABLE n == 1

/-- Entries of ring `n` fetched or being fetched, and not completed. -/
def Dev.outstanding (d : Dev) (n : Nat) : Nat := (d.ring n).fetching + (d.ring n).passed + (d.ring n).fenced.length

/-- RING_STATUS.STATE (R68): 0 DISABLED, 1 ACTIVE, 2 ERROR, 3 DRAINING. -/
def Dev.ringState (d : Dev) (n : Nat) : Nat :=
  match (d.ring n).st with
  | .active => 1
  | .error => 2
  | .disabled => if isSubmission (d.ringClass n) && d.outstanding n ≠ 0 then 3 else 0

/-- The slot address of index `i` of ring `n` (R41). -/
def Dev.slotAddr (d : Dev) (n i : Nat) : Nat := d.ringBase n + 64 * (i % 2 ^ d.ringLog2 n)

/-- The 32-bit difference of two ring indices (R41). -/
def idxDiff (a b : Nat) : Nat := (a + 2 ^ 32 - b) % 2 ^ 32

/-- The entries an EVENT or STAT ring holds back are lost, and so counted, before those already lost (R50, R55). -/
def loseHeld (q : List Item) (l : Option Loss) : Option Loss :=
  match q with
  | [] => l
  | x :: t =>
    let last := (t.getLast?.getD x).stamp
    some (match l with
      | some l => { l with count := min (l.count + q.length) 0xFFFFFFFF, first := x.stamp }
      | none => { count := q.length, first := x.stamp, last })

/-- Put a ring into ERROR with a code, and raise the code (R45, R69): the ring and HST's own index go with it. What a completion ring holds
back is lost with it, and counted for an EVENT or STAT ring (R50). -/
def Dev.ringError (d : Dev) (n src code : Nat) : Dev :=
  let r := d.ring n
  let counted := d.ringClass n == clsEvent || d.ringClass n == clsStat
  let d := d.updRing n (fun r => { r with st := .error, lastError := code, fetching := 0, holdQ := [],
                                          loss := if counted then loseHeld r.holdQ r.loss else r.loss })
  let d := if counted then d.bump Reg.HST_RING_COUNTS_LOST r.holdQ.length n else d
  d.raise src n code n [BitVec.ofNat 64 r.index]

/-- The read of an entry's body failed: its ring goes to ERROR and the entry completes FETCH_ERR (R69). -/
def Dev.bodyFetchErr (d : Dev) (e : Entry) : Dev := (d.complete e 16 0x1006 e.ring).ringError e.ring 16 0x1006

/-! ## Enabling, disabling and setting up (R40, R48, R49, R50, R62, R67) -/

/-- Ring `n` is enabled with class `c`, as written. -/
def Dev.enabledAs (d : Dev) (n c : Nat) : Bool := d.ringEnabled n && d.cur Reg.HST_RING_CFG_CLASS n == c

/-- The conditions of R48 under which an enable of ring `n` with the CFG word `v` is refused. -/
def Dev.enableRefused (d : Dev) (n : Nat) (v : W64) : Bool :=
  let c := Reg.HST_RING_CFG_CLASS.of v
  let k := Reg.HST_RING_CFG_LOG2_SIZE.of v
  !(isSubmission c || isCompletion c) || k < 4 || k > 16 ||
    (d.cur Reg.HST_RING_BASE_ADDR n * 64) % (min 4096 (64 * 2 ^ k)) != 0 ||
    (isSubmission c && !d.enabledAs (Reg.HST_RING_CFG_DONE_RING.of v) clsDone) ||
    (Reg.HST_RING_CFG_FOREIGN.of v == 1 && c != clsEvent)

/-- Set ENABLE of ring `n`, or refuse it (R48); the ring starts at the next beat or service edge (R20). -/
def Dev.ringEnable (d : Dev) (n : Nat) (v : W64) : Dev :=
  if d.enableRefused n v then
    let i := (d.ring n).index
    ((d.refuse Reg.HST_STATUS_REFUSED).updRing n (fun r => { r with lastError := 0x100C })).raise 16 n 0x100C n
      [BitVec.ofNat 64 i]
  else d.store Reg.HST_RING_CFG v n 0

/-- Some enabled submission ring names ring `n` as DONE_RING, or an enabled route names it (R49). -/
def Dev.ringNamed (d : Dev) (n : Nat) : Bool :=
  (List.range 64).any (fun m => d.ringEnabled m && isSubmission (d.cur Reg.HST_RING_CFG_CLASS m) && d.cur Reg.HST_RING_CFG_DONE_RING m == n) ||
  (List.range 16).any (fun b =>
    (d.cur Reg.HST_EVT_ROUTE_EVT_EN b == 1 && d.cur Reg.HST_EVT_ROUTE_EVT_RING b == n) ||
    (d.cur Reg.HST_EVT_ROUTE_STAT_EN b == 1 && d.cur Reg.HST_EVT_ROUTE_STAT_RING b == n)) ||
  (d.cur Reg.HST_FOREIGN_ROUTE_EVT_EN == 1 && d.cur Reg.HST_FOREIGN_ROUTE_EVT_RING == n)

/-- A ring stops: a submission ring drains, and nothing more is written to a completion ring (R50). What an EVENT or STAT ring lost in ERROR
is kept for its next enable. -/
def Ring.stopped (r : Ring) : Ring :=
  { r with st := .disabled, holdQ := [], loss := if r.st == .error then r.loss else none }

/-- Clear ENABLE of ring `n`, where R49 allows it: writes to a completion ring stop at once (R50), and a submission ring drains from the
next beat or service edge (R20). -/
def Dev.ringDisable (d : Dev) (n : Nat) (v : W64) : Dev :=
  let completion := isCompletion (d.cur Reg.HST_RING_CFG_CLASS n)
  if d.changes Reg.HST_RING_CFG [Reg.HST_RING_CFG_ENABLE] v n ||
      (completion && (d.ring n).st != .error && d.ringNamed n) then d.refuse Reg.HST_STATUS_REFUSED
  else
    let d := d.store Reg.HST_RING_CFG v n 0
    if completion then d.updRing n Ring.stopped else d

/-- At a beat or service edge ring `n` takes its ENABLE as sampled: a disabled ring starts from index 0, and one that runs or stands in
ERROR stops (R20, R48, R50). -/
def Dev.ringEdge (d : Dev) (n : Nat) : Dev :=
  match (d.ring n).st, d.on Reg.HST_RING_CFG_ENABLE n with
  | .disabled, true =>
    { d.updRing n (fun r => { r with st := .active, index := 0, host := 0, fetching := 0, evSeq := 0, unsignalled := 0, firstBeat := none,
                                     holdQ := [] }) with hst.wbDirty := d.hst.wbDirty || (d.ring n).index != 0 }
  | .active, false | .error, false => d.updRing n Ring.stopped
  | _, _ => d

/-- A write of HST_RING_n_CFG (R48 to R50). -/
def Dev.writeRingCfg (d : Dev) (n : Nat) (v : W64) : Dev :=
  let en := Reg.HST_RING_CFG_ENABLE.of v == 1
  if d.ringEnabled n then
    if !en then d.ringDisable n v
    else d.storeIf Reg.HST_STATUS_REFUSED (!d.changes Reg.HST_RING_CFG [] v n) Reg.HST_RING_CFG v n
  else if en then d.ringEnable n v
  else d.store Reg.HST_RING_CFG v n 0

/-- A write of HST_EVT_ROUTE_b (R67). -/
def Dev.writeRoute (d : Dev) (b : Nat) (v : W64) : Dev :=
  let evOk := Reg.HST_EVT_ROUTE_EVT_EN.of v == 0 || d.enabledAs (Reg.HST_EVT_ROUTE_EVT_RING.of v) clsEvent
  let stOk := Reg.HST_EVT_ROUTE_STAT_EN.of v == 0 || d.enabledAs (Reg.HST_EVT_ROUTE_STAT_RING.of v) clsStat
  d.storeIf Reg.HST_STATUS_REFUSED (evOk && stOk) Reg.HST_EVT_ROUTE v b

/-- A write of HST_FOREIGN_ROUTE (R56, R67). -/
def Dev.writeForeignRoute (d : Dev) (v : W64) : Dev :=
  let n := Reg.HST_FOREIGN_ROUTE_EVT_RING.of v
  d.storeIf Reg.HST_STATUS_REFUSED
    (Reg.HST_FOREIGN_ROUTE_EVT_EN.of v == 0 || (d.enabledAs n clsEvent && d.cur Reg.HST_RING_CFG_FOREIGN n == 1))
    Reg.HST_FOREIGN_ROUTE v

/-- A write of an HST register with a 64-bit field layout (R21, R49, R62 to R68). -/
def Dev.writeHst (d : Dev) (r : RegDef) (v : W64) (i j : Nat) : Dev :=
  if r.addr = Reg.HST_RING_CFG.addr then d.writeRingCfg i v
  else if r.addr = Reg.HST_EVT_ROUTE.addr then d.writeRoute i v
  else if r.addr = Reg.HST_FOREIGN_ROUTE.addr then d.writeForeignRoute v
  else
    let ok : Bool :=
      if r.addr = Reg.HST_CTL.addr then decide (5 ≤ Reg.HST_CTL_POLL_LOG2.of v) && decide (Reg.HST_CTL_POLL_LOG2.of v ≤ 12)
      else if r.addr = Reg.HST_DB_BASE.addr || r.addr = Reg.HST_WB_BASE.addr then
        (List.range 64).all (fun n => !d.ringEnabled n)
      else if r.addr = Reg.HST_RING_BASE.addr then !d.ringEnabled i
      else true
    d.storeIf Reg.HST_STATUS_REFUSED ok r v i j

/-! ## MSI-X (R60, R61) -/

/-- Messages may go out: HST may issue requests, MSI-X is enabled and the function as a whole is not masked (R60). -/
def Dev.msixOpen (d : Dev) : Bool := d.canRequest && d.hst.msixEnable && !d.hst.msixMask

/-- Signal a vector: its message goes out, or its pending bit is set while it is masked or no message may go out. -/
def Dev.signal (d : Dev) (vec : Nat) : Dev :=
  let m := at' d.hst.msix vec
  if m.ctrl.getLsbD 0 || !d.msixOpen then
    { d with hst.msix := upd d.hst.msix vec (fun m => { m with pending := true }) }
  else d.emit (.msix vec m.addr m.data)

/-- A vector that is pending and no longer masked sends its message. -/
def Dev.sendPending (d : Dev) (vec : Nat) : Dev :=
  let m := at' d.hst.msix vec
  if m.pending && !m.ctrl.getLsbD 0 && d.msixOpen then
    ({ d with hst.msix := upd d.hst.msix vec (fun m => { m with pending := false }) }).emit (.msix vec m.addr m.data)
  else d

/-- HST may issue requests again: every message that waits and is not masked goes out. -/
def Dev.sendAllPending (d : Dev) : Dev := forRange 256 d (fun d v => d.sendPending v)

/-- Ring `n` signals its vector and starts a new count (R61). -/
def Dev.ringSignal (d : Dev) (n : Nat) : Dev :=
  (d.updRing n (fun r => { r with unsignalled := 0, firstBeat := none })).signal (d.act Reg.HST_RING_IRQ_VECTOR n)

/-- One dword of the MSI-X table at dword index `k` of its 1,024 (R60): address low, address high, data, vector control. -/
def Dev.msixDword (d : Dev) (k : Nat) : W32 :=
  let m := at' d.hst.msix (k / 4)
  match k % 4 with
  | 0 => m.addr.extractLsb' 0 32
  | 1 => m.addr.extractLsb' 32 32
  | 2 => m.data
  | _ => m.ctrl

/-- Write one dword of the MSI-X table; unmasking sends a pending message (R60, R61). -/
def Dev.setMsixDword (d : Dev) (k : Nat) (v : W32) : Dev :=
  let d := { d with hst.msix := upd d.hst.msix (k / 4) (fun m =>
    match k % 4 with
    | 0 => { m with addr := m.addr.extractLsb' 32 32 ++ v }
    | 1 => { m with addr := v ++ m.addr.extractLsb' 0 32 }
    | 2 => { m with data := v }
    | _ => { m with ctrl := v &&& 1 }) }
  d.sendPending (k / 4)

/-- One dword of the pending bit array (R60). -/
def Dev.pbaDword (d : Dev) (k : Nat) : W32 := BitVec.ofNat 32 (bitset 32 (fun i => (at' d.hst.msix (32 * k + i)).pending))

/-- A dword of the MSI-X area, by its offset in the HST block (R60). -/
def Dev.msixRead32 (d : Dev) (off : Nat) : W32 :=
  if off < 0x41000 then d.msixDword ((off - 0x40000) / 4) else d.pbaDword ((off - 0x41000) / 4)

/-- The offset lies in the MSI-X table or the pending bit array (R60). -/
def inMsix (off : Nat) : Bool := 0x40000 ≤ off && off < 0x41020

/-- An access to the MSI-X table or pending bit array: it acts at once on its own dwords (R60). -/
def Dev.msixAccess (d : Dev) (off : Nat) (acc : MsixAccess) : Dev :=
  let setAt := fun (d : Dev) (o : Nat) (v : W32) => if o < 0x41000 then d.setMsixDword ((o - 0x40000) / 4) v else d
  if !inMsix off then d
  else match acc with
    | .write32 v => setAt d off v
    | .write64 v => setAt (setAt d off (v.extractLsb' 0 32)) (off + 4) (v.extractLsb' 32 32)
    | .read32 => d.emit (.regValue .host ((d.msixRead32 off).zeroExtend 64))
    | .read64 => d.emit (.regValue .host (d.msixRead32 (off + 4) ++ d.msixRead32 off))

/-! ## Writing completion entries (R42, R53, R55) -/

/-- The eight words of the entry at index `i` of a ring of 2^k entries (R42, R53). -/
def entryWords (k i subIndex : Nat) (x : Item) : List W64 :=
  let phase := 1 - bitsOf i k k
  let (kind, src, tag, sub) := match x.kind with
    | .done ring idx tag => (1, ring, tag, idx)
    | .event _ => (2, 0, 0, subIndex)
    | .foreignEvent => (2, 0, 0, subIndex)
    | .stat _ t => (3, 0, t, 0)
  let w0 := pack [(phase, 63), (kind, 60), (src, 54), (tag % 65536, 32), (x.code, 16)]
  let w1 := pack [(sub % 2 ^ 32, 32), (x.detail, 0)]
  w0 :: w1 :: x.stamp.words ++ (List.range 4).map (fun j => x.payload.getD j 0)

/-- Free entries of a completion ring (R41). -/
def Dev.ringFree (d : Dev) (n : Nat) : Nat :=
  2 ^ d.ringLog2 n - idxDiff (d.ring n).index (d.ring n).host

/-- Write one entry at the ring's index: bytes 8 to 63 first, then bytes 0 to 7 (R53); then signal if due (R61). -/
def Dev.writeEntry (d : Dev) (n : Nat) (x : Item) : Dev :=
  let r := d.ring n
  let ws := entryWords (d.ringLog2 n) r.index (if d.ringClass n == clsStat then 0 else r.evSeq) x
  let a := d.slotAddr n r.index
  let d := (d.emit (.hostWrite (a + 8) (ws.drop 1))).emit (.hostWrite a (ws.take 1))
  let d := { d with hst.wbDirty := true }
  let d := d.bump Reg.HST_RING_COUNTS_ENTRIES 1 n
  let d := d.updRing n (fun r => { r with
    index := (r.index + 1) % 2 ^ 32, unsignalled := r.unsignalled + 1,
    firstBeat := r.firstBeat.or (some d.beat),
    evSeq := (r.evSeq + 1) % 2 ^ 32 })
  if d.act Reg.HST_RING_IRQ_IRQ_EN n == 1 && max 1 (d.act Reg.HST_RING_IRQ_MOD_COUNT n) ≤ (d.ring n).unsignalled then
    d.ringSignal n
  else d

/-- Lose an entry meant for an EVENT or STAT ring (R50, R55). -/
def Dev.loseEntry (d : Dev) (n : Nat) (x : Item) : Dev :=
  (d.updRing n (fun r => { r with loss := some (match r.loss with
    | some l => { l with count := min (l.count + 1) 0xFFFFFFFF, last := x.stamp }
    | none => { count := 1, first := x.stamp, last := x.stamp }) })).bump Reg.HST_RING_COUNTS_LOST 1 n

/-- The EVT_LOST entry of a loss period (R55): KIND EVENT on every ring, source 19, SUB_INDEX 0 on a STAT ring. -/
def lostItem (l : Loss) : Item :=
  { kind := .foreignEvent, code := 0x1008, detail := l.count, payload := l.last.words,
    stamp := { l.first with source := 19 } }

/-- Write out what the ring holds back while it has room: the hold queue, then the EVT_LOST entry (R55). -/
def Dev.flushHeld (d : Dev) (n : Nat) : Nat → Dev
  | 0 => d
  | fuel + 1 =>
    let r := d.ring n
    if !(r.st == .active && d.canRequest && 0 < d.ringFree n) then d
    else match r.holdQ, r.loss with
      | x :: t, _ => Dev.flushHeld ((d.updRing n (fun r => { r with holdQ := t })).writeEntry n x) n fuel
      | [], some l =>
        (d.updRing n (fun r => { r with loss := none })).writeEntry n (lostItem l)
      | [], none => d

/-- Flush every completion ring. -/
def Dev.flushRings (d : Dev) : Dev :=
  forRange 64 d (fun d n => if isCompletion (d.ringClass n) then d.flushHeld n ((d.ring n).holdQ.length + 1) else d)

/-- Deliver an item to ring `n` under flow control (R50, R55): a DONE entry's slot was reserved, an EVENT or STAT entry may
be held or lost. -/
def Dev.deliver (d : Dev) (n : Nat) (x : Item) : Dev :=
  let r := d.ring n
  let isDone := match x.kind with | .done .. => true | _ => false
  match r.st with
  | .disabled => d
  | .error => if isDone then d else d.loseEntry n x
  | .active =>
    if r.loss.isSome && !isDone then d.loseEntry n x
    else if r.holdQ.isEmpty && d.canRequest && 0 < d.ringFree n then d.writeEntry n x
    else if isDone || r.holdQ.length < 32 then d.updRing n (fun r => { r with holdQ := r.holdQ ++ [x] })
    else d.loseEntry n x

/-- The completion ring an item goes to, if it is routed (R37, R56): a DONE entry to its ring's DONE ring, events and
records by the route of their block. A FOREIGN ring receives no local event. -/
def Dev.ringFor (d : Dev) (x : Item) : Option Nat :=
  match x.kind with
  | .done ring _ _ =>
    let n := d.act Reg.HST_RING_CFG_DONE_RING ring
    if d.ringClass n == clsDone then some n else none
  | .event b =>
    let n := d.act Reg.HST_EVT_ROUTE_EVT_RING b
    if d.on Reg.HST_EVT_ROUTE_EVT_EN b && !d.on Reg.HST_RING_CFG_FOREIGN n then some n else none
  | .stat b _ => if d.act Reg.HST_EVT_ROUTE_STAT_EN b == 1 then some (d.act Reg.HST_EVT_ROUTE_STAT_RING b) else none
  | .foreignEvent =>
    if d.act Reg.HST_FOREIGN_ROUTE_EVT_EN == 1 then some (d.act Reg.HST_FOREIGN_ROUTE_EVT_RING) else none

/-- The HST error codes that signal HST_ERR_IRQ when they have no EVENT route (R61, R65): DB_INVALID, FETCH_ERR, DB_FETCH_ERR, LINK_DOWN and
BAD_RING_CFG. That FLR_DONE is no error is the model's choice (log entry 112). -/
def hstErrorCode (c : Nat) : Bool := [0x1005, 0x1006, 0x1007, 0x100A, 0x100C].contains c

/-- An HST error with no EVENT route signals its own vector (R61). -/
def Dev.hstErrIrq (d : Dev) (x : Item) : Dev :=
  if hstErrorCode x.code && x.isEvent && d.act Reg.HST_EVT_ROUTE_EVT_EN 1 == 0 && d.act Reg.HST_ERR_IRQ_EN == 1 then
    d.signal (d.act Reg.HST_ERR_IRQ_VECTOR)
  else d

/-! ## Doorbells and fetching (R44 to R47) -/

/-- DOORBELL_POLL (R44): in cycle 0, once in a beat that is due for it, one 512 B read, or a skipped poll. -/
def Dev.doorbellPoll (d : Dev) : Dev :=
  if d.on Reg.HST_DB_BASE_EN && d.canRequest && d.tmb.cycle == 0 && d.hst.polled != d.beatWide &&
      d.beatMultiple (2 ^ d.act Reg.HST_CTL_POLL_LOG2) then
    let d := { d with hst.polled := d.beatWide }
    if d.hst.dbOut then d.bump Reg.HST_DB_SKIPS_COUNT
    else ({ d with hst.dbOut := true }).emit (.hostRead (d.act Reg.HST_DB_BASE_ADDR * 512) 512)
  else d

/-- The depth of the input queue of a class's receiving block (R46, R79, R313, R331, R343, R461, R482, R519); BRICK entries
have no queue of their own. -/
def queueDepth (c : Nat) : Nat :=
  match c with
  | 2 => 64 | 3 => 16 | 4 => 16 | 5 => 8 | 6 => 16 | 7 => 4 | 8 => 8 | _ => 0

/-- Entries of class `c` in or on their way to their block's queue. -/
def Dev.queued (d : Dev) (c : Nat) : Nat :=
  (List.range 64).foldl (fun a n =>
    a + (((d.ring n).inQ ++ (d.ring n).fenced).filter (fun e => e.cls == c)).length +
      (if d.ringClass n == c then (d.ring n).fetching else 0)) 0

/-- Free slots of the DONE ring that ring `n` names, less one for every entry fetched by any ring bound to it and not yet
completed, and for every DONE entry not yet written (R46). -/
def Dev.doneRoom (d : Dev) (n : Nat) : Nat :=
  let dr := d.act Reg.HST_RING_CFG_DONE_RING n
  if (d.ring dr).st != .active then 0
  else
    let bound := (List.range 64).foldl (fun a m =>
      if isSubmission (d.ringClass m) && d.act Reg.HST_RING_CFG_DONE_RING m == dr then a + d.outstanding m else a) 0
    let waiting := (d.ev.merge.filter (fun x => match x.kind with
      | .done ring _ _ => d.act Reg.HST_RING_CFG_DONE_RING ring == dr
      | _ => false)).length
    d.ringFree dr - bound - waiting - (d.ring dr).holdQ.length

/-- Requests of at most 4 KiB for `n` entries from index `i` of a ring: one request for each run of slots. -/
def Dev.fetchRequests (d : Dev) (ring i n : Nat) : Nat → Dev
  | 0 => d
  | fuel + 1 =>
    if n = 0 then d
    else
      let slot := i % 2 ^ d.ringLog2 ring
      let m := min n (min 64 (2 ^ d.ringLog2 ring - slot))
      Dev.fetchRequests (d.emit (.hostRead (d.slotAddr ring i) (64 * m))) ring (i + m) (n - m) fuel

/-- Fetch new entries of submission ring `n`, as far as R38, R46 and `room` allow. -/
def Dev.fetchRing (d : Dev) (n : Nat) (room : Nat) : Dev :=
  let r := d.ring n
  let avail := idxDiff r.host r.index - r.fetching
  let m := min (min avail 64) (min (d.doneRoom n) room)
  (d.fetchRequests n (r.index + r.fetching) m (m + 1)).updRing n (fun r => { r with fetching := r.fetching + m })

/-- The rings in the order R46 takes them: descending PRIO, then ascending number. -/
def Dev.fetchOrder (d : Dev) : List Nat :=
  [3, 2, 1, 0].flatMap (fun p => (List.range 64).filter (fun n => d.act Reg.HST_RING_CFG_PRIO n == p))

/-- Check one ring's doorbell value (R45): in range it becomes the host's index, else the ring goes to ERROR. -/
def Dev.takeDoorbell (d : Dev) (n v : Nat) : Dev :=
  let r := d.ring n
  if r.st != .active then d
  else
    let dist := if isSubmission (d.ringClass n) then idxDiff v r.index else idxDiff r.index v
    if dist ≤ 2 ^ d.ringLog2 n then d.updRing n (fun r => { r with host := v })
    else d.ringError n 17 0x1005

/-- After a poll's entries have all returned, HST writes its indices back if any changed (R47). -/
def Dev.writeBack (d : Dev) : Dev :=
  if d.act Reg.HST_WB_BASE_EN == 1 && d.hst.wbDirty && d.canRequest &&
      (List.range 64).all (fun n => (d.ring n).fetching == 0) then
    ({ d with hst.wbDirty := false }).emit (.hostWrite (d.act Reg.HST_WB_BASE_ADDR * 512)
      ((List.range 64).map (fun n => BitVec.ofNat 64 (d.ring n).index)))
  else d

/-- An entry passes to its block, or waits behind its fence (R51). -/
def Dev.acceptEntry (d : Dev) (e : Entry) : Dev :=
  ((d.workFor (d.entryIslands e)).updRing e.ring (fun r => { r with fenced := r.fenced ++ [e] })).passOn e.ring

/-- One fetched entry of ring `n` arrives (R52, R69). -/
def Dev.entryArrival (d : Dev) (n : Nat) (rd : EntryRead) : Dev :=
  let r := d.ring n
  if r.fetching = 0 || r.st == .error then d
  else
    let e : Entry := { ring := n, idx := r.index, words := match rd with | .ok ws => ws | .failWithTag w0 => [w0] | .fail => [] }
    let next := fun (d : Dev) => { d.updRing n (fun r =>
      { r with index := (r.index + 1) % 2 ^ 32, fetching := r.fetching - 1 }) with hst.wbDirty := true }
    let d := match rd with
      | .ok _ =>
        let d := (next d).bump Reg.HST_RING_COUNTS_ENTRIES 1 n
        match d.entryCheck (d.ringClass n) e with
        | some code =>
          ((d.updRing n (fun r => { r with passed := r.passed + 1 })).complete e 16 code).bump Reg.HST_RING_COUNTS_LOST 1 n
        | none => d.acceptEntry e
      | .failWithTag _ =>
        let d := (next d).updRing n (fun r => { r with passed := r.passed + 1 })
        d.bodyFetchErr e
      | .fail => d.ringError n 16 0x1006
    d.writeBack

/-- The doorbell table returns (R45, R46), or its read failed (R44). -/
def Dev.doorbellReturn (d : Dev) (table : Option (List W32)) (room : Dev → Nat → Nat) : Dev :=
  if !d.hst.dbOut then d
  else
    let d := { d with hst.dbOut := false }
    match table with
    | none => (d.orFlag Reg.HST_STATUS_DB_FETCH_ERR 1).raise 17 0 0x1007 0
    | some t =>
      let d := forRange 64 d (fun d n => d.takeDoorbell n (t.getD n 0).toNat)
      let d := d.flushRings
      let d := d.fetchOrder.foldl (fun d n =>
        if d.canRequest && (d.ring n).st == .active && isSubmission (d.ringClass n) then d.fetchRing n (room d n) else d) d
      d.writeBack

/-! ## Link changes and function-level reset (R37, R38, R64) -/

/-- The speeds and widths to which the link can train (R35): 5, 8 or 16 GT/s, as R64 numbers them, over 1, 2, 4 or 8 lanes. -/
def linkTrains (speed width : Nat) : Bool := [2, 3, 4].contains speed && [1, 2, 4, 8].contains width

/-- The link comes up with its negotiated speed and width (R35, R64). -/
def Dev.linkUpWith (d : Dev) (speed width : Nat) : Dev :=
  if d.hst.perst then d else { d with hst.linkUp := true, hst.speed := speed, hst.width := width }

/-- Requests outstanding at HST are abandoned (R38). -/
def Dev.abandonReads (d : Dev) : Dev :=
  { d with hst.dbOut := false, hst.rings := d.hst.rings.map (fun r => { r with fetching := 0 }) }

/-- Function-level reset (R37): every HST register to its reset value, the MSI-X table cleared, every ring disabled, and
FLR_SEEN set. Entries already passed on stay in their blocks; the link itself stands. -/
def Dev.flr (d : Dev) : Dev :=
  let keep := fun (m : FieldMap) => m.filter (fun p => !inHst p)
  let g := d.regs
  let d := { d with
    regs := { g with rw := keep g.rw, rwAct := keep g.rwAct, w1c := keep g.w1c, cnt := keep g.cnt, rol := keep g.rol },
    hst := { d.hst with bme := false, d3hot := false, msixEnable := false, msixMask := false, dbOut := false, wbDirty := false,
                        msix := Vector.replicate 256 {},
                        rings := d.hst.rings.map (fun (r : Ring) =>
                          { passed := r.passed, fenced := r.fenced, inQ := r.inQ : Ring }) } }
  (d.orFlag Reg.HST_STATUS_FLR_SEEN 1).raise 18 0 0x100B 0

end Sys2Proof.Machine
end

