-- ==== Sys2Proof/Machine/Line.lean ====
section
/-!
DEFINITION. The lines of the Beat Link ports: 64b/66b blocks, the scrambler, SKIP and ALIGN pairs, frames as blocks, and the receiver's
elastic buffer (R394 to R398, R405).
-/
namespace Sys2Proof.Machine

/-! ## CRC-32 (R84) -/

/-- Eight steps of the reflected CRC-32 register. -/
def crcBits : Nat → Nat → Nat
  | 0, c => c
  | n + 1, c => crcBits n (if c % 2 = 1 then (c / 2) ^^^ 0xEDB88320 else c / 2)

/-- The CRC-32 register over bytes. -/
def crcLoop : List Byte → Nat → Nat
  | [], c => c
  | b :: t, c => crcLoop t (crcBits 8 (c ^^^ b.toNat))

/-- The CRC-32 of RFC 1952 (R84). -/
def crc32 (bs : List Byte) : Nat := crcLoop bs 0xFFFFFFFF ^^^ 0xFFFFFFFF

/-! ## Blocks (R395, R398) -/

/-- A control block of a type, with its content in bits [55:0]. -/
def ctrlBlock (ty content : Nat) : BlBlock := ⟨true, pack [(ty, 56), (content, 0)]⟩

/-- The type of a control block; none of a data block. -/
def BlBlock.type (b : BlBlock) : Option Nat := if b.control then some (wbits b.word 63 56) else none

def idleBlock : BlBlock := ctrlBlock 0x1E 0
def skipBlock : BlBlock := ctrlBlock 0x55 0

/-- The virtual lane of a frame: 1 for BRICK, 0 for every other type (R398). -/
def frameVl (f : Frame) : Nat := if f.ftype == 1 then 1 else 0

/-- The CRC-32 of a frame: over the seven bytes of its START content and the bytes of its data words, in order (R395). -/
def frameCrc (start : W64) (ws : List W64) : Nat := crc32 ((wordBytes [start]).take 7 ++ wordBytes ws)

/-- The START block of a frame (R398). -/
def frameStart (f : Frame) : BlBlock :=
  ⟨true, pack [(0x78, 56), (f.ftype % 16, 52), (frameVl f, 51), (f.dst % 1024, 41), (f.src % 1024, 31), (f.hops % 32, 26),
    (f.words.length % 16384, 12), (f.seq % 4096, 0)]⟩

/-- A frame's blocks: START, its data words, END (R398). -/
def frameBlocks (f : Frame) : List BlBlock :=
  frameStart f :: f.words.map (fun w => (⟨false, w⟩ : BlBlock)) ++ [ctrlBlock 0xE1 (frameCrc (frameStart f).word f.words * 2 ^ 24)]

/-- What a receiver reads from a frame's blocks, and whether the words are as many as START says and the CRC is good (R402). -/
def frameOfBlocks (bs : List BlBlock) : Frame × Bool :=
  let s := (bs.headD idleBlock).word
  let ws := ((bs.drop 1).dropLast).map BlBlock.word
  ({ ftype := wbits s 55 52, hops := wbits s 30 26, dst := wbits s 50 41, src := wbits s 40 31, seq := wbits s 11 0, words := ws },
    wbits s 25 12 == ws.length && wbits (bs.getLastD idleBlock).word 55 24 == frameCrc s ws)

/-! ## The scrambler (R394) -/

/-- Scramble, or descramble, the lowest `n` bits of a payload, bit 0 first: each is added to the line's bits 39 and 58 places before. `s`
holds the last 58 line bits, the newest in bit 0. -/
def scrambleBits (descramble : Bool) : Nat → BitVec 58 → W64 → W64 → W64 × BitVec 58
  | 0, s, _, out => (out, s)
  | n + 1, s, w, out =>
    let b := w.getLsbD 0 != (s.getLsbD 38 != s.getLsbD 57)
    let line := if descramble then w.getLsbD 0 else b
    scrambleBits descramble n (s.shiftConcat line) (w >>> 1) ((out >>> 1) ||| (if b then BitVec.twoPow 64 63 else 0))

/-- A block as its lane carries it: sync header 0b01 for data, 0b10 for control, and the scrambled payload. -/
def BlBlock.onLane (s : BitVec 58) (b : BlBlock) : LaneBlock × BitVec 58 :=
  let r := scrambleBits false 64 s b.word 0
  (⟨if b.control then 2 else 1, r.1⟩, r.2)

/-- The block a lane carries; none with a bad sync header. -/
def readBlock (s : BitVec 58) (b : LaneBlock) : Option BlBlock × BitVec 58 :=
  let r := scrambleBits true 64 s b.payload 0
  (if b.sync == 1 then some ⟨false, r.1⟩ else if b.sync == 2 then some ⟨true, r.1⟩ else none, r.2)

/-- A lane of inverted polarity (R397). -/
def laneInverted (b : LaneBlock) (inv : Bool) : LaneBlock := if inv then ⟨~~~b.sync, ~~~b.payload⟩ else b

/-! ## The transmitter (R394, R396, R397, R400) -/

/-- The next block: LINKCTL first, then the rest of the VL0 frame in progress, a waiting VL0 frame, the VL1 frame, IDLE. -/
def BlLine.next (x : BlLine) : BlBlock × BlLine :=
  match x.ctl with
  | b :: t => (b, { x with ctl := t })
  | [] => match x.now with
    | b :: t => (b, { x with now := t })
    | [] => match x.vl0 with
      | (b :: t) :: r => (b, { x with now := t, vl0 := r })
      | [] :: r => (idleBlock, { x with vl0 := r })
      | [] => match x.vl1 with
        | b :: t => (b, { x with vl1 := t })
        | [] => (idleBlock, x)

/-- The next block pair of port `p`: an ALIGN pair every 16,384 pairs, a SKIP pair before 2,048 have passed without one, else two blocks. -/
def BlLine.nextPair (x : BlLine) (p : Nat) : BlBlock × BlBlock × BlLine :=
  let y := { x with pairs := x.pairs + 1, sinceSkip := x.sinceSkip + 1 }
  if x.pairs % 16384 == 0 then (ctrlBlock 0x4B (p * 2 ^ 52), ctrlBlock 0x4B (p * 2 ^ 52 + 2 ^ 48), y)
  else if x.sinceSkip ≥ 2046 then (skipBlock, skipBlock, { y with sinceSkip := 0 })
  else
    let a := y.next
    let b := a.2.next
    (a.1, b.1, b.2)

/-- Change the line of Beat Link port `p`. -/
def Dev.updLine (d : Dev) (p : Nat) (f : BlLine → BlLine) : Dev := { d with lnk.lines := upd d.lnk.lines p f }

/-- Send the next block pair of port `p`. -/
def Dev.sendPair (d : Dev) (p : Nat) : Dev :=
  let (a, b, x) := (at' d.lnk.lines p).nextPair p
  let l0 := a.onLane x.tx0
  let l1 := b.onLane x.tx1
  (d.updLine p (fun _ => { x with tx0 := l0.2, tx1 := l1.2 })).emit (.blPair p l0.1 l1.1)

/-- The lines in an FCLK cycle: a port that is not OFF sends a block pair every 2.56 ns. -/
def Dev.lineCycle (d : Dev) : Dev :=
  forRange 10 d (fun d p =>
    let x := at' d.lnk.lines p
    if (at' d.lnk.ports p).st != .off && (x.pairs * 64 * nsUnit : Int) ≤ (d.pwr.clock - x.start) * 25 then d.sendPair p else d)

/-- The line of port `p` starts anew: with what the scramblers then hold left open. -/
def Dev.lineStart (d : Dev) (p : Nat) : Dev :=
  d.updLine p (fun _ => { start := d.pwr.clock, tx0 := Config.scrambler p 0, tx1 := Config.scrambler p 1, rx0 := Config.scrambler p 2,
                          rx1 := Config.scrambler p 3 })

/-- The frames on the line of port `p`, sent or received in part, are dropped (R406). -/
def Dev.lineClear (d : Dev) (p : Nat) : Dev :=
  d.updLine p (fun x => { x with ctl := [], now := [], vl0 := [], vl1 := [], in0 := none, in1 := none })

/-- Hand a frame to the line of port `p`: TIME goes first within VL0 (R400). -/
def Dev.putFrame (d : Dev) (p : Nat) (f : Frame) : Dev :=
  (d.updLine p (fun x =>
    if frameVl f == 1 then { x with vl1 := x.vl1 ++ frameBlocks f }
    else if f.ftype == 4 then { x with vl0 := frameBlocks f :: x.vl0 }
    else { x with vl0 := x.vl0 ++ [frameBlocks f] })).emit (.blFrame p f)

/-- Hand a LINKCTL block to the line of port `p`. -/
def Dev.putLinkctl (d : Dev) (p : Nat) (w : W64) : Dev :=
  (d.updLine p (fun x => { x with ctl := x.ctl ++ [⟨true, w⟩] })).emit (.blWord p [w])

/-! ## The receiver (R396, R397, R405) -/

/-- The block pairs as they leave the elastic buffer: it deletes a SKIP pair while it runs over half full and inserts one while under. -/
def elastic (fill : Int) : List (Option BlBlock × Option BlBlock) → List (Option BlBlock × Option BlBlock) × Int
  | [] => ([], fill)
  | x :: t =>
    let skip := x.1 == some skipBlock && x.2 == some skipBlock
    let n : Int := if skip then (if fill > 0 then 0 else if fill < 0 then 2 else 1) else 1
    let r := elastic (fill + n - 1) t
    (List.replicate n.toNat x ++ r.1, r.2)

/-- Read lane blocks with a lane's descrambler. -/
def readLane : BitVec 58 → List LaneBlock → List (Option BlBlock) × BitVec 58
  | s, [] => ([], s)
  | s, b :: t =>
    let r := readBlock s b
    let rest := readLane r.2 t
    (r.1 :: rest.1, rest.2)

/-- What a received block makes of the frames in progress: a frame that it ends, and whether it is a block error. -/
def BlLine.take (x : BlLine) (b : Option BlBlock) : BlLine × Option (Frame × Bool) × Bool :=
  let spoil := fun (f : Option FrameIn) => f.map (fun f => { f with bad := true })
  let err := ({ x with in0 := spoil x.in0, in1 := if x.in0.isNone then spoil x.in1 else x.in1 }, none, true)
  match b with
  | none => err
  | some b =>
    let grow := fun (f : FrameIn) => { f with blocks := f.blocks ++ [b] }
    let done := fun (f : FrameIn) => let r := frameOfBlocks (f.blocks ++ [b]); some (r.1, r.2 && !f.bad)
    match b.type, x.in0, x.in1 with
    | none, some f, _ => ({ x with in0 := some (grow f) }, none, false)
    | none, none, some f => ({ x with in1 := some (grow f) }, none, false)
    | some 0xE1, some f, _ => ({ x with in0 := none }, done f, false)
    | some 0xE1, none, some f => ({ x with in1 := none }, done f, false)
    | some 0x78, none, o =>
      if wbits b.word 51 51 == 0 then ({ x with in0 := some { blocks := [b] } }, none, false)
      else if o.isNone then ({ x with in1 := some { blocks := [b] } }, none, false)
      else err
    | some 0x1E, none, none => (x, none, false)
    | some 0x55, _, _ => (x, none, false)
    | some 0x4B, _, _ => (x, none, false)
    | some 0x2D, _, _ => (x, none, false)
    | _, _, _ => err

/-- Take blocks in order: the line afterwards, the frames that they end, and the number of block errors. -/
def BlLine.takeAll : BlLine → List (Option BlBlock) → BlLine × List (Frame × Bool) × Nat
  | x, [] => (x, [], 0)
  | x, b :: t =>
    let r := x.take b
    let rest := r.1.takeAll t
    (rest.1, r.2.1.toList ++ rest.2.1, bit r.2.2 + rest.2.2)

/-- What port `p` reads from the block pairs that its two physical lanes carry, deskewed; `drift` is by how many pairs the elastic buffer has
filled since the last ones, on the two references (R396): the lines afterwards, the frames received and the block errors. -/
def Dev.hearPairs (d : Dev) (p : Nat) (pairs : List (LaneBlock × LaneBlock)) (drift : Int) : BlLine × List (Frame × Bool) × Nat :=
  let x := at' d.lnk.lines p
  let pol := fun i => bitOf (d.act Reg.LNK_BL_CFG_LANE_POL p) i
  let l0 := readLane x.rx0 (pairs.map (fun q => laneInverted q.1 (pol 0)))
  let l1 := readLane x.rx1 (pairs.map (fun q => laneInverted q.2 (pol 1)))
  let ps := if (at' d.lnk.ports p).swapped then l1.1.zip l0.1 else l0.1.zip l1.1
  let e := elastic (x.fill + drift) ps
  { x with rx0 := l0.2, rx1 := l1.2, fill := e.2 }.takeAll (e.1.flatMap (fun (q : Option BlBlock × Option BlBlock) => [q.1, q.2]))

end Sys2Proof.Machine
end

