-- ==== Sys2Proof/Machine/PathMath.lean ====
section
/-!
DEFINITION. The arithmetic of paths: square roots, angles, curves, pieces run at constant acceleration, rest-to-rest moves,
Dubins paths and the dip of R145. Lengths are in 2^-32 bu, times in 2^-32 cycle, speeds in 2^-64 bu per cycle, angles and
direction vectors in 2^-60. R133 asks for path time to 2^-16 cycle and points to the nearest bu.
-/
namespace Sys2Proof.Machine

/-! ## Square root, sine, arc tangent -/

/-- Newton's iteration from above for the integer square root. -/
def isqrtLoop : Nat → Nat → Nat → Nat
  | 0, _, g => g
  | fuel + 1, n, g => let h := (g + n / g) / 2; if h < g then isqrtLoop fuel n h else g

/-- The square root of a number, rounded down. -/
def isqrt (n : Nat) : Nat := if n = 0 then 0 else isqrtLoop 400 n (2 ^ (n.log2 / 2 + 1))

/-- One, and pi, in the angle unit 2^-60. -/
def angleOne : Int := 1152921504606846976
def anglePi : Int := 3622009729038561421

/-- The terms of an alternating power series: `t` is the present term, `k` its factorial step. -/
def seriesLoop : Nat → Int → Int → Int → Int → Int
  | 0, _, _, _, acc => acc
  | fuel + 1, x2, t, k, acc =>
    let t' := -(t * x2 / angleOne) / (k * (k + 1))
    seriesLoop fuel x2 t' (k + 2) (acc + t')

/-- Sine and cosine of an angle in [0, pi/2]. -/
def sinCosQuarter (x : Int) : Int × Int :=
  let x2 := x * x / angleOne
  (seriesLoop 14 x2 x 2 x, seriesLoop 14 x2 angleOne 1 angleOne)

/-- Sine and cosine of any angle. -/
def sinCos (x : Int) : Int × Int :=
  let y := x % (2 * anglePi)
  let q := 2 * y / anglePi
  let (s, c) := sinCosQuarter (y - q * anglePi / 2)
  if q = 0 then (s, c) else if q = 1 then (c, -s) else if q = 2 then (-s, -c) else (-c, s)

/-- The arc tangent series of a ratio below 1/4. -/
def atanLoop : Nat → Int → Int → Int → Int → Int
  | 0, _, _, _, acc => acc
  | fuel + 1, t2, p, k, acc =>
    let p' := -(p * t2 / angleOne)
    atanLoop fuel t2 p' (k + 2) (acc + p' / k)

/-- Half the angle of a ratio in [0, 1]: t / (1 + sqrt (1 + t^2)). -/
def halfTan (t : Int) : Int :=
  t * angleOne / (angleOne + (isqrt (angleOne * angleOne + t * t).toNat : Int))

/-- The arc tangent of a ratio in [0, 1]. -/
def atanUnit (t : Int) : Int :=
  let h := halfTan (halfTan t)
  4 * atanLoop 16 (h * h / angleOne) h 3 h

/-- The angle of a vector, in (-pi, pi]. -/
def atan2 (y x : Int) : Int :=
  let ay : Int := y.natAbs
  let ax : Int := x.natAbs
  if ax = 0 && ay = 0 then 0
  else
    let a := if ay ≤ ax then atanUnit (ay * angleOne / ax) else anglePi / 2 - atanUnit (ax * angleOne / ay)
    let a := if x < 0 then anglePi - a else a
    if y < 0 then -a else a

/-- The angle turned counter-clockwise from one direction to another, in [0, 2 pi); a hair below a whole turn is none. -/
def ccwAngle (hx hy gx gy : Int) : Int :=
  let a := atan2 (hx * gy - hy * gx) (hx * gx + hy * gy) % (2 * anglePi)
  if 2 * anglePi - a < 1048576 then 0 else a

/-- The unit vector along (x, y); along +X for a null vector. -/
def unitVec (x y : Int) : Int × Int :=
  let l : Int := isqrt (x * x + y * y).toNat
  if l = 0 then (angleOne, 0) else (x * angleOne / l, y * angleOne / l)

/-- The length of a vector. -/
def vecLen (x y : Int) : Nat := isqrt (x * x + y * y).toNat

/-! ## Speeds and accelerations (R136, R162) -/

/-- A speed in mm/s: v mm/s is v/6,250 bu per cycle. -/
def speedOf (mmPerS : Nat) : Nat := mmPerS * 2 ^ 64 / 6250

/-- The length in which an acceleration (1e-10 bu per cycle squared, which is 1 m/s^2) changes speed `v` to rest. -/
def stopLength (v acc : Nat) : Nat := v * v * 10 ^ 10 / (2 * acc * 2 ^ 96)

/-- The length in which speed changes between `a` and `b`. -/
def rampLength (a b acc : Nat) : Nat := (max a b * max a b - min a b * min a b) * 10 ^ 10 / (2 * acc * 2 ^ 96)

/-- The square of the speed gained over a length. -/
def gainSq (len acc : Nat) : Nat := 2 * acc * len * 2 ^ 96 / 10 ^ 10

/-! ## Curves and pieces -/

/-- The point at length `s` of a curve of length `total`. -/
def Curve.pointAt (c : Curve) (total s : Nat) : Int × Int :=
  match c with
  | .line x0 y0 x1 y1 =>
    if total = 0 then (x0, y0) else (x0 + (x1 - x0) * s / (total : Int), y0 + (y1 - y0) * s / (total : Int))
  | .arc cx cy rx ry sw =>
    if total = 0 then (cx + rx, cy + ry)
    else
      let (sn, cs) := sinCos (sw * s / (total : Int))
      (cx + (rx * cs - ry * sn) / angleOne, cy + (rx * sn + ry * cs) / angleOne)

/-- The heading at length `s` of a curve. -/
def Curve.headingAt (c : Curve) (total s : Nat) : Int × Int :=
  match c with
  | .line x0 y0 x1 y1 => unitVec (x1 - x0) (y1 - y0)
  | .arc _ _ rx ry sw =>
    let (sn, cs) := if total = 0 then (0, angleOne) else sinCos (sw * s / (total : Int))
    let x := (rx * cs - ry * sn) / angleOne
    let y := (rx * sn + ry * cs) / angleOne
    if sw < 0 then unitVec y (-x) else unitVec (-y) x

/-- A straight line and its length. -/
def lineOf (x0 y0 x1 y1 : Int) : Curve × Nat := (.line x0 y0 x1 y1, vecLen (x1 - x0) (y1 - y0))

/-- An arc and its length. -/
def arcOf (cx cy rx ry sweep : Int) : Curve × Nat :=
  (.arc cx cy rx ry sweep, vecLen rx ry * sweep.natAbs / angleOne.toNat)

/-- A piece of a curve from length `s0` on, run from speed `v0` to `v1`. -/
def mkPiece (c : Curve × Nat) (s0 len v0 v1 kind acc : Nat) : Piece :=
  { curve := c.1, total := c.2, s0, len, v0, v1, kind, acc,
    dur := if v0 + v1 = 0 then 0 else 2 * len * 2 ^ 64 / (v0 + v1) }

/-- A rest of some duration at a point. -/
def restPiece (x y : Int) (dur kind : Nat) (acc : Nat := 1000) : Piece :=
  { curve := .line x y x y, dur, kind, acc }

/-- Set the start times of pieces one after another from `t`. -/
def chain : Int → List Piece → List Piece
  | _, [] => []
  | t, p :: ps => { p with t0 := t } :: chain (t + p.dur) ps

/-- The whole duration of pieces. -/
def totalDur (ps : List Piece) : Nat := ps.foldl (fun a p => a + p.dur) 0

/-- The whole length of pieces. -/
def totalLen (ps : List Piece) : Nat := ps.foldl (fun a p => a + p.len) 0

/-- The end of a piece in path time. -/
def Piece.t1 (p : Piece) : Int := p.t0 + p.dur

/-- The length run at path time `t`, from the piece's start. -/
def Piece.lenAt (p : Piece) (t : Int) : Nat :=
  let u : Int := t - p.t0
  if u ≤ 0 then 0
  else if u ≥ p.dur then p.len
  else min p.len (((p.v0 : Int) * u + ((p.v1 : Int) - p.v0) * u * u / (2 * p.dur : Nat)) / 2 ^ 64).toNat

/-- The point of a piece at path time `t`. -/
def Piece.pointAt (p : Piece) (t : Int) : Int × Int := p.curve.pointAt p.total (p.s0 + p.lenAt t)

/-- The heading of a piece at path time `t`. -/
def Piece.headingAt (p : Piece) (t : Int) : Int × Int := p.curve.headingAt p.total (p.s0 + p.lenAt t)

/-- The speed of a piece at path time `t`. -/
def Piece.speedAt (p : Piece) (t : Int) : Nat :=
  if p.dur = 0 then p.v1
  else ((p.v0 : Int) + ((p.v1 : Int) - p.v0) * (max 0 (min (t - p.t0) p.dur)) / p.dur).toNat

/-- The piece in force at path time `t`: the last that has started. -/
def pieceAt (t : Int) : List Piece → Option Piece
  | [] => none
  | p :: ps => match pieceAt t ps with
    | some q => some q
    | none => if p.t0 ≤ t then some p else none

/-- Split a piece at length `l` from its start: the speed there follows from constant acceleration. -/
def Piece.split (p : Piece) (l : Nat) : Piece × Piece :=
  let l := min l p.len
  let w := if p.len = 0 then p.v1 * p.v1
    else ((p.v0 * p.v0 : Int) + ((p.v1 * p.v1 : Int) - (p.v0 * p.v0 : Int)) * l / p.len).toNat
  let v := isqrt w
  (mkPiece (p.curve, p.total) p.s0 l p.v0 v p.kind p.acc,
   mkPiece (p.curve, p.total) (p.s0 + l) (p.len - l) v p.v1 p.kind p.acc)

/-- The first `l` of a run of pieces, by length. -/
def takeLen : Nat → List Piece → List Piece
  | _, [] => []
  | l, p :: ps => if p.len ≤ l then p :: takeLen (l - p.len) ps else [(p.split l).1]

/-! ## Straight moves (R142, R144) -/

/-- A straight rest-to-rest move at speed at most `v` and acceleration `acc`. -/
def restMove (x0 y0 x1 y1 : Int) (v acc kind : Nat) : List Piece :=
  let c := lineOf x0 y0 x1 y1
  let l := c.2
  if l = 0 then []
  else
    let vp := min v (isqrt (gainSq l acc / 2))
    let r := min (l / 2) (stopLength vp acc)
    [mkPiece c 0 r 0 vp kind acc, mkPiece c r (l - 2 * r) vp vp kind acc, mkPiece c (l - r) r vp 0 kind acc]

/-- The point `len` along a heading from (x, y). -/
def along (x y hx hy : Int) (len : Int) : Int × Int := (x + hx * len / angleOne, y + hy * len / angleOne)

/-- A straight ramp along a heading from speed `v0` to `v1` at `acc`. -/
def ramp (x y hx hy : Int) (v0 v1 acc kind : Nat) : List Piece :=
  let l := rampLength v0 v1 acc
  if l = 0 then []
  else
    let (x1, y1) := along x y hx hy l
    [mkPiece (.line x y x1 y1, l) 0 l v0 v1 kind acc]

/-! ## Dubins paths (R143) -/

/-- An arc of radius `r` about `c` from heading `h` to heading `g`, to the left or to the right. -/
def turnArc (left : Bool) (cx cy : Int) (r : Nat) (hx hy gx gy : Int) : Curve × Nat :=
  let a := if left then ccwAngle hx hy gx gy else -(ccwAngle gx gy hx hy)
  let (rx, ry) := if left then (hy, -hx) else (-hy, hx)
  arcOf cx cy (rx * r / angleOne) (ry * r / angleOne) a

/-- A path of three curves: arc, straight, arc, with the straight along heading `u` of length `l`. -/
def arcLineArc (l0 l1 : Bool) (c0 c1 : Int × Int) (r : Nat) (h g u : Int × Int) (l : Nat) : List (Curve × Nat) :=
  let a0 := turnArc l0 c0.1 c0.2 r h.1 h.2 u.1 u.2
  let (px, py) := if l0 then (c0.1 + u.2 * r / angleOne, c0.2 - u.1 * r / angleOne)
    else (c0.1 - u.2 * r / angleOne, c0.2 + u.1 * r / angleOne)
  let (qx, qy) := along px py u.1 u.2 l
  [a0, (.line px py qx qy, l), turnArc l1 c1.1 c1.2 r u.1 u.2 g.1 g.2]

/-- The centre of the turning circle to one side of a heading. -/
def turnCentre (left : Bool) (x y hx hy : Int) (r : Nat) : Int × Int :=
  if left then (x - hy * r / angleOne, y + hx * r / angleOne) else (x + hy * r / angleOne, y - hx * r / angleOne)

/-- LSL, RSR, LSR and RSL (by the two sides), where such a path exists. -/
def dubinsCSC (l0 l1 : Bool) (x0 y0 hx hy x1 y1 gx gy : Int) (r : Nat) : Option (List (Curve × Nat)) :=
  let c0 := turnCentre l0 x0 y0 hx hy r
  let c1 := turnCentre l1 x1 y1 gx gy r
  let dx := c1.1 - c0.1
  let dy := c1.2 - c0.2
  let d := vecLen dx dy
  if l0 == l1 then
    let u := if d < 16 then (hx, hy) else unitVec dx dy
    some (arcLineArc l0 l1 c0 c1 r (hx, hy) (gx, gy) u (if d < 16 then 0 else d))
  else if d < 2 * r then none
  else
    let l := isqrt (d * d - 4 * r * r)
    let k : Int := if l0 then 2 * r else -(2 * r : Nat)
    let u := unitVec (l * dx - k * dy) (l * dy + k * dx)
    some (arcLineArc l0 l1 c0 c1 r (hx, hy) (gx, gy) u l)

/-- The heading on a turning circle where its radius points along `t`. -/
def circleDir (left : Bool) (t : Int × Int) : Int × Int := if left then (-t.2, t.1) else (t.2, -t.1)

/-- Three arcs whose middle circle has its centre at `m`. -/
def threeArcs (left : Bool) (c0 c1 m : Int × Int) (r : Nat) (h g : Int × Int) : List (Curve × Nat) :=
  let d0 := circleDir left (unitVec (m.1 - c0.1) (m.2 - c0.2))
  let d1 := circleDir left (unitVec (m.1 - c1.1) (m.2 - c1.2))
  [turnArc left c0.1 c0.2 r h.1 h.2 d0.1 d0.2, turnArc (!left) m.1 m.2 r d0.1 d0.2 d1.1 d1.2,
   turnArc left c1.1 c1.2 r d1.1 d1.2 g.1 g.2]

/-- The length of a list of curves. -/
def curvesLen (p : List (Curve × Nat)) : Nat := p.foldl (fun a c => a + c.2) 0

/-- The centre of the middle circle of three arcs, at a signed distance `q` from the middle of the outer centres. -/
def midCentre (c0 c1 u : Int × Int) (q : Int) : Int × Int :=
  ((c0.1 + c1.1) / 2 - u.2 * q / angleOne, (c0.2 + c1.2) / 2 + u.1 * q / angleOne)

/-- RLR and LRL: three arcs, the middle one longer than half a turn; the shorter of the two placements. -/
def dubinsCCC (left : Bool) (x0 y0 hx hy x1 y1 gx gy : Int) (r : Nat) : Option (List (Curve × Nat)) :=
  let c0 := turnCentre left x0 y0 hx hy r
  let c1 := turnCentre left x1 y1 gx gy r
  let d := vecLen (c1.1 - c0.1) (c1.2 - c0.2)
  if d ≥ 4 * r || r = 0 then none
  else
    let u := unitVec (c1.1 - c0.1) (c1.2 - c0.2)
    let q : Nat := isqrt (4 * r * r - d * d / 4)
    let a := threeArcs left c0 c1 (midCentre c0 c1 u q) r (hx, hy) (gx, gy)
    let b := threeArcs left c0 c1 (midCentre c0 c1 u (-(q : Int))) r (hx, hy) (gx, gy)
    some (if curvesLen a ≤ curvesLen b then a else b)

/-- The candidates in the order of R143: LSL, RSR, LSR, RSL, RLR, LRL. -/
def dubinsAll (x0 y0 hx hy x1 y1 gx gy : Int) (r : Nat) : List (List (Curve × Nat)) :=
  [dubinsCSC true true x0 y0 hx hy x1 y1 gx gy r, dubinsCSC false false x0 y0 hx hy x1 y1 gx gy r,
   dubinsCSC true false x0 y0 hx hy x1 y1 gx gy r, dubinsCSC false true x0 y0 hx hy x1 y1 gx gy r,
   dubinsCCC false x0 y0 hx hy x1 y1 gx gy r, dubinsCCC true x0 y0 hx hy x1 y1 gx gy r].filterMap id

/-- The shortest path, the first in order among those equal within 2^-20 bu, the error that the arithmetic of lengths may leave (R143; log
entry 46). -/
def shortest : List (List (Curve × Nat)) → Option (List (Curve × Nat))
  | [] => none
  | p :: ps => match shortest ps with
    | some q => if curvesLen q + 4096 < curvesLen p then some q else some p
    | none => some p

/-! ## Extents (R146, R154) -/

/-- A square extent in 2^-32 bu. -/
structure Extent where
  x0 : Int
  y0 : Int
  x1 : Int
  y1 : Int
  deriving DecidableEq, Repr, Inhabited

/-- A point lies within the extent. -/
def Extent.has (e : Extent) (p : Int × Int) : Bool := e.x0 ≤ p.1 && p.1 ≤ e.x1 && e.y0 ≤ p.2 && p.2 ≤ e.y1

/-- A whole curve lies within the extent: its ends, and the axis extremes an arc passes. -/
def Extent.holds (e : Extent) (c : Curve × Nat) : Bool :=
  e.has (c.1.pointAt c.2 0) && e.has (c.1.pointAt c.2 c.2) &&
  match c.1 with
  | .line .. => true
  | .arc cx cy rx ry sw =>
    let r : Int := vecLen rx ry
    let a0 := atan2 ry rx
    (List.range 4).all (fun k =>
      let a : Int := k * anglePi / 2
      let off := if sw < 0 then (a0 - a) % (2 * anglePi) else (a - a0) % (2 * anglePi)
      off > (sw.natAbs : Int) ||
        e.has (match k with | 0 => (cx + r, cy) | 1 => (cx, cy + r) | 2 => (cx - r, cy) | _ => (cx, cy - r)))

/-! ## The dip of R145 -/

/-- Cut a run of pieces at a distance `mid` from its start. -/
def cutAt : Nat → List Piece → List Piece × List Piece
  | _, [] => ([], [])
  | m, p :: ps =>
    if p.len ≤ m then let (a, b) := cutAt (m - p.len) ps; (p :: a, b)
    else let (a, b) := p.split m; if m = 0 then ([], p :: ps) else ([a], b :: ps)

/-- One piece under a dip whose squared speed runs from `d0` to `d1` along it: the lower of the two at every point. -/
def dipPiece (p : Piece) (d0 d1 : Nat) : List Piece :=
  let a : Int := (p.v0 * p.v0 : Int) - d0
  let b : Int := (p.v1 * p.v1 : Int) - d1
  let low := fun (q : Piece) (x y : Nat) => { mkPiece (q.curve, q.total) q.s0 q.len (isqrt x) (isqrt y) q.kind q.acc with
    dur := if isqrt x + isqrt y = 0 then q.dur else 2 * q.len * 2 ^ 64 / (isqrt x + isqrt y) }
  if a ≤ 0 && b ≤ 0 then [p]
  else if a ≥ 0 && b ≥ 0 then [low p d0 d1]
  else
    let l := ((p.len : Int) * a / (a - b)).toNat
    let dm := ((d0 : Int) + ((d1 : Int) - d0) * l / (max 1 p.len : Nat)).toNat
    let (q, r) := p.split l
    if a > 0 then [low q d0 dm, r] else [q, low r dm d1]

/-- The pieces of one half under the dip: `far` lengths from the middle fall or rise along it. -/
def dipHalf (falling : Bool) (wc acc : Nat) : Nat → List Piece → List Piece
  | _, [] => []
  | dist, p :: ps =>
    let next := if falling then dist - p.len else dist + p.len
    dipPiece p (wc + gainSq dist acc) (wc + gainSq next acc) ++ dipHalf falling wc acc next ps

/-- Half the length over which a dip to squared speed `wc` coasts: the speed falls from the larger of the two end speeds as the run starts, and
is back at it as the run ends (R145; log entry 47). -/
def coastHalf (ps : List Piece) (wc acc : Nat) : Nat :=
  let ends := max ((ps.head?.map (·.v0)).getD 0) ((ps.getLast?.map (·.v1)).getD 0)
  (totalLen ps - 2 * rampLength (isqrt wc) (max (isqrt wc) ends) acc) / 2

/-- A run of pieces with the dip of least squared speed `wc` about its midpoint, in two halves: it falls, coasts and rises back (R145). -/
def dipped (ps : List Piece) (wc acc : Nat) : List Piece × List Piece :=
  let h := coastHalf ps wc acc
  let (a, b) := cutAt (totalLen ps / 2) ps
  let (fall, c0) := cutAt (totalLen a - h) a
  let (c1, rise) := cutAt h b
  (dipHalf true wc acc (totalLen fall) fall ++ c0.flatMap (fun p => dipPiece p wc wc),
   c1.flatMap (fun p => dipPiece p wc wc) ++ dipHalf false wc acc 0 rise)

/-- Bisect for the least squared speed with which the dipped run lasts no longer than `target`. -/
def dipSearch (ps : List Piece) (acc target : Nat) : Nat → Nat → Nat → Nat
  | 0, _, hi => hi
  | fuel + 1, lo, hi =>
    let mid := (lo + hi) / 2
    let (a, b) := dipped ps mid acc
    if totalDur a + totalDur b ≤ target then dipSearch ps acc target fuel lo mid else dipSearch ps acc target fuel mid hi

/-- Lengthen the last piece's duration by `extra`. -/
def padLast (extra : Nat) : List Piece → List Piece
  | [] => []
  | [p] => [{ p with dur := p.dur + extra }]
  | p :: ps => p :: padLast extra ps

/-- Make a join last `target`: its speed dips about its midpoint, or it rests there (R145). -/
def stretch (ps : List Piece) (x y : Int) (target acc kind : Nat) : List Piece :=
  let now := totalDur ps
  if target ≤ now then ps
  else if totalLen ps = 0 then ps ++ [restPiece x y (target - now) kind acc]
  else
    let (a, b) := dipped ps 0 acc
    if coastHalf ps 0 acc = 0 && totalDur a + totalDur b ≤ target then
      let (mx, my) := match b with
        | q :: _ => q.curve.pointAt q.total q.s0
        | [] => (x, y)
      a ++ [restPiece mx my (target - totalDur a - totalDur b) kind acc] ++ b
    else
      let top := ps.foldl (fun m p => max m (max (p.v0 * p.v0) (p.v1 * p.v1))) 0
      let (a, b) := dipped ps (dipSearch ps acc target 200 1 top) acc
      padLast (target - totalDur a - totalDur b) a ++ b

end Sys2Proof.Machine
end

