-- ==== Sys2Proof/Machine/Geometry.lean ====
section
/-!
DEFINITION. What pistes read: parameter entries (R77, R367), staged vectors (R72, R369), grid slots and the bed-to-head
transform (R153, R154), and the focus profile (R141).
-/
namespace Sys2Proof.Machine

/-! ## Parameter entries -/

/-- The active parameter bank and its mirror, and the shadow bank and its mirror (R364). -/
def psetActive : Nat := 0x2020000
def psetActiveMirror : Nat := 0x2060000
def psetShadow : Nat := 0x2000000
def psetShadowMirror : Nat := 0x2040000

/-- An SRAM word is poisoned (R366). -/
def Mem.isPoisoned (m : Mem) (a : Nat) : Bool := m.poisoned.contains (a / 8)

/-- Word `w` of active parameter entry `i`, from the mirror where the bank's word is poisoned; none where both are (R367). -/
def psetWord (m : Mem) (i w : Nat) : Option W64 :=
  let off := 32 * i + 8 * w
  if !m.isPoisoned (psetActive + off) then some (memWord m.sram (psetActive + off))
  else if !m.isPoisoned (psetActiveMirror + off) then some (memWord m.sram (psetActiveMirror + off))
  else none

/-- Words 0 and 1 of active parameter entry `i`. -/
def psetEntry (m : Mem) (i : Nat) : Option (W64 × W64) :=
  match psetWord m i 0, psetWord m i 1 with
  | some a, some b => some (a, b)
  | _, _ => none

/-- The first word of active parameter entry `i`, by its SRAM word address, that neither bank gives (R367). -/
def psetLost (i : Nat) (m : Mem) : Nat := (psetActive + 32 * i) / 8 + bit (psetWord m i 0).isSome

/-- The entry is VALID in the active bank (R77). -/
def psetValid (m : Mem) (i : Nat) : Bool :=
  match psetWord m i 0 with
  | some w => wbits w 63 63 == 1
  | none => false

/-- FOCUS_BASE, ON_SKEW and OFF_SKEW of an entry (R77). -/
def focusBase (e : W64 × W64) : Int := signed 16 (wbits e.1 47 32)
def onSkew (e : W64 × W64) : Int := signed 8 (wbits e.2 31 24)
def offSkew (e : W64 × W64) : Int := signed 8 (wbits e.2 23 16)

/-! ## Vectors -/

/-- The operation and fields of a vector (R72). -/
def Vec.op (v : Vec) : Nat := wbits v.w1 63 60
def Vec.speed (v : Vec) : Nat := wbits v.w1 59 52
def Vec.pmod (v : Vec) : Int := signed 12 (wbits v.w1 51 40)
def Vec.focus (v : Vec) : Int := signed 16 (wbits v.w1 39 24)
def Vec.hint (v : Vec) : Nat := wbits v.w1 23 16
def Vec.flags (v : Vec) : Nat := wbits v.w1 15 0
def Vec.x (v : Vec) : Int := signed 32 (wbits v.w0 63 32)
def Vec.y (v : Vec) : Int := signed 32 (wbits v.w0 31 0)
def Vec.dark (v : Vec) : Bool := bitOf v.flags 0
def Vec.hintEn (v : Vec) : Bool := bitOf v.flags 3

/-- The vector is one of the motion vectors MARK, JUMP, ARC and DWELL (R73). -/
def Vec.isMotion (v : Vec) : Bool := 1 ≤ v.op && v.op ≤ 4

/-- The SRAM address of byte `off` of a staged brick (R369). -/
def Brick.addr (b : Brick) (off : Nat) : Nat := b.pages.getD (off / 4096) 0 * 4096 + off % 4096

/-- Vector `i` of a staged brick (R83, R157). -/
def Brick.vec (m : Mem) (b : Brick) (i : Nat) : Vec :=
  { v := i, w0 := memWord m.sram (b.addr (64 + 16 * i)), w1 := memWord m.sram (b.addr (72 + 16 * i)) }

/-- One bu, in the unit of lengths. -/
def buUnit : Int := 4294967296

/-- The nearest whole bu. -/
def toBu (x : Int) : Int := (2 * x + buUnit) / (2 * buUnit)

/-- The sweep of an ARC in 2^-60 rad (R74): FOCUS in 1/16,384 turn. -/
def sweepOf (f : Int) : Int := f * 2 * anglePi / 16384

/-- The end point of an ARC from (sx, sy), in bu: the start point turned by the sweep, rounded to the nearest bu (R137). -/
def arcEnd (sx sy cx cy : Int) (sweep : Int) : Int × Int :=
  let c := arcOf (cx * buUnit) (cy * buUnit) ((sx - cx) * buUnit) ((sy - cy) * buUnit) sweep
  let p := c.1.pointAt c.2 c.2
  (toBu p.1, toBu p.2)

/-- A MARK to its own start point, or an ARC about it: it takes no time (R137). -/
def Vec.isNull (v : Vec) (sx sy : Int) : Bool := (v.op == 1 || v.op == 3) && v.x == sx && v.y == sy

/-! ## The focus profile (R141) -/

/-- How long a focus move takes, in 2^-32 cycle: a speed of 1 mm/s is 1e-5 units (1/16 µm) a cycle, an acceleration of
1 m/s^2 is 6.25e-12 units a cycle squared. -/
def focusDur (dist vel acc : Nat) : Nat :=
  if dist = 0 then 0
  else if dist * acc ≥ 16 * vel * vel then 2 ^ 32 * dist * 100000 / vel + 2 ^ 32 * 1600000 * vel / acc + 1
  else 2 * isqrt (2 ^ 64 * dist * 160000000000 / acc) + 1

/-- The focus position (1/16 µm, to the nearest) `u` after the start of a move, in 2^-32 cycle. -/
def FocusMove.posAt (f : FocusMove) (t : Int) : Int :=
  let dist := (f.z1 - f.z0).natAbs
  let dur := focusDur dist f.vel f.acc
  let u := t - f.t0
  if u ≤ 0 then f.z0
  else if u ≥ dur then f.z1
  else
    let u := u.toNat
    let w := dur - u
    let rampT := min (dur / 2) (2 ^ 32 * 1600000 * f.vel / f.acc)
    let quad := fun (t : Nat) => f.acc * t * t
    let s2 : Nat :=
      if u ≤ rampT then quad u
      else if w ≤ rampT then 2 ^ 65 * 160000000000 * dist - quad w
      else quad rampT + 2 * f.acc * rampT * (u - rampT)
    let s : Int := (s2 + 2 ^ 64 * 160000000000) / (2 ^ 65 * 160000000000)
    if f.z1 ≥ f.z0 then f.z0 + s else f.z0 - s

/-! ## Grid slots and the transform (R153, R154) -/

/-- The SRAM address of slot `s` (R153, R161). -/
def gridAddr (s : Nat) : Nat := 0x3600000 + s * 0x84000

/-- A header word of a slot. -/
def slotWord (m : Mem) (s w : Nat) : W64 := memWord m.sram (gridAddr s + 8 * w)

def slotOx (m : Mem) (s : Nat) : Int := signed 32 (wbits (slotWord m s 0) 63 32)
def slotOy (m : Mem) (s : Nat) : Int := signed 32 (wbits (slotWord m s 0) 31 0)
def slotPitch (m : Mem) (s : Nat) : Nat := wbits (slotWord m s 1) 63 32
def slotZ0 (m : Mem) (s : Nat) : Int := signed 32 (wbits (slotWord m s 2) 63 32)
def slotZ1 (m : Mem) (s : Nat) : Int := signed 32 (wbits (slotWord m s 2) 31 0)

/-- The grid extent of a slot in bu (R153). -/
def slotExtent (m : Mem) (s : Nat) : Extent :=
  let w : Int := 128 * slotPitch m s
  { x0 := slotOx m s * buUnit, y0 := slotOy m s * buUnit,
    x1 := (slotOx m s + w) * buUnit, y1 := (slotOy m s + w) * buUnit }

/-- The three head coordinates of node (i, j) of plane p (R153). -/
def slotNode (m : Mem) (s p i j : Nat) : Int × Int × Int :=
  let a := gridAddr s + 64 + ((p * 129 + j) * 129 + i) * 16
  let w0 := memWord m.sram a
  let w1 := memWord m.sram (a + 8)
  (signed 32 (wbits w0 63 32), signed 32 (wbits w0 31 0), signed 32 (wbits w1 63 32))

/-- The Catmull-Rom weights at t = T / 2^24, times 2^73 (R154). -/
def weights (t : Int) : List Int :=
  let o : Int := 2 ^ 24
  [-(t * t * t) + 2 * t * t * o - t * o * o, 3 * t * t * t - 5 * t * t * o + 2 * o * o * o,
   -(3 * t * t * t) + 4 * t * t * o + t * o * o, t * t * t - t * t * o]

/-- Where a coordinate falls on the grid: the cell index, and the fraction as unsigned 0.24 with 1 kept exact (R154). -/
def gridPlace (x o : Int) (pitch : Nat) : Nat × Int :=
  let off := x - o
  if off ≤ 0 then (0, 0)
  else if off ≥ 128 * pitch then (127, 2 ^ 24)
  else ((off / pitch).toNat, off % pitch * 2 ^ 24 / pitch)

/-- A node index clamped to the grid. -/
def nodeIdx (i : Nat) (a : Nat) : Nat := min 128 (i + a - 1)

/-- One plane's interpolated head coordinates, times 2^146. -/
def planeSum (m : Mem) (s p i j : Nat) (tx ty : Int) : Int × Int × Int :=
  (List.range 4).foldl (fun acc b =>
    (List.range 4).foldl (fun acc a =>
      let k := (weights tx).getD a 0 * (weights ty).getD b 0
      let nd := slotNode m s p (nodeIdx i a) (nodeIdx j b)
      (acc.1 + k * nd.1, acc.2.1 + k * nd.2.1, acc.2.2 + k * nd.2.2)) acc) (0, 0, 0)

/-- The transform of a bed point and focus position through slot `s`, exact and then rounded to the nearest head unit,
ties towards plus infinity; and whether the focus weight was clamped (R154). -/
def transform (m : Mem) (s : Nat) (x y z : Int) : (Int × Int × Int) × Bool :=
  let pitch := slotPitch m s
  let (i, tx) := gridPlace x (slotOx m s) pitch
  let (j, ty) := gridPlace y (slotOy m s) pitch
  let z0 := slotZ0 m s
  let z1 := slotZ1 m s
  let clamped := z < z0 || z > z1
  let w : Int := if z ≤ z0 then 0 else if z ≥ z1 then 2 ^ 24 else (z - z0) * 2 ^ 24 / (z1 - z0)
  let a := planeSum m s 0 i j tx ty
  let b := planeSum m s 1 i j tx ty
  let mix := fun (u v : Int) => divRound ((2 ^ 24 - w) * u + w * v) (2 ^ 170)
  ((mix a.1 b.1, mix a.2.1 b.2.1, mix a.2.2 b.2.2), clamped)

/-- A node that the transform of a bed point reads holds a poisoned word (R159, R366). -/
def nodesPoisoned (m : Mem) (s : Nat) (x y : Int) : Bool :=
  !m.poisoned.isEmpty &&
    let (i, _) := gridPlace x (slotOx m s) (slotPitch m s)
    let (j, _) := gridPlace y (slotOy m s) (slotPitch m s)
    [0, 1].any (fun p => (List.range 4).any (fun b => (List.range 4).any (fun a =>
      let at0 := gridAddr s + 64 + ((p * 129 + nodeIdx j b) * 129 + nodeIdx i a) * 16
      m.isPoisoned at0 || m.isPoisoned (at0 + 8))))

/-! ## The reachable field (R156) -/

/-- The field of channel `n`, in bu: MIN and MAX of X, then of Y (R163). -/
def Dev.field (d : Dev) (n : Nat) : Int × Int × Int × Int :=
  (signed 32 (d.cur Reg.PTH_FIELD_X_MIN n), signed 32 (d.cur Reg.PTH_FIELD_X_MAX n),
   signed 32 (d.cur Reg.PTH_FIELD_Y_MIN n), signed 32 (d.cur Reg.PTH_FIELD_Y_MAX n))

/-- Every edge of channel `n`'s field lies inside slot `s`'s extent by VMAX_JUMP^2 / (2 STOP_ACC) (R156). -/
def Dev.fieldFits (d : Dev) (m : Mem) (n s : Nat) : Bool :=
  let (x0, x1, y0, y1) := d.field n
  let v := d.cur Reg.PTH_DYN_VMAX_JUMP n
  let acc := d.cur Reg.PTH_DYN_STOP_ACC n
  let ox := slotOx m s
  let oy := slotOy m s
  let w : Int := 128 * slotPitch m s
  let inside := fun (gap : Int) => decide (gap ≥ 0) && decide (gap * 2 * acc ≥ (v * v * 256 : Nat))
  inside (x0 - ox) && inside (ox + w - x1) && inside (y0 - oy) && inside (oy + w - y1)

/-- PTH_n_STATUS.FIELD_OK (R156). -/
def Dev.fieldOk (d : Dev) (m : Mem) (n : Nat) : Bool :=
  let s := (at' d.pth.p n).slot
  s < 17 && d.fieldFits m n s

end Sys2Proof.Machine
end

