-- ==== Sys2Proof/Machine/Plan.lean ====
section
/-!
DEFINITION. The planner of a piste: joins, vectors, focus moves and emission windows laid out in path time (R131 to R146).
-/
namespace Sys2Proof.Machine

/-- Piste `n`. -/
def Dev.piste (d : Dev) (n : Nat) : Piste := at' d.pth.p n

/-- Change piste `n`. -/
def Dev.updPiste (d : Dev) (n : Nat) (f : Piste → Piste) : Dev := { d with pth.p := upd d.pth.p n f }

/-- The brick with a key. -/
def Dev.brick? (d : Dev) (k : Nat) : Option Brick := d.crs.bricks.find? (fun b => b.key == k)

/-- Whole FCLK cycles since the domain epoch: path time now (R131). -/
def Dev.cycleNow (d : Dev) : Int := d.beatWide * 80 + d.tmb.cycle

/-- One FCLK cycle, in the unit of path time. -/
def cycUnit : Int := 4294967296

/-- LEAD of channel `n`, in cycles (R132). -/
def Dev.lead (d : Dev) (n : Nat) : Int := (d.act Reg.PTH_TIMING_TRACK_DELAY n : Int) - 96

/-- Speed entry `k` in effect: VEL in mm/s and ACC in m/s^2 (R135, R162). -/
def Dev.speedEntry (d : Dev) (k : Nat) : Nat × Nat := (d.eff Reg.PTH_SPEED_VEL k, d.eff Reg.PTH_SPEED_ACC k)

/-- The speed ceiling of an operation on channel `n` (R136). -/
def Dev.vmax (d : Dev) (n op : Nat) : Nat := if op == 2 then d.act Reg.PTH_DYN_VMAX_JUMP n else d.act Reg.PTH_DYN_VMAX_MARK n

/-! ## What a join leads to -/

/-- The entry state of a motion: point, heading, speed (0 at rest), ACC, focus position and what its emission asks for. -/
structure Target where
  x : Int
  y : Int
  hx : Int := angleOne
  hy : Int := 0
  v : Nat := 0
  acc : Nat := 1000
  z : Option Int := none
  hint : Option Nat := none
  /-- ON_SKEW and OFF_SKEW of an emitting vector, and how long its path from this state on takes. -/
  skew : Option (Int × Int) := none
  dur : Int := 0
  /-- The speed entry that the state was made from (R135). -/
  speed : Option (Nat × Nat) := none
  deriving DecidableEq, Repr, Inhabited

/-- The speed of a MARK or ARC and its ACC by a speed entry, an ARC's lowered speed with the ratio it was lowered by (R136, R138). -/
def Dev.markSpeed (d : Dev) (n : Nat) (e : Nat × Nat) (v : Vec) (sx sy : Int) : Nat × Nat × Nat :=
  let (vel, acc) := e
  let s := speedOf (min vel (d.vmax n v.op))
  if v.op == 3 then
    let r := vecLen ((sx - v.x) * buUnit) ((sy - v.y) * buUnit)
    let top := isqrt (gainSq r acc / 2)
    (min s top, acc, s)
  else (s, acc, s)

/-- The entry state of a vector that starts at (sx, sy) bu; `e` is its parameter entry and `from'` the part of it a
remnant already did: length in 1/65,536 bu (R118, R142). -/
def Dev.entryOf (d : Dev) (n : Nat) (v : Vec) (sx sy : Int) (e : W64 × W64) (r : Option Resume) (z : Int) : Target :=
  let hint := if v.hintEn && r.isNone then some v.hint else none
  let skew := if v.dark && v.op != 1 then none else some (onSkew e, offSkew e)
  let sp := d.speedEntry v.speed
  match v.op with
  | 1 =>
    let (s, acc, _) := d.markSpeed n sp v sx sy
    let (px, py) := match r with | some r => (r.x, r.y) | none => (sx, sy)
    let (hx, hy) := unitVec ((v.x - px) * buUnit) ((v.y - py) * buUnit)
    { x := px * buUnit, y := py * buUnit, hx, hy, v := s, acc, z := some (focusBase e + v.focus), hint, skew, speed := some sp,
      dur := vecLen ((v.x - px) * buUnit) ((v.y - py) * buUnit) * 2 ^ 64 / max 1 s }
  | 3 =>
    let (s, acc, _) := d.markSpeed n sp v sx sy
    let sw := sweepOf v.focus
    let c := arcOf (v.x * buUnit) (v.y * buUnit) ((sx - v.x) * buUnit) ((sy - v.y) * buUnit) sw
    let s0 := match r with | some r => r.done * 65536 | none => 0
    let (px, py) := c.1.pointAt c.2 s0
    let (hx, hy) := c.1.headingAt c.2 s0
    { x := px, y := py, hx, hy, v := s, acc, z := some z, hint, skew, speed := some sp, dur := (c.2 - s0) * 2 ^ 64 / max 1 s }
  | _ =>
    let (px, py) := match r with | some r => (r.x, r.y) | none => (sx, sy)
    let did := match r with | some r => r.done | none => 0
    { x := px * buUnit, y := py * buUnit, z := some (focusBase e + v.focus), hint, skew,
      dur := (wbits v.w0 31 0 * 80 - did) * cycUnit }

/-! ## Joins (R142 to R146) -/

/-- The parameters of a join: the speed and ACC of straight moves, and the JUMP it is planned for (VEL clamped, ACC). -/
structure JoinBy where
  restV : Nat
  restAcc : Nat
  jump : Option (Nat × Nat) := none
  stopAcc : Nat := 100000
  deriving DecidableEq, Repr, Inhabited

/-- Tag pieces as parts of a join with a dip acceleration. -/
def tagJoin (acc : Nat) (ps : List Piece) : List Piece :=
  (ps.filter (fun p => p.len ≠ 0 || p.dur ≠ 0)).map (fun p => { p with kind := 2, acc })

/-- The straight segment of a JUMP's Dubins path: the speed rises towards the JUMP's and falls back (R143). -/
def jumpStraight (c : Curve × Nat) (vt vj aj : Nat) : List Piece :=
  let vp := max vt (min vj (isqrt (vt * vt + gainSq c.2 aj / 2)))
  let r := min (c.2 / 2) (rampLength vt vp aj)
  [mkPiece c 0 r vt vp 2 aj, mkPiece c r (c.2 - 2 * r) vp vp 2 aj, mkPiece c (c.2 - r) r vp vt 2 aj]

/-- A slalom turn between two moving states, with the least ACC of those concerned (R143). -/
def slalom (e : Exit) (t : Target) (b : JoinBy) : List Piece × Nat :=
  let vt := max e.v t.v
  let aj := match b.jump with | some (_, a) => min (min e.acc t.acc) a | none => min e.acc t.acc
  let outL := rampLength e.v vt aj
  let inL := rampLength t.v vt aj
  let (px, py) := along e.x e.y e.hx e.hy outL
  let (qx, qy) := along t.x t.y t.hx t.hy (-(inL : Int))
  let r := stopLength vt aj * 2
  let curves := (shortest (dubinsAll px py e.hx e.hy qx qy t.hx t.hy r)).getD []
  let turn := curves.flatMap (fun c => match c.1, b.jump with
    | .line .., some (vj, a) => jumpStraight c vt vj a
    | _, _ => [mkPiece c 0 c.2 vt vt 2 aj])
  (ramp e.x e.y e.hx e.hy e.v vt aj 2 ++ turn ++ ramp qx qy t.hx t.hy vt t.v aj 2, aj)

/-- The back-off point of a moving entry state (R142). -/
def backOff (t : Target) (acc : Nat) : Int × Int := along t.x t.y t.hx t.hy (-(stopLength t.v acc : Int))

/-- The end of a run-out to rest. -/
def runOutEnd (e : Exit) (acc : Nat) : Int × Int := along e.x e.y e.hx e.hy (stopLength e.v acc)

/-- A join as the table of R142 gives it, with its dip acceleration. -/
def planJoin (e : Exit) (t : Target) (b : JoinBy) : List Piece × Nat :=
  let (mv, ma) := b.jump.getD (b.restV, b.restAcc)
  if e.v ≠ 0 && t.v ≠ 0 then
    let (ps, aj) := slalom e t b
    (tagJoin aj ps, aj)
  else if e.v ≠ 0 then
    let (rx, ry) := runOutEnd e e.acc
    let a := min e.acc ma
    (tagJoin a (ramp e.x e.y e.hx e.hy e.v 0 e.acc 2 ++ restMove rx ry t.x t.y mv ma 2), a)
  else if t.v ≠ 0 then
    let (bx, by') := backOff t t.acc
    let a := min t.acc ma
    (tagJoin a (restMove e.x e.y bx by' mv ma 2 ++ ramp bx by' t.hx t.hy 0 t.v t.acc 2), a)
  else (tagJoin ma (restMove e.x e.y t.x t.y mv ma 2), ma)

/-- The stop-and-return join that replaces a join outside the extent (R146). -/
def stopAndReturn (e : Exit) (t : Target) (b : JoinBy) : List Piece × Nat :=
  let (rx, ry) := runOutEnd e b.stopAcc
  let (bx, by') := if t.v = 0 then (t.x, t.y) else backOff t b.stopAcc
  let v := (b.jump.map Prod.fst).getD b.restV
  (tagJoin b.stopAcc (ramp e.x e.y e.hx e.hy e.v 0 b.stopAcc 2 ++ restMove rx ry bx by' v b.stopAcc 2 ++
    ramp bx by' t.hx t.hy 0 t.v b.stopAcc 2), b.stopAcc)

/-- Every piece of a join lies within the extent. -/
def joinInside (ext : Extent) (ps : List Piece) : Bool := ps.all (fun p => ext.holds (p.curve, p.total))

/-- The angle between two headings, in 2^-60 rad. -/
def headingChange (hx hy gx gy : Int) : Int :=
  let a := ccwAngle hx hy gx gy
  min a (2 * anglePi - a)

/-- No join is needed: both motions emit, and the corner is passed with emission on (R142). -/
def Dev.cornerPassed (d : Dev) (e : Exit) (t : Target) : Bool :=
  e.lit && t.skew.isSome && e.v ≠ 0 && e.v == t.v && e.x == t.x && e.y == t.y && t.hint.isNone && t.z == some e.z &&
    headingChange e.hx e.hy t.hx t.hy ≤ (d.act Reg.PTH_CTL_CORNER_ANGLE : Int) * 2 * anglePi / 16384

/-- The least arrival time, in path time, that HINT and the parting of windows ask for (R139): `t` is the natural arrival
and `last` the end of the window before, if there was one. A vector whose window would be empty parts nothing. -/
def arrivalAt (t : Int) (g : Target) (last : Option Int) : Int :=
  let start := match g.hint with
    | some h =>
      let c := (t + cycUnit - 1) / cycUnit
      let k := (c - h + 79) / 80
      (k * 80 + h) * cycUnit
    | none => t
  match g.skew, last with
  | some (onS, offS), some off =>
    let on := (start + onS * cycUnit + cycUnit - 1) / cycUnit
    if on ≤ off || (start + g.dur + offS * cycUnit + cycUnit - 1) / cycUnit ≤ on then start
    else
      let lastBeat := (off - 1) / 80
      if on / 80 ≤ lastBeat then start + (lastBeat + 1 - on / 80) * 80 * cycUnit else start
  | _, _ => start

/-- The end of the last non-empty emission window planned. -/
def lastWindow (ps : List Planned) : Option Int := ((ps.filter (fun p => p.on < p.off)).getLast?).map (·.off)

/-! ## The feed -/

/-- The next vector that is neither NOP nor PSET nor null from (sx, sy), with the set in force there; none where the
buffer does not tell. The Bool says that the brick ends instead. -/
def nextMotion (pset : Nat) (sx sy : Int) : List Vec → Option (Vec × Nat)
  | [] => none
  | v :: t =>
    if v.op == 0 then nextMotion pset sx sy t
    else if v.op == 5 then nextMotion (wbits v.w0 11 0) sx sy t
    else if v.isNull sx sy then nextMotion pset sx sy t
    else some (v, pset)

/-- The brick has vectors that are not in the buffer yet. -/
def Feed.more (f : Feed) : Bool := f.next < f.vcount

/-- The feed that planning draws from: the running brick while it has vectors left, else the queued one. -/
def Piste.planFeed (p : Piste) : Option (Bool × Feed) :=
  match p.run, p.queued with
  | some f, q => if !f.buf.isEmpty || f.more || f.resume.isSome then some (true, f) else q.map (fun g => (false, g))
  | none, some g => some (false, g)
  | none, none => none

/-- Put a changed feed back. -/
def Piste.setFeed (p : Piste) (isRun : Bool) (f : Feed) : Piste :=
  if isRun then { p with run := some f } else { p with queued := some f }

/-- The focus moves of a join, one after the other from path time `t`: the moves, the position after them and when they end
(R141). -/
def Dev.focusMoves (d : Dev) (n : Nat) (z : Int) (t : Int) (zs : List Int) : List FocusMove × Int × Int :=
  let fv := d.act Reg.PTH_FOCUS_FOCUS_VEL n
  let fa := d.act Reg.PTH_FOCUS_FOCUS_ACC n
  zs.foldl (fun (acc : List FocusMove × Int × Int) z =>
    if z = acc.2.1 then acc
    else (acc.1 ++ [{ t0 := acc.2.2, z0 := acc.2.1, z1 := z, vel := fv, acc := fa }], z,
          acc.2.2 + focusDur (z - acc.2.1).natAbs fv fa)) ([], z, t)

/-- When a join arrives. -/
inductive Arrive where
  /-- As soon as it can. -/
  | soonest
  /-- As HINT and the parting of windows ask (R139). -/
  | windows
  /-- At a path time (R173). -/
  | at (t : Int)
  deriving DecidableEq, Repr, Inhabited

/-- Lay a join into the plan, stretched to its arrival, with its focus moves; the exit becomes the target (R141, R145). The focus axis moves
from the end of the vector before, or of its emission where that is later, and is at rest when the next emission starts. -/
def Dev.layJoin (d : Dev) (n : Nat) (ps : List Piece) (acc : Nat) (t : Target) (zs : List Int) (how : Arrive) : Dev :=
  let p := d.piste n
  let e := p.exit
  let (moves, z, tf) := d.focusMoves n e.z (max e.t ((lastWindow p.planned).getD 0 * cycUnit)) zs
  let early : Int := match t.skew with | some (onS, _) => max 0 (-onS) | none => 0
  let natural := max (e.t + totalDur ps) (if moves.isEmpty then e.t else tf + early * cycUnit)
  let arrive := match how with
    | .soonest => natural
    | .windows => arrivalAt natural t (lastWindow p.planned)
    | .at t => max natural t
  let ps := chain e.t (stretch ps t.x t.y (arrive - e.t).toNat acc 2)
  d.updPiste n (fun p => { p with
    pieces := p.pieces ++ ps, focus := p.focus ++ moves,
    exit := { t := arrive, x := t.x, y := t.y, hx := t.hx, hy := t.hy, v := t.v, acc := t.acc, z, joined := true, speed := t.speed } })

/-- The join from an exit state to a target on piste `n`, its dip acceleration, and whether it is a stop-and-return join in
place of one that would leave the extent (R142, R146). -/
def Dev.joinFor (d : Dev) (m : Mem) (n : Nat) (e : Exit) (t : Target) (b : JoinBy) : List Piece × Nat × Bool :=
  let (ps, acc) := planJoin e t b
  if joinInside (slotExtent m (d.piste n).slot) ps then (ps, acc, false)
  else
    let (ps, acc) := stopAndReturn e t b
    (ps, acc, true)

/-- Plan a join from the present exit to a target, or its replacement where it would leave the extent (R146). -/
def Dev.planTo (d : Dev) (m : Mem) (n : Nat) (t : Target) (b : JoinBy) (zs : List Int) (how : Arrive := .windows) : Dev :=
  let (ps, acc, clipped) := d.joinFor m n (d.piste n).exit t b
  let d := d.bump Reg.PTH_STAT_JOINS_COUNT
  let d := if clipped then d.bump Reg.PTH_STAT_CLIPPED_COUNT else d
  d.layJoin n ps acc t zs how

/-- The speed entry of a feed's first JUMP: its copy, or the entry as it stands while that JUMP is not planned yet (R144). A brick has its
first JUMP ahead of every other motion (R76); one with no motion at all reads entry 0 (log entry 112). -/
def Dev.firstJump (d : Dev) (f : Feed) : Nat × Nat :=
  f.jump.getD (d.speedEntry (((f.buf.find? (fun v => v.op == 2)).map (·.speed)).getD 0))

/-- The moves a feed's straight moves without a JUMP of their own take (R144). -/
def Dev.joinBy (d : Dev) (n : Nat) (f : Feed) : JoinBy :=
  let (v, a) := d.firstJump f
  { restV := speedOf (min v (d.act Reg.PTH_DYN_VMAX_JUMP n)), restAcc := a, stopAcc := d.act Reg.PTH_DYN_STOP_ACC n }

/-- What one planning step came to. -/
inductive PlanStep where
  /-- Something was planned. -/
  | planned (d : Dev)
  /-- The next vectors are not in the buffer. -/
  | starved
  /-- Nothing is left to plan. -/
  | nothing
  deriving Repr, Inhabited

/-- Add a planned vector, and take it off the buffer. -/
def Dev.addPlanned (d : Dev) (n : Nat) (isRun : Bool) (f : Feed) (v : Planned) (e : Exit) (ps : List Piece) : Dev :=
  d.updPiste n (fun p => ({ p with pieces := p.pieces ++ ps, planned := p.planned ++ [v], exit := e }).setFeed isRun f)

/-- Round a path time up to the next whole cycle (R133). -/
def ceilCyc (t : Int) : Int := (t + cycUnit - 1) / cycUnit

/-- The emission window of a vector from its nominal start and end (R139); none for a DARK vector. -/
def windowOf (t0 t1 : Int) (e : W64 × W64) (dark : Bool) : Int × Int :=
  let on := ceilCyc (t0 + onSkew e * cycUnit)
  let off := ceilCyc (t1 + offSkew e * cycUnit)
  if dark || off ≤ on then (0, 0) else (on, off)

/-- Lay a MARK or ARC, entered at the exit state, at the speed that the join into it read (R135, R137, R138). -/
def Dev.layMark (d : Dev) (n : Nat) (isRun : Bool) (f : Feed) (v : Vec) (pe : W64 × W64) (sx sy : Int) : Dev :=
  let e := (d.piste n).exit
  let sp := e.speed.getD (d.speedEntry v.speed)
  let (s, acc, full) := d.markSpeed n sp v sx sy
  let d := if d.vmax n v.op < sp.1 then d.bump Reg.PTH_STAT_SPEED_CLAMP_COUNT else d
  let d := if s < full then d.bump Reg.PTH_STAT_ARC_SLOWED_COUNT else d
  let c := if v.op == 3 then
      arcOf (v.x * buUnit) (v.y * buUnit) ((sx - v.x) * buUnit) ((sy - v.y) * buUnit) (sweepOf v.focus)
    else lineOf (sx * buUnit) (sy * buUnit) (v.x * buUnit) (v.y * buUnit)
  let s0 : Nat := match f.resume with
    | some r => if r.v == v.v then min c.2 (r.done * 65536) else 0
    | none => 0
  let (ex, ey) := if v.op == 3 then arcEnd sx sy v.x v.y (sweepOf v.focus) else (v.x, v.y)
  let p := { mkPiece c s0 (c.2 - s0) s s 1 acc with t0 := e.t }
  let (hx, hy) := c.1.headingAt c.2 c.2
  let dark := v.op == 3 && v.dark
  let (on, off) := windowOf e.t p.t1 pe dark
  d.addPlanned n isRun { f with buf := f.buf.drop 1, resume := none, arrive := none }
    { key := f.key, v := v.v, op := v.op, sx, sy, ex, ey, t0 := e.t, t1 := p.t1, len := (c.2 - s0) / 65536,
      before := s0 / 65536, on, off, pset := f.pset, pmod := v.pmod, mpmHold := bitOf v.flags 2,
      noSeam := bitOf v.flags 1, dark, num := s, den := max 1 full }
    { e with t := p.t1, x := ex * buUnit, y := ey * buUnit, hx, hy, v := s, acc, joined := false, speed := none, lit := !dark } [p]

/-- Lay a DWELL at the exit point (R137); `left` is its duration in cycles. -/
def Dev.layDwell (d : Dev) (n : Nat) (isRun : Bool) (f : Feed) (v : Vec) (pe : W64 × W64) (sx sy : Int) : Dev :=
  let e := (d.piste n).exit
  let all := wbits v.w0 31 0 * 80
  let did := match f.resume with
    | some r => if r.v == v.v then min all r.done else 0
    | none => 0
  let dur := (all - did) * 2 ^ 32
  let p := { restPiece e.x e.y dur 1 with t0 := e.t }
  let (on, off) := windowOf e.t p.t1 pe v.dark
  d.addPlanned n isRun { f with buf := f.buf.drop 1, resume := none, arrive := none }
    { key := f.key, v := v.v, op := 4, sx, sy, ex := sx, ey := sy, t0 := e.t, t1 := p.t1, len := all - did, before := did,
      on, off, pset := f.pset, pmod := v.pmod, dwell := true, mpmHold := bitOf v.flags 2, noSeam := bitOf v.flags 1,
      dark := v.dark }
    { e with t := p.t1, v := 0, joined := false, speed := none, lit := !v.dark } [p]

/-- The entry state after a JUMP to (jx, jy) bu, of the vector that follows, or rest (R142), and whether it is such a vector's; none where
the buffer does not tell yet. -/
def Dev.afterJump (d : Dev) (m : Mem) (n : Nat) (f : Feed) (rest : List Vec) (jx jy : Int) (z : Int) : Option (Target × Bool) :=
  let atRest : Target := { x := jx * buUnit, y := jy * buUnit }
  match nextMotion f.pset jx jy rest with
  | none => if f.more then none else some (atRest, false)
  | some (w, ps) =>
    if w.op == 1 || w.op == 3 || w.op == 4 then some (d.entryOf n w jx jy ((psetEntry m ps).getD (0, 0)) none z, true)
    else some (atRest, false)

/-- Plan a JUMP: the join from the exit state to the entry state of the motion after it (R142). -/
def Dev.layJump (d : Dev) (m : Mem) (n : Nat) (isRun : Bool) (f : Feed) (v : Vec) (pe : W64 × W64) (sx sy : Int) :
    PlanStep :=
  let jz := focusBase pe + v.focus
  match d.afterJump m n f (f.buf.drop 1) v.x v.y jz with
  | none => .starved
  | some (t, joined) =>
    let (vel, acc) := d.speedEntry v.speed
    let vj := min vel (d.vmax n 2)
    let d := if d.vmax n 2 < vel then d.bump Reg.PTH_STAT_SPEED_CLAMP_COUNT else d
    let f := { f with jump := f.jump.or (some (vel, acc)) }
    let t0 := (d.piste n).exit.t
    let d := d.planTo m n t { d.joinBy n f with jump := some (speedOf vj, acc) } (jz :: t.z.toList)
    let e := (d.piste n).exit
    .planned (d.addPlanned n isRun { f with buf := f.buf.drop 1, resume := none, arrive := none }
      { key := f.key, v := v.v, op := 2, sx, sy, ex := v.x, ey := v.y, t0, t1 := e.t, pset := f.pset, dark := true }
      { e with joined, lit := false } [])

/-- One planning step of piste `n` (R158). -/
def Dev.planStep (d : Dev) (m : Mem) (n : Nat) : PlanStep :=
  let p := d.piste n
  match p.planFeed with
  | none => .nothing
  | some (isRun, f) =>
    let e := p.exit
    let sx := toBu e.x
    let sy := toBu e.y
    match f.buf with
    | [] => if f.more then .starved else .nothing
    | v :: rest =>
      let pe := (psetEntry m f.pset).getD (0, 0)
      let drop1 := { f with buf := rest }
      let put := fun (f : Feed) => d.updPiste n (fun p => p.setFeed isRun f)
      match f.resume with
      | some r =>
        if !e.joined then
          -- a remnant first jumps to its resume point (R118, R150)
          let (vel, acc) := d.firstJump f
          let b := { d.joinBy n f with jump := some (speedOf (min vel (d.vmax n 2)), acc) }
          let t := if v.op == 1 || v.op == 3 || v.op == 4 then d.entryOf n v r.sx r.sy pe (some r) e.z
            else { x := r.x * buUnit, y := r.y * buUnit }
          .planned (d.planTo m n t b t.z.toList (match f.arrive with | some a => .at a | none => .windows))
        else if v.op == 1 || v.op == 3 then
          .planned (d.layMark n isRun f v pe r.sx r.sy)
        else if v.op == 4 then .planned (d.layDwell n isRun f v pe r.x r.y)
        else .planned (put { f with resume := none })
      | none =>
        match v.op with
        | 0 => .planned (put drop1)
        | 5 => .planned (put { drop1 with pset := wbits v.w0 11 0 })
        | 2 => d.layJump m n isRun f v pe sx sy
        | 6 =>
          -- a FOCUS vector: rest at the present point, and the focus axis moves (R141)
          let t : Target := { x := sx * buUnit, y := sy * buUnit }
          let zs := [focusBase pe + v.focus]
          if e.v ≠ 0 && f.jump.isNone && f.more && f.buf.all (fun w => w.op != 2) then .starved
          else
            let d := if e.v = 0 then d.layJoin n [] 1000 t zs .soonest else d.planTo m n t (d.joinBy n f) zs
            let x := (d.piste n).exit
            .planned (d.addPlanned n isRun drop1
              { key := f.key, v := v.v, op := 6, sx, sy, ex := sx, ey := sy, t0 := e.t, t1 := x.t, pset := f.pset, dark := true,
                counted := true, entry := some (0, 0) }
              { x with joined := false, lit := false } [])
        | 4 =>
          if e.joined then .planned (d.layDwell n isRun f v pe sx sy)
          else
            let t := d.entryOf n v sx sy pe none e.z
            .planned (d.planTo m n t (d.joinBy n f) t.z.toList)
        | _ =>
          if v.isNull sx sy then
            .planned (d.addPlanned n isRun drop1
              { key := f.key, v := v.v, op := v.op, sx, sy, ex := sx, ey := sy, t0 := e.t, t1 := e.t, pset := f.pset, dark := true }
              e [])
          else
            let t := d.entryOf n v sx sy pe none e.z
            if e.joined then .planned (d.layMark n isRun f v pe sx sy)
            else if d.cornerPassed e t then
              -- a corner passed has a join of no length, which parts two windows by resting there (R139, R145)
              if arrivalAt e.t t (lastWindow p.planned) = e.t then .planned (d.layMark n isRun f v pe sx sy)
              else .planned ((d.bump Reg.PTH_STAT_JOINS_COUNT).layJoin n [] t.acc t [] .windows)
            else .planned (d.planTo m n t (d.joinBy n f) t.z.toList)

/-- The run-out to rest after the last vector: along the exit heading, then back to the point (R142). -/
def Dev.planRunOut (d : Dev) (m : Mem) (n : Nat) : Dev :=
  let p := d.piste n
  if p.ranOut then d
  else if p.exit.v = 0 then d.updPiste n (fun p => { p with ranOut := true, ranFrom := p.exit })
  else
    let f := p.run.getD { key := 0 }
    let t : Target := { x := p.exit.x, y := p.exit.y }
    (d.planTo m n t (d.joinBy n f) []).updPiste n (fun q => { q with
      ranOut := true, ranFrom := p.exit, exit := { q.exit with joined := false } })

/-- Plan until the plan reaches `until'` or nothing more can be planned; the Bool says that vectors were missing. The run-out after
a brick is planned only once the path time `now` reaches its end, as a brick queued before then follows by a join (R151). -/
def Dev.planUntil (d : Dev) (m : Mem) (n : Nat) (now until' : Int) : Nat → Dev × Bool
  | 0 => (d, false)
  | fuel + 1 =>
    let p := d.piste n
    if p.exit.t ≥ until' then (d, false)
    else match d.planStep m n with
      | .planned d => Dev.planUntil d m n now until' fuel
      | .starved => (d, true)
      | .nothing => (if p.queued.isNone && p.exit.t ≤ now then d.planRunOut m n else d, false)

end Sys2Proof.Machine
end

