-- ==== Sys2Proof/Machine/Lsr.lean ====
section
/-!
DEFINITION. LSR: the laser channels, their faults and holds, the set-point DAC and the safety monitor (chapter 07).
-/
namespace Sys2Proof.Machine

/-- Channel `n`. -/
def Dev.chan (d : Dev) (n : Nat) : Chan := at' d.lsr.ch n

/-- Change channel `n`. -/
def Dev.updChan (d : Dev) (n : Nat) (f : Chan → Chan) : Dev := { d with lsr.ch := upd d.lsr.ch n f }

/-- The channel is ARMING, ENABLED or HOLD. -/
def Chan.active (c : Chan) : Bool := c.st == .arming || c.st == .enabled || c.st == .hold

/-! ## Events of a channel (R225) -/

/-- The path point of piste `n` at path time `t` (2^-32 cycle). -/
def Piste.pointAt (p : Piste) (t : Int) : Int × Int :=
  match pieceAt t p.pieces with
  | some q => q.pointAt t
  | none => match p.pieces with
    | q :: _ => q.pointAt t
    | [] => (p.exit.x, p.exit.y)

/-- The emission point of channel `n` now, in bu (R131). -/
def Dev.emissionPoint (d : Dev) (n : Nat) : Int × Int :=
  let (x, y) := (d.piste n).pointAt (d.cycleNow * cycUnit)
  (toBu x, toBu y)

/-- The BRICK_ID running on channel `n`, or 0. -/
def Dev.brickOn (d : Dev) (n : Nat) : Nat := match (d.piste n).run with | some f => f.bid | none => 0

/-- Payload words 4 and 5 of a channel's events: the brick running and the emission point (R165, R225). -/
def Dev.chanWords (d : Dev) (n : Nat) : List W64 :=
  let (x, y) := d.emissionPoint n
  [pack [(d.brickOn n, 16)], pack [(unsigned 32 x, 32), (unsigned 32 y, 0)]]

/-- Raise an event of channel `n`. -/
def Dev.chanEvent (d : Dev) (n code detail : Nat) : Dev := d.raise (64 + n) n code detail (d.chanWords n)

/-! ## Leaving ENABLED, faults and holds (R193, R196, R197, R204 to R206) -/

/-- The pads go inactive between 0 and 80 FCLK cycles after a decision (R26, R196): how many is left open. -/
def Dev.padDelay (d : Dev) : Nat × Dev := let (v, d) := d.free; (v % 81, d)

/-- LSR decides that channel `n` leaves ARMING, ENABLED or HOLD: its pads go inactive, the Mason is told, and its state changes at the
next beat edge (R196). A fault decided in the same beat as another change prevails. `now` says that the pads are forced in this very
cycle (R200). -/
def Dev.leaveActive (d : Dev) (n : Nat) (nst : ChanState) (now : Bool) : Dev :=
  let c := d.chan n
  if c.next.isSome then
    d.updChan n (fun c => { c with next := if nst == .fault then some nst else c.next,
                                   offAt := if now then min c.offAt d.cycleNow else c.offAt })
  else
    let (k, d) := if now || c.st == .hold then (0, d) else d.padDelay
    d.updChan n (fun c => { c with next := some nst, drop := true, offAt := d.cycleNow + k, dropBeat := d.beatWide })

/-- Fault channel `n` with cause bit `bit` (R197): its bit is set, and the lowest cause of the beat is FIRST. A cause that arises in
FAULT only sets its bit; a channel that is OFF has none. -/
def Dev.faultChan (d : Dev) (n bitNo : Nat) (now : Bool := false) : Dev :=
  let c := d.chan n
  if c.active then
    let d := (d.orFlag Reg.LSR_CHAN_FAULT_CAUSE (2 ^ bitNo) n).leaveActive n .fault now
    d.updChan n (fun x => { x with first := if c.next == some .fault then min c.first bitNo else bitNo })
  else if c.st == .fault then d.orFlag Reg.LSR_CHAN_FAULT_CAUSE (2 ^ bitNo) n
  else d

/-- A fault cause that another block decides reaches LSR at the next beat edge (R197). -/
def Dev.causeFrom (d : Dev) (n bitNo : Nat) : Dev := d.updChan n (fun c => { c with pend := c.pend ||| 2 ^ bitNo })

/-- A fault that LSR detects itself: its event, then the fault (R225). -/
def Dev.lsrFault (d : Dev) (n bitNo code detail : Nat) (now : Bool := false) : Dev :=
  (d.chanEvent n code detail).faultChan n bitNo now

/-- A hold cause (bit 0 thermal, bit 1 beacon) arises on channel `n`, with the event it raises (R193, R205, R206); in HOLD it is reported
too (R195). -/
def Dev.holdChan (d : Dev) (n cause code detail : Nat) : Dev :=
  let c := d.chan n
  let d := d.updChan n (fun c => { c with
    hold := c.hold ||| 2 ^ cause, report := if c.st == .hold then c.report ||| 2 ^ cause else c.report })
  if c.next.isNone && (c.st == .enabled || c.st == .arming) then
    (d.chanEvent n code detail).leaveActive n .hold false
  else d

/-- Channel `n` in HOLD whose last hold cause has cleared arms again (R193, R225). -/
def Dev.rearm (d : Dev) (n : Nat) : Dev :=
  let c := d.chan n
  if c.st == .hold && c.hold == 0 && c.next.isNone then
    (d.updChan n (fun c => { c with st := .arming, since := d.beatWide })).chanEvent n 0x400A n
  else d

/-- A hold cause of channel `n` clears (R205, R206). -/
def Dev.releaseChan (d : Dev) (n cause : Nat) : Dev :=
  let c := d.chan n
  if !bitOf c.hold cause then d else (d.updChan n (fun c => { c with hold := c.hold - 2 ^ cause })).rearm n

/-- A hold cause that stands holds a channel that begins to arm (R193, R206). -/
def Dev.holdStanding (d : Dev) (n : Nat) : Dev :=
  if bitOf (d.chan n).hold 0 then d.holdChan n 0 0x4009 n else d

/-- The state decided in the beat before is taken, and entries to FAULT and HOLD count; a fault clears EN, and a beacon cause does not
outlive OFF or FAULT (R193, R195, R196, R221). -/
def Dev.takeNext (d : Dev) (n : Nat) : Dev :=
  match (d.chan n).next with
  | none => d.rearm n
  | some st =>
    let d := d.updChan n (fun c => { c with
      st, next := none, unverSince := none, hold := if st == .hold then c.hold else c.hold &&& 1,
      report := if st == .hold then c.hold else 0 })
    match st with
    | .fault => (d.setRwNow Reg.LSR_CHAN_CTL_EN 0 n).bump Reg.LSR_STAT_FAULTS_COUNT
    | .hold => d.bump Reg.LSR_STAT_HOLDS_COUNT
    | .off | .arming | .enabled => d

/-- EN as sampled at this edge is acted on (R20, R193, R196). Where SAFE_IN has opened since the write was accepted, the channel may not be enabled
any more (R200): it stays OFF, and EN reads 0 as after a refused write. -/
def Dev.takeEnable (d : Dev) (n : Nat) : Dev :=
  let c := d.chan n
  if d.on Reg.LSR_CHAN_CTL_EN n then
    if c.st != .off then d
    else if !d.safe.closed then d.setRwNow Reg.LSR_CHAN_CTL_EN 0 n
    else (d.updChan n (fun c => { c with st := .arming, since := d.beatWide, unverSince := none })).holdStanding n
  else if c.active then d.leaveActive n .off false
  else d

/-- What channel `n` does at a beat edge: the change decided before, a write of EN, and the causes that reach it from other blocks
(R193, R196, R197). -/
def Dev.chanEdge (d : Dev) (n : Nat) : Dev :=
  let pend := (d.chan n).pend
  let d := (d.takeNext n).takeEnable n
  if pend == 0 then d
  else [6, 7, 8].foldl (fun d k => if bitOf pend k then d.faultChan n k else d) (d.updChan n (fun c => { c with pend := 0 }))

/-- ALARM, and READY, of channel `n` are qualified asserted: at the active level that ALARM_POL and READY_POL set (R187, R192, R215). -/
def Dev.alarmOn (d : Dev) (n : Nat) : Bool := (d.chan n).alarm != d.on Reg.LSR_CHAN_CTL_ALARM_POL n
def Dev.readyOn (d : Dev) (n : Nat) : Bool := (d.chan n).ready != d.on Reg.LSR_CHAN_CTL_READY_POL n

/-! ## Pads (R199, R207) -/

/-- Nothing has taken channel `n`'s pads inactive: it is ARMING or ENABLED and stays so, or the pads have not followed a decision yet
(R196, R207). -/
def Dev.padsOn (d : Dev) (n : Nat) : Bool :=
  let c := d.chan n
  (c.next.isNone && (c.st == .arming || c.st == .enabled)) || decide (d.cycleNow < c.offAt)

/-- The level EMIT_EN is driven to (R207). -/
def Dev.emitDriven (d : Dev) (n : Nat) : Bool := d.safe.raw && d.padsOn n

/-- Channel `n` is ENABLED as its pads and its DAC show it: a channel that leaves ENABLED is until its pads are inactive (R196). -/
def Dev.emits (d : Dev) (n : Nat) : Bool := (d.chan n).st != .arming && d.padsOn n

/-- Cycle `c` of the present DAC beat lies within a sample's window moved by GATE_TRIM (R191). -/
def inWindow (s : Sample) (trim c : Int) : Bool := s.on < s.off && decide (s.on + trim ≤ c) && decide (c < s.off + trim)

/-- The level GATE is driven to in the present cycle (R191, R207). -/
def Dev.gateDriven (d : Dev) (n : Nat) : Bool :=
  let c := d.chan n
  let trim := d.actS Reg.LSR_CHAN_CTL_GATE_TRIM n
  let k : Int := d.tmb.cycle
  let next := c.pipe.head?.getD {}
  d.safe.raw && d.emits n &&
    (inWindow c.now trim k || inWindow c.prev trim (k + 80) || inWindow next trim (k - 80))

/-- The read-back level of a pad of channel `n` stands at a level it is not driven to (R197). -/
def padWrong (pad : Option Bool) (driven : Bool) : Bool := match pad with | some l => l != driven | none => false

/-- The cause conditions of channel `n` that persist (R198): SAFE_IN is open, ALARM is qualified asserted, or a pad has not come back to the
level expected. -/
def Dev.causesPersist (d : Dev) (n : Nat) : Nat :=
  let c := d.chan n
  bit (!d.safe.closed) + 2 * bit (d.alarmOn n) + 16 * bit (padWrong c.emitPad (d.emitDriven n) || padWrong c.gatePad (d.gateDriven n))

/-- At a beat edge a cause bit whose condition persists sets again, and a faulted channel goes OFF once every bit reads 0 and no
condition persists (R198). -/
def Dev.settleFault (d : Dev) (n : Nat) : Dev :=
  if (d.chan n).st != .fault then d
  else
    let p := d.causesPersist n
    if d.flag Reg.LSR_CHAN_FAULT_CAUSE n == 0 && p == 0 then d.updChan n (fun c => { c with st := .off, first := 15 })
    else d.orFlag Reg.LSR_CHAN_FAULT_CAUSE p n

/-! ## The set-point DAC (R189, R190) -/

/-- The DAC's full-scale current in µA (R189, R215). -/
def ifsMicroamp (ifs : Nat) : Nat := match ifs with | 0 => 2000 | 1 => 5000 | 2 => 10000 | _ => 20000

/-- The output current of channel `n`'s DAC in µA, as a fraction (R189). -/
def Dev.dacCurrent (d : Dev) (n : Nat) : Nat × Nat := (ifsMicroamp (d.act Reg.LSR_CHAN_CTL_IFS n) * (d.chan n).code, 65536)

/-- The set-point correction that the melt-pool loop applies is in the sample already; the scaler's code (R189). -/
def Dev.dacCode (d : Dev) (n : Nat) (s : Sample) : Nat × Bool :=
  if !d.emits n || s.on ≥ s.off then (if d.padsOn n then d.eff Reg.LSR_CHAN_SCALE_IDLE_CODE n else 0, false)
  else
    let code := (s.s * d.eff Reg.LSR_CHAN_SCALE_GAIN n + 16384) / 32768
    let top := d.eff Reg.LSR_CHAN_SCALE_DAC_MAX n
    if code > top then (top, true) else (code, false)

/-! ## The safety monitor (R200 to R203) -/

/-- The conditions of R202 that fail now, as a bit set in the order listed; `shut` is the thermal shutdown latch. -/
def Dev.heartbeatFails (d : Dev) (shut : Bool) : Nat :=
  bit (!d.on Reg.MGT_SAFE_CTL_READY_EN) + 2 * bit (!d.safe.closed) + 4 * bit (!d.tmb.run) +
    8 * bit (d.safe.expired && d.act Reg.MGT_SAFE_CTL_KICK_TIMEOUT != 0) + 16 * bit shut +
    32 * bit (d.on Reg.MGT_SAFE_CTL_FAULT_STOPS_READY && (List.range 16).any (fun n => (d.chan n).st == .fault))

end Sys2Proof.Machine
end

