-- ==== Sys2Proof/Machine/LnkSend.lean ====
section
/-!
DEFINITION. Beat Link as a sender: ports, credit and retry, routing at the originator, the feed unit's entries and the results a
receiver sends back (chapter 14).
-/
namespace Sys2Proof.Machine

/-! ## Ports (R401, R402, R404) -/

/-- Beat Link port `p`. -/
def Dev.bl (d : Dev) (p : Nat) : BlPort := at' d.lnk.ports p

/-- Change Beat Link port `p`. -/
def Dev.updBl (d : Dev) (p : Nat) (f : BlPort → BlPort) : Dev := { d with lnk.ports := upd d.lnk.ports p f }

/-- Port `p` exists and is UP. -/
def Dev.blUp (d : Dev) (p : Nat) : Bool := p < 10 && (d.bl p).st == .up

/-- Change virtual lane `vl` of port `p`. -/
def Dev.updVl (d : Dev) (p vl : Nat) (f : VLane → VLane) : Dev := d.updBl p (fun b => { b with vl := upd b.vl vl f })

/-- The receive slots of a virtual lane (R401). -/
def vlSlots (vl : Nat) : Nat := if vl == 1 then 2 else 16

/-- Frame `f`, started on port `p` now, would not still be transmitting at a launch that the port has cleared the way for (R445): each of
its blocks takes 1.28 ns of the two lanes (R394). -/
def Dev.launchClear (d : Dev) (p : Nat) (f : Frame) : Bool :=
  (List.range 8).all (fun s =>
    !at' d.tmb.launchReady s || d.cur Reg.TMB_LAUNCH_CTL_PORT s != p ||
      decide (((f.words.length + 2) * 128 : Int) ≤ timeDiff (d.cur Reg.TMB_LAUNCH_TIME_TIME s) d.ns * 100))

/-- Start waiting frames of a virtual lane while the peer's credit allows (R401, R402). -/
def Dev.pumpVl (d : Dev) (p vl : Nat) : Nat → Dev
  | 0 => d
  | fuel + 1 =>
    let v := at' (d.bl p).vl vl
    match v.queue with
    | f :: t =>
      if (v.started + 256 - v.credit) % 256 < vlSlots vl && d.launchClear p f then
        let f := { f with seq := v.next }
        let d := d.updVl p vl (fun v => { v with queue := t, started := (v.started + 1) % 256, next := (v.next + 1) % 4096,
                                                 retry := v.retry ++ [f] })
        Dev.pumpVl ((d.putFrame p f).bump Reg.LNK_STAT_FRAMES_TX_COUNT) p vl fuel
      else d
    | [] => d

/-- Start what may start on port `p`, VL0 before VL1 (R400). -/
def Dev.pumpPort (d : Dev) (p : Nat) : Dev :=
  let d := d.pumpVl p 0 ((at' (d.bl p).vl 0).queue.length + 1)
  d.pumpVl p 1 ((at' (d.bl p).vl 1).queue.length + 1)

/-- Hand a frame to port `p`. -/
def Dev.blSend (d : Dev) (p : Nat) (f : Frame) : Dev :=
  (d.updVl p (frameVl f) (fun v => { v with queue := v.queue ++ [f] })).pumpPort p

/-! ## Routing (R407, R426) -/

/-- The port that LNK_ROUTE names for a device; 15 none. -/
def Dev.routeOf (d : Dev) (dst : Nat) : Nat :=
  d.cur { Reg.LNK_ROUTE_P0 with hi := 4 * (dst % 16) + 3, lo := 4 * (dst % 16) } (dst / 16)

/-- The event of a frame that the router drops. -/
def Dev.routerDrop (d : Dev) (f : Frame) (code : Nat) : Dev :=
  (d.raise 189 0 code f.ftype [pack [(f.src, 32), (f.dst, 0)]]).bump Reg.LNK_STAT_DISCARDED_COUNT

/-- A frame that reaches the router from port `arr`, or from this device: to the local unit, onward, or dropped; whether it was
dropped (R407). -/
def Dev.routeFrame (d : Dev) (arr : Option Nat) (f : Frame) : Dev × Bool :=
  let out := d.routeOf f.dst
  if f.dst == d.id then ({ d with lnk.arrived := d.lnk.arrived ++ [(arr, f)] }, false)
  else if f.hops == 16 then (d.routerDrop f 0xB006, true)
  else if !d.blUp out || arr == some out then (d.routerDrop f 0xB007, true)
  else
    let d := if arr.isSome then d.bump Reg.LNK_STAT_FORWARDED_COUNT else d
    (d.blSend out { f with hops := f.hops + 1 }, false)

/-- A frame of this device's own making. -/
def Dev.newFrame (d : Dev) (ftype dst : Nat) (words : List W64) : Frame := { ftype, hops := 0, dst, src := d.id, seq := 0, words }

/-- The stream word (R399). -/
def streamWord (sub ring idx : Nat) : W64 := pack [(sub, 56), (ring, 50), (idx, 0)]

/-! ## Results that go back to a feeder (R413 to R415) -/

/-- The ring under which entries of a fed stream are known here: 64, plus 64 for each device number, plus the feeder's ring. -/
def virtualRing (dev ring : Nat) : Nat := 64 + 64 * dev + ring

/-- The eight words of a completion entry, PHASE 0 (R399). -/
def resultWords (x : Item) : List W64 := entryWords 0 1 0 x

/-- The DONE result of an entry of a fed stream: an EVENT frame of SUB 1 (R413, R415). -/
def Dev.sendResult (d : Dev) (e : Entry) (src code detail : Nat) (payload : List W64) : Dev :=
  let r := (e.ring - 64) % 64
  let x : Item := { kind := .done r e.idx e.tag, code, detail := detail % 2 ^ 32, payload, stamp := d.stamp src }
  if code == 0 && e.noDone then d
  else (d.routeFrame none (d.newFrame 3 ((e.ring - 64) / 64) (streamWord 1 r e.idx :: resultWords x))).1

/-- The remnant header of a brick as it stands (R83, R118). -/
def remnantHeader (b : Brick) : List W64 :=
  let r := b.resume.getD {}
  [pack [(b.id, 16), (b.reach, 0)],
   pack [(b.course, 32), (b.plume, 28), (if b.resume.isSome then r.pset else b.pset, 16), (b.deps.length, 13), (b.vcount, 0)],
   pack [(b.deps.getD 0 0, 16), (2 + bit b.seamEn, 0)], pack [(b.deps.getD 1 0, 16)], pack [(b.deps.getD 2 0, 16)],
   pack [(unsigned 32 b.xmin, 32), (unsigned 32 b.ymin, 0)], pack [(unsigned 32 b.xmax, 32), (unsigned 32 b.ymax, 0)],
   pack [(b.vcrc, 32), (if b.resume.isSome then r.v * 2 ^ 20 + r.f else 0, 0)]]

/-- The result of a fed brick goes back to its feeder: UNREACHABLE as a REMNANT frame, any other code as a DONE result (R415). -/
def Dev.fedResult (d : Dev) (b : Brick) (src code detail : Nat) (payload : List W64) : Dev :=
  let e := b.entry
  if code == 0x2004 then
    let r := (e.ring - 64) % 64
    let x : Item := { kind := .done r e.idx e.tag, code, detail, payload, stamp := d.stamp src }
    (d.routeFrame none (d.newFrame 2 ((e.ring - 64) / 64)
      (streamWord 0 r e.idx :: remnantHeader b ++ (resultWords x).drop 1))).1
  else d.sendResult e src code detail payload

/-- Answer an entry where it came from: its ring's DONE ring, or its feeder. -/
def Dev.answer (d : Dev) (e : Entry) (src code : Nat) (detail : Nat := 0) (payload : List W64 := []) : Dev :=
  if e.ring < 64 then d.complete e src code detail payload else d.sendResult e src code detail payload

/-! ## The feed unit's entries (R412, R413) -/

/-- Ring `n` is a BRICK ring that feeds another device (R412). -/
def Dev.ringFed (d : Dev) (n : Nat) : Bool :=
  d.ringClass n == 1 && d.act Reg.LNK_FEED_EN n == 1 && d.act Reg.LNK_FEED_DEVICE n != d.id

/-- Free staging pages. -/
def Dev.freePages (d : Dev) (ps : List Nat) : Dev :=
  { d with crs.pagesUsed := d.crs.pagesUsed.filter (fun p => !ps.contains p) }

/-- The fed entry of ring `r` with index `i`. -/
def Dev.fedEntry? (d : Dev) (r i : Nat) : Option FedEntry := d.lnk.fed.find? (fun x => x.entry.ring == r && x.entry.idx == i)

/-- Take a fed entry out of the feed unit, with the pages it still holds. -/
def Dev.fedRemove (d : Dev) (x : FedEntry) : Dev :=
  let d := d.freePages x.pages
  { d with lnk.fed := d.lnk.fed.filter (fun (y : FedEntry) => !(y.entry.ring == x.entry.ring && y.entry.idx == x.entry.idx)) }

/-- A fed entry completes at its feeder with a code of the feeder's own (R413). -/
def Dev.fedFail (d : Dev) (x : FedEntry) (code detail : Nat) : Dev := (d.fedRemove x).complete x.entry 190 code detail

/-- FEED_LOST of a fed entry: event and completion (R413, R426). -/
def Dev.feedLost (d : Dev) (x : FedEntry) : Dev :=
  (d.raise 190 x.entry.ring 0xB008 x.entry.ring).fedFail x 0xB008 x.entry.ring

/-- The fed entry that a BRICK frame of this device's own carries. -/
def Dev.fedOf (d : Dev) (f : Frame) : Option FedEntry :=
  if f.ftype == 1 && f.src == d.id then
    let w := f.words.getD 0 0
    d.fedEntry? (wbits w 55 50) (wbits w 31 0)
  else none

/-- The pages of a BRICK frame that needs them no longer are freed (R412). -/
def Dev.framePagesFree (d : Dev) (f : Frame) : Dev :=
  match d.fedOf f with
  | some x =>
    let d := d.freePages x.pages
    { d with lnk.fed := d.lnk.fed.map (fun (y : FedEntry) =>
      if y.entry.ring == x.entry.ring && y.entry.idx == x.entry.idx then { y with pages := [] } else y) }
  | none => d

/-- Send a fed entry's frame; an entry that its originator cannot route completes NO_ROUTE (R407, R412). -/
def Dev.fedSend (d : Dev) (x : FedEntry) (f : Frame) : Dev :=
  let d : Dev := { d with lnk.fed := d.lnk.fed.map (fun (y : FedEntry) =>
    if y.entry.ring == x.entry.ring && y.entry.idx == x.entry.idx then { y with sent := true, since := d.pwr.clock } else y) }
  let (d, dropped) := (d.bump Reg.LNK_STAT_FED_COUNT).routeFrame none f
  if dropped then d.fedFail x 0xB007 f.ftype else d

/-! ## The export of events (R416) -/

/-- Send waiting exports while their port has no VL0 frame waiting. -/
def Dev.pumpExports (d : Dev) : Nat → Dev
  | 0 => d
  | fuel + 1 =>
    let dst := d.act Reg.LNK_EVT_EXPORT_DEVICE
    let out := d.routeOf dst
    match d.lnk.exports with
    | x :: t =>
      if dst != d.id && d.blUp out && !(at' (d.bl out).vl 0).queue.isEmpty then d
      else
        let d := { d with lnk.exports := t }
        Dev.pumpExports (d.routeFrame none (d.newFrame 3 dst (streamWord 2 0 0 :: resultWords x))).1 fuel
    | [] => d

/-- Put an event on the export queue, or lose it; when room returns, EXPORT_LOST goes first (R416). -/
def Dev.exportEvent (d : Dev) (x : Item) : Dev :=
  let blk := match x.kind with | .event b => b | _ => 16
  if d.act Reg.LNK_EVT_EXPORT_EN == 0 || !bitOf (d.act Reg.LNK_EVT_EXPORT_BLOCKS) blk || x.code == 0xB00E then d
  else
    let d := d.pumpExports (d.lnk.exports.length + 1)
    let d := match d.lnk.exportLoss with
      | some l =>
        if d.lnk.exports.length < 256 then
          let y : Item := { kind := .event 11, code := 0xB00E, detail := l.count, payload := l.first.words, stamp := d.stamp 190 }
          ({ d with lnk.exports := d.lnk.exports ++ [y], lnk.exportLoss := none }).raise 190 0 0xB00E l.count l.first.words
        else d
      | none => d
    if d.lnk.exports.length < 256 then
      let d := { d with lnk.exports := d.lnk.exports ++ [x] }
      d.pumpExports (d.lnk.exports.length + 1)
    else { d.bump Reg.LNK_STAT_EXPORT_LOST_COUNT with lnk.exportLoss := some (match d.lnk.exportLoss with
      | some l => { l with count := min (l.count + 1) 0xFFFFFFFF, last := x.stamp }
      | none => { count := 1, first := x.stamp, last := x.stamp }) }

end Sys2Proof.Machine
end

