-- ==== Sys2Proof/Machine/Crs.lean ====
section
/-!
DEFINITION. The course unit's bricks: staging pages, the brick table, dependencies, completion and the checks of R87
(chapter 03; R102, R104, R369).
-/
namespace Sys2Proof.Machine

/-! ## Bricks and pages -/

/-- Change the brick with key `k`. -/
def Dev.updBrick (d : Dev) (k : Nat) (f : Brick → Brick) : Dev :=
  { d with crs.bricks := d.crs.bricks.map (fun b => if b.key == k then f b else b) }

/-- The pages a brick of so many bytes takes (R369). -/
def pagesFor (bytes : Nat) : Nat := (bytes + 4095) / 4096

/-- Pages an entry of a BRICK ring keeps reserved while it waits: 17, or fewer once it passes check 1 of R87 (R369). -/
def reservedFor (e : Entry) : Nat :=
  let bytes := e.f 2 31 0
  if e.cls != 1 || e.opcode != 1 then 0
  else if e.f 1 5 0 == 0 && 80 ≤ bytes && bytes ≤ 65600 && bytes % 16 == 0 then pagesFor bytes else 17

/-- Staging pages neither in use nor reserved (R369). -/
def Dev.pagesFree (d : Dev) : Nat :=
  let reserved := (List.range 64).foldl (fun a n =>
    a + (if d.ringClass n == 1 then 17 * (d.ring n).fetching else 0) +
      ((d.ring n).inQ ++ (d.ring n).fenced).foldl (fun a e => a + reservedFor e) 0) 0
  8192 - d.crs.pagesUsed.length - reserved

/-- Take `n` pages: the lowest-numbered free ones. -/
def takePages (used : List Nat) (n : Nat) : List Nat := ((List.range 8192).filter (fun p => !used.contains p)).take n

/-- The room R46 and R369 leave a submission ring's fetch. -/
def Dev.fetchRoom (d : Dev) (n : Nat) : Nat :=
  let c := d.ringClass n
  if c == 1 then min (d.pagesFree / 17) (if d.ringFed n then
      4096 - d.lnk.fed.length - (d.ring n).fetching - (d.ring n).inQ.length - (d.ring n).fenced.length else 4096)
  else if c == 7 then
    -- each port has a queue of its own (R313); the port of an entry not fetched yet is not known
    (List.range 4).foldl (fun a p => min a (4 - ((List.range 64).foldl (fun k r =>
      k + (if d.ringClass r == 7 then (d.ring r).fetching else 0) +
        (((d.ring r).inQ ++ (d.ring r).fenced).filter (fun e => e.cls == 7 && e.f 1 1 0 == p)).length) 0))) 4
  else if c == 5 then if d.on Reg.CDC_CTL_EN then 8 - d.queued 5 - d.cdc.queue.length else 0
  else queueDepth c - d.queued c

/-- Take a brick out of the machine: its pages are freed, and it leaves the ready list (R369). -/
def Dev.dropBrick (d : Dev) (b : Brick) : Dev :=
  { d with crs.bricks := d.crs.bricks.filter (fun x => x.key != b.key),
           crs.pagesUsed := d.crs.pagesUsed.filter (fun p => !b.pages.contains p),
           msn.ready := d.msn.ready.filter (· != b.key), msn.due := d.msn.due.filter (fun x => x.1 != b.key) }

/-! ## Completion (R88, R94, R99, R120) -/

/-- Payload words 4 to 7 of a brick's DONE entry (R88, R120). -/
def brickWords (b : Brick) (code : Nat) : List W64 :=
  let r := if code == 0 || code == 0x2005 || code == 0x2006 || !b.started then none else b.resume
  let (w6, res) := match r with
    | some r => (pack [(unsigned 32 r.x, 32), (unsigned 32 r.y, 0)], if r.x == 0 && r.y == 0 then 0 else r.v * 2 ^ 20 + r.f)
    | none => (0, 0)
  [pack [(b.id, 16), (b.marked, 0)], BitVec.ofNat 64 b.vectorsDone, w6,
   pack [(res, 32), (if b.started then b.remnants else 0, 16), (if b.started then b.dropped else 0, 0)]]

/-- The DONE entry of a brick, or the result that goes back to its feeder. -/
def Dev.answerBrick (d : Dev) (b : Brick) (src code detail : Nat) (payload : List W64) : Dev :=
  match b.fedBy with
  | some _ => d.fedResult b src code detail payload
  | none => d.complete b.entry src code detail payload

/-- An accepted brick completes with a code (R88): DONE entry, counts, table and pages. -/
def Dev.finishOne (d : Dev) (b : Brick) (code detail : Nat) : Dev :=
  let d := d.answerBrick b 40 code detail (brickWords b code)
  let d := (d.dropBrick b).bump Reg.MSN_STAT_COMPLETED_COUNT
  let d := if code == 0x2004 then
      { d.bump Reg.MSN_STAT_UNREACHABLE_COUNT with crs.unreachable := d.crs.unreachable + 1 } else d
  { d with crs.completed := d.crs.completed + 1, crs.table := Assoc.put d.crs.table b.id (0x10000 + code) 0 }

/-- A taken brick is rejected at checks 4 to 15 (R87, R100). -/
def Dev.rejectBrick (d : Dev) (b : Brick) (code detail : Nat) : Dev :=
  let d := (d.answerBrick b 41 code detail []).dropBrick b
  { d.bump Reg.MSN_STAT_REJECTED_COUNT with crs.rejected := d.crs.rejected + 1 }

/-! ## Dependencies (R104) -/

/-- How one dependency stands: met, failed or open. -/
inductive DepState where
  | met | failed | open
  deriving DecidableEq, Repr, Inhabited

/-- A dependency by the table (R104): completion with 0x0000 meets it, and with UNREACHABLE where DEP_PARTIAL is 1. -/
def Dev.depState (d : Dev) (id : Nat) : DepState :=
  let t := Assoc.get d.crs.table id 0
  if t < 0x10000 then .open
  else if t == 0x10000 || (t == 0x12004 && d.on Reg.MSN_CTL_DEP_PARTIAL) then .met
  else .failed

/-- The index of the first dependency in a state. -/
def Dev.depIndex (d : Dev) (b : Brick) (s : DepState) : Option Nat := b.deps.findIdx? (fun i => d.depState i == s)

/-- The payload of a Mason event: the brick and a point (R130). -/
def masonWords (bid : Nat) (x y : Int) : List W64 := [pack [(bid, 16)], pack [(unsigned 32 x, 32), (unsigned 32 y, 0)]]

/-- Laser `n` as the Mason sees it. -/
def Dev.laser (d : Dev) (n : Nat) : Laser := at' d.msn.lasers n

/-- READY bricks whose lasers are all OFF or in CHAN_HOLD are unplaceable from now on (R119). -/
def Dev.settleUnplaceable (d : Dev) : Dev :=
  let ok := bitset 16 (fun n => (d.laser n).st != .off && (d.laser n).st != .chanHold)
  { d with crs.bricks := d.crs.bricks.map (fun b =>
    if b.st != .ready then b
    else if b.reach &&& ok != 0 then { b with unplaceable := none }
    else { b with unplaceable := b.unplaceable.or (some d.beatWide) }) }

/-- A brick enters READY: a remnant at the head, after the remnants there; any other brick at the end (R107);
it may be unplaceable from the start (R119). -/
def Dev.enterReady (d : Dev) (k : Nat) : Dev :=
  let isRem := fun (d : Dev) (j : Nat) => match d.brick? j with | some b => b.resume.isSome | none => false
  let d := d.updBrick k (fun b => { b with st := .ready, readyAt := d.beatWide, urgent := false, unplaceable := none })
  let head := d.msn.ready.takeWhile (isRem d)
  let rest := d.msn.ready.dropWhile (isRem d)
  ({ d with msn.ready := if isRem d k then head ++ k :: rest else d.msn.ready ++ [k] }).settleUnplaceable

/-- A brick whose dependencies are met waits for its beat, or is READY (R102). -/
def Dev.depsMet (d : Dev) (b : Brick) : Dev :=
  if b.entry.sched && d.beatAhead b.entry.startBeat then d.updBrick b.key (fun b => { b with st := .waitBeat })
  else d.enterReady b.key

/-- Let the bricks in WAIT_DEP follow their dependencies: failures complete DEP_FAILED in turn, the rest move on. -/
def Dev.resolveDeps : Nat → Dev → Dev
  | 0, d => d
  | fuel + 1, d =>
    match d.crs.bricks.find? (fun b => b.st == .waitDep && (d.depIndex b .failed).isSome) with
    | some b =>
      let i := (d.depIndex b .failed).getD 0
      Dev.resolveDeps fuel ((d.raise 32 0 0x2005 i (masonWords b.id 0 0)).finishOne b 0x2005 i)
    | none =>
      match d.crs.bricks.find? (fun b => b.st == .waitDep && b.deps.all (fun i => d.depState i == .met)) with
      | some b => Dev.resolveDeps fuel (d.depsMet b)
      | none => d

/-- An accepted brick completes, and its dependents follow (R88, R104). -/
def Dev.finishBrick (d : Dev) (b : Brick) (code detail : Nat) : Dev :=
  let d := d.finishOne b code detail
  Dev.resolveDeps (d.crs.bricks.length + 1) d

/-- Complete a brick UNREACHABLE, with the event and its resume record (R119); a fed brick goes back to its feeder. -/
def Dev.unreachable (d : Dev) (b : Brick) : Dev :=
  let ws := brickWords b 0x2004
  let p := match b.resume with | some r => (r.x, r.y) | none => (0, 0)
  let d := d.raise 32 0 0x2004 b.reach ((masonWords b.id p.1 p.2) ++ ws.drop 2)
  d.finishBrick b 0x2004 b.reach

/-! ## The checks of R87 on header and vectors -/

/-- The header words of a brick as it was read (R83). -/
def headerBrick (b : Brick) (ws : List W64) : Brick :=
  let w := fun i => ws.getD i 0
  let n := wbits (w 1) 15 13
  { b with
    id := wbits (w 0) 63 16, reach := wbits (w 0) 15 0, plume := wbits (w 1) 31 28, pset := wbits (w 1) 27 16,
    deps := ([wbits (w 2) 63 16, wbits (w 3) 63 16, wbits (w 4) 63 16].take n), vcount := wbits (w 1) 12 0,
    seamEn := wbits (w 2) 0 0 == 1,
    xmin := signed 32 (wbits (w 5) 63 32), ymin := signed 32 (wbits (w 5) 31 0),
    xmax := signed 32 (wbits (w 6) 63 32), ymax := signed 32 (wbits (w 6) 31 0), vcrc := wbits (w 7) 63 32 }

/-- Check 12: the vector is well formed (R73, R75). -/
def vecOk (v : Vec) : Bool :=
  let z := fun (hi lo : Nat) => wbits v.w1 hi lo == 0
  let bare := z 59 16 && v.flags == 0
  let flagsOk := fun (dark : Bool) => v.flags / 16 == 0 && (dark || !v.dark)
  let hintOk := v.hint ≤ 79
  match v.op with
  | 0 => v.w0 == 0 && bare
  | 1 => flagsOk false && hintOk
  | 2 => z 51 40 && z 23 16 && v.flags == 0
  | 3 => flagsOk true && hintOk && v.focus != 0
  | 4 => wbits v.w0 63 32 == 0 && 1 ≤ wbits v.w0 31 0 && wbits v.w0 31 0 ≤ 20000000 && z 59 52 && flagsOk true && hintOk
  | 5 => wbits v.w0 63 12 == 0 && bare
  | 6 => v.w0 == 0 && z 59 40 && z 23 16 && v.flags == 0
  | _ => false

/-- A point lies in a brick's box (R85). -/
def Brick.inBox (b : Brick) (x y : Int) : Bool := b.xmin ≤ x && x ≤ b.xmax && b.ymin ≤ y && y ≤ b.ymax

/-- Check 14: the index of the first vector with a point outside the box, from start point (sx, sy) (R85). -/
def outOfBox (b : Brick) (sx sy : Int) : List Vec → Option Nat
  | [] => none
  | v :: t =>
    if v.op == 1 || v.op == 2 then if b.inBox v.x v.y then outOfBox b v.x v.y t else some v.v
    else if v.op == 3 then
      let h : Int := (sx - v.x).natAbs + (sy - v.y).natAbs
      if b.inBox (v.x - h) (v.y - h) && b.inBox (v.x + h) (v.y + h) then
        let (ex, ey) := arcEnd sx sy v.x v.y (sweepOf v.focus)
        outOfBox b ex ey t
      else some v.v
    else outOfBox b sx sy t

/-- The box lies within a channel's field (R85, R163). -/
def Dev.boxInField (d : Dev) (b : Brick) (n : Nat) : Bool :=
  let (x0, x1, y0, y1) := d.field n
  x0 ≤ b.xmin && b.xmax ≤ x1 && y0 ≤ b.ymin && b.ymax ≤ y1

/-- Checks 4 to 15 in order, on a brick's bytes: the code and DETAIL of the first that fails (R87). A brick with no motion vector at all
passes checks 13 and 14: the model's choice (log entry 112). -/
def Dev.brickCheck (d : Dev) (m : Mem) (b : Brick) (bytes : List Byte) : Option (Nat × Nat) :=
  let ws := leWords 8 bytes
  let w := fun i => ws.getD i 0
  let h := headerBrick b ws
  let body := bytes.drop 64
  let vs := (List.range h.vcount).map (fun i =>
    let q := leWords 2 ((body.drop (16 * i)).take 16)
    ({ v := i, w0 := q.getD 0 0, w1 := q.getD 1 0 } : Vec))
  let none' := 0xFFFFFFFF
  let depN := wbits (w 1) 15 13
  let depWords := [wbits (w 2) 63 16, wbits (w 3) 63 16, wbits (w 4) 63 16]
  let psets := h.pset :: (vs.filter (fun v => v.op == 5)).map (fun v => wbits v.w0 11 0)
  if wbits (w 1) 63 32 != b.course || 64 + 16 * h.vcount != b.bytes then some (0x2101, none')
  else if wbits (w 2) 15 1 != 0 || wbits (w 3) 15 0 != 0 || wbits (w 4) 15 0 != 0 || wbits (w 7) 31 0 != 0 ||
      h.vcount < 1 || h.vcount > 4096 || depN > 3 then some (0x2102, none')
  else if h.id == 0 then some (0x2103, none')
  else if (List.range 3).any (fun i =>
      if i < depN then depWords.getD i 0 == 0 || depWords.getD i 0 == h.id else depWords.getD i 0 != 0) then
    some (0x2104, none')
  else if Assoc.get d.crs.table h.id 0 != 0 then some (0x2105, none')
  else if h.reach == 0 then some (0x2106, none')
  else if h.xmin > h.xmax || h.ymin > h.ymax ||
      (List.range 16).any (fun n => bitOf h.reach n && !d.boxInField h n) then some (0x2107, none')
  else if crc32 (body.take (16 * h.vcount)) != wbits (w 7) 63 32 then some (0x2108, none')
  else match vs.find? (fun v => !vecOk v) with
    | some v => some (0x2109, v.v)
    | none =>
      match vs.find? Vec.isMotion with
      | some v =>
        if v.op != 2 then some (0x210A, v.v)
        else match outOfBox h 0 0 vs with
          | some i => some (0x210B, i)
          | none => if psets.all (psetValid m) then none else some (0x210C, none')
      | none => if psets.all (psetValid m) then none else some (0x210C, none')

/-- Accept a brick (R87, R93): it enters the table and the Mason's states (R102). -/
def Dev.acceptBrick (d : Dev) (b : Brick) (bytes : List Byte) : Dev :=
  let h := headerBrick b (leWords 8 bytes)
  let vs := (List.range h.vcount).map (fun i => leWords 2 ((bytes.drop (64 + 16 * i)).take 16))
  let psets := h.pset :: (vs.filter (fun q => wbits (q.getD 1 0) 63 60 == 5)).map (fun q => wbits (q.getD 0 0) 11 0)
  let h := { h with psets, st := .waitDep }
  let d := (d.updBrick b.key (fun _ => h)).bump Reg.MSN_STAT_ACCEPTED_COUNT
  let d := { d with crs.table := Assoc.put d.crs.table h.id 1 0 }
  Dev.resolveDeps (d.crs.bricks.length + 1) d

/-- Write a brick's bytes into its staging pages (R369). -/
def stageBytes (m : Mem) : List Nat → List Byte → Mem
  | [], _ => m
  | p :: ps, bs => stageBytes (m.putSram (p * 4096) (bs.take 4096)) ps (bs.drop 4096)

end Sys2Proof.Machine
end

