-- ==== Sys2Proof/Machine/Mason.lean ====
section
/-!
DEFINITION. The Mason: device hold, plume zones and trails, selection, the guard, drops and remnants (chapter 04), with what
they ask of the pistes (R147 to R151).
-/
namespace Sys2Proof.Machine

/-- Change laser `n`. -/
def Dev.updLaser (d : Dev) (n : Nat) (f : Laser → Laser) : Dev := { d with msn.lasers := upd d.msn.lasers n f }

/-- A course is open (R89): the course unit is OPEN, CLOSING or ABORTING. -/
def Dev.courseOpen (d : Dev) : Bool := d.crs.st != .idle

/-! ## Device hold (R109) -/

/-- The causes of a device hold that hold now: bit 0 host, bit 1 die temperature, bit 2 link. -/
def Dev.holdNow (d : Dev) : Nat :=
  d.act Reg.MSN_CTL_HOST_HOLD + 2 * bit d.msn.dieHold + 4 * bit (d.on Reg.HST_CTL_LINKDOWN_HOLD && !d.hst.linkUp)

/-- Bring the device hold up to date, with DEVICE_HOLD when it begins and DEVICE_RELEASE when it ends. -/
def Dev.settleHold (d : Dev) : Dev :=
  let old := d.msn.holdCauses
  let now := d.holdNow
  let d := { d with msn.holdCauses := now }
  if old == 0 && now != 0 then d.raise 32 0 0x2008 (now * 65536)
  else if old != 0 && now == 0 then d.raise 32 0 0x2009 (old * 65536)
  else d

/-! ## The gas frame and plume zones (R110, R111) -/

/-- A box in the gas frame. -/
structure GasBox where
  u0 : Int
  u1 : Int
  v0 : Int
  v1 : Int
  deriving DecidableEq, Repr, Inhabited

/-- A bed point in the gas frame, each coordinate rounded down to a whole bu (R110). -/
def Dev.gasPoint (d : Dev) (x y : Int) : Int × Int :=
  let c := d.actS Reg.MSN_GAS_COS
  let s := d.actS Reg.MSN_GAS_SIN
  ((x * c + y * s) / 2 ^ 30, (y * c - x * s) / 2 ^ 30)

/-- The smallest gas-frame box that holds the four corners of a bed box (R110). -/
def Dev.gasBox (d : Dev) (x0 y0 x1 y1 : Int) : GasBox :=
  let a := d.gasPoint x0 y0
  let b := d.gasPoint x1 y0
  let c := d.gasPoint x0 y1
  let e := d.gasPoint x1 y1
  { u0 := min (min a.1 b.1) (min c.1 e.1), u1 := max (max a.1 b.1) (max c.1 e.1),
    v0 := min (min a.2 b.2) (min c.2 e.2), v1 := max (max a.2 b.2) (max c.2 e.2) }

/-- The gas-frame box of a brick. -/
def Dev.brickBox (d : Dev) (b : Brick) : GasBox := d.gasBox b.xmin b.ymin b.xmax b.ymax

/-- The plume zone of a box of class `c` (R111). -/
def Dev.zone (d : Dev) (c : Nat) (g : GasBox) : GasBox :=
  let w : Int := 1024 * d.eff Reg.MSN_PLUME_HALF_W c
  { u0 := g.u0, u1 := g.u1 + 1024 * d.eff Reg.MSN_PLUME_DOWN c, v0 := g.v0 - w, v1 := g.v1 + w }

/-- Work of class `b` is excluded from the zone of class `c` (R111). -/
def Dev.excludes (d : Dev) (c b : Nat) : Bool := bitOf (d.eff Reg.MSN_PLUME_VICTIM c) b

/-- Two boxes meet, limits included. -/
def meets (a b : GasBox) : Bool := a.u0 ≤ b.u1 && b.u0 ≤ a.u1 && a.v0 ≤ b.v1 && b.v0 ≤ a.v1

/-! ## Trails (R112) -/

/-- WINDOW of a class, in beats times 1/256. -/
def Dev.window (d : Dev) (c : Nat) : Int := d.eff Reg.MSN_PLUME_WINDOW c

/-- The live slices of laser `n`, newest first. -/
def Dev.liveSlices (d : Dev) (n : Nat) : List Slice :=
  let l := d.laser n
  l.trail.zipIdx.filterMap (fun (s, i) =>
    if (l.sliceOpen && i == 0) || s.last + d.window s.cls * 256 > d.beatWide then some s else none)

/-- Close the open slice of laser `n`. -/
def Dev.closeSlice (d : Dev) (n : Nat) : Dev := d.updLaser n (fun l => { l with sliceOpen := false })

/-- Merge the two oldest slices of a full trail (R112). -/
def Dev.mergeOldest (d : Dev) (t : List Slice) : List Slice :=
  match t.reverse with
  | a :: b :: rest =>
    let c := if d.eff Reg.MSN_PLUME_DOWN a.cls > d.eff Reg.MSN_PLUME_DOWN b.cls then a.cls else b.cls
    let s : Slice := { u0 := min a.u0 b.u0, u1 := max a.u1 b.u1, v0 := min a.v0 b.v0, v1 := max a.v1 b.v1, cls := c,
                       bid := b.bid, opened := a.opened, last := max a.last b.last }
    (s :: rest).reverse
  | _ => t

/-- Open a slice; with 24 live slices in the trail, the two oldest merge. -/
def Dev.openSlice (d : Dev) (n : Nat) (s : Slice) : Dev :=
  let live := d.liveSlices n
  let t := if live.length ≥ 24 then d.mergeOldest live else live
  d.updLaser n (fun l => { l with trail := s :: t, sliceOpen := true })

/-- An emitting sample of laser `n`: it joins the open slice, or opens a new one (R112, R177). -/
def Dev.trailAdd (d : Dev) (n : Nat) (cls bid : Nat) (x y : Int) : Dev :=
  let (u, v) := d.gasPoint x y
  let l := d.laser n
  let now := d.beatWide
  let grow := fun (s : Slice) => { s with u0 := min s.u0 u, u1 := max s.u1 u, v0 := min s.v0 v, v1 := max s.v1 v, last := now }
  match l.sliceOpen, l.trail with
  | true, s :: t =>
    if s.cls == cls && s.bid == bid then d.updLaser n (fun l => { l with trail := grow s :: t })
    else d.openSlice n { u0 := u, u1 := u, v0 := v, v1 := v, cls, bid, opened := now, last := now }
  | _, _ => d.openSlice n { u0 := u, u1 := u, v0 := v, v1 := v, cls, bid, opened := now, last := now }

/-! ## The dispatch check (R113) -/

/-- Two bricks fail test 1 of R113 against each other. -/
def Dev.plumeClash (d : Dev) (b r : Brick) : Bool :=
  let bb := d.brickBox b
  let br := d.brickBox r
  (d.excludes r.plume b.plume && meets bb (d.zone r.plume br)) ||
  (d.excludes b.plume r.plume && meets br (d.zone b.plume bb))

/-- The bricks laser `m` runs, queues or is assigned. -/
def Dev.workOf (d : Dev) (m : Nat) : List Brick :=
  let l := d.laser m
  ([l.running, l.queued, l.assigned].filterMap (fun x => x)).filterMap d.brick?

/-- Brick `b` passes the dispatch check for laser `n` (R113); work of the same brick never fails it (R177). -/
def Dev.dispatchOk (d : Dev) (b : Brick) (n : Nat) : Bool :=
  let bb := d.brickBox b
  (List.range 16).all (fun m => m == n ||
    ((d.workOf m).all (fun r => r.key == b.key || !d.plumeClash b r) &&
     (d.liveSlices m).all (fun s => s.bid == b.id || !(d.excludes s.cls b.plume &&
       meets bb (d.zone s.cls { u0 := s.u0, u1 := s.u1, v0 := s.v0, v1 := s.v1 })))))

/-! ## Selection (R106 to R108) -/

/-- Channel `n` is reserved by the calibration in progress (R515). -/
def Dev.calReserved (d : Dev) (n : Nat) : Bool :=
  match d.cal.run with
  | some r => (2 ≤ r.kind && r.kind ≤ 5 && r.unit == n) ||
      (r.kind == 6 && (d.cur Reg.PTH_SEAM_CFG_CH_LO r.unit == n || d.cur Reg.PTH_SEAM_CFG_CH_HI r.unit == n))
  | none => false

/-- The calibration unit drives the head of channel `n`: a measurement of a kind that moves it is in progress (R515). -/
def Dev.calDrives (d : Dev) (n : Nat) : Bool :=
  match d.cal.run with
  | some r => r.phase != .draining && 3 ≤ r.kind && d.calReserved n
  | none => false

/-- A head position that the spec does not state: three free values. -/
def Dev.freeHead (d : Dev) : (Int × Int × Int) × Dev :=
  let (a, d) := d.free
  let (b, d) := d.free
  let (c, d) := d.free
  ((signed 32 a, signed 32 b, signed 32 c), d)

/-- Laser `n` is free for the selection (R106, R515). -/
def Dev.laserFree (d : Dev) (n : Nat) : Bool :=
  let l := d.laser n
  l.assigned.isNone && !d.calReserved n && (l.st == .idle || (l.st == .running && l.queued.isNone && (d.piste n).endNear))

/-- What counts in the selection of this beat: it is taken as cycle 63 ends (R103, R106). -/
def Dev.takeCut (d : Dev) : Dev :=
  { d with msn.cutReady := d.msn.ready, msn.cutFree := bitset 16 d.laserFree, msn.cutHold := d.msn.holdCauses != 0 }

/-- Laser `n` was free at the cut, and this selection has given it nothing yet. -/
def Dev.freeAtCut (d : Dev) (n : Nat) : Bool := bitOf d.msn.cutFree n && d.laserFree n

/-- The lasers not OFF, as a mask. -/
def Dev.lasersOn (d : Dev) : Nat := bitset 16 (fun n => (d.laser n).st != .off)

/-- The number of ones among the low 16 bits. -/
def popCount (v : Nat) : Nat := (List.range 16).foldl (fun a i => a + bit (bitOf v i)) 0

/-- The READY bricks in list order. -/
def Dev.readyBricks (d : Dev) : List Brick := d.msn.ready.filterMap d.brick?

/-- The READY bricks that count in the selection of this beat, in list order (R103). -/
def Dev.cutBricks (d : Dev) : List Brick := d.readyBricks.filter (fun b => d.msn.cutReady.contains b.key)

/-- The brick with the fewest reaching lasers, the earlier in the list where equal (R107). -/
def fewest (on : Nat) : List Brick → Option Brick
  | [] => none
  | b :: t => match fewest on t with
    | some c => if popCount (c.reach &&& on) < popCount (b.reach &&& on) then some c else some b
    | none => some b

/-- The oldest first: earlier entry to READY, then list order. -/
def insertOld (b : Brick) : List Brick → List Brick
  | [] => [b]
  | c :: t => if b.readyAt < c.readyAt then b :: c :: t else c :: insertOld b t

/-- What laser `n` is given this beat (R107). -/
def Dev.pickFor (d : Dev) (n : Nat) : Option Brick :=
  let ready := d.cutBricks
  let urgent := (ready.filter (·.urgent)).foldl (fun l b => insertOld b l) []
  let reach := fun (b : Brick) => bitOf b.reach n
  match urgent.filter reach with
  | u :: us => (u :: us).find? (fun b => d.dispatchOk b n)
  | [] =>
    let c := (ready.take (d.act Reg.MSN_FAIR_SCAN_DEPTH)).filter (fun b => reach b &&
      (d.on Reg.MSN_CTL_PLUME_MODE || d.dispatchOk b n) && urgent.all (fun u => !d.plumeClash b u))
    fewest d.lasersOn c

/-- Assign a brick to laser `n`: in force at the next beat edge (R106). -/
def Dev.assign (d : Dev) (n : Nat) (b : Brick) : Dev :=
  let d := d.updBrick b.key (fun b => { b with st := .queued, urgent := false, unplaceable := none })
  { d with msn.ready := d.msn.ready.filter (· != b.key),
           msn.lasers := upd d.msn.lasers n (fun l => { l with assigned := some b.key }) }

/-- The free lasers in the order of R107: longest since the last assignment first, then the lower channel. -/
def Dev.freeOrder (d : Dev) : List Nat :=
  ((List.range 16).filter d.freeAtCut).foldl (fun (l : List Nat) n =>
    l.takeWhile (fun m => (d.laser m).lastAssign ≤ (d.laser n).lastAssign) ++ n ::
      l.dropWhile (fun m => (d.laser m).lastAssign ≤ (d.laser n).lastAssign)) []

/-! ## Pistes under the Mason (R147 to R151) -/

/-- Shift pieces, focus moves and plans after path time `t` by `dt`: what a holding loop does to the rest of the plan. -/
def shiftPlan (t : Int) (dt : Nat) (p : Piste) : Piste :=
  { p with
    focus := p.focus.map (fun f => if f.t0 ≥ t then { f with t0 := f.t0 + dt } else f)
    planned := p.planned.map (fun q =>
      let c := t / cycUnit
      let k : Int := dt / 2 ^ 32
      { q with t0 := if q.t0 > t then q.t0 + dt else q.t0, t1 := if q.t1 > t then q.t1 + dt else q.t1,
               on := if q.on < q.off && q.off > c then max q.on c + k else q.on,
               off := if q.on < q.off && q.off > c then q.off + k else q.off })
    exit := { p.exit with t := p.exit.t + dt } }

/-- The pieces that lie before path time `t`, the one in force cut there, and the pieces from `t` on. -/
def splitPlan (t : Int) : List Piece → List Piece × List Piece
  | [] => ([], [])
  | q :: qs =>
    if q.t1 ≤ t && !(q.dur == 0 && q.t0 ≥ t) then let (a, b) := splitPlan t qs; (q :: a, b)
    else if q.t0 ≥ t then ([], q :: qs)
    else
      let (a, b) := q.split (q.lenAt t)
      let a := { a with t0 := q.t0, dur := (t - q.t0).toNat }
      let b := { b with t0 := t, dur := (q.t1 - t).toNat }
      ([a], b :: qs)

/-- Plan on until the path beyond `t` is `s` long, or no more of it can be planned (R147). -/
def Dev.planLength (m : Mem) (n : Nat) (t : Int) (s : Nat) : Nat → Dev → Dev
  | 0, d => d
  | fuel + 1, d =>
    if s ≤ totalLen (splitPlan t (d.piste n).pieces).2 then d
    else match d.planStep m n with
      | .planned d => Dev.planLength m n t s fuel d
      | .starved => d
      | .nothing => if (d.piste n).queued.isNone then d.planRunOut m n else d

/-- The length of part 1 of the holding loop from path time `t` (R147). -/
def Dev.loopOut (d : Dev) (n : Nat) (t : Int) : Nat :=
  (((splitPlan t (d.piste n).pieces).2.head?.map (·.v0)).getD 0) * (d.act Reg.PTH_TIMING_TRACK_DELAY n + 80) / 2 ^ 32

/-- The holding loop from path time `t` (R147): along the plan for the mirror's lag, back by a Dubins path, and stretched to
whole beats; at rest, one beat of rest. -/
def Dev.holdLoop (d : Dev) (m : Mem) (n : Nat) (t : Int) : List Piece :=
  let p := d.piste n
  let (_, after) := splitPlan t p.pieces
  let (px, py) := p.pointAt t
  let beat : Nat := 80 * 2 ^ 32
  match after with
  | [] => [restPiece px py beat 3]
  | q :: _ =>
    let v := q.v0
    if v = 0 then [restPiece px py beat 3]
    else
      let (hx, hy) := q.headingAt t
      let out := (takeLen (d.loopOut n t) after).map (fun q => mkPiece (q.curve, q.total) q.s0 q.len v v 3 q.acc)
      let last := out.getLast?.getD q
      let (ex, ey) := last.curve.pointAt last.total (last.s0 + last.len)
      let (gx, gy) := last.curve.headingAt last.total (last.s0 + last.len)
      let acc := q.acc
      let r := 2 * stopLength v acc
      let ext := slotExtent m p.slot
      let cands := (dubinsAll ex ey gx gy px py hx hy r).filter (fun c => c.all ext.holds)
      let (back, dip) := match shortest cands with
        | some c => (c.map (fun c => mkPiece c 0 c.2 v v 3 acc), acc)
        | none => stopAndReturn { x := ex, y := ey, hx := gx, hy := gy, v, acc } { x := px, y := py, hx, hy, v, acc }
            (d.joinBy n (p.run.getD { key := 0 }))
      let loop := (out ++ back).filter (fun q => q.len ≠ 0 || q.dur ≠ 0)
      let dur := totalDur loop
      let target := (dur + beat - 1) / beat * beat
      (stretch loop px py target dip 3).map (fun q => { q with kind := 3 })

/-- Put one holding loop into the plan of piste `n` at path time `t`. -/
def Dev.insertLoop (d : Dev) (m : Mem) (n : Nat) (t : Int) : Dev :=
  let d := Dev.planLength m n t (d.loopOut n t) 600 d
  let loop := chain t (d.holdLoop m n t)
  let dur := totalDur loop
  d.updPiste n (fun p =>
    let (a, b) := splitPlan t p.pieces
    let p := shiftPlan t dur p
    { p with pieces := a ++ loop ++ b.map (fun q => { q with t0 := q.t0 + dur }), holdT := t + dur, holdDur := dur })

/-- The focus position of piste `n` at path time `t` (1/16 µm). -/
def Piste.focusAt (p : Piste) (t : Int) : Int :=
  match (p.focus.filter (fun f => f.t0 ≤ t)).getLast? with
  | some f => f.posAt t
  | none => match p.focus with
    | f :: _ => f.z0
    | [] => p.exit.z

/-- Run a stop segment from the reference's present state (R148, R149); `atRest` where the reference is at rest (R159). -/
def Dev.stopPiste (d : Dev) (n : Nat) (atRest : Bool) : Dev :=
  let p := d.piste n
  if p.st == .off || p.st == .stopping then d
  else
    let t := p.refT
    let pt := p.pointAt t
    let z := p.focusAt t
    let q := pieceAt t p.pieces
    let v := if atRest then 0 else (q.map (fun q => q.speedAt t)).getD 0
    let dir := (q.map (fun q => q.headingAt t)).getD (angleOne, 0)
    let stop := (ramp pt.1 pt.2 dir.1 dir.2 v 0 (d.act Reg.PTH_DYN_STOP_ACC n) 4).map (fun q => { q with t0 := t, kind := 4 })
    let fin := (stop.head?.map (fun s => s.curve.pointAt s.total s.total)).getD pt
    let tEnd := t + totalDur stop
    (d.updPiste n (fun p => { p with
      st := .stopping,
      pieces := (splitPlan t p.pieces).1 ++ stop ++ [{ restPiece fin.1 fin.2 0 4 with t0 := tEnd }], focus := [], planned := [],
      run := none, queued := none, endNear := false, ranOut := true, stopEnd := tEnd,
      exit := { t := tEnd, x := fin.1, y := fin.2, v := 0, z } })).bump Reg.PTH_STAT_STOPS_COUNT

/-- A PARKED piste whose channel is disabled or faulted: STOPPING if its path is moving, else OFF (R151); from rest after a fault of its own
(R159). -/
def Dev.parkOff (d : Dev) (n : Nat) (atRest : Bool) : Dev :=
  let p := d.piste n
  if p.st != .parked then d
  else match pieceAt p.refT p.pieces with
    | some q => if q.speedAt p.refT = 0 && p.exit.t ≤ p.refT then d.updPiste n (fun p => { p with st := .off }) else d.stopPiste n atRest
    | none => d.updPiste n (fun p => { p with st := .off })

/-! ## Counting vectors and course totals (R88, R94, R99) -/

/-- Change the course counts of channel `n`. -/
def Dev.updChanCourse (d : Dev) (n : Nat) (f : ChanCourse → ChanCourse) : Dev :=
  { d with crs.chans := upd d.crs.chans n f }

/-- Saturating addition at all ones of 64 bits (R94). -/
def satAdd (a b : Nat) : Nat := min (a + b) (2 ^ 64 - 1)

/-! ## Remnants (R118) -/

/-- Where marking stopped: from the vectors as planned and path time `t` (R118). -/
def Dev.resumeAt (d : Dev) (m : Mem) (n : Nat) (b : Brick) (t : Int) : Resume :=
  let p := d.piste n
  let mine := p.planned.filter (fun q => q.key == b.key && q.op != 6)
  let jump := match p.run with | some f => f.jump | none => none
  match mine.find? (fun q => q.t0 ≤ t && t < q.t1 && q.op != 2) with
  | some q =>
    let pt := p.pointAt t
    let all := q.before + q.len
    let did := if q.dwell then all - ((q.t1 - t + cycUnit - 1) / cycUnit).toNat
      else match pieceAt t p.pieces with | some c => (c.s0 + c.lenAt t) / 65536 | none => q.before
    { v := q.v, f := min 1048575 (did * 1048576 / max 1 all), x := toBu pt.1, y := toBu pt.2, sx := q.sx, sy := q.sy,
      done := did, pset := q.pset, jump }
  | none =>
    match mine.find? (fun q => q.t1 > t) with
    | some q =>
      let old := match b.resume with | some r => if r.v == q.v then some r else none | none => none
      match old with
      | some r => if q.before == 0 then { v := q.v, x := q.sx, y := q.sy, sx := q.sx, sy := q.sy, pset := q.pset, jump } else r
      | none => { v := q.v, x := q.sx, y := q.sy, sx := q.sx, sy := q.sy, pset := q.pset, jump }
    | none =>
      match b.resume, mine.getLast? with
      | some r, none => r
      | _, last =>
        let (sx, sy, v, ps) := match last, p.run with
          | some q, _ => (q.ex, q.ey, q.v + 1, q.pset)
          | none, some f => (0, 0, 0, f.pset)
          | none, none => (0, 0, 0, b.pset)
        let rest := ((List.range (b.vcount - v)).map (fun i => b.vec m (v + i))).filter (fun w => w.op != 6)
        match nextMotion ps sx sy rest with
        | some (w, ps) => { v := w.v, x := sx, y := sy, sx, sy, pset := ps, jump }
        | none => { v := b.vcount, x := sx, y := sy, sx, sy, pset := ps, jump }

/-- The length, in 2^-32 bu, of the vectors with emission that the path traces between path times `t0` and `t1` (R94); `blended`
is a seam vector this laser takes over, which its own window does not show yet. -/
def Piste.litLength (p : Piste) (blended : Option (Nat × Nat)) (t0 t1 : Int) : Nat :=
  p.planned.foldl (fun a q =>
    if !q.dwell && q.op != 2 && (q.on < q.off || blended == some (q.key, q.v)) then
      let lo := max t0 q.t0
      let hi := min t1 (if q.counted && blended.isNone then min q.t1 (q.off * cycUnit) else q.t1)
      if hi ≤ lo then a else p.pieces.foldl (fun a c => if c.kind == 1 then a + (c.lenAt hi - c.lenAt lo) else a) a
    else a) 0

/-- What the samples issued for laser `n` counted beyond path time `t`, from which its pad is dark, is taken back (R94). -/
def Dev.uncountAfter (d : Dev) (n : Nat) (t : Int) : Dev :=
  let p := d.piste n
  let c := d.chan n
  let beats := ((c.now :: c.pipe).filter (fun (s : Sample) => s.on < s.off && decide (t ≤ (s.beat : Int) * 80 * cycUnit))).length
  let beyond := p.litLength none t ((p.lastT + 80) * cycUnit)
  { d with crs.chans := upd d.crs.chans n (fun (x : ChanCourse) =>
      { x with emitBeats := x.emitBeats - beats, length := x.length - beyond }) }

/-- The vectors of laser `n` that satisfy `done` are completed on it (R88, R94, R99). -/
def Dev.countVectors (d : Dev) (n : Nat) (done : Planned → Bool) : Dev :=
  let new := (d.piste n).planned.filter (fun q => !q.counted && done q)
  let d := new.foldl (fun d q =>
    let d := d.updBrick q.key (fun b => { b with vectorsDone := b.vectorsDone + 1 })
    (d.bump Reg.MSN_STAT_VECTORS_COUNT).updChanCourse n (fun c => { c with vectors := satAdd c.vectors 1 })) d
  d.updPiste n (fun p => { p with planned := p.planned.map (fun q => if done q then { q with counted := true } else q) })

/-- Laser `n` marked part of the bricks of those samples of it that satisfy `lit` (R88). -/
def Dev.markBricks (d : Dev) (n : Nat) (lit : Sample → Bool) : Dev :=
  let c := d.chan n
  (c.now :: c.pipe).foldl (fun d s =>
    if s.on < s.off && lit s then d.updBrick s.key (fun b => { b with marked := b.marked ||| 2 ^ n }) else d) d

/-- What laser `n` has completed and marked by path time `t` counts (R88, R99). -/
def Dev.countUntil (d : Dev) (n : Nat) (t : Int) : Dev :=
  (d.countVectors n (fun q => q.t1 ≤ t)).markBricks n (fun s => decide ((s.beat * 80 + s.on) * cycUnit < t))

/-- The running brick of laser `n` completes: all of it counts (R88). -/
def Dev.countBrick (d : Dev) (n key : Nat) : Dev := (d.countVectors n (fun q => q.key == key)).markBricks n (fun s => s.key == key)

/-- Brick `k`, of laser `n`, becomes a remnant with a resume position and a REACH, and enters READY in beat d + 2 (R118). -/
def Dev.remnantOf (d : Dev) (n k : Nat) (r : Resume) (reach : Nat) (isDrop : Bool) : Dev :=
  let bid := match d.brick? k with | some b => b.id | none => 0
  let d := d.updBrick k (fun b => { b with
    resume := some r, reach, remnants := b.remnants + 1, dropped := if isDrop then b.dropped ||| 2 ^ n else b.dropped })
  let decided := if isDrop then (d.chan n).dropBeat else d.beatWide
  let d := { d with msn.due := d.msn.due ++ [(k, decided + 2)], crs.remnants := d.crs.remnants + 1 }
  (d.bump Reg.MSN_STAT_REMNANTS_COUNT).raise 34 n 0x2003 (n + reach * 65536) (masonWords bid r.x r.y)

/-- Turn what is left of the brick on laser `n` into a remnant that resumes where the path stood at `t` (R118). -/
def Dev.makeRemnant (d : Dev) (m : Mem) (n : Nat) (t : Int) (isDrop : Bool) : Dev :=
  match (d.laser n).running with
  | none => d
  | some k => match d.brick? k with
    | none => d
    | some b =>
      let reach := if isDrop && bitOf b.reach n then b.reach - 2 ^ n else b.reach
      (d.remnantOf n k (d.resumeAt m n b t) reach isDrop).updLaser n (fun l => { l with running := none })

/-- What a remnant's header holds (R83, R118): REACH, the set in force at the resume point, REMNANT and RESUME, over its parent's words. -/
def Mem.remnantHeader (m : Mem) (b : Brick) (r : Resume) : Mem :=
  let a := b.pages.headD 0 * 4096
  let w := fun (i : Nat) => memWord m.sram (a + 8 * i)
  let keep := fun (i hi lo : Nat) => (wbits (w i) hi lo, lo)
  [(0, pack [keep 0 63 16, (b.reach, 0)]),
   (1, pack [keep 1 63 28, (r.pset, 16), keep 1 15 0]),
   (2, pack [keep 2 63 2, (1, 1), keep 2 0 0]),
   (7, pack [keep 7 63 32, (r.v * 2 ^ 20 + r.f, 0)])].foldl (fun m (p : Nat × W64) => m.putSram (a + 8 * p.1) (wordBytes [p.2])) m

/-- The headers of the bricks of which `new` has made one more remnant than `old` (R102, R118). -/
def Mem.withRemnants (m : Mem) (old new : Dev) : Mem :=
  new.crs.bricks.foldl (fun m b => match b.resume, old.brick? b.key with
    | some r, some o => if o.remnants == b.remnants then m else m.remnantHeader b r
    | _, _ => m) m

/-- A command's effect `d` on the device, with the headers of the remnants it made. -/
def State.withRemnants (s : State) (d : Dev) : State := { s with mem := s.mem.withRemnants s.dev d, dev := d }

/-- The queued brick, and an assignment not yet in force, go back to READY unchanged (R102, R117). -/
def Dev.returnQueued (d : Dev) (n : Nat) : Dev :=
  let l := d.laser n
  let d := d.updLaser n (fun l => { l with queued := none, assigned := none })
  let d := d.updPiste n (fun p => { p with queued := none })
  [l.queued, l.assigned].foldl (fun d k => match k with | some k => d.enterReady k | none => d) d

/-! ## Laser state changes (R117, R119) -/

/-- Move laser `n` to a state; leaving RUNNING and PLUME_HELD closes its slice (R112). -/
def Dev.setLaser (d : Dev) (n : Nat) (st : LaserState) : Dev :=
  let d := if st == .running || st == .plumeHeld then d else d.closeSlice n
  (d.updLaser n (fun l => { l with st })).settleUnplaceable

/-- The channel is back in ENABLED: OFF and CHAN_HOLD go to IDLE, and its piste is PARKED (R151, R195). -/
def Dev.laserEnabled (d : Dev) (n : Nat) : Dev :=
  let st := (d.laser n).st
  let d := if st == .off || st == .chanHold then d.setLaser n .idle else d
  let (x0, x1, y0, y1) := d.field n
  d.updPiste n (fun p =>
    if p.st != .off then p
    else if p.issued then { p with st := .parked }
    else { p with st := .parked, pieces := [], focus := [],
                  exit := { t := p.refT, x := (x0 + x1) * buUnit / 2, y := (y0 + y1) * buUnit / 2 } })

/-- What follows STOPPING on channel `n`: by the state LSR has it in. -/
def Dev.afterStop (d : Dev) (n : Nat) : LaserState :=
  match (d.chan n).st with
  | .off | .fault => .off
  | .hold | .arming => .chanHold
  | .enabled => .idle

end Sys2Proof.Machine
end

