-- ==== Sys2Proof/Machine/Seam.lean ====
section
/-!
DEFINITION. Mortar zones and seamless hand-over (chapter 06): zones, candidates, offers, the blend and what interrupts it.
Times along a vector are path times in 2^-32 cycle; a MARK runs at constant speed, so time and length are proportional.
-/
namespace Sys2Proof.Machine

/-! ## Zones (R166, R167, R181) -/

/-- The fields of zone `z`. -/
def Dev.zoneC (d : Dev) (z : Nat) : Int := signed 32 (d.cur Reg.PTH_SEAM_LINE_C z)
def Dev.zoneHalf (d : Dev) (z : Nat) : Int := d.cur Reg.PTH_SEAM_LINE_HALF z
def Dev.zoneLo (d : Dev) (z : Nat) : Int := signed 32 (d.cur Reg.PTH_SEAM_SPAN_LO z)
def Dev.zoneHi (d : Dev) (z : Nat) : Int := signed 32 (d.cur Reg.PTH_SEAM_SPAN_HI z)
def Dev.zoneAxisY (d : Dev) (z : Nat) : Bool := d.cur Reg.PTH_SEAM_CFG_AXIS z == 1

/-- The zone's closed box lies within a channel's field (R167). -/
def Dev.zoneInField (d : Dev) (z n : Nat) : Bool :=
  let (x0, x1, y0, y1) := d.field n
  let c := d.zoneC z
  let h := d.zoneHalf z
  if d.zoneAxisY z then
    decide (x0 ≤ d.zoneLo z) && decide (d.zoneHi z ≤ x1) && decide (y0 ≤ c - h) && decide (c + h ≤ y1)
  else decide (x0 ≤ c - h) && decide (c + h ≤ x1) && decide (y0 ≤ d.zoneLo z) && decide (d.zoneHi z ≤ y1)

/-- The conditions of R167 under which zone `z` is usable. -/
def Dev.zoneUsable (d : Dev) (z : Nat) : Bool :=
  let lo := d.cur Reg.PTH_SEAM_CFG_CH_LO z
  let hi := d.cur Reg.PTH_SEAM_CFG_CH_HI z
  let k := d.cur Reg.PTH_SEAM_CFG_K z
  lo != hi && d.zoneInField z lo && d.zoneInField z hi &&
    decide ((d.cur Reg.PTH_SEAM_BLEND_BLEND z : Int) ≤ 2 * d.zoneHalf z) && 2 ≤ k && k ≤ 16 &&
    d.cur Reg.PTH_SEAM_CFG_BOND_MODE z != 3

/-- REG_OK of zone `z` (R181). -/
def Dev.zoneRegOk (d : Dev) (z : Nat) : Bool :=
  let s := at' d.pth.zones z
  s.regValid && s.residual ≤ d.cur Reg.PTH_SEAM_REG_REG_TOL z

/-- Zone `z` is SUSPENDED (R167, R181). -/
def Dev.zoneSuspended (d : Dev) (z : Nat) : Bool :=
  (at' d.pth.zones z).suspended || (d.cur Reg.PTH_SEAM_CFG_REG_REQ z == 1 && !d.zoneRegOk z)

/-- Zone `z` is ACTIVE (R184). -/
def Dev.zoneActive (d : Dev) (z : Nat) : Bool := d.on Reg.PTH_SEAM_CFG_EN z && !d.zoneSuspended z

/-- At every COURSE_BEGIN the enabled zones are tested again (R167). -/
def Dev.testZones (d : Dev) : Dev :=
  forRange 32 d (fun d z =>
    let bad := d.cur Reg.PTH_SEAM_CFG_EN z == 1 && !d.zoneUsable z
    let d := { d with pth.zones := upd d.pth.zones z (fun s => { s with suspended := bad }) }
    if bad then d.raise (48 + d.cur Reg.PTH_SEAM_CFG_CH_LO z) z 0x3104 z else d)

/-- A grid swap of channel `n` clears REG_VALID of every zone that names it, and raises SEAM_REG_STALE for each (R181). -/
def Dev.staleZones (d : Dev) (n : Nat) : Dev :=
  forRange 32 d (fun d z =>
    if d.cur Reg.PTH_SEAM_CFG_CH_LO z == n || d.cur Reg.PTH_SEAM_CFG_CH_HI z == n then
      ({ d with pth.zones := upd d.pth.zones z (fun s => { s with regValid := false }) }).raise (48 + n) z 0x3103 (z + n * 32)
    else d)

/-! ## The bond pattern (R170) -/

/-- The bond index of zone `z` for a course with `stair` steps of the staircase. -/
def Dev.bondIndex (d : Dev) (z course stair : Nat) : Nat :=
  let phase := d.cur Reg.PTH_SEAM_CFG_PHASE z
  let kk := d.cur Reg.PTH_SEAM_CFG_K z
  match d.cur Reg.PTH_SEAM_CFG_BOND_MODE z with
  | 0 => phase % kk
  | 1 => (course * d.cur Reg.PTH_SEAM_CFG_STRIDE z + phase) % kk
  | _ => (course * d.cur Reg.PTH_SEAM_CFG_STRIDE z + phase + stair) % kk

/-- The hand-over coordinate of bond index `k` in zone `z`. -/
def Dev.bondH (d : Dev) (z k : Nat) : Int :=
  let blend : Int := d.cur Reg.PTH_SEAM_BLEND_BLEND z
  let span := 2 * d.zoneHalf z - blend
  d.zoneC z - d.zoneHalf z + blend / 2 + (k : Int) * span / ((d.cur Reg.PTH_SEAM_CFG_K z : Int) - 1)

/-! ## Candidates (R168, R169, R171) -/

/-- Length, in 1/65,536 bu from a vector's start, of the point with a given AXIS coordinate, on a vector that runs from `s0` to
`e0` on AXIS over length `len`. -/
def lengthAt (s0 e0 : Int) (len : Nat) (c : Int) : Int := len * (c - s0) / (e0 - s0)

/-- The seam that vector `q` of laser `n` would make in zone `z`, with the length to the zone's near edge (R168). -/
def Dev.candidateIn (d : Dev) (n : Nat) (q : Planned) (b : Brick) (z : Nat) : Option (Int × Seam) :=
  let lo := d.cur Reg.PTH_SEAM_CFG_CH_LO z
  let hi := d.cur Reg.PTH_SEAM_CFG_CH_HI z
  let up := n == lo
  let r := if up then hi else lo
  let y := d.zoneAxisY z
  let all := q.before + q.len
  let (sa, so) := if y then (q.sy, q.sx) else (q.sx, q.sy)
  let (ea, eo) := if y then (q.ey, q.ex) else (q.ex, q.ey)
  -- the point from which a resumed vector goes on
  let pa := if all = 0 then sa else sa + (ea - sa) * q.before / all
  let po := if all = 0 then so else so + (eo - so) * q.before / all
  let c := d.zoneC z
  let h := d.zoneHalf z
  let crosses := if up then decide (pa < c + h) && decide (ea > c + h) else decide (pa > c - h) && decide (ea < c - h)
  let inSpan := decide (d.zoneLo z ≤ po) && decide (po ≤ d.zoneHi z) && decide (d.zoneLo z ≤ eo) && decide (eo ≤ d.zoneHi z)
  if !(d.on Reg.PTH_SEAM_CTL_EN && d.zoneActive z && (up || n == hi) && r < 16 && crosses && inSpan &&
      bitOf b.reach r && (d.chan r).st == .enabled && q.t0 < q.t1 && q.len ≠ 0) then none
  else
    let stairNum := (so - d.zoneLo z) * (ea - sa) + (c - sa) * (eo - so)
    let stairDen := (ea - sa) * d.cur Reg.PTH_SEAM_SPREAD_PITCH z
    let stair := if stairDen < 0 then (-stairNum) / (-stairDen) else stairNum / stairDen
    let hc := d.bondH z (d.bondIndex z b.course stair.toNat)
    let near := lengthAt sa ea all (if up then c - h else c + h)
    let far := lengthAt sa ea all (if up then c + h else c - h)
    let blend := d.cur Reg.PTH_SEAM_BLEND_BLEND z * 65536
    let b0 := lengthAt sa ea all hc - blend / 2
    let enter := max near q.before
    let time := fun (l : Int) => q.t0 + (q.t1 - q.t0) * (l - q.before) / q.len
    if decide (b0 < q.before) || decide (b0 + blend > all) then none
    else some (near,
      { zone := z, donor := n, receiver := r, key := q.key, bid := b.id, v := q.v, sx := q.sx, sy := q.sy,
        enter := enter.toNat, tIn := time enter, tOut := time far, blend0 := time b0,
        blendDur := (time (b0 + blend) - time b0).toNat,
        reserve := (time (b0 + d.cur Reg.PTH_SEAM_BLEND_RESERVE z * 65536) - time b0).toNat })

/-- The seam that vector `q` of laser `n` is a candidate for: the zone whose near edge it crosses first (R169). -/
def Dev.candidate (d : Dev) (n : Nat) (q : Planned) : Option Seam :=
  match d.brick? q.key with
  | none => none
  | some b =>
    if q.op != 1 || !b.seamEn || q.noSeam then none
    else ((List.range 32).foldl (fun best z =>
      match best, d.candidateIn n q b z with
      | none, c => c
      | some x, some y => if y.1 < x.1 then some y else some x
      | some x, none => some x) none).map Prod.snd

/-- The beats from the present one to the beat of `t_in`, rounded down. -/
def Dev.leadTo (d : Dev) (t : Int) : Int := t / (80 * cycUnit) - d.beatWide

/-- The brick that piste `n` runs. -/
def Dev.runKey (d : Dev) (n : Nat) : Option Nat := (d.piste n).run.map (·.key)

/-- The seam of which laser `n` is the donor, or the receiver, in the brick it runs: one of a brick still queued does not concern its samples
(R173). -/
def Dev.seamOfDonor (d : Dev) (n : Nat) : Option Seam := d.pth.seams.find? (fun s => s.donor == n && d.runKey n == some s.key)
def Dev.seamOfReceiver (d : Dev) (n : Nat) : Option Seam := d.pth.seams.find? (fun s => s.receiver == n && d.runKey n == some s.key)

/-- Change the seam between two lasers. -/
def Dev.updSeam (d : Dev) (s : Seam) (f : Seam → Seam) : Dev :=
  { d with pth.seams := d.pth.seams.map (fun x => if x.donor == s.donor && x.key == s.key then f x else x) }

/-- Forget a seam. -/
def Dev.dropSeam (d : Dev) (s : Seam) : Dev :=
  { d with pth.seams := d.pth.seams.filter (fun x => !(x.donor == s.donor && x.key == s.key)) }

/-- The vectors of brick `key` on laser `n` up to index `v` have been tried (R171). -/
def Dev.seamMark (d : Dev) (n key v : Nat) : Dev :=
  let mark := fun (f : Feed) => if f.key == key then { f with seamTried := max f.seamTried (v + 1) } else f
  d.updPiste n (fun p => { p with run := p.run.map mark, queued := p.queued.map mark })

/-- The first candidate of laser `n` that has not been tried, of the bricks in force on it (R171); what it is handing over already is no
longer its own (R169). -/
def Dev.nextCandidate (d : Dev) (n : Nat) : Option Seam :=
  let p := d.piste n
  let mine := [p.run, p.queued].filterMap (fun f => f)
  (p.planned.filter (fun q => mine.any (fun f => f.key == q.key && f.seamTried ≤ q.v) &&
    !d.pth.seams.any (fun s => s.donor == n && s.key == q.key))).findSome? (d.candidate n)

/-- The path time of the head reference that piste `n` issues in the present beat, or of its emission point if that is later. -/
def Dev.refTime (d : Dev) (n : Nat) : Int := (d.beatWide * 80 + 160 + max 0 (d.lead n)) * cycUnit

/-- SEAM_OFFER of channel `n` (R171): at cycle 0 of the beat SEAM_LEAD beats before `t_in` the piste, planned that far ahead, raises an
offer; with less time left the candidate is declined. -/
def Dev.seamOffer (d : Dev) (m : Mem) (n : Nat) : Dev :=
  if ((d.piste n).st != .running && (d.piste n).st != .holding) || d.tmb.cycle != 0 then d
  else
    let lead := d.act Reg.PTH_SEAM_CTL_SEAM_LEAD
    let ahead := (d.planUntil m n (d.refTime n) (((d.beatWide + lead + 1) * 80) * cycUnit) 1024).1
    match ahead.nextCandidate n with
    | none => d
    | some s =>
      let left := d.leadTo s.tIn
      if left > lead then d
      else
        let d := ahead.seamMark n s.key s.v
        if left == lead then
          ({ d with pth.offers := d.pth.offers ++ [s] }).bump Reg.PTH_STAT_SEAM_OFFERS_COUNT
        else d.bump Reg.PTH_STAT_SEAM_DECLINED_COUNT

/-! ## Acceptance (R172, R173) -/

/-- The feed of a brick, or remnant, on a piste. -/
def feedOf (b : Brick) : Feed :=
  { key := b.key, plume := b.plume, bid := b.id, vcount := b.vcount, pset := (b.resume.map (·.pset)).getD b.pset,
    jump := (b.resume.map (·.jump)).getD none, resume := b.resume, next := (b.resume.map (·.v)).getD 0, refill := true,
    seamTried := b.handedV }

/-- The feed with which a receiver takes a brick over in vector `s.v` (R173). -/
def Dev.seamFeed (d : Dev) (m : Mem) (b : Brick) (s : Seam) : Feed :=
  let donor := d.piste s.donor
  let q := (donor.planned.find? (fun q => q.key == s.key && q.v == s.v)).getD {}
  let p := donor.pointAt s.tIn
  let jump := match donor.run with | some f => f.jump | none => none
  { key := b.key, plume := b.plume, bid := b.id, vcount := b.vcount, pset := q.pset, jump, next := s.v + 1, refill := true,
    buf := [b.vec m s.v], arrive := some s.tIn, seamTried := s.v + 1,
    resume := some { v := s.v, x := toBu p.1, y := toBu p.2, sx := s.sx, sy := s.sy, done := s.enter, pset := q.pset, jump } }

/-- The state of the path at time `t`. -/
def Piste.exitAt (p : Piste) (t : Int) : Exit :=
  let (x, y) := p.pointAt t
  let q := pieceAt t p.pieces
  let (hx, hy) := (q.map (fun q => q.headingAt t)).getD (angleOne, 0)
  { t, x, y, hx, hy, v := (q.map (fun q => q.speedAt t)).getD 0, acc := (q.map (·.acc)).getD 1000, z := p.focusAt t }

/-- The state from which laser `n` would set out on an assignment made now: parked, from the first sample (R106, R151), or at the
end of its running brick. -/
def Dev.setOut (d : Dev) (m : Mem) (n : Nat) : Exit :=
  let p := d.piste n
  if p.st == .running && p.ranOut then p.ranFrom
  else if p.st == .running then
    ((d.planUntil m n (d.refTime n) ((d.cycleNow + 160 + d.lead n + 640) * cycUnit) 512).1.piste n).exit
  else if p.refT < p.exit.t then p.exitAt p.refT
  else { p.exit with t := (d.beatWide + 7) * 80 * cycUnit, v := 0, joined := false }

/-- The receiver can be at the entry state at `t_in` (R172, R173). -/
def Dev.canArrive (d : Dev) (m : Mem) (b : Brick) (s : Seam) : Bool :=
  let n := s.receiver
  let f := d.seamFeed m b s
  let e := d.setOut m n
  match f.buf, f.resume with
  | v :: _, some r =>
    let (vel, acc) := f.jump.getD (100, 1000)
    let t := d.entryOf n v r.sx r.sy ((psetEntry m f.pset).getD (0, 0)) (some r) e.z
    let jb := { d.joinBy n f with jump := some (speedOf (min vel (d.vmax n 2)), acc) }
    let (ps, _, _) := d.joinFor m n e t jb
    let (_, _, tf) := d.focusMoves n e.z e.t t.z.toList
    decide (max (e.t + totalDur ps) tf ≤ s.tIn)
  | _, _ => false

/-- Decline an offer. -/
def Dev.declineOffer (d : Dev) : Dev := d.bump Reg.PTH_STAT_SEAM_DECLINED_COUNT

/-! ## The blend (R174 to R176) -/

/-- The donor's exit as it stands (R174). -/
def Seam.exitNow (s : Seam) : Int :=
  match s.exit with
  | some t => t
  | none => min s.tOut (s.blend0 + s.slid + s.blendDur + s.reserve)

/-- (1 - cos(pi x)) / 2, or x, in 2^-32, of x in 2^-32. -/
def fadeWeight (cosine : Bool) (x : Nat) : Nat :=
  if cosine then ((2 ^ 60 - (sinCos (anglePi * x / 2 ^ 32)).2) / 2 ^ 29).toNat else x

/-- The mean weight over the 80 cycles of a DAC beat that starts at cycle `tb`, with the receiver emitting, taken at the middle
of each cycle: 0 before the blend and 1 after its end (R175). -/
def Seam.meanWeight (s : Seam) (cosine : Bool) (tb : Int) : Nat :=
  let from' := max (tb * cycUnit) s.blend0
  ((List.range 80).foldl (fun (a : Nat) (i : Nat) =>
    let mid := (tb + i) * cycUnit + cycUnit / 2
    if mid < s.blend0 then a
    else
      let x := (s.elapsed + (mid - from').toNat) * 2 ^ 32 / max 1 s.blendDur
      a + fadeWeight cosine (min x (2 ^ 32))) 0) / 80

/-- The right-hand column of R178 applies: the receiver has emitted in the blend, or the exit is fixed, which it never is before the blend starts
(R174). -/
def Seam.begun (s : Seam) : Bool := s.started || s.exit.isSome

/-- Where the blend stands for a beat. -/
inductive BlendPhase where
  /-- The blend has not begun by the end of the DAC beat. -/
  | before
  | blending
  deriving DecidableEq, Repr, Inhabited

/-- The phase of the DAC beat that starts at cycle `tb`. -/
def Seam.phase (s : Seam) (tb : Int) : BlendPhase := if (tb + 80) * cycUnit ≤ s.blend0 then .before else .blending

/-! ## Ends of a seam (R177 to R180) -/

/-- Cut the donor's plan at its exit: what follows V is planned from there (R174). -/
def Dev.cutAtExit (d : Dev) (s : Seam) : Dev :=
  let t := s.exitNow
  let p := d.piste s.donor
  let (before, _) := splitPlan t p.pieces
  let (x, y) := p.pointAt t
  let q := pieceAt (t - 1) p.pieces
  let (hx, hy) := (q.map (fun q => q.headingAt t)).getD (angleOne, 0)
  let v := (q.map (fun q => q.v0)).getD 0
  let acc := (q.map (·.acc)).getD 1000
  let z := p.focusAt t
  (d.updSeam s (fun s => { s with exit := some t })).updPiste s.donor (fun p => { p with
    pieces := before, focus := p.focus.filter (fun f => f.t0 < t),
    planned := (p.planned.filter (fun q => q.t0 < t)).map (fun q =>
      if q.t1 ≤ t then q else { q with t1 := t, off := min q.off (ceilCyc t), counted := true }),
    run := p.run.map (fun f => { f with buf := [], next := f.vcount, refill := false, resume := none }),
    exit := { t, x, y, hx, hy, v, acc, z }, ranOut := false })

/-- The payload of a seam event: the brick and a point (R186). -/
def Dev.seamWords (d : Dev) (s : Seam) (t : Int) : List W64 :=
  let (x, y) := (d.piste s.donor).pointAt t
  masonWords s.bid (toBu x) (toBu y)

/-- One beat of slide counts, and with the first the seam that slides (R185). -/
def Dev.countSlide (d : Dev) (s : Seam) : Dev :=
  let d := d.bump Reg.PTH_STAT_SEAM_SLIDE_BEATS_COUNT
  if s.slidBeats = 0 then d.bump Reg.PTH_STAT_SEAM_SLID_COUNT else d

/-- Both lasers of a seam mark V with one set-point, the donor's copy of its entry (R175). -/
def Dev.seamShare (d : Dev) (s : Seam) : Dev :=
  match (d.piste s.donor).planned.find? (fun q => q.key == s.key && q.v == s.v) with
  | some q => if q.entry.isNone then d else d.updPiste s.receiver (fun p => { p with planned := p.planned.map (fun r =>
      if r.key == s.key && r.v == s.v then { r with entry := q.entry } else r) })
  | none => d

/-- f reaches 1: the brick belongs to the receiver alone, which emits from DAC cycle `t` on, and the donor runs dark to its exit (R178). -/
def Dev.seamDone (d : Dev) (s : Seam) (t : Int) : Dev :=
  let d := (d.seamShare s).bump Reg.PTH_STAT_SEAM_DONE_COUNT
  let d := d.updBrick s.key (fun b => { b with handedV := max b.handedV (s.v + 1) })
  let d := if s.exit.isSome then d else d.cutAtExit s
  let d := d.updPiste s.donor (fun p => { p with planned := p.planned.map (fun q =>
    if q.key == s.key && q.v == s.v then { q with off := min q.off t, counted := true } else q) })
  let d := d.updPiste s.receiver (fun p => { p with planned := p.planned.map (fun q =>
    if q.key == s.key && q.v == s.v then { q with on := min q.on t } else q) })
  (d.updLaser s.donor (fun l => { l with handed := true })).dropSeam s

/-- One seam is withdrawn: the receiver's assignment is cancelled, and the donor keeps the brick (R180). -/
def Dev.seamCancel (d : Dev) (s : Seam) : Dev :=
  let n := s.receiver
  let d := (d.dropSeam s).bump Reg.PTH_STAT_SEAM_WITHDRAWN_COUNT
  let l := d.laser n
  if l.assigned == some s.key then d.updLaser n (fun l => { l with assigned := none })
  else if l.queued == some s.key then
    let p := d.piste n
    let keep := max p.refT ((p.planned.filter (fun q => q.key != s.key)).foldl (fun t q => max t q.t1) 0)
    let d := d.updLaser n (fun l => { l with queued := none })
    if p.planned.any (fun q => q.key == s.key) || p.exit.joined then
      d.updPiste n (fun p => { p with
        queued := none, pieces := (splitPlan keep p.pieces).1, planned := p.planned.filter (fun q => q.key != s.key),
        exit := p.exitAt keep })
    else d.updPiste n (fun p => { p with queued := none })
  else if l.running == some s.key then
    let d := (d.updLaser n (fun l => { l with running := none, after := .idle })).stopPiste n false
    (d.returnQueued n).setLaser n .stopping
  else d

/-- The seam that the receiver of `s` has accepted for a later vector of the same brick. -/
def Dev.seamAfter (d : Dev) (s : Seam) : Option Seam := d.pth.seams.find? (fun x => x.donor == s.receiver && x.key == s.key && s.v < x.v)

/-- Withdrawal of a seam (R180), and before it of those that its receiver would make further on in the same brick. -/
def Dev.seamWithdraw (d : Dev) (s : Seam) : Dev := go 32 d s
where
  /-- The recursion along the chain of seams; each lies on a later vector. -/
  go : Nat → Dev → Seam → Dev
    | 0, d, s => d.seamCancel s
    | k + 1, d, s => ((d.seamAfter s).elim d (go k d)).seamCancel s

/-- What the receiver of `s` would hand over further on in the same brick is withdrawn (R180). -/
def Dev.seamUnchain (d : Dev) (s : Seam) : Dev := (d.seamAfter s).elim d d.seamWithdraw

/-- SEAM_MISS at path time `t` (R179): the donor runs dark to its exit, the receiver stops, and the rest of the brick becomes an
urgent remnant. -/
def Dev.seamMiss (d : Dev) (m : Mem) (s : Seam) (t : Int) : Dev :=
  match d.brick? s.key with
  | none => d.dropSeam s
  | some b =>
    let d := (d.seamUnchain s).bump Reg.PTH_STAT_SEAM_MISSED_COUNT
    let d := d.raise (48 + s.donor) s.donor 0x3101 (s.donor + s.receiver * 16 + s.zone * 256) (d.seamWords s t)
    let r := d.resumeAt m s.donor b t
    let d := if s.exit.isSome then d else d.cutAtExit s
    let d := d.updPiste s.donor (fun p => { p with planned := p.planned.map (fun q =>
      if q.key == s.key && q.v == s.v then { q with off := min q.off (ceilCyc t), counted := true } else q) })
    let reach := if s.recvDropped && bitOf b.reach s.receiver then b.reach - 2 ^ s.receiver else b.reach
    let d := d.remnantOf s.donor s.key r reach false
    let d := { d with msn.timedOut := d.msn.timedOut ++ [s.key] }
    let d := (d.updLaser s.donor (fun l => { l with handed := true })).dropSeam s
    if s.recvDropped then d
    else
      let d := (d.updLaser s.receiver (fun l => { l with running := none, after := .idle })).stopPiste s.receiver false
      (d.returnQueued s.receiver).setLaser s.receiver .stopping

/-- The donor drops at or after `s_in`: the receiver carries the full set-point from the first sample it issues from now on (R178). -/
def Dev.seamTakeover (d : Dev) (s : Seam) : Dev :=
  let now := d.cycleNow * cycUnit
  let tb := d.beatWide * 80 + 160
  let next := if (d.piste s.receiver).lastT == tb || s.recvHeld then tb + 80 else tb
  let d := d.raise (48 + s.donor) s.donor 0x3105 (s.donor + s.receiver * 16) (d.seamWords s now)
  (d.updLaser s.donor (fun l => { l with running := none })).seamDone s next

/-! ## Stepping (R174, R175, R178) -/

/-- The blend of a seam in the beat of DAC cycle `tb`: held, it slides; else its share of the beat (R174, R175, R178). -/
def Dev.seamBlend (d : Dev) (s : Seam) (tb : Int) : Dev :=
  let part := ((tb + 80) * cycUnit - max (tb * cycUnit) s.blend0).toNat
  let next := { s with beat := d.beatWide, recvOn := false, donorOn := !s.donorHeld, recvHeld := false, donorHeld := false, mean := 0 }
  if s.recvHeld || s.recvDropped then
    (d.countSlide s).updSeam s (fun _ => { next with slid := s.slid + part, slidBeats := s.slidBeats + 1 })
  else
    let mean := if s.donorHeld then 2 ^ 32 else s.meanWeight (d.cur Reg.PTH_SEAM_CFG_FADE s.zone == 1) tb
    d.updSeam s (fun _ => { next with mean, recvOn := true, started := true, elapsed := s.elapsed + part })

/-- Bring a seam to the beat whose sample is now due, at DAC cycle `tb`: its end, its share of the beat, its slide or its miss. The donor's exit
counts as reached in the beat in which its emission point reaches it. -/
def Dev.seamStep (d : Dev) (m : Mem) (s : Seam) (tb : Int) : Dev :=
  if s.beat == d.beatWide then d
  else
    let d := d.seamShare s
    let due := s.exit.isNone && s.exitNow ≤ (tb + 160 + d.lead s.donor) * cycUnit
    let d := if due then d.cutAtExit s else d
    let s := if due then { s with exit := some s.exitNow } else s
    let held := s.recvHeld || s.recvDropped
    match s.phase tb with
    | .before => d.updSeam s (fun _ => { s with
        beat := d.beatWide, recvOn := false, donorOn := !s.donorHeld, recvHeld := false, donorHeld := false, mean := 0 })
    | .blending =>
      if s.elapsed ≥ s.blendDur then d.seamDone s (if held then tb + 80 else tb)
      else if held && s.donorHeld then (if s.begun then d.seamMiss m s (tb * cycUnit) else d.seamWithdraw s)
      else match s.exit with
        | some t =>
          if (tb + 80) * cycUnit ≤ t then d.seamBlend s tb
          else if held then d.seamMiss m s t
          else (d.bump Reg.PTH_STAT_SEAM_CUT_COUNT).seamDone s tb
        | none => d.seamBlend s tb

/-- A blend whose last beat both lasers have sampled is over before the guard decides on the beat after it (R178). -/
def Dev.seamsOver (d : Dev) (tb : Int) : Dev :=
  d.pth.seams.foldl (fun d s =>
    if s.elapsed ≥ s.blendDur && (d.piste s.donor).lastT == tb && (d.piste s.receiver).lastT == tb then d.seamDone s (tb + 80) else d) d

end Sys2Proof.Machine
end

