-- ==== Sys2Proof/Machine/Piste.lean ====
section
/-!
DEFINITION. The pistes at work: beat samples, emission, holding, refills and faults (R131, R134, R147 to R159).
-/
namespace Sys2Proof.Machine

/-- The DAC cycle, in path time, of the sample that a piste issues in the present beat (R131). -/
def Dev.tb (d : Dev) : Int := d.beatWide * 80 + 160

/-! ## Emission (R74, R139, R175) -/

/-- The window that the windows of a DAC beat make, and the vector whose set-point it carries: those that overlap or touch merge, and a sample
carries no second one (R131, R139). -/
def mergeWindows : List Planned → Option (Int × Int × Planned)
  | [] => none
  | q :: t => some (t.foldl (fun w q => if q.on ≤ w.2.1 then (min w.1 q.on, max w.2.1 q.off, q) else w) (q.on, q.off, q))

/-- What a piste's own windows give a DAC beat: the window's cycles and the vector whose set-point it carries (R139). -/
def Piste.emission (p : Piste) (tb : Int) : Option (Nat × Nat × Planned) :=
  (mergeWindows (p.planned.filter (fun q => q.on < q.off && q.on < tb + 80 && tb < q.off))).map
    (fun w => ((max 0 (w.1 - tb)).toNat, (min 80 (w.2.1 - tb)).toNat, w.2.2))

/-- The vector in force at path time `t`, of those planned: the last begun, else the next (R131). -/
def Piste.inForce (p : Piste) (t : Int) : Option Planned :=
  if p.run.isNone then none else (p.planned.filter (fun q => q.t0 ≤ t)).getLast?.or p.planned.head?

/-- The planned vector of a seam on laser `n`. -/
def Dev.seamVec (d : Dev) (n : Nat) (s : Seam) : Option Planned :=
  (d.piste n).planned.find? (fun q => q.key == s.key && q.v == s.v)

/-- What the guard has to test of laser `n` in the DAC beat at `tb`: the vector whose sample would emit (R114, R178). -/
def Dev.willEmit (d : Dev) (n : Nat) (tb : Int) : Option Planned :=
  match d.seamOfReceiver n with
  | some s => if s.phase tb == .blending && !s.recvDropped then d.seamVec n s else none
  | none => match (d.piste n).emission tb with
    | some (_, _, q) => some q
    | none => none

/-- The emission of laser `n` in the present sample: window, vector, and in a blend its share in 2^-32 (R175). -/
def Dev.emission (d : Dev) (n : Nat) (tb : Int) : Option (Nat × Nat × Planned × Option Nat) :=
  match d.seamOfReceiver n with
  | some s => if s.recvOn then (d.seamVec n s).map (fun q => (0, 80, q, some s.mean)) else none
  | none => match d.seamOfDonor n, (d.piste n).emission tb with
    | some s, some (on, off, q) =>
      if s.phase tb == .before then (if s.donorOn then some (on, off, q, none) else none)
      else if !s.donorOn then none
      else some (0, 80, q, if s.recvOn then some (2 ^ 32 - s.mean) else none)
    | _, some (on, off, q) => some (on, off, q, none)
    | _, none => none

/-- The set-point of a vector (R74, R138). -/
def Planned.setpoint (q : Planned) : Nat :=
  let e := q.entry.getD (0, 0)
  let power : Int := if q.dwell then wbits e.1 31 16 else wbits e.1 15 0
  let s := (clampI 0 65535 (power * (1024 + q.pmod) / 1024)).toNat
  s * q.num / max 1 q.den

/-- The set-point of a share of a blend: the receiver's rounded to the nearest code, the donor's the rest (R175). -/
def shareOf (p : Nat) (isDonor : Bool) (share : Option Nat) : Nat :=
  match share with
  | none => p
  | some w =>
    if isDonor then p - ((2 * p * (2 ^ 32 - w) + 2 ^ 32) / 2 ^ 33)
    else (2 * p * w + 2 ^ 32) / 2 ^ 33

/-! ## Faults of a piste (R159) -/

/-- The sample of a beat in which the piste faults: emission gated, the previous head reference at rest (R25, R159). -/
def Dev.gatedSample (d : Dev) (n : Nat) : Dev :=
  let p := d.piste n
  (d.updPiste n (fun p => { p with headOld := p.head, headBeat := d.beatWide, lastT := d.tb })).updChan n (fun c =>
    { c with pipe := c.pipe ++ [{ beat := d.beatWide + 2, x := toBu (p.pointAt (d.tb * cycUnit)).1,
                                  y := toBu (p.pointAt (d.tb * cycUnit)).2, z := p.refZ, brick := d.brickOn n }] })

/-- PTH has faulted the channel, and the Mason has not dropped it yet. -/
def Dev.pisteFaulted (d : Dev) (n : Nat) : Bool :=
  bitOf (d.chan n).pend 6 || ((d.chan n).drop && bitOf (d.flag Reg.LSR_CHAN_FAULT_CAUSE n) 6)

/-- A fault raised by PTH: its event, and cause 6 of the channel (R159, R197). -/
def Dev.pisteFault (d : Dev) (n code detail : Nat) : Dev :=
  ((d.raise (48 + n) n code detail (d.chanWords n)).causeFrom n 6).gatedSample n

/-! ## Reading parameter entries (R78, R367) -/

/-- Every vector whose first beat this is reads its entry, and its window follows the skews read; with the SRAM word of the first entry that
both copies have lost. -/
def captureEntries (m : Mem) (tb : Int) : List Planned → List Planned × Option Nat
  | [] => ([], none)
  | q :: t =>
    let (t, lost) := captureEntries m tb t
    if q.entry.isNone && decide (min (if q.on < q.off then q.on else q.t0 / cycUnit) (q.t0 / cycUnit) < tb + 80) then
      match psetEntry m q.pset with
      | some e =>
        let (on, off) := windowOf q.t0 q.t1 e q.dark
        ({ q with entry := some e, on, off } :: t, lost)
      | none => (q :: t, some (psetLost q.pset m))
    else (q :: t, lost)

/-- Forget what lies well behind the emission point. -/
def trimPast (tb : Int) (p : Piste) : Piste :=
  let t := (tb - 480) * cycUnit
  let keep := p.pieces.filter (fun q => q.t1 > t)
  { p with
    pieces := if keep.isEmpty then p.pieces.drop (p.pieces.length - 1) else keep
    planned := p.planned.filter (fun q => q.t1 > t || q.off > tb - 480 || !q.counted ||
      (match p.planned.getLast? with | some l => l.key == q.key && l.v == q.v | none => false))
    focus := (p.focus.filter (fun f => f.t0 ≤ t)).drop ((p.focus.filter (fun f => f.t0 ≤ t)).length - 1) ++
      p.focus.filter (fun f => f.t0 > t) }

/-! ## The end of a brick (R134, R117) -/

/-- Everything of the running brick is planned. -/
def Feed.exhausted (f : Feed) : Bool := f.buf.all (fun v => v.op == 0 || v.op == 5) && !f.more && f.resume.isNone

/-- The path time, in whole cycles, at which the running brick of piste `n` ends, once all of it is planned. -/
def Piste.brickEnd (p : Piste) : Option Int :=
  match p.run with
  | some f =>
    if f.exhausted then
      some ((p.planned.filter (fun q => q.key == f.key)).foldl (fun t q => max t (max (ceilCyc q.t1) (if q.on < q.off then q.off else t)))
        (p.startBeat * 80 + 160))
    else none
  | none => none

/-! ## The sample of a beat (R131, R132, R154, R157, R158) -/

/-- The part of the path the emission point lies on (R131): 0 PARK, 1 VECTOR, 2 JOIN, 3 HOLD, 4 STOP. -/
def Dev.sampleKind (d : Dev) (n : Nat) : Nat :=
  let p := d.piste n
  match p.st with
  | .off | .parked => 0
  | .holding => 3
  | .stopping => 4
  | .running => ((pieceAt (d.tb * cycUnit) p.pieces).map (·.kind)).getD 2

/-- Ask for a refill where 128 or fewer unplanned vectors are left and the brick has more (R157). -/
def askRefill (f : Feed) : Feed := if f.buf.length ≤ 128 && f.more then { f with refill := true } else f

/-- The sample of laser `n` that is at its DAC in the present beat. -/
def Dev.atDac (d : Dev) (n : Nat) : Option Sample :=
  let c := d.chan n
  (c.now :: c.prev :: c.pipe).find? (fun s => s.beat == d.beatWide)

/-- The sample with which donor `n` emits in a blend in the present DAC beat, and the receiver that emits with it (R182). -/
def Dev.bothEmit (d : Dev) (n : Nat) : Option (Sample × Nat) :=
  match d.atDac n with
  | some a =>
    if a.blend != 1 || a.on ≥ a.off then none
    else ((List.range 16).find? (fun r => r != n && (match d.atDac r with
      | some x => x.blend == 2 && x.key == a.key && x.vec == a.vec && decide (x.on < x.off)
      | none => false))).map (fun r => (a, r))
  | none => none

/-- The seam tracking test: in a beat in which both lasers emit, an error beyond TRACK_TOL is reported once for the seam (R182). -/
def Dev.seamTrack (d : Dev) (n : Nat) : Dev :=
  let tol := d.act Reg.PTH_SEAM_CTL_TRACK_TOL
  match d.bothEmit n with
  | some (a, r) =>
    let err := fun (a : Nat) => (at' d.srv.ax a).perr.natAbs
    let worst := [3 * n, 3 * n + 1, 3 * r, 3 * r + 1].foldl (fun a x => max a (err x)) 0
    if tol != 0 && (d.piste n).trackSaid != some (a.key, a.vec) && worst > tol then
      (d.raise (48 + n) n 0x3102 (min worst 0xFFFFFFFF) (masonWords a.brick a.x a.y)).updPiste n
        (fun p => { p with trackSaid := some (a.key, a.vec) })
    else d
  | none => d

/-- A vector that becomes due without an offer having been possible counts as a declined candidate (R171). -/
def Dev.seamLate (d : Dev) (n : Nat) (tb : Int) : Dev :=
  match d.nextCandidate n with
  | some s => if s.tIn ≤ tb * cycUnit then (d.seamMark n s.key s.v).bump Reg.PTH_STAT_SEAM_DECLINED_COUNT else d
  | none => d

/-- Put the sample on its way to the DAC, with what it counts for (R94, R112, R190). -/
def Dev.pushSample (d : Dev) (n : Nat) (x y z : Int) (e : Option (Nat × Nat × Planned × Option Nat)) : Dev :=
  let blended := match d.seamOfReceiver n, e with | some s, some _ => some (s.key, s.v) | _, _ => none
  let dark := match d.seamOfDonor n with | some s => !s.donorOn | none => false
  let lit := if dark then 0 else (d.piste n).litLength blended (d.tb * cycUnit) ((d.tb + 80) * cycUnit)
  let d := if lit = 0 then d else d.updChanCourse n (fun c => { c with length := c.length + lit })
  let donor := (d.seamOfDonor n).isSome
  let cur := (d.piste n).inForce (d.tb * cycUnit)
  let pw := (cur.bind (·.entry)).getD (0, 0)
  let part := fun (k : Nat) => ((d.brick? k).map (·.remnants)).getD 0
  let on := ((d.piste n).planned.filter (fun q => q.op != 2 && q.op != 6 && !q.dark && q.t0 < (d.tb + 80) * cycUnit &&
    d.tb * cycUnit < q.t1)).getLast?
  let base : Sample := { beat := d.beatWide + 2, x, y, z, brick := d.brickOn n, kind := d.sampleKind n,
                         pset := (cur.map (·.pset)).getD 0, mpm := wbits pw.2 12 12 == 1, hold := (cur.map (·.mpmHold)).getD false,
                         mpmRef := wbits pw.2 11 0, pv := on.map (fun q => (q.key, q.v + 1, part q.key)),
                         plume := ((cur.bind (fun q => d.brick? q.key)).map (·.plume)).getD 0 }
  match e with
  | none => d.updChan n (fun c => { c with pipe := c.pipe ++ [base] })
  | some (on, off, q, share) =>
    let w := q.entry.getD (0, 0)
    let b := d.brick? q.key
    let bid := (b.map (·.id)).getD 0
    let d := d.updChan n (fun c => { c with pipe := c.pipe ++
      [{ base with
         s := shareOf q.setpoint donor share, nom := if q.dwell then wbits w.1 31 16 else wbits w.1 15 0, on, off,
         pset := q.pset, plume := (b.map (·.plume)).getD 0, mpm := wbits w.2 12 12 == 1, mpmRef := wbits w.2 11 0, hold := q.mpmHold, brick := bid,
         key := q.key, vec := q.v + 1, pv := some (q.key, q.v + 1, part q.key),
         blend := match d.seamOfDonor n with
           | some s => if s.started then 1 else 0
           | none => if share.isSome then 2 else 0 }] })
    let d := d.updChanCourse n (fun c => { c with emitBeats := satAdd c.emitBeats 1 })
    d.trailAdd n ((b.map (·.plume)).getD 0) bid x y

/-- PISTE_SAMPLE_ISSUE of channel `n` (R131): in cycle 0 of a beat. -/
def Dev.sampleIssue (d : Dev) (m : Mem) (n : Nat) (ev : PisteIssue) : Dev :=
  if (d.piste n).st == .off || n ≥ 16 then d
  else if d.pisteFaulted n then d.gatedSample n
  else
    let tb := d.tb
    match ev with
    | .late => (d.orFlag Reg.MGT_OVERRUN_SUMMARY_OVR 8).pisteFault n 0x3001 n
    | .gridEcc => d.pisteFault n 0x3004 (n + (d.piste n).slot * 16)
    | .ok =>
      let d := d.pth.seams.foldl (fun d s => if s.donor == n || s.receiver == n then
        (match d.pth.seams.find? (fun x => x.donor == s.donor && x.key == s.key) with
         | some s => d.seamStep m s tb
         | none => d) else d) d
      let lead := d.lead n
      let need := (tb + lead + 160) * cycUnit
      let (d, starved) := if (d.piste n).st == .running || (d.piste n).st == .holding then
          d.planUntil m n (d.refTime n) (need + 480 * cycUnit) 600 else (d, false)
      if starved && (d.piste n).exit.t < need then d.pisteFault n 0x3002 n
      else
        let d := d.seamLate n tb
        match captureEntries m tb (d.piste n).planned with
        | (_, some a) => d.pisteFault n 0x3003 (n + a * 256)
        | (planned, none) =>
          let d := d.updPiste n (fun p => { p with planned })
          let p := d.piste n
          let (x, y) := p.pointAt (tb * cycUnit)
          let tr := (tb + lead) * cycUnit
          let (rx, ry) := p.pointAt tr
          let z := p.focusAt tr
          if nodesPoisoned m p.slot (toBu rx) (toBu ry) then d.pisteFault n 0x3004 (n + p.slot * 16) else
          let (h, clamped) := transform m p.slot (toBu rx) (toBu ry) z
          let d := if clamped then d.bump Reg.PTH_STAT_FOCUS_CLAMP_COUNT else d
          let (h, d) := if d.calDrives n then d.freeHead else (h, d)
          let d := d.updPiste n (fun p => { p with
            issued := true, refX := toBu rx, refY := toBu ry, refZ := z, refT := tr, headOld := p.head, head := h,
            headBeat := d.beatWide, lastT := tb, run := p.run.map askRefill, queued := p.queued.map askRefill })
          let d := (d.pushSample n (toBu x) (toBu y) z (d.emission n tb)).seamTrack n
          d.updPiste n (fun p => trimPast tb { p with endNear := p.st == .running && (match p.brickEnd with
            | some t => decide (t ≤ tb + 400)
            | none => false) })

/-- At a position tick the head reference of an OFF piste is the transform of its held point; one that the calibration unit moves is
its own affair, which the spec does not state (R152, R515). -/
def Dev.holdHead (d : Dev) (m : Mem) (n : Nat) : Dev :=
  let p := d.piste n
  if d.calDrives n then
    let (h, d) := d.freeHead
    d.updPiste n (fun p => { p with head := h, headOld := h })
  else if p.st != .off || p.slot ≥ 17 then d
  else
    let (x0, x1, y0, y1) := d.field n
    let (x, y, z) := if p.issued then (p.refX, p.refY, p.refZ) else ((x0 + x1) / 2, (y0 + y1) / 2, 0)
    let (h, clamped) := transform m p.slot x y z
    let d := d.updPiste n (fun p => { p with head := h, headOld := h })
    if clamped then d.bump Reg.PTH_STAT_FOCUS_CLAMP_COUNT else d

/-! ## Refills (R157, R159) -/

/-- VECTOR_REFILL_DONE: the next vectors of the feed that asked land in the buffer (R157), or the read was uncorrectable: one of its
words is poisoned, or `ecc` says so (R159, R366). -/
def Dev.refillDone (d : Dev) (m : Mem) (n : Nat) (ecc : EccRead) : Dev :=
  let p := d.piste n
  let want := match p.run, p.queued with
    | some f, q => if f.refill then some (true, f) else q.bind (fun g => if g.refill then some (false, g) else none)
    | none, some g => if g.refill then some (false, g) else none
    | none, none => none
  match want with
  | none => d
  | some (isRun, f) => match d.brick? f.key with
    | none => d
    | some b =>
      let k := min 128 (f.vcount - f.next)
      let words := (List.range (2 * k)).map (fun i => b.addr (64 + 16 * f.next + 8 * i))
      let bad := if ecc == .uncorrectable then words.head? else words.find? m.isPoisoned
      let d := d.sramRead 3 (bad.getD (words.headD 0)) (if bad.isSome then .uncorrectable else ecc)
      match bad with
      | some a => d.pisteFault n 0x3003 (n + a / 8 * 256)
      | none =>
        let vs := (List.range k).map (fun i => b.vec m (f.next + i))
        d.updPiste n (fun p => p.setFeed isRun { f with buf := f.buf ++ vs, next := f.next + k, refill := false })

/-! ## Meanings -/

/-- PISTE_SAMPLE_ISSUE (R131). -/
def execPisteSampleIssue (ch : Nat) (ev : PisteIssue) (s : State) : Host.Outcome State Fault Refusal :=
  s.mainOnly (s.withRemnants (s.dev.sampleIssue s.mem ch ev))

/-- VECTOR_REFILL_DONE (R157). -/
def execVectorRefillDone (ch : Nat) (ecc : EccRead) (s : State) : Host.Outcome State Fault Refusal :=
  s.mainOnly { s with dev := s.dev.refillDone s.mem ch ecc }

/-- SEAM_OFFER (R171). -/
def execSeamOffer (ch : Nat) (s : State) : Host.Outcome State Fault Refusal :=
  s.mainOnly { s with dev := s.dev.seamOffer s.mem ch }

end Sys2Proof.Machine
end

