-- ==== Sys2Proof/Machine/MasonCmd.lean ====
section
/-!
DEFINITION. The Mason's commands: selection with its seam offers, assignments, the guard, holds, drops, remnants and the end of a
brick (R102 to R121), with the seams they touch (R172, R178 to R180).
-/
namespace Sys2Proof.Machine

/-! ## Drops (R117, R118, R178) -/

/-- The bit of laser `n` is set among the lasers that dropped while running brick `k` (R120). -/
def Dev.noteDropped (d : Dev) (n : Nat) (k : Option Nat) : Dev :=
  match k with
  | some k => d.updBrick k (fun b => { b with dropped := b.dropped ||| 2 ^ n })
  | none => d

/-- What a drop of laser `n` does to a seam of which it is the receiver (R178). -/
def Dev.receiverDrops (d : Dev) (n : Nat) (s : Seam) : Dev :=
  if s.begun then
    (((d.seamUnchain s).updSeam s (fun s => { s with recvDropped := true })).noteDropped n (some s.key)).updLaser n
      (fun l => { l with running := none })
  else d.seamWithdraw s

/-- What a drop of laser `n` does to a seam of which it is the donor (R178). Where the receiver has dropped before it, no laser has the brick any
more, and what is left becomes a remnant without the receiver's bit (R118). -/
def Dev.donorDrops (d : Dev) (n : Nat) (s : Seam) : Dev :=
  if s.recvDropped then
    (d.dropSeam s).updBrick s.key (fun b => { b with reach := if bitOf b.reach s.receiver then b.reach - 2 ^ s.receiver else b.reach })
  else if d.runKey n != some s.key || (d.chan n).offAt * cycUnit < s.tIn then d.seamWithdraw s
  else (d.noteDropped n (some s.key)).seamTakeover s

/-- What a drop of laser `n` does to the seams it takes part in (R178). -/
def Dev.seamDrop (d : Dev) (n : Nat) : Dev :=
  let d := (d.pth.seams.filter (fun s => s.receiver == n)).foldl (fun d s => d.receiverDrops n s) d
  (d.pth.seams.filter (fun s => s.donor == n)).foldl (fun d s => d.donorDrops n s) d

/-- MASON_DROP: at the beat edge after a drop decision (R117, R118). -/
def Dev.masonDrop (d : Dev) (m : Mem) (n : Nat) : Dev :=
  if !(d.chan n).drop || d.tmb.cycle != 0 || decide (d.beatWide ≤ (d.chan n).dropBeat) then d
  else
    let t := if (d.laser n).st == .plumeHeld then (d.piste n).holdT else (d.chan n).offAt * cycUnit
    let pth := bitOf (d.flag Reg.LSR_CHAN_FAULT_CAUSE n) 6
    let d := (((d.updChan n (fun c => { c with drop := false })).uncountAfter n t).countUntil n t).seamDrop n
    let next := d.afterStop n
    let l := d.laser n
    match l.st with
    | .running | .plumeHeld =>
      let d := if l.handed then d.updLaser n (fun l => { l with running := none, handed := false }) else d.makeRemnant m n t true
      let d := (d.returnQueued n).stopPiste n pth
      (d.updLaser n (fun l => { l with after := next })).setLaser n .stopping
    | .stopping => d.updLaser n (fun l => { l with after := next })
    | .idle | .chanHold =>
      let d := (d.returnQueued n).setLaser n next
      if next == .off then d.parkOff n pth else d
    | .off => d

/-- STOP_SEGMENT_DONE: at the first beat edge TRACK_DELAY cycles after the reference is at rest the laser leaves STOPPING (R117, R148, R151). -/
def Dev.stopDone (d : Dev) (n : Nat) : Dev :=
  let p := d.piste n
  if p.st == .stopping && d.tmb.cycle == 0 && p.stopEnd + d.act Reg.PTH_TIMING_TRACK_DELAY n * cycUnit ≤ d.refTime n then
    let l := d.laser n
    let nst := if l.st == .stopping && l.after == .idle then .idle else d.afterStop n
    let d := d.updPiste n (fun p => { p with st := if nst == .off then .off else .parked })
    if l.st == .stopping then d.setLaser n nst else d
  else d

/-! ## Assignments (R106, R151, R173) -/

/-- Brick `k`, or a remnant of it, starts on laser `n` (R94, R102). -/
def Dev.startOn (d : Dev) (n k : Nat) : Dev :=
  let rem := match d.brick? k with | some b => b.resume.isSome | none => false
  (d.updBrick k (fun b => { b with st := .running, started := true })).updChanCourse n (fun c =>
    if rem then { c with remnants := satAdd c.remnants 1 } else { c with bricks := satAdd c.bricks 1 })

/-- The piste of an IDLE laser starts: its first sample follows in 4 beats (R26). A reference that still moves sets out from where it
is. -/
def Piste.startFeed (p : Piste) (f : Feed) (now : Int) : Piste :=
  let moving := decide (p.refT < p.exit.t)
  let e := if moving then p.exitAt p.refT
    else { p.exit with t := ((now + 4) * 80 + 160) * cycUnit, v := 0, joined := false }
  { p with st := .running, run := some f, startBeat := now + 4, ranOut := false, endNear := false, exit := e,
           pieces := if moving then (splitPlan p.refT p.pieces).1 else p.pieces }

/-- A brick is queued on a running piste (R106): a run-out that head references have begun is discarded, as the join into the queued
brick's first JUMP leads from the end of the brick before (R142, R151). -/
def Piste.queueFeed (p : Piste) (f : Feed) : Piste :=
  let p := { p with queued := some f }
  if p.ranOut then
    let t := p.ranFrom.t
    { p with ranOut := false, exit := p.ranFrom, pieces := (splitPlan t p.pieces).1, focus := p.focus.filter (fun f => f.t0 < t) }
  else p

/-- ASSIGNMENT_IN_FORCE of laser `n`: in cycle 0 of the beat after its selection (R26, R106). -/
def Dev.assignmentInForce (d : Dev) (m : Mem) (n : Nat) : Dev :=
  let l := d.laser n
  match if d.tmb.cycle == 0 && decide (d.msn.selBeat < d.beatWide) then l.assigned.bind d.brick? else none with
  | none => d
  | some b =>
    let seam := d.pth.seams.find? (fun s => s.receiver == n && s.key == b.key)
    let feed := match seam with | some s => d.seamFeed m b s | none => feedOf b
    let mark := fun (d : Dev) =>
      (d.updLaser n (fun l => { l with assigned := none, lastAssign := d.beatWide })).bump Reg.MSN_STAT_ASSIGNED_COUNT
    match l.st with
    | .idle =>
      let d := mark d
      let d := if seam.isSome then d else d.startOn n b.key
      ((d.updLaser n (fun l => { l with running := some b.key })).setLaser n .running).updPiste n
        (fun p => p.startFeed feed d.beatWide)
    | .running | .plumeHeld =>
      ((mark d).updLaser n (fun l => { l with queued := some b.key })).updPiste n (fun p => p.queueFeed feed)
    | .off | .stopping | .chanHold => d

/-! ## Selection with seam offers (R107, R172) -/

/-- The urgent bricks, oldest first. -/
def Dev.urgentBricks (d : Dev) : List Brick := (d.cutBricks.filter (·.urgent)).foldl (fun l b => insertOld b l) []

/-- The Mason takes an offer: every condition of R172. -/
def Dev.takesOffer (d : Dev) (m : Mem) (s : Seam) : Bool :=
  let urgent := d.urgentBricks
  match d.brick? s.key with
  | none => false
  | some b =>
    d.freeAtCut s.receiver && urgent.all (fun u => !bitOf u.reach s.receiver && !d.plumeClash b u) &&
      (d.on Reg.MSN_CTL_PLUME_MODE || d.dispatchOk b s.receiver) && d.canArrive m b s

/-- The offers to laser `n`: the first that the Mason takes becomes a seam, the others are declined (R172). -/
def Dev.offersTo (d : Dev) (m : Mem) (n : Nat) : Dev :=
  let mine := d.pth.offers.filter (fun s => s.receiver == n)
  let d := { d with pth.offers := d.pth.offers.filter (fun s => s.receiver != n) }
  mine.foldl (fun d s =>
    if d.takesOffer m s then
      { d.updPiste s.donor (fun p => { p with trackSaid := none }) with
        pth.seams := d.pth.seams ++ [s], msn.lasers := upd d.msn.lasers n (fun l => { l with assigned := some s.key }) }
    else d.declineOffer) d

/-- MASON_SELECTION, once in cycles 64 to 79 of a beat: urgent bricks, then offers, then the ready list, for each free laser in turn; lasers in `unserved` were not
reached in time (R107, R121, R172). -/
def Dev.masonSelection (d : Dev) (m : Mem) (unserved : Nat) : Dev :=
  if !d.tmb.run || d.tmb.cycle < 64 || d.msn.selBeat == d.beatWide then d else
  let d := { d with msn.selBeat := d.beatWide }
  let d := if d.msn.cutHold then d
    else d.freeOrder.foldl (fun d n =>
      if bitOf unserved n then d
      else
        let d := d.offersTo m n
        if !d.freeAtCut n then d
        else match d.pickFor n with
          | some b => d.assign n b
          | none => d) d
  let d := d.pth.offers.foldl (fun d _ => d.declineOffer) d
  let d := { d with pth.offers := [] }
  if unserved == 0 then d else d.overrun 32 0 0x200A unserved

/-- STARVE_LIMIT_REACHED: a brick READY for STARVE_LIMIT beats becomes urgent, the oldest eligible first (R108). -/
def Dev.starveLimit (d : Dev) (k : Nat) : Dev :=
  let due := fun (b : Brick) => !b.urgent && decide (d.beatWide - b.readyAt ≥ d.act Reg.MSN_FAIR_STARVE_LIMIT)
  let urgent := (d.readyBricks.filter (·.urgent)).length
  match d.readyBricks.find? (fun b => b.key == k) with
  | none => d
  | some b =>
    if due b && urgent < d.act Reg.MSN_CTL_URGENT_MAX && d.readyBricks.all (fun c => !due c || b.readyAt ≤ c.readyAt) then
      ((d.updBrick k (fun b => { b with urgent := true })).bump Reg.MSN_STAT_URGENT_COUNT).raise 32 0 0x2007
        (d.beatWide - b.readyAt).toNat (masonWords b.id 0 0)
    else d

/-! ## The guard (R114, R115, R121, R178) -/

/-- A sample the guard tests: the laser, its brick and class, its point in the gas frame. -/
structure GuardPoint where
  laser : Nat
  bid : Nat
  cls : Nat
  u : Int
  v : Int
  deriving DecidableEq, Repr, Inhabited

/-- The point of laser `n` in the beat whose DAC cycle is `tb`, if it would emit; a held laser is tested as its pass falls due. -/
def Dev.guardPoint (d : Dev) (n : Nat) (tb : Int) : Option GuardPoint :=
  match d.willEmit n tb with
  | none => none
  | some q =>
    let (x, y) := (d.piste n).pointAt (tb * cycUnit)
    let (u, v) := d.gasPoint (toBu x) (toBu y)
    let b := d.brick? q.key
    some { laser := n, bid := (b.map (·.id)).getD 0, cls := (b.map (·.plume)).getD 0, u, v }

/-- Insert in ascending u, ties by channel (R114). -/
def insertPoint (g : GuardPoint) : List GuardPoint → List GuardPoint
  | [] => [g]
  | h :: t => if g.u < h.u || (g.u == h.u && g.laser < h.laser) then g :: h :: t else h :: insertPoint g t

/-- A sample lies in the zone of a box of class `c`, of another brick, that excludes its class (R114, R177). -/
def Dev.inZone (d : Dev) (g : GuardPoint) (cls bid : Nat) (box : GasBox) : Bool :=
  bid != g.bid && d.excludes cls g.cls && meets (d.zone cls box) { u0 := g.u, u1 := g.u, v0 := g.v, v1 := g.v }

/-- The first zone that holds a sample, by the order of R114: its laser and class. -/
def Dev.heldBy (d : Dev) (g : GuardPoint) (passed : List GuardPoint) : Option (Nat × Nat) :=
  let slices := (List.range 16).flatMap (fun m => if m == g.laser then [] else (d.liveSlices m).map (fun s => (m, s)))
  match slices.find? (fun (_, s) => d.inZone g s.cls s.bid { u0 := s.u0, u1 := s.u1, v0 := s.v0, v1 := s.v1 }) with
  | some (m, s) => some (m, s.cls)
  | none =>
    (passed.find? (fun p => p.laser != g.laser && d.inZone g p.cls p.bid { u0 := p.u, u1 := p.u, v0 := p.v, v1 := p.v })).map
      (fun p => (p.laser, p.cls))

/-- The samples the guard passes and those it holds, each with what holds it; lasers in `undecided` are held. -/
def Dev.guardSplit (d : Dev) (undecided : Nat) (points : List GuardPoint) : List GuardPoint × List (GuardPoint × Nat × Nat) :=
  points.foldl (fun (passed, held) g =>
    if bitOf undecided g.laser then (passed, held ++ [(g, g.laser, g.cls)])
    else match d.heldBy g passed with
      | some (m, c) => (passed, held ++ [(g, m, c)])
      | none => (passed ++ [g], held)) ([], [])

/-- The guard holds the sample of DAC cycle `tb`: the holding loop is planned from there, and the laser goes to PLUME_HELD at the coming
beat edge (R115, R117, R147). -/
def Dev.enterHold (d : Dev) (m : Mem) (n : Nat) (tb : Int) (by' cls bid : Nat) : Dev :=
  let (x, y) := (d.piste n).pointAt (tb * cycUnit)
  (d.insertLoop m n (tb * cycUnit)).updLaser n (fun l =>
    { l with pendHold := some { zone := by', cls, bid, x := toBu x, y := toBu y } })

/-- The guard holds the sample of one laser (R115): a RUNNING one goes to PLUME_HELD, a held one goes round again. -/
def Dev.holdLaser (d : Dev) (m : Mem) (tb : Int) (g : GuardPoint) (by' cls : Nat) : Dev :=
  match (d.laser g.laser).st with
  | .plumeHeld => d.updLaser g.laser (fun l => { l with guardHold := true })
  | .running => d.enterHold m g.laser tb by' cls g.bid
  | .off | .idle | .stopping | .chanHold => d

/-- The guard holds the sample of one laser, which may take part in a seam (R178). -/
def Dev.guardHolds (d : Dev) (m : Mem) (tb : Int) (g : GuardPoint) (by' cls : Nat) : Dev :=
  match d.seamOfReceiver g.laser, d.seamOfDonor g.laser with
  | some s, _ => d.updSeam s (fun s => { s with recvHeld := true })
  | none, some s =>
    if s.begun then d.updSeam s (fun s => { s with donorHeld := true })
    else (d.seamWithdraw s).holdLaser m tb g by' cls
  | none, none => d.holdLaser m tb g by' cls

/-- PLUME_GUARD: in beat b - 1, for the samples of beat b (R114). -/
def Dev.plumeGuard (d : Dev) (m : Mem) (undecided : Nat) : Dev :=
  let d := d.seamsOver d.tb
  if !d.on Reg.MSN_CTL_GUARD_EN then d
  else
    let tb := d.tb + 80
    let mine := fun (n : Nat) => match (d.laser n).st with
      | .running => true
      | .plumeHeld => (d.piste n).holdT / cycUnit == tb || decide ((d.piste n).holdT ≤ tb * cycUnit)
      | _ => false
    let points := ((List.range 16).filterMap (fun n => if mine n then d.guardPoint n tb else none)).foldl
      (fun l g => insertPoint g l) []
    let (_, held) := d.guardSplit undecided points
    let lasers := held.map (fun (g, _) => g.laser)
    let d := (List.range 16).foldl (fun d n => d.updLaser n (fun l => { l with guardHold := false })) d
    let d := held.foldl (fun d (g, by', cls) => d.guardHolds m tb g by' cls) d
    let late := bitset 16 (fun n => bitOf undecided n && lasers.contains n)
    if undecided == 0 then d else d.overrun 33 0 0x200B late

/-- HOLD_PASS: at a pass of the hold point, in cycle 0 of its beat and ahead of its sample, the piste resumes if the guard cleared it, else goes round again (R115, R147). -/
def Dev.holdPass (d : Dev) (m : Mem) (n : Nat) : Dev :=
  let p := d.piste n
  if p.st == .holding && d.tmb.cycle == 0 && decide (p.holdT ≤ d.tb * cycUnit) then
    let d := d.bump Reg.PTH_STAT_HOLD_PASSES_COUNT
    if (d.laser n).guardHold then
      (d.insertLoop m n p.holdT).updLaser n (fun l => { l with guardHold := false })
    else (d.updPiste n (fun p => { p with st := .running })).setLaser n .running
  else d

/-- PLUME_HOLD_TIMEOUT: the hold has lasted PLUME_HOLD_MAX beats (R116). -/
def Dev.plumeTimeout (d : Dev) (m : Mem) (n : Nat) : Dev :=
  let l := d.laser n
  let max := d.act Reg.MSN_LIMITS_PLUME_HOLD_MAX
  if l.st == .plumeHeld && d.tmb.cycle == 0 && max != 0 && decide (d.beatWide - l.heldSince ≥ max) then
    let p := d.piste n
    let (x, y) := p.pointAt p.holdT
    let d := (d.raise 33 n 0x2002 n (masonWords (d.brickOn n) (toBu x) (toBu y))).bump Reg.MSN_STAT_PLUME_TIMEOUTS_COUNT
    let d := match l.running with
      | some k => { (d.countUntil n p.holdT).makeRemnant m n p.holdT false with msn.timedOut := d.msn.timedOut ++ [k] }
      | none => d
    let d := (d.returnQueued n).stopPiste n false
    (d.updLaser n (fun l => { l with after := .idle })).setLaser n .stopping
  else d

/-! ## Trails (R112) -/

/-- TRAIL_SLICE_CLOSE: the open slice closes WINDOW times 16 beats after it opened. -/
def Dev.sliceClose (d : Dev) (n : Nat) : Dev :=
  match (d.laser n).sliceOpen, (d.laser n).trail with
  | true, s :: _ => if d.beatWide - s.opened ≥ d.window s.cls * 16 then d.closeSlice n else d
  | _, _ => d

/-- TRAIL_SLICE_EXPIRE: slices no longer live are removed. -/
def Dev.sliceExpire (d : Dev) (n : Nat) : Dev :=
  let live := d.liveSlices n
  d.updLaser n (fun l => { l with trail := live })

/-! ## Remnants, time-outs and standstill (R105, R118, R119) -/

/-- REMNANT_READY: in cycle 48 of beat d + 2 the remnant enters READY, urgent after a plume time-out; with REACH 0 it completes (R108, R118). -/
def Dev.remnantReady (d : Dev) (k : Nat) : Dev :=
  if !d.msn.due.any (fun x => x.1 == k && decide (80 * x.2 + 48 ≤ 80 * d.beatWide + d.tmb.cycle)) then d
  else
    let urgent := d.msn.timedOut.contains k
    let d := { d with msn.due := d.msn.due.filter (fun x => x.1 != k), msn.timedOut := d.msn.timedOut.filter (· != k) }
    match d.brick? k with
    | none => d
    | some b =>
      if b.reach == 0 then d.unreachable b
      else
        let d := d.enterReady k
        if urgent then
          ((d.updBrick k (fun b => { b with urgent := true })).bump Reg.MSN_STAT_URGENT_COUNT).raise 32 0 0x2007 0
            (masonWords b.id 0 0)
        else d

/-- UNPLACEABLE_TIMEOUT: a brick unplaceable for UNPLACEABLE_WAIT beats completes (R119). -/
def Dev.unplaceableTimeout (d : Dev) (k : Nat) : Dev :=
  match d.brick? k with
  | some b => match b.st, b.unplaceable with
    | .ready, some t => if d.beatWide - t ≥ d.act Reg.MSN_LIMITS_UNPLACEABLE_WAIT then d.unreachable b else d
    | _, _ => d
  | none => d

/-- A beat edge finds the course at a standstill (R105). -/
def Dev.atStandstill (d : Dev) : Bool :=
  d.crs.st == .closing && d.tmb.cycle == 0 && (d.crs.total == 0 || d.crs.total ≤ d.crs.taken) && d.msn.due.isEmpty &&
    d.crs.bricks.all (fun b => b.course != d.crs.number || b.st == .waitDep) &&
    (List.range 16).all (fun n => (d.laser n).st != .stopping)

/-- STANDSTILL: every brick in WAIT_DEP completes DEP_UNRESOLVED with its lowest unmet dependency (R105). -/
def Dev.standstill (d : Dev) : Dev :=
  if d.atStandstill then
    (d.crs.bricks.filter (fun b => b.st == .waitDep)).foldl (fun d b =>
      let i := (b.deps.findIdx? (fun j => d.depState j != .met)).getD 0
      (d.raise 32 0 0x2006 i (masonWords b.id 0 0)).finishOne b 0x2006 i) d
  else d

/-- START_BEAT_REACHED: a brick in WAIT_BEAT whose START_BEAT is here, or past, enters READY (R102). -/
def Dev.startBeatReached (d : Dev) (k : Nat) : Dev :=
  match d.brick? k with
  | some b => if b.st == .waitBeat && !d.beatAhead b.entry.startBeat then d.enterReady k else d
  | none => d

/-! ## The end of a brick (R88, R117, R174) -/

/-- BRICK_END: the last sample of the running brick has been issued (R117); with no brick queued the path runs out to rest (R142, R151). -/
def Dev.brickDone (d : Dev) (m : Mem) (n : Nat) : Dev :=
  let p := d.piste n
  let l := d.laser n
  match l.st, p.brickEnd with
  | .running, some t =>
    if p.lastT + 80 < t || d.tmb.cycle != 0 then d
    else
      let d := if l.handed then d.updLaser n (fun l => { l with handed := false })
        else match l.running.bind d.brick? with
          | some b => let d := d.countBrick n b.key; d.finishBrick ((d.brick? b.key).getD b) 0 0
          | none => d
      match l.queued with
      | some k =>
        let d := d.updLaser n (fun l => { l with running := some k, queued := none })
        let d := if (d.seamOfReceiver n).isSome then d else d.startOn n k
        d.updPiste n (fun p => { p with run := p.queued, queued := none, startBeat := d.beatWide + 1, endNear := false })
      | none =>
        (((d.planRunOut m n).updLaser n (fun l => { l with running := none })).setLaser n .idle).updPiste n
          (fun p => { p with st := .parked, run := none, endNear := false })
  | _, _ => d

/-! ## Meanings -/

/-- UNPLACEABLE_TIMEOUT (R119). -/
def execUnplaceableTimeout (key : Nat) (s : State) : Host.Outcome State Fault Refusal :=
  s.mainOnly { s with dev := s.dev.unplaceableTimeout key }

/-- STANDSTILL (R105). -/
def execStandstill (s : State) : Host.Outcome State Fault Refusal := s.mainOnly { s with dev := s.dev.standstill }

/-- STARVE_LIMIT_REACHED (R108). -/
def execStarveLimitReached (key : Nat) (s : State) : Host.Outcome State Fault Refusal :=
  s.mainOnly { s with dev := s.dev.starveLimit key }

/-- MASON_SELECTION (R107). -/
def execMasonSelection (unserved : W16) (s : State) : Host.Outcome State Fault Refusal :=
  s.mainOnly { s with dev := s.dev.masonSelection s.mem unserved.toNat }

/-- ASSIGNMENT_IN_FORCE (R106). -/
def execAssignmentInForce (ch : Nat) (s : State) : Host.Outcome State Fault Refusal :=
  s.mainOnly { s with dev := s.dev.assignmentInForce s.mem ch }

/-- PLUME_GUARD (R114). -/
def execPlumeGuard (undecided : W16) (s : State) : Host.Outcome State Fault Refusal :=
  s.mainOnly { s with dev := s.dev.plumeGuard s.mem undecided.toNat }

/-- TRAIL_SLICE_CLOSE (R112). -/
def execTrailSliceClose (ch : Nat) (s : State) : Host.Outcome State Fault Refusal :=
  s.mainOnly { s with dev := s.dev.sliceClose ch }

/-- TRAIL_SLICE_EXPIRE (R112). -/
def execTrailSliceExpire (ch : Nat) (s : State) : Host.Outcome State Fault Refusal :=
  s.mainOnly { s with dev := s.dev.sliceExpire ch }

/-- HOLD_PASS (R147). -/
def execHoldPass (ch : Nat) (s : State) : Host.Outcome State Fault Refusal :=
  s.mainOnly { s with dev := s.dev.holdPass s.mem ch }

/-- PLUME_HOLD_TIMEOUT (R116). -/
def execPlumeHoldTimeout (ch : Nat) (s : State) : Host.Outcome State Fault Refusal :=
  s.mainOnly (s.withRemnants (s.dev.plumeTimeout s.mem ch))

/-- MASON_DROP (R117). -/
def execMasonDrop (ch : Nat) (s : State) : Host.Outcome State Fault Refusal :=
  s.mainOnly (s.withRemnants (s.dev.masonDrop s.mem ch))

/-- REMNANT_READY (R118). -/
def execRemnantReady (key : Nat) (s : State) : Host.Outcome State Fault Refusal :=
  s.mainOnly { s with dev := s.dev.remnantReady key }

/-- STOP_SEGMENT_DONE (R148). -/
def execStopSegmentDone (ch : Nat) (s : State) : Host.Outcome State Fault Refusal :=
  s.mainOnly { s with dev := s.dev.stopDone ch }

/-- BRICK_END (R117). -/
def execBrickEnd (ch : Nat) (s : State) : Host.Outcome State Fault Refusal := s.mainOnly { s with dev := s.dev.brickDone s.mem ch }

/-- START_BEAT_REACHED (R102). -/
def execStartBeatReached (key : Nat) (s : State) : Host.Outcome State Fault Refusal :=
  s.mainOnly { s with dev := s.dev.startBeatReached key }

end Sys2Proof.Machine
end

