-- ==== Sys2Proof/Machine/Param.lean ====
section
/-!
DEFINITION. Parameter entries and commits: PARAM rings, the shadow and active banks, and the commit of every block's shadow values
(R79 to R82, R209 to R211).
-/
namespace Sys2Proof.Machine

/-! ## Entries (R77, R79, R82) -/

/-- A scheduled entry is past cycle 0 of its START_BEAT. -/
def Dev.schedMissed (d : Dev) (e : Entry) : Bool := e.sched && !(d.beat == e.startBeat && d.tmb.cycle == 0)

/-- The four words of a parameter entry are well formed: reserved fields 0 and skews within 79 cycles (R77, R82). -/
def psetOk (ws : List W64) : Bool :=
  let w := fun i => ws.getD i 0
  wbits (w 0) 62 48 == 0 && wbits (w 1) 63 32 == 0 && wbits (w 1) 15 13 == 0 && w 2 == 0 && w 3 == 0 &&
    (onSkew (w 0, w 1)).natAbs ≤ 79 && (offSkew (w 0, w 1)).natAbs ≤ 79

/-- The PSET_LOAD at the front of ring `n` has its read outstanding. -/
def Dev.loading (d : Dev) (n : Nat) : Bool := d.crs.loads.any (fun e => e.ring == n)

/-- A commit of this edge is still to be made: what lands now belongs to the next one (R80, R210). -/
def Dev.commitDue (d : Dev) : Bool := d.tmb.cycle == 0 && d.crs.commitReqs.any (fun r => !d.beatAhead r.1)

/-- PSET_WRITE (R79, R82); in a commit beat it waits for the copy. A scheduled one with a bad entry is rejected where it stands, ahead of the
tests of its START_BEAT: the model's choice (log entry 112). -/
def Dev.psetWrite (d : Dev) (m : Mem) (n : Nat) : Mem × Dev :=
  match d.front n 2 1 with
  | none => (m, d)
  | some e =>
    let ws := (List.range 4).map (fun i => e.w (i + 2))
    let i := e.f 1 11 0
    if !psetOk ws then (m, (d.pop n).complete e 40 0x2115 i)
    else if (e.sched && d.beatAhead e.startBeat) || d.commitDue then (m, d)
    else if d.schedMissed e then (m, (d.pop n).complete e 40 0x2113)
    else (m.putMapped (psetShadow + 32 * i) (wordBytes ws), (d.pop n).complete e 40 0)

/-- PSET_LOAD: the read of host memory starts (R79, R82). -/
def Dev.psetLoad (d : Dev) (n : Nat) : Dev :=
  match d.front n 2 2 with
  | none => d
  | some e =>
    let first := e.f 2 12 0
    let count := e.f 2 28 16
    if d.loading n then d
    else if count == 0 || first + count > 4096 then (d.pop n).complete e 40 0x2116
    else if (e.sched && d.beatAhead e.startBeat) || !d.canRequest then d
    else if d.schedMissed e then (d.pop n).complete e 40 0x2113
    else ({ d with crs.loads := d.crs.loads ++ [e] }).emit (.hostRead (e.w 1).toNat (32 * count))

/-- PSET_LOAD_DATA: the data is checked and written, or its read failed (R69, R79, R82); in a commit beat it waits for the copy (R80). -/
def Dev.psetLoadData (d : Dev) (m : Mem) (n : Nat) (rd : HostRead) : Mem × Dev :=
  match if d.commitDue then none else d.crs.loads.find? (fun e => e.ring == n) with
  | none => (m, d)
  | some e =>
    let d := ({ d with crs.loads := d.crs.loads.filter (fun x => x.ring != n) }).pop n
    let first := e.f 2 12 0
    let count := e.f 2 28 16
    match rd with
    | .fail _ => (m, d.bodyFetchErr e)
    | .ok bytes =>
      match (List.range count).find? (fun i => !psetOk (leWords 4 ((bytes.drop (32 * i)).take 32))) with
      | some i => (m, d.complete e 40 0x2115 (first + i))
      | none => (m.putMapped (psetShadow + 32 * first) (bytes.take (32 * count)), d.complete e 40 0)

/-! ## Commits (R80, R81, R209 to R211) -/

/-- PSET_COMMIT: the request with its commit beat; the entry holds its ring (R79, R211). -/
def Dev.psetCommit (d : Dev) (n : Nat) : Dev :=
  match d.front n 2 3 with
  | none => d
  | some e =>
    if d.crs.commitReqs.any (fun r => r.2.ring == n) then d
    else if e.sched && !d.beatAhead e.startBeat then (d.pop n).complete e 40 0x2113
    else { d with crs.commitReqs := d.crs.commitReqs ++ [(if e.sched then e.startBeat else (d.beat + 1) % 2 ^ 32, e)] }

/-- The parameter sets in use (R81): those named by staged and running bricks, remnants included. -/
def Dev.psetsInUse (d : Dev) : List Nat := (d.crs.bricks.filter (fun b => b.st != .checking)).flatMap (·.psets)

/-- Shadow entry `i` has VALID set. -/
def shadowValid (m : Mem) (i : Nat) : Bool :=
  let a := psetShadow + 32 * i
  if !m.isPoisoned a then wbits (memWord m.sram a) 63 63 == 1
  else !m.isPoisoned (a + 0x40000) && wbits (memWord m.sram (a + 0x40000)) 63 63 == 1

/-- The lowest set in use whose VALID the copy would clear (R81). -/
def Dev.commitClash (d : Dev) (m : Mem) : Option Nat :=
  (d.psetsInUse.filter (fun i => !shadowValid m i)).foldl (fun a i => some (match a with | some j => min i j | none => i)) none

/-- Copy the bytes of [src, src + len) to [dst, dst + len). -/
def copyRange (cells : List Host.Cell) (src dst len : Nat) : List Host.Cell :=
  (cells.filter (fun c => src ≤ c.1 && c.1 < src + len)).foldl (fun (m : List Host.Cell) c => putByte m (c.1 - src + dst) c.2)
    (cells.filter (fun c => !(dst ≤ c.1 && c.1 < dst + len)))

/-- Copy the shadow bank into the active bank, both copies; a word is poisoned where both its shadow copies are (R80, R367). -/
def Mem.commitBank (m : Mem) : Mem :=
  let lost := m.poisoned.filter (fun p =>
    psetShadow / 8 ≤ p && p < psetActive / 8 && m.poisoned.contains (p + 0x40000 / 8))
  { m with
    sram := copyRange (copyRange m.sram psetShadow psetActive 0x20000) psetShadow psetActiveMirror 0x20000
    poisoned := (lost.map (fun p => p + 0x20000 / 8) ++ lost.map (fun p => p + 0x60000 / 8)).foldl
      (fun l p => insertRising p l) (m.poisoned.filter (fun p =>
        !((psetActive / 8 ≤ p && p < psetShadowMirror / 8) || (psetActiveMirror / 8 ≤ p && p < 0x2080000 / 8)))) }

/-- A field of the servo block: SRV takes its shadow values at the next position tick (R271). -/
def isSrvKey (k : Nat) : Bool := 0x500000 * 64 ≤ k && k < 0x600000 * 64

/-- Copy every shadow value written before this edge into effect; SRV captures its own (R209, R210, R271). -/
def Dev.commitShadows (d : Dev) : Dev :=
  { d with regs.effect := d.regs.effect.filter (fun p => isSrvKey p.1) |>.foldl (fun m p => Assoc.put m p.1 p.2 (2 ^ 64))
              (d.regs.shadowAt.filter (fun p => !isSrvKey p.1)),
           regs.srvNext := d.regs.shadowAt.filter (fun p => isSrvKey p.1), crs.srvPending := true }

/-- PARAM_COMMIT: in cycle 0 of a commit beat the copy is made or refused as a whole (R80, R81, R98, R211). -/
def Dev.paramCommit (d : Dev) (m : Mem) : Mem × Dev :=
  let due := d.crs.commitReqs.filter (fun r => !d.beatAhead r.1)
  if !d.commitDue then (m, d)
  else
    let d := { d with crs.commitReqs := d.crs.commitReqs.filter (fun r => d.beatAhead r.1) }
    let done := fun (d : Dev) (code detail : Nat) =>
      due.foldl (fun d r => (d.pop r.2.ring).complete r.2 40 code detail) d
    match d.commitClash m with
    | some i => (m, (done d 0x2114 i).bump Reg.MSN_PSET_STATUS_REFUSED)
    | none =>
      let d := { d.commitShadows with crs.lastCommit := d.beat }
      let d := if d.courseOpen then { d with crs.commits := min (d.crs.commits + 1) 0xFFFFFFFF } else d
      (m.commitBank, (done d 0 0).bump Reg.MSN_PSET_STATUS_COMMITS)

/-! ## Meanings -/

/-- PSET_WRITE (R79). -/
def execPsetWrite (ring : Nat) (s : State) : Host.Outcome State Fault Refusal :=
  let r := s.dev.psetWrite s.mem ring
  s.mainOnly { s with mem := r.1, dev := r.2 }

/-- PSET_LOAD (R79). -/
def execPsetLoad (ring : Nat) (s : State) : Host.Outcome State Fault Refusal := s.mainOnly { s with dev := s.dev.psetLoad ring }

/-- PSET_LOAD_DATA (R79). -/
def execPsetLoadData (ring : Nat) (rd : HostRead) (s : State) : Host.Outcome State Fault Refusal :=
  let r := s.dev.psetLoadData s.mem ring rd
  s.mainOnly { s with mem := r.1, dev := r.2 }

/-- PSET_COMMIT (R80, R211). -/
def execPsetCommit (ring : Nat) (s : State) : Host.Outcome State Fault Refusal := s.mainOnly { s with dev := s.dev.psetCommit ring }

/-- PARAM_COMMIT (R80, R210). -/
def execParamCommit (s : State) : Host.Outcome State Fault Refusal :=
  let r := s.dev.paramCommit s.mem
  s.mainOnly { s with mem := r.1, dev := r.2 }

end Sys2Proof.Machine
end

