-- ==== Sys2Proof/Machine/Course.lean ====
section
/-!
DEFINITION. Courses and bricks: the course unit's states, BRICK, COURSE_BEGIN, COURSE_END and COURSE_ABORT entries, verdicts and
course records (R86 to R100); the register writes of MSN and PTH (R122 to R128, R160 to R163, R183, R184).
-/
namespace Sys2Proof.Machine

/-! ## Latching counters (R6, R95) -/

/-- Every ROL counter latches and starts again (R95). -/
def Dev.latchRol (d : Dev) : Dev :=
  if d.regs.rolBeat == d.beatWide then d
  else { d with regs.rol := d.regs.cnt, regs.cnt := [], regs.rolBeat := d.beatWide,
                thm.sens := d.thm.sens.map (fun (x : Sensor) => { x with peak := none }) }

/-! ## Bricks at checks 1 to 3 (R86, R87, R90) -/

/-- The key of an entry: its ring and index. -/
def Entry.key (e : Entry) : Nat := e.ring * 2 ^ 32 + e.idx

/-- Check 1 of R87 on a descriptor's address and size. -/
def descOk (e : Entry) : Bool :=
  let bytes := e.f 2 31 0
  e.f 1 5 0 == 0 && 80 ≤ bytes && bytes ≤ 65600 && bytes % 16 == 0

/-- What R90 says of a brick that names course `c`. -/
inductive CourseCheck where
  | ok | waits | reject (code : Nat)
  deriving DecidableEq, Repr, Inhabited

/-- A brick naming course `c` against the course state (R90, R92). -/
def Dev.courseCheck (d : Dev) (c : Nat) : CourseCheck :=
  let k := d.crs
  let diff := beatDiff c k.number
  if k.st == .idle then
    if !k.lastValid || diff > 0 then .waits else if diff == 0 then .reject 0x210E else .reject 0x210D
  else if diff > 0 then .waits
  else if diff < 0 then .reject 0x210D
  else if k.st == .aborting || (k.st == .closing && (k.total == 0 || k.total ≤ k.taken)) then .reject 0x210E
  else .ok

/-- An entry rejected at checks 1 to 3 (R87, R94, R99, R100). -/
def Dev.rejectDesc (d : Dev) (e : Entry) (code : Nat) : Dev :=
  let d := (d.answer e 40 code 0xFFFFFFFF).bump Reg.MSN_STAT_REJECTED_COUNT
  if d.courseOpen && e.f 2 63 32 == d.crs.number then { d with crs.rejected := d.crs.rejected + 1 } else d

/-- There is room for one more brick in the table, bricks under check counted (R87 check 3, R93). -/
def Dev.tableRoom (d : Dev) : Bool :=
  d.crs.table.length + (d.crs.bricks.filter (fun b => b.st == .checking)).length < 1048576

/-- Take a brick: it has passed checks 1 to 3 (R87, R97, R369). -/
def Dev.takeBrick (d : Dev) (e : Entry) (pages : List Nat) : Dev :=
  let b : Brick := { key := e.key, entry := e, fedBy := if e.ring < 64 then none else some ((e.ring - 64) / 64),
                     course := e.f 2 63 32, bytes := e.f 2 31 0, pages }
  { d with crs.bricks := d.crs.bricks ++ [b], crs.taken := min (d.crs.taken + 1) 0xFFFFFFFF,
           crs.pagesUsed := d.crs.pagesUsed ++ pages.filter (fun p => !d.crs.pagesUsed.contains p) }

/-- A fed ring's BRICK entry: check 1, then its brick is read into local pages (R412). -/
def Dev.feedBrick (d : Dev) (e : Entry) : Dev :=
  let pages := takePages d.crs.pagesUsed (pagesFor (e.f 2 31 0))
  if !descOk e then (d.pop e.ring).complete e 190 0x2101 0xFFFFFFFF
  else if !d.canRequest then d
  else
    let d := (d.pop e.ring).emit (.hostRead (e.w 1).toNat (e.f 2 31 0))
    { d with crs.pagesUsed := d.crs.pagesUsed ++ pages,
             lnk.fed := d.lnk.fed ++ [{ entry := e, dev := d.act Reg.LNK_FEED_DEVICE e.ring, pages }] }

/-- BRICK (R86, R87): checks 1 to 3, and the read of the brick into staging. -/
def Dev.brickEntry (d : Dev) (n : Nat) : Dev :=
  match d.front n 1 1 with
  | none => d
  | some e =>
    if d.ringFed n then d.feedBrick e
    else if !descOk e then (d.pop n).rejectDesc e 0x2101
    else match d.courseCheck (e.f 2 63 32) with
      | .waits => d
      | .reject code => (d.pop n).rejectDesc e code
      | .ok =>
        if !d.tableRoom then (d.pop n).rejectDesc e 0x210F
        else if !d.canRequest then d
        else ((d.pop n).takeBrick e (takePages d.crs.pagesUsed (pagesFor (e.f 2 31 0)))).emit
          (.hostRead (e.w 1).toNat (e.f 2 31 0))

/-- The verdict of checks 4 to 15 on the bytes of brick `b` (R87). -/
def Dev.verdict (d : Dev) (m : Mem) (b : Brick) (bytes : List Byte) : Dev :=
  match d.brickCheck m b bytes with
  | some (code, detail) => d.rejectBrick b code detail
  | none => d.acceptBrick b bytes

/-- BRICK_VERDICT (R87): the brick's last word has landed, or its read failed (R69). -/
def Dev.brickVerdict (d : Dev) (m : Mem) (k : Nat) (rd : HostRead) : Mem × Dev :=
  match d.brick? k with
  | none => (m, d)
  | some b =>
    if b.st != .checking || b.fedBy.isSome then (m, d)
    else match rd with
      | .ok bytes =>
        let bytes := bytes.take b.bytes
        (stageBytes m b.pages bytes, d.verdict m b bytes)
      | .fail got => (stageBytes m b.pages (got.take b.bytes), (d.dropBrick b).bodyFetchErr b.entry)

/-! ## COURSE_BEGIN, COURSE_END, COURSE_ABORT (R89 to R92) -/

/-- Open course `c` (R89, R93, R167). -/
def Dev.openCourse (d : Dev) (c : Nat) : Dev :=
  let on := fun n => (d.chan n).st == .enabled || (d.chan n).st == .hold
  let d : Dev := { d with crs := { d.crs with
    st := .open, number := c, taken := 0, total := 0, endEntry := none, abortEntry := none, openBeat := d.beatWide,
    completed := 0, rejected := 0, remnants := 0, unreachable := 0, commits := 0, table := [],
    chans := (Vector.range 16).map (fun n => ({ enabled := on n } : ChanCourse)) } }
  d.testZones

/-- What a COURSE_BEGIN does where it stands: none while it waits (R89, R90, R430). A scheduled one whose number is not later is rejected
COURSE_ORDER at once, ahead of the tests of its START_BEAT: the model's choice (log entry 112). -/
def Dev.beginEntry (d : Dev) (e : Entry) : Option Dev :=
  let c := e.f 1 63 32
  let diff := beatDiff c d.crs.number
  let late := e.sched && d.beatPassed e.startBeat
  if !d.tmb.run || d.tmb.cycle != 0 then none
  else if d.crs.st != .idle then
    if diff ≤ 0 then some (d.answer e 40 0x2110) else if late then some (d.answer e 40 0x2113) else none
  else if d.crs.lastValid && diff ≤ 0 && e.f 1 0 0 == 0 then some (d.answer e 40 0x2110)
  else if late then some (d.answer e 40 0x2113)
  else if e.sched && d.beatAhead e.startBeat then none
  else some ((d.openCourse c).answer e 40 0)

/-- What a COURSE_END does (R89). Where SCHED is 1 and the entry names no open course, two rows of R89 apply: SCHED_NOT_ALLOWED goes first, as
it does for COURSE_ABORT: the model's choice (log entry 112). -/
def Dev.endEntry (d : Dev) (e : Entry) : Option Dev :=
  if d.tmb.cycle != 0 then none
  else if e.sched then some (d.answer e 40 0x2112)
  else if d.crs.st == .open && e.f 1 63 32 == d.crs.number then
    some { d with crs.st := .closing, crs.total := e.f 1 31 0, crs.endEntry := some e }
  else some (d.answer e 40 0x2111)

/-- The samples on their way to the DAC of channel `n` emit nothing (R92). -/
def Dev.gatePipe (d : Dev) (n : Nat) : Dev :=
  d.updChan n (fun c => { c with pipe := c.pipe.map (fun s => { s with on := 0, off := 0 }) })

/-- Laser `n` stops for an abort: its brick completes ABORTED with its resume point, and its piste runs its stop segment (R92). -/
def Dev.abortLaser (d : Dev) (m : Mem) (n : Nat) : Dev :=
  let l := d.laser n
  if l.st != .running && l.st != .plumeHeld then d.updLaser n (fun l => { l with queued := none, assigned := none })
  else
    let (k, d) := d.padDelay
    let t := if l.st == .plumeHeld then (d.piste n).holdT else (d.cycleNow + k) * cycUnit
    let d := (d.uncountAfter n t).countUntil n t
    let d := match if l.handed then none else l.running.bind d.brick? with
      | some b =>
        let b := { b with resume := some (d.resumeAt m n b t) }
        d.finishOne b 0x2117 0
      | none => d
    let d := (d.gatePipe n).stopPiste n false
    (d.updLaser n (fun l => { l with running := none, queued := none, assigned := none, handed := false, after := .idle })).setLaser
      n .stopping

/-- Every brick of the course that is on no laser completes ABORTED; one still under check is discarded (R92). -/
def Dev.abortStaged (d : Dev) : Dev :=
  d.crs.bricks.foldl (fun d b =>
    if b.course != d.crs.number then d
    else if b.st == .checking then (d.answerBrick b 40 0x2117 0 []).dropBrick b
    else d.finishOne b 0x2117 0) d

/-- COURSE_ABORT takes effect (R92): lasers that lead first, then the receivers of seams, then what is staged. -/
def Dev.abortCourse (d : Dev) (m : Mem) (e : Entry) : Dev :=
  let recv := d.pth.seams.map (·.receiver)
  let order := (List.range 16).filter (fun n => !recv.contains n) ++ (List.range 16).filter recv.contains
  let d := { d with crs.st := .aborting, crs.abortEntry := some e, pth.seams := [], pth.offers := [] }
  (order.foldl (fun d n => d.abortLaser m n) d).abortStaged

/-- What a COURSE_ABORT does, at the first beat edge after its acceptance (R89, R92). -/
def Dev.abortEntry (d : Dev) (m : Mem) (e : Entry) : Option Dev :=
  if d.tmb.cycle != 0 || decide (d.beatWide ≤ e.beat) then none
  else if e.sched then some (d.answer e 40 0x2112)
  else if (d.crs.st == .open || d.crs.st == .closing) && e.f 1 63 32 == d.crs.number then some (d.abortCourse m e)
  else some (d.answer e 40 0x2111)

/-- A course entry of a fed ring goes to the fed device as a CTRL ENTRY frame, once every entry before it has gone (R412). -/
def Dev.feedCtrl (d : Dev) (e : Entry) : Dev :=
  let x : FedEntry := { entry := e, dev := d.act Reg.LNK_FEED_DEVICE e.ring }
  let waits := d.lnk.fed.any (fun y => y.entry.ring == e.ring && !y.sent)
  let d := { d.pop e.ring with lnk.fed := d.lnk.fed ++ [x] }
  if waits then d else d.fedSend x (d.newFrame 5 x.dev (streamWord 2 e.ring e.idx :: e.words.take 8))

/-- Run a course entry of opcode `op` at the front of ring `n` with `f`; it stays there while it waits. -/
def Dev.courseOp (d : Dev) (n op : Nat) (f : Dev → Entry → Option Dev) : Dev :=
  match d.front n 1 op with
  | none => d
  | some e => if d.ringFed n then d.feedCtrl e else (f (d.pop n) e).getD d

/-! ## Closing (R91, R94, R95) -/

/-- A counter of a course record, saturated at 32 bits (R94). -/
def sat32 (v : Nat) : Nat := min v 0xFFFFFFFF

/-- The course records (R94). -/
def Dev.courseRecords (d : Dev) (aborted : Bool) : Dev :=
  let k := d.crs
  let d := d.record 40 0x2010 k.number
    [pack [(sat32 k.completed, 32), (sat32 k.rejected, 0)], pack [(sat32 k.remnants, 32), (sat32 k.unreachable, 0)],
     word (d.beatWide - k.openBeat), pack [(sat32 k.commits, 32), (bit aborted, 0)]]
  forRange 16 d (fun d n =>
    let c := at' k.chans n
    if c.enabled then
      d.record 40 0x2011 n [BitVec.ofNat 64 c.vectors, BitVec.ofNat 64 (min ((c.length + 2 ^ 31) / 2 ^ 32) (2 ^ 64 - 1)),
        BitVec.ofNat 64 c.emitBeats, pack [(sat32 c.bricks, 32), (sat32 c.remnants, 0)]]
    else d)

/-- The course closes (R89, R93 to R95, R167). -/
def Dev.closeCourse (d : Dev) (aborted : Bool) : Dev :=
  let k := d.crs
  let d := d.latchRol.courseRecords aborted
  let d := { d with crs := { d.crs with st := .idle, lastValid := true, total := 0, table := [], endEntry := none, abortEntry := none },
                    pth.zones := d.pth.zones.map (fun z => { z with suspended := false }) }
  let d := match k.abortEntry with | some e => d.answer e 40 0 | none => d
  match k.endEntry with
  | some e => d.answer e 40 (if aborted then 0x2117 else 0)
  | none => d

/-- COURSE_CLOSE: every brick of a CLOSING course is resolved and BRICK_TOTAL is met (R89, R91). -/
def Dev.courseClose (d : Dev) : Dev :=
  if d.crs.st == .closing && d.tmb.cycle == 0 && d.crs.total ≤ d.crs.taken &&
      d.crs.bricks.all (fun b => b.course != d.crs.number) then d.closeCourse false
  else d

/-- ABORT_COMPLETE: every channel has stopped (R89). -/
def Dev.abortComplete (d : Dev) : Dev :=
  if d.crs.st == .aborting && d.tmb.cycle == 0 && (List.range 16).all (fun n => (d.laser n).st != .stopping) then
    d.closeCourse true
  else d

/-! ## Register writes of MSN and PTH -/

/-- The ranges and conditions of R122 to R126 on a write of an MSN register. -/
def Dev.msnOk (d : Dev) (r : RegDef) (v : W64) : Bool :=
  if r.addr = Reg.MSN_CTL.addr then
    let u := Reg.MSN_CTL_URGENT_MAX.of v
    1 ≤ u && u ≤ 8 && !(Reg.MSN_CTL_PLUME_MODE.of v == 1 && Reg.MSN_CTL_GUARD_EN.of v == 0) &&
      !(d.courseOpen && d.changes Reg.MSN_CTL [Reg.MSN_CTL_HOST_HOLD] v)
  else if r.addr = Reg.MSN_GAS.addr then
    let c := signed 32 (Reg.MSN_GAS_COS.of v)
    let s := signed 32 (Reg.MSN_GAS_SIN.of v)
    !d.courseOpen && (c * c + s * s - 2 ^ 60).natAbs ≤ 2 ^ 44
  else if r.addr = Reg.MSN_FAIR.addr then
    let k := Reg.MSN_FAIR_SCAN_DEPTH.of v
    16 ≤ k && k ≤ 1024 && !(d.courseOpen && k != d.cur Reg.MSN_FAIR_SCAN_DEPTH)
  else true

/-- A write of an MSN register (R21, R122 to R128). -/
def Dev.writeMsn (d : Dev) (r : RegDef) (v : W64) (i j : Nat) : Dev := d.storeIf Reg.MSN_STATUS_REFUSED (d.msnOk r v) r v i j

/-- A write of a channel's PTH register is allowed by state and range (R163). -/
def Dev.pthChanOk (d : Dev) (r : RegDef) (v : W64) (n : Nat) : Bool :=
  let ge := fun (f : Field) (lo hi : Nat) => lo ≤ f.of v && f.of v ≤ hi
  !(d.chan n).active &&
    (if r.addr = Reg.PTH_FIELD_X.addr then
      decide (signed 32 (Reg.PTH_FIELD_X_MIN.of v) ≤ signed 32 (Reg.PTH_FIELD_X_MAX.of v))
    else if r.addr = Reg.PTH_FIELD_Y.addr then
      decide (signed 32 (Reg.PTH_FIELD_Y_MIN.of v) ≤ signed 32 (Reg.PTH_FIELD_Y_MAX.of v))
    else if r.addr = Reg.PTH_DYN.addr then
      ge Reg.PTH_DYN_VMAX_JUMP 1 40000 && ge Reg.PTH_DYN_VMAX_MARK 1 20000 && ge Reg.PTH_DYN_STOP_ACC 1000 1048575
    else if r.addr = Reg.PTH_FOCUS.addr then ge Reg.PTH_FOCUS_FOCUS_VEL 1 65535 && ge Reg.PTH_FOCUS_FOCUS_ACC 1 1048575
    else if r.addr = Reg.PTH_TIMING.addr then ge Reg.PTH_TIMING_TRACK_DELAY 96 32000
    else true)

/-- The ranges of a mortar zone's registers (R184). -/
def seamRanges (r : RegDef) (v : W64) : Bool :=
  let ge := fun (f : Field) (lo hi : Nat) => lo ≤ f.of v && f.of v ≤ hi
  if r.addr = Reg.PTH_SEAM_CFG.addr then ge Reg.PTH_SEAM_CFG_K 2 16 && Reg.PTH_SEAM_CFG_BOND_MODE.of v != 3
  else if r.addr = Reg.PTH_SEAM_LINE.addr then ge Reg.PTH_SEAM_LINE_HALF 65536 33554432
  else if r.addr = Reg.PTH_SEAM_SPAN.addr then
    decide (signed 32 (Reg.PTH_SEAM_SPAN_LO.of v) ≤ signed 32 (Reg.PTH_SEAM_SPAN_HI.of v))
  else if r.addr = Reg.PTH_SEAM_BLEND.addr then
    ge Reg.PTH_SEAM_BLEND_BLEND 131072 16777216 && ge Reg.PTH_SEAM_BLEND_RESERVE 0 16777216
  else if r.addr = Reg.PTH_SEAM_SPREAD.addr then ge Reg.PTH_SEAM_SPREAD_PITCH 256 0x7FFFFFFF
  else true

/-- A write of a mortar zone's register: refused while a course is open but to clear EN, out of range, or where it leaves an enabled
zone unusable (R167, R184). -/
def Dev.writeSeam (d : Dev) (r : RegDef) (v : W64) (z : Nat) : Dev :=
  let clears := r.addr == Reg.PTH_SEAM_CFG.addr && Reg.PTH_SEAM_CFG_EN.of v == 0 &&
    !d.changes Reg.PTH_SEAM_CFG [Reg.PTH_SEAM_CFG_EN] v z
  let d' := d.store r v z 0
  if (d.courseOpen && !clears) || !seamRanges r v || (d'.cur Reg.PTH_SEAM_CFG_EN z == 1 && !d'.zoneUsable z) then
    d.refuse Reg.PTH_STATUS_REFUSED
  else d'

/-- A write of a PTH register (R160 to R163, R183, R184). -/
def Dev.writePth (d : Dev) (r : RegDef) (v : W64) (i j : Nat) : Dev :=
  let perZone := [Reg.PTH_SEAM_CFG, Reg.PTH_SEAM_LINE, Reg.PTH_SEAM_SPAN, Reg.PTH_SEAM_BLEND, Reg.PTH_SEAM_SPREAD, Reg.PTH_SEAM_REG]
  let perChan := [Reg.PTH_FIELD_X, Reg.PTH_FIELD_Y, Reg.PTH_DYN, Reg.PTH_FOCUS, Reg.PTH_TIMING]
  if perZone.any (fun x => x.addr == r.addr) then d.writeSeam r v i
  else
    let ok : Bool :=
      if r.addr = Reg.PTH_CTL.addr then !d.courseOpen
      else if r.addr = Reg.PTH_SEAM_CTL.addr then !d.courseOpen && 1000 ≤ Reg.PTH_SEAM_CTL_SEAM_LEAD.of v
      else if r.addr = Reg.PTH_SPEED.addr then Reg.PTH_SPEED_VEL.of v != 0 && Reg.PTH_SPEED_ACC.of v != 0
      else if perChan.any (fun x => x.addr == r.addr) then d.pthChanOk r v i
      else true
    d.storeIf Reg.PTH_STATUS_REFUSED ok r v i j

/-! ## Meanings -/

/-- BRICK (R86). -/
def execBrick (ring : Nat) (s : State) : Host.Outcome State Fault Refusal := s.mainOnly { s with dev := s.dev.brickEntry ring }

/-- BRICK_VERDICT (R87). -/
def execBrickVerdict (key : Nat) (rd : HostRead) (s : State) : Host.Outcome State Fault Refusal :=
  let r := s.dev.brickVerdict s.mem key rd
  s.mainOnly { s with mem := r.1, dev := r.2 }

/-- COURSE_BEGIN (R89). -/
def execCourseBegin (ring : Nat) (s : State) : Host.Outcome State Fault Refusal :=
  s.mainOnly { s with dev := s.dev.courseOp ring 2 Dev.beginEntry }

/-- COURSE_END (R89). -/
def execCourseEnd (ring : Nat) (s : State) : Host.Outcome State Fault Refusal :=
  s.mainOnly { s with dev := s.dev.courseOp ring 3 Dev.endEntry }

/-- COURSE_ABORT (R92). -/
def execCourseAbort (ring : Nat) (s : State) : Host.Outcome State Fault Refusal :=
  s.mainOnly { s with dev := s.dev.courseOp ring 4 (fun d e => d.abortEntry s.mem e) }

/-- COURSE_CLOSE (R89). -/
def execCourseClose (s : State) : Host.Outcome State Fault Refusal := s.mainOnly { s with dev := s.dev.courseClose }

/-- ABORT_COMPLETE (R89). -/
def execAbortComplete (s : State) : Host.Outcome State Fault Refusal := s.mainOnly { s with dev := s.dev.abortComplete }

/-- HOST_HOLD (R109, R122): a write of MSN_CTL that changes HOST_HOLD. -/
def execHostHold (_src : Source) (v : W64) (s : State) : Host.Outcome State Fault Refusal :=
  s.mainOnly { s with dev :=
            if Reg.MSN_CTL_HOST_HOLD.of v != s.dev.cur Reg.MSN_CTL_HOST_HOLD then s.dev.writeMsn Reg.MSN_CTL v 0 0 else s.dev }

end Sys2Proof.Machine
end

