-- ==== Sys2Proof/Machine/Feed.lean ====
section
/-!
DEFINITION. Frames for this device and the feed unit: fed streams at the receiver, fed entries and their results at the feeder,
foreign events (R399, R401, R412 to R416).
-/
namespace Sys2Proof.Machine

/-! ## LINKCTL (R395, R402) -/

/-- One step of the CRC-8 with polynomial 0x07, most significant bit first. -/
def crc8Bits : Nat → Nat → Nat → Nat
  | 0, _, c => c
  | n + 1, v, c =>
    let top := (c / 128) ^^^ (bitsOf v n n)
    crc8Bits n v (if top == 1 then ((2 * c) % 256) ^^^ 0x07 else (2 * c) % 256)

/-- The CRC-8 of a LINKCTL block over bits [63:8] (R395). -/
def crc8 (w : Nat) : Nat := crc8Bits 56 (w / 256) 0

/-- Port `p` sends a LINKCTL block with its acknowledgements, credits and, for the virtual lanes in `naks`, NAK (R402). -/
def Dev.sendLinkctl (d : Dev) (p : Nat) (naks : Nat) : Dev :=
  let a := at' (d.bl p).vl 0
  let b := at' (d.bl p).vl 1
  let w := (pack [(0x2D, 56), ((a.expect + 4095) % 4096, 44), ((b.expect + 4095) % 4096, 32), (a.freed, 24), (b.freed, 16),
    (bitsOf naks 0 0, 15), (bitsOf naks 1 1, 14)]).toNat
  d.putLinkctl p (BitVec.ofNat 64 (w + crc8 w))

/-- The receive slot of a frame is free again (R401). -/
def Dev.freeSlot (d : Dev) (port : Option Nat) (vl : Nat) : Dev :=
  match port with
  | some p => if d.blUp p then (d.updVl p vl (fun v => { v with freed := (v.freed + 1) % 256 })).sendLinkctl p 0 else d
  | none => d

/-! ## Taking frames for this device -/

/-- The first arrived frame with a property, and the device without it. -/
def Dev.takeArrived (d : Dev) (p : Frame → Bool) : Option (Option Nat × Frame × Dev) :=
  match d.lnk.arrived.findIdx? (fun x => p x.2) with
  | some i => (d.lnk.arrived[i]?).map (fun x => (x.1, x.2, { d with lnk.arrived := d.lnk.arrived.eraseIdx i }))
  | none => none

/-- SUB of a frame's word 0 (R399). -/
def frameSub (f : Frame) : Nat := wbits (f.words.getD 0 0) 63 56

/-- RING and INDEX of a frame's stream word. -/
def frameRing (f : Frame) : Nat := wbits (f.words.getD 0 0) 55 50
def frameIdx (f : Frame) : Nat := wbits (f.words.getD 0 0) 31 0

/-- The stamp two words hold (R9). -/
def stampOf (w0 w1 : W64) : Stamp :=
  { beat := wbits w0 63 32, cycle := wbits w0 31 24, source := wbits w0 23 16, sub := wbits w0 15 10, device := wbits w0 9 0,
    time := w1.toNat }

/-! ## Fed streams (R414) -/

/-- Change the fed stream of a feeder's ring. -/
def Dev.updStream (d : Dev) (dev ring : Nat) (f : FedStream → FedStream) : Dev :=
  { d with lnk.streams := d.lnk.streams.map (fun s => if s.dev == dev && s.ring == ring then f s else s) }

/-- The fed stream of a feeder's ring. -/
def Dev.stream? (d : Dev) (dev ring : Nat) : Option FedStream := d.lnk.streams.find? (fun s => s.dev == dev && s.ring == ring)

/-- Insert a frame in INDEX order (R414). -/
def insertFed (x : FedIn) : List FedIn → List FedIn
  | [] => [x]
  | y :: t => if beatDiff (frameIdx x.frame) (frameIdx y.frame) < 0 then x :: y :: t else y :: insertFed x t

/-- The entry that a fed frame carries, under its virtual ring: BYTES of a brick is 8 times WORDS less 3 (R414). -/
def fedEntryOf (f : Frame) : Entry :=
  let w := fun i => f.words.getD i 0
  { ring := virtualRing f.src (frameRing f), idx := frameIdx f,
    words := if f.ftype == 1 then [w 1, 0, pack [(wbits (w 2) 63 32, 32), (8 * (f.words.length - 3), 0)], 0, 0, 0, 0, 0]
      else f.words.drop 1 }

/-- A frame joins its stream, which opens if it must; one beyond the 64th is refused (R414). -/
def Dev.joinStream (d : Dev) (f : Frame) (port : Option Nat) : Dev :=
  let r := frameRing f
  let x : FedIn := { frame := f, port }
  if (d.stream? f.src r).isSome then
    d.updStream f.src r (fun s => { s with q := insertFed x s.q, last := d.pwr.clock })
  else if d.lnk.streams.length < 64 then
    { d with lnk.streams := d.lnk.streams ++ [{ dev := f.src, ring := r, q := [x], last := d.pwr.clock }] }
  else ((d.raise 190 r 0xB00A r).sendResult (fedEntryOf f) 190 0xB00A r []).freeSlot (if f.ftype == 1 then port else none) 1

/-- What the front entry of a stream does; none while it waits (R90, R414). -/
def Dev.fedFront (d : Dev) (m : Mem) (x : FedIn) : Option Dev :=
  let e := fedEntryOf x.frame
  if x.frame.ftype == 1 then
    if x.port.isSome then none
    else match d.courseCheck (e.f 2 63 32) with
      | .waits => none
      | .reject code => some ((d.freePages x.pages).rejectDesc e code)
      | .ok =>
        if !d.tableRoom then some ((d.freePages x.pages).rejectDesc e 0x210F)
        else
          let d := d.takeBrick e x.pages
          match d.brick? e.key with
          | some b => some (d.verdict m b (wordBytes (x.frame.words.drop 3)))
          | none => some d
  else match e.opcode with
    | 2 => d.beginEntry e
    | 3 => d.endEntry e
    | 4 => d.abortEntry m e
    | _ => some d

/-- Run a stream as far as it goes. -/
def Dev.runStream (d : Dev) (m : Mem) (dev ring : Nat) : Nat → Dev
  | 0 => d
  | fuel + 1 =>
    match (d.stream? dev ring).bind (fun s => s.q.head?) with
    | none => d
    | some x =>
      match (d.updStream dev ring (fun s => { s with q := s.q.drop 1 })).fedFront m x with
      | some d => Dev.runStream d m dev ring fuel
      | none => d

/-- Run a stream's waiting entries. -/
def Dev.runStreamAll (d : Dev) (m : Mem) (dev ring : Nat) : Dev :=
  if d.island 128 == 2 then d
  else d.runStream m dev ring (match d.stream? dev ring with | some s => s.q.length + 1 | none => 0)

/-- BRICK_FRAME_RECEIVE: a BRICK frame joins its stream; its slot stays full until it is staged (R414). -/
def Dev.brickFrame (d : Dev) : Dev :=
  match d.takeArrived (fun f => f.ftype == 1) with
  | some (p, f, d) => d.joinStream f (some (p.getD 15))
  | none => d

/-- FED_BRICK_STAGING: the first frame of a stream not staged yet moves into staging once its pages are free (R369, R414). -/
def Dev.fedStaging (d : Dev) (m : Mem) (dev ring : Nat) : Mem × Dev :=
  match (d.stream? dev ring).bind (fun s => s.q.find? (fun x => x.port.isSome)) with
  | none => (m, d)
  | some x =>
    let bytes := wordBytes (x.frame.words.drop 3)
    let n := pagesFor bytes.length
    if d.pagesFree < n then (m, d)
    else
      let pages := takePages d.crs.pagesUsed n
      let m := stageBytes m pages bytes
      let d := ({ d with crs.pagesUsed := d.crs.pagesUsed ++ pages }).updStream dev ring (fun s =>
        { s with q := s.q.map (fun y => if y == x then { y with port := none, pages } else y) })
      (m, (d.freeSlot x.port 1).runStreamAll m dev ring)

/-- CTRL_ENTRY_RECEIVE: a course entry joins its stream (R414). -/
def Dev.ctrlEntry (d : Dev) (m : Mem) : Dev :=
  match d.takeArrived (fun f => f.ftype == 5 && frameSub f == 2) with
  | some (p, f, d) => ((d.freeSlot p 0).joinStream f none).runStreamAll m f.src (frameRing f)
  | none => d

/-- COURSE_WAIT_RESUME: what waits at the front of a ring, or of a fed stream, is taken up (R90). -/
def Dev.waitResume (d : Dev) (m : Mem) (n : Nat) : Dev :=
  if n ≥ 64 then d.runStreamAll m ((n - 64) / 64) ((n - 64) % 64)
  else (d.brickEntry n).courseOp n 2 Dev.beginEntry

/-- FED_STREAM_CLOSE: its entries have completed and no frame of it has come for 1 s (R414). -/
def Dev.closeStream (d : Dev) (dev ring : Nat) : Dev :=
  let v := virtualRing dev ring
  match d.stream? dev ring with
  | none => d
  | some s =>
    let busy := !s.q.isEmpty || d.crs.bricks.any (fun b => b.entry.ring == v) ||
      (match d.crs.endEntry with | some e => e.ring == v | none => false) ||
      (match d.crs.abortEntry with | some e => e.ring == v | none => false)
    if busy || d.pwr.clock - s.last < 1000000000 * nsUnit then d
    else { d with lnk.streams := d.lnk.streams.filter (fun s => !(s.dev == dev && s.ring == ring)) }

/-! ## The feeder (R412, R413) -/

/-- Send the course entries of ring `r` that waited behind its bricks. -/
def Dev.fedPump (d : Dev) (r : Nat) : Nat → Dev
  | 0 => d
  | fuel + 1 =>
    match d.lnk.fed.find? (fun x => x.entry.ring == r && !x.sent) with
    | some x =>
      if x.entry.opcode == 1 then d
      else Dev.fedPump (d.fedSend x (d.newFrame 5 x.dev (streamWord 2 r x.entry.idx :: x.entry.words.take 8))) r fuel
    | none => d

/-- FED_BRICK_READ_DONE: a fed brick is whole in local pages and goes out as a BRICK frame, in its ring's order; or its read failed
(R69, R412). -/
def Dev.fedRead (d : Dev) (m : Mem) (key : Nat) (rd : HostRead) : Mem × Dev :=
  match d.lnk.fed.find? (fun x => x.entry.key == key) with
  | none => (m, d)
  | some x =>
    let r := x.entry.ring
    if x.sent || x.entry.opcode != 1 || (d.lnk.fed.find? (fun y => y.entry.ring == r && !y.sent)) != some x then (m, d)
    else match rd with
      | .fail got => (stageBytes m x.pages (got.take (x.entry.f 2 31 0)), ((d.fedRemove x).bodyFetchErr x.entry).fedPump r d.lnk.fed.length)
      | .ok bytes =>
        let bytes := bytes.take (x.entry.f 2 31 0)
        let f := d.newFrame 1 x.dev (streamWord 0 r x.entry.idx :: x.entry.w 0 :: x.entry.w 2 :: leWords (bytes.length / 8) bytes)
        (stageBytes m x.pages bytes, (d.fedSend x f).fedPump r d.lnk.fed.length)

/-- A result for a fed entry: its DONE entry is written as it comes; for an entry already resolved it is discarded (R413). -/
def Dev.fedAnswer (d : Dev) (f : Frame) (code detail : Nat) (stamp : Stamp) (payload : List W64) : Dev :=
  let r := frameRing f
  match d.fedEntry? r (frameIdx f) with
  | none => (d.raise 190 r 0xB009 r).bump Reg.LNK_STAT_FED_LATE_COUNT
  | some x =>
    let e := x.entry
    let it : Item := { kind := .done r e.idx e.tag, code, detail, payload, stamp }
    let d := d.fedRemove x
    let d := if code == 0 && e.noDone then d else match d.ringFor it with
      | some n => d.deliver n it
      | none => d
    (d.updRing r (fun q => { q with passed := q.passed - 1 })).passOn r

/-- FED_RESULT_RECEIVE: an EVENT frame of SUB 1 (R413). -/
def Dev.fedDone (d : Dev) : Dev :=
  match d.takeArrived (fun f => f.ftype == 3 && frameSub f == 1) with
  | some (p, f, d) =>
    let w := fun i => f.words.getD (i + 1) 0
    (d.freeSlot p 0).fedAnswer f (wbits (w 0) 31 16) (wbits (w 1) 31 0) (stampOf (w 2) (w 3)) [w 4, w 5, w 6, w 7]
  | none => d

/-- REMNANT_FRAME_RECEIVE: UNREACHABLE, with words 6 and 7 from the remnant header and the completion words (R413). -/
def Dev.remnantFrame (d : Dev) : Dev :=
  match d.takeArrived (fun f => f.ftype == 2) with
  | some (p, f, d) =>
    let w := fun i => f.words.getD i 0
    (d.freeSlot p 0).fedAnswer f 0x2004 (wbits (w 9) 31 0) (stampOf (w 10) (w 11))
      [w 12, w 13, w 14, pack [(wbits (w 8) 31 0, 32), (wbits (w 15) 31 0, 0)]]
  | none => d

/-- FOREIGN_EVENT_RECEIVE: an exported event goes to the FOREIGN ring (R56, R416). -/
def Dev.foreignEvent (d : Dev) : Dev :=
  match d.takeArrived (fun f => f.ftype == 3 && frameSub f == 2) with
  | some (p, f, d) =>
    let w := fun i => f.words.getD (i + 1) 0
    let it : Item := { kind := .foreignEvent, code := wbits (w 0) 31 16, detail := wbits (w 1) 31 0, payload := [w 4, w 5, w 6, w 7],
                       stamp := stampOf (w 2) (w 3) }
    let d := d.freeSlot p 0
    match d.ringFor it with
    | some n => d.deliver n it
    | none => d
  | none => d

/-- FEED_TIMEOUT_EXPIRY: a fed entry sent FEED_TIMEOUT seconds ago has no result (R413). -/
def Dev.feedTimeout (d : Dev) (key : Nat) : Dev :=
  let t : Int := d.act Reg.LNK_FEED_CTL_FEED_TIMEOUT
  match d.lnk.fed.find? (fun x => x.entry.key == key) with
  | some x => if x.sent && t != 0 && d.pwr.clock - x.since ≥ t * 1000000000 * nsUnit then d.feedLost x else d
  | none => d

/-! ## Meanings -/

/-- COURSE_WAIT_RESUME (R90). -/
def execCourseWaitResume (ring : Nat) (s : State) : Host.Outcome State Fault Refusal :=
  s.mainOnly { s with dev := s.dev.waitResume s.mem ring }

/-- BRICK_FRAME_RECEIVE (R414). -/
def execBrickFrameReceive (s : State) : Host.Outcome State Fault Refusal := s.mainOnly { s with dev := s.dev.brickFrame }

/-- FED_BRICK_STAGING (R414). -/
def execFedBrickStaging (dev ring : Nat) (s : State) : Host.Outcome State Fault Refusal :=
  let r := s.dev.fedStaging s.mem dev ring
  s.mainOnly { s with mem := r.1, dev := r.2 }

/-- CTRL_ENTRY_RECEIVE (R414). -/
def execCtrlEntryReceive (s : State) : Host.Outcome State Fault Refusal := s.mainOnly { s with dev := s.dev.ctrlEntry s.mem }

/-- REMNANT_FRAME_RECEIVE (R413). -/
def execRemnantFrameReceive (s : State) : Host.Outcome State Fault Refusal := s.mainOnly { s with dev := s.dev.remnantFrame }

/-- FED_RESULT_RECEIVE (R413). -/
def execFedResultReceive (s : State) : Host.Outcome State Fault Refusal := s.mainOnly { s with dev := s.dev.fedDone }

/-- FOREIGN_EVENT_RECEIVE (R416). -/
def execForeignEventReceive (s : State) : Host.Outcome State Fault Refusal := s.mainOnly { s with dev := s.dev.foreignEvent }

/-- FEED_TIMEOUT_EXPIRY (R413). -/
def execFeedTimeoutExpiry (key : Nat) (s : State) : Host.Outcome State Fault Refusal :=
  s.mainOnly { s with dev := s.dev.feedTimeout key }

/-- FED_STREAM_CLOSE (R414). -/
def execFedStreamClose (dev ring : Nat) (s : State) : Host.Outcome State Fault Refusal :=
  s.mainOnly { s with dev := s.dev.closeStream dev ring }

/-- FED_BRICK_READ_DONE (R412). -/
def execFedBrickReadDone (key : Nat) (rd : HostRead) (s : State) : Host.Outcome State Fault Refusal :=
  let r := s.dev.fedRead s.mem key rd
  s.mainOnly { s with mem := r.1, dev := r.2 }

end Sys2Proof.Machine
end

