-- ==== Sys2Proof/Machine/Tmb.lean ====
section
/-!
DEFINITION. TMB: domain time, the beat generator, the servo, steps, PTP and the capture inputs (chapter 15).
-/
namespace Sys2Proof.Machine

/-! ## The tick -/

/-- One FCLK cycle: domain time advances by TMB_INCR (R427). In the cycle that reaches a multiple of 50 ns a new beat or
service edge falls (R22, R431), the data path samples its RW fields (R20), and the shadow values written so far are those that a commit at
this edge makes (R210). -/
def Dev.advance (d : Dev) : Dev :=
  let t := d.tmb.time + (d.act Reg.TMB_INCR_INCR : Int)
  let edge := t / (50 * nsUnit) != d.tmb.time / (50 * nsUnit)
  { d with tmb.time := t, tmb.cycle := if edge then 0 else d.tmb.cycle + 1,
           regs.rwAct := if edge then d.regs.rw else d.regs.rwAct,
           regs.shadowAt := if edge then d.regs.shadow else d.regs.shadowAt }

/-! ## Changes of domain time (R428, R432, R434, R438) -/

/-- The FCLK cycle at domain time `t`, counted from the multiple of 50 ns at or before it (R9, R431). -/
def Dev.cycleAt (d : Dev) (t : Int) : Nat := (t % (50 * nsUnit)).toNat / d.act Reg.TMB_INCR_INCR

/-- Domain time is changed other than by its advance: the service edges, and the cycle counted from them, move with it (R431), and an armed
start it reaches or passes is cancelled (R432). -/
def Dev.timeTo (d : Dev) (t : Int) : Dev :=
  let d := { d with tmb.time := t, tmb.cycle := d.cycleAt t }
  match d.tmb.startAt with
  | some st =>
    if timeDiff d.ns st ≥ 0 then ({ d with tmb.startAt := none }).raise 192 0 0xC00D 0 else d
  | none => d

/-! ## Sources and measurements (R433 to R437) -/

/-- This device is the domain root (R418). -/
def Dev.isRoot (d : Dev) : Bool := d.on Reg.LNK_DEV_ROOT

/-- The PTP port in SLAVE state, if there is one (R433); 9 is SLAVE in IEEE 1588's numbering. -/
def Dev.slavePort (d : Dev) : Option Nat := (List.range 2).find? (fun e => (at' d.tmb.ports e).state == 9)

/-- The time source in use (R433, R446): 0 none, 1 PTP, 2 Beat Link; with its port. -/
def Dev.timeSource (d : Dev) : Nat × Nat :=
  if d.tmb.freeRun then (0, 0)
  else if d.isRoot then
    match d.slavePort with
    | some e => (1, e)
    | none => (0, 0)
  else if d.lnk.upstream < 10 then (2, d.lnk.upstream) else (0, 0)

/-- The ±300 ppm limit of FREQ, in units of 2^-40 (R429). -/
def freqMax : Int := 329853488

/-- A whole number of ppm in units of 2^-40. -/
def ppmUnits (p : Int) : Int := (p * 1099511627776).tdiv 1000000

/-- Count a measurement towards the lock tests (R435). -/
def Dev.lockTest (d : Dev) (off : Int) : Dev :=
  let lim := (d.act Reg.TMB_SERVO_LOCK_NS : Int)
  let a := (off.natAbs : Int)
  let good := if a ≤ lim then min (d.tmb.good + 1) 16 else 0
  let bad := if a > 4 * lim then min (d.tmb.bad + 1) 4 else 0
  let d := { d with tmb.good := good, tmb.bad := bad }
  if !d.tmb.locked && good == 16 then ({ d with tmb.locked := true }).raise 193 0 0xC002 0
  else if d.tmb.locked && bad == 4 then ({ d with tmb.locked := false }).raise 193 0 0xC003 0
  else d

/-- One measurement from a source and port: `off` is the source's time minus local domain time in 2^-16 ns (R434). -/
def Dev.measure (d : Dev) (source port : Nat) (off : Int) : Dev :=
  let dt := match d.tmb.measured with
    | some m => if m.source == source && m.port == port && !d.tmb.freeRun then d.tmb.time - m.time else 0
    | none => 0
  let far := off.natAbs > 1000 * 65536
  let d := { d with tmb.offset := off, tmb.freeRun := false }.peak Reg.TMB_STAT_OFFSET_PEAK_COUNT off.natAbs
  let d :=
    if !d.tmb.run && far then d.timeTo (d.tmb.time + off * 65536)
    else if dt ≤ 0 then d
    else
      let k := fun (c : Nat) => ((c : Int) * off * 1099511627776).tdiv dt
      let integ := clampI (-freqMax) freqMax (d.tmb.integ + k (d.act Reg.TMB_SERVO_KI))
      { d with tmb.integ := integ, tmb.prop := k (d.act Reg.TMB_SERVO_KP) }
  let d :=
    if d.tmb.run && far then
      if d.tmb.farRaised then d
      else ({ d with tmb.farRaised := true }).raise 193 0 0xC005
        (unsigned 32 (clampI (-2147483648) 2147483647 (off.tdiv 65536)))
    else { d with tmb.farRaised := false }
  ({ d with tmb.measured := some { source, port, time := d.tmb.time } }).lockTest off

/-- The time source is lost: the timebase holds its last rate (R435, R437). -/
def Dev.sourceLost (d : Dev) (source : Nat) : Dev :=
  let d := ({ d with tmb.freeRun := true, tmb.prop := 0, tmb.measured := none, tmb.good := 0, tmb.bad := 0 }).raise
    193 0 0xC004 source
  if d.tmb.locked then ({ d with tmb.locked := false }).raise 193 0 0xC003 0 else d

/-- STEP_REMAIN as it stands now, in units of 2^-40 ns (R438). -/
def Dev.stepNow (d : Dev) : Int :=
  d.tmb.stepRemain - (d.tmb.stepRate * (d.tmb.time - d.tmb.stepAt)).tdiv nsUnit

/-- A new FREQ at a beat group boundary, with the slew of a pending step (R429, R434, R438). -/
def Dev.freqUpdate (d : Dev) : Dev :=
  let group : Int := 3200
  let full := ppmUnits (d.act Reg.TMB_CTL_SLEW_PPM)
  let finished := d.tmb.stepLast
  let remain := if finished then 0 else d.stepNow
  let last := remain != 0 && decide ((remain.natAbs : Int) < full * group)
  let slew := if remain == 0 then 0 else if last then remain.tdiv group else if remain > 0 then full else -full
  let freq := clampI (-freqMax) freqMax (d.tmb.integ + d.tmb.prop + slew)
  let d := { d with tmb.stepRemain := remain, tmb.stepAt := d.tmb.time, tmb.slew := slew, tmb.stepLast := last, tmb.freq := freq,
                    tmb.stepRate := freq - d.tmb.integ }
  if finished then d.raise 193 0 0xC006 0 else d

/-! ## Register writes (R428, R432, R438, R446 to R452) -/

/-- The conditions of R432 under which a write that arms the start is refused. -/
def Dev.startRefused (d : Dev) : Bool :=
  let st := d.cur Reg.TMB_START_TIME_START_TIME
  d.tmb.run || d.cur Reg.TMB_INCR_INCR != 0xA0000000 || st % 3200 != 0 || timeDiff st d.ns < 3200 || d.tmb.startAt.isSome

/-- A write of TMB_CTL (R432, R446). -/
def Dev.writeTmbCtl (d : Dev) (v : W64) : Dev :=
  let ppm := Reg.TMB_CTL_SLEW_PPM.of v
  let start := Reg.TMB_CTL_BEAT_START.of v == 1
  if ppm < 1 || ppm > 100 || (start && d.startRefused) then d.refuse Reg.TMB_STATUS_REFUSED
  else
    let d := d.store Reg.TMB_CTL v 0 0
    if start then { d with tmb.startAt := some (d.cur Reg.TMB_START_TIME_START_TIME) } else d

/-- A write of TMB_SET replaces domain time, while STOPPED (R428). -/
def Dev.writeTmbSet (d : Dev) (v : W64) : Dev :=
  if d.tmb.run then d.refuse Reg.TMB_STATUS_REFUSED
  else (d.store Reg.TMB_SET v 0 0).timeTo ((v.toNat : Int) * nsUnit)

/-- A write of TMB_STEP (R438). -/
def Dev.writeTmbStep (d : Dev) (v : W64) : Dev :=
  let n := signed 64 v.toNat
  if d.timeSource.1 != 0 then d.refuse Reg.TMB_STATUS_REFUSED
  else if !d.tmb.run then d.timeTo (d.tmb.time + n * nsUnit)
  else { d with tmb.stepRemain := d.stepNow + n * 1099511627776, tmb.stepAt := d.tmb.time, tmb.stepLast := false }

/-- The ranges of TMB_PTP_CFG (R440, R450). -/
def ptpCfgOk (v : W64) : Bool :=
  let sy := signed 4 (Reg.TMB_PTP_CFG_LOG_SYNC.of v)
  let an := signed 4 (Reg.TMB_PTP_CFG_LOG_ANNOUNCE.of v)
  decide (-7 ≤ sy) && decide (sy ≤ 1) && decide (-3 ≤ an) && decide (an ≤ 4) &&
    decide (Reg.TMB_PTP_CFG_DOMAIN_NUMBER.of v ≤ 127) && decide (Reg.TMB_PTP_CFG_TRANSPORT.of v ≤ 2)

/-- A write of a TMB register with no rule of its own about launches or starts. -/
def Dev.writeTmbPlain (d : Dev) (r : RegDef) (v : W64) (i j : Nat) : Dev :=
  let ok : Bool :=
    if r.addr = Reg.TMB_INCR.addr then !d.tmb.run && d.tmb.startAt.isNone
    else if r.addr = Reg.TMB_START_TIME.addr then d.tmb.startAt.isNone
    else if r.addr = Reg.TMB_SERVO.addr then !d.tmb.locked
    else if r.addr = Reg.TMB_EPOCH.addr then
      decide (1 ≤ Reg.TMB_EPOCH_EPOCH_MS.of v) && decide (Reg.TMB_EPOCH_EPOCH_MS.of v ≤ 3600000)
    else if r.addr = Reg.TMB_PTP_CFG.addr then
      ptpCfgOk v && (d.cur Reg.TMB_PTP_CFG_EN == 0 || Reg.TMB_PTP_CFG_EN.of v == 0)
    else true
  d.storeIf Reg.TMB_STATUS_REFUSED ok r v i j

/-! ## The meanings -/

/-- TMB_SET_WRITE (R428). -/
def execTmbSetWrite (_src : Source) (v : W64) (s : State) : Host.Outcome State Fault Refusal :=
  s.mainOnly { s with dev := s.dev.writeTmbSet v }

/-- TMB_STEP_WRITE (R438). -/
def execTmbStepWrite (_src : Source) (v : W64) (s : State) : Host.Outcome State Fault Refusal :=
  s.mainOnly { s with dev := s.dev.writeTmbStep v }

/-- BEAT_START (R432): the write of TMB_CTL that arms the start. -/
def execBeatStart (_src : Source) (v : W64) (s : State) : Host.Outcome State Fault Refusal :=
  s.mainOnly { s with dev := if Reg.TMB_CTL_BEAT_START.of v == 1 then s.dev.writeTmbCtl v else s.dev }

/-- PPS_OUT and CLK10_OUT after a beat edge (R549): PPS_OUT rises at whole seconds of domain time and falls 100 ms later, CLK10_OUT is high in
even beats. Either is low while it is not enabled. -/
def Dev.clockOutputs (d : Dev) : Dev :=
  let k := d.beatWide % 20000000
  let pps := d.on Reg.MGT_GPIO_PPS_EN && (k == 0 || (d.tmb.pps && decide (k < 2000000)))
  { d with tmb.pps := pps, tmb.clk10 := d.on Reg.MGT_GPIO_CLK10_EN && d.beatMultiple 2 }

/-- Domain time has reached an armed start: the counter takes exactly TMB_START_TIME, in cycle 0 of the first beat, and the
generator is RUNNING (R432). -/
def Dev.startReached (d : Dev) : Dev :=
  match d.tmb.startAt with
  | some st =>
    if timeDiff d.ns st ≥ 0 then
      ({ d with tmb.startAt := none, tmb.run := true, tmb.cycle := 0,
                tmb.time := (d.nsWide - timeDiff d.ns st) * nsUnit }).clockOutputs.raise 192 0 0xC001 0
    else d
  | none => d

/-- BEAT_START_REACHED (R432). -/
def execBeatStartReached (s : State) : Host.Outcome State Fault Refusal := s.mainOnly { s with dev := s.dev.startReached }

/-- A PTP port takes a new portState (R442, R454); SLAVE and its UNCALIBRATED forerunner only on the root. -/
def Dev.ptpState (d : Dev) (e st : Nat) : Dev :=
  let p := at' d.tmb.ports e
  if e ≥ 2 || st == p.state || (!d.isRoot && (st == 8 || st == 9)) then d
  else
    let wasSource := d.timeSource == (1, e) && p.state == 9
    let d := ({ d with tmb.ports := upd d.tmb.ports e (fun p => { p with state := st }) }).raise 194 e 0xC007
      (e + 16 * (st % 16))
    if wasSource then d.sourceLost 1 else d

/-- PTP runs on port `e` (R450). -/
def Dev.ptpOn (d : Dev) (e : Nat) : Bool := d.on Reg.TMB_PTP_CFG_EN && bitOf (d.act Reg.TMB_PTP_CFG_PORTS) e

/-- The timestamp of an event message on port `e`: the instant at the ball with the board's path asymmetry added (R441). -/
def Dev.ptpStamp (d : Dev) (e : Nat) (ts : Int) : Int := ts + signed 64 (d.act Reg.TMB_PTP_ASYM_ASYM e)

/-- A received PTP message, timestamped `ts`: the protocol engine keeps the time of a Sync and takes the portState that its
best master algorithm gives, which IEEE 1588 defines and the command carries (R440). -/
def Dev.ptpReceive (d : Dev) (e : Nat) (m : PtpMsg) (ts : Int) (newState : Nat) : Dev :=
  if d.ptpOn e then
    let now := d.tmb.time
    let stamp := d.ptpStamp e ts
    let ports := upd d.tmb.ports e (fun p =>
      { p with lastSync := if m.kind == 0 then some now else p.lastSync, stamp := if m.kind < 8 then stamp else p.stamp })
    ({ d with tmb.ports := ports }).ptpState e newState
  else d

/-- PTP_MESSAGE_RECEIVE (R440, R441). -/
def execPtpMessageReceive (e : Nat) (m : PtpMsg) (ts : Int) (newState : Nat) (s : State) :
    Host.Outcome State Fault Refusal := s.mainOnly { s with dev := s.dev.ptpReceive e m ts newState }

/-- The time state that this device announces is LOCKED (R435, R442). -/
def Dev.timeLocked (d : Dev) : Bool := if d.isRoot then d.tmb.locked else d.lnk.timeState == 0

/-- A PTP message leaves port `e`, an event message (IEEE 1588's types 0 to 7) with its timestamp; an Announce (type 11) tells the clockClass
and the priorities configured (R441, R442). -/
def Dev.ptpSend (d : Dev) (e : Nat) (m : PtpMsg) (ts : Int) : Dev :=
  if !d.ptpOn e then d
  else if m.kind == 11 then
    (d.emit (.ptp e m ts)).emit (.announce e
      (if d.timeLocked then d.act Reg.TMB_PTP_CFG_CLASS_LOCKED else d.act Reg.TMB_PTP_CFG_CLASS_FREE) (d.act Reg.TMB_PTP_CFG_PRIORITY1)
      (d.act Reg.TMB_PTP_CFG_PRIORITY2) (d.act Reg.TMB_PTP_CFG_DOMAIN_NUMBER))
  else d.emit (.ptp e m (if m.kind < 8 then d.ptpStamp e ts else ts))

/-- PTP_MESSAGE_SEND (R440 to R442). -/
def execPtpMessageSend (e : Nat) (m : PtpMsg) (ts : Int) (s : State) : Host.Outcome State Fault Refusal :=
  s.mainOnly { s with dev := s.dev.ptpSend e m ts }

/-- ANNOUNCE_RECEIPT_TIMEOUT (R440): the portState that IEEE 1588 gives after a missing Announce. -/
def execAnnounceReceiptTimeout (e newState : Nat) (s : State) : Host.Outcome State Fault Refusal :=
  s.mainOnly { s with dev := if s.dev.ptpOn e then s.dev.ptpState e newState else s.dev }

/-- PTP_MEASUREMENT (R434): a completed Sync and delay exchange on the root's SLAVE port. -/
def execPtpMeasurement (e : Nat) (off : Int) (s : State) : Host.Outcome State Fault Refusal :=
  s.mainOnly { s with dev := if s.dev.isRoot && s.dev.slavePort == some e then s.dev.measure 1 e off else s.dev }

/-- Three Sync intervals, in units of 2^-32 ns (R437, R450). -/
def Dev.syncLimit (d : Dev) : Int :=
  let l := signed 4 (d.act Reg.TMB_PTP_CFG_LOG_SYNC)
  3 * 1000000000 * (if l ≥ 0 then nsUnit * 2 ^ l.toNat else nsUnit / 2 ^ (-l).toNat)

/-- SYNC_TIMEOUT (R437): the slave port in use has had no Sync for three Sync intervals. -/
def execSyncTimeout (e : Nat) (s : State) : Host.Outcome State Fault Refusal :=
  let d := s.dev
  let overdue := match (at' d.tmb.ports e).lastSync with
    | some t => decide (d.tmb.time - t ≥ d.syncLimit)
    | none => true
  s.mainOnly { s with dev := if d.timeSource == (1, e) && overdue then d.sourceLost 1 else d }

/-- FREQ_UPDATE (R429, R438): in cycle 0 at a beat group boundary, once. -/
def execFreqUpdate (s : State) : Host.Outcome State Fault Refusal :=
  let d := s.dev
  s.mainOnly { s with dev := if d.beatMultiple 64 && d.tmb.cycle == 0 && d.tmb.freqBeat != d.beatWide then
    ({ d with tmb.freqBeat := d.beatWide }).freqUpdate else d }

/-- An edge on a capture input, at `ns` and `frac` 2^-16 ns (R443, R451, R454). -/
def Dev.captureEdge (d : Dev) (i : Nat) (falling : Bool) (ns frac : Nat) : Dev :=
  let sel := bitsOf (d.act { Reg.TMB_CAP_CTL_EDGE0 with hi := 2 * i + 1, lo := 2 * i }) 1 0
  let c := at' d.tmb.caps i
  if i ≥ 8 || !bitOf sel (bit falling) then d
  else if c.beat == some d.beat then
    let d := { d with tmb.caps := upd d.tmb.caps i (fun c => { c with missed := c.missed + 1 }) }
    let det := i + (min (c.missed + 1) 65535) * 65536
    if c.missed == 0 then d.raise 195 i 0xC009 det [BitVec.ofNat 64 ns, pack [(frac, 48)]]
    else { d with ev.merge := d.ev.merge.map (fun x =>
      if x.isEvent && x.code == 0xC009 && x.unit == i && x.stamp.beat == d.beat then { x with detail := det } else x) }
  else
    let d := { d with tmb.caps := upd d.tmb.caps i (fun _ => { ns := ns % 2 ^ 48, frac, beat := some d.beat, missed := 0 }) }
    (d.raise 195 i 0xC008 (i + 8 * bit falling) [BitVec.ofNat 64 ns, pack [(frac, 48)]]).bump Reg.TMB_STAT_CAPTURES_COUNT

/-- TCAP_EDGE (R443). -/
def execTcapEdge (i : Nat) (falling : Bool) (ns : W64) (frac : W16) (s : State) : Host.Outcome State Fault Refusal :=
  s.mainOnly { s with dev := s.dev.captureEdge i falling ns.toNat frac.toNat }

end Sys2Proof.Machine
end

