-- ==== Sys2Proof/Machine/Lnk.lean ====
section
/-!
DEFINITION. LNK: serial lanes and their test, Beat Link ports, link control, frames, time transfer, Ethernet ports and the block's
register writes (R387 to R426).
-/
namespace Sys2Proof.Machine

/-! ## Lanes (R387 to R393, R422) -/

/-- Lane `l`. -/
def Dev.lane (d : Dev) (l : Nat) : LaneState := at' d.lnk.lanes l

/-- Change lane `l`. -/
def Dev.updLane (d : Dev) (l : Nat) (f : LaneState → LaneState) : Dev := { d with lnk.lanes := upd d.lnk.lanes l f }

/-- The two lanes of a Beat Link port (R387). -/
def blLanes (p : Nat) : List Nat := if p < 8 then [8 + 2 * p, 9 + 2 * p] else [12 + 2 * p, 13 + 2 * p]

/-- The Beat Link port of a lane, if it has one. -/
def lanePort (l : Nat) : Option Nat :=
  if 8 ≤ l && l ≤ 23 then some ((l - 8) / 2) else if 28 ≤ l && l ≤ 31 then some ((l - 12) / 2) else none

/-- A test runs on lane `l` (R392). -/
def Dev.testing (d : Dev) (l : Nat) : Bool :=
  d.cur Reg.LNK_LANE_TEST_PATTERN l != 0 || d.cur Reg.LNK_LANE_TEST_LOOP l != 0

/-- The lane an Ethernet port uses (R424). -/
def Dev.ethLane (d : Dev) (e : Nat) : Nat := 24 + 2 * e + d.cur Reg.LNK_ETH_CFG_LANE e

/-- The function of lane `l` is enabled (R387, R422). -/
def Dev.laneInUse (d : Dev) (l : Nat) : Bool :=
  match lanePort l with
  | some p => (d.bl p).st != .off
  | none =>
    if l < 8 then d.hst.linkUp
    else d.cur Reg.LNK_ETH_CFG_EN ((l - 24) / 2) == 1 && d.ethLane ((l - 24) / 2) == l

/-- A lane skew measurement runs on Beat Link port `p`: nothing may start there (R514, R516). -/
def Dev.skewRuns (d : Dev) (p : Nat) : Bool :=
  match d.cal.run with
  | some r => r.kind == 7 && r.unit == p && r.phase != .draining
  | none => false

/-- A test may start on lane `l` (R392). -/
def Dev.testAllowed (d : Dev) (src : Source) (l : Nat) : Bool :=
  match lanePort l with
  | some p => (d.bl p).st == .off && !d.skewRuns p
  | none => if l < 8 then src == .sideband && !d.hst.linkUp else d.cur Reg.LNK_ETH_CFG_EN ((l - 24) / 2) == 0

/-- What the checker counted while it was locked: `bits` bits with `errs` errors, each counter saturating at 48 bits (R390). -/
def Dev.checkerCount (d : Dev) (l bits errs : Nat) : Dev :=
  d.updLane l (fun x => if x.chk then { x with bits := min (x.bits + bits) (2 ^ 48 - 1), errors := min (x.errors + errs) (2 ^ 48 - 1) }
    else x)

/-- A write of LNK_LANE_l_TEST (R389 to R393, R422). -/
def Dev.writeLaneTest (d : Dev) (src : Source) (l : Nat) (v : W64) : Dev :=
  let on := Reg.LNK_LANE_TEST_PATTERN.of v != 0 || Reg.LNK_LANE_TEST_LOOP.of v != 0
  let was := d.testing l
  if Reg.LNK_LANE_TEST_PATTERN.of v > 4 || Reg.LNK_LANE_TEST_RATE.of v > 8 || (on && !was && !d.testAllowed src l) then
    d.refuse Reg.LNK_STATUS_REFUSED
  else
    let d := d.store Reg.LNK_LANE_TEST v l 0
    let d := if on && !was then
        d.updLane l (fun x => { x with chk := false, errors := 0, bits := 0, injected := 0 })
      else if !on then d.updLane l (fun x => { x with chk := false })
      else d
    if on && Reg.LNK_LANE_TEST_INJECT.of v == 1 then d.updLane l (fun x => { x with injected := x.injected + 1 }) else d

/-- A write of LNK_LANE_l_EQ (R422). -/
def Dev.eqOk (d : Dev) (l : Nat) (v : W64) : Bool :=
  Reg.LNK_LANE_EQ_TX_PRE.of v + Reg.LNK_LANE_EQ_TX_MAIN.of v + Reg.LNK_LANE_EQ_TX_POST.of v ≤ 63 &&
    Reg.LNK_LANE_EQ_TX_POST.of v ≤ 31 && !d.laneInUse l

/-! ## Time root (R411) -/

/-- The upstream port that R411 chooses, if any: fewest hops, then lowest port. -/
def Dev.upstreamOf (d : Dev) : Option (Nat × Heard) :=
  let limit : Int := 64 * d.act Reg.LNK_TIME_CTL_ROOT_TIMEOUT
  ((List.range 10).filterMap (fun p =>
    match (d.bl p).heard with
    | some h =>
      if d.blUp p && d.beatWide - h.beat ≤ limit && h.state != 2 && h.hops ≤ 15 && h.upDev != d.id then some (p, h) else none
    | none => none)).foldl (fun (a : Option (Nat × Heard)) x => match a with
      | some y => if x.2.hops < y.2.hops then some x else some y
      | none => some x) none

/-- Bring the upstream and the time state up to date (R411). -/
def Dev.settleRoot (d : Dev) : Dev :=
  if d.isRoot then { d with lnk.upstream := 15, lnk.lostSaid := false, lnk.timeState := 2, lnk.rootHops := 31, lnk.root := d.id }
  else match d.upstreamOf with
    | some (p, h) =>
      let said := d.lnk.lostSaid
      let d := { d with lnk.upstream := p, lnk.root := h.root, lnk.rootHops := h.hops + 1, lnk.timeState := h.state,
                        lnk.lostSaid := false }
      if said then d.raise 191 0 0xB00C (p + (h.hops + 1) * 1024) else d
    | none =>
      if d.lnk.upstream == 15 then d
      else
        let last := d.lnk.upstream
        (({ d with lnk.upstream := 15, lnk.timeState := 2, lnk.rootHops := 31, lnk.lostSaid := true }).raise
          191 0 0xB00B last).sourceLost 2

/-- STATE, ROOT_HOPS and ROOT as this device sends them (R409, R411). -/
def Dev.timeStateNow (d : Dev) : Nat × Nat × Nat :=
  if d.isRoot then (if d.tmb.locked then 0 else 1, 0, d.id) else (d.lnk.timeState, d.lnk.rootHops, d.lnk.root)

/-! ## Port states (R404 to R406) -/

/-- Port `p` goes to a state, from now. -/
def Dev.blState (d : Dev) (p : Nat) (st : BlState) : Dev :=
  d.updBl p (fun b => { b with st, since := d.pwr.clock, helloAt := none })

/-- Port `p` leaves UP (R406): its frames are discarded and counted, and its own BRICK frames in retry complete FEED_LOST. -/
def Dev.blDrop (d : Dev) (p : Nat) : Dev :=
  let v0 := at' (d.bl p).vl 0
  let v1 := at' (d.bl p).vl 1
  let own := v1.retry.filterMap d.fedOf
  let gone := v0.retry ++ v0.queue ++ v1.retry ++ v1.queue
  let d := d.bump Reg.LNK_STAT_DISCARDED_COUNT gone.length
  let d := gone.foldl (fun d f => d.framePagesFree f) d
  let d := { (d.lineClear p).updBl p (fun b => { b with vl := Vector.replicate 2 {}, heard := none, echo := none }) with
    lnk.arrived := d.lnk.arrived.map (fun (x : Option Nat × Frame) => if x.1 == some p then (none, x.2) else x)
    lnk.streams := d.lnk.streams.map (fun s =>
      { s with q := s.q.map (fun x => if x.port == some p then { x with port := some 15 } else x) }) }
  own.foldl (fun d x => d.feedLost x) d

/-- Port `p` leaves UP for another state, with BL_DOWN and its cause (R404, R426). -/
def Dev.blDown (d : Dev) (p cause : Nat) (nst : BlState) : Dev :=
  (((d.blDrop p).blState p nst).raise (176 + p) p 0xB002 (p + cause * 16)).settleRoot

/-- Port `p` comes UP: credits and SEQ start from 0 (R404). -/
def Dev.blComesUp (d : Dev) (p : Nat) : Dev :=
  (((d.lineClear p).updBl p (fun b => { b with vl := Vector.replicate 2 {}, echo := none, heard := none })).blState p .up).raise
    (176 + p) p 0xB001 (p + (d.bl p).peerDev * 65536)

/-- A write of LNK_BL_p_CFG (R392, R421). -/
def Dev.writeBlCfg (d : Dev) (p : Nat) (v : W64) : Dev :=
  let en := Reg.LNK_BL_CFG_EN.of v == 1
  let off := (d.bl p).st == .off
  let bad := Reg.LNK_BL_CFG_RETRY_MAX.of v == 0 || (!off && d.changes Reg.LNK_BL_CFG [Reg.LNK_BL_CFG_EN] v p) ||
    (en && off && ((p ≥ 8 && d.cur Reg.LNK_DEV_EXT_PORTS == 0) || (blLanes p).any d.testing || d.skewRuns p))
  if bad then d.refuse Reg.LNK_STATUS_REFUSED
  else
    d.store Reg.LNK_BL_CFG v p 0

/-- EN of port `p` as a beat or service edge samples it: the port goes from OFF to TRAINING, or OFF (R20, R404). -/
def Dev.blEdge (d : Dev) (p : Nat) : Dev :=
  let on := d.on Reg.LNK_BL_CFG_EN p
  if on && (d.bl p).st == .off then (d.blState p .training).lineStart p
  else if !on && (d.bl p).st != .off then
    let up := (d.bl p).st == .up
    let d := (blLanes p).foldl (fun d l => d.updLane l (fun x => { x with cdr := false, adapted := false })) d
    if up then d.blDown p 4 .off else d.blState p .off
  else d

/-- BL_LANE_LOCK: CDR and block lock on both lanes, and an ADAPT port has converged (R388, R404). -/
def Dev.blLaneLock (d : Dev) (p : Nat) : Dev :=
  if (d.bl p).st == .training && p < 10 then
    let adapt := d.act Reg.LNK_BL_CFG_EQ_CLASS p == 1
    ((blLanes p).foldl (fun d l => d.updLane l (fun x => { x with cdr := true, adapted := adapt })) d).blState p .aligning
  else d

/-- One millisecond of the standby clock, in 2^-32 ns. -/
def msUnit : Int := 1000000 * nsUnit

/-- Port `p` has been in state `st` for at least `ms` milliseconds. -/
def Dev.blWaited (d : Dev) (p : Nat) (st : BlState) (ms : Int) : Bool :=
  (d.bl p).st == st && d.pwr.clock - (d.bl p).since ≥ ms * msUnit

/-- The HELLO frame that carries two words, on the line of port `p` (R398, R399). -/
def Dev.putHello (d : Dev) (p : Nat) (ws : List W64) : Dev :=
  let f : Frame := { ftype := 5, hops := 1, dst := Config.helloDst.toNat, src := d.id, seq := Config.helloSeq.toNat, words := ws }
  (d.updLine p (fun x => { x with vl0 := x.vl0 ++ [frameBlocks f] })).emit (.blWord p ws)

/-- BL_HELLO_SEND: every 1 ms in HELLO, every 100 ms in ISOLATED (R399, R404). -/
def Dev.blHelloSend (d : Dev) (p : Nat) : Dev :=
  let b := d.bl p
  let period : Option Int := match b.st with | .hello => some 1 | .isolated => some 100 | _ => none
  match period with
  | none => d
  | some t =>
    if (match b.helloAt with | some a => decide (d.pwr.clock - a ≥ t * msUnit) | none => true) then
      (d.updBl p (fun b => { b with helloAt := some d.pwr.clock })).putHello p
        [pack [(1, 56), (d.act Reg.LNK_DEV_DOMAIN, 40), (p, 32), (d.id, 0)], 0]
    else d

/-- BL_HELLO_RECEIVE (R404). -/
def Dev.blHello (d : Dev) (p : Nat) (w0 : W64) : Dev :=
  let b := d.bl p
  let dom := wbits w0 55 40
  let dev := wbits w0 9 0
  let foreign := dom != d.act Reg.LNK_DEV_DOMAIN
  let dup := dev == d.id
  if wbits w0 63 56 != 1 || p ≥ 10 then d
  else
    let seen := fun (d : Dev) => d.updBl p (fun b => { b with peerDev := dev, peerPort := wbits w0 35 32, peerDomain := dom })
    match b.st with
    | .hello =>
      let d := seen d
      if foreign then (d.blState p .isolated).raise (176 + p) p 0xB005 (p + dom * 65536)
      else if dup then (d.blState p .isolated).raise (176 + p) p 0xB004 p
      else d.blComesUp p
    | .isolated => if foreign || dup then seen d else (seen d).blComesUp p
    | .up => if dom != b.peerDomain || dev != b.peerDev then ((d.blDrop p).blState p .hello).settleRoot else d
    | .off | .training | .aligning => d

/-- BL_LINK_LOSS: block lock lost, or 64 block errors within 1 ms (R404, R405). -/
def Dev.blLinkLoss (d : Dev) (p errs : Nat) : Dev :=
  let d := if p < 10 then d.bump Reg.LNK_BL_COUNTS_BLOCK_ERRORS errs p else d
  if !d.blUp p then d
  else if errs == 0 then
    let d := (blLanes p).foldl (fun d l => d.updLane l (fun x => { x with cdr := false, adapted := false })) d
    d.blDown p 1 .training
  else if errs ≥ 64 then d.blDown p 2 .training
  else d

/-! ## Link control and frames (R402, R407) -/

/-- Frames of a retry buffer up to the one acknowledged, and those after it. -/
def splitAck (ack : Nat) (fs : List Frame) : List Frame × List Frame :=
  match fs.findIdx? (fun f => f.seq == ack) with
  | some i => (fs.take (i + 1), fs.drop (i + 1))
  | none => ([], fs)

/-- One virtual lane's part of a LINKCTL block: acknowledgement, credit and NAK; whether RETRY_MAX NAKs are reached (R402). -/
def Dev.linkctlVl (d : Dev) (p vl ack credit : Nat) (nak : Bool) : Dev × Bool :=
  let v := at' (d.bl p).vl vl
  let (acked, rest) := splitAck ack v.retry
  let naks := if nak then (if v.naks != 0 && v.nakAck == ack then v.naks + 1 else 1) else 0
  let d := d.updVl p vl (fun v => { v with retry := rest, credit, naks, nakAck := ack })
  let d := acked.foldl (fun d f => d.framePagesFree f) d
  if nak && naks ≥ d.act Reg.LNK_BL_CFG_RETRY_MAX p then (d, true)
  else if nak then
    ((rest.foldl (fun d f => d.putFrame p f) d).bump Reg.LNK_BL_COUNTS_RETRIES rest.length p, false)
  else (d, false)

/-- BL_LINKCTL: a LINKCTL block with a good CRC-8 (R395, R402). -/
def Dev.blLinkctl (d : Dev) (p : Nat) (w : W64) : Dev :=
  if !d.blUp p || wbits w 63 56 != 0x2D || crc8 w.toNat != wbits w 7 0 then d
  else
    let (d, a) := d.linkctlVl p 0 (wbits w 55 44) (wbits w 31 24) (wbits w 15 15 == 1)
    let (d, b) := d.linkctlVl p 1 (wbits w 43 32) (wbits w 23 16) (wbits w 14 14 == 1)
    if a || b then (d.raise (176 + p) p 0xB003 p).blDown p 3 .training
    else
      let d := d.pumpPort p
      d.pumpExports (d.lnk.exports.length + 1)

/-- A frame of either virtual lane arrives; `good` is whether it is whole. TIME and HELLO come by commands of their own (R402, R407). -/
def Dev.blFrame (d : Dev) (p : Nat) (f : Frame) (good : Bool) : Dev :=
  let vl := frameVl f
  if !d.blUp p || f.ftype == 4 || (f.ftype == 5 && wbits (f.words.getD 0 0) 63 56 == 1) then d
  else if !good || f.seq != (at' (d.bl p).vl vl).expect then d.sendLinkctl p (2 ^ vl)
  else
    let d := (d.updVl p vl (fun v => { v with expect := (v.expect + 1) % 4096 })).bump Reg.LNK_STAT_FRAMES_RX_COUNT
    let d := (d.routeFrame (some p) f).1
    let d := if f.dst == d.id then d else d.updVl p vl (fun v => { v with freed := (v.freed + 1) % 256 })
    d.sendLinkctl p 0

/-- BL_FRAME_RECEIVE: block pairs arrive on port `p`, and with them the frames that they end (R394 to R398, R402, R405, R407). -/
def Dev.blPairs (d : Dev) (p : Nat) (pairs : List (LaneBlock × LaneBlock)) (drift : Int) : Dev :=
  if !d.blUp p then d
  else
    let r := d.hearPairs p pairs drift
    let d := d.updLine p (fun _ => r.1)
    let d := if r.2.2 == 0 then d else d.bump Reg.LNK_BL_COUNTS_BLOCK_ERRORS r.2.2 p
    r.2.1.foldl (fun d f => d.blFrame p f.1 f.2) d

/-! ## Time transfer (R409, R410) -/

/-- TIME_FRAME_SEND: at the first boundary of every TIME_PERIOD beat groups; `inner` is the send time inside the port, in 2^-16 ns. -/
def Dev.timeSend (d : Dev) (p : Nat) (inner : Int) : Dev :=
  if !d.blUp p || !d.beatMultiple (64 * max 1 (d.act Reg.LNK_TIME_CTL_TIME_PERIOD)) then d
  else
    let b := d.bl p
    let tx := inner + signed 32 (d.act Reg.LNK_BL_ASYM_TX_LAT p)
    let e := b.echo.getD { tseq := 0, tx := 0, rx := 0 }
    let ns := fun (t : Int) => word (t / 65536)
    let fr := fun (t : Int) => unsigned 16 t
    let (st, hops, root) := d.timeStateNow
    let upDev := if d.isRoot || d.lnk.upstream ≥ 10 then d.id else (d.bl d.lnk.upstream).peerDev
    let w4 := pack [(b.tseq, 56), (e.tseq, 48), (upDev, 38), (st, 16), (bit b.echo.isSome, 15), (hops, 10), (root, 0)]
    let f : Frame := { ftype := 4, hops := 1, dst := b.peerDev, src := d.id, seq := 0,
                       words := [ns tx, ns e.tx, ns e.rx, pack [(fr tx, 48), (fr e.tx, 32), (fr e.rx, 16)], w4] }
    ((d.updBl p (fun b => { b with tseq := (b.tseq + 1) % 256 })).putFrame p f).bump Reg.LNK_STAT_FRAMES_TX_COUNT

/-- The signed difference of two times in 2^-16 ns, ns by R15. -/
def timeDiff16 (a b : Int) : Int :=
  let whole : Int := 2 ^ 80
  let r := (a - b) % whole
  if r < whole / 2 then r else r - whole

/-- TIME_FRAME_RECEIVE (R410, R411). -/
def Dev.timeReceive (d : Dev) (p : Nat) (ws : List W64) (inner : Int) (good : Bool) : Dev :=
  let w := fun i => ws.getD i 0
  let st := wbits (w 4) 17 16
  let root := wbits (w 4) 9 0
  if !d.blUp p || !good then d
  else if d.isRoot && st != 2 && root != d.id then d.raise 191 0 0xB00D root
  else
    let t := fun (i hi : Nat) => (((w i).toNat * 65536 + wbits (w 3) hi (hi - 15) : Nat) : Int)
    let t4 := inner - signed 32 (d.act Reg.LNK_BL_ASYM_RX_LAT p)
    let t3 := t 0 63
    let t1 := t 1 47
    let t2 := t 2 31
    let off := (timeDiff16 t2 t1 - timeDiff16 t4 t3) / 2
    let del := (timeDiff16 t4 t3 + timeDiff16 t2 t1) / 2
    let echoed := wbits (w 4) 15 15 == 1
    let h : Heard := { root, hops := wbits (w 4) 14 10, state := st, upDev := wbits (w 4) 47 38, beat := d.beatWide }
    let d := d.updBl p (fun b => { b with
      echo := some { tseq := wbits (w 4) 63 56, tx := t3, rx := t4 }, heard := some h,
      offset := if echoed then off else b.offset, delay := if echoed then del else b.delay })
    let d := d.settleRoot
    if echoed && !d.isRoot && d.lnk.upstream == p then d.measure 2 p off else d

/-! ## Ethernet ports (R424) -/

/-- The link of Ethernet port `e` comes or goes (R424, R426). -/
def Dev.ethLink (d : Dev) (e : Nat) (up : Bool) : Dev :=
  if e ≥ 2 || at' d.lnk.ethUp e == up || (up && !d.on Reg.LNK_ETH_CFG_EN e) then d
  else
    let d := d.updLane (d.ethLane e) (fun x => { x with cdr := up, adapted := up })
    ({ d with lnk.ethUp := upd d.lnk.ethUp e (fun _ => up) }).raise (186 + e) e (if up then 0xB00F else 0xB010) e

/-- A write of LNK_ETH_e_CFG (R392, R424). -/
def Dev.writeEthCfg (d : Dev) (e : Nat) (v : W64) : Dev :=
  let on := d.cur Reg.LNK_ETH_CFG_EN e == 1
  let en := Reg.LNK_ETH_CFG_EN.of v == 1
  let fec := Reg.LNK_ETH_CFG_FEC.of v
  let lane := 24 + 2 * e + Reg.LNK_ETH_CFG_LANE.of v
  if (on && d.changes Reg.LNK_ETH_CFG [Reg.LNK_ETH_CFG_EN] v e) || fec == 3 || (fec == 2 && Reg.LNK_ETH_CFG_SPEED.of v == 1) ||
      (en && !on && d.testing lane) then d.refuse Reg.LNK_STATUS_REFUSED
  else
    d.store Reg.LNK_ETH_CFG v e 0

/-- EN of Ethernet port `e` as a beat or service edge samples it: a link goes with it (R20, R424). -/
def Dev.ethEdge (d : Dev) (e : Nat) : Dev := if d.on Reg.LNK_ETH_CFG_EN e then d else d.ethLink e false

/-! ## Register writes (R418 to R424) -/

/-- The conditions on a plain write of an LNK register (R418, R420, R422, R423, R430). -/
def Dev.lnkOk (d : Dev) (r : RegDef) (v : W64) (i : Nat) : Bool :=
  if r.addr = Reg.LNK_DEV.addr then (List.range 10).all (fun p => (d.bl p).st == .off)
  else if r.addr = Reg.LNK_TIME_CTL.addr then
    let t := Reg.LNK_TIME_CTL_TIME_PERIOD.of v
    t != 0 && 2 * t ≤ Reg.LNK_TIME_CTL_ROOT_TIMEOUT.of v
  else if r.addr = Reg.LNK_LANE_EQ.addr then d.eqOk i v
  else if r.addr = Reg.LNK_FEED.addr then
    !d.ringEnabled i && !(Reg.LNK_FEED_EN.of v == 1 && (Reg.LNK_FEED_DEVICE.of v == d.id || !d.tmb.run))
  else true

/-- A write of an LNK register (R21, R418 to R424). -/
def Dev.writeLnk (d : Dev) (src : Source) (r : RegDef) (v : W64) (i j : Nat) : Dev :=
  if r.addr = Reg.LNK_BL_CFG.addr then d.writeBlCfg i v
  else if r.addr = Reg.LNK_LANE_TEST.addr then d.writeLaneTest src i v
  else if r.addr = Reg.LNK_ETH_CFG.addr then d.writeEthCfg i v
  else
    d.storeIf Reg.LNK_STATUS_REFUSED (d.lnkOk r v i) r v i j

/-- What LNK takes up at a beat or service edge (R20, R404, R411, R424). -/
def Dev.lnkEdge (was : RegFile) (d : Dev) : Dev :=
  let d := if d.turnsOn was Reg.LNK_DEV_ROOT || d.turnsOff was Reg.LNK_DEV_ROOT then d.settleRoot else d
  forRange 2 (forRange 10 d Dev.blEdge) Dev.ethEdge

/-! ## Meanings -/

/-- LANE_TEST_START (R392): a write that makes PATTERN or LOOP non-zero. -/
def execLaneTestStart (src : Source) (l : Nat) (v : W64) (s : State) : Host.Outcome State Fault Refusal :=
  let on := Reg.LNK_LANE_TEST_PATTERN.of v != 0 || Reg.LNK_LANE_TEST_LOOP.of v != 0
  s.mainOnly { s with dev := if on && !s.dev.testing l && l < 32 then s.dev.writeLaneTest src l v else s.dev }

/-- LANE_TEST_STOP (R392): a write that makes both 0; `bits` and `errs` are what the checker counted since the last report. -/
def execLaneTestStop (src : Source) (l : Nat) (v : W64) (bits errs : Nat) (s : State) : Host.Outcome State Fault Refusal :=
  let off := Reg.LNK_LANE_TEST_PATTERN.of v == 0 && Reg.LNK_LANE_TEST_LOOP.of v == 0
  s.mainOnly { s with dev :=
            if off && s.dev.testing l && l < 32 then (s.dev.checkerCount l bits errs).writeLaneTest src l v else s.dev }

/-- LANE_INJECT (R391): a write of 1 to INJECT. -/
def execLaneInject (src : Source) (l : Nat) (v : W64) (s : State) : Host.Outcome State Fault Refusal :=
  s.mainOnly { s with dev := if Reg.LNK_LANE_TEST_INJECT.of v == 1 && l < 32 then s.dev.writeLaneTest src l v else s.dev }

/-- CHECKER_LOCK (R390): 128 consecutive matching bits. -/
def execCheckerLock (l : Nat) (s : State) : Host.Outcome State Fault Refusal :=
  s.mainOnly { s with dev := if s.dev.testing l then s.dev.updLane l (fun x => { x with chk := true, cdr := true }) else s.dev }

/-- CHECKER_LOCK_LOSS (R390): more than 1,024 errors in 65,536 bits. -/
def execCheckerLockLoss (l bits errs : Nat) (s : State) : Host.Outcome State Fault Refusal :=
  s.mainOnly { s with dev :=
            if s.dev.testing l && errs > 1024 then (s.dev.checkerCount l bits errs).updLane l (fun x => { x with chk := false }) else s.dev }

/-- BL_PORT_ENABLE (R404): a write of LNK_BL_p_CFG with EN 1. -/
def execBlPortEnable (_src : Source) (p : Nat) (v : W64) (s : State) : Host.Outcome State Fault Refusal :=
  s.mainOnly { s with dev := if p < 10 && Reg.LNK_BL_CFG_EN.of v == 1 then s.dev.writeBlCfg p v else s.dev }

/-- BL_PORT_DISABLE (R404): a write of LNK_BL_p_CFG with EN 0. -/
def execBlPortDisable (_src : Source) (p : Nat) (v : W64) (s : State) : Host.Outcome State Fault Refusal :=
  s.mainOnly { s with dev := if p < 10 && Reg.LNK_BL_CFG_EN.of v == 0 then s.dev.writeBlCfg p v else s.dev }

/-- BL_LANE_LOCK (R404). -/
def execBlLaneLock (p : Nat) (s : State) : Host.Outcome State Fault Refusal := s.mainOnly { s with dev := s.dev.blLaneLock p }

/-- BL_ALIGN_FOUND (R397, R404). -/
def execBlAlignFound (p : Nat) (swapped : Bool) (s : State) : Host.Outcome State Fault Refusal :=
  s.mainOnly { s with dev :=
            if (s.dev.bl p).st == .aligning then (s.dev.updBl p (fun b => { b with swapped })).blState p .hello else s.dev }

/-- BL_ALIGN_TIMEOUT (R404): no alignment within 10 ms. -/
def execBlAlignTimeout (p : Nat) (s : State) : Host.Outcome State Fault Refusal :=
  s.mainOnly { s with dev := if s.dev.blWaited p .aligning 10 then s.dev.blState p .training else s.dev }

/-- BL_HELLO_SEND (R404). -/
def execBlHelloSend (p : Nat) (s : State) : Host.Outcome State Fault Refusal := s.mainOnly { s with dev := s.dev.blHelloSend p }

/-- BL_HELLO_RECEIVE (R404). -/
def execBlHelloReceive (p : Nat) (w0 _w1 : W64) (s : State) : Host.Outcome State Fault Refusal :=
  s.mainOnly { s with dev := s.dev.blHello p w0 }

/-- BL_HELLO_TIMEOUT (R404): no peer HELLO within 100 ms. -/
def execBlHelloTimeout (p : Nat) (s : State) : Host.Outcome State Fault Refusal :=
  s.mainOnly { s with dev := if s.dev.blWaited p .hello 100 then s.dev.blState p .training else s.dev }

/-- BL_LINK_LOSS (R406). -/
def execBlLinkLoss (p blockErrors : Nat) (s : State) : Host.Outcome State Fault Refusal :=
  s.mainOnly { s with dev := s.dev.blLinkLoss p blockErrors }

/-- BL_LINKCTL (R402). -/
def execBlLinkctl (p : Nat) (w : W64) (s : State) : Host.Outcome State Fault Refusal :=
  s.mainOnly { s with dev := s.dev.blLinkctl p w }

/-- BL_FRAME_RECEIVE (R407). -/
def execBlFrameReceive (p : Nat) (pairs : List (LaneBlock × LaneBlock)) (drift : Int) (s : State) : Host.Outcome State Fault Refusal :=
  s.mainOnly { s with dev := s.dev.blPairs p pairs drift }

/-- TIME_FRAME_SEND (R409). -/
def execTimeFrameSend (p : Nat) (inner : Int) (s : State) : Host.Outcome State Fault Refusal :=
  s.mainOnly { s with dev := s.dev.timeSend p inner }

/-- TIME_FRAME_RECEIVE (R410). -/
def execTimeFrameReceive (p : Nat) (words : List W64) (inner : Int) (good : Bool) (s : State) :
    Host.Outcome State Fault Refusal := s.mainOnly { s with dev := s.dev.timeReceive p words inner good }

/-- ROOT_TIMEOUT (R411): the upstream is chosen again by what is still fresh. -/
def execRootTimeout (s : State) : Host.Outcome State Fault Refusal := s.mainOnly { s with dev := s.dev.settleRoot }

/-- ETH_LINK_RISE (R424). -/
def execEthLinkRise (e : Nat) (s : State) : Host.Outcome State Fault Refusal := s.mainOnly { s with dev := s.dev.ethLink e true }

/-- ETH_LINK_FALL (R424). -/
def execEthLinkFall (e : Nat) (s : State) : Host.Outcome State Fault Refusal := s.mainOnly { s with dev := s.dev.ethLink e false }

end Sys2Proof.Machine
end

