-- ==== Sys2Proof/Machine/Mpm.lean ====
section
/-!
DEFINITION. MPM: photodiode samples, references, the correction loop, the protective tests and the MELT_TRACE records
(chapter 08), and the DAC update of LSR that the loop feeds (R189, R190, R237).
-/
namespace Sys2Proof.Machine

/-- The melt-pool monitor of channel `n`. -/
def Dev.mpmCh (d : Dev) (n : Nat) : MpmChan := at' d.mpm.ch n

/-- Change the melt-pool monitor of channel `n`. -/
def Dev.updMpm (d : Dev) (n : Nat) (f : MpmChan → MpmChan) : Dev := { d with mpm.ch := upd d.mpm.ch n f }

/-! ## Trim and reference (R228, R232 to R234) -/

/-- A raw code as trimmed MP units (R228). -/
def trimRaw (raw : Nat) (offset : Int) (gain : Nat) : Nat :=
  (clampI 0 65535 (divRound ((4 * (raw : Int) - offset) * gain) 32768)).toNat

/-- A raw code is over-range (R228). -/
def overRange (raw : Nat) : Bool := raw == 0 || raw == 16383

/-- Node (i, k) of channel `n`'s field map, in effect (R233, R251). -/
def Dev.mapNode (d : Dev) (n i k : Nat) : Nat :=
  let e := 17 * k + i
  if e / 4 ≥ 72 then d.eff Reg.MPM_MAP72_GAIN0 n
  else match e % 4 with
    | 0 => d.eff Reg.MPM_MAP_GAIN0 n (e / 4)
    | 1 => d.eff Reg.MPM_MAP_GAIN1 n (e / 4)
    | 2 => d.eff Reg.MPM_MAP_GAIN2 n (e / 4)
    | _ => d.eff Reg.MPM_MAP_GAIN3 n (e / 4)

/-- Where a coordinate lies on the map: cell, and offset in it over the field's width (R233). -/
def mapPlace (x lo hi : Int) : Nat × Nat × Nat :=
  let w := (hi - lo).toNat
  if w = 0 then (0, 0, 1)
  else
    let u := (clampI 0 w (x - lo)).toNat * 16
    let i := min 15 (u / w)
    (i, u - i * w, w)

/-- g at a point: the bilinear interpolation as a fraction (R233). -/
def Dev.mapGain (d : Dev) (n : Nat) (x y : Int) : Nat × Nat :=
  let (x0, x1, y0, y1) := d.field n
  let (i, tx, wx) := mapPlace x x0 x1
  let (k, ty, wy) := mapPlace y y0 y1
  let g := fun (a b : Nat) => d.mapNode n (i + a) (k + b)
  ((wx - tx) * (wy - ty) * g 0 0 + tx * (wy - ty) * g 1 0 + (wx - tx) * ty * g 0 1 + tx * ty * g 1 1, wx * wy)

/-- The reference for a measurement, from the sample of the DAC beat it is attributed to (R232). -/
def Dev.mpmReference (d : Dev) (n : Nat) (ref : LoopRef) (a : Sample) : Nat :=
  let (g, w) := d.mapGain n a.x a.y
  let num := ref.level * g * (if ref.pscale then a.s else 1)
  let den := 32768 * w * (if ref.pscale then a.nom else 1)
  max 1 (if den = 0 then 0 else (divRound (num : Int) den).toNat)

/-- The normalised error (R234). -/
def mpmError (ref : LoopRef) (m r : Nat) : Int :=
  let e := clampI (-32768) 32767 (divRound (((r : Int) - m) * 32768) (max 1 r))
  if e.natAbs ≤ ref.deadband then 0 else e

/-- The reference entry and its bank, as in effect (R232, R250, R252). -/
def Dev.readRef (d : Dev) (i : Nat) : LoopRef :=
  let k := d.eff Reg.MPM_REF0_BANK i
  let c := fun (f : Field) => d.effS f k
  { valid := d.eff Reg.MPM_REF0_VALID i == 1, level := d.eff Reg.MPM_REF0_LEVEL i, pscale := d.eff Reg.MPM_REF0_PSCALE i == 1,
    restart := d.eff Reg.MPM_REF0_RESTART i == 1, deadband := d.eff Reg.MPM_REF0_DEADBAND i, slew := d.eff Reg.MPM_REF0_SLEW i,
    lo := d.effS Reg.MPM_REF1_CLAMP_LO i, hi := d.effS Reg.MPM_REF1_CLAMP_HI i,
    b0 := c Reg.MPM_COEF_B0_COEF, b1 := c Reg.MPM_COEF_B1_COEF, b2 := c Reg.MPM_COEF_B2_COEF,
    a1 := c Reg.MPM_COEF_A1_COEF, a2 := c Reg.MPM_COEF_A2_COEF }

/-! ## The compensator (R235) -/

/-- One step of the compensator with error `e`. -/
def MpmChan.step (c : MpmChan) (ref : LoopRef) (e : Int) : MpmChan :=
  let u := divRound (ref.b0 * e + ref.b1 * c.e1 + ref.b2 * c.e2 - ref.a1 * c.y1 - ref.a2 * c.y2) (2 ^ 28)
  let y := clampI ref.lo ref.hi u
  let y := if ref.slew != 0 then clampI (c.y1 - ref.slew) (c.y1 + ref.slew) y else y
  { c with e2 := c.e1, e1 := e, y2 := c.y1, y1 := y }

/-- The compensator's state zeroed (R235). -/
def MpmChan.zero (c : MpmChan) : MpmChan := { c with e1 := 0, e2 := 0, y1 := 0, y2 := 0 }

/-! ## Records (R244, R245) -/

/-- Write the record gathered for channel `n`; its stamp is cycle 0 of the beat after the sampling instant of the last measurement it covers, which is
the second beat after the last DAC beat (R231, R244). -/
def Dev.closeTrace (d : Dev) (n : Nat) : Dev :=
  match (d.mpmCh n).trace with
  | none => d
  | some t =>
    let mean := fun (a b : Nat) => if b = 0 then 0 else a / b
    let s16 := fun (x : Int) => unsigned 16 x
    let sat16 := fun (x : Nat) => min x 65535
    let meanC : Int := if t.beats = 0 then 0 else t.sumC / (t.beats : Int)
    let ws := [pack [(t.brick, 16), (sat16 t.valid, 0)],
      pack [(mean t.sumM t.valid, 48), (if t.valid = 0 then 0 else t.minM, 32), (t.maxM, 16), (mean t.sumR t.valid, 0)],
      pack [(s16 meanC, 48), (s16 t.minC, 32), (s16 t.maxC, 16), (sat16 t.clamped, 0)],
      pack [(t.maxBr, 48), (mean t.sumBr t.nBr, 32), (min t.beats 0xFFFFFFFF, 0)]]
    let d := (d.recordAt (d.beatStamp (96 + n) (t.lastBeat + 2)) (96 + n) 0x6010 (t.firstVec % 4096 * 2 ^ 20 + t.lastVec % 4096 * 256 + n) ws).bump Reg.MPM_STAT_RECORDS_COUNT
    d.updMpm n (fun c => { c with trace := none })

/-- Add one emitting DAC beat with its measurement to the record (R244, R245). -/
def Trace.add (t : Trace) (a : Applied) (m : Meas) : Trace :=
  let t := { t with lastVec := a.sample.vec - 1, lastBeat := a.sample.beat, lastPv := a.sample.pv, beats := t.beats + 1, sumC := t.sumC + a.c, minC := min t.minC a.c,
                    maxC := max t.maxC a.c, clamped := t.clamped + bit a.clamp,
                    maxBr := m.br.foldl max t.maxBr, sumBr := m.br.foldl (· + ·) t.sumBr, nBr := t.nBr + m.br.length }
  if m.valid then { t with valid := t.valid + 1, sumM := t.sumM + m.m, minM := min t.minM m.m, maxM := max t.maxM m.m,
                           sumR := t.sumR + m.r }
  else t

/-- Channel `n`'s record covers an emitting DAC beat, whose measurement is complete (R244). -/
def Dev.coverBeat (d : Dev) (n : Nat) (a : Applied) (m : Meas) : Dev :=
  let s := a.sample
  if !d.on Reg.MPM_CHAN_CTL_REC_EN n || s.vec = 0 then d
  else
    let d := match (d.mpmCh n).trace with
      | some t => if t.key == s.key then d else d.closeTrace n
      | none => d
    let t := ((d.mpmCh n).trace.getD { brick := s.brick, key := s.key, firstVec := s.vec - 1, lastVec := s.vec - 1 }).add a m
    d.updMpm n (fun c => { c with trace := some t })

/-- Bring channel `n`'s record to the DAC beat before last, whose measurement is now complete; `next` is the DAC beat after it. The record closes
where the last vector it covers ends with enough beats covered, where the channel's part of the brick ends, and at a drop (R244); a holding loop
ends no vector (R147). -/
def Dev.stepTrace (d : Dev) (n : Nat) (a : Applied) (m : Meas) (next : Sample) : Dev :=
  let d := d.coverBeat n a m
  match (d.mpmCh n).trace with
  | none => d
  | some t =>
    let sameVec := next.kind == 3 || next.pv == t.lastPv
    let partEnds := next.brick != t.brick || next.kind == 0 || next.kind == 4
    if partEnds || (!sameVec && t.beats ≥ d.act Reg.MPM_CHAN_LIMIT_REC_MIN_BEATS n) then d.closeTrace n else d

/-! ## The sample of a beat (R229, R231, R239 to R242) -/

/-- Payload words of an MPM event (R254). -/
def Dev.mpmEvent (d : Dev) (n code detail : Nat) : Dev := d.raise (96 + n) n code detail (d.chanWords n)

/-- The two DAC beats lie wholly in one vector of one brick, and neither is a blend beat (R231). -/
def sameWhole (a b : Sample) : Bool :=
  a.vec != 0 && b.vec != 0 && a.pv == b.pv && a.on == 0 && a.off == 80 && b.on == 0 && b.off == 80 &&
    a.blend == 0 && b.blend == 0

/-- The BR value of a sample is over (R239). -/
def Dev.brOver (d : Dev) (n raw v : Nat) : Bool := v > d.act Reg.MPM_CHAN_LIMIT_BR_LIMIT n || overRange raw

/-- A measurement that is complete: a valid one below the limit of MP_LOW counts, one at or above it restarts the count (R240). -/
def Dev.countLow (d : Dev) (n : Nat) : Dev :=
  match (d.mpmCh n).meas with
  | x :: _ =>
    let low := x.m * 256 < x.r * d.act Reg.MPM_CHAN_CTL_LOW_RATIO n
    if x.valid then d.updMpm n (fun c => { c with lowRun := if low then c.lowRun + 1 else 0 }) else d
  | [] => d

/-- The samples of this half of the present beat have been taken (R227). -/
def MpmChan.taken (c : MpmChan) (b : Int) (second : Bool) : Bool :=
  match c.meas with
  | x :: _ => if second then x.beat != b || x.br.length ≥ 2 else x.beat == b
  | [] => second

/-- MPM_SAMPLE (R229): the samples at cycle 0, or at cycle 40, of the present beat. With the second, the measurement is complete (R231). -/
def Dev.mpmSample (d : Dev) (n : Nat) (second : Bool) (mp br : Nat) (late : Bool) : Dev :=
  let c := d.mpmCh n
  if d.tmb.cycle != (if second then 40 else 0) || c.taken d.beatWide second then d else
  let ch := d.chan n
  let b := d.beatWide
  let m := trimRaw mp (d.effS Reg.MPM_CHAN_TRIM_MP_OFFSET n) (d.eff Reg.MPM_CHAN_TRIM_MP_GAIN n)
  let v := trimRaw br (d.effS Reg.MPM_CHAN_TRIM_BR_OFFSET n) (d.eff Reg.MPM_CHAN_TRIM_BR_GAIN n)
  let d := d.bump Reg.MPM_STAT_OVERRANGE_COUNT (bit (overRange mp) + bit (overRange br))
  let emitting := ch.now.beat == b && ch.now.vec != 0
  let sayRange := overRange mp && emitting && !c.rangeSaid
  let d := if sayRange then d.mpmEvent n 0x6005 n else d
  let d := d.updMpm n (fun c => { c with
    rangeSaid := c.rangeSaid || sayRange, lastBr := v,
    brRun := if c.out then c.brRun else if d.brOver n br v then c.brRun + 1 else 0 })
  if second then
    (d.updMpm n (fun c => { c with meas := c.meas.map (fun x =>
      if x.beat == b then { x with valid := x.valid && !overRange mp, ranged := x.ranged || overRange mp, br := x.br ++ [v] } else x) })).countLow n
  else
    let a := ch.prev
    let valid := ch.now.beat == b && a.beat == b - 1 && sameWhole a ch.now && a.mpm && !a.hold && c.ref.valid &&
      !overRange mp && !c.out
    let x : Meas := { beat := b, pv := a.pv, ranged := overRange mp, m, r := d.mpmReference n c.ref a, valid, late, br := [v] }
    let d := if late then (d.orFlag Reg.MGT_OVERRUN_SUMMARY_OVR 64).mpmEvent n 0x6001 n else d
    d.updMpm n (fun c => { c with meas := (x :: c.meas).take 4, lastM := m })

/-- BR_QUAL_REACHED (R239): the back-reflection test trips. -/
def Dev.brTrip (d : Dev) (n : Nat) : Dev :=
  let c := d.mpmCh n
  if c.brRun < d.act Reg.MPM_CHAN_CTL_BR_QUAL n || c.out then d
  else (((d.mpmEvent n 0x6002 (n + c.lastBr * 65536)).bump Reg.MPM_STAT_BR_TRIPS_COUNT).updMpm n
    (fun c => { c with brRun := 0 })).causeFrom n 8

/-- LOW_BEATS_REACHED (R240). -/
def Dev.lowTrip (d : Dev) (n : Nat) : Dev :=
  let c := d.mpmCh n
  if d.act Reg.MPM_CHAN_CTL_LOW_RATIO n == 0 || c.lowRun < d.act Reg.MPM_CHAN_CTL_LOW_BEATS n || c.lowSaid || c.out then d
  else
    let d := (d.mpmEvent n 0x6003 (n + c.lastM * 65536)).updMpm n (fun c => { c with lowSaid := true })
    if d.act Reg.MPM_CHAN_CTL_LOW_FAULT n == 1 then d.causeFrom n 8 else d

/-- SAT_BEATS_REACHED (R241). -/
def Dev.satTrip (d : Dev) (n : Nat) : Dev :=
  let c := d.mpmCh n
  if c.satRun < d.act Reg.MPM_CHAN_CTL_SAT_BEATS n || c.satSaid then d
  else (d.mpmEvent n 0x6004 (n + 16 * bit c.satHi)).updMpm n (fun c => { c with satSaid := true })

/-! ## The DAC update (R189, R190, R236, R237, R238) -/

/-- In the first DAC beat of a vector of channel `n`, with sample `s`, its reference is read (R232), and what is counted per vector starts
anew. -/
def Dev.mpmVector (d : Dev) (n : Nat) (s : Sample) : Dev :=
  if s.pv.isNone || (d.mpmCh n).refOf == s.pv then d
  else
    let ref := d.readRef s.mpmRef
    let d := d.updMpm n (fun c => { c with
      refOf := s.pv, ref, fresh := true, lowRun := 0, satRun := 0, lowSaid := false, satSaid := false, rangeSaid := false })
    if s.mpm && !ref.valid then
      (d.mpmEvent n 0x6006 (n + s.mpmRef * 65536)).bump Reg.MPM_STAT_REF_INVALID_COUNT
    else d

/-- The row of R237 that decides a DAC beat. A reference with RESTART acts in the first DAC beat of its vector with a window, as the state is zeroed at
each vector's start (R252). -/
def Dev.mpmRow (d : Dev) (n : Nat) (s : Sample) : Nat :=
  let c := d.mpmCh n
  if d.act Reg.MPM_CHAN_CTL_LOOP_EN n == 0 || (d.chan n).st != .enabled then 0
  else if s.vec = 0 || s.on ≥ s.off then 1
  else if s.blend == 2 then 2
  else if s.blend == 1 || s.hold then 3
  else if !s.mpm || !c.ref.valid then 4
  else if c.fresh && c.ref.restart then 5
  else 6

/-- The compensator and correction of a DAC beat under its row: a measurement of the same vector updates it in every row that neither zeroes nor
holds it (R237, R238). An emitting beat holds y1 in the row that says so, and where the measurement due is discarded or invalid for its ADC (R242,
R243, R254). -/
def Dev.mpmApply (d : Dev) (n : Nat) (s : Sample) (row : Nat) : Int × Dev :=
  let c := d.mpmCh n
  let c : MpmChan := if c.zeroNext && row != 2 then { c.zero with zeroNext := false } else c
  let x := c.meas.find? (fun x => x.beat == s.beat - 3)
  let usable := match x with | some x => x.valid && !x.late && x.pv == s.pv && !c.out | none => false
  let stepped : MpmChan × Bool := match x with
    | some x => if usable then (c.step c.ref (mpmError c.ref x.m x.r), true) else (c, false)
    | none => (c, false)
  let (corr, c, used) : Int × MpmChan × Bool := match row with
    | 0 => (0, c.zero, false)
    | 1 => (0, stepped)
    | 2 => (0, { c with zeroNext := true }, false)
    | 3 => (c.y1, c, false)
    | 4 => (0, stepped)
    | 5 => (0, c.zero, false)
    | _ => (stepped.1.y1, stepped)
  let held := row == 3 || (row == 6 && (c.out || (match x with | some x => x.late || x.ranged | none => false)))
  let emitting := row ≥ 2
  let at' := (row == 3 || row == 6) && (corr == c.ref.lo || corr == c.ref.hi)
  let d := d.updMpm n (fun _ => { c with
    row, fresh := c.fresh && s.on ≥ s.off, lastC := if row == 1 then c.lastC else corr, atClamp := if row == 1 then c.atClamp else at',
    satRun := if row == 1 then c.satRun else if at' then c.satRun + 1 else 0, satHi := corr == c.ref.hi })
  let d := if used then d.bump Reg.MPM_STAT_UPDATES_COUNT else d
  let d := if held then d.bump Reg.MPM_STAT_HELD_BEATS_COUNT else d
  (corr, if emitting && at' then d.bump Reg.MPM_STAT_CLAMP_BEATS_COUNT else d)

/-- The set-point with a correction applied (R236). -/
def corrected (s : Nat) (c : Int) : Nat := (clampI 0 65535 ((s : Int) * (32768 + c) / 32768)).toNat

/-- The pilot code while the calibration unit supplies the samples of channel `n`: CAL_CODE (R515, R520). -/
def Dev.pilot (d : Dev) (n : Nat) : Option Nat :=
  match d.cal.run with
  | some r => if d.calDrives n && r.kind ≠ 3 then some (r.entry.f 4 15 0) else none
  | none => none

/-- The pad of R207 and the sample due now: DAC_UPDATE (R190), once in cycle 0 of the DAC beat. -/
def Dev.dacUpdate (d : Dev) (n : Nat) : Dev :=
  let b := d.beatWide
  let c := d.chan n
  if !d.tmb.run || d.tmb.cycle != 0 || c.now.beat == b then d else
  let due := c.pipe.filter (fun (s : Sample) => s.beat ≤ b)
  let s := (due.find? (fun s => s.beat == b)).getD { beat := b }
  let (fv, d) := if (d.pilot n).isSome then d.free else (0, d)
  let s : Sample := if (d.pilot n).isSome then { beat := b, off := 80 * (fv % 2) } else s
  let s := if d.emits n then s else { beat := b }
  let before := c.now
  let d := d.updChan n (fun c => { c with pipe := c.pipe.filter (fun (s : Sample) => s.beat > b), prev := c.now, now := s })
  -- the record takes the DAC beat before last, whose measurement the last beat completed
  let m : MpmChan := d.mpmCh n
  let d := match m.applied with
    | _ :: a :: _ => d.stepTrace n a ((m.meas.find? (fun (x : Meas) => x.beat == a.sample.beat + 1)).getD ({} : Meas)) before
    | _ => d
  let d := d.mpmVector n s
  let row := d.mpmRow n s
  let (corr, d) := d.mpmApply n s row
  let clampNow := (d.mpmCh n).atClamp && row != 1
  let d := d.updMpm n (fun c => { c with applied := ({ sample := s, c := corr, clamp := clampNow } :: c.applied).take 2 })
  let (code, clamped) := match d.pilot n with
    | some p => (min p (d.eff Reg.LSR_CHAN_SCALE_DAC_MAX n), false)
    | none => d.dacCode n { s with s := corrected s.s corr }
  let d := if clamped then d.bump Reg.LSR_STAT_DAC_CLAMPS_COUNT else d
  let d := if s.on < s.off then d.bump Reg.LSR_STAT_EMIT_BEATS_COUNT else d
  let code := if d.safe.raw then code else 0
  d.updChan n (fun c => { c with code, highRun := if code ≥ 4096 then min 4 (c.highRun + 1) else 0 })

/-! ## Register writes (R247, R252) -/

/-- A write of an MPM register (R247, R252). -/
def Dev.writeMpm (d : Dev) (r : RegDef) (v : W64) (i j : Nat) : Dev :=
  let idle := (d.chan i).st == .off || (d.chan i).st == .fault
  let ok : Bool :=
    if r.addr = Reg.MPM_CHAN_CTL.addr then
      idle && 1 ≤ Reg.MPM_CHAN_CTL_BR_QUAL.of v && 1 ≤ Reg.MPM_CHAN_CTL_LOW_BEATS.of v && 1 ≤ Reg.MPM_CHAN_CTL_SAT_BEATS.of v
    else if r.addr = Reg.MPM_CHAN_LIMIT.addr then idle && 1 ≤ Reg.MPM_CHAN_LIMIT_REC_MIN_BEATS.of v
    else if r.addr = Reg.MPM_REF0.addr then
      !(Reg.MPM_REF0_VALID.of v == 1 && Reg.MPM_REF0_LEVEL.of v == 0)
    else if r.addr = Reg.MPM_REF1.addr then
      decide (signed 16 (Reg.MPM_REF1_CLAMP_LO.of v) ≤ signed 16 (Reg.MPM_REF1_CLAMP_HI.of v))
    else true
  d.storeIf Reg.MPM_STATUS_REFUSED ok r v i j

/-! ## Meanings -/

/-- MPM_SAMPLE (R229). -/
def execMpmSample (ch : Nat) (second : Bool) (mp br : BitVec 14) (late : Bool) (s : State) : Host.Outcome State Fault Refusal :=
  s.mainOnly { s with dev := s.dev.mpmSample ch second mp.toNat br.toNat late }

/-- BR_QUAL_REACHED (R239). -/
def execBrQualReached (ch : Nat) (s : State) : Host.Outcome State Fault Refusal := s.mainOnly { s with dev := s.dev.brTrip ch }

/-- LOW_BEATS_REACHED (R240). -/
def execLowBeatsReached (ch : Nat) (s : State) : Host.Outcome State Fault Refusal := s.mainOnly { s with dev := s.dev.lowTrip ch }

/-- SAT_BEATS_REACHED (R241). -/
def execSatBeatsReached (ch : Nat) (s : State) : Host.Outcome State Fault Refusal := s.mainOnly { s with dev := s.dev.satTrip ch }

/-- DAC_UPDATE (R190). -/
def execDacUpdate (ch : Nat) (s : State) : Host.Outcome State Fault Refusal := s.mainOnly { s with dev := s.dev.dacUpdate ch }

end Sys2Proof.Machine
end

