-- ==== Sys2Proof/Machine/CalWatch.lean ====
section
/-!
DEFINITION. What a calibration in progress asks of the other blocks: its preconditions, and what ends it (R514 to R516).
-/
namespace Sys2Proof.Machine

/-- Axis `a` of the servo engine. -/
def Dev.axis (d : Dev) (a : Nat) : Axis := at' d.srv.ax a

/-- The "Needs" conditions of R514 that are unmet, as the bit set of R520. That the plate is in place is not observable. -/
def Dev.calUnmet (d : Dev) (kind unit : Nat) : Nat :=
  match kind with
  | 1 => bit ((List.range 16).any (fun n => d.cur Reg.MPM_CHAN_LIMIT_BR_LIMIT n < 0xFFFF && (d.chan n).st != .off))
  | 2 => bit ([3 * unit, 3 * unit + 1, 3 * unit + 2].any (fun a => (d.axis a).st != .off || d.cur Reg.SRV_AXIS_CTL_EN a == 1))
  | 3 => bit ((d.chan unit).st != .off) + 2 * bit ([3 * unit, 3 * unit + 1].any (fun a => (d.axis a).st != .closed))
  | 4 | 5 => bit ((d.chan unit).st != .enabled)
  | 6 => bit ([d.cur Reg.PTH_SEAM_CFG_CH_LO unit, d.cur Reg.PTH_SEAM_CFG_CH_HI unit].any (fun n => (d.chan n).st != .enabled))
  | 7 => bit ((d.bl unit).st != .off) + 2 * bit ((blLanes unit).any d.testing)
  | _ => 0

/-- The preconditions of the calibration that measures now are unmet. -/
def Dev.calBroken (d : Dev) : Bool :=
  match d.cal.run with
  | some r => r.phase != .draining && d.calUnmet r.kind r.unit != 0
  | none => false

/-- A write that would break a precondition of the measurement in progress is refused on its block's REFUSED bit (R516). -/
def Dev.calGuard (d : Dev) (blk : Nat) (written : Dev) : Dev :=
  if written.calBroken && !d.calBroken then d.refuseBlock blk else written

/-- The calibration unit lets go of what it reserved (R515, R516). -/
def Dev.calRelease (d : Dev) : Dev :=
  { d with cal.run := none, mpm.ch := d.mpm.ch.map (fun c => { c with out := false }) }

/-- The measurement in progress ends CAL_ABORTED (R516, R526). -/
def Dev.calAbort (d : Dev) : Dev :=
  match d.cal.run with
  | some r =>
    if r.phase == .draining then d
    else (d.calRelease.complete r.entry 9 0x0302).raise 9 0 0x0302 0
  | none => d

/-- A measurement whose reserved channel left ENABLED, or whose axis left CLOSED, is aborted (R516). -/
def Dev.calWatch (d : Dev) : Dev := if d.calBroken then d.calAbort else d

end Sys2Proof.Machine
end

