-- ==== Sys2Proof/Machine/LsrCmd.lean ====
section
/-!
DEFINITION. The commands of the laser channels and of the safety monitor (R192 to R207, R214 to R226).
-/
namespace Sys2Proof.Machine

/-! ## Enabling and register writes (R194, R215 to R218, R222) -/

/-- The beacon that channel `n` is linked to. -/
def Dev.beaconOf (d : Dev) (n : Nat) : Nat := d.act Reg.LSR_CHAN_BEACON_BEACON n

/-- Channel `n`'s emission is linked to a beacon. -/
def Dev.beaconLinked (d : Dev) (n : Nat) : Bool := d.on Reg.LSR_CHAN_BEACON_BEACON_EN n

/-- The conditions of R194 and R430 under which an enable of channel `n` is refused. -/
def Dev.chanEnableRefused (d : Dev) (m : Mem) (n : Nat) : Bool :=
  (d.chan n).st != .off || !d.safe.closed || !d.fieldOk m n ||
    [3 * n, 3 * n + 1, 3 * n + 2].any (fun a => (d.axis a).st != .closed) ||
    d.eff Reg.LSR_CHAN_SCALE_FULL_SCALE_W n == 0 ||
    (d.cur Reg.LSR_CHAN_BEACON_BEACON_EN n == 1 &&
      d.cur Reg.LGT_BEACON_IS_BEACON (d.cur Reg.LSR_CHAN_BEACON_BEACON n) == 0) || !d.tmb.run

/-- The ranges of LSR_CHAN_n_CTL (R215). -/
def chanCtlOk (v : W64) : Bool :=
  Reg.LSR_CHAN_CTL_ALARM_QUAL.of v != 0 && Reg.LSR_CHAN_CTL_READY_QUAL.of v != 0 &&
    (signed 8 (Reg.LSR_CHAN_CTL_GATE_TRIM.of v)).natAbs ≤ 40

/-- A write of LSR_CHAN_n_CTL (R194, R215); a change of EN is decided at the next beat edge (R20, R196). A disable that would break a
precondition of a measurement is refused like any other write (R516). -/
def Dev.writeChanCtl (d : Dev) (m : Mem) (n : Nat) (v : W64) : Dev :=
  let en := Reg.LSR_CHAN_CTL_EN.of v == 1
  let was := d.cur Reg.LSR_CHAN_CTL_EN n == 1
  if !chanCtlOk v || ((d.chan n).st != .off && d.changes Reg.LSR_CHAN_CTL [Reg.LSR_CHAN_CTL_EN] v n) ||
      (en && !was && d.chanEnableRefused m n) then d.refuse Reg.LSR_STATUS_REFUSED
  else
    let d' := d.store Reg.LSR_CHAN_CTL v n 0
    let off := if en then d' else d'.updChan n (fun c => { c with st := .off })
    if off.calBroken && !d.calBroken then d.refuseBlock 4 else d'

/-- A write of an LSR register (R215 to R218, R220). -/
def Dev.writeLsr (d : Dev) (m : Mem) (r : RegDef) (v : W64) (i j : Nat) : Dev :=
  if r.addr = Reg.LSR_CHAN_CTL.addr then d.writeChanCtl m i v
  else
    let ok : Bool :=
      if r.addr = Reg.LSR_CHAN_ARM.addr then (d.chan i).st == .off
      else if r.addr = Reg.LSR_CHAN_BEACON.addr then (d.chan i).st == .off && Reg.LSR_CHAN_BEACON_UNVER_MAX.of v != 0
      else true
    d.storeIf Reg.LSR_STATUS_REFUSED ok r v i j

/-- A write of MGT_SAFE_CTL, or of the key register (R203, R222, R224); SAFE_QUAL 0 is out of range. -/
def Dev.writeSafe (d : Dev) (r : RegDef) (v : W64) : Dev :=
  if r.addr = Reg.MGT_SAFE_KICK.addr then
    if Reg.MGT_SAFE_KICK_KEY.of v == 0x5AFE then { d with safe.kickAt := d.pwr.clock, safe.expired := false } else d
  else if r.addr = Reg.MGT_SAFE_CTL.addr then
    if Reg.MGT_SAFE_CTL_SAFE_QUAL.of v == 0 then d else d.store r v 0 0
  else d.store r v 0 0

/-! ## Arming (R193, R195) -/

/-- READY is qualified asserted, or is not required. -/
def Dev.readyOk (d : Dev) (n : Nat) : Bool := d.readyOn n || !d.on Reg.LSR_CHAN_CTL_READY_REQ n

/-- The linked beacon is OK, or there is none. -/
def Dev.beaconOk (d : Dev) (n : Nat) : Bool := !d.beaconLinked n || at' d.lsr.beacon (d.beaconOf n) == 1

/-- Everything that ARMING waits for holds (R193). -/
def Dev.armed (d : Dev) (n : Nat) : Bool :=
  d.beatWide - (d.chan n).since ≥ d.act Reg.LSR_CHAN_ARM_EMIT_LEAD n && d.readyOk n && d.beaconOk n && (d.chan n).hold == 0

/-- ARMING_COMPLETE: in cycle 0 of a beat the channel is ENABLED, and the Mason may use it (R193, R195). -/
def Dev.armingComplete (d : Dev) (n : Nat) : Dev :=
  if (d.chan n).st == .arming && (d.chan n).next.isNone && d.tmb.cycle == 0 && d.armed n then
    let d := (d.updChan n (fun c => { c with st := .enabled, unverSince := none, report := 0 })).chanEvent n 0x4007 n
    let d := if d.courseOpen then d.updChanCourse n (fun c => { c with enabled := true }) else d
    d.laserEnabled n
  else d

/-- ARMING_TIMEOUT: ARM_TIMEOUT beats have passed without the conditions (R193, R225). -/
def Dev.armingTimeout (d : Dev) (n : Nat) : Dev :=
  let t := d.act Reg.LSR_CHAN_ARM_ARM_TIMEOUT n
  if (d.chan n).st == .arming && (d.chan n).next.isNone && t != 0 && d.beatWide - (d.chan n).since ≥ t && !d.armed n then
    d.lsrFault n 3 0x4003 (n + 16 * bit (!d.readyOk n) + 32 * bit (!d.beaconOk n))
  else d

/-! ## Inputs (R192, R197, R200) -/

/-- An input may have held a level for `q` beats since FCLK cycle `at'`, in which the level it held before was last seen (R192, R200). Time set back
in between tells nothing. -/
def Dev.heldFor (d : Dev) (at' : Int) (q : Nat) : Bool := decide (d.cycleNow < at') || decide (at' + 80 * q ≤ d.cycleNow)

/-- ALARM_QUALIFIED: the input has held a new level for ALARM_QUAL beats; at its active level it faults the channel (R192, R215). -/
def Dev.alarmQualified (d : Dev) (n : Nat) (level : Bool) : Dev :=
  if level == (d.chan n).alarm || !d.heldFor (d.chan n).alarmAt (d.act Reg.LSR_CHAN_CTL_ALARM_QUAL n) then d
  else
    let d := d.updChan n (fun c => { c with alarm := level, alarmAt := d.cycleNow })
    if !d.alarmOn n then d
    else if (d.chan n).active then d.lsrFault n 1 0x4001 n
    else d.faultChan n 1

/-- READY_QUALIFIED: the input has held a new level for READY_QUAL beats; its inactive level faults an ENABLED channel that requires READY
(R192, R215). -/
def Dev.readyQualified (d : Dev) (n : Nat) (level : Bool) : Dev :=
  if level == (d.chan n).ready || !d.heldFor (d.chan n).readyAt (d.act Reg.LSR_CHAN_CTL_READY_QUAL n) then d
  else
    let d := d.updChan n (fun c => { c with ready := level, readyAt := d.cycleNow })
    if !d.readyOn n && (d.chan n).st == .enabled && d.on Reg.LSR_CHAN_CTL_READY_REQ n then d.lsrFault n 2 0x4002 n else d

/-- PAD_READBACK_MISMATCH: EMIT_EN, GATE or both read back at the wrong level for more than 8 cycles (R197). With neither, both read back as
expected again, and the condition no longer persists (R198). -/
def Dev.padMismatch (d : Dev) (n : Nat) (emit gate : Bool) : Dev :=
  if n ≥ 16 then d
  else
    let e := d.emitDriven n
    let g := d.gateDriven n
    let d := d.updChan n (fun c => { c with emitPad := if emit then some (!e) else none, gatePad := if gate then some (!g) else none })
    if !(emit || gate) then d
    else if (d.chan n).active then d.lsrFault n 4 0x4004 (n + 16 * bit emit + 32 * bit gate)
    else d.faultChan n 4

/-- DAC_COMPLIANCE_LOSS: out of compliance for 4 consecutive beats at a code of 4,096 or more (R197). -/
def Dev.dacLoss (d : Dev) (n : Nat) : Dev :=
  if (d.chan n).highRun ≥ 4 && (d.chan n).active then d.lsrFault n 5 0x4005 n else d

/-- SAFE_IN_LOW: one low sample opens the chain at once (R199, R200). SAFE_IN is sampled every FCLK cycle: a cycle in which this command is not
given samples it high. -/
def Dev.safeLow (d : Dev) : Dev :=
  let was := d.safe.closed
  let d := ({ d with safe.raw := false, safe.lowAt := d.cycleNow, safe.closed := false }).orFlag Reg.MGT_SAFE_STATUS_SAFE_OPENED 1
  let d := if was then d.raise 8 0 0x0201 0 else d
  let d := forRange 16 d (fun d n => if (d.chan n).active then d.lsrFault n 0 0x4006 n true else d)
  if was then d.calAbort else d

/-- SAFE_IN_QUALIFIED: high in every sample for SAFE_QUAL beats (R200). -/
def Dev.safeClosed (d : Dev) : Dev :=
  if d.safe.closed || !d.heldFor d.safe.lowAt (d.act Reg.MGT_SAFE_CTL_SAFE_QUAL) then d
  else ({ d with safe.raw := true, safe.closed := true }).raise 8 0 0x0202 0

/-! ## The heartbeat and the kick watchdog (R201 to R203) -/

/-- HEARTBEAT_BOUNDARY: at a beat edge at a multiple of 1,000 beats (R201). -/
def Dev.heartbeat (d : Dev) : Dev :=
  if !d.tmb.run || d.beatWide % 1000 != 0 || d.tmb.cycle != 0 then d
  else
    let now := d.heartbeatFails d.thm.latch
    let fails := d.safe.lapsed ||| now
    let ran := d.safe.hbRun
    let d := { d with safe.lapsed := now, safe.hbRun := fails == 0,
                      safe.readyOut := if fails == 0 then !d.safe.readyOut else d.safe.readyOut }
    if fails == 0 && !ran then d.raise 8 0 0x0204 0
    else if fails != 0 && ran then d.raise 8 0 0x0203 fails
    else d

/-- KICK_TIMEOUT_EXPIRY (R203). -/
def Dev.kickExpiry (d : Dev) : Dev :=
  let t : Int := d.act Reg.MGT_SAFE_CTL_KICK_TIMEOUT
  if t != 0 && !d.safe.expired && d.pwr.clock - d.safe.kickAt ≥ t * msUnit then
    (({ d with safe.expired := true }).orFlag Reg.MGT_SAFE_STATUS_KICK_EXPIRED 1).raise 8 0 0x0205 0
  else d

/-! ## Beacons (R204, R205) -/

/-- What channel `n` does with a report `st` of its beacon `b` (R205). -/
def Dev.beaconChan (d : Dev) (n b st : Nat) : Dev :=
  let on := (d.chan n).st == .enabled
  if !d.beaconLinked n || d.beaconOf n != b then d
  else match st with
    | 1 => (d.updChan n (fun c => { c with unverSince := none })).releaseChan n 1
    | 3 => if on then d.updChan n (fun c => { c with unverSince := c.unverSince.or (some d.beatWide) }) else d
    | _ =>
      let d := d.updChan n (fun c => { c with unverSince := none })
      if on then d.holdChan n 1 0x4008 (n + b * 16 + st * 64) else d

/-- BEACON_REPORT: the status of beacon `b` arrives at LSR, which acts on it at the next beat edge (R204). -/
def Dev.beaconReport (d : Dev) (b : Nat) : Dev :=
  if b ≥ 4 then d else { d with lsr.reported := upd d.lsr.reported b (fun _ => some (at' d.lgt.ch (24 + b)).st) }

/-- At a beat edge LSR acts on the report of beacon `b` that has arrived (R204, R205). -/
def Dev.beaconEdge (d : Dev) (b : Nat) : Dev :=
  match at' d.lsr.reported b with
  | none => d
  | some st =>
    let d := { d with lsr.beacon := upd d.lsr.beacon b (fun _ => st), lsr.reported := upd d.lsr.reported b (fun _ => none) }
    forRange 16 d (fun d n => d.beaconChan n b st)

/-- BEACON_UNVERIFIED_TIMEOUT: UNVERIFIED without a break for UNVER_MAX ms, decided in cycle 0 (R196, R205). -/
def Dev.beaconTimeout (d : Dev) (n : Nat) : Dev :=
  match (d.chan n).unverSince with
  | some t =>
    if d.tmb.cycle == 0 && d.beaconLinked n && (d.chan n).st == .enabled &&
        d.beatWide - t ≥ 20000 * d.act Reg.LSR_CHAN_BEACON_UNVER_MAX n then
      d.holdChan n 1 0x4008 (n + d.beaconOf n * 16 + 3 * 64)
    else d
  | none => d

/-! ## Meanings -/

/-- CHANNEL_ENABLE (R193): a write of LSR_CHAN_n_CTL with EN 1. -/
def execChannelEnable (_src : Source) (ch : Nat) (v : W64) (s : State) : Host.Outcome State Fault Refusal :=
  s.mainOnly { s with dev := if ch < 16 && Reg.LSR_CHAN_CTL_EN.of v == 1 then s.dev.writeChanCtl s.mem ch v else s.dev }

/-- CHANNEL_DISABLE (R196): a write of LSR_CHAN_n_CTL with EN 0. -/
def execChannelDisable (_src : Source) (ch : Nat) (v : W64) (s : State) : Host.Outcome State Fault Refusal :=
  s.mainOnly { s with dev := if ch < 16 && Reg.LSR_CHAN_CTL_EN.of v == 0 then s.dev.writeChanCtl s.mem ch v else s.dev }

/-- ARMING_COMPLETE (R193). -/
def execArmingComplete (ch : Nat) (s : State) : Host.Outcome State Fault Refusal :=
  s.mainOnly { s with dev := s.dev.armingComplete ch }

/-- ARMING_TIMEOUT (R193). -/
def execArmingTimeout (ch : Nat) (s : State) : Host.Outcome State Fault Refusal :=
  s.mainOnly { s with dev := s.dev.armingTimeout ch }

/-- ALARM_QUALIFIED (R192). -/
def execAlarmQualified (ch : Nat) (level : Bool) (s : State) : Host.Outcome State Fault Refusal :=
  s.mainOnly { s with dev := s.dev.alarmQualified ch level }

/-- READY_QUALIFIED (R192). -/
def execReadyQualified (ch : Nat) (level : Bool) (s : State) : Host.Outcome State Fault Refusal :=
  s.mainOnly { s with dev := s.dev.readyQualified ch level }

/-- PAD_READBACK_MISMATCH (R197). -/
def execPadReadbackMismatch (ch : Nat) (emit gate : Bool) (s : State) : Host.Outcome State Fault Refusal :=
  s.mainOnly { s with dev := s.dev.padMismatch ch emit gate }

/-- DAC_COMPLIANCE_LOSS (R197). -/
def execDacComplianceLoss (ch : Nat) (s : State) : Host.Outcome State Fault Refusal :=
  s.mainOnly { s with dev := s.dev.dacLoss ch }

/-- CHANNEL_FAULT_CLEAR (R198): a write of 1s to cause bits. -/
def execChannelFaultClear (_src : Source) (ch : Nat) (v : W64) (s : State) : Host.Outcome State Fault Refusal :=
  s.mainOnly { s with dev := if ch < 16 then s.dev.store Reg.LSR_CHAN_FAULT v ch 0 else s.dev }

/-- SAFE_IN_LOW (R200). -/
def execSafeInLow (s : State) : Host.Outcome State Fault Refusal := s.mainOnly { s with dev := s.dev.safeLow }

/-- SAFE_IN_QUALIFIED (R200). -/
def execSafeInQualified (s : State) : Host.Outcome State Fault Refusal := s.mainOnly { s with dev := s.dev.safeClosed }

/-- HEARTBEAT_BOUNDARY (R201). -/
def execHeartbeatBoundary (s : State) : Host.Outcome State Fault Refusal := s.mainOnly { s with dev := s.dev.heartbeat }

/-- SAFE_KICK (R203): a write of MGT_SAFE_KICK. -/
def execSafeKick (_src : Source) (v : W64) (s : State) : Host.Outcome State Fault Refusal :=
  s.mainOnly { s with dev := s.dev.writeSafe Reg.MGT_SAFE_KICK v }

/-- KICK_TIMEOUT_EXPIRY (R203). -/
def execKickTimeoutExpiry (s : State) : Host.Outcome State Fault Refusal := s.mainOnly { s with dev := s.dev.kickExpiry }

/-- BEACON_REPORT (R204, R205). -/
def execBeaconReport (b : Nat) (s : State) : Host.Outcome State Fault Refusal := s.mainOnly { s with dev := s.dev.beaconReport b }

/-- BEACON_UNVERIFIED_TIMEOUT (R205). -/
def execBeaconUnverifiedTimeout (ch : Nat) (s : State) : Host.Outcome State Fault Refusal :=
  s.mainOnly { s with dev := s.dev.beaconTimeout ch }

end Sys2Proof.Machine
end

