-- ==== Sys2Proof/Machine/Srv.lean ====
section
/-!
DEFINITION. SRV: the servo engine's loops, current decisions, banks, axis states and faults (chapter 09).
Axis a belongs to channel a / 3 and steers X, Y or focus by a % 3.
-/
namespace Sys2Proof.Machine

/-! ## Shared pieces -/

/-- Change axis `a`. -/
def Dev.updAxis (d : Dev) (a : Nat) (f : Axis → Axis) : Dev := { d with srv.ax := upd d.srv.ax a f }

/-- The axis is in ACQUIRE or CLOSED. -/
def Axis.live (x : Axis) : Bool := x.st == .acquire || x.st == .closed

/-- Clamp to the signed 32-bit range. -/
def clamp32 (x : Int) : Int := clampI (-2147483648) 2147483647 x

/-- Raise an event of axis `a` (R290). -/
def Dev.axisEvent (d : Dev) (a code more : Nat) : Dev :=
  let x := d.axis a
  d.raise (80 + a / 3) a code (a + more) [pack [(unsigned 32 x.pos, 32), (unsigned 32 x.perr, 0)]]

/-! ## The bridge and its gates (R256, R257, R262 to R264) -/

/-- The gates that a bridge state drives, bit 0 GHA, 1 GLA, 2 GHB, 3 GLB (R263). -/
def Bridge.gates (b : Bridge) : Nat := match b with | .off => 0 | .fwd => 9 | .rev => 6 | .coast => 10

/-- The levels of the four gate outputs of axis `a` in the present cycle (R257, R263, R264): a gate that turns off does so at cycle 0 of the beat of
the change, one that turns on at cycle DEAD, and never sooner than 4 cycles after the other gate of its half-bridge went inactive. -/
def Dev.gateLevels (d : Dev) (a : Nat) : Nat :=
  let x := d.axis a
  if !d.mainUp || !x.live then 0
  else
    let on := x.bridge.gates
    if x.dwell = 0 && d.tmb.cycle < max 4 (d.act Reg.SRV_AXIS_CTL_DEAD a) then on &&& x.bridgeOld.gates else on

/-- The bridge of axis `a` takes a state at a beat edge; a change counts (R263, R289). -/
def Dev.setBridge (d : Dev) (a : Nat) (b : Bridge) : Dev :=
  let x := d.axis a
  if x.bridge == b then d.updAxis a (fun x => { x with bridgeNext := none, dwell := min 15 (x.dwell + 1) })
  else (d.updAxis a (fun x => { x with bridge := b, bridgeOld := x.bridge, bridgeNext := none, dwell := 0 })).bump Reg.SRV_STAT_SWITCHES_COUNT

/-! ## Faults and states (R275, R277 to R279) -/

/-- Fault axis `a` with cause bit `c`: the lowest cause of the beat is FIRST, and the channel faults with cause 7 at the next beat edge
(R197, R277, R278). A cause that arises in FAULT sets its bit and raises its event. -/
def Dev.axisFault (d : Dev) (a c code more : Nat) : Dev :=
  let x := d.axis a
  if (!x.live && x.st != .fault) || bitOf (d.flag Reg.SRV_AXIS_FAULT_CAUSE a) c then d
  else
    let d := (d.axisEvent a code more).orFlag Reg.SRV_AXIS_FAULT_CAUSE (2 ^ c) a
    if x.live then
      let d := d.updAxis a (fun x => { x with faulting := true, first := if x.faulting then min x.first c else c })
      d.causeFrom (a / 3) 7
    else d

/-- What axis `a` does at a beat edge: a fault decided in the beat before and EN as sampled act, and the bridge takes the state decided for the beat
(R20, R262, R275, R278). -/
def Dev.axisEdge (d : Dev) (a : Nat) : Dev :=
  let x := d.axis a
  let en := d.on Reg.SRV_AXIS_CTL_EN a
  if x.faulting then
    ((d.setBridge a .off).updAxis a (fun x => { x with
      st := .fault, faulting := false, perrRun := 0, stuckRun := 0, senseRun := 0 })).setRwNow Reg.SRV_AXIS_CTL_EN 0 a
  else if !en && (x.live || x.waiting) then
    (d.setBridge a .off).updAxis a (fun x => { x with waiting := false, st := if x.live then .off else x.st })
  else
    let d := d.setBridge a (x.bridgeNext.getD x.bridge)
    if en && x.st == .off then d.updAxis a (fun x => { x with waiting := true }) else d

/-- The cause bits of axis `a` whose condition persists (R279). -/
def Dev.axisPersist (d : Dev) (a : Nat) : Nat :=
  let x := d.axis a
  let wrong := x.gateBad &&& (15 ^^^ (x.gateWas ^^^ d.gateLevels a))
  (if x.rangeRun ≥ d.act Reg.SRV_AXIS_CTL_POS_QUAL a then 16 else 0) + (if wrong != 0 then 32 else 0)

/-- At a beat edge a faulted axis goes OFF once every bit reads 0 and no condition persists (R275, R279). -/
def Dev.settleAxis (d : Dev) (a : Nat) : Dev :=
  if (d.axis a).st == .fault && d.axisPersist a == 0 && d.flag Reg.SRV_AXIS_FAULT_CAUSE a == 0 then
    d.updAxis a (fun x => { x with st := .off, first := 15 })
  else d

/-! ## Position and reference (R259, R260, R265, R266) -/

/-- The trimmed position of a 24-bit code (R259). -/
def Dev.axisPos (d : Dev) (a : Nat) (code : Nat) : Int :=
  clamp32 (divRound ((signed 24 code * 256 - d.effS Reg.SRV_AXIS_TRIM_OFFSET a) * d.eff Reg.SRV_AXIS_TRIM_GAIN a) (2 ^ 30))

/-- An over-range code (R260). -/
def codeOver (code : Nat) : Bool := code == 0x7FFFFF || code == 0x800000

/-- The head reference that axis `a` takes in the present beat: the one issued in the beat before (R265). -/
def Dev.headRef (d : Dev) (a : Nat) : Int :=
  let p := d.piste (a / 3)
  let h := if p.headBeat == d.beatWide then p.headOld else p.head
  match a % 3 with | 0 => h.1 | 1 => h.2.1 | _ => h.2.2

/-- The piste of axis `a` holds a head reference: a grid slot has been assigned (R275). -/
def Dev.hasRef (d : Dev) (a : Nat) : Bool := (d.piste (a / 3)).slot < 17

/-! ## Compensators and banks (R267 to R274) -/

/-- One step of a compensator (R267, R268): its new state, its output, and whether the accumulator wrapped. -/
def Loop.step (l : Loop) (e lim : Int) : Loop × Int × Bool :=
  let s := l.b0 * e + l.b1 * l.e1 + l.b2 * l.e2 + l.b3 * l.e3
  let f := (l.a1 * l.acc1 + l.a2 * l.acc2 + l.a3 * l.acc3) / 2 ^ 24
  let t := s - f
  let acc := signed 64 (unsigned 64 t)
  ({ l with e3 := l.e2, e2 := l.e1, e1 := e, acc3 := l.acc2, acc2 := l.acc1, acc1 := acc },
   clampI (-lim) lim (divRound acc (2 ^ 24)), t != acc)

/-- The in-effect fields of bank `k`: the position loop's seven coefficients, the velocity loop's, the two preloads, VALID, MODE. -/
def Dev.bankFields (d : Dev) (k : Nat) : List Int :=
  let c := fun (f : Field) => d.effS f k
  [c Reg.SRV_BANK_POS_B01_B0, c Reg.SRV_BANK_POS_B01_B1, c Reg.SRV_BANK_POS_B23_B2, c Reg.SRV_BANK_POS_B23_B3,
   c Reg.SRV_BANK_POS_A12_A1, c Reg.SRV_BANK_POS_A12_A2, c Reg.SRV_BANK_POS_A3_A3,
   c Reg.SRV_BANK_VEL_B01_B0, c Reg.SRV_BANK_VEL_B01_B1, c Reg.SRV_BANK_VEL_B23_B2, c Reg.SRV_BANK_VEL_B23_B3,
   c Reg.SRV_BANK_VEL_A12_A1, c Reg.SRV_BANK_VEL_A12_A2, c Reg.SRV_BANK_VEL_A3_A3,
   c Reg.SRV_BANK_POS_PRE_PRE, c Reg.SRV_BANK_VEL_PRE_PRE, (d.eff Reg.SRV_BANK_CFG_VALID k : Int),
   (d.eff Reg.SRV_BANK_CFG_MODE k : Int)]

/-- Bank `k` is VALID in effect. -/
def Dev.bankValid (d : Dev) (k : Nat) : Bool := d.eff Reg.SRV_BANK_CFG_VALID k == 1

/-- A loop with new coefficients, its state carried (KEEP), preloaded or zeroed (R272). -/
def Loop.load (l : Loop) (c : List Int) (at0 : Nat) (pre : Int) (mode : Nat) : Loop :=
  let g := fun i => c.getD (at0 + i) 0
  let n : Loop := { b0 := g 0, b1 := g 1, b2 := g 2, b3 := g 3, a1 := g 4, a2 := g 5, a3 := g 6 }
  match mode with
  | 0 => { n with e1 := l.e1, e2 := l.e2, e3 := l.e3, acc1 := l.acc1, acc2 := l.acc2, acc3 := l.acc3 }
  | 1 => { n with acc1 := pre, acc2 := pre, acc3 := pre }
  | _ => n

/-- Load bank `k` into axis `a` under a mode (R272, R274). -/
def Dev.loadBank (d : Dev) (a k mode : Nat) : Dev :=
  let c := d.bankFields k
  d.updAxis a (fun x => { x with
    bank := k, loaded := c, swapDue := false, pl := x.pl.load c 0 (c.getD 14 0) mode, vl := x.vl.load c 7 (c.getD 15 0) mode })

/-- The swap test of axis `a` when SRV's values take effect (R272, R273). -/
def Dev.swapAxis (d : Dev) (a : Nat) : Dev :=
  let x := d.axis a
  let k := d.eff Reg.SRV_AXIS_BANK_BANK a
  if !x.live || !(x.swapDue || x.bank != k || x.loaded != d.bankFields k) then d
  else if !d.bankValid k then (d.updAxis a (fun x => { x with swapDue := true })).axisEvent a 0x500C (k * 128)
  else
    let mode := d.eff Reg.SRV_BANK_CFG_MODE k
    ((d.loadBank a k mode).axisEvent a 0x500B (k * 128 + mode * 4096)).bump Reg.SRV_STAT_SWAPS_COUNT

/-- SRV_COMMIT_EFFECT: in cycle 0 of the first position tick after a commit (R271). -/
def Dev.srvEffect (d : Dev) : Dev :=
  if !d.crs.srvPending || !d.tmb.run || !d.beatMultiple 16 || d.tmb.cycle != 0 then d
  else
    let eff := d.regs.srvNext.foldl (fun m p => Assoc.put m p.1 p.2 (2 ^ 64)) (d.regs.effect.filter (fun p => !isSrvKey p.1))
    let d := { d with regs.effect := eff, regs.srvNext := [], crs.srvPending := false }
    forRange 48 d Dev.swapAxis

/-- An accumulator of axis `a` wrapped: loop 0 position, 1 velocity (R268). -/
def Dev.wrapped (d : Dev) (a loop : Nat) (w : Bool) : Dev :=
  if w then
    ((d.updAxis a (fun x => { x with wraps := min (x.wraps + 1) 65535 })).bump Reg.SRV_STAT_WRAPS_COUNT).axisEvent a 0x5008 (loop * 64)
  else d

/-! ## The ticks (R265 to R269, R275, R280) -/

/-- The reference that axis `a` takes: its local one in ACQUIRE, else the piste's newest (R265, R275). -/
def Dev.loopRef (d : Dev) (a : Nat) : Int := if (d.axis a).st == .acquire then (d.axis a).localRef else d.headRef a

/-- The sample of a velocity-tick beat is trimmed, once for the ticks of that beat (R258 to R260). -/
def Dev.sampleAxis (d : Dev) (a code : Nat) : Dev :=
  if (d.axis a).sampledAt == d.beatWide then d
  else
    let p := d.axisPos a code
    d.updAxis a (fun x => { x with
      sampledAt := d.beatWide, pos := p, posOld := x.pos, rangeRun := if codeOver code then x.rangeRun + 1 else 0 })

/-- The position error of axis `a` is formed (R266). -/
def Dev.formError (d : Dev) (a : Nat) : Dev :=
  let r := d.loopRef a
  d.updAxis a (fun x => { x with r, perr := clamp32 (r - x.pos) })

/-- Axis `a` enters ACQUIRE at a position tick (R274, R275). -/
def Dev.acquire (d : Dev) (a : Nat) : Dev :=
  let k := d.eff Reg.SRV_AXIS_BANK_BANK a
  let d := d.loadBank a k (if d.eff Reg.SRV_BANK_CFG_MODE k == 1 then 1 else 2)
  d.updAxis a (fun x => { x with
    st := .acquire, waiting := false, localRef := x.pos, rPrev := x.pos, acqTicks := 0, wraps := 0, posOut := 0, vref := 0, iref := 0, irefOld := 0,
    perrRun := 0, stuckRun := 0, senseRun := 0 })

/-- The local reference moves towards the piste's; where it meets it, the axis is CLOSED, and AXIS_CLOSED carries the error to the piste's reference
(R275). -/
def Dev.acquireStep (d : Dev) (a : Nat) : Dev :=
  let x := d.axis a
  let step : Int := d.act Reg.SRV_AXIS_LOOP_ACQ_STEP a * 65536
  let target := d.headRef a
  if !d.hasRef a then d
  else
    let loc := x.localRef + clampI (-step) step (target - x.localRef)
    let d := d.updAxis a (fun x => { x with localRef := loc })
    if loc == target then ((d.updAxis a (fun x => { x with st := .closed })).formError a).axisEvent a 0x500A 0 else d

/-- SRV_OVERRUN of axis `a` (R25, R280). -/
def Dev.srvOverrun (d : Dev) (a : Nat) : Dev :=
  (d.axisEvent a 0x5009 0).orFlag Reg.MGT_OVERRUN_SUMMARY_OVR (2 ^ 5)

/-- The position loop's step of axis `a`, with feed-forward (R267, R269). -/
def Dev.positionLoop (d : Dev) (a : Nat) : Dev :=
  let x := d.axis a
  let lim : Int := d.act Reg.SRV_AXIS_LOOP_VREF_MAX a
  let (l, out, w) := x.pl.step x.perr lim
  let ff := divRound (d.act Reg.SRV_AXIS_LOOP_VFF a * (x.r - x.rPrev)) (4 * 32768)
  (d.updAxis a (fun x => { x with pl := l, posOut := out, vref := clampI (-lim) lim (out + ff), rPrev := x.r })).wrapped a 0 w

/-- POSITION_TICK of axis `a`, at the edge of a beat that is one, ahead of the velocity tick of that beat (R24, R265, R267, R269, R275). A step that
does not complete leaves the axis in its state (R280). -/
def Dev.positionTick (d : Dev) (m : Mem) (a code : Nat) (late : Bool) : Dev :=
  if !d.tmb.run || !d.beatMultiple 16 || d.tmb.cycle != 0 || a ≥ 48 || (d.axis a).posAt == d.beatWide then d
  else
    let d := ((d.holdHead m (a / 3)).sampleAxis a code).updAxis a (fun x => { x with
      posAt := d.beatWide, acqTicks := if x.st == .acquire then x.acqTicks + 1 else x.acqTicks })
    if late then
      if (d.axis a).live then ((d.formError a).updAxis a (fun x => { x with rPrev := x.r })).srvOverrun a else d.formError a
    else
      let d := if (d.axis a).waiting then d.acquire a
        else if (d.axis a).st == .acquire then d.acquireStep a
        else d
      let d := d.formError a
      if (d.axis a).live then d.positionLoop a else d

/-- The velocity loop's step of axis `a`, and whether either loop stands at its clamp (R267, R289). Its current reference acts a beat later (R265). -/
def Dev.velocityLoop (d : Dev) (a : Nat) : Dev :=
  let x := d.axis a
  let imax : Int := d.act Reg.SRV_AXIS_CUR_I_MAX a
  let vmax := d.act Reg.SRV_AXIS_LOOP_VREF_MAX a
  let (l, out, w) := x.vl.step (clamp32 (x.vref - (x.pos - x.posOld))) imax
  let d := (d.updAxis a (fun x => { x with vl := l, iref := out, irefOld := x.iref, irefAt := d.beatWide })).wrapped a 1 w
  d.bump Reg.SRV_STAT_CLAMP_TICKS_COUNT (bit (out == imax || out == -imax || x.posOut.natAbs == vmax))

/-- VELOCITY_TICK of axis `a`, at the edge of a beat that is one (R24, R258 to R260, R265 to R267, R277). The position error is formed whatever the
axis's state (R266); in FAULT, a cause whose condition persists sets its bit again (R279). -/
def Dev.velocityTick (d : Dev) (a code : Nat) (late : Bool) : Dev :=
  if !d.tmb.run || !d.beatMultiple 4 || d.tmb.cycle != 0 || a ≥ 48 || (d.axis a).velAt == d.beatWide then d
  else
    let d := ((d.sampleAxis a code).formError a).updAxis a (fun x => { x with velAt := d.beatWide })
    let x := d.axis a
    let lim := d.act Reg.SRV_AXIS_PERR_PERR_MAX a
    let beyond := x.st == .closed && lim != 0 && x.perr.natAbs > lim
    let d := d.updAxis a (fun x => { x with perrRun := if beyond then x.perrRun + 1 else 0 })
    let d := if x.st == .closed then d.peak Reg.SRV_STAT_PERR_PEAK_COUNT x.perr.natAbs else d
    if x.st == .fault then d.orFlag Reg.SRV_AXIS_FAULT_CAUSE (d.axisPersist a) a
    else if !x.live then d
    else if late then d.srvOverrun a
    else d.velocityLoop a

/-! ## Current decisions (R261 to R263, R277) -/

/-- The current reference that the thresholds of axis `a` stand for: one made by a velocity tick of this beat is loaded in the next (R265). -/
def Dev.irefNow (d : Dev) (a : Nat) : Int := if (d.axis a).irefAt == d.beatWide then (d.axis a).irefOld else (d.axis a).iref

/-- What a threshold DAC makes of a value in current units: it takes bits [15:2] (R261). -/
def threshold (v : Int) : Int := v / 4 * 4

/-- The comparators' outputs for a sensed current, in 1/16 of a current unit: HI, LO, TRIP_HI and TRIP_LO (R261). -/
def Dev.comparators (d : Dev) (a : Nat) (sensed : Int) : Bool × Bool × Bool × Bool :=
  let h : Int := d.act Reg.SRV_AXIS_CUR_HYST a
  let i := d.irefNow a
  let trip : Int := d.act Reg.SRV_AXIS_CUR_I_TRIP a
  (decide (sensed > 16 * threshold ((2 * i + h) / 2)), decide (sensed < 16 * threshold ((2 * i - h) / 2)),
   decide (sensed > 16 * threshold trip), decide (sensed < 16 * threshold (-trip)))

/-- The bridge state for the next beat (R262). -/
def Dev.decideBridge (d : Dev) (a : Nat) (hi lo : Bool) : Bridge :=
  let x := d.axis a
  let slow := d.on Reg.SRV_AXIS_CTL_DECAY a
  let i := d.irefNow a
  if hi && lo then .coast
  else if x.dwell + 1 < d.act Reg.SRV_AXIS_CTL_MIN_DWELL a then x.bridge
  else if lo then (if slow && i < 0 then .coast else .fwd)
  else if hi then (if slow && i ≥ 0 then .coast else .rev)
  else x.bridge

/-- CURRENT_DECISION of axis `a`: once, at cycle 76 of a beat, for the next beat. `sensed` is the coil current in 1/16 of a current unit, and `forced` the
comparators (HI, LO, TRIP_HI, TRIP_LO from bit 0) that a failure of the sense input holds asserted, as CUR_SENSE detects (R277). -/
def Dev.currentDecision (d : Dev) (a : Nat) (sensed : Int) (hiHeld loHeld : Bool) (tripHeld : BitVec 2) : Dev :=
  if !d.tmb.run || d.tmb.cycle != 76 || !(d.axis a).live || (d.axis a).decAt == d.beatWide then d
  else
    let (hi, lo, tripHi, tripLo) := d.comparators a sensed
    let hi := hi || hiHeld
    let lo := lo || loHeld
    let tripHi := tripHi || tripHeld.getLsbD 0
    let tripLo := tripLo || tripHeld.getLsbD 1
    let stuck := (lo && (d.axis a).bridge == .fwd) || (hi && (d.axis a).bridge == .rev)
    let d := d.updAxis a (fun x => { x with
      decAt := d.beatWide, stuckRun := if stuck then x.stuckRun + 1 else 0, senseRun := if hi && lo then x.senseRun + 1 else 0 })
    if tripHi || tripLo then (d.updAxis a (fun x => { x with bridgeNext := some .off })).axisFault a 1 0x5002 (bit tripHi * 64)
    else
      let b := d.decideBridge a hi lo
      d.updAxis a (fun x => { x with bridgeNext := some b })

/-! ## Register writes (R276, R282 to R288) -/

/-- A write of SRV_AXIS_a_CTL (R276, R282, R430); a change of EN acts from the next beat edge (R20, R275). -/
def Dev.writeAxisCtl (d : Dev) (a : Nat) (v : W64) : Dev :=
  let en := Reg.SRV_AXIS_CTL_EN.of v == 1
  let was := d.cur Reg.SRV_AXIS_CTL_EN a == 1
  let dead := Reg.SRV_AXIS_CTL_DEAD.of v
  let rangeOk := Reg.SRV_AXIS_CTL_STUCK_BEATS.of v != 0 && Reg.SRV_AXIS_CTL_POS_QUAL.of v != 0 && 4 ≤ dead && dead ≤ 40 &&
    Reg.SRV_AXIS_CTL_MIN_DWELL.of v != 0
  let bad := !rangeOk ||
    (en && !was && ((d.axis a).st == .fault || !d.bankValid (d.eff Reg.SRV_AXIS_BANK_BANK a) || !d.tmb.run)) ||
    (!en && was && (d.chan (a / 3)).active) ||
    ((d.axis a).st != .off && d.changes Reg.SRV_AXIS_CTL [Reg.SRV_AXIS_CTL_EN] v a)
  if bad then d.refuse Reg.SRV_STATUS_REFUSED
  else
    let d' := d.store Reg.SRV_AXIS_CTL v a 0
    let off := if en then d' else d'.updAxis a (fun x => { x with st := .off })
    if off.calBroken && !d.calBroken then d.refuseBlock 5 else d'

/-- A write of an SRV register (R282 to R288). -/
def Dev.writeSrv (d : Dev) (r : RegDef) (v : W64) (i j : Nat) : Dev :=
  if r.addr = Reg.SRV_AXIS_CTL.addr then d.writeAxisCtl i v
  else
    let ok : Bool :=
      if r.addr = Reg.SRV_AXIS_CUR.addr then
        let trip := Reg.SRV_AXIS_CUR_I_TRIP.of v
        let imax := Reg.SRV_AXIS_CUR_I_MAX.of v
        let hyst := Reg.SRV_AXIS_CUR_HYST.of v
        (d.axis i).st == .off && 1 ≤ trip && trip ≤ 32767 && 1 ≤ imax && imax ≤ 32767 && 16 ≤ hyst && hyst ≤ 8192 &&
          2 * imax + hyst < 2 * trip
      else if r.addr = Reg.SRV_AXIS_LOOP.addr then
        let m := Reg.SRV_AXIS_LOOP_VREF_MAX.of v
        (d.axis i).st == .off && 1 ≤ m && m ≤ 0x7FFFFFFF && Reg.SRV_AXIS_LOOP_ACQ_STEP.of v != 0
      else if r.addr = Reg.SRV_AXIS_PERR.addr then (d.axis i).st == .off && Reg.SRV_AXIS_PERR_PERR_TICKS.of v != 0
      else if r.addr = Reg.SRV_BANK_CFG.addr then Reg.SRV_BANK_CFG_MODE.of v != 3
      else true
    d.storeIf Reg.SRV_STATUS_REFUSED ok r v i j

/-! ## Meanings -/

/-- VELOCITY_TICK (R265). -/
def execVelocityTick (ax : Nat) (code : BitVec 24) (late : Bool) (s : State) : Host.Outcome State Fault Refusal :=
  s.mainOnly { s with dev := s.dev.velocityTick ax code.toNat late }

/-- POSITION_TICK (R265). -/
def execPositionTick (ax : Nat) (code : BitVec 24) (late : Bool) (s : State) : Host.Outcome State Fault Refusal :=
  s.mainOnly { s with dev := s.dev.positionTick s.mem ax code.toNat late }

/-- CURRENT_DECISION (R262). -/
def execCurrentDecision (ax : Nat) (sensed : BitVec 20) (hiHeld loHeld : Bool) (tripHeld : BitVec 2) (s : State) :
    Host.Outcome State Fault Refusal :=
  s.mainOnly { s with dev := s.dev.currentDecision ax sensed.toInt hiHeld loHeld tripHeld }

/-- PERR_TICKS_REACHED (R277). -/
def execPerrTicksReached (ax : Nat) (s : State) : Host.Outcome State Fault Refusal :=
  s.mainOnly { s with dev :=
            if (s.dev.axis ax).st == .closed && (s.dev.axis ax).perrRun ≥ s.dev.act Reg.SRV_AXIS_PERR_PERR_TICKS ax then
              s.dev.axisFault ax 0 0x5001 0
            else s.dev }

/-- STUCK_BEATS_REACHED (R277). -/
def execStuckBeatsReached (ax : Nat) (s : State) : Host.Outcome State Fault Refusal :=
  s.mainOnly { s with dev :=
            if (s.dev.axis ax).stuckRun ≥ s.dev.act Reg.SRV_AXIS_CTL_STUCK_BEATS ax then s.dev.axisFault ax 2 0x5003 0 else s.dev }

/-- CUR_SENSE_COUNT_REACHED (R277). -/
def execCurSenseCountReached (ax : Nat) (s : State) : Host.Outcome State Fault Refusal :=
  s.mainOnly { s with dev := if (s.dev.axis ax).senseRun ≥ 4 then s.dev.axisFault ax 3 0x5004 0 else s.dev }

/-- POS_QUAL_REACHED (R260). -/
def execPosQualReached (ax : Nat) (s : State) : Host.Outcome State Fault Refusal :=
  s.mainOnly { s with dev :=
            if (s.dev.axis ax).rangeRun ≥ s.dev.act Reg.SRV_AXIS_CTL_POS_QUAL ax then s.dev.axisFault ax 4 0x5005 0 else s.dev }

/-- GATE_READBACK_MISMATCH (R277): the gates that differ for more than 8 cycles; none where the levels agree again. -/
def execGateReadbackMismatch (ax : Nat) (gates : BitVec 4) (s : State) : Host.Outcome State Fault Refusal :=
  let d := s.dev.updAxis ax (fun x => { x with gateBad := gates.toNat, gateWas := s.dev.gateLevels ax })
  s.mainOnly { s with dev := if gates.toNat != 0 then d.axisFault ax 5 0x5006 (gates.toNat * 64) else d }

/-- ACQUIRE_TIMEOUT_EXPIRY (R275). -/
def execAcquireTimeoutExpiry (ax : Nat) (s : State) : Host.Outcome State Fault Refusal :=
  let t := s.dev.act Reg.SRV_AXIS_PERR_ACQ_TIMEOUT ax
  s.mainOnly { s with dev :=
            if (s.dev.axis ax).st == .acquire && ((t != 0 && (s.dev.axis ax).acqTicks ≥ t) || !s.dev.hasRef ax) then
              s.dev.axisFault ax 6 0x5007 (bit (!s.dev.hasRef ax) * 64)
            else s.dev }

/-- SRV_COMMIT_EFFECT (R271). -/
def execSrvCommitEffect (s : State) : Host.Outcome State Fault Refusal := s.mainOnly { s with dev := s.dev.srvEffect }

/-- AXIS_ENABLE (R275): a write of SRV_AXIS_a_CTL with EN 1. -/
def execAxisEnable (_src : Source) (ax : Nat) (v : W64) (s : State) : Host.Outcome State Fault Refusal :=
  s.mainOnly { s with dev := if ax < 48 && Reg.SRV_AXIS_CTL_EN.of v == 1 then s.dev.writeAxisCtl ax v else s.dev }

/-- AXIS_DISABLE (R275): a write of SRV_AXIS_a_CTL with EN 0. -/
def execAxisDisable (_src : Source) (ax : Nat) (v : W64) (s : State) : Host.Outcome State Fault Refusal :=
  s.mainOnly { s with dev := if ax < 48 && Reg.SRV_AXIS_CTL_EN.of v == 0 then s.dev.writeAxisCtl ax v else s.dev }

/-- AXIS_FAULT_CLEAR (R279): a write of 1s to cause bits. -/
def execAxisFaultClear (_src : Source) (ax : Nat) (v : W64) (s : State) : Host.Outcome State Fault Refusal :=
  s.mainOnly { s with dev := if ax < 48 then s.dev.store Reg.SRV_AXIS_FAULT v ax 0 else s.dev }

end Sys2Proof.Machine
end

