-- ==== Sys2Proof/Machine/Thm.lean ====
section
/-!
DEFINITION. THM: sensors, thresholds, throttling, the shutdown latch and its registers (chapter 18); what is left of the device
when its main domain is lost (R58, R505, R555).
-/
namespace Sys2Proof.Machine

/-! ## Losing the main domain (R58, R505, R507) -/

/-- The events still on their way reach the log, in stamp order; nothing more is written to a ring (R58, R59). -/
def Dev.flushLog (d : Dev) : Dev :=
  let d' := (d.ev.merge.filter (·.isEvent)).foldl (fun (d : Dev) x => d.logEvent x) d
  { d' with ev.merge := [] }

/-- The register fields of the standby domain: all of THM (R28). -/
def standbyFields (m : FieldMap) : FieldMap := m.filter (fun p => 0xF00000 * 64 ≤ p.1)

/-- Every unit on the main domain is held in reset; the standby domain goes on (R27, R28, R505, R555). -/
def Dev.mainLost (d : Dev) : Dev :=
  let d := d.flushLog
  let k := standbyFields
  let r : Dev := {}
  { r with regs := { rw := k d.regs.rw, rwAct := k d.regs.rwAct, w1c := k d.regs.w1c, cnt := k d.regs.cnt, rol := k d.regs.rol },
           ev.out := d.ev.out, freeCount := d.freeCount, thm := { d.thm with chans := 0 }, cal.store := d.cal.store,
           mgt := { d.mgt with exporting := none }, pwr := { d.pwr with isl := [], idle := [], wake := [] },
           safe.kickAt := d.safe.kickAt }

/-! ## Readings and tests (R500 to R502) -/

/-- Sensor `s`. -/
def Dev.sensor (d : Dev) (s : Nat) : Sensor := at' d.thm.sens s

/-- Change sensor `s`. -/
def Dev.updSens (d : Dev) (s : Nat) (f : Sensor → Sensor) : Dev := { d with thm.sens := upd d.thm.sens s f }

/-- A threshold of sensor `s`. -/
def Dev.thresh (d : Dev) (f : Field) (s : Nat) : Int := signed 16 (d.cur f s)

/-- An event of sensor `s`, with its reading (R513). -/
def Dev.thmEvent (d : Dev) (src s code : Nat) (extra : Nat := 0) : Dev :=
  d.raise src s code (s + extra) [pack [(unsigned 16 (d.sensor s).temp, 48)]]

/-- A reading is valid: there is one, and a remote one lies within -40 °C to +150 °C (R500). -/
def validReading (s : Nat) (r : Option Int) : Option Int :=
  r.bind (fun t => if s < 16 && (t < -640 || t > 2400) then none else some t)

/-- Take a reading in: fault or recovery, the last valid value and the peak (R500, R512). -/
def Dev.takeReading (d : Dev) (s : Nat) (r : Option Int) : Dev :=
  let was := (d.sensor s).fault
  match r with
  | none => if was then d else (d.updSens s (fun x => { x with fault := true })).thmEvent 240 s 0xF007
  | some t =>
    let p := match (d.sensor s).peak with | some p => max p t | none => t
    let d := d.updSens s (fun x => { x with fault := false, temp := t, read := true, peak := some p })
    let d := d.setCount Reg.THM_SENS_STATUS_PEAK (unsigned 16 p) s
    if was then d.thmEvent 240 s 0xF008 else d

/-- GRACE_MS has elapsed since THROTTLE_REQ, on the standby clock (R502). -/
def Dev.graceOver (d : Dev) (s : Nat) : Bool :=
  d.pwr.clock - (d.sensor s).graceAt ≥ (d.cur Reg.THM_CTL_GRACE_MS : Int) * 1000000 * nsUnit

/-- THROTTLE_ENFORCE (R502, R503). -/
def Dev.enforce (d : Dev) (s : Nat) : Dev := (d.updSens s (fun x => { x with st := .enforced })).thmEvent 241 s 0xF004

/-- THROTTLE_REQ: the grace starts, and with GRACE_MS 0 is over at once (R502). -/
def Dev.throttleReq (d : Dev) (s : Nat) : Dev :=
  let d := (d.updSens s (fun x => { x with st := .grace, graceAt := d.pwr.clock })).thmEvent 241 s 0xF003
  if d.cur Reg.THM_CTL_GRACE_MS == 0 then d.enforce s else d

/-- THERM_SHUTDOWN sets the latch: the event reaches the log, and the main domain is held in reset (R505). -/
def Dev.thermShutdown (d : Dev) (s : Nat) : Dev :=
  let d := (d.calAbort.thmEvent 242 s 0xF006).mainLost
  { d with thm.latch := true }

/-- The tests of R502 on a sample of sensor `s`; `t` is the reading where it is valid. -/
def Dev.thermTests (d : Dev) (s : Nat) (t : Option Int) : Dev :=
  let beyond := fun (x : Int) => match t with | some t => decide (x ≤ t) | none => false
  let hyst : Int := d.cur Reg.THM_SENS_THRESH_HYST s
  let under := fun (x : Int) => match t with | some t => decide (t < x - hyst) | none => false
  let warn := d.thresh Reg.THM_SENS_THRESH_WARN s
  let throt := d.thresh Reg.THM_SENS_THRESH_THROT s
  let st := (d.sensor s).st
  let hot := beyond throt || ((d.sensor s).fault && d.cur Reg.THM_SENS_CFG_FAULT_THROT s == 1)
  let rest : SensState := if under warn then .normal else .warn
  if beyond (d.thresh Reg.THM_SENS_THRESH_SHUT s) && d.cur Reg.THM_SENS_CFG_SHUT_EN s == 1 then d.thermShutdown s
  else if (st == .normal || st == .warn) && hot then d.throttleReq s
  else if st == .grace && under throt then (d.updSens s (fun x => { x with st := rest })).thmEvent 241 s 0xF005
  else if st == .grace && d.graceOver s then d.enforce s
  else if st == .enforced && under throt then (d.updSens s (fun x => { x with st := rest })).thmEvent 241 s 0xF005 256
  else if st == .normal && beyond warn then (d.updSens s (fun x => { x with st := .warn })).thmEvent 240 s 0xF001
  else if st == .warn && under warn then (d.updSens s (fun x => { x with st := .normal })).thmEvent 240 s 0xF002
  else d

/-! ## Enforcement (R503) and the window (R504) -/

/-- Some sensor of role DIE is ENFORCED. -/
def Dev.dieEnforced (d : Dev) : Bool :=
  (List.range 24).any (fun s => (d.sensor s).st == .enforced && d.cur Reg.THM_SENS_CFG_ROLE s == 1)

/-- The channels on which some sensor of role CHAN is ENFORCED, as a mask. -/
def Dev.chanEnforced (d : Dev) : Nat :=
  bitset 16 (fun n => (List.range 16).any (fun s =>
    (d.sensor s).st == .enforced && d.cur Reg.THM_SENS_CFG_ROLE s == 2 && d.cur Reg.THM_SENS_CFG_CH s == n))

/-- At a beat edge MSN and LSR learn what the throttle enforces (R206, R503). -/
def Dev.settleThermal (d : Dev) : Dev :=
  let now := d.chanEnforced
  let old := d.thm.chans
  let d := ({ d with msn.dieHold := d.dieEnforced, thm.chans := now }).settleHold
  forRange 16 d (fun d n =>
    if bitOf now n && !bitOf old n then (d.holdChan n 0 0x4009 n).calWatch
    else if bitOf old n && !bitOf now n then d.releaseChan n 0
    else d)

/-- WINDOW_OK: every on-die sensor's last reading lies between 0 °C and +95 °C (R504). -/
def Dev.windowOk (d : Dev) : Bool :=
  (List.range 8).all (fun i =>
    let x := d.sensor (16 + i)
    x.read && !x.fault && decide (0 ≤ x.temp) && decide (x.temp ≤ 1520))

/-- FAST: the sensor is in fault, or its last valid reading lies within 5 °C of a threshold or release point (R501). -/
def Dev.fastSensor (d : Dev) (s : Nat) : Bool :=
  let x := d.sensor s
  let hyst : Int := d.cur Reg.THM_SENS_THRESH_HYST s
  let near := fun (f : Field) =>
    let t := d.thresh f s
    (x.temp - t).natAbs ≤ 80 || (x.temp - (t - hyst)).natAbs ≤ 80
  x.st != .off && (x.fault || (x.read &&
    (near Reg.THM_SENS_THRESH_WARN || near Reg.THM_SENS_THRESH_THROT || near Reg.THM_SENS_THRESH_SHUT)))

/-- The time between two samples of sensor `s` has passed on the standby clock: 5 ms where it is FAST, else 100 ms (R501). -/
def Dev.sampleDue (d : Dev) (s : Nat) : Bool :=
  match (d.sensor s).sampledAt with
  | none => true
  | some t => decide (d.pwr.clock - t ≥ (if d.fastSensor s then 5 else 100) * 1000000 * nsUnit)

/-- The reading, in 1/16 °C, of what sensor `s` shows: a diode's temperature, or the resistance of an NTC in Ω by the formula of R485, to the
nearest step. Where that formula divides by 0 the reading is open. -/
def Dev.sensorTemp (d : Dev) (s : Nat) (raw : Option Int) : Option Int × Dev :=
  if s < 16 && d.cur Reg.THM_SENS_CFG_TYPE s == 2 then
    match raw with
    | none => (none, d)
    | some r => match ntcTemp r.toNat (10 * d.cur Reg.THM_SENS_CFG_R26 s) (d.cur Reg.THM_SENS_CFG_BETA s) with
      | some t => (some ((t + 134217728) / 268435456), d)
      | none => let (v, d) := d.free; (some (v : Int), d)
  else (raw, d)

/-- THERMAL_SAMPLE (R500 to R502): sensors run while standby power is present. -/
def Dev.thermalSample (d : Dev) (s : Nat) (raw : Option Int) : Dev :=
  if s ≥ 24 || (d.sensor s).st == .off || !d.pwr.standby || !d.sampleDue s then d
  else
    let (r, d) := (d.updSens s (fun x => { x with sampledAt := some d.pwr.clock })).sensorTemp s raw
    let t := validReading s r
    (d.takeReading s t).thermTests s t

/-! ## Register writes (R508, R510, R511) -/

/-- The order and ranges of a threshold register (R511). -/
def threshOk (s : Nat) (v : W64) : Bool :=
  let f := fun (x : Field) => signed 16 (x.of v)
  let h := Reg.THM_SENS_THRESH_HYST.of v
  f Reg.THM_SENS_THRESH_WARN < f Reg.THM_SENS_THRESH_THROT && f Reg.THM_SENS_THRESH_THROT < f Reg.THM_SENS_THRESH_SHUT &&
    16 ≤ h && h ≤ 320 && (s < 16 || f Reg.THM_SENS_THRESH_SHUT ≤ 1840)

/-- A write of THM_SENS_s_CFG (R510): a TYPE switches a remote sensor off or on. -/
def Dev.writeSensCfg (d : Dev) (s : Nat) (v : W64) : Dev :=
  let st := (d.sensor s).st
  let type := Reg.THM_SENS_CFG_TYPE.of v
  if s ≥ 16 then d
  else if !(st == .off || st == .normal || st == .warn) || type == 3 || Reg.THM_SENS_CFG_ROLE.of v == 3 then
    d.refuse Reg.THM_STATUS_REFUSED
  else (d.store Reg.THM_SENS_CFG v s 0).updSens s (fun x =>
    if type == 0 then { x with st := .off, fault := false } else if x.st == .off then { x with st := .normal } else x)

/-- A write of a THM register (R508 to R512). -/
def Dev.writeThm (d : Dev) (r : RegDef) (v : W64) (i j : Nat) : Dev :=
  if r.addr = Reg.THM_SENS_CFG.addr then d.writeSensCfg i v
  else
    let ok : Bool :=
      if r.addr = Reg.THM_CTL.addr then Reg.THM_CTL_GRACE_MS.of v ≤ 60000
      else if r.addr = Reg.THM_SENS_THRESH.addr then threshOk i v
      else true
    d.storeIf Reg.THM_STATUS_REFUSED ok r v i j

/-! ## Meanings -/

/-- THERMAL_SAMPLE (R502). -/
def execThermalSample (sn : Nat) (reading : Option Int) (s : State) : Host.Outcome State Fault Refusal :=
  .next { s with dev := s.dev.thermalSample sn reading }

/-- GRACE_EXPIRY (R502, R503). -/
def execGraceExpiry (sn : Nat) (s : State) : Host.Outcome State Fault Refusal :=
  .next { s with dev := if (s.dev.sensor sn).st == .grace && s.dev.graceOver sn then s.dev.enforce sn else s.dev }

end Sys2Proof.Machine
end

