-- ==== Sys2Proof/Machine/Cal.lean ====
section
/-!
DEFINITION. The calibration unit: grid loads and swaps, calibrations, the store and CAL_RECALL (R153, R155, R514 to R526).
-/
namespace Sys2Proof.Machine

/-! ## One entry at a time (R519) -/

/-- The calibration unit is at work on an entry. -/
def Dev.calBusy (d : Dev) : Bool :=
  d.cal.run.isSome || d.pth.load.isSome || (List.range 16).any (fun n => (d.piste n).swap.isSome)

/-- Run the CAL entry at the front of ring `n`, of opcode `op`, if it is the unit's next and the unit is idle. -/
def Dev.withCal (d : Dev) (n op : Nat) (f : Dev → Entry → Dev) : Dev :=
  match d.front n 8 op with
  | some e => if d.calBusy || !d.isNext 8 e then d else f d e
  | none => d

/-- Take a CAL entry and complete it: the calibration unit is source 9 (R526). -/
def Dev.calDone (d : Dev) (e : Entry) (code : Nat) (detail : Nat := 0) (payload : List W64 := []) : Dev :=
  (d.pop e.ring).complete e 9 code detail payload

/-! ## GRID_LOAD (R155, R519) -/

/-- The bytes of a grid slot (R153). -/
def gridBytes : Nat := 532576

/-- A channel uses grid slot `k`. -/
def Dev.slotUsed (d : Dev) (k : Nat) : Bool :=
  (List.range 16).any (fun n => (d.piste n).slot == k || (match (d.piste n).swap with | some x => x.1 == k | none => false))

/-- GRID_LOAD: the load starts (R155, R519). -/
def Dev.gridLoad (d : Dev) (n : Nat) : Dev :=
  d.withCal n 1 (fun d e =>
    let k := e.f 2 4 0
    let host := e.f 2 8 8 == 0
    if e.f 1 5 0 != 0 || k > 16 then d.calDone e 0x0304
    else if d.slotUsed k then d.calDone e 0x3007 k
    else if (e.sched && d.beatAhead e.startBeat) || (host && !d.canRequest) then d
    else
      let d : Dev := { d.pop n with pth.load := some { entry := e, slot := k } }
      if host then d.emit (.hostRead (e.w 1).toNat gridBytes) else d)

/-- VALID 0 in the header of slot `k` (R155). -/
def Mem.clearValid (m : Mem) (k : Nat) : Mem :=
  m.putMapped (gridAddr k + 40) (leBytes 8 (wbits (slotWord m k 5) 62 0))

/-- GRID_LOAD_COMPLETE: the bytes land; a failed read leaves what came before it, with VALID 0 (R155). A DRAM source is read from the
DRAM, and what the command carries then only says whether its read failed. The code of a failed DRAM read is not stated. -/
def Dev.gridLoadComplete (d : Dev) (m : Mem) (rd : HostRead) : Mem × Dev :=
  match d.pth.load with
  | none => (m, d)
  | some g =>
    let e := g.entry
    let a := gridAddr g.slot
    let d : Dev := { d with pth.load := none }
    let failed := fun (m : Mem) (bs : List Byte) => (m.putMapped a (bs.take gridBytes)).clearValid g.slot
    if e.f 2 8 8 == 0 then
      match rd with
      | .ok bs => (m.putMapped a (bs.take gridBytes), d.complete e 9 0)
      | .fail got =>
        let ix := [BitVec.ofNat 64 (d.ring e.ring).index]
        (failed m got, (d.complete e 9 0x1006 e.ring ix).ringError e.ring 16 0x1006)
    else
      let src := (e.w 1).toNat
      let top := gib * (d.ddrSize 0 + d.ddrSize 1)
      let bytes := d.dramGet m src gridBytes
      let bad := fun (d : Dev) (k : Nat) =>
        let (v, d) := d.free
        (failed m (bytes.take k), d.complete e 9 (1 + v % 65535))
      if !d.dramOk src gridBytes then bad (d.dramAddrErr (max src top) 5) (top - src)
      else match rd with
        | .ok _ => (m.putMapped a bytes, d.complete e 9 0)
        | .fail got => bad (d.dramRead (src + min got.length (gridBytes - 1)) 5 .uncorrectable) got.length

/-! ## GRID_SWAP (R155, R156) -/

/-- The header and nodes of slot `k` pass the checks of GRID_BAD. -/
def gridGood (m : Mem) (k : Nat) : Bool :=
  let w := fun i => slotWord m k i
  let pitch := slotPitch m k
  let far := fun (o : Int) => decide (o + 128 * (pitch : Int) ≤ 2147483647)
  wbits (w 5) 63 63 == 1 && wbits (w 5) 62 0 == 0 && wbits (w 1) 31 0 == 0 && wbits (w 3) 31 0 == 0 && w 6 == 0 && w 7 == 0 &&
    decide (256 ≤ pitch) && decide (pitch ≤ 16777216) && decide (slotZ1 m k - slotZ0 m k ≥ 16) &&
    far (slotOx m k) && far (slotOy m k) &&
    wbits (w 3) 63 32 == crc32 (readBytes m.sram (gridAddr k + 64) 532512)

/-- A poisoned word of slot `k`. -/
def gridPoison (m : Mem) (k : Nat) : Option Nat :=
  m.poisoned.find? (fun p => gridAddr k / 8 ≤ p && p < (gridAddr k + gridBytes) / 8)

/-- GRID_SWAP: the checks, and the swap that waits for its tick (R155). Which word an uncorrectable read met is not stated. -/
def Dev.gridSwap (d : Dev) (m : Mem) (n : Nat) (ecc : EccRead) : Dev :=
  d.withCal n 2 (fun d e =>
    let c := e.f 1 3 0
    let k := e.f 1 12 8
    if k > 16 then d.calDone e 0x0304
    else
      let hit := gridPoison m k
      let ue := hit.isSome || ecc == .uncorrectable
      let (v, d) := if ue && hit.isNone then d.free else (0, d)
      let a := match hit with | some p => p * 8 | none => gridAddr k + 8 * (v % (gridBytes / 8))
      let d := d.sramRead 3 a (if ue then .uncorrectable else ecc)
      if ue || !gridGood m k then d.calDone e 0x3005 k
      else if !d.fieldFits m c k then d.calDone e 0x3006 (c + k * 16)
      else if (List.range 16).any (fun j => j != c && (d.piste j).slot == k) then d.calDone e 0x3007 k
      else (d.pop n).updPiste c (fun p => { p with swap := some (k, e) }))

/-- The head reference of the sample of this beat lies on a dark part of the path, skews included (R155). -/
def Dev.headDark (d : Dev) (n : Nat) : Bool :=
  let t := d.tb + d.lead n
  (d.piste n).planned.all (fun q => !(q.on < q.off && q.on ≤ t && t < q.off))

/-- GRID_SWAP_EFFECT: in cycle 0 of a position tick (R155, R181). -/
def Dev.gridSwapEffect (d : Dev) (n : Nat) : Dev :=
  let p := d.piste n
  match p.swap with
  | none => d
  | some (k, e) =>
    if !d.beatMultiple 16 || d.tmb.cycle != 0 || (e.sched && d.beatAhead e.startBeat) ||
        !(p.st == .off || p.st == .parked || d.headDark n) then d
    else
      let d := d.updPiste n (fun p => { p with slot := k, swap := none })
      let d := (d.complete e 9 0).raise (48 + n) n 0x3008 (n + k * 16 + p.slot * 512) (d.chanWords n)
      d.staleZones n

/-! ## Calibration kinds (R514, R517, R521) -/

/-- UNIT is in range for a kind (R514). -/
def calUnitOk (kind unit : Nat) : Bool :=
  match kind with
  | 1 => unit == 0
  | 2 | 3 | 4 | 5 => unit < 16
  | 6 => unit < 32
  | 7 => unit < 10
  | _ => false

/-- How long each run of a kind lasts, in beats (R514). -/
def calHalf (kind : Nat) : Int :=
  match kind with
  | 1 => 120000 | 2 => 60000 | 3 => 400000 | 4 => 1800000 | 5 => 600000 | 6 => 400000 | _ => 300000

/-- The values of a kind that the two runs are compared on (R517, R521). -/
def calCount (kind marks : Nat) : Nat :=
  match kind with
  | 1 => 16 | 2 => 3 | 4 => marks | 5 => 289 | 6 => 2 * marks | _ => 1

/-- Points in the result record (R521). -/
def calPoints (kind marks : Nat) : Nat := if kind == 3 || kind == 7 then 0 else calCount kind marks

/-- The four trims of a MPM_CHAN_n_TRIM value: two gains and two signed offsets (R248). -/
def mpmTrims (v : Int) : List Int :=
  let w := unsigned 64 v
  [bitsOf w 63 48, signed 16 (bitsOf w 47 32), bitsOf w 31 16, signed 16 (bitsOf w 15 0)]

/-- The two trims of a SRV_AXIS_a_TRIM value (R286). -/
def srvTrims (v : Int) : List Int :=
  let w := unsigned 64 v
  [signed 32 (bitsOf w 63 32), bitsOf w 31 0]

/-- What is compared and averaged of one measured value, and the unit of the comparison (R514, R517). -/
def calValues (kind : Nat) (p : CalPoint) : List Int × Nat :=
  match kind with
  | 1 => (mpmTrims p.v, 1)
  | 2 => (srvTrims p.v, 1)
  | 4 | 6 => ([p.x, p.y], 16)
  | 7 => ([p.x, p.y], 1)
  | _ => ([p.v], 1)

/-- The difference between two runs of one value, in the kind's TOL unit, rounded up (R514, R517). -/
def calDiff (kind : Nat) (a b : CalPoint) : Nat :=
  let (xs, u) := calValues kind a
  let (ys, _) := calValues kind b
  let far := (xs.zip ys).foldl (fun (m : Nat) p => max m (p.1 - p.2).natAbs) 0
  (far + (u - 1)) / u

/-- The mean of two values, rounded half up (R517). -/
def meanUp (a b : Int) : Int := (a + b + 1) / 2

/-- The mean of two trims, field by field. -/
def meanTrims (xs ys : List Int) (width : Nat) : Nat :=
  (xs.zip ys).foldl (fun (a : Nat) p => a * 2 ^ width + unsigned width (meanUp p.1 p.2)) 0

/-- Node (i, k) of the field map of channel `n` in bu, rounded down (R233). -/
def Dev.mapNodeAt (d : Dev) (n e : Nat) : Int × Int :=
  let (x0, x1, y0, y1) := d.field n
  (x0 + (e % 17 : Nat) * (x1 - x0) / 16, y0 + (e / 17 : Nat) * (y1 - y0) / 16)

/-- The channel of point `i` of a mark calibration: CH_LO's marks come first, then CH_HI's (R521). -/
def Dev.markChannel (d : Dev) (kind unit marks i : Nat) : Nat :=
  if kind == 4 then unit
  else if i < marks then d.cur Reg.PTH_SEAM_CFG_CH_LO unit else d.cur Reg.PTH_SEAM_CFG_CH_HI unit

/-- The two words of point `i` of the record (R521). -/
def Dev.calPointWords (d : Dev) (kind unit marks i : Nat) (a b : CalPoint) : List W64 :=
  let x := meanUp a.x b.x
  let y := meanUp a.y b.y
  let v := meanUp a.v b.v
  match kind with
  | 1 => [BitVec.ofNat 64 (meanTrims (mpmTrims a.v) (mpmTrims b.v) 16), pack [(unsigned 32 y, 32), (unsigned 1 x, 0)]]
  | 2 => [BitVec.ofNat 64 (meanTrims (srvTrims a.v) (srvTrims b.v) 32), 0]
  | 5 =>
    let (nx, ny) := d.mapNodeAt unit i
    [pack [(unsigned 32 nx, 32), (unsigned 32 ny, 0)], pack [(unsigned 16 x, 48), (unsigned 16 v, 32)]]
  | _ => [pack [(unsigned 32 x, 32), (unsigned 32 y, 0)],
      pack [(calDiff kind a b % 2 ^ 32, 32), (unsigned 16 v, 16), (d.markChannel kind unit marks i, 0)]]

/-- The result record: header and points (R521). -/
def Dev.calRecord (d : Dev) (kind unit marks : Nat) (r1 r2 : List CalPoint) : List W64 :=
  let n := calPoints kind marks
  let at' := fun (l : List CalPoint) (i : Nat) => l.getD i default
  let a := at' r1 0
  let b := at' r2 0
  let w4 : W64 := match kind with
    | 3 => pack [(unsigned 16 (meanUp a.v b.v), 0)]
    | 7 => pack [(unsigned 32 (meanUp a.x b.x), 32), (unsigned 32 (meanUp a.y b.y), 0)]
    | _ => 0
  [pack [(kind, 56), (unit, 48), (n, 32)]] ++ (d.stamp 9).words ++
    [BitVec.ofNat 64 (d.act Reg.MGT_CAL_TOL_TOL (kind - 1)), w4, 0, 0, 0] ++
    (List.range n).flatMap (fun i => d.calPointWords kind unit marks i (at' r1 i) (at' r2 i))

/-! ## Applying a result (R518, R523) -/

/-- Word `j` of point `i` of a record. -/
def recordPoint (ws : List W64) (i j : Nat) : W64 := ws.getD (8 + 2 * i + j) 0

/-- The largest offset between the two lasers' marks of a seam registration, in 1/16 µm (R181). -/
def seamResidual (ws : List W64) (marks : Nat) : Nat :=
  (List.range marks).foldl (fun (m : Nat) i =>
    let a := recordPoint ws i 0
    let b := recordPoint ws (i + marks) 0
    let gap := fun (hi lo : Nat) => (signed 32 (wbits a hi lo) - signed 32 (wbits b hi lo)).natAbs
    max m ((max (gap 63 32) (gap 31 0) + 8) / 16)) 0

/-- The register writes that apply a record (R518): SEAM_REG's go to its zone. -/
def Dev.calWrites (d : Dev) (kind unit : Nat) (ws : List W64) : Dev :=
  match kind with
  | 1 => forRange 16 d (fun d n => d.writeMpm Reg.MPM_CHAN_TRIM (recordPoint ws n 0) n 0)
  | 2 => forRange 3 d (fun d a => d.store Reg.SRV_AXIS_TRIM (recordPoint ws a 0) (3 * unit + a) 0)
  | 3 => d.writePth Reg.PTH_TIMING (ws.getD 4 0) unit 0
  | 5 => forRange 289 d (fun d e =>
      let g := wbits (recordPoint ws e 1) 47 32
      if e / 4 ≥ 72 then d.setShadow Reg.MPM_MAP72_GAIN0 g unit
      else match e % 4 with
        | 0 => d.setShadow Reg.MPM_MAP_GAIN0 g unit (e / 4)
        | 1 => d.setShadow Reg.MPM_MAP_GAIN1 g unit (e / 4)
        | 2 => d.setShadow Reg.MPM_MAP_GAIN2 g unit (e / 4)
        | _ => d.setShadow Reg.MPM_MAP_GAIN3 g unit (e / 4))
  | 6 => { d with pth.zones := upd d.pth.zones unit (fun z =>
      { z with regValid := true, residual := min 65535 (seamResidual ws (wbits (ws.getD 0 0) 47 32 / 2)) }) }
  | 7 => d.writeLnk .sideband Reg.LNK_BL_ASYM (ws.getD 4 0) unit 0
  | _ => d

/-- The block whose REFUSED bit shows that a write applying a kind was refused. -/
def calBlock (kind : Nat) : Nat := match kind with | 3 => 3 | 7 => 11 | _ => 6

/-- Apply a record; none where a write that it needs is refused (R523). -/
def Dev.calApply (d : Dev) (kind unit : Nat) (ws : List W64) : Option Dev :=
  match refusedBit (calBlock kind) with
  | none => some (d.calWrites kind unit ws)
  | some f =>
    let w := (d.setFlag f 0).calWrites kind unit ws
    if w.flag f == 0 then some (w.setFlag f (d.flag f)) else none

/-! ## CAL_RUN (R515, R516, R520) -/

/-- The checks of BAD_CAL that the body alone decides (R520). -/
def calBodyBad (e : Entry) : Bool :=
  let kind := e.f 1 3 0
  let marked := kind == 4 || kind == 6
  !calUnitOk kind (e.f 1 15 8) || e.f 2 5 0 != 0 || (marked && e.f 3 2 0 != 0) ||
    (marked && (e.f 4 31 16 == 0 || e.f 4 31 16 > 289)) || (4 ≤ kind && kind ≤ 6 && e.f 4 15 0 == 0)

/-- The marks of a fiducial table (R520). -/
def tableMarks (bytes : List Byte) (n : Nat) : List (Int × Int) :=
  (leWords n bytes).map (fun w => (signed 32 (wbits w 63 32), signed 32 (wbits w 31 0)))

/-- A mark lies in the field of channel `n`. -/
def Dev.markInField (d : Dev) (n : Nat) (p : Int × Int) : Bool :=
  let (x0, x1, y0, y1) := d.field n
  x0 ≤ p.1 && p.1 ≤ x1 && y0 ≤ p.2 && p.2 ≤ y1

/-- The channels whose field a fiducial table must lie in. -/
def Dev.calFields (d : Dev) (kind unit : Nat) : List Nat :=
  if kind == 6 then [d.cur Reg.PTH_SEAM_CFG_CH_LO unit, d.cur Reg.PTH_SEAM_CFG_CH_HI unit] else [unit]

/-- Accept or reject a CAL_RUN whose table, where it has one, is read (R520). -/
def Dev.calAccept (d : Dev) (e : Entry) (marks : List (Int × Int)) : Dev :=
  let kind := e.f 1 3 0
  let unit := e.f 1 15 8
  let unmet := d.calUnmet kind unit + (if d.tmb.run then 0 else 2 ^ 31)
  if (d.calFields kind unit).any (fun n => marks.any (fun p => !d.markInField n p)) then d.calDone e 0x0304
  else if unmet != 0 then d.calDone e 0x0303 unmet
  else { d.pop e.ring with cal.run := some { entry := e, kind, unit, since := d.beatWide, table := marks } }

/-- CAL_RUN (R520). -/
def Dev.calRun (d : Dev) (n : Nat) (table : HostRead) : Dev :=
  d.withCal n 3 (fun d e =>
    let kind := e.f 1 3 0
    let marks := e.f 4 31 16
    if calBodyBad e then d.calDone e 0x0304
    else if e.sched && d.beatAhead e.startBeat then d
    else if kind == 4 || kind == 6 then
      if !d.canRequest then d
      else
        let d := d.emit (.hostRead (e.w 3).toNat (8 * marks))
        match table with
        | .ok bs => d.calAccept e (tableMarks bs marks)
        | .fail _ => (d.pop n).bodyFetchErr e
    else d.calAccept e [])

/-- Every channel the calibration reserves has ended the work it had (R515). -/
def Dev.calDrained (d : Dev) : Bool :=
  (List.range 16).all (fun n =>
    let l := d.laser n
    !d.calReserved n || (l.st != .running && l.st != .plumeHeld && l.st != .stopping && l.queued.isNone && l.assigned.isNone))

/-- CAL_MEASUREMENT_START: the first run starts at a beat group boundary, the second when the first is over (R516). -/
def Dev.calStart (d : Dev) : Dev :=
  match d.cal.run with
  | none => d
  | some r =>
    if r.phase == .draining then
      if d.tmb.run && d.tmb.cycle == 0 && d.beatMultiple 64 && d.calUnmet r.kind r.unit == 0 && d.calDrained then
        { d with cal.run := some { r with phase := .run1, since := d.beatWide },
                 mpm.ch := if r.kind == 1 then d.mpm.ch.map (fun c => { c with out := true }) else d.mpm.ch }
      else d
    else if r.phase == .run1 && d.beatWide - r.since ≥ calHalf r.kind then
      { d with cal.run := some { r with phase := .run2, since := r.since + calHalf r.kind } }
    else d

/-- Count of a kind. -/
def Dev.updCal (d : Dev) (kind : Nat) (f : CalCount → CalCount) : Dev := { d with cal.counts := upd d.cal.counts kind f }

/-- The result goes to host memory where RESULT names an address (R520). -/
def Dev.putResult (d : Dev) (addr : W64) (ws : List W64) : Dev := if addr == 0 then d else d.emit (.hostWrite addr.toNat ws)

/-- CAL_RUN_COMPLETE: the second run ends (R517, R518, R521, R522). -/
def Dev.calComplete (d : Dev) (r1 r2 : List CalPoint) : Dev :=
  match d.cal.run with
  | none => d
  | some r =>
    let e := r.entry
    let marks := r.table.length
    let n := calCount r.kind marks
    if r.phase != .run2 || d.tmb.cycle != 0 || d.beatWide - r.since < calHalf r.kind || ((e.w 2) != 0 && !d.canRequest) then d
    else
      let diff := fun i => calDiff r.kind (r1.getD i default) (r2.getD i default)
      let worst := (List.range n).foldl (fun (a : Nat) i => max a (diff i)) 0
      let w4 := [pack [(worst % 2 ^ 32, 32), (calPoints r.kind marks, 0)]]
      let tol := d.act Reg.MGT_CAL_TOL_TOL (r.kind - 1)
      let d := d.calRelease
      match (List.range n).find? (fun i => decide (tol < diff i)) with
      | some i =>
        let d := d.updCal r.kind (fun c => { c with rejected := min (c.rejected + 1) 0xFFFFFFFF })
        (d.complete e 9 0x0301 i w4).raise 9 0 0x0301 i
      | none =>
        let d := d.updCal r.kind (fun c => { c with accepted := min (c.accepted + 1) 0xFFFFFFFF, last := d.ns })
        let ws := d.calRecord r.kind r.unit marks r1 r2
        let d := if r.kind == 6 || e.f 1 16 16 == 1 then d.calWrites r.kind r.unit ws else d
        let d := d.putResult (e.w 2) ws
        if e.f 1 17 17 == 0 then d.complete e 9 0 0 w4
        else if !d.windowOk then d.complete e 9 0x0305 0 w4
        else
          let store := d.cal.store.filter (fun x => !(x.kind == r.kind && x.unit == r.unit))
          ({ d with cal.store := store ++ [({ kind := r.kind, unit := r.unit, words := ws } : CalRecord)] } : Dev).complete e 9 0 0 w4

/-! ## CAL_RECALL (R519, R523) -/

/-- CAL_RECALL. -/
def Dev.calRecall (d : Dev) (n : Nat) : Dev :=
  d.withCal n 4 (fun d e =>
    let kind := e.f 1 3 0
    let unit := e.f 1 15 8
    if e.sched || !calUnitOk kind unit || e.f 2 5 0 != 0 then d.calDone e 0x0304
    else match d.cal.store.find? (fun x => x.kind == kind && x.unit == unit) with
      | none => d.calDone e 0x0306
      | some x =>
        if e.w 2 != 0 && !d.canRequest then d
        else if e.f 1 16 16 == 0 then (d.putResult (e.w 2) x.words).calDone e 0
        else match d.calApply kind unit x.words with
          | some d => (d.putResult (e.w 2) x.words).calDone e 0
          | none => d.calDone e 0x0303)

/-! ## Registers (R525) -/

/-- A write of MGT_CAL_TOL of kind `i + 1`: refused while that kind is in progress, and so is 0. -/
def Dev.writeCalTol (d : Dev) (v : W64) (i : Nat) : Dev :=
  let busy := match d.cal.run with | some r => r.kind == i + 1 | none => false
  d.storeIf Reg.MGT_CAL_STATUS_REFUSED (!busy && Reg.MGT_CAL_TOL_TOL.of v != 0) Reg.MGT_CAL_TOL v i

/-! ## Meanings -/

/-- GRID_LOAD (R155). -/
def execGridLoad (ring : Nat) (s : State) : Host.Outcome State Fault Refusal := s.mainOnly { s with dev := s.dev.gridLoad ring }

/-- GRID_LOAD_COMPLETE (R155). -/
def execGridLoadComplete (rd : HostRead) (s : State) : Host.Outcome State Fault Refusal :=
  let r := s.dev.gridLoadComplete s.mem rd
  s.mainOnly { s with mem := r.1, dev := r.2 }

/-- GRID_SWAP (R155). -/
def execGridSwap (ring : Nat) (ecc : EccRead) (s : State) : Host.Outcome State Fault Refusal :=
  s.mainOnly { s with dev := s.dev.gridSwap s.mem ring ecc }

/-- GRID_SWAP_EFFECT (R155). -/
def execGridSwapEffect (ch : Nat) (s : State) : Host.Outcome State Fault Refusal :=
  s.mainOnly { s with dev := s.dev.gridSwapEffect ch }

/-- CAL_RUN (R520). -/
def execCalRun (ring : Nat) (table : HostRead) (s : State) : Host.Outcome State Fault Refusal :=
  s.mainOnly { s with dev := s.dev.calRun ring table }

/-- CAL_MEASUREMENT_START (R516). -/
def execCalMeasurementStart (s : State) : Host.Outcome State Fault Refusal := s.mainOnly { s with dev := s.dev.calStart }

/-- CAL_RUN_COMPLETE (R517). -/
def execCalRunComplete (run1 run2 : List CalPoint) (s : State) : Host.Outcome State Fault Refusal :=
  s.mainOnly { s with dev := s.dev.calComplete run1 run2 }

/-- CAL_RECALL (R523). -/
def execCalRecall (ring : Nat) (s : State) : Host.Outcome State Fault Refusal := s.mainOnly { s with dev := s.dev.calRecall ring }

end Sys2Proof.Machine
end

