-- ==== Sys2Proof/Machine/Cam.lean ====
section
/-!
DEFINITION. CAM: camera ports, frames, the pipeline engines, corrections, outputs and capture entries (chapter 10).
-/
namespace Sys2Proof.Machine

/-! ## Ports and frames -/

/-- Port `c`. -/
def Dev.cport (d : Dev) (c : Nat) : CamPort := at' d.cam.port c

/-- Change port `c`. -/
def Dev.updCport (d : Dev) (c : Nat) (f : CamPort → CamPort) : Dev := { d with cam.port := upd d.cam.port c f }

/-- Bits per pixel of a data type (R291). -/
def dtBits (dt : Nat) : Nat := match dt with | 0x2A => 8 | 0x2B => 10 | 0x2C => 12 | _ => 14

/-- FLAGS bits (R308). -/
def flLineShort : Nat := 0
def flLineLong : Nat := 1
def flFrameShort : Nat := 2
def flFrameLong : Nat := 3
def flLineDrop : Nat := 4
def flCut : Nat := 5
def flCrc : Nat := 6
def flHdr : Nat := 7
def flNoFe : Nat := 8
def flTimeout : Nat := 9
def flOverrun : Nat := 10

/-- Word 4 of a camera event (R323). -/
def camWords (seq line : Nat) : List W64 := [pack [(seq % 2 ^ 32, 32), (line % 2 ^ 32, 0)]]

/-- Flag the open frame of port `c`; the event comes once per frame (R295, R323). -/
def Dev.flagFrame (d : Dev) (c fl code detail line : Nat) : Dev :=
  match (d.cport c).frame with
  | none => d
  | some f =>
    if bitOf f.flags fl then d
    else (d.updCport c (fun p => { p with frame := some { f with flags := f.flags + 2 ^ fl } })).raise (112 + c) c code
      (c + detail % 65536 * 65536) (camWords f.seq line)

/-- Lines in the buffer of port `c` as its peak (R321). -/
def Dev.notePeak (d : Dev) (c : Nat) : Dev := d.peak Reg.CAM_PORT_STATUS_BUF_PEAK (d.cport c).buf.length c

/-- Complete an entry of port `c` (R316). -/
def Dev.camDone (d : Dev) (c : Nat) (e : Entry) (code : Nat) (w4 : W64) : Dev :=
  d.complete e (112 + c) code (if code == 0 then 0 else c) [w4]

/-- Word 4 of a CAP_ARM's DONE entry as it stands (R316). -/
def CamPort.counts (p : CamPort) : W64 := pack [(p.closed % 2 ^ 32, 32), (p.flagged % 2 ^ 32, 0)]

/-! ## Opening and closing frames (R295, R296, R302) -/

/-- Open a frame on port `c` (R296, R302, R310). -/
def Dev.openFrame (d : Dev) (c frameNo : Nat) (arm : Entry) : Dev :=
  let p := d.cport c
  let coax := d.cur Reg.CAM_PORT_CFG_COAX_EN c == 1
  let n := d.cur Reg.CAM_PORT_CFG_COAX_CH c
  let (ex, ey) := if coax then d.emissionPoint n else (0, 0)
  let dt := d.cur Reg.CAM_PORT_CFG_DT c
  let f : CamFrame := {
    seq := p.seq, cap := p.capture, arm, frameNo, sof := d.stamp (112 + c), since := d.beatWide,
    width := d.cur Reg.CAM_PORT_GEOM_WIDTH c, height := d.cur Reg.CAM_PORT_GEOM_HEIGHT c, bits := dtBits dt,
    vc := d.cur Reg.CAM_PORT_CFG_VC c, dt, engine := d.cur Reg.CAM_PORT_CFG_ENGINE c,
    black := d.eff Reg.CAM_PORT_LEVEL_BLACK c, pad := d.eff Reg.CAM_PORT_LEVEL_PAD c, thresh := d.eff Reg.CAM_PORT_LEVEL_THRESH c,
    defects := p.defects, shading := p.shading, lut := p.lut, coax, bid := if coax then d.brickOn n else 0, ex, ey }
  d.updCport c (fun p => { p with st := .frame, frame := some f, discard := false, syncSaid := false })

/-- The open frame of port `c` closes and goes on to be written; `done` completes after its record. -/
def Dev.closeFrame (d : Dev) (c : Nat) (done : List (Entry × Nat × W64)) : Dev :=
  match (d.cport c).frame with
  | none => d
  | some f =>
    let d := (d.bump Reg.CAM_PORT_COUNTS_FRAMES 1 c).bump Reg.CAM_STAT_FRAMES_COUNT
    d.updCport c (fun p => { p with
      frame := none, closing := p.closing ++ [{ f with close := d.stamp (112 + c), done }], seq := (p.seq + 1) % 2 ^ 32 })

/-- Count a closed frame of port `c`. -/
def Dev.countFrame (d : Dev) (c : Nat) : Dev :=
  let fl := match (d.cport c).frame with | some f => f.flags != 0 | none => false
  d.updCport c (fun p => { p with closed := p.closed + 1, flagged := p.flagged + bit fl })

/-- The open frame of port `c` closes as at Frame End: short frames are flagged, and the last frame of a capture completes it
(R295, R296, R316). -/
def Dev.endFrame (d : Dev) (c : Nat) : Dev :=
  match (d.cport c).frame with
  | none => d
  | some f =>
    let d := if f.received < f.height then d.flagFrame c flFrameShort 0x7003 f.received f.received else d
    let d := (d.countFrame c).closeFrame c []
    let p := d.cport c
    let frames := f.arm.f 1 63 48
    if frames != 0 && p.closed ≥ frames then
      (d.updCport c (fun p => { p with st := .idle, arm := none })).camDone c f.arm 0 p.counts
    else d.updCport c (fun p => { p with st := .armed })

/-- Stop the capture of port `c` and go to state `nst`: an open frame is cut, and `also` completes after it (R296, R316). -/
def Dev.stopCapture (d : Dev) (c : Nat) (nst : CamState) (also : List (Entry × Nat × W64)) : Dev :=
  let p := d.cport c
  match p.st, p.arm with
  | .armed, some a =>
    let d := (d.updCport c (fun p => { p with st := nst, arm := none })).camDone c a 0x7011 p.counts
    also.foldl (fun d x => d.camDone c x.1 x.2.1 x.2.2) d
  | .frame, some a =>
    let line := match p.frame with | some f => f.received | none => 0
    let d := (d.flagFrame c flCut 0x7006 0 line).countFrame c
    let w := (d.cport c).counts
    (d.closeFrame c ((a, 0x7011, w) :: also)).updCport c (fun p => { p with st := nst, arm := none })
  | _, _ => d.updCport c (fun p => { p with st := nst })

/-! ## Packets (R293 to R299) -/

/-- The header of a packet on port `c`: corrected ones count; a bad one is counted, flags the open frame and is discarded. -/
def Dev.takeHeader (d : Dev) (c : Nat) (hdr : HdrEcc) : Dev × Bool :=
  match hdr with
  | .good => (d, true)
  | .corrected => (d.bumpSat Reg.CAM_PORT_ERRS_ECC_CORRECTED c, true)
  | .bad =>
    let line := match (d.cport c).frame with | some f => f.received | none => 0
    ((d.bumpSat Reg.CAM_PORT_ERRS_HDR_DISCARDED c).flagFrame c flHdr 0x7008 0 line, false)

/-- A long packet or Frame End with no frame open: discarded, with SYNC_ERR once (R295). -/
def Dev.syncErr (d : Dev) (c : Nat) : Dev :=
  let p := d.cport c
  if p.discard || p.syncSaid then d
  else (d.updCport c (fun p => { p with syncSaid := true })).raise (112 + c) c 0x700B c (camWords p.seq 0)

/-- A Frame Start where port `c` has no frame open (R296). -/
def Dev.startFrame (d : Dev) (c frameNo : Nat) : Dev :=
  let p := d.cport c
  let skip := fun (d : Dev) => (d.updCport c (fun p => { p with discard := true, syncSaid := false })).bump
    Reg.CAM_STAT_UNARMED_COUNT
  match p.st, p.arm with
  | .armed, some a => if a.sched && p.seq == 0 && d.beatAhead a.startBeat then skip d else d.openFrame c frameNo a
  | .idle, _ => skip d
  | _, _ => d

/-- FRAME_START (R293, R295, R296). -/
def Dev.frameStart (d : Dev) (c vc frameNo : Nat) (hdr : HdrEcc) : Dev :=
  if c ≥ 4 || (d.cport c).st == .off then d
  else
    let (d, ok) := d.takeHeader c hdr
    if !ok then d
    else if vc != d.cur Reg.CAM_PORT_CFG_VC c then d.bumpSat Reg.CAM_PORT_ERRS_OTHER_PKTS c
    else match (d.cport c).frame with
      | some f => ((d.flagFrame c flNoFe 0x7009 0 f.received).endFrame c).startFrame c frameNo
      | none => d.startFrame c frameNo

/-- FRAME_END (R293, R295). -/
def Dev.frameEnd (d : Dev) (c vc : Nat) (hdr : HdrEcc) : Dev :=
  if c ≥ 4 || (d.cport c).st == .off then d
  else
    let (d, ok) := d.takeHeader c hdr
    if !ok then d
    else if vc != d.cur Reg.CAM_PORT_CFG_VC c then d.bumpSat Reg.CAM_PORT_ERRS_OTHER_PKTS c
    else if (d.cport c).frame.isSome then d.endFrame c
    else (d.syncErr c).updCport c (fun p => { p with discard := false })

/-- A line of the open frame `f` of port `c` (R294, R295, R299). -/
def Dev.takeLine (d : Dev) (c : Nat) (f : CamFrame) (px : List Nat) (crcOk : Bool) : Dev :=
  let row := f.received
  let d := d.updCport c (fun p => { p with frame := some { f with received := row + 1 } })
  let d := if crcOk then d else (d.bumpSat Reg.CAM_PORT_ERRS_CRC_ERRORS c).flagFrame c flCrc 0x7007 0 row
  if row ≥ f.height then d.flagFrame c flFrameLong 0x7004 (row + 1) row
  else if (d.cport c).buf.length ≥ 8 then
    (d.bumpSat Reg.CAM_PORT_COUNTS_LINES_DROPPED c).flagFrame c flLineDrop 0x7005 0 row
  else
    let n := px.length
    let d := if n < f.width then d.flagFrame c flLineShort 0x7001 n row
      else if n > f.width then d.flagFrame c flLineLong 0x7002 n row else d
    let v := (px.take f.width).map (fun x => x % 2 ^ f.bits * 2 ^ (16 - f.bits))
    (d.updCport c (fun p => { p with
      buf := p.buf ++ [{ seq := f.seq, cap := f.cap, row, px := v ++ List.replicate (f.width - n) f.black, real := min n f.width }] })).notePeak c

/-- LONG_PACKET (R293 to R299). -/
def Dev.longPacket (d : Dev) (c vc dt : Nat) (px : List Nat) (crcOk : Bool) (hdr : HdrEcc) : Dev :=
  if c ≥ 4 || (d.cport c).st == .off then d
  else
    let (d, ok) := d.takeHeader c hdr
    if !ok then d
    else if vc != d.cur Reg.CAM_PORT_CFG_VC c || dt != d.cur Reg.CAM_PORT_CFG_DT c then
      d.bumpSat Reg.CAM_PORT_ERRS_OTHER_PKTS c
    else match (d.cport c).frame with
      | some f => d.takeLine c f px crcOk
      | none => d.syncErr c

/-- CAM_FRAME_TIMEOUT (R295). -/
def Dev.frameTimeout (d : Dev) (c : Nat) : Dev :=
  let t := d.cur Reg.CAM_PORT_GEOM_FRAME_TIMEOUT c
  match (d.cport c).frame with
  | some f =>
    if t != 0 && d.beatWide - f.since ≥ t then (d.flagFrame c flTimeout 0x700A 0 f.received).endFrame c else d
  | none => d

/-- DPHY_SOT_ERROR: the transmission is discarded (R293, R323). -/
def Dev.sotError (d : Dev) (c lanes : Nat) : Dev :=
  let p := d.cport c
  let line := match p.frame with | some f => f.received | none => 0
  if c < 4 && p.st != .off then d.raise (112 + c) c 0x700C (c + lanes * 16) (camWords p.seq line) else d

/-! ## Outputs (R305 to R307) -/

/-- The display scale (R314). -/
def CamFrame.scale (f : CamFrame) : Nat := match f.arm.f 1 33 32 with | 0 => 1 | 1 => 2 | _ => 4

/-- The bytes of one row, or one block row, of output `o`. -/
def CamFrame.rowBytes (f : CamFrame) (o : Nat) : Nat :=
  match o with
  | 0 | 1 => 2 * f.width
  | 2 => (f.width + f.scale - 1) / f.scale
  | _ => (f.width * f.bits + 7) / 8

/-- Rows, or block rows, of output `o`. -/
def CamFrame.rowCount (f : CamFrame) (o : Nat) : Nat := if o == 2 then (f.height + f.scale - 1) / f.scale else f.height

/-- bytes_o of output `o` (R305). -/
def CamFrame.outBytes (f : CamFrame) (o : Nat) : Nat := f.rowBytes o * f.rowCount o

/-- The address of the frame's slot in output `o` (R305, R306). -/
def CamFrame.slotAt (f : CamFrame) (o : Nat) : Nat :=
  (f.arm.w (2 + o)).toNat + f.seq % max 1 (f.arm.f 1 47 40) * ((f.outBytes o + 64 + 4095) / 4096 * 4096)

/-- Output `o` is selected. -/
def CamFrame.hasOut (f : CamFrame) (o : Nat) : Bool := bitOf (f.arm.f 1 39 36) o

/-- The outputs go to DRAM. -/
def CamFrame.toDram (f : CamFrame) : Bool := f.arm.f 1 34 34 == 1

/-- Output writes can be issued: to DRAM at once, to host memory while HST may issue requests (R38, R301). -/
def Dev.canWriteOut (d : Dev) (f : CamFrame) : Bool := f.toDram || d.canRequest

/-- Write bytes of an output of frame `f` at an address (R301, R374). -/
def Dev.writeOut (d : Dev) (m : Mem) (f : CamFrame) (a : Nat) (bs : List Byte) : Mem × Dev :=
  if !f.toDram then (m, d.emit (.hostBytes a bs))
  else if d.dramOk a bs.length then (d.dramPut m a bs, d)
  else (m, d.dramAddrErr a f.engine)

/-- A list of numbers of `n` bits each as a bit stream, least significant bit first, in whole bytes (R305). -/
def packBits (n : Nat) (vs : List Nat) : List Byte :=
  leBytes ((vs.length * n + 7) / 8) (vs.foldr (fun v a => v % 2 ^ n + 2 ^ n * a) 0)

/-- A row of output 0, 1 or 3 from aligned raw pixels and corrected values (R305). -/
def CamFrame.rowOut (f : CamFrame) (o : Nat) (raw val : List Nat) : List Byte :=
  match o with
  | 0 => raw.flatMap (fun v => leBytes 2 (v / 2 ^ (16 - f.bits)))
  | 1 => val.flatMap (fun v => leBytes 2 v)
  | _ => packBits f.bits (val.map (fun v => v / 2 ^ (16 - f.bits)))

/-- The pixels of a pad line: PAD in the raw tap, 0 in the corrected outputs (R295). -/
def CamFrame.padRaw (f : CamFrame) : List Nat := List.replicate f.width (f.pad % 2 ^ f.bits * 2 ^ (16 - f.bits))

/-- Write one row of the row outputs. -/
def Dev.writeRow (d : Dev) (m : Mem) (f : CamFrame) (row : Nat) (raw val : List Nat) : Mem × Dev :=
  [0, 1, 3].foldl (fun (s : Mem × Dev) o =>
    if f.hasOut o then s.2.writeOut s.1 f (f.slotAt o + row * f.rowBytes o) (f.rowOut o raw val) else s) (m, d)

/-! ## Corrections (R302 to R304) -/

/-- A corrected pixel's neighbour that may stand in for a defective one. -/
def usable (f : CamFrame) (row : Nat) (v : List Nat) (x : Int) : Option Nat :=
  if 0 ≤ x && x < f.width && !f.defects.contains (row, x.toNat) then some (v.getD x.toNat 0) else none

/-- Defective pixel replacement (R303). -/
def fixDefect (f : CamFrame) (row : Nat) (v : List Nat) (x : Nat) : Nat :=
  if !f.defects.contains (row, x) then v.getD x 0
  else match usable f row v ((x : Int) - 1), usable f row v ((x : Int) + 1) with
    | some a, some b => (a + b) / 2
    | some a, none => a
    | none, some b => b
    | none, none => 0

/-- Where index `x` of `n` falls on 32 grid cells: the cell and the offset in it, over n - 1. -/
def gridCell (x n : Nat) : Nat × Nat :=
  let i := min 31 (x * 32 / max 1 (n - 1))
  (i, x * 32 - i * (n - 1))

/-- Lens shading of a pixel: the exact product rounded down, or up where the free bit `up` says so and it is not whole: the spec
does not state the rounding (R304). -/
def shade (f : CamFrame) (row x v : Nat) (up : Bool) : Nat :=
  let w := max 1 (f.width - 1)
  let h := max 1 (f.height - 1)
  let (i, tx) := gridCell x f.width
  let (k, ty) := gridCell row f.height
  let g := fun (a b : Nat) => f.shading.getD (33 * (k + b) + (i + a)) 0
  let num := v * ((w - tx) * (h - ty) * g 0 0 + tx * (h - ty) * g 1 0 + (w - tx) * ty * g 0 1 + tx * ty * g 1 1)
  let den := w * h * 16384
  min 65535 (num / den + bit (up && num % den != 0))

/-- The corrections of one line in order (R302). -/
def correctLine (f : CamFrame) (row : Nat) (px : List Nat) (fv : Nat) : List Nat :=
  let v := px.map (fun v => v - f.black)
  let v := (List.range v.length).map (fixDefect f row v)
  (List.range v.length).map (fun x => shade f row x (v.getD x 0) (bitOf fv x))

/-! ## The engines (R297, R298, R301) -/

/-- Engine `e`. -/
def Dev.engine (d : Dev) (e : Nat) : CamEngine := at' d.cam.eng e

/-- Change engine `e`. -/
def Dev.updEngine (d : Dev) (e : Nat) (f : CamEngine → CamEngine) : Dev := { d with cam.eng := upd d.cam.eng e f }

/-- Line `l` belongs to frame `f`: of the same capture, and the same SEQ in it. -/
def CamLine.ofFrame (l : CamLine) (f : CamFrame) : Bool := l.seq == f.seq && l.cap == f.cap

/-- The frame of line `l` of port `c`, open or closing (R296). -/
def Dev.frameOf (d : Dev) (c : Nat) (l : CamLine) : Option CamFrame :=
  let p := d.cport c
  match p.frame with
  | some f => if l.ofFrame f then some f else p.closing.find? l.ofFrame
  | none => p.closing.find? l.ofFrame

/-- Change that frame. -/
def Dev.updFrame (d : Dev) (c : Nat) (l : CamLine) (g : CamFrame → CamFrame) : Dev :=
  d.updCport c (fun p => { p with
    frame := p.frame.map (fun f => if l.ofFrame f then g f else f),
    closing := p.closing.map (fun f => if l.ofFrame f then g f else f) })

/-- Port `c` has an eligible line for engine `e` in class `cl` (R297, R298). -/
def Dev.eligible (d : Dev) (e cl c : Nat) : Bool :=
  d.cur Reg.CAM_PORT_CFG_CLASS c == cl && d.cur Reg.CAM_PORT_CFG_ENGINE c == e && !(d.cport c).buf.isEmpty

/-- The port whose line engine `e` takes next, with its class and lines served in its turn (R298). -/
def Dev.nextPort (d : Dev) (e : Nat) : Option (Nat × Nat × Nat) :=
  let x := d.engine e
  [1, 0].findSome? (fun cl =>
    let t := at' x.turn cl
    let k := at' x.served cl
    if d.eligible e cl t && k < max 1 (d.cur Reg.CAM_PORT_CFG_WEIGHT t) then some (t, cl, k + 1)
    else ((List.range 4).map (fun i => (t + 1 + i) % 4)).findSome? (fun c => if d.eligible e cl c then some (c, cl, 1) else none))

/-- Engine `e` finishes a line: its pixels go to the outputs, or the line is held (R301). -/
def Dev.finishLine (d : Dev) (m : Mem) (e c : Nat) (l : CamLine) : Mem × Dev :=
  match d.frameOf c l with
  | none => (m, d)
  | some f =>
    let needs := f.hasOut 0 || f.hasOut 1 || f.hasOut 3
    if needs && !d.canWriteOut f then (m, d.updEngine e (fun x => { x with held := some (c, l, d.beatWide) }))
    else
      let (fv, d) := d.free
      let val := correctLine f l.row l.px fv
      let d := d.updFrame c l (fun f => { f with rows := f.rows ++ [{ row := l.row, raw := l.px, val, real := l.real }] })
      d.writeRow m f l.row l.px val

/-- A line of port `c` is abandoned: CAM_OVERRUN, and its row becomes a pad line (R301, R367). -/
def Dev.abandonLine (d : Dev) (e c : Nat) (l : CamLine) : Dev :=
  let d := d.overrun (120 + e) e 0x700D e (camWords l.seq l.row)
  (d.bumpSat Reg.CAM_PORT_COUNTS_LINES_DROPPED c).updFrame c l (fun f =>
    { f with flags := f.flags ||| (2 ^ flLineDrop + 2 ^ flOverrun) })

/-- ENGINE_LINE: a held line goes on once its writes can be issued; else the next eligible line is taken and processed
(R297, R298, R301, R367). The address of an uncorrectable word of the working store is not stated. -/
def Dev.engineLine (d : Dev) (m : Mem) (e : Nat) (ecc : EccRead) : Mem × Dev :=
  match (d.engine e).held with
  | some (c, l, _) =>
    if (match d.frameOf c l with | some f => d.canWriteOut f | none => true) then
      (d.updEngine e (fun x => { x with held := none })).finishLine m e c l
    else (m, d)
  | none =>
    match d.nextPort e with
    | none => (m, d)
    | some (c, cl, k) =>
      match (d.cport c).buf with
      | [] => (m, d)
      | l :: t =>
        let d := d.updCport c (fun p => { p with buf := t })
        let d := d.updEngine e (fun x => { x with turn := upd x.turn cl (fun _ => c), served := upd x.served cl (fun _ => k) })
        let (v, d) := if ecc == .clean then (0, d) else d.free
        let d := d.sramRead 7 (0x2080000 + v % 0x30000 * 8) ecc
        if ecc == .uncorrectable then (m, d.abandonLine e c l)
        else
          let d := (d.bump Reg.CAM_STAT_PIXELS_COUNT l.px.length).bump
            (if e == 0 then Reg.CAM_STAT_E0_BUSY_COUNT else Reg.CAM_STAT_E1_BUSY_COUNT) l.px.length
          d.finishLine m e c l

/-- OUTPUT_HOLD_TIMEOUT: 64 beats after its writes were held a line is abandoned (R301). -/
def Dev.holdTimeout (d : Dev) (e : Nat) : Dev :=
  match (d.engine e).held with
  | some (c, l, t) =>
    if d.beatWide - t ≥ 64 then (d.updEngine e (fun x => { x with held := none })).abandonLine e c l else d
  | none => d

/-! ## Features (R311, R312) -/

/-- The sums of R311. -/
structure Feat where
  area : Nat := 0
  sum : Nat := 0
  peak : Nat := 0
  sx : Nat := 0
  sy : Nat := 0
  sxx : Nat := 0
  syy : Nat := 0
  sxy : Nat := 0
  x0 : Nat := 65535
  x1 : Nat := 0
  y0 : Nat := 65535
  y1 : Nat := 0
  deriving DecidableEq, Repr, Inhabited

/-- One pixel of at least the threshold. -/
def Feat.add (a : Feat) (t x y v : Nat) : Feat :=
  if v < t then a
  else
    let w := v - t + 1
    { area := a.area + 1, sum := a.sum + w, peak := max a.peak v, sx := a.sx + w * x, sy := a.sy + w * y,
      sxx := a.sxx + w * x * x, syy := a.syy + w * y * y, sxy := a.sxy + w * x * y,
      x0 := min a.x0 x, x1 := max a.x1 x, y0 := min a.y0 y, y1 := max a.y1 y }

/-- The sums over a frame: pad lines and pad pixels are left out. -/
def CamFrame.feat (f : CamFrame) : Feat :=
  f.rows.foldl (fun a r => (r.val.take r.real).zipIdx.foldl (fun a p => a.add f.thresh p.2 r.row p.1) a) {}

/-- The largest number below 2^n whose bits, decided from the top, keep `ok`. -/
def bitSearch (ok : Nat → Bool) : Nat → Nat → Nat
  | 0, a => a
  | n + 1, a => bitSearch ok n (if ok (a + 2 ^ n) then a + 2 ^ n else a)

/-- LENGTH and WIDTH in 1/16 pixel, from the exact moments (R311). -/
def Feat.axes (a : Feat) : Nat × Nat :=
  let s : Int := a.sum
  let cx : Int := 256 * a.sx / a.sum
  let cy : Int := 256 * a.sy / a.sum
  let dn : Int := 65536 * s
  let xx : Int := 65536 * a.sxx - s * cx * cx
  let yy : Int := 65536 * a.syy - s * cy * cy
  let xy : Int := 65536 * a.sxy - s * cx * cy
  let disc := (xx - yy) * (xx - yy) + 4 * xy * xy
  let q := fun (l : Nat) => (l : Int) * l * 2 * dn - 4096 * (xx + yy)
  let long := fun (l : Nat) => decide (q l ≤ 0) || decide (q l * q l ≤ 16777216 * disc)
  let wide := fun (l : Nat) => decide (q l ≤ 0) && decide (16777216 * disc ≤ q l * q l)
  (bitSearch long 24 0, bitSearch wide 24 0)

/-- Words 4 to 7 of a MELT_FEATURE record (R312). Where a 64-bit sum overflows, or a field does, the value is not stated. -/
def Dev.featWords (d : Dev) (f : CamFrame) : List W64 × Dev :=
  let a := f.feat
  let w4 := fun (area peak : Nat) => pack [(area, 32), (peak, 16), (f.flags, 0)]
  if a.area = 0 then ([w4 0 0, 0, 0, 0], d)
  else
    let big := [a.sum, a.sx, a.sy, a.sxx, a.syy, a.sxy].any (fun v => decide (2 ^ 64 ≤ v))
    let (v1, d) := d.free
    let (v2, d) := d.free
    let (l, w) := a.axes
    let fit := fun (x v : Nat) => if x < 65536 then x else v % 65536
    let box := pack [(a.x0, 48), (a.x1, 32), (a.y0, 16), (a.y1, 0)]
    let w5 := if big then BitVec.ofNat 64 v1 else pack [(256 * a.sx / a.sum, 32), (256 * a.sy / a.sum, 0)]
    let w7 := if big then BitVec.ofNat 64 v2
      else pack [(min (a.sum / 256) 0xFFFFFFFF, 32), (fit l v1, 16), (fit w v2, 0)]
    ([w4 a.area a.peak, w5, box, w7], d)

/-! ## FRAME_WRITEOUT (R305 to R312, R316) -/

/-- The corrected values of a row, a pad line's being 0. -/
def CamFrame.valRow (f : CamFrame) (r : Nat) : List Nat :=
  match f.rows.find? (fun x => x.row == r) with | some x => x.val | none => List.replicate f.width 0

/-- A block row of the display output: box means of the `n` rows present, through the display LUT (R305). -/
def CamFrame.dispRow (f : CamFrame) (b present : Nat) : List Byte :=
  let s := f.scale
  let rows := ((List.range s).map (fun i => b * s + i)).filter (fun r => r < present)
  let vals := rows.map f.valRow
  (List.range (f.rowBytes 2)).map (fun k =>
    let px := vals.flatMap (fun v => (v.drop (k * s)).take s)
    BitVec.ofNat 8 (f.lut.getD ((px.foldl (· + ·) 0) / max 1 px.length / 64) 0))

/-- The trailer of an output (R307). -/
def CamFrame.trailer (f : CamFrame) (c present fcrc : Nat) : List W64 :=
  [pack [(f.seq, 32), (f.flags, 16), (c, 8), (f.vc, 6), (f.dt, 0)], pack [(f.width, 32), (present, 0)]] ++
    f.sof.words ++ f.close.words ++
    [pack [(f.received % 2 ^ 32, 32), (present - f.rows.length, 0)], pack [(fcrc, 32), (f.frameNo % 65536, 16)]]

/-- The bytes of an uncut frame's output `o`. -/
def CamFrame.allBytes (f : CamFrame) (o : Nat) : List Byte :=
  (List.range (f.rowCount o)).flatMap (fun r =>
    if o == 2 then f.dispRow r f.height
    else f.rowOut o (match f.rows.find? (fun x => x.row == r) with | some x => x.raw | none => f.padRaw) (f.valRow r))

/-- Write what is left of a closed frame: pad rows, the display output and the trailers. What FCRC covers beyond the rows of a cut
frame is not stated, so its value there is free. -/
def Dev.writeFrame (d : Dev) (m : Mem) (c : Nat) (f : CamFrame) : Mem × Dev :=
  let cut := bitOf f.flags flCut
  let present := if cut then min f.received f.height else f.height
  let missing := (List.range present).filter (fun r => !f.rows.any (fun x => x.row == r))
  let s := missing.foldl (fun (s : Mem × Dev) r => s.2.writeRow s.1 f r f.padRaw (List.replicate f.width 0)) (m, d)
  let s := if f.hasOut 2 then
      (List.range ((present + f.scale - 1) / f.scale)).foldl (fun (s : Mem × Dev) b =>
        s.2.writeOut s.1 f (f.slotAt 2 + b * f.rowBytes 2) (f.dispRow b present)) s
    else s
  (List.range 4).foldl (fun (s : Mem × Dev) o =>
    if !f.hasOut o then s
    else
      let (v, d) := s.2.free
      let fcrc := if cut then v % 2 ^ 32 else crc32 (f.allBytes o)
      d.writeOut s.1 f (f.slotAt o + f.outBytes o) (wordBytes (f.trailer c present fcrc))) s

/-- The records of a closed frame (R310, R312). -/
def Dev.frameRecords (d : Dev) (c : Nat) (f : CamFrame) : Dev :=
  let present := if bitOf f.flags flCut then min f.received f.height else f.height
  let slot := f.seq % max 1 (f.arm.f 1 47 40)
  let d := d.record (112 + c) 0x7010 (f.flags * 65536 + slot * 256 + c)
    [pack [(f.seq, 32), (present, 0)], BitVec.ofNat 64 f.sof.time, pack [(f.bid % 2 ^ 48, 16), (f.frameNo % 65536, 0)],
     pack [(unsigned 32 f.ex, 32), (unsigned 32 f.ey, 0)]]
  if f.arm.f 1 35 35 == 0 then d
  else
    let (ws, d) := d.featWords f
    d.record (116 + c) 0x7011 (f.seq % 65536 * 65536 + c) ws

/-- FRAME_WRITEOUT: the oldest closed frame of port `c` whose lines are all processed is written out (R309, R316). -/
def Dev.frameWriteout (d : Dev) (m : Mem) (c : Nat) : Mem × Dev :=
  let p := d.cport c
  match p.closing with
  | [] => (m, d)
  | f :: t =>
    let held := (List.range 2).any (fun e => match (d.engine e).held with
      | some (q, l, _) => q == c && l.ofFrame f | none => false)
    if p.buf.any (fun l => l.ofFrame f) || held || (f.arm.f 1 39 36 != 0 && !d.canWriteOut f) then (m, d)
    else
      let r := d.writeFrame m c f
      let d := (r.2.updCport c (fun p => { p with closing := t })).frameRecords c f
      (r.1, f.done.foldl (fun d x => d.camDone c x.1 x.2.1 x.2.2) d)

/-! ## Capture entries (R313 to R316) -/

/-- No entry for the same port was passed on before `e`. -/
def Dev.isNextPort (d : Dev) (e : Entry) : Bool :=
  d.hst.rings.toList.all (fun r => match r.inQ with
    | x :: _ => x.cls != 7 || x.f 1 1 0 != e.f 1 1 0 || decide (e.seq ≤ x.seq)
    | [] => true)

/-- Run the CAPTURE entry at the front of ring `n`, of opcode `op`, if it is its port's next. -/
def Dev.withCapture (d : Dev) (n op : Nat) (f : Dev → Entry → Nat → Dev) : Dev :=
  match d.front n 7 op with
  | some e => if d.isNextPort e then f d e (e.f 1 1 0) else d
  | none => d

/-- Take a CAPTURE entry and complete it with a code. -/
def Dev.capReject (d : Dev) (e : Entry) (c code : Nat) : Dev := (d.pop e.ring).complete e (112 + c) code (if code == 0 then 0 else c)

/-- Check 3 of R314. -/
def Dev.armBad (d : Dev) (e : Entry) (c : Nat) : Bool :=
  let outs := e.f 1 39 36
  e.f 1 47 40 == 0 || e.f 1 33 32 == 3 || (outs == 0 && e.f 1 35 35 == 0) ||
    (List.range 4).any (fun o => bitOf outs o && (e.w (2 + o) == 0 || e.f (2 + o) 11 0 != 0)) ||
    (e.f 1 35 35 == 1 && d.eff Reg.CAM_PORT_LEVEL_THRESH c == 0)

/-- CAP_ARM (R314, R316). -/
def Dev.capArm (d : Dev) (n : Nat) : Dev :=
  d.withCapture n 1 (fun d e c =>
    match (d.cport c).st with
    | .off => d.capReject e c 0x7013
    | .armed | .frame => d.capReject e c 0x700E
    | .idle =>
      if d.armBad e c then d.capReject e c 0x700F
      else (d.pop n).updCport c (fun p => { p with st := .armed, arm := some e, seq := 0, closed := 0, flagged := 0, capture := p.capture + 1 }))

/-- CAP_STOP (R313, R316). -/
def Dev.capStop (d : Dev) (n : Nat) : Dev :=
  d.withCapture n 2 (fun d e c =>
    if e.sched && d.beatAhead e.startBeat then d
    else match (d.cport c).st with
      | .armed | .frame => (d.pop n).stopCapture c .idle [(e, 0, 0)]
      | _ => d.capReject e c 0x7012)

/-- The defect entries of a table of `n` bytes (R315). -/
def defectList (n : Nat) (bs : List Byte) : List (Nat × Nat) :=
  (List.range (n / 4)).map (fun i =>
    let v := leNat ((bs.drop (4 * i)).take 4)
    (v / 65536, v % 65536))

/-- Entries strictly ascending by y then x. -/
def ascending : List (Nat × Nat) → Bool
  | a :: b :: t => (a.1 < b.1 || (a.1 == b.1 && a.2 < b.2)) && ascending (b :: t)
  | _ => true

/-- TABLE_LOAD (R313, R315). -/
def Dev.tableLoad (d : Dev) (n : Nat) (rd : HostRead) : Dev :=
  d.withCapture n 3 (fun d e c =>
    let which := e.f 1 9 8
    let bytes := e.f 3 31 0
    let p := d.cport c
    let sizeOk := match which with
      | 0 => bytes ≤ 4096 && bytes % 4 == 0
      | 1 => bytes == 2178
      | 2 => bytes == 1024
      | _ => false
    if e.sched || e.f 2 2 0 != 0 then d.capReject e c 0x700F
    else if p.st == .armed || p.st == .frame then d.capReject e c 0x700E
    else if !sizeOk then d.capReject e c 0x7010
    else if bytes == 0 then (d.updCport c (fun p => { p with defects := [] })).capReject e c 0
    else if !d.canRequest then d
    else
      let d := d.emit (.hostRead (e.w 2).toNat bytes)
      match rd with
      | .fail _ => (d.pop n).bodyFetchErr e
      | .ok bs =>
        let half := fun (i : Nat) => leNat ((bs.drop (2 * i)).take 2)
        match which with
        | 0 =>
          let ds := defectList bytes bs
          if ascending ds && ds.all (fun x => x.1 < d.cur Reg.CAM_PORT_GEOM_HEIGHT c && x.2 < d.cur Reg.CAM_PORT_GEOM_WIDTH c) then
            (d.updCport c (fun p => { p with defects := ds })).capReject e c 0
          else d.capReject e c 0x7010
        | 1 => (d.updCport c (fun p => { p with shading := (List.range 1089).map half })).capReject e c 0
        | _ => (d.updCport c (fun p => { p with lut := (List.range 1024).map (fun i => (bs.getD i 0).toNat) })).capReject e c 0)

/-! ## Register writes (R292, R318, R319) -/

/-- The ranges of CAM_PORT_c_CFG, and the pixel rate of R292. -/
def camCfgOk (v : W64) : Bool :=
  let rate := Reg.CAM_PORT_CFG_LANE_RATE.of v
  let lanes := Reg.CAM_PORT_CFG_LANES.of v
  let dt := Reg.CAM_PORT_CFG_DT.of v
  let w := Reg.CAM_PORT_CFG_WEIGHT.of v
  80 ≤ rate && rate ≤ 2500 && 1 ≤ lanes && lanes ≤ 4 && 0x2A ≤ dt && dt ≤ 0x2D && 1 ≤ w && w ≤ 8 &&
    lanes * rate ≤ 800 * dtBits dt

/-- A write of CAM_PORT_c_CFG (R318). -/
def Dev.writeCamCfg (d : Dev) (c : Nat) (v : W64) : Dev :=
  let p := d.cport c
  let en := Reg.CAM_PORT_CFG_EN.of v == 1
  if !camCfgOk v || (p.st != .off && d.changes Reg.CAM_PORT_CFG [Reg.CAM_PORT_CFG_EN] v c) then d.refuse Reg.CAM_STATUS_REFUSED
  else
    let d := d.store Reg.CAM_PORT_CFG v c 0
    if en && p.st == .off then d.updCport c (fun p => { p with st := .idle, discard := false, syncSaid := false })
    else if !en && p.st != .off then d.stopCapture c .off []
    else d

/-- A write of a CAM register (R317 to R320). -/
def Dev.writeCam (d : Dev) (r : RegDef) (v : W64) (i j : Nat) : Dev :=
  if r.addr = Reg.CAM_PORT_CFG.addr then d.writeCamCfg i v
  else
    let ok : Bool :=
      if r.addr = Reg.CAM_PORT_GEOM.addr then
        let w := Reg.CAM_PORT_GEOM_WIDTH.of v
        (d.cport i).st == .off && 16 ≤ w && w ≤ 8192 && 1 ≤ Reg.CAM_PORT_GEOM_HEIGHT.of v
      else true
    d.storeIf Reg.CAM_STATUS_REFUSED ok r v i j

/-! ## Meanings -/

/-- CAMERA_PORT_ENABLE (R296): a write of CAM_PORT_c_CFG with EN 1. -/
def execCameraPortEnable (_src : Source) (c : Nat) (v : W64) (s : State) : Host.Outcome State Fault Refusal :=
  s.mainOnly { s with dev := if c < 4 && Reg.CAM_PORT_CFG_EN.of v == 1 then s.dev.writeCamCfg c v else s.dev }

/-- CAMERA_PORT_DISABLE (R296): a write of CAM_PORT_c_CFG with EN 0. -/
def execCameraPortDisable (_src : Source) (c : Nat) (v : W64) (s : State) : Host.Outcome State Fault Refusal :=
  s.mainOnly { s with dev := if c < 4 && Reg.CAM_PORT_CFG_EN.of v == 0 then s.dev.writeCamCfg c v else s.dev }

/-- FRAME_START (R296). -/
def execFrameStart (c vc frameNo : Nat) (hdr : HdrEcc) (s : State) : Host.Outcome State Fault Refusal :=
  s.mainOnly { s with dev := s.dev.frameStart c vc frameNo hdr }

/-- FRAME_END (R295). -/
def execFrameEnd (c vc : Nat) (hdr : HdrEcc) (s : State) : Host.Outcome State Fault Refusal :=
  s.mainOnly { s with dev := s.dev.frameEnd c vc hdr }

/-- LONG_PACKET (R293). -/
def execLongPacket (c vc dt : Nat) (px : List Nat) (crcOk : Bool) (hdr : HdrEcc) (s : State) :
    Host.Outcome State Fault Refusal := s.mainOnly { s with dev := s.dev.longPacket c vc dt px crcOk hdr }

/-- DPHY_SOT_ERROR (R293, R323). -/
def execDphySotError (c : Nat) (lanes : BitVec 4) (s : State) : Host.Outcome State Fault Refusal :=
  s.mainOnly { s with dev := s.dev.sotError c lanes.toNat }

/-- CAM_FRAME_TIMEOUT (R295). -/
def execCamFrameTimeout (c : Nat) (s : State) : Host.Outcome State Fault Refusal := s.mainOnly { s with dev := s.dev.frameTimeout c }

/-- ENGINE_LINE (R297, R298). -/
def execEngineLine (e : Nat) (ecc : EccRead) (s : State) : Host.Outcome State Fault Refusal :=
  let r := s.dev.engineLine s.mem e ecc
  s.mainOnly { s with mem := r.1, dev := r.2 }

/-- OUTPUT_HOLD_TIMEOUT (R301). -/
def execOutputHoldTimeout (e : Nat) (s : State) : Host.Outcome State Fault Refusal := s.mainOnly { s with dev := s.dev.holdTimeout e }

/-- FRAME_WRITEOUT (R309). -/
def execFrameWriteout (c : Nat) (s : State) : Host.Outcome State Fault Refusal :=
  let r := s.dev.frameWriteout s.mem c
  s.mainOnly { s with mem := r.1, dev := r.2 }

/-- CAP_ARM (R314). -/
def execCapArm (ring : Nat) (s : State) : Host.Outcome State Fault Refusal := s.mainOnly { s with dev := s.dev.capArm ring }

/-- CAP_STOP (R313). -/
def execCapStop (ring : Nat) (s : State) : Host.Outcome State Fault Refusal := s.mainOnly { s with dev := s.dev.capStop ring }

/-- TABLE_LOAD (R315). -/
def execTableLoad (ring : Nat) (rd : HostRead) (s : State) : Host.Outcome State Fault Refusal :=
  s.mainOnly { s with dev := s.dev.tableLoad ring rd }

end Sys2Proof.Machine
end

