-- ==== Sys2Proof/Machine/Inflate.lean ====
section
/-!
DEFINITION. DEFLATE as the codec reads it: RFC 1951 blocks, the ZLIB and GZIP containers and their checks (R324, R326, R333, R337,
R342). The codes in here are those of R342.
-/
namespace Sys2Proof.Machine

/-- Why decoding stops. -/
inductive InfStop where
  /-- The stream has ended. -/
  | done
  /-- The input is used up. -/
  | more
  /-- The output space is full (R336). -/
  | full
  /-- The engine was disabled (R338). -/
  | stopped
  /-- A bus error was met (R342). -/
  | bus
  | err (code : Nat)
  deriving DecidableEq, Repr, Inhabited

/-- A decoder: the bits ahead, how many are behind, the bytes produced newest first, and where it has to stop. -/
structure Inf where
  bits : List Bool
  pos : Nat := 0
  out : List Byte := []
  n : Nat := 0
  blocks : Nat := 0
  /-- Position and bytes at the last block boundary. -/
  bPos : Nat := 0
  bN : Nat := 0
  /-- The most bytes; after a disable, the bytes at or after which a block boundary stops it, and those at which it stops anyway. -/
  limit : Nat
  soft : Option Nat := none
  hard : Option Nat := none
  /-- A bus error follows the block of this number. -/
  busAt : Option Nat := none
  deriving DecidableEq, Repr, Inhabited

/-- A decoding step: a value and the decoder after it, or where and why it stopped. -/
abbrev InfR (α : Type) := Except (Inf × InfStop) (α × Inf)

/-- The bits of bytes, least significant first (RFC 1951). -/
def bitsOfBytes (bs : List Byte) : List Bool := bs.flatMap (fun b => (List.range 8).map (fun i => bitOf b.toNat i))

/-- One bit. -/
def Inf.bit (s : Inf) : InfR Bool :=
  match s.bits with
  | [] => .error (s, .more)
  | b :: t => .ok (b, { s with bits := t, pos := s.pos + 1 })

/-- An `n`-bit number, least significant bit first. -/
def Inf.take : Nat → Inf → InfR Nat
  | 0, s => .ok (0, s)
  | n + 1, s =>
    match s.bit with
    | .error e => .error e
    | .ok (b, s) => match Inf.take n s with
      | .error e => .error e
      | .ok (v, s) => .ok (Machine.bit b + 2 * v, s)

/-- Skip to a byte boundary. -/
def Inf.align (s : Inf) : Inf := { s with bits := s.bits.drop ((8 - s.pos % 8) % 8), pos := (s.pos + 7) / 8 * 8 }

/-- Put out one byte. -/
def Inf.put (s : Inf) (b : Byte) : InfR Unit :=
  if s.n ≥ s.limit then .error (s, .full)
  else if (match s.hard with | some h => decide (h ≤ s.n) | none => false) then .error (s, .stopped)
  else .ok ((), { s with out := b :: s.out, n := s.n + 1 })

/-- Copy `len` bytes from `dist` back. -/
def Inf.copy (dist : Nat) : Nat → Inf → InfR Unit
  | 0, s => .ok ((), s)
  | len + 1, s => match s.put (s.out.getD (dist - 1) 0) with
    | .error e => .error e
    | .ok (_, s) => Inf.copy dist len s

/-! ## Huffman codes -/

/-- A canonical Huffman code: symbols of each length 1 to 15, and the symbols in order. -/
structure Huff where
  count : List Nat
  syms : List Nat
  deriving DecidableEq, Repr, Inhabited

/-- The code of a list of lengths. -/
def mkHuff (lens : List Nat) : Huff :=
  let ofLen := fun (l : Nat) => (List.range lens.length).filter (fun i => lens.getD i 0 == l)
  let ls := (List.range 15).map (· + 1)
  { count := ls.map (fun l => (ofLen l).length), syms := ls.flatMap ofLen }

/-- Code space left, in units of the longest code: none when over-subscribed. -/
def Huff.left (h : Huff) : Option Nat :=
  h.count.foldl (fun (a : Option Nat) c => a.bind (fun l => if c ≤ 2 * l then some (2 * l - c) else none)) (some 1)

/-- The code is complete. -/
def Huff.complete (h : Huff) : Bool := h.left == some 0

/-- The code may serve for distances: complete, or at most one code. -/
def Huff.distOk (h : Huff) : Bool := h.complete || (h.left.isSome && h.syms.length ≤ 1)

/-- Decode along the lengths: the code so far, the first code of this length, and its place among the symbols. -/
def huffGo (syms : List Nat) : List Nat → Nat → Nat → Nat → Inf → InfR Nat
  | [], _, _, _, s => .error (s, .err 0x800C)
  | c :: t, code, first, index, s =>
    match s.bit with
    | .error e => .error e
    | .ok (b, s) =>
      let code := code + bit b
      if code < first + c then .ok (syms.getD (index + (code - first)) 0, s)
      else huffGo syms t (2 * code) (2 * (first + c)) (index + c) s

/-- One symbol. -/
def Huff.decode (h : Huff) (s : Inf) : InfR Nat := huffGo h.syms h.count 0 0 0 s

/-- The fixed codes of RFC 1951. -/
def fixedLit : Huff :=
  mkHuff (List.replicate 144 8 ++ List.replicate 112 9 ++ List.replicate 24 7 ++ List.replicate 8 8)
def fixedDist : Huff := mkHuff (List.replicate 32 5)

/-- Base and extra bits of length symbol 257 + i, and of distance symbol i. -/
def lenBase : List Nat := [3, 4, 5, 6, 7, 8, 9, 10, 11, 13, 15, 17, 19, 23, 27, 31, 35, 43, 51, 59, 67, 83, 99, 115, 131, 163, 195, 227, 258]
def lenExtra : List Nat := [0, 0, 0, 0, 0, 0, 0, 0, 1, 1, 1, 1, 2, 2, 2, 2, 3, 3, 3, 3, 4, 4, 4, 4, 5, 5, 5, 5, 0]
def distBase : List Nat := [1, 2, 3, 4, 5, 7, 9, 13, 17, 25, 33, 49, 65, 97, 129, 193, 257, 385, 513, 769, 1025, 1537, 2049, 3073,
  4097, 6145, 8193, 12289, 16385, 24577]
def distExtra : List Nat := [0, 0, 0, 0, 1, 1, 2, 2, 3, 3, 4, 4, 5, 5, 6, 6, 7, 7, 8, 8, 9, 9, 10, 10, 11, 11, 12, 12, 13, 13]

/-- A match after its length symbol: length, distance and copy. -/
def Inf.matchCopy (s : Inf) (dist : Huff) (sym : Nat) : InfR Unit :=
  match Inf.take (lenExtra.getD (sym - 257) 0) s with
  | .error e => .error e
  | .ok (x, s) => match dist.decode s with
    | .error e => .error e
    | .ok (ds, s) =>
      if ds ≥ 30 then .error (s, .err 0x800C)
      else match Inf.take (distExtra.getD ds 0) s with
        | .error e => .error e
        | .ok (y, s) =>
          let far := distBase.getD ds 0 + y
          if far > s.n then .error (s, .err 0x800D) else Inf.copy far (lenBase.getD (sym - 257) 0 + x) s

/-- The symbols of a block up to its end. -/
def Inf.symbols (lit dist : Huff) : Nat → Inf → InfR Unit
  | 0, s => .error (s, .more)
  | fuel + 1, s =>
    match lit.decode s with
    | .error e => .error e
    | .ok (sym, s) =>
      if sym == 256 then .ok ((), s)
      else if sym ≥ 286 then .error (s, .err 0x800C)
      else match (if sym < 256 then s.put (BitVec.ofNat 8 sym) else s.matchCopy dist sym) with
        | .error e => .error e
        | .ok (_, s) => Inf.symbols lit dist fuel s

/-! ## Blocks -/

/-- A stored block. -/
def Inf.stored (s : Inf) : InfR Unit :=
  let s := s.align
  match Inf.take 16 s with
  | .error e => .error e
  | .ok (len, s) => match Inf.take 16 s with
    | .error e => .error e
    | .ok (nlen, s) =>
      if len + nlen != 65535 then .error (s, .err 0x8009)
      else (List.range len).foldl (fun (r : InfR Unit) _ => match r with
        | .error e => .error e
        | .ok (_, s) => match Inf.take 8 s with
          | .error e => .error e
          | .ok (b, s') => match s.put 0 with
            | .error e => .error e
            | .ok _ => s'.put (BitVec.ofNat 8 b)) (.ok ((), s))

/-- The order in which code length code lengths come. -/
def clOrder : List Nat := [16, 17, 18, 0, 8, 7, 9, 6, 10, 5, 11, 4, 12, 3, 13, 2, 14, 1, 15]

/-- The `total` code lengths of a dynamic block, newest first. -/
def Inf.lengths (cl : Huff) (total : Nat) : Nat → List Nat → Inf → InfR (List Nat)
  | 0, _, s => .error (s, .more)
  | fuel + 1, acc, s =>
    if acc.length = total then .ok (acc, s)
    else match cl.decode s with
      | .error e => .error e
      | .ok (sym, s) =>
        if sym < 16 then Inf.lengths cl total fuel (sym :: acc) s
        else if sym == 16 && acc.isEmpty then .error (s, .err 0x800B)
        else
          let (v, nb, base) := match sym with | 16 => (acc.headD 0, 2, 3) | 17 => (0, 3, 3) | _ => (0, 7, 11)
          match Inf.take nb s with
          | .error e => .error e
          | .ok (x, s) =>
            if acc.length + base + x > total then .error (s, .err 0x800B)
            else Inf.lengths cl total fuel (List.replicate (base + x) v ++ acc) s

/-- The code length code's lengths, in the order they come. -/
def Inf.clLens : List Nat → Inf → InfR (List (Nat × Nat))
  | [], s => .ok ([], s)
  | k :: t, s => match Inf.take 3 s with
    | .error e => .error e
    | .ok (v, s) => match Inf.clLens t s with
      | .error e => .error e
      | .ok (l, s) => .ok ((k, v) :: l, s)

/-- The two codes of a dynamic block. -/
def Inf.dynamicCodes (s : Inf) : InfR (Huff × Huff) :=
  match Inf.take 5 s with
  | .error e => .error e
  | .ok (a, s) => match Inf.take 5 s with
    | .error e => .error e
    | .ok (b, s) => match Inf.take 4 s with
      | .error e => .error e
      | .ok (c, s) =>
        let hlit := a + 257
        let hdist := b + 1
        if hlit > 286 || hdist > 30 then .error (s, .err 0x800A)
        else match Inf.clLens (clOrder.take (c + 4)) s with
          | .error e => .error e
          | .ok (l, s) =>
            let cl := mkHuff ((List.range 19).map (fun k => ((l.find? (fun p => p.1 == k)).map (·.2)).getD 0))
            if !cl.complete then .error (s, .err 0x800A)
            else match Inf.lengths cl (hlit + hdist) (hlit + hdist + 1) [] s with
              | .error e => .error e
              | .ok (r, s) =>
                let lens := r.reverse
                let lit := mkHuff (lens.take hlit)
                let dist := mkHuff (lens.drop hlit)
                if lit.complete && dist.distOk then .ok ((lit, dist), s) else .error (s, .err 0x800A)

/-- The body of a block of a type. -/
def Inf.body (s : Inf) (type : Nat) : InfR Unit :=
  match type with
  | 0 => s.stored
  | 1 => Inf.symbols fixedLit fixedDist (s.bits.length + 1) s
  | 2 => match s.dynamicCodes with
    | .error e => .error e
    | .ok ((lit, dist), s) => Inf.symbols lit dist (s.bits.length + 1) s
  | _ => .error (s, .err 0x8008)

/-- The blocks of a stream up to the end of its final one; a disable or a bus error stops at a boundary (R338, R342). -/
def Inf.allBlocks : Nat → Inf → InfR Unit
  | 0, s => .error (s, .more)
  | fuel + 1, s =>
    match s.bit with
    | .error e => .error e
    | .ok (final, s) => match Inf.take 2 s with
      | .error e => .error e
      | .ok (type, s) => match s.body type with
        | .error e => .error e
        | .ok (_, s) =>
          let s : Inf := { s with blocks := s.blocks + 1, bPos := s.pos, bN := s.n }
          if s.busAt == some s.blocks then .error (s, .bus)
          else if final then .ok ((), s)
          else if (match s.soft with | some p => decide (p ≤ s.n) | none => false) then .error (s, .stopped)
          else Inf.allBlocks fuel s

/-! ## Containers (R324, R326, R333) -/

/-- What the bytes at the start say of a container's header: its length; more input needed; or an error and its byte. -/
inductive HeaderRead where
  | ok (n : Nat)
  | more
  | bad (code at' : Nat)
  deriving DecidableEq, Repr, Inhabited

/-- Byte `i` as a number. -/
def byteNum (bs : List Byte) (i : Nat) : Nat := (bs.getD i 0).toNat

/-- A ZLIB header (R326). -/
def zlibHeader (bs : List Byte) : HeaderRead :=
  let c := byteNum bs 0
  let f := byteNum bs 1
  if bs.length = 0 then .more
  else if c % 16 != 8 || c / 16 > 7 then .bad 0x8006 0
  else if bs.length < 2 then .more
  else if bitOf f 5 || (c * 256 + f) % 31 != 0 then .bad 0x8006 1
  else .ok 2

/-- The end of a zero-terminated string from byte `i` on: none where the input ends before it. -/
def afterZero (bs : List Byte) (i : Nat) : Option Nat :=
  match (bs.drop i).findIdx? (· == 0) with
  | some k => some (i + k + 1)
  | none => none

/-- The optional fields of a GZIP header, from byte 10 on (R326). -/
def gzipFields (bs : List Byte) (flg : Nat) : HeaderRead :=
  let extra : Option Nat :=
    if !bitOf flg 2 then some 10
    else if bs.length < 12 then none
    else
      let e := 12 + byteNum bs 10 + 256 * byteNum bs 11
      if bs.length < e then none else some e
  match extra with
  | none => .more
  | some e => match (if bitOf flg 3 then afterZero bs e else some e) with
    | none => .more
    | some e => match (if bitOf flg 4 then afterZero bs e else some e) with
      | none => .more
      | some e =>
        if !bitOf flg 1 then .ok e
        else if bs.length < e + 2 then .more
        else if byteNum bs e + 256 * byteNum bs (e + 1) == crc32 (bs.take e) % 65536 then .ok (e + 2)
        else .bad 0x8007 (e + 1)

/-- A GZIP header (R326). -/
def gzipHeader (bs : List Byte) : HeaderRead :=
  let bad := fun (i : Nat) => match i with
    | 0 => byteNum bs 0 != 0x1F
    | 1 => byteNum bs 1 != 0x8B
    | 2 => byteNum bs 2 != 8
    | _ => byteNum bs 3 / 32 != 0
  match (List.range (min 4 bs.length)).find? bad with
  | some i => .bad 0x8006 i
  | none => if bs.length < 10 then .more else gzipFields bs (byteNum bs 3)

/-- The header of a container. -/
def containerHeader (container : Nat) (bs : List Byte) : HeaderRead :=
  match container with | 1 => zlibHeader bs | 2 => gzipHeader bs | _ => .ok 0

/-- Adler-32 carried on over bytes (RFC 1950). -/
def adlerOn (v : Nat) (bs : List Byte) : Nat :=
  let (a, b) := bs.foldl (fun (p : Nat × Nat) x => ((p.1 + x.toNat) % 65521, (p.2 + p.1 + x.toNat) % 65521)) (v % 65536, v / 65536)
  b * 65536 + a

/-- CRC-32 carried on over bytes (R84). -/
def crcOn (v : Nat) (bs : List Byte) : Nat := crcLoop bs (v ^^^ 0xFFFFFFFF) ^^^ 0xFFFFFFFF

/-- The trailer of a stream, checked against what was produced (R333). -/
def Inf.trailer (s : Inf) (container : Nat) : InfR Unit :=
  let s := s.align
  let out := s.out.reverse
  match container with
  | 1 => match Inf.take 32 s with
    | .error e => .error e
    | .ok (v, s) =>
      let be := v % 256 * 2 ^ 24 + v / 256 % 256 * 2 ^ 16 + v / 2 ^ 16 % 256 * 256 + v / 2 ^ 24
      if be == adlerOn 1 out then .ok ((), s) else .error (s, .err 0x800F)
  | 2 => match Inf.take 32 s with
    | .error e => .error e
    | .ok (c, s) => match Inf.take 32 s with
      | .error e => .error e
      | .ok (z, s) => if c == crc32 out && z == s.n % 2 ^ 32 then .ok ((), s) else .error (s, .err 0x800F)
  | _ => .ok ((), s)

/-- Decode a whole stream of a container from its first byte, as far as it goes (R326, R333). -/
def inflate (container : Nat) (bs : List Byte) (s : Inf) : Inf × InfStop :=
  match containerHeader container bs with
  | .more => (s, .more)
  | .bad code i => ({ s with pos := 8 * (i + 1) }, .err code)
  | .ok n =>
    let s : Inf := { s with bits := bitsOfBytes (bs.drop n), pos := 8 * n, bPos := 8 * n }
    match Inf.allBlocks (s.bits.length + 1) s with
    | .error e => e
    | .ok (_, s) => match s.trailer container with
      | .error e => e
      | .ok (_, s) => (s, .done)

/-- The bits are the body of a block of type 1 or 2 that yields `seg` after `history`, and nothing more (R325, R328). -/
def bodyYields (type : Nat) (history seg : List Byte) (bs : List Bool) : Bool :=
  let s : Inf := { bits := bs, out := history.reverse, n := history.length, limit := history.length + seg.length }
  match s.body type with
  | .error _ => false
  | .ok (_, s) => s.bits.isEmpty && (s.out.take seg.length).reverse == seg && s.n == history.length + seg.length

end Sys2Proof.Machine
end

