-- ==== Sys2Proof/Machine/Cdc.lean ====
section
/-!
DEFINITION. CDC: codec jobs, DEFLATE in both directions, contexts, and disabling with work in flight (chapter 11).
-/
namespace Sys2Proof.Machine

/-! ## What a job's end holds -/

/-- A job's results (R332, R336). -/
structure CodecResult where
  code : Nat
  consumed : Nat := 0
  bytes : List Byte := []
  blocks : Nat := 0
  isOpen : Bool := false
  errOffset : Nat := 0
  /-- The stream as the job leaves it. -/
  stream : CodecStream
  deriving DecidableEq, Repr, Inhabited

/-- How a job may be cut short: after a disable by a free value (R338), and by a bus error after so many blocks (R342). -/
structure CodecCut where
  stop : Option Nat := none
  bus : Option Nat := none
  deriving DecidableEq, Repr, Inhabited

/-! ## DECOMPRESS (R326, R333, R335 to R338) -/

/-- The whole input of the stream, decoded again from its start up to what the job may write. -/
def decodeStream (x : CodecStream) (src : List Byte) (space : Nat) (cut : CodecCut) : Inf × InfStop :=
  let p := cut.stop.map (fun v => x.produced + v % (space + 1))
  inflate x.container (x.input ++ src)
    { bits := [], limit := x.produced + space, soft := p, hard := p.map (· + 1048576), busAt := cut.bus.map (· + x.blocks) }

/-- The result of a DECOMPRESS job over the input `src`. -/
def runInflate (e : Entry) (x : CodecStream) (src : List Byte) (cut : CodecCut) : CodecResult :=
  let (s, why) := decodeStream x src (e.f 3 31 0) cut
  let whole := s.out.reverse
  let upTo := fun (n pos blocks code : Nat) (op : Bool) (err : Nat) =>
    let all := x.input.length + src.length
    let used := max x.input.length (min all ((pos + 7) / 8))
    let seen := whole.take n
    ({ code, consumed := used - x.input.length, bytes := seen.drop x.produced, blocks := blocks - x.blocks, isOpen := op,
       errOffset := err,
       stream := { x with crc := crc32 seen, adler := adlerOn 1 seen, total := n, blocks,
                          input := (x.input ++ src).take used, produced := n } } : CodecResult)
  let all := 8 * (x.input.length + src.length)
  let errAt := (s.pos - 1) / 8 - x.input.length
  match why with
  | .done =>
    let bad := e.f 6 51 51 == 1 && crc32 whole != e.f 5 63 32
    upTo s.n s.pos s.blocks (if bad then 0x800F else 0) false (if bad then errAt else 0)
  | .more =>
    if e.f 6 52 52 == 1 then upTo s.n all s.blocks 0 true 0
    else upTo s.n all s.blocks 0x800E false src.length
  | .full => upTo s.n s.pos s.blocks 0x8001 true 0
  | .stopped => upTo s.n s.pos s.blocks 0x8002 true 0
  | .bus => upTo (max s.bN x.produced) s.bPos s.blocks 0x8010 false 0
  | .err code => upTo s.n s.pos s.blocks code false errAt

/-- A bus error on the input: the job keeps what it had up to its last good block (R342). -/
def busInflate (e : Entry) (x : CodecStream) (src : List Byte) (cut : CodecCut) : CodecResult :=
  let (s, _) := decodeStream x src (e.f 3 31 0) cut
  runInflate e x src { cut with bus := some (s.blocks - x.blocks) }

/-! ## COMPRESS (R325, R327, R328, R336, R338) -/

/-- The header of a container (R325). -/
def headerBytes (container level : Nat) : List Byte :=
  match container with
  | 1 =>
    let fl := if level ≤ 1 then 0 else if level ≤ 5 then 1 else if level == 6 then 2 else 3
    let f := fl * 64
    [0x78, BitVec.ofNat 8 (f + (31 - (0x7800 + f) % 31) % 31)]
  | 2 => [0x1F, 0x8B, 8, 0, 0, 0, 0, 0, if level == 1 then 4 else if level ≥ 9 then 2 else 0, 255]
  | _ => []

/-- The trailer of a container (R333). -/
def trailerBytes (x : CodecStream) : List Byte :=
  match x.container with
  | 1 => (leBytes 4 x.adler).reverse
  | 2 => leBytes 4 x.crc ++ leBytes 4 (x.total % 2 ^ 32)
  | _ => []

/-- Bits gathered into whole bytes, and the bits left over. -/
def gather : Nat → List Bool → List Byte × List Bool
  | 0, bs => ([], bs)
  | fuel + 1, bs =>
    if bs.length < 8 then ([], bs)
    else
      let v := (bs.take 8).foldr (fun b a => bit b + 2 * a) 0
      let (t, r) := gather fuel (bs.drop 8)
      (BitVec.ofNat 8 v :: t, r)

/-- The bits of one stored block after `at'` bits of its byte (RFC 1951). -/
def storedBits (at' : Nat) (final : Bool) (seg : List Byte) : List Bool :=
  [final, false, false] ++ List.replicate ((8 - (at' + 3) % 8) % 8) false ++
    bitsOfBytes (leBytes 2 seg.length ++ leBytes 2 (65535 - seg.length) ++ seg)

/-- The shortest of the three forms of a segment, ties to the first listed (R328). -/
def segmentBits (level at' : Nat) (final : Bool) (history seg : List Byte) : List Bool :=
  let stored := if seg.length ≤ 65535 then storedBits at' final seg
    else storedBits at' false (seg.take 32768) ++ storedBits 0 final (seg.drop 32768)
  let form := fun (t : Nat) => [final, t == 1, t == 2] ++ Config.deflateBits level t history seg
  [1, 2].foldl (fun best t =>
    if (form t).length < best.length && bodyYields t history seg (Config.deflateBits level t history seg) then form t else best) stored

/-- What a COMPRESS job has done so far. -/
structure Deflating where
  x : CodecStream
  bytes : List Byte := []
  consumed : Nat := 0
  blocks : Nat := 0
  deriving DecidableEq, Repr, Inhabited

/-- Write bits: whole bytes go out, the rest is held (R336). -/
def Deflating.write (s : Deflating) (bs : List Bool) : Deflating :=
  let all := s.x.partialBits ++ bs
  let (w, r) := gather (all.length / 8 + 1) all
  { s with bytes := s.bytes ++ w, x := { s.x with partialBits := r } }

/-- Why compression ends. -/
inductive DefStop where
  | finished | full | stopped | bus
  deriving DecidableEq, Repr, Inhabited

/-- The end of the input: a final stream gets its trailer, if that fits (R336). -/
def Deflating.finish (s : Deflating) (space : Nat) : Deflating × DefStop :=
  if !s.x.ended then (s, .finished)
  else
    let pad := (8 - s.x.partialBits.length % 8) % 8
    let t := s.write (List.replicate pad false ++ bitsOfBytes (trailerBytes s.x))
    if t.bytes.length > space then (s, .full) else (t, .finished)

/-- Compress segment by segment (R328). -/
def deflateGo (space : Nat) (final : Bool) (cut : CodecCut) : Nat → List Byte → Deflating → Deflating × DefStop
  | 0, _, s => (s, .finished)
  | fuel + 1, src, s =>
    if s.x.ended || (src.isEmpty && !final) then s.finish space
    else
      let seg := src.take 65536
      let rest := src.drop 65536
      let last := final && rest.isEmpty
      let t := s.write (segmentBits s.x.level s.x.partialBits.length last s.x.history seg)
      if t.bytes.length > space then (s, .full)
      else
        let x := t.x
        let t : Deflating := { t with
          consumed := t.consumed + seg.length, blocks := t.blocks + 1,
          x := { x with crc := crcOn x.crc seg, adler := adlerOn x.adler seg, total := x.total + seg.length, ended := last,
                        blocks := x.blocks + 1, history := (x.history ++ seg).drop (x.history.length + seg.length - 32768) } }
        if cut.bus == some t.blocks then (t, .bus)
        else if rest.isEmpty then t.finish space
        else if (match cut.stop with | some p => decide (p ≤ t.consumed) | none => false) then (t, .stopped)
        else deflateGo space final cut fuel rest t

/-- The result of a COMPRESS job over the input `src`. -/
def runDeflate (e : Entry) (x : CodecStream) (src : List Byte) (cut : CodecCut) : CodecResult :=
  let space := e.f 3 31 0
  let final := e.f 6 53 53 == 1
  let head := if x.begun then [] else headerBytes x.container x.level
  let cut := { cut with stop := cut.stop.map (fun v => v % (src.length + 1)) }
  let s : Deflating := { x }
  if head.length > space then { code := 0x8001, isOpen := true, stream := x }
  else
    let s := { s with x := { x with begun := true }, bytes := head }
    let (t, why) := if cut.bus == some 0 then (s, .bus) else deflateGo space final cut (src.length / 65536 + 2) src s
    let code := match why with | .finished => 0 | .full => 0x8001 | .stopped => 0x8002 | .bus => 0x8010
    { code, consumed := t.consumed, bytes := t.bytes, blocks := t.blocks, stream := t.x,
      isOpen := match why with | .finished => !final | .full | .stopped => true | .bus => false }

/-- A bus error on the input of a COMPRESS job: the whole segments that arrived are good (R342). -/
def busDeflate (e : Entry) (x : CodecStream) (src : List Byte) (cut : CodecCut) : CodecResult :=
  runDeflate e x src { cut with bus := some (match cut.bus with | some k => min k (src.length / 65536) | none => src.length / 65536) }

/-! ## Addresses and contexts (R329, R334, R335) -/

/-- Two ranges of one space overlap. -/
def overlap (s1 a1 n1 s2 a2 n2 : Nat) : Bool := s1 == s2 && a1 < a2 + n2 && a2 < a1 + n1 && n1 != 0 && n2 != 0

/-- The checks of BAD_CODEC_DESC (R330). -/
def codecDescBad (e : Entry) : Bool :=
  let comp := e.opcode == 1
  let level := e.f 6 63 60
  let src := (e.w 1).toNat
  let dst := (e.w 2).toNat
  let ctx := (e.w 4).toNat
  let n1 := e.f 3 63 32
  let n2 := e.f 3 31 0
  let ss := e.f 6 57 57
  let ds := e.f 6 56 56
  let cs := e.f 6 55 55
  (if comp then level == 0 || level > 12 else level != 0) || e.f 6 59 58 == 3 ||
    (if comp then e.f 6 52 52 == 1 || e.f 6 51 51 == 1 else e.f 6 53 53 == 1) ||
    (e.f 6 54 54 == 1 && ctx == 0) || ctx % 4096 != 0 || overlap ss src n1 ds dst n2 ||
    (ctx != 0 && (overlap cs ctx 65536 ss src n1 || overlap cs ctx 65536 ds dst n2))

/-- Bytes 64 to 65,535 of context number `k`. -/
def contextBody (k : Nat) : List Byte := (List.range 65472).map (fun i => Config.contextByte k (i + 64))

/-- The header of context number `k` for a stream (R334). -/
def contextHeader (x : CodecStream) (k : Nat) : List W64 :=
  [pack [(1, 48), (if x.decompress then 2 else 1, 46), (x.container, 44), (x.level, 40), (1, 0)],
   pack [(x.crc, 32), (x.adler, 0)], BitVec.ofNat 64 x.total, pack [(crc32 (contextBody k), 32)], 0, 0, 0, 0]

/-- The stream that a context's bytes hold, if its header passes R334 and names the entry's opcode, container and level. A context
that this codec has not written is none. -/
def Dev.readContext (d : Dev) (e : Entry) (bs : List Byte) : Option CodecStream :=
  let w := fun (i : Nat) => BitVec.ofNat 64 (leNat ((bs.drop (8 * i)).take 8))
  let dir := if e.opcode == 2 then 2 else 1
  let body := (bs.drop 64).take 65472
  if wbits (w 0) 63 48 == 1 && wbits (w 0) 47 46 == dir && wbits (w 0) 45 44 == e.f 6 59 58 && wbits (w 0) 43 40 == e.f 6 63 60 &&
      wbits (w 0) 0 0 == 1 && wbits (w 3) 63 32 == crc32 body then
    (d.cdc.contexts.find? (fun c => contextBody c.1 == body)).map (·.2)
  else none

/-- The stream that an entry without RESUME starts. -/
def newStream (e : Entry) : CodecStream := { decompress := e.opcode == 2, container := e.f 6 59 58, level := e.f 6 63 60 }

/-- Read `n` bytes at `a` for the codec: from the DRAM, or as host memory returns them. -/
def Dev.codecRead (d : Dev) (m : Mem) (space a n : Nat) (rd : HostRead) : Dev × HostRead :=
  if space == 0 then
    (d, match rd with | .ok bs => .ok (bs.take n) | .fail got => .fail (got.take n))
  else if d.dramOk a n then
    match rd with
    | .ok _ => (d, .ok (d.dramGet m a n))
    | .fail got =>
      (d.dramRead (a + min got.length (n - 1)) 2 .uncorrectable, .fail (d.dramGet m a (min got.length n)))
  else
    let top := gib * (d.ddrSize 0 + d.ddrSize 1)
    (d.dramAddrErr (max a top) 2, .fail (d.dramGet m a (top - a)))

/-- Write bytes for the codec; a DRAM range that does not exist fails. -/
def Dev.codecWrite (d : Dev) (m : Mem) (space a : Nat) (bs : List Byte) : Mem × Dev × Bool :=
  if bs.isEmpty then (m, d, true)
  else if space == 0 then (m, d.emit (.hostBytes a bs), true)
  else if d.dramOk a bs.length then (d.dramPut m a bs, d, true)
  else (m, d.dramAddrErr (max a (gib * (d.ddrSize 0 + d.ddrSize 1))) 2, false)

/-! ## DONE entries (R332, R341) -/

/-- Complete a codec entry with its results (R332, R341, R342). -/
def Dev.codecDone (d : Dev) (e : Entry) (r : CodecResult) : Dev :=
  let d := d.complete e 128 r.code r.blocks
    [pack [(r.consumed, 32), (r.bytes.length, 0)], pack [(r.stream.crc, 32), (r.stream.adler, 0)],
     BitVec.ofNat 64 r.stream.total, pack [(bit r.isOpen, 63), (r.errOffset % 2 ^ 32, 0)]]
  let d := ((d.bump Reg.CDC_STAT_JOBS_COUNT).bump Reg.CDC_STAT_IN_BYTES_COUNT r.consumed).bump Reg.CDC_STAT_OUT_BYTES_COUNT
    r.bytes.length
  if r.code ≥ 0x8003 then d.bump Reg.CDC_STAT_ERRORS_COUNT else d

/-- Complete an entry that never ran: all counts 0. -/
def Dev.codecReject (d : Dev) (e : Entry) (code : Nat) : Dev := d.codecDone e { code, stream := newStream e }

/-! ## The commands (R330, R331, R335, R338) -/

/-- COMPRESS or DECOMPRESS: the checks, and the queue (R330, R331). -/
def Dev.codecEntry (d : Dev) (m : Mem) (n op : Nat) (ctx : HostRead) : Dev :=
  match d.front n 5 op with
  | none => d
  | some e =>
    if !d.isNext 5 e then d
    else if d.act Reg.CDC_CTL_EN == 0 then (d.pop n).codecReject e 0x8003
    else if d.cdc.queue.length ≥ 8 then d
    else if codecDescBad e then (d.pop n).codecReject e 0x8004
    else if e.f 6 54 54 == 0 then { d.pop n with cdc.queue := d.cdc.queue ++ [{ entry := e, stream := newStream e }] }
    else if e.f 6 55 55 == 0 && !d.canRequest then d
    else
      let d := if e.f 6 55 55 == 0 then d.emit (.hostRead (e.w 4).toNat 65536) else d
      match d.codecRead m (e.f 6 55 55) (e.w 4).toNat 65536 ctx with
      | (d, .fail _) => (d.pop n).codecReject e 0x8010
      | (d, .ok bs) => match d.readContext e bs with
        | some x => { d.pop n with cdc.queue := d.cdc.queue ++ [{ entry := e, stream := x }] }
        | none => (d.pop n).codecReject e 0x8005

/-- CODEC_JOB_RUN: the next job starts, not before its START_BEAT (R329, R331). -/
def Dev.codecStart (d : Dev) : Dev :=
  match d.cdc.job, d.cdc.queue with
  | none, j :: t =>
    if j.entry.sched && d.beatAhead j.entry.startBeat then d
    else if j.entry.f 6 57 57 == 0 && !d.canRequest then d
    else
      let d := { d with cdc.job := some j, cdc.queue := t }
      if j.entry.f 6 57 57 == 0 && j.entry.f 3 63 32 != 0 then d.emit (.hostRead (j.entry.w 1).toNat (j.entry.f 3 63 32)) else d
  | _, _ => d

/-- Save or spoil a job's context (R335). -/
def Dev.saveContext (d : Dev) (m : Mem) (e : Entry) (r : CodecResult) : Mem × Dev :=
  let ctx := (e.w 4).toNat
  if ctx == 0 then (m, d)
  else if r.isOpen then
    let (k, d) := ((d.freeCount, { d with freeCount := d.freeCount + 1 }) : Nat × Dev)
    let w := d.codecWrite m (e.f 6 55 55) ctx (wordBytes (contextHeader r.stream k) ++ contextBody k)
    (w.1, { w.2.1 with cdc.contexts := (k, r.stream) :: w.2.1.cdc.contexts })
  else if r.code != 0 then
    let w := d.codecWrite m (e.f 6 55 55) ctx ((wordBytes (contextHeader r.stream 0)).take 8 |>.set 0 0)
    (w.1, w.2.1)
  else (m, d)

/-- CODEC_JOB_DONE: the running job ends (R332 to R337). `input` is what a read of host memory returned, or says whether a read of the
DRAM failed; `busErr` is a bus error met after so many good blocks. -/
def Dev.codecEnd (d : Dev) (m : Mem) (input : HostRead) (busErr : Option Nat) : Mem × Dev :=
  match d.cdc.job with
  | none => (m, d)
  | some j =>
    let e := j.entry
    let hostOut := e.f 6 56 56 == 0 || (e.w 4 != 0 && e.f 6 55 55 == 0)
    if hostOut && !d.canRequest then (m, d)
    else
      let d := { d with cdc.job := none }
      let (d, rd) := d.codecRead m (e.f 6 57 57) (e.w 1).toNat (e.f 3 63 32) input
      let comp := e.opcode == 1
      let cut : CodecCut := { stop := j.stop, bus := busErr }
      let r := match rd with
        | .ok src => if comp then runDeflate e j.stream src cut else runInflate e j.stream src cut
        | .fail src => if comp then busDeflate e j.stream src cut else busInflate e j.stream src cut
      let r := if busErr.isSome && r.code != 0x8010 then { r with code := 0x8010, isOpen := false, errOffset := 0 } else r
      let w := d.codecWrite m (e.f 6 56 56) (e.w 2).toNat r.bytes
      let r := if w.2.2 then r
        else { code := 0x8010, stream := j.stream }
      let s := w.2.1.saveContext w.1 e r
      (s.1, s.2.codecDone e r)

/-- EN of CDC_CTL as a beat or service edge samples it (R20, R338): EN 0 drains the running job and completes the queue; how far the job has
got is not stated. -/
def Dev.codecEdge (was : RegFile) (d : Dev) : Dev :=
  if d.turnsOff was Reg.CDC_CTL_EN then
    let (fv, d) := d.free
    let q := d.cdc.queue
    let d := { d with cdc.queue := [], cdc.job := d.cdc.job.map (fun j => { j with stop := j.stop.or (some fv) }) }
    let d := q.foldl (fun (d : Dev) j => d.codecReject j.entry 0x8003) d
    forRange 64 d (fun d n =>
      ((d.ring n).inQ.filter (fun e => e.cls == 5)).foldl (fun d e => (d.pop n).codecReject e 0x8003) d)
  else d

/-! ## Meanings -/

/-- COMPRESS (R329, R330). -/
def execCompress (ring : Nat) (ctx : HostRead) (s : State) : Host.Outcome State Fault Refusal :=
  s.mainOnly { s with dev := s.dev.codecEntry s.mem ring 1 ctx }

/-- DECOMPRESS (R329, R330). -/
def execDecompress (ring : Nat) (ctx : HostRead) (s : State) : Host.Outcome State Fault Refusal :=
  s.mainOnly { s with dev := s.dev.codecEntry s.mem ring 2 ctx }

/-- CODEC_JOB_RUN (R331). -/
def execCodecJobRun (s : State) : Host.Outcome State Fault Refusal := s.mainOnly { s with dev := s.dev.codecStart }

/-- CODEC_JOB_DONE (R332). -/
def execCodecJobDone (input : HostRead) (busErr : Option Nat) (s : State) : Host.Outcome State Fault Refusal :=
  let r := s.dev.codecEnd s.mem input busErr
  s.mainOnly { s with mem := r.1, dev := r.2 }

/-- CODEC_DISABLE (R338): a write of CDC_CTL with EN 0. -/
def execCodecDisable (_src : Source) (v : W64) (s : State) : Host.Outcome State Fault Refusal :=
  s.mainOnly { s with dev := if Reg.CDC_CTL_EN.of v == 0 then s.dev.store Reg.CDC_CTL v 0 0 else s.dev }

/-- CODEC_ENABLE (R338): a write of CDC_CTL with EN 1. -/
def execCodecEnable (_src : Source) (v : W64) (s : State) : Host.Outcome State Fault Refusal :=
  s.mainOnly { s with dev := if Reg.CDC_CTL_EN.of v == 1 then s.dev.store Reg.CDC_CTL v 0 0 else s.dev }

end Sys2Proof.Machine
end

