-- ==== Sys2Proof/Machine/Dma.lean ====
section
/-!
DEFINITION. DMA: the movers' entries, bursts, completion, bus errors, aborts and disables (chapter 12).
-/
namespace Sys2Proof.Machine

/-! ## A MOVE's operands (R347) -/

def moveCount (e : Entry) : Nat := e.f 3 63 32
def moveStride (e : Entry) : Nat := e.f 3 31 0
def moveMode (e : Entry) : Nat := e.f 4 63 60
def moveSize (e : Entry) : Nat := 2 ^ e.f 4 59 58
def moveSrc (e : Entry) : Nat := e.f 4 57 56
def moveDst (e : Entry) : Nat := e.f 4 55 54
def moveChan (e : Entry) : Nat := e.f 4 53 49
def moveCrc (e : Entry) : Bool := e.f 4 48 48 == 1
def moveStreams (e : Entry) : Nat := e.f 4 47 44 + 1
def moveFirstBit (e : Entry) : Nat := e.f 4 43 38
def movePlanes (e : Entry) : Nat := e.f 4 37 32 + 1
def moveReadBack (e : Entry) : Bool := e.f 4 31 31 == 1

/-! ## What each mode moves (R348) -/

/-- Address ranges of the elements [a, a + n) laid out in one run from `base`, `per` of them an index. -/
def runOf (e : Entry) (base per a n : Nat) : List (Nat × Nat) := [(base + a * per * moveSize e, n * per * moveSize e)]

/-- Address ranges of the elements [a, a + n) of each stream from `base`. -/
def streamsOf (e : Entry) (base a n : Nat) : List (Nat × Nat) :=
  (List.range (moveStreams e)).map (fun k => (base + k * moveStride e + a * moveSize e, n * moveSize e))

/-- Address ranges of the bits [a, a + n) of each plane from `base`. -/
def planesOf (e : Entry) (base a n : Nat) : List (Nat × Nat) :=
  (List.range (movePlanes e)).map (fun k => (base + k * moveStride e + a / 8, n / 8))

/-- Source ranges of the elements [a, a + n). -/
def moveReads (e : Entry) (a n : Nat) : List (Nat × Nat) :=
  let base := (e.w 1).toNat
  match moveMode e with
  | 2 => planesOf e base a n
  | 3 => streamsOf e base a n
  | 4 => runOf e base (moveStreams e) a n
  | _ => runOf e base 1 a n

/-- Destination ranges of the elements [a, a + n). -/
def moveWrites (e : Entry) (a n : Nat) : List (Nat × Nat) :=
  let base := (e.w 2).toNat
  match moveMode e with
  | 1 => planesOf e base a n
  | 3 => runOf e base (moveStreams e) a n
  | 4 => streamsOf e base a n
  | _ => runOf e base 1 a n

/-- Bytes in a list of ranges. -/
def rangeBytes (rs : List (Nat × Nat)) : Nat := rs.foldl (fun a r => a + r.2) 0

/-- Element `i` of a run of `size`-byte elements. -/
def elementAt (bs : List Byte) (size i : Nat) : Nat := leNat ((bs.drop (i * size)).take size)

/-- Bytes of a plane: bit `bit'` of each element, packed least significant bit first. -/
def planeBytes (els : List Nat) (bit' n : Nat) : List Byte :=
  (List.range (n / 8)).map (fun j => BitVec.ofNat 8 (bitset 8 (fun i => bitOf (els.getD (8 * j + i) 0) bit')))

/-- The bytes a burst of `n` elements writes, from the bytes it read, both in the order of their ranges (R348). -/
def moveData (e : Entry) (n : Nat) (rd : List Byte) : List Byte :=
  let sz := moveSize e
  match moveMode e with
  | 1 =>
    let els := (List.range n).map (fun i => elementAt rd sz i)
    (List.range (movePlanes e)).flatMap (fun k => planeBytes els (moveFirstBit e + k) n)
  | 2 =>
    (List.range n).flatMap (fun i => leBytes sz ((List.range (movePlanes e)).foldl (fun a k =>
      a + bit (bitOf (rd.getD (k * (n / 8) + i / 8) 0).toNat (i % 8)) * 2 ^ (moveFirstBit e + k)) 0))
  | 3 =>
    (List.range n).flatMap (fun j => (List.range (moveStreams e)).flatMap (fun k =>
      (rd.drop ((k * n + j) * sz)).take sz))
  | 4 =>
    (List.range (moveStreams e)).flatMap (fun k => (List.range n).flatMap (fun j =>
      (rd.drop ((j * moveStreams e + k) * sz)).take sz))
  | _ => rd

/-! ## Checks (R349) -/

/-- The DMA region of the SRAM (R364). -/
def inDmaRegion (r : Nat × Nat) : Bool := 0x2200000 ≤ r.1 && r.1 + r.2 ≤ 0x3600000

/-- Two ranges share a byte. -/
def rangesMeet (a b : Nat × Nat) : Bool := a.2 != 0 && b.2 != 0 && a.1 < b.1 + b.2 && b.1 < a.1 + a.2

/-- The number of the first check of R349 that a MOVE fails; 0 none. The enable of its channel belongs to check 1. -/
def moveCheck (e : Entry) : Nat :=
  let mode := moveMode e
  let count := moveCount e
  let sz := moveSize e
  let stride := moveStride e
  let rd := moveReads e 0 count
  let wr := moveWrites e 0 count
  let plane := mode == 1 || mode == 2
  let stream := mode == 3 || mode == 4
  if mode > 4 || moveSrc e == 3 || moveDst e == 3 then 1
  else if mode == 0 && (count == 0 || stride != 0 || moveStreams e != 1 || moveFirstBit e != 0 || movePlanes e != 1) then 2
  else if plane && (count == 0 || count % 64 != 0 || moveFirstBit e + movePlanes e > 8 * sz || stride % 8 != 0 ||
      stride * 8 < count || moveCrc e || moveStreams e != 1) then 3
  else if stream && (moveStreams e < 2 || stride % sz != 0 || stride < count * sz || moveCrc e || moveFirstBit e != 0 ||
      movePlanes e != 1) then 4
  else if mode != 0 && ((e.w 1).toNat % sz != 0 || (e.w 2).toNat % sz != 0) then 5
  else if rangeBytes rd > 0xFFFFFFFF || rangeBytes wr > 0xFFFFFFFF then 6
  else if (moveSrc e == 2 && !rd.all inDmaRegion) || (moveDst e == 2 && !wr.all inDmaRegion) then 7
  else if moveSrc e == moveDst e && rd.any (fun a => wr.any (rangesMeet a)) then 8
  else if moveReadBack e && moveDst e != 0 then 9
  else 0

/-! ## Channels -/

/-- Channel `c`. -/
def Dev.mover (d : Dev) (c : Nat) : DmaChan := at' d.dma.ch c

/-- Change channel `c`. -/
def Dev.updMover (d : Dev) (c : Nat) (f : DmaChan → DmaChan) : Dev := { d with dma.ch := upd d.dma.ch c f }

/-- Channel `c`'s event source (chapter 12, Codes). -/
def dmaSource (c : Nat) : Nat := 144 + c / 2

/-- The elements of a MOVE's burst at element `a`: how many it has (R350). -/
def burstLen (e : Entry) (a : Nat) : Nat :=
  min (moveCount e - a) (if moveMode e == 0 then 4096 / moveSize e else 512)

/-- A MOVE completes (R352, R362). `side` is 0 none, 1 read, 2 write. -/
def Dev.moveDone (d : Dev) (c : Nat) (e : Entry) (code check done crc addr side : Nat) : Dev :=
  let d := if code == 0x9001 then (d.raise (dmaSource c) c code c).bump Reg.DMA_STAT_BAD_COUNT
    else if code == 0x9002 then (d.raise (dmaSource c) c code c).bump Reg.DMA_STAT_ABORTED_COUNT else d
  (d.complete e (dmaSource c) code (c + 256 * check)
    [pack [(done, 32), (moveCount e - done, 0)], pack [(crc, 32)], BitVec.ofNat 64 addr, pack [(side, 62)]]).bump
    Reg.DMA_STAT_ENTRIES_COUNT

/-- A MOVE completes unstarted. -/
def Dev.moveReject (d : Dev) (e : Entry) (code check : Nat) : Dev := d.moveDone (moveChan e) e code check 0 0 0 0

/-- Every entry of channel `c`'s queue completes with a code, in queue order (R355, R357). -/
def Dev.flushChan (d : Dev) (c code : Nat) : Dev :=
  (d.mover c).queue.foldl (fun d e => d.moveReject e code 0) (d.updMover c (fun x => { x with queue := [] }))

/-- The running MOVE ends: its DONE entry, then the abort's, then a flush (R354, R355). -/
def Dev.runEnd (d : Dev) (c : Nat) (r : DmaRun) (code addr side : Nat) : Dev :=
  let d := (d.updMover c (fun x => { x with run := none })).moveDone c r.entry code 0 r.done (if moveCrc r.entry then r.crc else 0)
    addr side
  let d := match r.abort with | some a => d.complete a (dmaSource c) 0 | none => d
  match r.flush with | some code => d.flushChan c code | none => d

/-- The read requests that a burst at element `a` sends to host memory. -/
def Dev.issueReads (d : Dev) (e : Entry) (a : Nat) : Dev :=
  if moveSrc e == 0 then (moveReads e a (burstLen e a)).foldl (fun d r => d.emit (.hostRead r.1 r.2)) d else d

/-- DMA_ENTRY_START: an idle, enabled channel takes the first entry of its queue, once its beat has come (R344, R346). -/
def Dev.moveStart (d : Dev) (c : Nat) : Dev :=
  let x := d.mover c
  match x.run, x.queue with
  | none, e :: t =>
    if !d.on Reg.DMA_CHAN_CFG_EN c || (e.sched && d.beatAhead e.startBeat) || (moveSrc e == 0 && !d.canRequest) then d
    else
      let r : DmaRun := { entry := e }
      let d := d.updMover c (fun _ => { run := some r, queue := t, done := 0, count := moveCount e })
      if moveCount e == 0 then d.runEnd c r 0 0 0 else d.issueReads e 0
  | _, _ => d

/-! ## Bursts (R350, R351, R353, R354) -/

/-- The free bytes a failing burst leaves in a range of the DRAM or the SRAM (R354). -/
def Dev.spoil (d : Dev) (m : Mem) (space : Nat) (rs : List (Nat × Nat)) : Mem × Dev :=
  if space == 0 then (m, d)
  else rs.foldl (fun (p : Mem × Dev) r => forRange r.2 p (fun p i =>
    let (v, d) := p.2.free
    let b : List Byte := [BitVec.ofNat 8 v]
    if space == 1 then (if d.dramOk (r.1 + i) 1 then d.dramPut p.1 (r.1 + i) b else p.1, d)
    else (p.1.putSram (r.1 + i) b, d))) (m, d)

/-- The running MOVE meets its first bus error (R354). -/
def Dev.moveBad (d : Dev) (m : Mem) (c : Nat) (r : DmaRun) (addr side : Nat) : Mem × Dev :=
  let (m, d) := if r.readBack then (m, d)
    else d.spoil m (moveDst r.entry) (moveWrites r.entry r.done (burstLen r.entry r.done))
  (m, d.runEnd c r 0x9001 addr side)

/-- The first byte of the ranges that no DRAM channel in service holds. -/
def Dev.dramMiss (d : Dev) (rs : List (Nat × Nat)) : Option Nat :=
  (rs.find? (fun r => !d.dramOk r.1 r.2)).map (fun r => max r.1 (gib * (d.ddrSize 0 + d.ddrSize 1)))

/-- The first poisoned SRAM word the ranges read. -/
def Mem.poisonIn (m : Mem) (rs : List (Nat × Nat)) : Option Nat :=
  rs.findSome? (fun r => (m.poisoned.find? (fun p => p * 8 < r.1 + r.2 && r.1 < p * 8 + 8)).map (fun p => max (p * 8) r.1))

/-- The access of a burst that fails for a reason the device itself sees: its address and side. -/
def Dev.burstFault (d : Dev) (m : Mem) (e : Entry) (rd wr : List (Nat × Nat)) : Option (Nat × Nat × Dev) :=
  let src := if moveSrc e == 1 then (d.dramMiss rd).map (fun a => (a, 1, d.dramAddrErr a 3))
    else if moveSrc e == 2 then (m.poisonIn rd).map (fun a => (a, 1, d.sramRead 9 a .uncorrectable))
    else none
  src.or (if moveDst e == 1 then (d.dramMiss wr).map (fun a => (a, 2, d.dramAddrErr a 3)) else none)

/-- The bytes of a burst's source ranges: what host memory returned, or what the DRAM or the SRAM holds. -/
def Dev.burstRead (d : Dev) (m : Mem) (e : Entry) (rs : List (Nat × Nat)) (rd : List Byte) : List Byte :=
  match moveSrc e with
  | 0 => rd.take (rangeBytes rs) ++ List.replicate (rangeBytes rs - rd.length) 0
  | 1 => rs.flatMap (fun r => d.dramGet m r.1 r.2)
  | _ => rs.flatMap (fun r => readBytes m.sram r.1 r.2)

/-- Write a burst's bytes, range by range. -/
def Dev.burstWrite (d : Dev) (m : Mem) (space : Nat) : List (Nat × Nat) → List Byte → Mem × Dev
  | [], _ => (m, d)
  | r :: t, bs =>
    let part := bs.take r.2
    match space with
    | 0 => (d.emit (.hostBytes r.1 part)).burstWrite m space t (bs.drop r.2)
    | 1 => d.burstWrite (d.dramPut m r.1 part) space t (bs.drop r.2)
    | _ => d.burstWrite (m.putSram r.1 part) space t (bs.drop r.2)

/-- A burst is written: the MOVE goes on, is read back, or ends (R350 to R355). -/
def Dev.afterBurst (d : Dev) (c : Nat) (r : DmaRun) : Dev :=
  let e := r.entry
  let d := d.updMover c (fun x => { x with done := r.done, run := some r })
  match r.aborting with
  | some k =>
    if k ≤ 1 then d.runEnd c r 0x9002 0 0 else d.updMover c (fun x => { x with run := some { r with aborting := some (k - 1) } })
  | none =>
    if r.done < moveCount e then d.issueReads e r.done
    else if moveReadBack e then
      let wr := moveWrites e 0 (moveCount e)
      let n := min 4 (rangeBytes wr)
      let last := wr.getLastD (0, 0)
      (d.updMover c (fun x => { x with run := some { r with readBack := true } })).emit (.hostRead (last.1 + last.2 - n) n)
    else d.runEnd c r 0 0 0

/-- DMA_BURST_WRITTEN: every write of the running MOVE's next burst has its response. `rd` is what the reads of host memory
returned, in the order of the source ranges. -/
def Dev.burstWritten (d : Dev) (m : Mem) (c : Nat) (rd : List Byte) : Mem × Dev :=
  match (d.mover c).run with
  | none => (m, d)
  | some r =>
    let e := r.entry
    if r.readBack || ((moveSrc e == 0 || moveDst e == 0) && !d.canRequest) then (m, d)
    else
      let n := burstLen e r.done
      let src := moveReads e r.done n
      let dst := moveWrites e r.done n
      match d.burstFault m e src dst with
      | some (addr, side, d) => d.moveBad m c r addr side
      | none =>
        let bs := moveData e n (d.burstRead m e src rd)
        let (m, d) := d.burstWrite m (moveDst e) dst bs
        let d := (d.bump Reg.DMA_STAT_BYTES_READ_COUNT (rangeBytes src)).bump Reg.DMA_STAT_BYTES_WRITTEN_COUNT (rangeBytes dst)
        (m, d.afterBurst c { r with done := r.done + n, crc := crcOn r.crc bs })

/-- READ_BACK_COMPLETE (R353). -/
def Dev.readBackDone (d : Dev) (c : Nat) : Dev :=
  match (d.mover c).run with
  | some r => if r.readBack then d.runEnd c r 0 0 0 else d
  | none => d

/-- A bus error that the access itself reports: a failed or poisoned completion, an uncorrectable error, or a request
abandoned with the link (R354). -/
def Dev.busError (d : Dev) (m : Mem) (c addr side : Nat) : Mem × Dev :=
  match (d.mover c).run with
  | some r => d.moveBad m c r addr side
  | none => (m, d)

/-! ## The front end, aborts and disables (R343, R355 to R358) -/

/-- The MOVEs of ring `n` that wait in the input queue. -/
def Dev.movesOf (d : Dev) (n : Nat) : List Entry := (d.ring n).inQ.filter (fun e => e.cls == 6 && e.opcode == 1)

/-- Take one entry out of ring `n`'s part of the input queue. -/
def Dev.takeOut (d : Dev) (e : Entry) : Dev :=
  d.updRing e.ring (fun r => { r with inQ := r.inQ.filter (fun x => x.seq != e.seq) })

/-- DMA_MOVE: the MOVE at the head of the input queue is checked and goes to its channel's queue (R343, R349). -/
def Dev.moveEntry (d : Dev) (n : Nat) : Dev :=
  match d.movesOf n with
  | [] => d
  | e :: _ =>
    let c := moveChan e
    if (List.range 64).any (fun m => (d.movesOf m).any (fun x => x.seq < e.seq)) || d.island 576 == 2 then d
    else if moveCheck e == 1 then (d.takeOut e).moveReject e 0x9004 1
    else if !d.on Reg.DMA_CHAN_CFG_EN c then (d.takeOut e).moveReject e 0x9005 0
    else if moveCheck e != 0 then (d.takeOut e).moveReject e 0x9004 (moveCheck e)
    else if (d.mover c).queue.length ≥ 4 then d
    else (d.takeOut e).updMover c (fun x => { x with queue := x.queue ++ [e] })

/-- Abort the running MOVE `r` of channel `c`: the bursts whose writes have begun, up to 4 and not stated how many, are finished
(R350, R355). -/
def Dev.abortRun (d : Dev) (c : Nat) (r : DmaRun) : Dev :=
  let per := if moveMode r.entry == 0 then 4096 / moveSize r.entry else 512
  let left := (moveCount r.entry - r.done + per - 1) / per
  let (v, d) := d.free
  let k := v % (min 4 left + 1)
  if k == 0 then d.runEnd c r 0x9002 0 0 else d.updMover c (fun x => { x with run := some { r with aborting := some k } })

/-- DMA_ABORT: it acts ahead of everything that waits (R355, R358). -/
def Dev.moveAbort (d : Dev) (n : Nat) : Dev :=
  match (d.ring n).inQ.find? (fun e => e.cls == 6 && e.opcode == 2 && !(e.sched && d.beatAhead e.startBeat)) with
  | none => d
  | some e =>
    if d.island 576 == 2 then d
    else
      let d := d.takeOut e
      let c := e.f 1 4 0
      let flush := e.f 1 8 8 == 1
      match (d.mover c).run with
      | some r =>
        if r.readBack || r.aborting.isSome then
          let d := d.complete e (dmaSource c) 0x9007
          if flush then d.flushChan c 0x9006 else d
        else d.abortRun c { r with abort := some e, flush := if flush then some 0x9006 else none }
      | none =>
        let d := d.complete e (dmaSource c) 0x9007
        if flush then d.flushChan c 0x9006 else d

/-- A write of DMA_CHAN_c_CFG (R360). -/
def Dev.writeChanCfg (d : Dev) (c : Nat) (v : W64) : Dev :=
  let w := Reg.DMA_CHAN_CFG_WEIGHT.of v
  if w < 1 || w > 8 then d.refuse Reg.DMA_CHAN_STATUS_REFUSED c else d.store Reg.DMA_CHAN_CFG v c 0

/-- EN of a channel as a beat or service edge samples it: one that goes to 0 aborts the running MOVE and flushes the queue (R20, R357). -/
def Dev.moverEdge (was : RegFile) (d : Dev) (c : Nat) : Dev :=
  if d.turnsOff was Reg.DMA_CHAN_CFG_EN c then
    let d := match (d.mover c).run with
      | some r => if r.readBack || r.aborting.isSome then d else d.abortRun c r
      | none => d
    d.flushChan c 0x9003
  else d

/-- A write of a DMA register (R357, R359 to R361). -/
def Dev.writeDma (d : Dev) (r : RegDef) (v : W64) (i j : Nat) : Dev :=
  if r.addr = Reg.DMA_CHAN_CFG.addr then d.writeChanCfg i v else d.store r v i j

/-! ## Meanings -/

/-- DMA_MOVE (R343, R346 to R349). -/
def execDmaMove (ring : Nat) (s : State) : Host.Outcome State Fault Refusal := s.mainOnly { s with dev := s.dev.moveEntry ring }

/-- DMA_ENTRY_START (R344). -/
def execDmaEntryStart (c : Nat) (s : State) : Host.Outcome State Fault Refusal := s.mainOnly { s with dev := s.dev.moveStart c }

/-- DMA_BURST_WRITTEN (R350, R351, R353). -/
def execDmaBurstWritten (c : Nat) (rd : List Byte) (s : State) : Host.Outcome State Fault Refusal :=
  let r := s.dev.burstWritten s.mem c rd
  s.mainOnly { s with mem := r.1, dev := r.2 }

/-- READ_BACK_COMPLETE (R353). -/
def execReadBackComplete (c : Nat) (s : State) : Host.Outcome State Fault Refusal := s.mainOnly { s with dev := s.dev.readBackDone c }

/-- DMA_BUS_ERROR (R354). -/
def execDmaBusError (c : Nat) (addr : W64) (write : Bool) (s : State) : Host.Outcome State Fault Refusal :=
  let r := s.dev.busError s.mem c addr.toNat (if write then 2 else 1)
  s.mainOnly { s with mem := r.1, dev := r.2 }

/-- DMA_ABORT (R355, R358). -/
def execDmaAbort (ring : Nat) (s : State) : Host.Outcome State Fault Refusal := s.mainOnly { s with dev := s.dev.moveAbort ring }

/-- DMA_CHANNEL_DISABLE (R357): a write of DMA_CHAN_c_CFG with EN 0. -/
def execDmaChannelDisable (_src : Source) (c : Nat) (v : W64) (s : State) : Host.Outcome State Fault Refusal :=
  s.mainOnly { s with dev := if c < 32 && s.dev.cur Reg.DMA_CHAN_CFG_EN c == 1 && Reg.DMA_CHAN_CFG_EN.of v == 0 then
            s.dev.writeChanCfg c v else s.dev }

end Sys2Proof.Machine
end

