-- ==== Sys2Proof/Machine/Memc.lean ====
section
/-!
DEFINITION. MEM: the scrubber, BAR2, the DRAM channels, refresh and row disturbance (R36; chapter 13).
-/
namespace Sys2Proof.Machine

/-! ## The SRAM: poison, BAR2 and the scrubber (R36, R366 to R368) -/

/-- The word at byte address `a` holds an uncorrectable error (R366). -/
def Mem.poison (m : Mem) (a : Nat) : Mem := { m with poisoned := insertRising (a / 8) m.poisoned }

/-- What a read of the word at `a` finds: an error already known to stand there stands. -/
def Mem.eccAt (m : Mem) (a : Nat) (ecc : EccRead) : EccRead := if m.isPoisoned a then .uncorrectable else ecc

/-- A read of the SRAM word at `a` for requester `blk`, reported by MEM source `src` (R366). -/
def Dev.readSram (d : Dev) (m : Mem) (src blk a : Nat) (ecc : EccRead) : Mem × Dev :=
  let e := m.eccAt a ecc
  (if e == .uncorrectable then m.poison a else m, d.sramErr src blk a e)

/-- SCRUB_READ (R368): a write-back that meets another write in its cycle is dropped, and the other write's word stands. -/
def Dev.scrubRead (d : Dev) (m : Mem) (a : Nat) (ecc : EccRead) (clash : Bool) : Mem × Dev :=
  if d.act Reg.MEM_SRAM_CTL_SCRUB_PERIOD == 0 then (m, d)
  else
    let r := d.readSram m 161 10 (a / 8 * 8) ecc
    (if clash then m else r.1, r.2)

/-- The words that a write of `n` bytes at `a` covers in part: each is read first (R366). -/
def partialWords (a n : Nat) : List Nat :=
  if n = 0 then []
  else
    let first := a / 8
    let last := (a + n - 1) / 8
    (if a % 8 != 0 || a + n < first * 8 + 8 then [first] else []) ++
      (if last != first && (a + n) % 8 != 0 then [last] else [])

/-- Read the partly written words: `ecc` is what the first of them shows. -/
def Dev.readPartials (d : Dev) (m : Mem) (ecc : EccRead) : List Nat → Mem × Dev
  | [] => (m, d)
  | w :: t =>
    let r := if w * 8 < sramReserved then d.readSram m 160 1 (w * 8) ecc else (m, d)
    r.2.readPartials r.1 .clean t

/-- BAR2_WRITE (R36, R364, R366). -/
def Dev.bar2Write (d : Dev) (m : Mem) (a : Nat) (bs : List Byte) (ecc : EccRead) : Mem × Dev :=
  if d.on Reg.HST_CTL_BAR2_WR_EN && !d.courseOpen then
    let r := d.readPartials m ecc (partialWords a bs.length)
    (r.1.putMapped a bs, r.2)
  else (m, d.bump Reg.HST_BAR2_DROPS_COUNT)

/-- An address of the internal working store, whose layout R364 does not give. -/
def sramWorking (a : Nat) : Bool := 0x2080000 ≤ a && a < 0x2200000

/-- BAR2_READ of the 64-bit word at `a` (R36): in the internal working store the value of the word is open. -/
def Dev.bar2Read (d : Dev) (m : Mem) (a : Nat) (ecc : EccRead) : Mem × Dev :=
  let w := a / 8 * 8
  if w < sramReserved then
    let r := d.readSram m 160 1 w ecc
    let bad := m.eccAt w ecc == .uncorrectable
    if sramWorking w then
      let (v, d) := r.2.free
      (r.1, d.emit (.bar2 (leBytes 8 v) bad))
    else (r.1, r.2.emit (.bar2 (readBytes m.sram w 8) bad))
  else (m, d.emit (.bar2 (List.replicate 8 0) false))

/-! ## The DRAM channels (R372 to R376) -/

/-- A DRAM range of `n` bytes at `a` lies on channel `c` in whole or in part. -/
def Dev.dramUses (d : Dev) (c a n : Nat) : Bool :=
  let lo := if c == 0 then 0 else gib * d.ddrSize 0
  n != 0 && (d.interleaved || (a < lo + gib * d.ddrSize c && lo < a + n))

/-- The frame that a port would begin now: what its registers say of a frame's size. -/
def Dev.nextFrame (d : Dev) (c : Nat) (arm : Entry) : CamFrame :=
  { seq := 0, arm, sof := default, width := d.cur Reg.CAM_PORT_GEOM_WIDTH c, height := d.cur Reg.CAM_PORT_GEOM_HEIGHT c,
    bits := dtBits (d.cur Reg.CAM_PORT_CFG_DT c) }

/-- The slots of an ARMED or FRAME port's outputs. -/
def Dev.portRanges (d : Dev) (c : Nat) : List (Nat × Nat) :=
  match (d.cport c).arm with
  | some e =>
    let f := d.nextFrame c e
    if f.toDram then
      ((List.range 4).filter f.hasOut).map (fun o =>
        ((e.w (2 + o)).toNat, e.f 1 47 40 * ((f.outBytes o + 64 + 4095) / 4096 * 4096)))
    else []
  | none => []

/-- The DRAM ranges of the running codec job. -/
def Dev.jobRanges (d : Dev) : List (Nat × Nat) :=
  match d.cdc.job with
  | some j =>
    let e := j.entry
    (if e.f 6 57 57 == 1 then [((e.w 1).toNat, e.f 3 63 32)] else []) ++
      (if e.f 6 56 56 == 1 then [((e.w 2).toNat, e.f 3 31 0)] else []) ++
      (if e.f 6 55 55 == 1 && e.w 4 != 0 then [((e.w 4).toNat, 65536)] else [])
  | none => []

/-- The DRAM ranges of the running MOVE of mover `c`. -/
def Dev.runRanges (d : Dev) (c : Nat) : List (Nat × Nat) :=
  match (d.mover c).run with
  | some r =>
    let e := r.entry
    (if moveSrc e == 1 then moveReads e 0 (moveCount e) else []) ++ (if moveDst e == 1 then moveWrites e 0 (moveCount e) else [])
  | none => []

/-- A camera port, the codec or a mover uses channel `c` (R376). -/
def Dev.ddrInUse (d : Dev) (c : Nat) : Bool :=
  ((List.range 4).flatMap d.portRanges ++ d.jobRanges ++ (List.range 32).flatMap d.runRanges).any (fun r => d.dramUses c r.1 r.2)

/-- The ranges of MEM_DDR_c_CFG (R372, R381). -/
def ddrCfgOk (v : W64) : Bool :=
  let r := Reg.MEM_DDR_CFG_RATE.of v
  decide (3200 ≤ r) && decide (r ≤ 6400) && r % 400 == 0 && decide (Reg.MEM_DDR_CFG_DENSITY.of v ≤ 3)

/-- A write of MEM_DDR_c_CFG (R376, R381). -/
def Dev.writeDdrCfg (d : Dev) (c : Nat) (v : W64) : Dev :=
  let en := Reg.MEM_DDR_CFG_EN.of v == 1
  if d.cur Reg.MEM_DDR_CFG_EN c == 0 then
    if !ddrCfgOk v then d.refuse Reg.MEM_STATUS_REFUSED
    else d.store Reg.MEM_DDR_CFG v c 0
  else if en || d.changes Reg.MEM_DDR_CFG [Reg.MEM_DDR_CFG_EN] v c || d.ddrInUse c then d.refuse Reg.MEM_STATUS_REFUSED
  else d.store Reg.MEM_DDR_CFG v c 0

/-- EN of a DRAM channel as a beat or service edge samples it: initialisation starts, or the ranks go to self-refresh (R20, R375, R376). -/
def Dev.ddrEdge (d : Dev) (c : Nat) : Dev :=
  let on := d.on Reg.MEM_DDR_CFG_EN c
  if on && (d.ddr c).st == .off then d.updDdr c (fun x => { x with st := .init })
  else if !on && (d.ddr c).st != .off then d.updDdr c (fun x =>
    { x with st := .off, kept := x.st == .up || x.kept, throttled := [], postponed := Vector.replicate 2 0 })
  else d

/-- The bank groups of a rank: JEDEC's DDR5 gives 8 for ×8 devices and 4 for ×16 (PRESUMED, log). -/
def Dev.bankGroups (d : Dev) (c : Nat) : Nat := if d.cur Reg.MEM_DDR_CFG_WIDTH c == 1 then 4 else 8

/-- The pattern written to 8 addresses of each bank group of each rank (R375): the pattern and the addresses are not stated, so 64
free bytes land at each of as many free places of the channel. -/
def Dev.ddrPattern (d : Dev) (m : Mem) (c : Nat) : Mem × Dev :=
  let size := gib * d.ddrSize c
  forRange (8 * d.bankGroups c * (d.cur Reg.MEM_DDR_CFG_RANKS c + 1)) (m, d) (fun p _ =>
    let (a, d) := p.2.free
    let (v, d) := d.free
    (p.1.putDram (dramCell c (a % (size / 64) * 64)) (leBytes 64 v), d))

/-- DDR_INIT_DONE (R375): `bad` is the first rank and lane whose reads did not match. -/
def Dev.ddrInitDone (d : Dev) (m : Mem) (c : Nat) (bad : Option (Nat × Nat)) : Mem × Dev :=
  if (d.ddr c).st != .init then (m, d)
  else
    let r := (d.updDdr c (fun x => { x with st := .up })).ddrPattern m c
    match bad with
    | none => r
    | some (rank, lane) =>
      (r.1, (r.2.updDdr c (fun x => { x with st := .down })).raise (162 + c) c 0xA005 (c % 2 + 2 * (rank % 2) + 4 * (lane % 8)))

/-! ## Refresh and row disturbance (R378, R379) -/

/-- DDR_REFRESH: a refresh falls due for a rank; it is postponed, up to 4 times, while requests wait, and else it and all postponed
ones are issued (R378). -/
def Dev.ddrRefresh (d : Dev) (c rank : Nat) (waiting : Bool) : Dev :=
  if (d.ddr c).st == .up && rank ≤ d.cur Reg.MEM_DDR_CFG_RANKS c then
    d.updDdr c (fun x => { x with postponed := upd x.postponed rank (fun n => if waiting && n < 4 then n + 1 else 0) })
  else d

/-- A window of 32 ms of domain time has ended (R379, R382). How many activations were delayed in it follows from requests the model does not time. -/
def Dev.rowWindowEnd (d : Dev) : Dev :=
  if d.beatWide / 640000 == d.memc.window then d
  else
    let d := if d.memc.ddr.toList.any (fun x => !x.throttled.isEmpty) then
        let (v, d) := d.free
        d.bump Reg.MEM_STAT_ACT_DELAYED_COUNT v
      else d
    { d with memc.window := d.beatWide / 640000, memc.ddr := d.memc.ddr.map (fun x => { x with throttled := [], reported := [] }),
             memc.actLimit := Vector.ofFn (fun i => d.cur Reg.MEM_DDR_ROW_ACT_LIMIT i.val),
             memc.gap := Vector.ofFn (fun i => d.cur Reg.MEM_DDR_ROW_THROTTLE_GAP i.val) }

/-- ACT_LIMIT_REACHED (R379, R386): the bank's activations for that requester are spaced from now on. -/
def Dev.actLimitReached (d : Dev) (c bank req : Nat) : Dev :=
  let x := d.ddr c
  if x.st != .up || at' d.memc.actLimit c == 0 || req ≥ 6 || bank ≥ 256 || x.throttled.contains (bank, req) then d
  else
    let said := d.memc.ddr.toList.any (fun x => x.reported.contains req)
    let d := d.updDdr c (fun x => { x with throttled := (bank, req) :: x.throttled,
                                           reported := if said then x.reported else req :: x.reported })
    if said then d
    else
      let (a, d) := d.free
      d.raise (162 + c) c 0xA006 (c + 256 * bank) [BitVec.ofNat 64 a, BitVec.ofNat 64 req]

/-! ## Register writes (R380 to R384) -/

/-- A write of a MEM register. -/
def Dev.writeMem (d : Dev) (r : RegDef) (v : W64) (i j : Nat) : Dev :=
  if r.addr = Reg.MEM_DDR_CFG.addr then d.writeDdrCfg i v
  else
    let ok : Bool :=
      if r.addr = Reg.MEM_SRAM_CTL.addr then
        Reg.MEM_SRAM_CTL_SCRUB_PERIOD.of v == 0 || decide (10 ≤ Reg.MEM_SRAM_CTL_SCRUB_PERIOD.of v)
      else if r.addr = Reg.MEM_DDR_TIMING.addr || r.addr = Reg.MEM_DDR_LANE.addr || r.addr = Reg.MEM_DDR_MR.addr then
        d.cur Reg.MEM_DDR_CFG_EN i == 0
      else true
    d.storeIf Reg.MEM_STATUS_REFUSED ok r v i j

/-! ## Meanings -/

/-- BAR2_WRITE (R36). -/
def execBar2Write (addr : Nat) (bytes : List Byte) (ecc : EccRead) (s : State) : Host.Outcome State Fault Refusal :=
  if addr + bytes.length > sramSize then .fault .noSuchMemory
  else
    let r := s.dev.bar2Write s.mem addr bytes ecc
    s.mainOnly { s with mem := r.1, dev := r.2 }

/-- BAR2_READ (R36). -/
def execBar2Read (addr : Nat) (ecc : EccRead) (s : State) : Host.Outcome State Fault Refusal :=
  if addr ≥ sramSize then .fault .noSuchMemory
  else
    let r := s.dev.bar2Read s.mem addr ecc
    s.mainOnly { s with mem := r.1, dev := r.2 }

/-- SCRUB_READ (R368). -/
def execScrubRead (addr : Nat) (ecc : EccRead) (clash : Bool) (s : State) : Host.Outcome State Fault Refusal :=
  if addr ≥ sramSize then .fault .noSuchMemory
  else
    let r := s.dev.scrubRead s.mem addr ecc clash
    s.mainOnly { s with mem := r.1, dev := r.2 }

/-- DRAM_READ_RETURN (R373, R374). -/
def execDramReadReturn (addr req : Nat) (ecc : EccRead) (s : State) : Host.Outcome State Fault Refusal :=
  s.mainOnly { s with dev := s.dev.dramRead addr req ecc }

/-- DDR_ENABLE (R375): a write of MEM_DDR_c_CFG that sets EN. -/
def execDdrEnable (_src : Source) (c : Nat) (v : W64) (s : State) : Host.Outcome State Fault Refusal :=
  s.mainOnly { s with dev := if c < 2 && s.dev.cur Reg.MEM_DDR_CFG_EN c == 0 && Reg.MEM_DDR_CFG_EN.of v == 1 then
            s.dev.writeDdrCfg c v else s.dev }

/-- DDR_INIT_DONE (R375). -/
def execDdrInitDone (c : Nat) (bad : Option (Nat × Nat)) (s : State) : Host.Outcome State Fault Refusal :=
  let r := s.dev.ddrInitDone s.mem c bad
  s.mainOnly { s with mem := r.1, dev := r.2 }

/-- DDR_DISABLE (R376): a write of MEM_DDR_c_CFG that clears EN. -/
def execDdrDisable (_src : Source) (c : Nat) (v : W64) (s : State) : Host.Outcome State Fault Refusal :=
  s.mainOnly { s with dev := if c < 2 && s.dev.cur Reg.MEM_DDR_CFG_EN c == 1 && Reg.MEM_DDR_CFG_EN.of v == 0 then
            s.dev.writeDdrCfg c v else s.dev }

/-- DDR_REFRESH (R378). -/
def execDdrRefresh (c rank : Nat) (waiting : Bool) (s : State) : Host.Outcome State Fault Refusal :=
  s.mainOnly { s with dev := s.dev.ddrRefresh c rank waiting }

/-- DDR_MR4_POLL (R378). -/
def execDdrMr4Poll (c : Nat) (doubled : Bool) (s : State) : Host.Outcome State Fault Refusal :=
  s.mainOnly { s with dev := if (s.dev.ddr c).st == .up then s.dev.updDdr c (fun x => { x with doubled := doubled }) else s.dev }

/-- ROW_WINDOW_END (R379). -/
def execRowWindowEnd (s : State) : Host.Outcome State Fault Refusal := s.mainOnly { s with dev := s.dev.rowWindowEnd }

/-- ACT_LIMIT_REACHED (R379). -/
def execActLimitReached (c bank req : Nat) (s : State) : Host.Outcome State Fault Refusal :=
  s.mainOnly { s with dev := s.dev.actLimitReached c bank req }

end Sys2Proof.Machine
end

