-- ==== Sys2Proof/Machine/Launch.lean ====
section
/-!
DEFINITION. TMB: timed launches and the stats epoch (R444, R445, R449, R452; R24, R95).
-/
namespace Sys2Proof.Machine

/-! ## Launch slots (R444, R445, R452) -/

/-- LAUNCH_TIME of slot `s`. -/
def Dev.launchTime (d : Dev) (s : Nat) : Nat := d.cur Reg.TMB_LAUNCH_TIME_TIME s

/-- Slot `s` is armed. -/
def Dev.launchArmed (d : Dev) (s : Nat) : Bool := s < 8 && d.cur Reg.TMB_LAUNCH_CTL_ARM s == 1

/-- The event of a launch slot: code, DETAIL above the slot number, and the time it carries. -/
def Dev.launchEvent (d : Dev) (s code extra ns frac : Nat) : Dev :=
  d.raise 196 s code (s + extra) [BitVec.ofNat 64 ns, pack [(frac, 48)]]

/-- ARM clears. -/
def Dev.launchEnd (d : Dev) (s : Nat) : Dev :=
  { d.setRwNow Reg.TMB_LAUNCH_CTL_ARM 0 s with tmb.launchReady := upd d.tmb.launchReady s (fun _ => false) }

/-- The port of a slot can send a frame now: it is up, and a Beat Link port has VL0 credit. -/
def Dev.launchPortOk (d : Dev) (p : Nat) : Bool :=
  if p < 10 then
    let v := at' (d.bl p).vl 0
    d.blUp p && decide ((v.started + 256 - v.credit) % 256 < vlSlots 0)
  else at' d.lnk.ethUp (p - 10)

/-- A write of TMB_LAUNCH_s_CTL (R445, R452). -/
def Dev.writeLaunchCtl (d : Dev) (s : Nat) (v : W64) : Dev :=
  let len := Reg.TMB_LAUNCH_CTL_LENGTH.of v
  let port := Reg.TMB_LAUNCH_CTL_PORT.of v
  let t := d.launchTime s
  let clash := (List.range 8).any (fun o => o != s && d.launchArmed o && d.cur Reg.TMB_LAUNCH_CTL_PORT o == port &&
    decide ((timeDiff (d.launchTime o) t).natAbs ≤ 4000))
  if len < 60 || len > 1536 || port > 11 then d.refuse Reg.TMB_STATUS_REFUSED
  else if Reg.TMB_LAUNCH_CTL_ARM.of v == 0 then
    { d.store Reg.TMB_LAUNCH_CTL v s 0 with tmb.launchReady := upd d.tmb.launchReady s (fun _ => false) }
  else if d.launchArmed s then d.refuse Reg.TMB_STATUS_REFUSED
  else if timeDiff t d.ns < 10000 then (d.refuse Reg.TMB_STATUS_REFUSED).launchEvent s 0xC00B 0 t 0
  else if clash then (d.refuse Reg.TMB_STATUS_REFUSED).launchEvent s 0xC00C 32 t 0
  else { d.store Reg.TMB_LAUNCH_CTL v s 0 with tmb.launchReady := upd d.tmb.launchReady s (fun _ => false) }

/-- LAUNCH_WINDOW: 4 µs before LAUNCH_TIME the port clears the way, or the launch fails (R445). -/
def Dev.launchWindow (d : Dev) (s : Nat) : Dev :=
  if !d.launchArmed s || at' d.tmb.launchReady s || timeDiff (d.launchTime s) d.ns > 4000 then d
  else if d.launchPortOk (d.cur Reg.TMB_LAUNCH_CTL_PORT s) then
    { d with tmb.launchReady := upd d.tmb.launchReady s (fun _ => true) }
  else (d.launchEnd s).launchEvent s 0xC00C 16 (d.launchTime s) 0

/-- Word `j` of slot `s`'s data. -/
def Dev.launchWord (d : Dev) (s j : Nat) : W64 := BitVec.ofNat 64 (d.cur Reg.TMB_LAUNCH_DATA_DATA s j)

/-- Send slot `s`'s frame on its port (R444): on Beat Link it goes ahead of the frames that wait on VL0. -/
def Dev.launchFrame (d : Dev) (s : Nat) : Dev :=
  let p := d.cur Reg.TMB_LAUNCH_CTL_PORT s
  if p < 10 then
    let f := d.newFrame 3 (d.cur Reg.TMB_LAUNCH_CTL_DST s) ((List.range 9).map (d.launchWord s))
    (d.updVl p 0 (fun v => { v with queue := f :: v.queue })).pumpPort p
  else
    d.emit (.eth (p - 10) ((wordBytes ((List.range 192).map (d.launchWord s))).take (d.cur Reg.TMB_LAUNCH_CTL_LENGTH s)))

/-- The actual time of a launch lies within one FCLK cycle (0.625 ns, 40,960 of 2^-16 ns) of LAUNCH_TIME. -/
def Dev.launchOnTime (d : Dev) (s ns frac : Nat) : Bool :=
  decide ((timeDiff ns (d.launchTime s) * 65536 + frac).natAbs ≤ 40960)

/-- LAUNCH_SEND (R444, R445). -/
def Dev.launchSend (d : Dev) (s ns frac : Nat) : Dev :=
  if !d.launchArmed s || !at' d.tmb.launchReady s || timeDiff (d.launchTime s) d.ns > 1 || !d.launchOnTime s ns frac then d
  else if d.launchPortOk (d.cur Reg.TMB_LAUNCH_CTL_PORT s) then
    (((d.launchEnd s).launchFrame s).launchEvent s 0xC00A 0 ns frac).bump Reg.TMB_STAT_LAUNCHES_COUNT
  else (d.launchEnd s).launchEvent s 0xC00C 16 (d.launchTime s) 0

/-- A write of a TMB register (R428, R432, R438, R446 to R452). -/
def Dev.writeTmb (d : Dev) (r : RegDef) (v : W64) (i j : Nat) : Dev :=
  if r.addr = Reg.TMB_CTL.addr then d.writeTmbCtl v
  else if r.addr = Reg.TMB_SET.addr then d.writeTmbSet v
  else if r.addr = Reg.TMB_STEP.addr then d.writeTmbStep v
  else if r.addr = Reg.TMB_LAUNCH_CTL.addr then d.writeLaunchCtl i v
  else if r.addr = Reg.TMB_LAUNCH_TIME.addr || r.addr = Reg.TMB_LAUNCH_DATA.addr then
    d.storeIf Reg.TMB_STATUS_REFUSED (!d.launchArmed i) r v i j
  else d.writeTmbPlain r v i j

/-! ## The stats epoch (R24, R95, R386, R449) -/

/-- STATS_EPOCH: in cycle 0 of a stats epoch beat or service edge every ROL counter latches. -/
def Dev.statsEpoch (d : Dev) : Dev :=
  if d.tmb.cycle != 0 || d.beatWide % (20000 * (d.act Reg.TMB_EPOCH_EPOCH_MS : Int)) != 0 then d
  else { d.latchRol with memc.ceSram := false, memc.ceDram := false }

/-! ## Meanings -/

/-- LAUNCH_ARM (R445): a write of TMB_LAUNCH_s_CTL that sets ARM. -/
def execLaunchArm (_src : Source) (sl : Nat) (v : W64) (s : State) : Host.Outcome State Fault Refusal :=
  s.mainOnly { s with dev := if sl < 8 && Reg.TMB_LAUNCH_CTL_ARM.of v == 1 then s.dev.writeLaunchCtl sl v else s.dev }

/-- LAUNCH_CANCEL (R452): a write of TMB_LAUNCH_s_CTL that clears ARM. -/
def execLaunchCancel (_src : Source) (sl : Nat) (v : W64) (s : State) : Host.Outcome State Fault Refusal :=
  s.mainOnly { s with dev := if s.dev.launchArmed sl && Reg.TMB_LAUNCH_CTL_ARM.of v == 0 then s.dev.writeLaunchCtl sl v else s.dev }

/-- LAUNCH_WINDOW (R445). -/
def execLaunchWindow (sl : Nat) (s : State) : Host.Outcome State Fault Refusal := s.mainOnly { s with dev := s.dev.launchWindow sl }

/-- LAUNCH_SEND (R444, R445). -/
def execLaunchSend (sl : Nat) (ns : W64) (frac : W16) (s : State) : Host.Outcome State Fault Refusal :=
  s.mainOnly { s with dev := s.dev.launchSend sl ns.toNat frac.toNat }

/-- STATS_EPOCH (R24, R95). -/
def execStatsEpoch (s : State) : Host.Outcome State Fault Refusal := s.mainOnly { s with dev := s.dev.statsEpoch }

end Sys2Proof.Machine
end

