-- ==== Sys2Proof/Machine/Axs.lean ====
section
/-!
DEFINITION. AXS: profiles, coordinated moves, replanning, limits, homing and stops of the stepper axes (chapter 16).
-/
namespace Sys2Proof.Machine

/-! ## Units, entries and axes -/

/-- One microstep in the units of positions. -/
def ustep : Int := 2000000000000

/-- The operand fields of a MOVE-class entry (R461). -/
def axMask (e : Entry) : Nat := e.f 1 7 0
def axProfile (e : Entry) : Nat := e.f 1 10 8
def axRel (e : Entry) : Bool := e.f 1 16 16 == 1
def axReplace (e : Entry) : Bool := e.f 1 17 17 == 1
def axEmerg (e : Entry) : Bool := e.f 1 18 18 == 1
def axHdir (e : Entry) : Bool := e.f 1 24 24 == 1

/-- The signed value of axis `m` in words 4 to 7 (R461). -/
def axValue (e : Entry) (m : Nat) : Int :=
  signed 32 (if m % 2 == 0 then e.f (4 + m / 2) 63 32 else e.f (4 + m / 2) 31 0)

/-- The axes of a mask. -/
def axesOf (mask : Nat) : List Nat := (List.range 8).filter (bitOf mask)

/-- Axis `m`. -/
def Dev.stepper (d : Dev) (m : Nat) : AxsAxis := at' d.axs.ax m

/-- Change axis `m`. -/
def Dev.updStepper (d : Dev) (m : Nat) (f : AxsAxis → AxsAxis) : Dev := { d with axs.ax := upd d.axs.ax m f }

/-- The move, homing or stop in progress on axis `m`. -/
def Dev.moveOn (d : Dev) (m : Nat) : Option AxMove := d.axs.moves.find? (fun x => bitOf x.mask m)

/-- Some named axis is in a move. -/
def Dev.axBusy (d : Dev) (mask : Nat) : Bool := d.axs.moves.any (fun x => (axesOf mask).any (bitOf x.mask))

/-- Change the moves that meet a mask. -/
def Dev.updMoves (d : Dev) (mask : Nat) (f : AxMove → AxMove) : Dev :=
  { d with axs.moves := d.axs.moves.map (fun x => if (axesOf mask).any (bitOf x.mask) then f x else x) }

/-- POS of each axis of a mask, in the layout of R461. -/
def Dev.posWords (d : Dev) (mask : Nat) : List W64 :=
  let p := fun m => if bitOf mask m then unsigned 32 (d.stepper m).pos else 0
  (List.range 4).map (fun i => pack [(p (2 * i), 32), (p (2 * i + 1), 0)])

/-- An event of AXS: word 4 holds the positions of axes 0 and 1 (R478). It concerns the lowest axis that its DETAIL names (R12). -/
def Dev.axEvent (d : Dev) (src code mask : Nat) : Dev := d.raise src ((axesOf mask).headD 0) code mask ((d.posWords 3).take 1)

/-- Complete a MOVE-class entry: DETAIL [7:0] holds the mask (R464, R477). -/
def Dev.axDone (d : Dev) (e : Entry) (code : Nat) (payload : List W64 := []) : Dev :=
  (d.complete e 216 code (axMask e) payload).bump Reg.AXS_STAT_MOVES_COUNT

/-! ## Profiles (R457, R459, R474) -/

/-- Twice the way from speed `v` to rest at deceleration `a` by whole ticks, the last one shorter: the sum of the speeds at both ends of
each tick. -/
def stopWay (v a : Nat) : Nat :=
  let k := (v + a - 1) / a
  2 * k * v + (k * a - v) - k * k * a

/-- The largest number in [lo, lo + 2^n) that satisfies `ok`, where `ok` holds of all numbers up to some bound; `lo` if of none. -/
def largest (ok : Nat → Bool) : Nat → Nat → Nat
  | 0, lo => lo
  | n + 1, lo => largest ok n (if ok (lo + 2 ^ n) then lo + 2 ^ n else lo)

/-- The speed at the next tick of a move that runs to its end: as fast as ACC, DEC and VMAX allow with the end still in reach. -/
def AxMove.nextSpeed (x : AxMove) : Nat :=
  let lo := x.v - x.dec
  let hi := max lo (min (x.v + x.acc) x.vmax)
  largest (fun u => u ≤ hi && x.s + x.v + u + stopWay u x.dec ≤ x.len) 46 lo

/-- What the planner makes of a move: its speed and place at the next tick. A tick that the planner missed keeps the speed (R472). -/
def AxMove.advance (x : AxMove) (late : Bool) : AxMove :=
  let v :=
    if late then x.v
    else if x.decel != 0 then x.v - x.decel
    else if x.home.isSome then max (x.v - x.dec) (min (x.v + x.acc) x.vmax)
    else x.nextSpeed
  let s := x.s + x.v + v
  if x.home.isSome then { x with v, s }
  else if s ≥ x.len || (v == 0 && x.decel == 0 && x.len ≤ s + 1) then { x with v := 0, s := x.len }
  else { x with v, s }

/-- A move is at rest at this tick, and not about to start. -/
def AxMove.resting (x : AxMove) : Bool := x.v == 0 && (x.decel != 0 || (x.home.isNone && x.s == x.len))

/-- The commanded position that a move gives axis `m` (R460). -/
def AxMove.place (x : AxMove) (m : Nat) : Int :=
  let st := at' x.start m
  let di := at' x.dist m
  match x.home with
  | some h => if h.plus == (h.phase == .seek || h.phase == .seekStop) then st + x.s else st - x.s
  | none =>
    if m == x.lead then (if di < 0 then st - x.s else st + x.s)
    else if x.full == 0 then st
    else divRound (st * x.full + di * x.s) (x.full * ustep.toNat) * ustep

/-- The planner fixes a move's speed and place at the next tick (R457). -/
def AxMove.replan (x : AxMove) (late : Bool) : AxMove := let y := x.advance late; { x with nv := y.v, ns := y.s }

/-- A move reaches what was fixed for this tick. -/
def AxMove.reach (x : AxMove) : AxMove := { x with v := x.nv, s := x.ns }

/-- The planner fixes every move's speed and place at the next tick, and every axis's commanded position there (R457). -/
def Dev.axPlan (d : Dev) : Dev :=
  let d := { d with axs.moves := d.axs.moves.map (fun (x : AxMove) => x.replan d.axs.late) }
  { d with axs.ax := Vector.ofFn (fun i =>
      let a := d.stepper i.val
      { a with pNext := match d.moveOn i.val with | some x => x.reach.place i.val | none => a.p }) }

/-! ## STEP and DIR (R455 to R458) -/

/-- FCLK cycles since the last profile tick, at most the 8,000 to the next. -/
def Dev.sinceTick (d : Dev) : Int := clampI 0 8000 ((d.beatWide - d.axs.tick) * 80 + d.tmb.cycle)

/-- The commanded position of axis `m` in the present cycle, times 8,000: it runs linearly from tick to tick (R457). -/
def Dev.lineNow (d : Dev) (m : Nat) : Int := let a := d.stepper m; 8000 * a.p + (a.pNext - a.p) * d.sinceTick

/-- `n` cycles have passed since cycle `t`, if there is one; time set back in between tells nothing. -/
def Dev.passed (d : Dev) (t : Option Int) (n : Int) : Bool :=
  match t with | none => true | some t => decide (d.cycleNow < t) || decide (t + n ≤ d.cycleNow)

/-- The line of axis `m` crosses whole microsteps in the direction of motion (R457). -/
def Dev.axCross (d : Dev) (m : Nat) : Dev :=
  let l := d.lineNow m
  let a := d.stepper m
  let goal :=
    if a.p < a.pNext then max a.goal (l / (8000 * ustep)) else if a.pNext < a.p then min a.goal (-((-l) / (8000 * ustep))) else a.goal
  d.updStepper m (fun a => { a with goal })

/-- DIR of axis `m` changes for a motion the other way, once DIR_GAP cycles have passed after the falling edge of the last STEP (R458). -/
def Dev.axTurn (d : Dev) (m : Nat) : Dev :=
  let a := d.stepper m
  let turns := if a.dir then decide (a.pNext < a.p) && decide (a.goal ≤ a.pos) else decide (a.p < a.pNext) && decide (a.pos ≤ a.goal)
  if turns && d.passed a.stepAt (d.act Reg.AXS_AXIS_CFG_STEP_W m + d.act Reg.AXS_AXIS_CFG_DIR_GAP m) then
    d.updStepper m (fun a => { a with dir := !a.dir, dirAt := some d.cycleNow })
  else d

/-- A step of axis `m` that is due is issued, and POS counts it (R456 to R458): not within DIR_GAP cycles after a DIR change, and, where several wait
for the end of that gap, with STEP low between them for as long as it is high. -/
def Dev.axStep (d : Dev) (m : Nat) : Dev :=
  let a := d.stepper m
  let due := if a.dir then decide (a.pos < a.goal) else decide (a.goal < a.pos)
  if due && d.passed a.dirAt (d.act Reg.AXS_AXIS_CFG_DIR_GAP m) && d.passed a.stepAt (2 * d.act Reg.AXS_AXIS_CFG_STEP_W m) then
    (d.updStepper m (fun a => { a with pos := if a.dir then a.pos + 1 else a.pos - 1, stepAt := some d.cycleNow })).bump
      Reg.AXS_STAT_STEPS_COUNT
  else d

/-- What the step generators do in an FCLK cycle. -/
def Dev.axCycle (d : Dev) : Dev :=
  if d.axs.ax.toList.all (fun a => a.p == a.pNext && a.goal == a.pos) then d
  else forRange 8 d (fun d m => ((d.axCross m).axTurn m).axStep m)

/-- The levels of STEP, DIR and EN of axis `m` (R455 to R457). -/
def Dev.axPins (d : Dev) (m : Nat) : Bool × Bool × Bool :=
  let a := d.stepper m
  (!d.passed a.stepAt (d.act Reg.AXS_AXIS_CFG_STEP_W m), a.dir != d.on Reg.AXS_AXIS_CFG_DIR_INV m, d.mainUp && a.on)

/-- Axis `m` stands at position `pos`. -/
def AxsAxis.standAt (a : AxsAxis) (pos : Int) : AxsAxis := { a with p := pos * ustep, pNext := pos * ustep, pos, goal := pos }

/-! ## Inputs (R467, R468, R475) -/

/-- A limit, and HOME, of axis `m` qualified asserted: at the active level that LIM_POL and HOME_POL set. -/
def Dev.limOn (d : Dev) (m : Nat) (plus : Bool) : Bool :=
  (if plus then (d.stepper m).limP else (d.stepper m).limN) != d.on Reg.AXS_AXIS_CFG_LIM_POL m
def Dev.homeOn (d : Dev) (m : Nat) : Bool := (d.stepper m).homeIn != d.on Reg.AXS_AXIS_CFG_HOME_POL m

/-- A stop cause falls on a move (R471): the largest deceleration governs, and the first cause, or the highest ranked of one tick, gives
the code. -/
def AxMove.stop (x : AxMove) (tick : Int) (code rate : Nat) : AxMove :=
  let rank := fun (c : Nat) => match c with | 0xD002 => 6 | 0xD004 => 5 | 0xD008 => 4 | 0xD009 => 3 | 0xD007 => 2 | _ => 1
  let takes := x.cause == 0 || (x.causeTick == tick && rank x.cause < rank code)
  { x with decel := max x.decel rate, cause := if takes then code else x.cause, causeTick := if takes then tick else x.causeTick }

/-! ## Starting a move (R459, R460, R465) -/

/-- How far axis `m` may go of the signed way `di` from `p`, in the direction of the way (R465). -/
def Dev.wayAllowed (d : Dev) (m : Nat) (p di : Int) : Nat :=
  if d.act Reg.AXS_AXIS_CFG_VLIM_EN m == 1 && (d.stepper m).homed then
    let lo := signed 32 (d.act Reg.AXS_AXIS_VLIM_LO m) * ustep
    let hi := signed 32 (d.act Reg.AXS_AXIS_VLIM_HI m) * ustep
    min di.natAbs (if di < 0 then (p - lo).toNat else (hi - p).toNat)
  else di.natAbs

/-- The target of axis `m` under a MOVE; a relative one counts from POS. -/
def Dev.moveTarget (d : Dev) (e : Entry) (m : Nat) : Int :=
  (if axRel e then (d.stepper m).pos + axValue e m else axValue e m) * ustep

/-- The move that a MOVE entry plans from the axes' present places. -/
def Dev.planMove (d : Dev) (e : Entry) : AxMove :=
  let k := axProfile e
  let axes := axesOf (axMask e)
  let dist := fun m => if axes.contains m then d.moveTarget e m - (d.stepper m).p else 0
  let lead := axes.foldl (fun b m => if (dist m).natAbs > (dist b).natAbs then m else b) (axes.headD 0)
  let full := (dist lead).natAbs
  let len := axes.foldl (fun n m =>
    let w := (dist m).natAbs
    if w == 0 then n else min n (full * d.wayAllowed m (d.stepper m).p (dist m) / w)) full
  { entry := some e, mask := axMask e, lead, start := Vector.ofFn (fun i => (d.stepper i.val).p),
    dist := Vector.ofFn (fun i => dist i.val), full, len, soft := len < full,
    vmax := d.eff Reg.AXS_PROF0_VMAX k * 10000000 / 2, acc := d.eff Reg.AXS_PROF0_ACC k * 25, dec := d.eff Reg.AXS_PROF1_DEC k * 25,
    edec := d.eff Reg.AXS_PROF1_EDEC k * 25 }

/-- The move of an axis is complete (R464, R465, R471). -/
def Dev.moveRests (d : Dev) (x : AxMove) : Dev :=
  let d := { d with axs.moves := d.axs.moves.filter (fun y => y.mask != x.mask) }
  match x.entry with
  | none => d
  | some e =>
    let code := if x.cause != 0 then x.cause else if x.soft then 0xD001 else 0
    let d := if code == 0xD001 then d.axEvent 216 code x.mask else d
    d.axDone e code (d.posWords x.mask)

/-- Begin a MOVE from rest; one that has nowhere to go is complete at once. -/
def Dev.beginMove (d : Dev) (e : Entry) : Dev :=
  let x := d.planMove e
  let d := { d with axs.moves := d.axs.moves ++ [x] }
  if x.len == 0 then d.moveRests x else d

/-- Begin a HOME (R468): off the switch first, if HOME is qualified asserted. -/
def Dev.beginHome (d : Dev) (e : Entry) : Dev :=
  let k := axProfile e
  let m := (axesOf (axMask e)).headD 0
  let x : AxMove :=
    { entry := some e, mask := axMask e, lead := m, start := Vector.ofFn (fun i => (d.stepper i.val).p),
      vmax := d.eff Reg.AXS_PROF0_VMAX k * 10000000 / 2, acc := d.eff Reg.AXS_PROF0_ACC k * 25, dec := d.eff Reg.AXS_PROF1_DEC k * 25,
      edec := d.eff Reg.AXS_PROF1_EDEC k * 25,
      home := some { phase := if d.homeOn m then .away else .seek, plus := axHdir e, homePos := axValue e m } }
  { d with axs.moves := d.axs.moves ++ [x] }

/-! ## The checks of R462 -/

/-- Check 4: a named axis would move towards a limit that is qualified asserted; a homing is judged by its first movement. -/
def Dev.towardsLimit (d : Dev) (e : Entry) : Bool :=
  (axesOf (axMask e)).any (fun m =>
    let a := d.stepper m
    let way : Int :=
      if e.opcode == 2 then (if axHdir e == d.homeOn m then -1 else 1)
      else d.moveTarget e m - a.p
    (d.limOn m true && way > 0) || (d.limOn m false && way < 0))

/-- Checks 1 and 2. -/
def Dev.axCheck12 (d : Dev) (e : Entry) : Option Nat :=
  let axes := axesOf (axMask e)
  if axes.isEmpty || (e.opcode == 2 && axes.length != 1) then some 0xD00A
  else if axes.any (fun m => !(d.stepper m).on) then some 0xD00B
  else none

/-- Checks 3 and 4. -/
def Dev.axCheck34 (d : Dev) (e : Entry) : Option Nat :=
  if e.opcode == 1 && (axesOf (axMask e)).any (fun m =>
      !(d.stepper m).homed && d.act Reg.AXS_AXIS_CFG_ALLOW_UNHOMED m == 0) then some 0xD00C
  else if (e.opcode == 1 || e.opcode == 2) && d.towardsLimit e then some 0xD00D
  else none

/-! ## What the operations do at their tick (R461, R463, R464, R466) -/

/-- A MOVE or HOME whose axes are at rest starts, or fails check 3 or 4. -/
def Dev.axStart (d : Dev) (e : Entry) : Dev :=
  match d.axCheck34 e with
  | some code => d.axDone e code
  | none => if e.opcode == 2 then d.beginHome e else d.beginMove e

/-- A stop under R467, R470 or a STOP entry is in force on a move. -/
def AxMove.inStop (x : AxMove) : Bool := x.decel != 0 && x.cause != 0 && x.cause != 0xD007

/-- A superseded move completes, and decelerates to rest at its own DEC (R466). -/
def Dev.supersede (d : Dev) (x : AxMove) : Dev :=
  let d := match x.entry with | some e => d.axDone e 0xD007 (d.posWords x.mask) | none => d
  d.updMoves x.mask (fun y => { y.stop d.axs.tick 0xD007 y.dec with entry := none })

/-- A MOVE with REPLACE at its first tick (R466). -/
def Dev.axReplaceNow (d : Dev) (e : Entry) : Dev :=
  let mask := axMask e
  let hit := d.axs.moves.filter (fun x => (axesOf mask).any (bitOf x.mask))
  let older := d.axs.waiting.filter (fun w => (axesOf mask).any (bitOf (axMask w)))
  let d := older.foldl (fun (d : Dev) w => d.axDone w 0xD007 (d.posWords (axMask w)))
    { d with axs.waiting := d.axs.waiting.filter (fun w => !older.contains w) }
  if hit.isEmpty then d.axStart e
  else if hit.any AxMove.inStop then { d with axs.waiting := d.axs.waiting ++ [e] }
  else match d.axCheck34 e with
    | some code => d.axDone e code
    | none =>
      let x := hit.headD default
      let y := d.planMove e
      let same := hit.length == 1 && x.mask == mask && (axesOf mask).length == 1 && x.home.isNone && x.decel == 0
      let ahead := decide ((at' x.dist x.lead < 0) = (at' y.dist y.lead < 0)) && decide (0 < y.len) && decide (x.v * x.v ≤ y.len * y.dec)
      if same && ahead then
        let d := match x.entry with | some o => d.axDone o 0xD007 (d.posWords mask) | none => d
        { d with axs.moves := d.axs.moves.map (fun z => if z.mask == mask then { y with v := x.v } else z) }
      else
        let d := hit.foldl Dev.supersede d
        { d with axs.waiting := d.axs.waiting ++ [e] }

/-- A STOP entry (R461, R464). -/
def Dev.axStop (d : Dev) (e : Entry) : Dev :=
  if d.axBusy (axMask e) then
    let d := d.updMoves (axMask e) (fun x => x.stop d.axs.tick 0xD008 (if axEmerg e then x.edec else x.dec))
    { d with axs.stops := d.axs.stops ++ [e] }
  else d.axDone e 0

/-- A SET_POS entry (R461). -/
def Dev.axSetPos (d : Dev) (e : Entry) : Dev :=
  if d.axBusy (axMask e) || d.axs.waiting.any (fun w => (axesOf (axMask e)).any (bitOf (axMask w))) then d.axDone e 0xD00E
  else
    let d := (axesOf (axMask e)).foldl (fun (d : Dev) m =>
      d.updStepper m (fun a => { a.standAt (axValue e m) with homed := true })) d
    d.axDone e 0

/-- The entry may act at the profile tick of the present beat (R461). -/
def Dev.axDue (d : Dev) (e : Entry) : Bool :=
  d.tmb.run && d.tmb.cycle == 0 && d.axs.tick == d.beatWide && (if e.sched then !d.beatAhead e.startBeat else decide (e.beat < d.axs.tick))

/-- The entry at the front of ring `n` acts, if it is of operation `op` and due; a MOVE or HOME with a busy axis waits (R462, R463). -/
def Dev.axAct (d : Dev) (n op : Nat) : Dev :=
  match d.front n 3 op with
  | none => d
  | some e =>
    if !d.axDue e then d
    else match d.axCheck12 e with
      | some code => (d.pop n).axDone e code
      | none =>
        if op == 3 then (d.pop n).axStop e
        else if op == 4 then (d.pop n).axSetPos e
        else if op == 1 && axReplace e then (d.pop n).axReplaceNow e
        else if d.axBusy (axMask e) then d
        else (d.pop n).axStart e

/-- The entry acts, and the planner takes up what it changed at this tick (R457). -/
def Dev.axEntry (d : Dev) (n op : Nat) : Dev :=
  match d.front n 3 op with
  | some e => if d.axDue e then (d.axAct n op).axPlan else d
  | none => d

/-! ## The profile tick (R457, R464, R466, R468 to R472) -/

/-- A homing comes to rest (R468, R469). -/
def Dev.homeRests (d : Dev) (x : AxMove) (h : HomeRun) : Dev :=
  let m := x.lead
  let a := d.stepper m
  if x.cause != 0 then
    let d := match x.entry with
      | some _ => if 0xD003 ≤ x.cause && x.cause ≤ 0xD005 then
          (d.updStepper m (fun a => { a with homed := false })).axEvent (208 + m) x.cause x.mask else d
      | none => d
    d.moveRests x
  else if h.phase == .awayStop then
    { d with axs.moves := d.axs.moves.map (fun y =>
      if y.mask == x.mask then
        { y with decel := 0, s := 0, start := upd y.start m (fun _ => a.p), home := some { h with phase := .seek } }
      else y) }
  else
    let shift := h.homePos - a.latch
    let p := a.p + shift * ustep
    let d := d.updStepper m (fun a => { a with p, pNext := p, pos := a.pos + shift, goal := a.goal + shift, homed := true })
    (d.axEvent (208 + m) 0xD006 x.mask).moveRests x

/-- A move that has come to rest ends, and an axis whose EN was cleared goes OFF (R470). -/
def Dev.axRest (d : Dev) (x : AxMove) : Dev :=
  let d := match x.home with | some h => d.homeRests x h | none => d.moveRests x
  (axesOf x.mask).foldl (fun (d : Dev) m =>
    if (d.moveOn m).isNone && !d.on Reg.AXS_AXIS_CFG_EN m then d.updStepper m (fun a => { a with on := false }) else d) d

/-- STOP entries whose axes are at rest complete (R464). -/
def Dev.stopsDone (d : Dev) : Dev :=
  let done := d.axs.stops.filter (fun e => !d.axBusy (axMask e))
  done.foldl (fun (d : Dev) e => d.axDone e 0) { d with axs.stops := d.axs.stops.filter (fun e => d.axBusy (axMask e)) }

/-- Waiting REPLACE moves whose axes are at rest start (R466). -/
def Dev.replaceStart (d : Dev) : Dev :=
  d.axs.waiting.foldl (fun (d : Dev) e =>
    if d.axBusy (axMask e) then d
    else
      let d := { d with axs.waiting := d.axs.waiting.filter (fun w => w != e) }
      match d.axCheck12 e with
      | some code => d.axDone e code
      | none => d.axStart e) d

/-- PROFILE_TICK: the axes reach the positions fixed for this tick, and the planner fixes those of the next (R457). `late`: the planner missed it. -/
def Dev.profileTick (d : Dev) (late : Bool) : Dev :=
  if !d.tmb.run || d.tmb.cycle != 0 || !d.beatMultiple 100 || d.axs.tick == d.beatWide then d
  else
    let ax := d.axs.ax.map (fun a => { a with p := a.pNext })
    let d := { d with axs.tick := d.beatWide, axs.late := late, axs.moves := d.axs.moves.map AxMove.reach, axs.ax := ax }
    let d := if late then d.overrun 216 0 0xD00F (d.axs.moves.foldl (fun (a : Nat) (x : AxMove) => a ||| x.mask) 0) ((d.posWords 3).take 1) else d
    let d := (d.axs.moves.filter AxMove.resting).foldl Dev.axRest d
    d.stopsDone.replaceStart.axPlan

/-! ## Inputs (R467 to R469) -/

/-- An input may have held a level for `q` profile ticks since FCLK cycle `t`. -/
def Dev.heldTicks (d : Dev) (t : Int) (q : Nat) : Bool := d.heldFor t (100 * q)

/-- LIMIT_QUALIFIED: the input has held a new level for LIM_QUAL profile ticks (R467, R469). -/
def Dev.limitQualified (d : Dev) (m : Nat) (plus level : Bool) : Dev :=
  let a := d.stepper m
  let was := if plus then a.limP else a.limN
  let since := if plus then a.limPAt else a.limNAt
  if m ≥ 8 || !d.tmb.run || was == level || !d.heldTicks since (d.act Reg.AXS_AXIS_CFG_LIM_QUAL m) then d
  else
    let d := d.updStepper m (fun a => if plus then { a with limP := level, limPAt := d.cycleNow } else { a with limN := level, limNAt := d.cycleNow })
    if !d.limOn m plus || !a.on then d
    else match d.moveOn m with
      | none => d.axEvent (208 + m) 0xD002 (2 ^ m)
      | some x =>
        let d := d.updMoves (2 ^ m) (fun x => x.stop d.axs.tick (if x.home.isSome then 0xD004 else 0xD002) x.edec)
        let d := (d.updStepper m (fun a => { a with homed := false })).bump Reg.AXS_STAT_LIMIT_STOPS_COUNT
        d.axEvent (208 + m) 0xD002 x.mask

/-- HOME_QUALIFIED: the input has held a new level for HOME_QUAL profile ticks (R468); `latch` is POS in the cycle of the first edge of the qualifying run. -/
def Dev.homeQualified (d : Dev) (m : Nat) (level : Bool) (latch : Int) : Dev :=
  if m ≥ 8 || !d.tmb.run || (d.stepper m).homeIn == level || !d.heldTicks (d.stepper m).homeAt (d.act Reg.AXS_AXIS_CFG_HOME_QUAL m) then d
  else
    let d := d.updStepper m (fun a => { a with homeIn := level, homeAt := d.cycleNow })
    match d.moveOn m with
    | some x => match x.home with
      | some h =>
        if x.decel == 0 && h.phase == .away && !d.homeOn m then
          d.updMoves (2 ^ m) (fun x => { x with decel := x.dec, home := some { h with phase := .awayStop } })
        else if x.decel == 0 && h.phase == .seek && d.homeOn m then
          (d.updMoves (2 ^ m) (fun x => { x with decel := x.dec, home := some { h with phase := .seekStop } })).updStepper m
            (fun a => { a with latch })
        else d
      | none => d
    | none => d

/-- HOME_INPUT_DEASSERT (R469): HOME deasserts at a sample between qualification and rest. -/
def Dev.homeDeassert (d : Dev) (m : Nat) : Dev :=
  d.updMoves (2 ^ m % 256) (fun x => match x.home with
    | some h => if h.phase == .seekStop then x.stop d.axs.tick 0xD003 x.dec else x
    | none => x)

/-- HOME_MAX_REACHED (R469): the seek has covered HOME_MAX microsteps. -/
def Dev.homeMax (d : Dev) (m : Nat) : Dev :=
  let lim := d.act Reg.AXS_AXIS_HOME_HOME_MAX m
  d.updMoves (2 ^ m % 256) (fun x => match x.home with
    | some h => if h.phase == .seek && x.decel == 0 && lim != 0 && lim * ustep.toNat ≤ x.s then x.stop d.axs.tick 0xD005 x.dec else x
    | none => x)

/-! ## Register writes (R470, R472, R474 to R476) -/

/-- The ranges of AXS_AXIS_m_CFG (R475). -/
def axCfgOk (v : W64) : Bool :=
  decide (1 ≤ Reg.AXS_AXIS_CFG_HOME_QUAL.of v) && decide (1 ≤ Reg.AXS_AXIS_CFG_LIM_QUAL.of v) &&
    decide (16 ≤ Reg.AXS_AXIS_CFG_DIR_GAP.of v) && decide (Reg.AXS_AXIS_CFG_DIR_GAP.of v ≤ 4000) &&
    decide (16 ≤ Reg.AXS_AXIS_CFG_STEP_W.of v) && decide (Reg.AXS_AXIS_CFG_STEP_W.of v ≤ 400)

/-- A write of AXS_AXIS_m_CFG (R472, R475). -/
def Dev.writeAxCfg (d : Dev) (m : Nat) (v : W64) : Dev :=
  let en := Reg.AXS_AXIS_CFG_EN.of v == 1
  let a := d.stepper m
  if !axCfgOk v || (a.on && d.changes Reg.AXS_AXIS_CFG [Reg.AXS_AXIS_CFG_EN] v m) || (en && !a.on && !d.tmb.run) then
    d.refuse Reg.AXS_STATUS_REFUSED
  else
    d.store Reg.AXS_AXIS_CFG v m 0

/-- EN of an axis as a beat edge samples it: the axis is enabled, or comes to rest and is disabled (R20, R470, R472). -/
def Dev.stepperEdge (was : RegFile) (d : Dev) (m : Nat) : Dev :=
  let a := d.stepper m
  if d.on Reg.AXS_AXIS_CFG_EN m then (if a.on || !d.tmb.run then d else d.updStepper m (fun a => { a with on := true }))
  else if !a.on then d
  else if (d.moveOn m).isNone then d.updStepper m (fun a => { a with on := false })
  else if d.turnsOff was Reg.AXS_AXIS_CFG_EN m then d.updMoves (2 ^ m) (fun x => x.stop d.axs.tick 0xD009 x.dec)
  else d

/-- A write of an AXS register. -/
def Dev.writeAxs (d : Dev) (r : RegDef) (v : W64) (i j : Nat) : Dev :=
  if r.addr = Reg.AXS_AXIS_CFG.addr then d.writeAxCfg i v
  else
    let ok : Bool :=
      if r.addr = Reg.AXS_PROF0.addr then
        decide (1 ≤ Reg.AXS_PROF0_VMAX.of v) && decide (Reg.AXS_PROF0_VMAX.of v ≤ 2000000) && decide (1 ≤ Reg.AXS_PROF0_ACC.of v)
      else if r.addr = Reg.AXS_PROF1.addr then
        decide (1 ≤ Reg.AXS_PROF1_DEC.of v) && decide (Reg.AXS_PROF1_DEC.of v ≤ Reg.AXS_PROF1_EDEC.of v)
      else if r.addr = Reg.AXS_AXIS_VLIM.addr then
        decide (signed 32 (Reg.AXS_AXIS_VLIM_LO.of v) ≤ signed 32 (Reg.AXS_AXIS_VLIM_HI.of v)) && (d.moveOn i).isNone
      else true
    d.storeIf Reg.AXS_STATUS_REFUSED ok r v i j

/-! ## Meanings -/

/-- AXS_MOVE (R460). -/
def execAxsMove (ring : Nat) (s : State) : Host.Outcome State Fault Refusal := s.mainOnly { s with dev := s.dev.axEntry ring 1 }

/-- HOME (R468). -/
def execHome (ring : Nat) (s : State) : Host.Outcome State Fault Refusal := s.mainOnly { s with dev := s.dev.axEntry ring 2 }

/-- STOP (R461). -/
def execStop (ring : Nat) (s : State) : Host.Outcome State Fault Refusal := s.mainOnly { s with dev := s.dev.axEntry ring 3 }

/-- SET_POS (R461). -/
def execSetPos (ring : Nat) (s : State) : Host.Outcome State Fault Refusal := s.mainOnly { s with dev := s.dev.axEntry ring 4 }

/-- AXS_ENTRY_RESUME (R463): a waiting MOVE or HOME. -/
def execAxsEntryResume (ring : Nat) (s : State) : Host.Outcome State Fault Refusal :=
  s.mainOnly { s with dev := (s.dev.axEntry ring 1).axEntry ring 2 }

/-- PROFILE_TICK (R457). -/
def execProfileTick (late : Bool) (s : State) : Host.Outcome State Fault Refusal := s.mainOnly { s with dev := s.dev.profileTick late }

/-- LIMIT_QUALIFIED (R467). -/
def execLimitQualified (m : Nat) (plus level : Bool) (s : State) : Host.Outcome State Fault Refusal :=
  s.mainOnly { s with dev := s.dev.limitQualified m plus level }

/-- HOME_QUALIFIED (R468). -/
def execHomeQualified (m : Nat) (level : Bool) (latch : W32) (s : State) : Host.Outcome State Fault Refusal :=
  s.mainOnly { s with dev := s.dev.homeQualified m level (signed 32 latch.toNat) }

/-- HOME_INPUT_DEASSERT (R469). -/
def execHomeInputDeassert (m : Nat) (s : State) : Host.Outcome State Fault Refusal := s.mainOnly { s with dev := s.dev.homeDeassert m }

/-- HOME_MAX_REACHED (R469). -/
def execHomeMaxReached (m : Nat) (s : State) : Host.Outcome State Fault Refusal := s.mainOnly { s with dev := s.dev.homeMax m }

/-- STEPPER_ENABLE (R472): a write of AXS_AXIS_m_CFG that sets EN. -/
def execStepperEnable (_src : Source) (m : Nat) (v : W64) (s : State) : Host.Outcome State Fault Refusal :=
  s.mainOnly { s with dev := if m < 8 && s.dev.cur Reg.AXS_AXIS_CFG_EN m == 0 && Reg.AXS_AXIS_CFG_EN.of v == 1 then
            s.dev.writeAxCfg m v else s.dev }

/-- STEPPER_DISABLE (R470): a write of AXS_AXIS_m_CFG that clears EN. -/
def execStepperDisable (_src : Source) (m : Nat) (v : W64) (s : State) : Host.Outcome State Fault Refusal :=
  s.mainOnly { s with dev := if m < 8 && s.dev.cur Reg.AXS_AXIS_CFG_EN m == 1 && Reg.AXS_AXIS_CFG_EN.of v == 0 then
            s.dev.writeAxCfg m v else s.dev }

end Sys2Proof.Machine
end

