-- ==== Sys2Proof/Machine/Lgt.lean ====
section
/-!
DEFINITION. LGT: lighting frames, programmes, the boost, colour compensation, diagnosis and beacons (chapter 17).
-/
namespace Sys2Proof.Machine

/-! ## Channels (R479) -/

/-- Index `i` is a lit element. -/
def lightUsed (i : Nat) : Bool := i < 28 || (32 ≤ i && i < 96)

/-- Index `i` is a beacon sink. -/
def isBeacon (i : Nat) : Bool := 24 ≤ i && i < 28

/-- The kinds that are placed together: first index and how many: the strings, the beacons, and the cells of each row (R488). -/
def lightKinds : List (Nat × Nat) := (0, 24) :: (24, 4) :: (List.range 8).map (fun r => (32 + 8 * r, 8))

/-- The lower and the higher neighbour of channel `i` (R487). -/
def lightLower (i : Nat) : Option Nat := if i = 0 || i = 24 || (32 ≤ i && i % 8 == 0) then none else some (i - 1)
def lightUpper (i : Nat) : Option Nat := if i = 23 || i = 27 || (32 ≤ i && i % 8 == 7) then none else some (i + 1)

/-- Channel `i`. -/
def Dev.light (d : Dev) (i : Nat) : LightCh := at' d.lgt.ch i

/-- Change channel `i`. -/
def Dev.updLight (d : Dev) (i : Nat) (f : LightCh → LightCh) : Dev := { d with lgt.ch := upd d.lgt.ch i f }

/-- The length of a lighting frame in cycles (R480). -/
def Dev.frameCycles (d : Dev) : Nat := 80 * 2 ^ d.act Reg.LGT_CTL_FRAME_LOG2

/-- The number of the lighting frame of the present beat (R480). -/
def Dev.frameNumber (d : Dev) : Nat := d.beat / 2 ^ d.act Reg.LGT_CTL_FRAME_LOG2

/-- The pulse window of channel `i` in cycles (R479). -/
def Dev.lightWindow (d : Dev) (i : Nat) : Nat :=
  if i < 32 then d.frameCycles else d.frameCycles / 8 - d.act Reg.LGT_CTL_PRE_CYC

/-- DIAG_PERIOD (R489). -/
def Dev.diagPeriod (d : Dev) : Nat := 2 ^ d.act Reg.LGT_CTL_DIAG_LOG2

/-- BOOST_FAULT is latched. -/
def Dev.boostFault (d : Dev) : Bool := d.flag Reg.LGT_STATUS_BOOST_FAULT == 1

/-- A string or cell kept dark by its group or by the boost (R484, R491). -/
def Dev.lightDown (d : Dev) (i : Nat) : Bool :=
  !isBeacon i && (d.boostFault || bitOf d.lgt.groupOff (d.act Reg.LGT_CH_GROUP i))

/-- A channel of LSR requests beacon `b` (R204). -/
def Dev.beaconWanted (d : Dev) (b : Nat) : Bool :=
  (List.range 16).any (fun n => d.beaconLinked n && d.beaconOf n == b &&
    ((d.chan n).st == .arming || (d.chan n).st == .enabled || (d.chan n).st == .hold))

/-! ## The end of a frame: diagnosis and status (R484, R487, R490, R491) -/

/-- What a test shows of channel `i`: 0 good, 1 OPEN, 2 SHORT, 3 NEIGHBOUR (R487). -/
def Dev.testCause (d : Dev) (i : Nat) (t : SinkTest) : Nat :=
  if t.current < 250 * d.act Reg.LGT_CH_I_SET i then 1
  else if t.head > 100 * d.act Reg.LGT_BOOST_SHORT_V then 2
  else if (t.nearLo && (lightLower i).isSome) || (t.nearHi && (lightUpper i).isSome) then 3
  else 0

/-- The test made on channel `i` in the frame that ended. -/
def Dev.testOf (d : Dev) (tests : List SinkTest) (i : Nat) : Option SinkTest :=
  if (d.light i).tested then tests.find? (fun t => t.ch == i) else none

/-- The diagnosis of channel `i`: none, or its cause; a NEIGHBOUR result fails both channels (R487). -/
def Dev.diagnosis (d : Dev) (tests : List SinkTest) (i : Nat) : Option Nat :=
  let near := fun (o : Option Nat) (f : SinkTest → Bool) => match o with
    | some j => match d.testOf tests j with | some t => f t && d.testCause j t == 3 | none => false
    | none => false
  let hit := near (lightLower i) (·.nearHi) || near (lightUpper i) (·.nearLo)
  match d.testOf tests i with
  | some t => some (if d.testCause i t == 0 && hit then 3 else d.testCause i t)
  | none => if hit then some 3 else none

/-- Channel `i` enters FAILED: its events, and its group's darkness (R490 to R492). -/
def Dev.lightFails (d : Dev) (i cause : Nat) : Dev :=
  let d := (d.updLight i (fun x => { x with st := 2, cause })).raise 225 i (0xE000 + cause) i
  if isBeacon i then d.raise 225 i 0xE005 i
  else
    let j := d.act Reg.LGT_CH_GROUP i
    if bitOf (d.act Reg.LGT_CTL_GROUP_FAIL_OFF) j && !bitOf d.lgt.groupOff j then
      ({ d with lgt.groupOff := d.lgt.groupOff + 2 ^ j }).raise 225 i 0xE008 i
    else d

/-- Take in a diagnosis of channel `i` (R490, R498). -/
def Dev.takeDiagnosis (d : Dev) (i : Nat) (tested : Bool) (r : Option Nat) : Dev :=
  let d := if tested then d.bump Reg.LGT_STAT_DIAGS_COUNT else d
  match r with
  | none => d
  | some 0 => d.updLight i (fun x => { x with fails := 0, passAt := some d.lgt.count })
  | some c =>
    let n := (d.light i).fails + 1
    let d := (d.updLight i (fun x => { x with fails := n, passAt := none })).bump Reg.LGT_STAT_FAILS_COUNT
    if d.act Reg.LGT_CTL_FAIL_QUAL ≤ n && (d.light i).st != 2 then d.lightFails i c else d

/-- The status of channel `i` at a frame boundary (R490). -/
def Dev.lightStatus (d : Dev) (i : Nat) : Nat :=
  let x := d.light i
  if x.st == 2 then 2
  else if d.lightDown i || x.on == 0 then 0
  else match x.passAt with
    | some c => if d.lgt.count - c < 2 * d.diagPeriod then 1 else 3
    | none => 3

/-- Report channel `i` (R490). -/
def Dev.lightReport (d : Dev) (i : Nat) : Dev :=
  let old := (d.light i).st
  let st := d.lightStatus i
  let d := d.updLight i (fun x => { x with st })
  let d := if st == 3 then d.bump Reg.LGT_STAT_UNVER_FRAMES_COUNT else d
  if st == 3 && old ≤ 1 then d.raise 225 i 0xE004 i else d

/-- VSET is adapted to the headroom of the strings and cells diagnosed in the frame (R484). -/
def Dev.boostAdapt (d : Dev) (tests : List SinkTest) : Dev :=
  let heads := (List.range 96).filterMap (fun i => if isBeacon i then none else (d.testOf tests i).map (·.head))
  let low := heads.any (fun h => h < 50 * d.act Reg.LGT_BOOST_HEAD_LO)
  let high := heads.all (fun h => h > 50 * d.act Reg.LGT_BOOST_HEAD_HI)
  let run := if high then min (d.lgt.highRun + 1) 16 else 0
  let v := if low then d.lgt.vset + 4 else if run == 16 then d.lgt.vset - 1 else d.lgt.vset
  if d.on Reg.LGT_CTL_EN && !d.boostFault then
    { d with lgt.highRun := run, lgt.vset := clampN (d.act Reg.LGT_BOOST_VMIN) (d.act Reg.LGT_BOOST_VMAX) v }
  else { d with lgt.highRun := run }

/-- Frames with a string or cell lit count (R484). -/
def Dev.countLit (d : Dev) : Dev :=
  { d with lgt.litRun :=
      if (List.range 96).any (fun i => !isBeacon i && (d.light i).on != 0) then min (d.lgt.litRun + 1) 16 else 0 }

/-- The boost starts at VMAX (R484). -/
def Dev.boostStart (d : Dev) : Dev :=
  { d with lgt.vset := d.act Reg.LGT_BOOST_VMAX, lgt.boostAt := d.beatWide, lgt.litRun := 0, lgt.highRun := 0 }

/-- A frame ends. -/
def Dev.frameEnds (d : Dev) (tests : List SinkTest) : Dev :=
  let rs := (List.range 96).filterMap (fun i =>
    if lightUsed i then some (i, (d.testOf tests i).isSome, d.diagnosis tests i) else none)
  let d := (d.boostAdapt tests).countLit
  let d := rs.foldl (fun (d : Dev) r => d.takeDiagnosis r.1 r.2.1 r.2.2) d
  rs.foldl (fun (d : Dev) r => d.lightReport r.1) d

/-! ## The start of a frame: ON times and placement (R481, R488, R489, R492) -/

/-- The duty that channel `i` runs at: a requested beacon's is BDUTY (R492). -/
def Dev.lightDuty (d : Dev) (i : Nat) : Nat :=
  if isBeacon i && d.on Reg.LGT_BEACON_IS_BEACON (i - 24) && d.beaconWanted (i - 24) then d.act Reg.LGT_BEACON_BDUTY (i - 24)
  else (d.light i).duty

/-- Channel `i` is dark in the coming frame. -/
def Dev.lightDark (d : Dev) (i : Nat) : Bool :=
  !d.on Reg.LGT_CTL_EN || !lightUsed i || (d.light i).st == 2 || d.lightDown i

/-- T_i before stretch and repayment (R481). -/
def Dev.onTime (d : Dev) (i : Nat) : Nat :=
  let w := d.lightWindow i
  let t := d.lightDuty i * w / 65536
  let t := if !isBeacon i && d.on Reg.LGT_CH_COMP_EN i then
    (2 * t * at' d.lgt.gain (d.act Reg.LGT_CH_COLOUR i) + 4294967296) / 8589934592 else t
  if d.lightDark i then 0 else min t w

/-- T_i of channel `i` in the frame that begins, after stretch and repayment (R489). -/
def Dev.lightOn (d : Dev) (i : Nat) : Dev :=
  let p := d.diagPeriod
  let t := d.onTime i
  let duty := d.lightDuty i
  let x := d.light i
  let x := if duty != x.last then { x with last := duty, excess := 0, beyond := 0, left := 0 } else x
  if d.on Reg.LGT_CTL_STRETCH_EN && 1 ≤ t && t < 3200 && 3200 ≤ p * t && (d.frameNumber + p * 96 - i) % p == 0 then
    (d.updLight i (fun _ => { x with on := 3200, excess := 3200 - t, beyond := p - 1, left := p - 1 })).bump
      Reg.LGT_STAT_STRETCHES_COUNT
  else if x.left != 0 then
    let lose := x.excess / x.beyond + bit (x.beyond - x.left < x.excess % x.beyond)
    d.updLight i (fun _ => { x with on := t - lose, left := x.left - 1 })
  else d.updLight i (fun _ => { x with on := t })

/-- The pulse of channel `i` is on at cycle `c` of its window. -/
def Dev.pulseOn (d : Dev) (i c : Nat) : Bool :=
  let w := d.lightWindow i
  (c + w - (d.light i).start) % w < (d.light i).on

/-- The test cycle of a diagnosed pulse (R487). -/
def Dev.testCycle (d : Dev) (i : Nat) : Option Nat :=
  if (d.light i).on ≥ 3200 then some (((d.light i).start + 3200) % d.lightWindow i) else none

/-- The pulse of channel `i` is on at the test cycle of neighbour `j`. -/
def Dev.inTestOf (d : Dev) (i : Nat) (j : Option Nat) : Bool :=
  match j.bind d.testCycle with | some c => d.pulseOn i c | none => false

/-- Move the pulse of channel `i` to start 16 cycles after neighbour `j`'s test cycle. -/
def Dev.moveAfter (d : Dev) (i : Nat) (j : Option Nat) : Dev :=
  match j.bind d.testCycle with
  | some c => d.updLight i (fun x => { x with start := (c + 16) % d.lightWindow i })
  | none => d

/-- Place the pulses of one kind in two passes, and settle which tests are made (R488). -/
def Dev.placeKind (d : Dev) (k : Nat × Nat) : Dev :=
  let is := (List.range k.2).map (k.1 + ·)
  let d := is.foldl (fun (d : Dev) i =>
    let d := d.updLight i (fun x => { x with start := if i < 32 then i * d.frameCycles / 32 else 0 })
    if d.inTestOf i (lightLower i) then d.moveAfter i (lightLower i) else d) d
  let d := is.foldl (fun (d : Dev) i =>
    if d.inTestOf i (lightUpper i) && (d.testCycle i).isNone then
      let e := d.moveAfter i (lightUpper i)
      if e.inTestOf i (lightLower i) then d else e
    else d) d
  is.foldl (fun (d : Dev) i =>
    let clear := fun (j : Option Nat) => match j with | some j => !d.inTestOf j (some i) | none => true
    d.updLight i (fun x => { x with tested := x.on ≥ 3200 && clear (lightLower i) && clear (lightUpper i) })) d

/-- A frame begins; a late one repeats the ON times of the frame before, with what has gone dark dark (R499). -/
def Dev.frameBegins (d : Dev) (late : Bool) : Dev :=
  let d := { d with lgt.count := d.lgt.count + 1, lgt.frame := d.beatWide, lgt.lit := d.on Reg.LGT_CTL_EN }
  if late then
    let d := forRange 96 d (fun d i => if d.lightDark i then d.updLight i (fun x => { x with on := 0, tested := false }) else d)
    d.overrun 226 0 0xE00A 0
  else
    let d := forRange 96 d (fun d i => d.lightOn i)
    lightKinds.foldl Dev.placeKind d

/-- The present cycle is a frame boundary that has not been run yet (R480). -/
def Dev.frameDue (d : Dev) : Bool :=
  d.tmb.run && d.tmb.cycle == 0 && d.beatMultiple (2 ^ d.act Reg.LGT_CTL_FRAME_LOG2) && d.lgt.frame != d.beatWide

/-- LIGHT_FRAME: `tests` is what the diagnosed sinks of the frame that ends showed. -/
def Dev.lightFrame (d : Dev) (tests : List SinkTest) (late : Bool) : Dev :=
  if d.frameDue then (d.frameEnds tests).frameBegins late else d

/-! ## The outputs (R479, R481, R486) -/

/-- The present cycle of the lighting frame, and its line slot. -/
def Dev.frameCycle (d : Dev) : Nat := d.beat % 2 ^ d.act Reg.LGT_CTL_FRAME_LOG2 * 80 + d.tmb.cycle
def Dev.lineSlot (d : Dev) : Nat := d.frameCycle / (d.frameCycles / 8)

/-- The matrix is driven, and this is a pre-charge cycle of its line slot (R486). -/
def Dev.matrixRuns (d : Dev) : Bool := d.mainUp && d.tmb.run && d.lgt.lit
def Dev.preCharge (d : Dev) : Bool := d.frameCycle % (d.frameCycles / 8) < d.act Reg.LGT_CTL_PRE_CYC

/-- Row switch `r` is closed: in its own slot, after pre-charge. -/
def Dev.rowClosed (d : Dev) (r : Nat) : Bool := d.matrixRuns && !d.preCharge && d.lineSlot == r

/-- Row `r` is discharged to ground: while the next row's slot pre-charges. -/
def Dev.rowGrounded (d : Dev) (r : Nat) : Bool := d.matrixRuns && d.preCharge && (d.lineSlot + 7) % 8 == r

/-- The voltage, in 100 mV, at which every column pin is held in pre-charge: VSET - PRE_OFS. -/
def Dev.columnHeld (d : Dev) : Option Nat :=
  if d.matrixRuns && d.preCharge then some (d.lgt.vset - d.act Reg.LGT_CTL_PRE_OFS) else none

/-- The current, in 0.5 mA, that the sink of channel `i` holds: I_SET for its whole ON time (R481). -/
def Dev.sinkCurrent (d : Dev) (i : Nat) : Nat :=
  let on := if i < 32 then d.pulseOn i d.frameCycle
    else d.rowClosed ((i - 32) / 8) && d.pulseOn i (d.frameCycle % (d.frameCycles / 8) - d.act Reg.LGT_CTL_PRE_CYC)
  if d.mainUp && d.tmb.run && lightUsed i && on then d.act Reg.LGT_CH_I_SET i else 0

/-! ## Programmes (R482) -/

/-- A LIGHT entry acts at the present boundary. -/
def Dev.lightDue (d : Dev) (e : Entry) : Bool :=
  e.cls == 4 && (if e.sched then !d.beatAhead e.startBeat else decide (e.beat < d.beatWide))

/-- The entry of ring `n` and operation `op` that acts next at this boundary, in the order of acceptance. -/
def Dev.lightNext (d : Dev) (n op : Nat) : Option Entry :=
  if !d.frameDue || d.island 896 == 2 then none
  else
    let due := (List.range 64).flatMap (fun r => (d.ring r).inQ.filter d.lightDue)
    due.find? (fun e => e.ring == n && e.opcode == op && due.all (fun x => e.seq ≤ x.seq))

/-- Complete a LIGHT entry. -/
def Dev.lightDone (d : Dev) (e : Entry) (code : Nat) : Dev := (d.takeOut e).complete e 226 code

/-- Set a duty. -/
def Dev.setDuty (d : Dev) (i v : Nat) : Dev := d.updLight i (fun x => { x with duty := v % 65536 })

/-- LIGHT_SET. -/
def Dev.lightSet (d : Dev) (n : Nat) : Dev :=
  match d.lightNext n 1 with
  | none => d
  | some e =>
    let first := e.f 1 6 0
    let count := e.f 1 12 8
    if count < 1 || count > 24 || !(List.range count).all (fun k => lightUsed (first + k)) then d.lightDone e 0xE009
    else
      let d := forRange count d (fun d k => d.setDuty (first + k) (e.f (2 + k / 4) (16 * (k % 4) + 15) (16 * (k % 4))))
      d.lightDone e 0

/-- LIGHT_LOAD: `rd` is what the read of the 192 bytes in host memory returned. -/
def Dev.lightLoad (d : Dev) (n : Nat) (rd : HostRead) : Dev :=
  match d.lightNext n 2 with
  | none => d
  | some e =>
    let a := (e.w 1).toNat
    if a % 64 != 0 then d.lightDone e 0xE009
    else if !d.canRequest then d
    else
      let d := d.emit (.hostRead a 192)
      match rd with
      | .fail _ => (d.takeOut e).bodyFetchErr e
      | .ok bs =>
        let v := fun i => leNat ((bs.drop (2 * i)).take 2)
        if (List.range 96).any (fun i => !lightUsed i && v i != 0) then d.lightDone e 0xE009
        else (forRange 96 d (fun d i => if lightUsed i then d.setDuty i (v i) else d)).lightDone e 0

/-- LIGHT_GROUP_OFF. -/
def Dev.lightGroupOff (d : Dev) (n : Nat) : Dev :=
  match d.lightNext n 3 with
  | none => d
  | some e =>
    let d := forRange 96 d (fun d i =>
      if lightUsed i && !isBeacon i && bitOf (e.f 1 7 0) (d.act Reg.LGT_CH_GROUP i) then d.setDuty i 0 else d)
    d.lightDone e 0

/-! ## The boost and the NTC inputs (R484, R485) -/

/-- BOOST_OUT_OF_RANGE: the output has been too high for 4 beats, or too low for 16 frames with a string or cell lit (R484). -/
def Dev.boostOut (d : Dev) (beyond : Bool) : Dev :=
  let span := if beyond then decide (4 ≤ d.beatWide - d.lgt.boostAt) else d.lgt.litRun == 16
  if d.on Reg.LGT_CTL_EN && !d.boostFault && span then
    (d.setFlag Reg.LGT_STATUS_BOOST_FAULT 1).raise 224 0 0xE006 0
  else d

/-- g_c in 2^-32 (R485). -/
def Dev.ntcGain (d : Dev) (c : Nat) (t : Int) : Nat :=
  let k := d.effS Reg.LGT_NTC_K c
  let ref := d.effS Reg.LGT_NTC_T_REF c
  (clampI 2147483648 8589934592 (4294967296 + k * (t - ref * 4294967296) / 65536)).toNat

/-- NTC_CONVERSION of input `c`, which reads `r` Ω (R485). -/
def Dev.ntcConversion (d : Dev) (c r : Nat) : Dev :=
  let frame := d.beatWide / 2 ^ d.act Reg.LGT_CTL_FRAME_LOG2
  if c ≥ 4 || !d.tmb.run || d.frameNumber % 16 != 0 || d.frameDue || at' d.lgt.ntcAt c == frame then d
  else if r < 100 || r > 1000000 then
    let d := { d with lgt.ntcAt := upd d.lgt.ntcAt c (fun _ => frame) }
    let d' := { d with lgt.gain := upd d.lgt.gain c (fun _ => 4294967296),
                       lgt.ntcBad := if bitOf d.lgt.ntcBad c then d.lgt.ntcBad else d.lgt.ntcBad + 2 ^ c }
    if bitOf d.lgt.ntcBad c then d' else d'.raise 227 c 0xE007 c
  else
    let (t, d) := match ntcTemp r (10 * d.eff Reg.LGT_NTC_R26 c) (d.eff Reg.LGT_NTC_BETA c) with
      | some t => (t, d)
      | none => let (v, d) := d.free; ((v : Int), d)
    { d with lgt.ntcAt := upd d.lgt.ntcAt c (fun _ => frame), lgt.temp := upd d.lgt.temp c (fun _ => t), lgt.gain := upd d.lgt.gain c (fun _ => d.ntcGain c t),
             lgt.ntcBad := if bitOf d.lgt.ntcBad c then d.lgt.ntcBad - 2 ^ c else d.lgt.ntcBad }

/-! ## Register writes (R483, R484, R490, R493 to R497) -/

/-- The ranges of LGT_CTL (R493). -/
def lgtCtlOk (v : W64) : Bool :=
  let p := Reg.LGT_CTL_PRE_CYC.of v
  let q := Reg.LGT_CTL_FAIL_QUAL.of v
  let f := Reg.LGT_CTL_FRAME_LOG2.of v
  let g := Reg.LGT_CTL_DIAG_LOG2.of v
  decide (16 ≤ p) && decide (p ≤ 1600) && decide (1 ≤ q) && decide (9 ≤ f) && decide (f ≤ 14) && decide (2 ≤ g) && decide (g ≤ 10)

/-- A write of LGT_CTL (R483, R493). -/
def Dev.writeLgtCtl (d : Dev) (v : W64) : Dev :=
  let was := d.cur Reg.LGT_CTL_EN == 1
  let moved := d.cur Reg.LGT_CTL_FRAME_LOG2 != Reg.LGT_CTL_FRAME_LOG2.of v || d.cur Reg.LGT_CTL_PRE_CYC != Reg.LGT_CTL_PRE_CYC.of v
  if !lgtCtlOk v || (was && moved) then d.refuse Reg.LGT_STATUS_REFUSED
  else
    d.store Reg.LGT_CTL v 0 0

/-- EN of LGT_CTL as a beat or service edge samples it: the boost starts at VMAX (R20, R484). -/
def Dev.lightEdge (was : RegFile) (d : Dev) : Dev :=
  if d.turnsOn was Reg.LGT_CTL_EN then d.boostStart else d

/-- A write of LGT_STATUS: clearing BOOST_FAULT restarts the boost at VMAX (R484, R494). -/
def Dev.writeLgtStatus (d : Dev) (v : W64) : Dev :=
  let clears := d.boostFault && Reg.LGT_STATUS_BOOST_FAULT.of v == 1
  let d := d.store Reg.LGT_STATUS v 0 0
  if clears then d.boostStart else d

/-- CLEAR takes channel `i` out of FAILED; its group comes back when no member of it is FAILED (R490, R491). -/
def Dev.lightClear (d : Dev) (i : Nat) : Dev :=
  if (d.light i).st != 2 then d
  else
    let d := d.updLight i (fun x => { x with st := 0, cause := 0, fails := 0, passAt := none })
    let j := d.act Reg.LGT_CH_GROUP i
    let failed := (List.range 96).any (fun k => lightUsed k && !isBeacon k && d.act Reg.LGT_CH_GROUP k == j && (d.light k).st == 2)
    if !isBeacon i && bitOf d.lgt.groupOff j && !failed then { d with lgt.groupOff := d.lgt.groupOff - 2 ^ j } else d

/-- A write of LGT_CH_i (R490, R496). -/
def Dev.writeLgtCh (d : Dev) (i : Nat) (v : W64) : Dev :=
  if !lightUsed i then d
  else if d.changes Reg.LGT_CH [] v i && (d.light i).on != 0 then d.refuse Reg.LGT_STATUS_REFUSED
  else
    let c := if Reg.LGT_CH_CLEAR.of v == 1 then d.lightClear i else d
    c.store Reg.LGT_CH v i 0

/-- A write of an LGT register. -/
def Dev.writeLgt (d : Dev) (r : RegDef) (v : W64) (i j : Nat) : Dev :=
  if r.addr = Reg.LGT_CTL.addr then d.writeLgtCtl v
  else if r.addr = Reg.LGT_STATUS.addr then d.writeLgtStatus v
  else if r.addr = Reg.LGT_CH.addr then d.writeLgtCh i v
  else
    let ok : Bool :=
      if r.addr = Reg.LGT_BOOST.addr then
        decide (Reg.LGT_BOOST_VMIN.of v ≤ Reg.LGT_BOOST_VMAX.of v) && decide (Reg.LGT_BOOST_VMAX.of v ≤ 600) &&
          decide (50 ≤ Reg.LGT_BOOST_VMIN.of v)
      else if r.addr = Reg.LGT_BEACON.addr then
        !d.beaconWanted i && !(Reg.LGT_BEACON_IS_BEACON.of v == 1 && Reg.LGT_BEACON_BDUTY.of v == 0)
      else true
    d.storeIf Reg.LGT_STATUS_REFUSED ok r v i j

/-! ## Meanings -/

/-- LIGHT_SET (R482). -/
def execLightSet (ring : Nat) (s : State) : Host.Outcome State Fault Refusal := s.mainOnly { s with dev := s.dev.lightSet ring }

/-- LIGHT_LOAD (R482). -/
def execLightLoad (ring : Nat) (rd : HostRead) (s : State) : Host.Outcome State Fault Refusal :=
  s.mainOnly { s with dev := s.dev.lightLoad ring rd }

/-- LIGHT_GROUP_OFF (R482). -/
def execLightGroupOff (ring : Nat) (s : State) : Host.Outcome State Fault Refusal :=
  s.mainOnly { s with dev := s.dev.lightGroupOff ring }

/-- LIGHT_FRAME (R480, R481, R484, R487 to R492). -/
def execLightFrame (tests : List SinkTest) (late : Bool) (s : State) : Host.Outcome State Fault Refusal :=
  s.mainOnly { s with dev := s.dev.lightFrame tests late }

/-- BOOST_OUT_OF_RANGE (R484). -/
def execBoostOutOfRange (beyond : Bool) (s : State) : Host.Outcome State Fault Refusal := s.mainOnly { s with dev := s.dev.boostOut beyond }

/-- BOOST_FAULT_CLEAR (R484, R494): a write of LGT_STATUS with a 1 in BOOST_FAULT. -/
def execBoostFaultClear (_src : Source) (v : W64) (s : State) : Host.Outcome State Fault Refusal :=
  s.mainOnly { s with dev := if Reg.LGT_STATUS_BOOST_FAULT.of v == 1 then s.dev.writeLgtStatus v else s.dev }

/-- NTC_CONVERSION (R485). -/
def execNtcConversion (c r : Nat) (s : State) : Host.Outcome State Fault Refusal := s.mainOnly { s with dev := s.dev.ntcConversion c r }

/-- LIGHTING_ENABLE (R484): a write of LGT_CTL that sets EN. -/
def execLightingEnable (_src : Source) (v : W64) (s : State) : Host.Outcome State Fault Refusal :=
  s.mainOnly { s with dev := if s.dev.cur Reg.LGT_CTL_EN == 0 && Reg.LGT_CTL_EN.of v == 1 then s.dev.writeLgtCtl v else s.dev }

/-- LIGHTING_DISABLE (R483): a write of LGT_CTL that clears EN. -/
def execLightingDisable (_src : Source) (v : W64) (s : State) : Host.Outcome State Fault Refusal :=
  s.mainOnly { s with dev := if s.dev.cur Reg.LGT_CTL_EN == 1 && Reg.LGT_CTL_EN.of v == 0 then s.dev.writeLgtCtl v else s.dev }

/-- LIGHT_CLEAR (R490): a write of LGT_CH_i with a 1 in CLEAR. -/
def execLightClear (_src : Source) (i : Nat) (v : W64) (s : State) : Host.Outcome State Fault Refusal :=
  s.mainOnly { s with dev := if i < 96 && Reg.LGT_CH_CLEAR.of v == 1 then s.dev.writeLgtCh i v else s.dev }

end Sys2Proof.Machine
end

