-- ==== Sys2Proof/Machine/Fw.lean ====
section
/-!
DEFINITION. MGT: the Prinen Management Protocol's replies, the event log, firmware images, activation, settings and exports
(R528 to R538).
-/
namespace Sys2Proof.Machine

/-! ## Requests and replies (R528, R530) -/

/-- The management processor serves: standby power is good, and no reset sequence is rebooting it (R539, R554, R558). -/
def Dev.mgtUp (d : Dev) : Bool := d.pwr.standby && (d.pwr.seqDone || !d.pwr.mainPg || !d.pwr.ref100)

/-- Send a reply and keep it as the last one for its source (R528). -/
def Dev.pmpReply (d : Dev) (src seq status : Nat) (data : List Byte := []) : Dev :=
  { d.emit (.pmp src seq status data) with
    mgt.replies := { src, seq, status, data } :: d.mgt.replies.filter (fun r => r.src != src) }

/-- Reply to a request. -/
def Dev.answerPmp (d : Dev) (h : PmpHdr) (status : Nat) (data : List Byte := []) : Dev := d.pmpReply h.src h.seq status data

/-- The new core does not serve yet: requests wait in the MAC's receive buffer, and are taken when they are given again (R537). -/
def Dev.handingOver (d : Dev) : Bool := d.mainUp && (match d.mgt.serveFrom with | some b => decide (b - 64 ≤ d.beatWide) && decide (d.beatWide < b) | none => false)

/-- Take a request: a repeated one is answered with the kept reply, one whose header or length is wrong with BAD_OP, and any other
acts (R528, R530). The request of the running export has no reply yet, and its repetition is not answered. -/
def Dev.pmp (d : Dev) (h : PmpHdr) (f : Dev → Dev) : Dev :=
  if !d.mgtUp || d.handingOver then d
  else match d.mgt.replies.find? (fun r => r.src == h.src && r.seq == h.seq) with
    | some r => d.emit (.pmp r.src r.seq r.status r.data)
    | none =>
      if d.mgt.exporting.any (fun x => x.src == h.src && x.seq == h.seq) then d
      else if !h.magicOk || h.version != 1 || !h.opOk || !h.lenOk then d.answerPmp h 2
      else f d

/-! ## The event log (R531) -/

/-- The bytes of the log entry `i` places behind the newest. -/
def Dev.logBytes (d : Dev) (i : Nat) : List Byte :=
  match d.mgt.log[i]? with
  | some x => wordBytes (entryWords 0 1 ((d.mgt.nextSeq + 2 ^ 32 - 1 - i) % 2 ^ 32) x)
  | none => []

/-- LOG_READ (R529, R531): LOST, and up to `count` entries from `first`, or from the oldest entry held. -/
def Dev.logRead (d : Dev) (h : PmpHdr) (first count : Nat) : Dev :=
  if count < 1 || count > 64 then d.answerPmp h 3
  else
    let n := d.mgt.log.length
    let back := beatDiff d.mgt.nextSeq first
    -- `back` entries lie from `first` to the newest
    let lost := min count (back - n).toNat
    let start := min n back.toNat
    let got := (List.range (min count start)).flatMap (fun k => d.logBytes (start - 1 - k))
    d.answerPmp h 0 (leBytes 4 lost ++ got)

/-! ## Images (R535, R536) -/

/-- Firmware slot `s`. -/
def Dev.fw (d : Dev) (s : Nat) : FwSlot := at' d.mgt.slots s

/-- Change firmware slot `s`. -/
def Dev.updFw (d : Dev) (s : Nat) (f : FwSlot → FwSlot) : Dev := { d with mgt.slots := upd d.mgt.slots s f }

/-- The image in a slot. -/
def FwSlot.image (x : FwSlot) : List Byte := x.pieces.flatMap (·.2)

/-- The slot in TRIAL. -/
def Dev.trialSlot (d : Dev) : Option Nat := (List.range 2).find? (fun s => (d.fw s).st == .trial)

/-- An event of the update unit about a slot (R543). -/
def Dev.fwEvent (d : Dev) (s code : Nat) : Dev := d.raise 1 s code s

/-- IMG_BEGIN (R529, R530, R535). -/
def Dev.imgBegin (d : Dev) (h : PmpHdr) (s len : Nat) (sha : BitVec 384) (flashOk : Bool) : Dev :=
  let x := d.fw s
  let held := fun (x : FwSlot) => leBytes 2 x.pieces.length
  if s > 1 || len < 4096 || len > 16777216 || len % 4096 != 0 then d.answerPmp h 3
  else if d.mgt.act.isSome then d.answerPmp h 4
  else if !d.windowOk then d.answerPmp h 5
  else if s == d.mgt.running || (d.trialSlot.isSome && s == d.mgt.confirmed) then d.answerPmp h 13
  else if x.st == .loading && x.len == len && x.sha == sha then d.answerPmp h 0 (held x)
  else if !flashOk then d.answerPmp h 12
  else
    let y : FwSlot := { st := .loading, len, sha }
    (d.updFw s (fun _ => y)).answerPmp h 0 (held y)

/-- The slot holds its last piece: it is verified (R535). The status is that of the piece's reply. -/
def Dev.imgVerify (d : Dev) (s : Nat) : Dev × Nat :=
  let x := d.fw s
  let img := x.image
  if Config.sha384 img != x.sha || !Config.signatureOk img then ((d.updFw s (fun x => { x with st := .bad })).fwEvent s 0x0102, 9)
  else if Config.imageSvn img < Config.svnFloor then ((d.updFw s (fun x => { x with st := .bad })).fwEvent s 0x0103, 10)
  else ((d.updFw s (fun x => { x with st := .verified })).fwEvent s 0x0101, 0)

/-- IMG_PIECE (R529, R530, R535). -/
def Dev.imgPiece (d : Dev) (h : PmpHdr) (s idx crc : Nat) (data : List Byte) (flashOk : Bool) : Dev :=
  let x := d.fw s
  if s > 1 then d.answerPmp h 3
  else if d.mgt.act.isSome then d.answerPmp h 4
  else if !d.windowOk then d.answerPmp h 5
  else if x.st != .loading then d.answerPmp h 7
  else if idx ≥ x.len / 4096 then d.answerPmp h 3
  else if crc32 data != crc then d.answerPmp h 6
  else if x.pieces.any (fun p => p.1 == idx) then d.answerPmp h 0
  else if !flashOk then d.answerPmp h 12
  else
    let d := d.updFw s (fun x => { x with pieces := Assoc.put x.pieces idx data [] })
    if (d.fw s).pieces.length == x.len / 4096 then
      let r := d.imgVerify s
      r.1.answerPmp h r.2
    else d.answerPmp h 0

/-- The number of a slot state (R542). -/
def slotCode (s : SlotState) : Nat :=
  match s with | .empty => 0 | .loading => 1 | .verified => 2 | .trial => 3 | .confirmed => 4 | .bad => 5

/-- IMG_STATUS (R529, R530). -/
def Dev.imgStatus (d : Dev) (h : PmpHdr) (s : Nat) : Dev :=
  let x := d.fw s
  if s > 1 then d.answerPmp h 3
  else if x.st != .loading then d.answerPmp h 7
  else d.answerPmp h 0 (leBytes 1 (slotCode x.st) ++
    (List.range 512).map (fun b => BitVec.ofNat 8 (bitset 8 (fun i => x.pieces.any (fun p => p.1 == 8 * b + i)))))

/-- IDENT (R529, R533). -/
def Dev.pmpIdent (d : Dev) (h : PmpHdr) : Dev :=
  d.answerPmp h 0 (leBytes 16 identity.toNat ++ leBytes 1 d.mgt.running ++
    leBytes 4 (Config.imageVersion (d.fw 0).image) ++ leBytes 4 (Config.imageVersion (d.fw 1).image))

/-! ## Settings (R538) -/

/-- The settings format of the image in slot `s`, a field of 16 bits (R538). -/
def Dev.formatOf (d : Dev) (s : Nat) : Nat := Config.imageFormat (d.fw s).image % 65536

/-- The settings area, if any, that a choice among the valid areas satisfying `ok` takes: 1 over 0 if its generation is ahead. -/
def Dev.pickArea (d : Dev) (ok : Settings → Bool) : Option (Nat × Settings) :=
  match (at' d.mgt.areas 0).filter ok, (at' d.mgt.areas 1).filter ok with
  | some a, some b => if signed 8 (b.gen + 256 - a.gen) > 0 then some (1, b) else some (0, a)
  | some a, none => some (0, a)
  | none, some b => some (1, b)
  | none, none => none

/-- The area that the next write goes to. -/
def Dev.writeArea (d : Dev) : Nat :=
  match d.mgt.guarded with
  | some g => 1 - g
  | none => if d.mgt.settings.isSome then 1 - d.mgt.area else 0

/-- Write a settings record and take it into effect. -/
def Dev.putSettings (d : Dev) (fmt gen : Nat) (body : List Byte) : Dev :=
  let r : Settings := { format := fmt, gen := gen % 256, body }
  let a := d.writeArea
  { d with mgt.areas := upd d.mgt.areas a (fun _ => some r), mgt.settings := some r, mgt.area := a }

/-- The image in slot `s` chooses its settings at start-up. -/
def Dev.chooseSettings (d : Dev) (s : Nat) : Dev :=
  let own := d.formatOf s
  match d.pickArea (fun r => r.format == own) with
  | some (a, r) => { d with mgt.settings := some r, mgt.area := a }
  | none => match d.pickArea (fun r => Config.canConvert own r.format) with
    | some (a, r) =>
      let d := { d with mgt.settings := some r, mgt.area := a }
      (d.putSettings own (r.gen + 1) (Config.convertBody own r.format r.body)).raise 0 0 0x0107 0
    | none => ({ d with mgt.settings := none, mgt.area := 0 }).raise 0 0 0x0108 0

/-- The settings record in effect. -/
def Dev.settingsNow (d : Dev) : Settings :=
  let f := d.formatOf d.mgt.running
  d.mgt.settings.getD { format := f, gen := Config.defaultGeneration f % 256, body := Config.defaultBody f }

/-- A record as bytes: its header and body. -/
def Settings.bytes (r : Settings) : List Byte := wordBytes [pack [(r.format, 48), (r.gen, 40), (crc32 r.body, 0)]] ++ r.body

/-- CONFIG_GET (R529). -/
def Dev.configGet (d : Dev) (h : PmpHdr) : Dev := d.answerPmp h 0 d.settingsNow.bytes

/-- CONFIG_SET (R529, R530, R538): the record must be of the running image's format, with a good CRC. -/
def Dev.configSet (d : Dev) (h : PmpHdr) (rec : List Byte) (flashOk : Bool) : Dev :=
  let w := leNat (rec.take 8)
  let body := rec.drop 8
  if rec.length < 8 || bitsOf w 63 48 != d.formatOf d.mgt.running || bitsOf w 39 32 != 0 || bitsOf w 31 0 != crc32 body then
    d.answerPmp h 3
  else if d.mgt.act.isSome then d.answerPmp h 4
  else if !d.windowOk then d.answerPmp h 5
  else if !flashOk then d.answerPmp h 12
  else
    let gen := (d.settingsNow.gen + 1) % 256
    (d.putSettings (bitsOf w 63 48) gen body).answerPmp h 0 (leBytes 1 gen)

/-! ## Activation (R537) -/

/-- IMG_ACTIVATE (R530, R537). -/
def Dev.imgActivate (d : Dev) (h : PmpHdr) (s : Nat) : Dev :=
  if s > 1 then d.answerPmp h 3
  else if d.mgt.act.isSome || d.cal.run.isSome || d.mgt.exporting.isSome || d.trialSlot.isSome then d.answerPmp h 4
  else if !d.windowOk then d.answerPmp h 5
  else if (d.fw s).st != .verified then d.answerPmp h 8
  else ({ d with mgt.act := some { slot := s, since := d.pwr.clock } }).answerPmp h 0

/-- IMG_REVERT (R530, R537): the CONFIRMED image boots and takes over in the same way. -/
def Dev.imgRevert (d : Dev) (h : PmpHdr) (flashOk : Bool) : Dev :=
  if d.mgt.act.isSome || d.cal.run.isSome || d.mgt.exporting.isSome then d.answerPmp h 4
  else if !d.windowOk then d.answerPmp h 5
  else if d.trialSlot.isNone then d.answerPmp h 11
  else if !flashOk then d.answerPmp h 12
  else ({ d with mgt.act := some { slot := d.mgt.confirmed, since := d.pwr.clock, revert := true } }).answerPmp h 0

/-- The slot in TRIAL becomes VERIFIED, and the CONFIRMED image is the one that runs (R537, R540). -/
def Dev.dropTrial (d : Dev) : Dev :=
  match d.trialSlot with
  | some t => { d.updFw t (fun x => { x with st := .verified }) with mgt.running := d.mgt.confirmed, mgt.guarded := none }
  | none => { d with mgt.running := d.mgt.confirmed }

/-- FW_HANDOVER: at a beat group boundary the new core takes over (R537). With no domain time there is no boundary to wait for. -/
def Dev.fwHandover (d : Dev) : Dev :=
  match d.mgt.act with
  | none => d
  | some a =>
    if !d.mgtUp || (d.mainUp && !(d.tmb.cycle == 0 && d.beatMultiple 64)) then d
    else
      let d := { d with mgt.act := none, mgt.serveFrom := if d.mainUp then some (d.beatWide + 64) else none }
      if a.revert then
        let t := d.trialSlot.getD 0
        (d.dropTrial.chooseSettings a.slot).fwEvent t 0x0106
      else
        let guard := if d.mgt.settings.isSome then some d.mgt.area else none
        let d := { d.updFw a.slot (fun x => { x with st := .trial }) with mgt.running := a.slot, mgt.guarded := guard }
        (d.chooseSettings a.slot).fwEvent a.slot 0x0104

/-- ACTIVATE_TIMEOUT: the new core has not reported ready within 10 s (R537). -/
def Dev.activateTimeout (d : Dev) : Dev :=
  match d.mgt.act with
  | some a => if d.pwr.clock - a.since ≥ 10000 * msUnit then ({ d with mgt.act := none }).fwEvent a.slot 0x0105 else d
  | none => d

/-- IMG_CONFIRM (R530, R537). -/
def Dev.imgConfirm (d : Dev) (h : PmpHdr) (flashOk : Bool) : Dev :=
  if d.mgt.act.isSome then d.answerPmp h 4
  else if !d.windowOk then d.answerPmp h 5
  else match d.trialSlot with
    | none => d.answerPmp h 11
    | some t =>
      if !flashOk then d.answerPmp h 12
      else
        let d := (d.updFw d.mgt.confirmed (fun x => { x with st := .verified })).updFw t (fun x => { x with st := .confirmed })
        ({ d with mgt.confirmed := t, mgt.guarded := none }).answerPmp h 0

/-! ## Exports (R529) -/

/-- EXPORT: one at a time; the reply follows the last datagram. -/
def Dev.exportStart (d : Dev) (h : PmpHdr) (addr len port : Nat) (dst : BitVec 128) (udp : W16) : Dev :=
  if d.mgt.exporting.isSome then d.answerPmp h 4
  else if port > 1 || !d.dramOk addr len then d.answerPmp h 3
  else
    let (id, d) := d.free
    { d with mgt.exporting := some { src := h.src, seq := h.seq, id := id % 2 ^ 32, addr, len, port, dst, udp } }

/-- The payloads of an export's datagrams, in ascending offset order: a 16-byte header with the ID, the offset and the total length,
and up to 8,192 bytes of data. -/
def Dev.exportData (d : Dev) (m : Mem) (x : Export) : List (List Byte) :=
  (List.range ((x.len + 8191) / 8192)).map (fun k =>
    let off := 8192 * k
    leBytes 4 x.id ++ leBytes 8 off ++ leBytes 4 x.len ++ d.dramGet m (x.addr + off) (min 8192 (x.len - off)))

/-- EXPORT_COMPLETE: the last datagram has left. -/
def Dev.exportDone (d : Dev) (m : Mem) : Dev :=
  match d.mgt.exporting with
  | none => d
  | some x =>
    if !d.mgtUp || !d.mainUp || !at' d.lnk.ethUp x.port then d
    else
      let d := (d.exportData m x).foldl (fun d bs => d.emit (.eth x.port bs)) d
      ({ d with mgt.exporting := none }).pmpReply x.src x.seq 0 (leBytes 4 x.id)

/-! ## Meanings -/

/-- PMP_IDENT (R529). -/
def execPmpIdent (h : PmpHdr) (s : State) : Host.Outcome State Fault Refusal :=
  .next { s with dev := s.dev.pmp h (fun d => d.pmpIdent h) }

/-- LOG_READ (R531). -/
def execLogRead (h : PmpHdr) (first : W32) (count : Nat) (s : State) : Host.Outcome State Fault Refusal :=
  .next { s with dev := s.dev.pmp h (fun d => d.logRead h first.toNat count) }

/-- IMG_BEGIN (R535). -/
def execImgBegin (h : PmpHdr) (slot len : Nat) (sha : BitVec 384) (flashOk : Bool) (s : State) : Host.Outcome State Fault Refusal :=
  .next { s with dev := s.dev.pmp h (fun d => d.imgBegin h slot len sha flashOk) }

/-- IMG_PIECE (R535). -/
def execImgPiece (h : PmpHdr) (slot idx : Nat) (crc : W32) (data : List Byte) (flashOk : Bool) (s : State) :
    Host.Outcome State Fault Refusal :=
  .next { s with dev := s.dev.pmp h (fun d => d.imgPiece h slot idx crc.toNat data flashOk) }

/-- IMG_STATUS (R529). -/
def execImgStatus (h : PmpHdr) (slot : Nat) (s : State) : Host.Outcome State Fault Refusal :=
  .next { s with dev := s.dev.pmp h (fun d => d.imgStatus h slot) }

/-- IMG_ACTIVATE (R537). -/
def execImgActivate (h : PmpHdr) (slot : Nat) (s : State) : Host.Outcome State Fault Refusal :=
  .next { s with dev := s.dev.pmp h (fun d => d.imgActivate h slot) }

/-- FW_HANDOVER (R537). -/
def execFwHandover (s : State) : Host.Outcome State Fault Refusal := .next { s with dev := s.dev.fwHandover }

/-- ACTIVATE_TIMEOUT (R537). -/
def execActivateTimeout (s : State) : Host.Outcome State Fault Refusal := .next { s with dev := s.dev.activateTimeout }

/-- IMG_CONFIRM (R537). -/
def execImgConfirm (h : PmpHdr) (flashOk : Bool) (s : State) : Host.Outcome State Fault Refusal :=
  .next { s with dev := s.dev.pmp h (fun d => d.imgConfirm h flashOk) }

/-- IMG_REVERT (R537). -/
def execImgRevert (h : PmpHdr) (flashOk : Bool) (s : State) : Host.Outcome State Fault Refusal :=
  .next { s with dev := s.dev.pmp h (fun d => d.imgRevert h flashOk) }

/-- PMP_RESET (R539): with the key, the reset starts 1 ms after the reply. -/
def execPmpReset (h : PmpHdr) (k : W16) (s : State) : Host.Outcome State Fault Refusal :=
  .next { s with dev := s.dev.pmp h (fun d =>
    if k != 0xD1E5 then d.answerPmp h 3 else { d.answerPmp h 0 with mgt.resetAt := some (d.pwr.clock + msUnit) }) }

/-- EXPORT (R529). -/
def execExport (h : PmpHdr) (addr : Nat) (len : Nat) (port : Nat) (dst : BitVec 128) (udp : W16) (s : State) :
    Host.Outcome State Fault Refusal :=
  .next { s with dev := s.dev.pmp h (fun d => d.exportStart h addr len port dst udp) }

/-- EXPORT_COMPLETE (R529). -/
def execExportComplete (s : State) : Host.Outcome State Fault Refusal := .next { s with dev := s.dev.exportDone s.mem }

/-- CONFIG_GET (R538). -/
def execConfigGet (h : PmpHdr) (s : State) : Host.Outcome State Fault Refusal :=
  .next { s with dev := s.dev.pmp h (fun d => d.configGet h) }

/-- CONFIG_SET (R538). -/
def execConfigSet (h : PmpHdr) (settings : List Byte) (flashOk : Bool) (s : State) : Host.Outcome State Fault Refusal :=
  .next { s with dev := s.dev.pmp h (fun d => d.configSet h settings flashOk) }

end Sys2Proof.Machine
end

