-- ==== Sys2Proof/Machine/HstCmd.lean ====
section
/-!
DEFINITION. The commands of HST: the PCIe link, function-level reset, doorbells, entries, rings, completion entries and MSI-X
(chapter 02).
-/
namespace Sys2Proof.Machine

/-! ## The link (R37, R38, R64) -/

/-- The link comes up at a speed and width it can train to, unless PCIe lanes are under test (R35, R64, R389). -/
def Dev.linkRises (d : Dev) (speed width : Nat) : Dev :=
  if (List.range 8).any d.testing || !linkTrains speed width then d else (d.linkUpWith speed width).sendAllPending.settleHold

/-- An entry whose read was abandoned ends without a DONE entry (R38). -/
def Dev.forgetEntry (d : Dev) (e : Entry) : Dev :=
  (d.updRing e.ring (fun r => { r with passed := r.passed - 1 })).passOn e.ring

/-- Bricks whose data was on its way are discarded and counted (R38). -/
def Dev.abandonBricks (d : Dev) : Dev :=
  let own := d.crs.bricks.filter (fun b => b.st == .checking && b.fedBy.isNone)
  let fed := d.lnk.fed.filter (fun x => !x.sent && !x.pages.isEmpty)
  let d := own.foldl (fun d b => ((d.dropBrick b).forgetEntry b.entry).bump Reg.HST_ABANDONED_COUNT) d
  fed.foldl (fun d x => ((d.fedRemove x).forgetEntry x.entry).bump Reg.HST_ABANDONED_COUNT) d

/-- The link goes down (R38, R64, R69). -/
def Dev.linkFalls (d : Dev) : Dev :=
  if !d.hst.linkUp then d
  else
    let loads := d.crs.loads
    let d := { d.abandonReads.abandonBricks with crs.loads := [] }
    let d := loads.foldl (fun d e => (d.pop e.ring).forgetEntry e) d
    let d : Dev := { d with hst.linkUp := false, hst.speed := 0, hst.width := 0 }
    (d.raise 18 0 0x100A 0).settleHold

/-! ## Completion entries (R55 to R59, R61) -/

/-- The next item of the merge, in stamp order, goes to the log, the exporter and its ring (R56 to R59). An item of the present cycle waits:
another with a lower stamp may still arise in it (R57). -/
def Dev.completionWrite (d : Dev) : Dev :=
  let d := d.flushRings
  match d.ev.merge with
  | [] => d
  | x :: t =>
    if x.stamp.beat == d.beat && x.stamp.cycle == min d.tmb.cycle 127 then d else
    let d : Dev := { d with ev.merge := t }
    let d := if x.isEvent then ((d.logEvent x).exportEvent x).hstErrIrq x else d
    match d.ringFor x with
    | none => d
    | some n =>
      let d := d.deliver n x
      if x.code == 0x9002 && !x.isEvent && d.on Reg.HST_RING_IRQ_IRQ_EN n && (d.ring n).unsignalled ≠ 0 then
        d.ringSignal n
      else d

/-- MOD_BEATS beats after the first entry not yet signalled, the ring signals (R61). -/
def Dev.modTimer (d : Dev) (n : Nat) : Dev :=
  let lim := d.act Reg.HST_RING_IRQ_MOD_BEATS n
  match (d.ring n).firstBeat with
  | some b =>
    if d.on Reg.HST_RING_IRQ_IRQ_EN n && lim != 0 && decide ((lim : Int) ≤ beatDiff d.beat b) then d.ringSignal n else d
  | none => d

/-! ## Meanings -/

/-- PCIE_LINK_UP (R35, R64). -/
def execPcieLinkUp (speed width : Nat) (s : State) : Host.Outcome State Fault Refusal :=
  s.mainOnly { s with dev := s.dev.linkRises speed width }

/-- PCIE_LINK_DOWN (R38, R64). -/
def execPcieLinkDown (s : State) : Host.Outcome State Fault Refusal := s.mainOnly { s with dev := s.dev.linkFalls }

/-- FUNCTION_LEVEL_RESET (R37). -/
def execFunctionLevelReset (s : State) : Host.Outcome State Fault Refusal := s.mainOnly { s with dev := s.dev.flr.settleHold }

/-- DOORBELL_POLL (R44). -/
def execDoorbellPoll (s : State) : Host.Outcome State Fault Refusal := s.mainOnly { s with dev := s.dev.doorbellPoll }

/-- DOORBELL_RETURN (R45, R46). -/
def execDoorbellReturn (table : Option (List W32)) (s : State) : Host.Outcome State Fault Refusal :=
  s.mainOnly { s with dev := s.dev.doorbellReturn table Dev.fetchRoom }

/-- ENTRY_ARRIVAL (R52, R69). -/
def execEntryArrival (ring : Nat) (rd : EntryRead) (s : State) : Host.Outcome State Fault Refusal :=
  s.mainOnly { s with dev := s.dev.entryArrival ring rd }

/-- RING_ENABLE (R48): a write of HST_RING_n_CFG that sets ENABLE. -/
def execRingEnable (_src : Source) (ring : Nat) (v : W64) (s : State) : Host.Outcome State Fault Refusal :=
  s.mainOnly { s with dev := if ring < 64 && !s.dev.ringEnabled ring && Reg.HST_RING_CFG_ENABLE.of v == 1 then
            s.dev.writeRingCfg ring v else s.dev }

/-- RING_DISABLE (R49, R50): a write of HST_RING_n_CFG that clears ENABLE. -/
def execRingDisable (_src : Source) (ring : Nat) (v : W64) (s : State) : Host.Outcome State Fault Refusal :=
  s.mainOnly { s with dev := if ring < 64 && s.dev.ringEnabled ring && Reg.HST_RING_CFG_ENABLE.of v == 0 then
            s.dev.writeRingCfg ring v else s.dev }

/-- ROUTE_WRITE (R67): a write of HST_EVT_ROUTE_b for block 0 to 15, or of HST_FOREIGN_ROUTE, which stands as 16. -/
def execRouteWrite (_src : Source) (blk : Nat) (v : W64) (s : State) : Host.Outcome State Fault Refusal :=
  s.mainOnly { s with dev := if blk < 16 then s.dev.writeRoute blk v else if blk == 16 then s.dev.writeForeignRoute v else s.dev }

/-- COMPLETION_WRITE (R53 to R59). -/
def execCompletionWrite (s : State) : Host.Outcome State Fault Refusal := s.mainOnly { s with dev := s.dev.completionWrite }

/-- MSIX_MOD_TIMER (R61). -/
def execMsixModTimer (ring : Nat) (s : State) : Host.Outcome State Fault Refusal := s.mainOnly { s with dev := s.dev.modTimer ring }

/-- MSIX_TABLE_ACCESS (R60). -/
def execMsixTableAccess (off : Nat) (acc : MsixAccess) (s : State) : Host.Outcome State Fault Refusal :=
  s.mainOnly { s with dev := s.dev.msixAccess off acc }

end Sys2Proof.Machine
end

