-- ==== Sys2Proof/Machine/Pwr.lean ====
section
/-!
DEFINITION. Power islands (R29, R30, R32), full device reset (R539, R540), power, reset and PCIe pins (R548, R551 to R558) and the
SMBus target (R532).
-/
namespace Sys2Proof.Machine

/-! ## Islands (R29, R30) -/

/-- The islands that can leave ACTIVE, by 64 times their block plus their number: HST, the course unit, each channel's piste, laser
channel, servo loops and melt-pool loop, the camera ports (0 to 3) and engines (4, 5), the codec, the movers, the DRAM controllers, the
lanes, the axes, the lights and the main-domain part of THM. -/
def islands : List Nat :=
  [64, 128] ++ (List.range 16).map (192 + ·) ++ (List.range 16).map (256 + ·) ++ (List.range 16).map (320 + ·) ++
    (List.range 16).map (384 + ·) ++ (List.range 6).map (448 + ·) ++ [512, 576, 640, 641] ++ (List.range 32).map (704 + ·) ++
    [832, 896, 960]

/-- The keep-on conditions (R30). That a channel is enabled in LSR is read as any state but OFF, and that a rank is configured as the channel's
EN: the model's readings (log entry 113). -/
def Dev.keepOn (d : Dev) (k : Nat) : Bool :=
  let i := k % 64
  let chanOn := (d.chan i).st != .off
  match k / 64 with
  | 1 => d.hst.linkUp
  | 2 => d.courseOpen
  | 3 | 5 => chanOn || [3 * i, 3 * i + 1, 3 * i + 2].any (fun a => (d.axis a).st != .off)
  | 4 | 6 => chanOn
  | 7 => if i < 4 then (d.cport i).arm.isSome
    else (List.range 4).any (fun c => (d.cport c).arm.isSome && d.cur Reg.CAM_PORT_CFG_ENGINE c == i - 4)
  | 10 => d.cur Reg.MEM_DDR_CFG_EN i == 1
  | 11 => d.laneInUse i || d.testing i
  | 13 => (List.range 8).any (fun m => (d.stepper m).on)
  | 14 => (List.range 96).any (fun n => (d.light n).on != 0 || (d.light n).tested)
  | _ => false

/-- An island has work: entries that wait for its block, or what it has begun. -/
def Dev.hasWork (d : Dev) (k : Nat) : Bool :=
  d.hst.rings.toList.any (fun r => (r.inQ ++ r.fenced).any (fun e => (d.entryIslands e).contains k)) ||
  match k / 64 with
  | 1 => d.hst.dbOut || d.hst.rings.toList.any (fun r => r.fetching != 0) || !d.ev.merge.isEmpty
  | 2 => !d.crs.bricks.isEmpty || !d.crs.loads.isEmpty || d.lnk.streams.any (fun s => !s.q.isEmpty)
  | 3 => (d.piste (k % 64)).swap.isSome
  | 7 =>
    let c := k % 64
    (List.range 4).any (fun p => (p == c || d.cur Reg.CAM_PORT_CFG_ENGINE p + 4 == c) &&
      (!(d.cport p).buf.isEmpty || !(d.cport p).closing.isEmpty))
  | 8 => d.cdc.job.isSome || !d.cdc.queue.isEmpty
  | 9 => d.dma.ch.toList.any (fun c => c.run.isSome || !c.queue.isEmpty)
  | 13 => !d.axs.moves.isEmpty || !d.axs.waiting.isEmpty || !d.axs.stops.isEmpty
  | _ => false

/-- The island exists, and nothing keeps it ACTIVE. -/
def Dev.mayRest (d : Dev) (k : Nat) : Bool := islands.contains k && !d.keepOn k && !d.hasWork k

/-- Put an island into a state. -/
def Dev.setIsland (d : Dev) (k st : Nat) : Dev := { d with pwr.isl := Assoc.put d.pwr.isl k st 0 }

/-- The edges for which an island has been idle. -/
def Dev.idleFor (d : Dev) (k : Nat) : Nat := Assoc.get d.pwr.idle k 0

/-- At a beat or service edge every island that has nothing to do has been idle for one more, up to the 1 s that R29 asks for. -/
def Dev.countIdle (d : Dev) : Dev :=
  { d with pwr.idle := (islands.filter d.mayRest).map (fun k => (k, min (d.idleFor k + 1) 20000000)) }

/-- CLOCK_GATE_ENTRY: idle for 64 beats (R29). -/
def Dev.gateIsland (d : Dev) (k : Nat) : Dev :=
  if d.mayRest k && d.island k == 0 && 64 ≤ d.idleFor k then d.setIsland k 1 else d

/-- ISLAND_OFF_ENTRY: idle for 1 s (R29). The logic state that stands in an idle island is a piste's held head reference (R152). -/
def Dev.offIsland (d : Dev) (k : Nat) : Dev :=
  if d.mayRest k && d.island k != 2 && 20000000 ≤ d.idleFor k then
    let d := d.setIsland k 2
    if k / 64 == 3 then d.updPiste (k % 64) (fun p => { p with issued := false }) else d
  else d

/-- ISLAND_WAKE: at a beat group boundary, 64 beats or more after work arrived (R29). -/
def Dev.wakeIsland (d : Dev) (k : Nat) : Dev :=
  if d.island k == 2 && d.tmb.cycle == 0 && d.beatMultiple 64 && d.pwr.wake.any (fun w => w.1 == k && decide (d.beatWide - w.2 ≥ 64)) then
    { d.setIsland k 0 with pwr.wake := d.pwr.wake.filter (fun w => w.1 != k) }
  else d

/-- What the present conditions make of the islands that are not ACTIVE: a gated one that is kept on or has work is ACTIVE, and one that is
off notes in which beat that began (R29). -/
def Dev.settleIslands (d : Dev) : Dev :=
  d.pwr.isl.foldl (fun (d : Dev) e => if d.keepOn e.1 || d.hasWork e.1 then d.workFor [e.1] else d) d

/-- A ring entry, or a frame that came over Beat Link for the course unit, waits for an island of block `b` that is off (R567). -/
def Dev.waitsForBlock (d : Dev) (b : Nat) : Bool :=
  d.pwr.isl.any (fun e => e.1 / 64 == b && e.2 == 2 &&
    (d.hst.rings.toList.any (fun r => (r.inQ ++ r.fenced).any (fun x => (d.entryIslands x).contains e.1)) ||
     (b == 2 && d.lnk.streams.any (fun s => !s.q.isEmpty))))

/-- STATE_n of MGT_BLOCK_STATE (R32): the SRAM's share of MEM is always ACTIVE. -/
def Dev.blockState (d : Dev) (b : Nat) : Nat :=
  let st := (islands.filter (fun k => k / 64 == b)).map d.island ++ (if b == 10 then [0] else [])
  let all := fun v => st.all (· == v)
  if all 0 then 0 else if all 1 then 1 else if all 2 then 2 else 3

/-! ## Full device reset (R539, R540) -/

/-- The number of a reset cause (R542). -/
def causeCode (c : ResetCause) : Nat := match c with | .powerOn => 0 | .resetN => 1 | .pmp => 2 | .smbus => 3

/-- What a full device reset leaves of the management processor: the flash, the log and the cause. -/
def Dev.mgtReset (d : Dev) (cause : Nat) : Mgt :=
  let g : Mgt := {}
  { g with log := d.mgt.log, nextSeq := d.mgt.nextSeq, overwritten := d.mgt.overwritten, slots := d.mgt.slots, areas := d.mgt.areas,
           confirmed := d.mgt.confirmed, running := d.mgt.confirmed, cause }

/-- A full device reset starts (R540): every register, the time and the outputs at reset, the management processor rebooting from the
CONFIRMED slot; the latch, the log, the flash, the straps and the standby clock stand. -/
def Dev.fullReset (d : Dev) (cause : Nat) : Dev :=
  let old := d.flushLog
  let fell := old.trialSlot
  let r : Dev := {}
  let d : Dev :=
    { r with ev.out := old.ev.out, freeCount := old.freeCount, thm.latch := old.thm.latch, cal.store := old.cal.store,
             mgt := old.mgtReset cause, hst.perst := old.hst.perst,
             pwr := { old.pwr with isl := [], idle := [], wake := [], seqDone := false } }
  let d := d.raise 2 0 0x0109 cause
  let d := match fell with | some t => d.dropTrial.fwEvent t 0x0106 | none => d
  d.chooseSettings d.mgt.confirmed

/-- RESET_SEQUENCE_COMPLETE (R558): the main domain runs, and the kick watchdog counts from here. -/
def Dev.sequenceDone (d : Dev) : Dev :=
  if d.pwr.standby && d.pwr.mainPg && d.pwr.ref100 && d.pwr.resetN && !d.pwr.seqDone then
    { d with pwr.seqDone := true, safe.kickAt := d.pwr.clock }
  else d

/-! ## Power and reset pins (R551 to R558) -/

/-- A state with its device after a full device reset: the SRAM zeroed and the DRAM lost (R365, R376, R540). -/
def State.afterReset (s : State) (d : Dev) (cause : Nat) : State := { s with mem := {}, dev := d.fullReset cause }

/-- A state whose main domain has lost its power (R555). -/
def State.afterLoss (s : State) (d : Dev) : State := { s with mem := {}, dev := d.mainLost }

/-- Standby power is gone: only the flash keeps its contents (R534, R555). -/
def Dev.standbyLost (d : Dev) : Dev :=
  let r : Dev := {}
  let g : Mgt := {}
  { r with ev.out := d.ev.out, freeCount := d.freeCount, cal.store := d.cal.store, hst.perst := d.hst.perst,
           mgt := { g with log := [], nextSeq := 0, slots := d.mgt.slots, areas := d.mgt.areas, confirmed := d.mgt.confirmed,
                           running := d.mgt.confirmed },
           pwr := { d.pwr with standby := false, mainEn := false, mainPg := false, seqDone := false, isl := [], idle := [], wake := [] } }

/-- Standby power becomes good: the straps are sampled, and MAIN_EN is driven unless STRAP_TEST, the highest of them, is 1 (R551,
R554). -/
def Dev.standbyGood (d : Dev) (straps : BitVec 5) : Dev :=
  { d with pwr := { d.pwr with standby := true, straps, mainEn := !straps.getLsbD 4, clock := 0 } }

/-! ## Pads (R550, R559) -/

/-- THERM_N is driven low. -/
def Dev.thermLow (d : Dev) : Bool := d.pwr.standby && d.thm.latch

/-- The level driven on GPIO `i`; none where it is high impedance. -/
def Dev.gpioPad (d : Dev) (i : Nat) : Option Bool :=
  if d.mainUp && bitOf (d.act Reg.MGT_GPIO_OE) i then some (bitOf (d.act Reg.MGT_GPIO_OUT) i) else none

/-- The transmitter of lane `l` is driven: its function is enabled or a test runs on it. -/
def Dev.laneDriven (d : Dev) (l : Nat) : Bool := d.mainUp && (d.laneInUse l || d.testing l)

/-! ## The SMBus target (R532, R552) -/

/-- The XM16's SMBus address (R527). -/
def Dev.smbAddress (d : Dev) : Nat := 0x58 + d.pwr.straps.toNat % 8

/-- SMB_ALERT_N is low (R552). -/
def Dev.smbAlert (d : Dev) : Bool := d.thm.latch || (List.range 24).any (fun s => (d.sensor s).st == .enforced)

/-- THM_STATUS.DIE_MAX: the highest last valid reading of the on-die sensors (R511). -/
def Dev.dieMax (d : Dev) : Int :=
  match (List.range 8).filterMap (fun i => if (d.sensor (16 + i)).read then some (d.sensor (16 + i)).temp else none) with
  | [] => 0
  | t :: ts => ts.foldl max t

/-- The STATUS byte. -/
def Dev.smbStatusByte (d : Dev) : Nat :=
  let slot := if d.mgt.act.isSome then 2 else if d.trialSlot.isSome then 1 else 0
  bit (d.pwr.mainPg && d.pwr.ref100) + 2 * bit d.thm.latch + 4 * bit d.tmb.run + 8 * bit d.safe.hbRun + 16 * slot

/-- Answer an SMBus read. -/
def Dev.smbAnswer (d : Dev) (bs : List Byte) : Dev := if d.mgtUp then d.emit (.smbus bs) else d

/-! ## Meanings -/

/-- CLOCK_GATE_ENTRY (R29). -/
def execClockGateEntry (blk isl : Nat) (s : State) : Host.Outcome State Fault Refusal :=
  s.mainOnly { s with dev := s.dev.gateIsland (64 * blk + isl % 64) }

/-- ISLAND_OFF_ENTRY (R29). -/
def execIslandOffEntry (blk isl : Nat) (s : State) : Host.Outcome State Fault Refusal :=
  s.mainOnly { s with dev := s.dev.offIsland (64 * blk + isl % 64) }

/-- ISLAND_WAKE (R29). -/
def execIslandWake (blk isl : Nat) (s : State) : Host.Outcome State Fault Refusal :=
  s.mainOnly { s with dev := s.dev.wakeIsland (64 * blk + isl % 64) }

/-- FULL_DEVICE_RESET (R539, R540); the reset that PMP RESET asked for starts 1 ms after its reply. -/
def execFullDeviceReset (cause : ResetCause) (s : State) : Host.Outcome State Fault Refusal :=
  let due := match s.dev.mgt.resetAt with | some t => decide (t ≤ s.dev.pwr.clock) | none => false
  .next (if s.dev.pwr.standby && (cause != .pmp || due) then s.afterReset s.dev (causeCode cause) else s)

/-- RESET_N_LOW (R557): low for 1 µs resets, for less than 200 ns does nothing, and for a time between may do either. -/
def execResetNLow (ns : Nat) (s : State) : Host.Outcome State Fault Refusal :=
  let (v, d) := if 200 ≤ ns && ns < 1000 then s.dev.free else (if ns < 200 then 0 else 1, s.dev)
  .next (if s.dev.pwr.standby && v % 2 == 1 then s.afterReset { d with pwr.resetN := false } 1 else { s with dev := d })

/-- RESET_N_RISE (R558). -/
def execResetNRise (s : State) : Host.Outcome State Fault Refusal := .next { s with dev.pwr.resetN := true }

/-- RESET_SEQUENCE_COMPLETE (R558). -/
def execResetSequenceComplete (s : State) : Host.Outcome State Fault Refusal := .next { s with dev := s.dev.sequenceDone }

/-- STANDBY_POWER_GOOD (R539, R551, R554): a power-on reset of the standby domain. -/
def execStandbyPowerGood (straps : BitVec 5) (s : State) : Host.Outcome State Fault Refusal :=
  .next (if s.dev.pwr.standby then s else s.afterReset (s.dev.standbyGood straps) 0)

/-- STANDBY_POWER_LOSS (R555). -/
def execStandbyPowerLoss (s : State) : Host.Outcome State Fault Refusal := .next { s with mem := {}, dev := s.dev.standbyLost }

/-- MAIN_PG_RISE (R555): a full device reset runs. -/
def execMainPgRise (s : State) : Host.Outcome State Fault Refusal :=
  .next (if s.dev.pwr.mainEn && !s.dev.pwr.mainPg then s.afterReset { s.dev with pwr.mainPg := true } 0 else s)

/-- MAIN_PG_FALL (R555). -/
def execMainPgFall (s : State) : Host.Outcome State Fault Refusal :=
  .next (if s.dev.pwr.mainPg then s.afterLoss { s.dev with pwr.mainPg := false } else s)

/-- REF100_LOSS (R556): for more than 1 µs it is main power loss. -/
def execRef100Loss (ns : Nat) (s : State) : Host.Outcome State Fault Refusal :=
  .next (if ns > 1000 && s.dev.pwr.standby && s.dev.pwr.ref100 then s.afterLoss { s.dev with pwr.ref100 := false } else s)

/-- REF100_RETURN (R556): a full device reset runs. -/
def execRef100Return (s : State) : Host.Outcome State Fault Refusal :=
  .next (if s.dev.pwr.standby && !s.dev.pwr.ref100 then s.afterReset { s.dev with pwr.ref100 := true } 0 else s)

/-- HST is reset as function-level reset does, and its link is held down (R548). -/
def Dev.perstLow (d : Dev) : Dev :=
  let d := if d.mainUp then d.linkFalls.flr.settleHold else d
  { d with hst.perst := true }

/-- PCIE_PERST_N (R548): driven low. -/
def execPciePerstN (s : State) : Host.Outcome State Fault Refusal := .next { s with dev := s.dev.perstLow }

/-- PCIE_PERST_N_RISE (R548). -/
def execPciePerstNRise (s : State) : Host.Outcome State Fault Refusal := .next { s with dev.hst.perst := false }

/-- PCIE_CONFIG_WRITE (R38, R60, R64): Bus Master Enable, the power state, and MSI-X Enable and Function Mask as the write leaves them. -/
def execPcieConfigWrite (func : PcieControl) (msix : MsixControl) (s : State) : Host.Outcome State Fault Refusal :=
  let d := { s.dev with hst.bme := func.bme, hst.d3hot := func.d3hot, hst.msixEnable := msix.enable, hst.msixMask := msix.mask }
  s.mainOnly { s with dev := if s.dev.hst.linkUp then d.sendAllPending else s.dev }

/-- SMB_STATUS (R532). -/
def execSmbStatus (s : State) : Host.Outcome State Fault Refusal :=
  .next { s with dev := s.dev.smbAnswer (leBytes 1 s.dev.smbStatusByte) }

/-- SMB_IDENT (R532, R533). -/
def execSmbIdent (s : State) : Host.Outcome State Fault Refusal :=
  .next { s with dev := s.dev.smbAnswer (leBytes 16 identity.toNat) }

/-- SMB_TEMP (R532). -/
def execSmbTemp (s : State) : Host.Outcome State Fault Refusal :=
  .next { s with dev := s.dev.smbAnswer (leBytes 2 (unsigned 16 s.dev.dieMax)) }

/-- SMB_RESET (R532, R539): 0xA5 starts a full device reset; any other value is ignored. -/
def execSmbReset (v : Byte) (s : State) : Host.Outcome State Fault Refusal :=
  .next (if v == 0xA5 && s.dev.mgtUp then s.afterReset s.dev 3 else s)

/-- SMB_CAUSE (R532, R542). -/
def execSmbCause (s : State) : Host.Outcome State Fault Refusal := .next { s with dev := s.dev.smbAnswer (leBytes 1 s.dev.mgt.cause) }

/-- SMB_ALERT_RESPONSE (R552): while SMB_ALERT_N is low, the own address, in the upper seven bits of the byte. -/
def execSmbAlertResponse (s : State) : Host.Outcome State Fault Refusal :=
  .next { s with dev := if s.dev.smbAlert then s.dev.smbAnswer (leBytes 1 (2 * s.dev.smbAddress)) else s.dev }

end Sys2Proof.Machine
end

