-- ==== Sys2Proof/Machine/Status.lean ====
section
/-!
DEFINITION. The values of the read-only register fields, block by block, as the register tables give them. Each function lists
the RO fields of the register at `r.addr` with their values; a field not listed reads 0.
-/
namespace Sys2Proof.Machine

/-- A signed value as a field of `n` bits shows it (chapter 00). -/
def shown (n : Nat) (x : Int) : Nat := unsigned n x

/-- Fields of `w` bits packed from element 0 upward. -/
def packed (w n : Nat) (f : Nat → Nat) : Nat := (List.range n).foldl (fun a i => a + f i % 2 ^ w * 2 ^ (w * i)) 0

/-! ## MGT (R32, R223, R524, R525, R541, R542, R550) -/

/-- The level of each GPIO: the one it drives, or, where it drives none, what the board puts there, which is free (R550). -/
def Dev.gpioIn (d : Dev) (v : Nat) : Nat :=
  bitset 12 (fun i => if bitOf (d.act Reg.MGT_GPIO_OE) i then bitOf (d.act Reg.MGT_GPIO_OUT) i else bitOf v i)

/-- CAL_STATUS.STATE (R524). -/
def calState (c : Cal) : Nat :=
  match c.run with
  | none => 0
  | some r => match r.phase with | .draining => 1 | .run1 => 2 | .run2 => 3

def Dev.roMgt (d : Dev) (r : RegDef) (i v : Nat) : List (Field × Nat) :=
  if r.addr = Reg.MGT_BLOCK_STATE.addr then [(Reg.MGT_BLOCK_STATE_STATES, packed 2 16 d.blockState)]
  else if r.addr = Reg.MGT_SAFE_STATUS.addr then
    [(Reg.MGT_SAFE_STATUS_HB_RUN, bit d.safe.hbRun), (Reg.MGT_SAFE_STATUS_READY_OUT, bit d.safe.readyOut),
     (Reg.MGT_SAFE_STATUS_SAFE_CLOSED, bit d.safe.closed), (Reg.MGT_SAFE_STATUS_SAFE_RAW, bit d.safe.raw)]
  else if r.addr = Reg.MGT_CAL_STATUS.addr then
    [(Reg.MGT_CAL_STATUS_UNIT, (d.cal.run.map (fun (x : CalRun) => x.unit)).getD 0),
     (Reg.MGT_CAL_STATUS_KIND, (d.cal.run.map (fun (x : CalRun) => x.kind)).getD 0), (Reg.MGT_CAL_STATUS_STATE, calState d.cal)]
  else if r.addr = Reg.MGT_CAL_COUNT.addr then
    let c := at' d.cal.counts (i + 1)
    [(Reg.MGT_CAL_COUNT_ACCEPTED, c.accepted), (Reg.MGT_CAL_COUNT_REJECTED, c.rejected)]
  else if r.addr = Reg.MGT_CAL_LAST.addr then [(Reg.MGT_CAL_LAST_TIME, (at' d.cal.counts (i + 1)).last)]
  else if r.addr = Reg.MGT_IDENT_LO.addr then [(Reg.MGT_IDENT_LO_IDENT, identity.toNat % 2 ^ 64)]
  else if r.addr = Reg.MGT_IDENT_HI.addr then [(Reg.MGT_IDENT_HI_IDENT, identity.toNat / 2 ^ 64)]
  else if r.addr = Reg.MGT_FW_STATUS.addr then
    [(Reg.MGT_FW_STATUS_RUN_VERSION, Config.imageVersion (d.fw d.mgt.running).image), (Reg.MGT_FW_STATUS_SVN_FLOOR, Config.svnFloor),
     (Reg.MGT_FW_STATUS_SLOT1, slotCode (d.fw 1).st), (Reg.MGT_FW_STATUS_SLOT0, slotCode (d.fw 0).st),
     (Reg.MGT_FW_STATUS_RUNNING, d.mgt.running)]
  else if r.addr = Reg.MGT_LOG_STATUS.addr then
    [(Reg.MGT_LOG_STATUS_NEXT_SEQ, d.mgt.nextSeq), (Reg.MGT_LOG_STATUS_OVERWRITTEN, d.mgt.overwritten)]
  else if r.addr = Reg.MGT_RESET_CAUSE.addr then [(Reg.MGT_RESET_CAUSE_CAUSE, d.mgt.cause)]
  else if r.addr = Reg.MGT_GPIO.addr then [(Reg.MGT_GPIO_IN, d.gpioIn v)]
  else []

/-! ## HST (R64, R68) -/

def Dev.roHst (d : Dev) (r : RegDef) (i : Nat) : List (Field × Nat) :=
  if r.addr = Reg.HST_STATUS.addr then
    [(Reg.HST_STATUS_LINK_SPEED, d.hst.speed), (Reg.HST_STATUS_LINK_WIDTH, d.hst.width), (Reg.HST_STATUS_BME, bit d.hst.bme),
     (Reg.HST_STATUS_LINK_UP, bit d.hst.linkUp),
     (Reg.HST_STATUS_ANY_RING_ERROR, bit ((List.range 64).any (fun n => (d.ring n).st == .error)))]
  else if r.addr = Reg.HST_RING_STATUS.addr then
    [(Reg.HST_RING_STATUS_LAST_ERROR, (d.ring i).lastError), (Reg.HST_RING_STATUS_STATE, d.ringState i),
     (Reg.HST_RING_STATUS_INDEX, (d.ring i).index)]
  else []

/-! ## MSN (R96 to R98, R123, R127) -/

/-- MSN_CHAN_STATE's number of a laser state (R127). -/
def laserCode (s : LaserState) : Nat :=
  match s with | .off => 0 | .idle => 1 | .running => 2 | .plumeHeld => 3 | .stopping => 4 | .chanHold => 5

/-- MSN_CRS_STATUS.STATE (R96). -/
def courseCode (s : CourseState) : Nat := match s with | .idle => 0 | .open => 1 | .closing => 2 | .aborting => 3

def Dev.roMsn (d : Dev) (r : RegDef) : List (Field × Nat) :=
  if r.addr = Reg.MSN_STATUS.addr then
    [(Reg.MSN_STATUS_HOLD_LINK, bit (bitOf d.msn.holdCauses 2)), (Reg.MSN_STATUS_HOLD_THERMAL, bit (bitOf d.msn.holdCauses 1)),
     (Reg.MSN_STATUS_HOLD_HOST, bit (bitOf d.msn.holdCauses 0)), (Reg.MSN_STATUS_URGENT, (d.readyBricks.filter (·.urgent)).length),
     (Reg.MSN_STATUS_DEVICE_HOLD, bit (d.msn.holdCauses != 0))]
  else if r.addr = Reg.MSN_CHAN_STATE.addr then [(Reg.MSN_CHAN_STATE_STATES, packed 4 16 (fun n => laserCode (d.laser n).st))]
  else if r.addr = Reg.MSN_CHAN_HOLD.addr then [(Reg.MSN_CHAN_HOLD_CAUSES, packed 2 16 (fun n => (d.chan n).report))]
  else if r.addr = Reg.MSN_CRS_STATUS.addr then
    [(Reg.MSN_CRS_STATUS_COURSE, d.crs.number), (Reg.MSN_CRS_STATUS_LAST_VALID, bit d.crs.lastValid),
     (Reg.MSN_CRS_STATUS_STATE, courseCode d.crs.st)]
  else if r.addr = Reg.MSN_CRS_COUNT.addr then [(Reg.MSN_CRS_COUNT_ACCEPTED, d.crs.taken), (Reg.MSN_CRS_COUNT_TOTAL, d.crs.total)]
  else if r.addr = Reg.MSN_PSET_STATUS.addr then [(Reg.MSN_PSET_STATUS_LAST_BEAT, d.crs.lastCommit)]
  else []

/-! ## PTH (R161, R163, R184) -/

/-- PTH_n_STATUS.STATE (R163). -/
def pisteCode (s : PisteState) : Nat := match s with | .off => 0 | .parked => 1 | .running => 2 | .holding => 3 | .stopping => 4

/-- The bond index of zone `z` in the open course, or in the last one, without the staircase term (R170, R184). -/
def Dev.zoneIndex (d : Dev) (z : Nat) : Nat := d.bondIndex z d.crs.number 0

def Dev.roPth (d : Dev) (m : Mem) (r : RegDef) (i v : Nat) : List (Field × Nat) :=
  if r.addr = Reg.PTH_STATUS.addr then
    [(Reg.PTH_STATUS_SLOTS_FREE, bitset 17 (fun s => (List.range 16).all (fun n => (d.piste n).slot != s)))]
  else if r.addr = Reg.PTH_GRID_BASE.addr then [(Reg.PTH_GRID_BASE_ADDR, 0x03600000)]
  else if r.addr = Reg.PTH_CHSTATUS.addr then
    let p := d.piste i
    [(Reg.PTH_CHSTATUS_END_NEAR, bit p.endNear), (Reg.PTH_CHSTATUS_STATE, pisteCode p.st),
     (Reg.PTH_CHSTATUS_FIELD_OK, bit (d.fieldOk m i)), (Reg.PTH_CHSTATUS_SLOT, p.slot)]
  else if r.addr = Reg.PTH_REF.addr then
    [(Reg.PTH_REF_X, shown 32 (d.piste i).refX), (Reg.PTH_REF_Y, shown 32 (d.piste i).refY)]
  else if r.addr = Reg.PTH_SEAM_REG.addr then
    let z := at' d.pth.zones i
    [(Reg.PTH_SEAM_REG_REG_VALID, bit z.regValid), (Reg.PTH_SEAM_REG_RESIDUAL, z.residual)]
  else if r.addr = Reg.PTH_SEAM_STATUS.addr then
    let k := d.zoneIndex i
    let (h, x) := if d.courseOpen then (shown 32 (d.bondH i k), k)
      else if d.crs.lastValid then (v, v / 2 ^ 32) else (0, 0)
    [(Reg.PTH_SEAM_STATUS_H, h), (Reg.PTH_SEAM_STATUS_KIDX, x), (Reg.PTH_SEAM_STATUS_REG_OK, bit (d.zoneRegOk i)),
     (Reg.PTH_SEAM_STATUS_SUSPENDED, bit (d.zoneSuspended i)), (Reg.PTH_SEAM_STATUS_ACTIVE, bit (d.zoneActive i))]
  else []

/-! ## LSR, SRV, MPM (R214, R219, R246, R249, R281, R287) -/

/-- LSR_CHAN_n_STATUS.STATE (R219). -/
def chanCode (s : ChanState) : Nat := match s with | .off => 0 | .arming => 1 | .enabled => 2 | .hold => 3 | .fault => 4

def Dev.roLsr (d : Dev) (r : RegDef) (i : Nat) : List (Field × Nat) :=
  if r.addr = Reg.LSR_STATUS.addr then
    [(Reg.LSR_STATUS_FAULTED, bitset 16 (fun n => (d.chan n).st == .fault)),
     (Reg.LSR_STATUS_ENABLED, bitset 16 (fun n => (d.chan n).st == .enabled))]
  else if r.addr = Reg.LSR_CHAN_STATUS.addr then
    let c := d.chan i
    [(Reg.LSR_CHAN_STATUS_FIRST, c.first),
     (Reg.LSR_CHAN_STATUS_BEACON_ST, if d.beaconLinked i then at' d.lsr.beacon (d.beaconOf i) else 0),
     (Reg.LSR_CHAN_STATUS_HOLD, c.hold), (Reg.LSR_CHAN_STATUS_ALARM_IN, bit (d.alarmOn i)), (Reg.LSR_CHAN_STATUS_READY_IN, bit (d.readyOn i)),
     (Reg.LSR_CHAN_STATUS_GATE_PAD, bit (c.gatePad.getD (d.gateDriven i))),
     (Reg.LSR_CHAN_STATUS_EMIT_PAD, bit (c.emitPad.getD (d.emitDriven i))), (Reg.LSR_CHAN_STATUS_STATE, chanCode c.st)]
  else []

/-- SRV_AXIS_a_STATUS.STATE and BRIDGE (R287). -/
def axisCode (s : AxisState) : Nat := match s with | .off => 0 | .acquire => 1 | .closed => 2 | .fault => 3
def bridgeCode (b : Bridge) : Nat := match b with | .off => 0 | .fwd => 1 | .rev => 2 | .coast => 3

def Dev.roSrv (d : Dev) (r : RegDef) (i : Nat) : List (Field × Nat) :=
  if r.addr = Reg.SRV_CLOSED.addr then [(Reg.SRV_CLOSED_CLOSED, bitset 48 (fun a => (d.axis a).st == .closed))]
  else if r.addr = Reg.SRV_FAULTED.addr then [(Reg.SRV_FAULTED_FAULTED, bitset 48 (fun a => (d.axis a).st == .fault))]
  else if r.addr = Reg.SRV_AXIS_STATUS.addr then
    let x := d.axis i
    [(Reg.SRV_AXIS_STATUS_POS, shown 32 x.pos), (Reg.SRV_AXIS_STATUS_WRAPS, x.wraps),
     (Reg.SRV_AXIS_STATUS_BRIDGE, bridgeCode x.bridge), (Reg.SRV_AXIS_STATUS_STATE, axisCode x.st)]
  else if r.addr = Reg.SRV_AXIS_FAULT.addr then
    [(Reg.SRV_AXIS_FAULT_PERR, shown 32 (d.axis i).perr), (Reg.SRV_AXIS_FAULT_FIRST, (d.axis i).first)]
  else []

def Dev.roMpm (d : Dev) (r : RegDef) (i : Nat) : List (Field × Nat) :=
  if r.addr = Reg.MPM_STATUS.addr then [(Reg.MPM_STATUS_AT_CLAMP, bitset 16 (fun n => (d.mpmCh n).atClamp))]
  else if r.addr = Reg.MPM_CHAN_STATUS.addr then
    let c := d.mpmCh i
    [(Reg.MPM_CHAN_STATUS_LAST_M, c.lastM), (Reg.MPM_CHAN_STATUS_LAST_C, shown 16 c.lastC),
     (Reg.MPM_CHAN_STATUS_LAST_BR, c.lastBr), (Reg.MPM_CHAN_STATUS_ROW, c.row)]
  else []

/-! ## CAM, CDC, DMA, MEM (R317, R321, R340, R359, R361, R380, R382) -/

/-- CAM_STATUS.STATE_c (R317). -/
def camCode (s : CamState) : Nat := match s with | .off => 0 | .idle => 1 | .armed => 2 | .frame => 3

def Dev.roCam (d : Dev) (r : RegDef) (i : Nat) : List (Field × Nat) :=
  if r.addr = Reg.CAM_STATUS.addr then [(Reg.CAM_STATUS_STATES, packed 4 4 (fun c => camCode (d.cport c).st))]
  else if r.addr = Reg.CAM_PORT_STATUS.addr then
    [(Reg.CAM_PORT_STATUS_SEQ, (d.cport i).seq), (Reg.CAM_PORT_STATUS_BUF_NOW, (d.cport i).buf.length)]
  else []

/-- Entries of class `c` that stand in their rings' ways into their block. -/
def Dev.inQueue (d : Dev) (c : Nat) : Nat :=
  (List.range 64).foldl (fun a n => a + ((d.ring n).inQ.filter (fun e => e.cls == c)).length) 0

/-- CDC_STATUS.STATE (R340). -/
def Dev.codecState (d : Dev) : Nat :=
  match d.cdc.job with
  | none => 0
  | some j => if j.stop.isSome then 3 else if j.stream.decompress then 2 else 1

def Dev.roCdc (d : Dev) (r : RegDef) : List (Field × Nat) :=
  if r.addr = Reg.CDC_STATUS.addr then
    [(Reg.CDC_STATUS_RING, (d.cdc.job.map (fun (j : CodecJob) => j.entry.ring)).getD 0),
     (Reg.CDC_STATUS_INDEX, (d.cdc.job.map (fun (j : CodecJob) => j.entry.idx)).getD 0),
     (Reg.CDC_STATUS_QUEUED, d.cdc.queue.length + d.inQueue clsCodec), (Reg.CDC_STATUS_STATE, d.codecState)]
  else []

/-- DMA_CHAN_c_STATUS.STATE (R361). -/
def Dev.moverState (d : Dev) (c : Nat) : Nat :=
  match (d.mover c).run with
  | some r => if r.aborting.isSome then 2 else 1
  | none => if d.on Reg.DMA_CHAN_CFG_EN c then 0 else 3

def Dev.roDma (d : Dev) (r : RegDef) (i : Nat) : List (Field × Nat) :=
  if r.addr = Reg.DMA_STATUS.addr then
    [(Reg.DMA_STATUS_BUSY, bitset 32 (fun c => (d.mover c).run.isSome)), (Reg.DMA_STATUS_QUEUED, d.inQueue clsDma)]
  else if r.addr = Reg.DMA_CHAN_STATUS.addr then
    let c := d.mover i
    [(Reg.DMA_CHAN_STATUS_RING, (c.run.map (fun (x : DmaRun) => x.entry.ring)).getD 0),
     (Reg.DMA_CHAN_STATUS_INDEX, (c.run.map (fun (x : DmaRun) => x.entry.idx)).getD 0),
     (Reg.DMA_CHAN_STATUS_QUEUED, c.queue.length), (Reg.DMA_CHAN_STATUS_STATE, d.moverState i)]
  else if r.addr = Reg.DMA_CHAN_PROGRESS.addr then
    [(Reg.DMA_CHAN_PROGRESS_ELEMENTS_DONE, (d.mover i).done), (Reg.DMA_CHAN_PROGRESS_COUNT, (d.mover i).count)]
  else []

/-- MEM_DDR_c_STATUS.STATE (R382). -/
def ddrCode (s : DdrState) : Nat := match s with | .off => 0 | .init => 1 | .up => 2 | .down => 3

def Dev.roMem (d : Dev) (r : RegDef) (i : Nat) : List (Field × Nat) :=
  if r.addr = Reg.MEM_DRAM_MAP.addr then
    [(Reg.MEM_DRAM_MAP_INTERLEAVED, bit d.interleaved), (Reg.MEM_DRAM_MAP_SIZE1, d.ddrSize 1), (Reg.MEM_DRAM_MAP_SIZE0, d.ddrSize 0)]
  else if r.addr = Reg.MEM_DDR_STATUS.addr then
    [(Reg.MEM_DDR_STATUS_STATE, ddrCode (d.ddr i).st),
     (Reg.MEM_DDR_STATUS_THROTTLED, bitset 8 (fun q => (d.ddr i).throttled.any (fun x => x.2 == q)))]
  else []

/-! ## LNK, TMB (R419, R421, R422, R424, R446, R447, R451) -/

/-- LNK_BL_p_STATUS.STATE (R421). -/
def blCode (s : BlState) : Nat :=
  match s with | .off => 0 | .training => 1 | .aligning => 2 | .hello => 3 | .up => 4 | .isolated => 5

def Dev.roLnk (d : Dev) (r : RegDef) (i : Nat) : List (Field × Nat) :=
  if r.addr = Reg.LNK_STATUS.addr then
    let (st, hops, root) := d.timeStateNow
    [(Reg.LNK_STATUS_ROOT, root), (Reg.LNK_STATUS_TIME_STATE, st), (Reg.LNK_STATUS_ROOT_HOPS, hops),
     (Reg.LNK_STATUS_UPSTREAM, d.lnk.upstream), (Reg.LNK_STATUS_PORTS_UP, bitset 10 d.blUp)]
  else if r.addr = Reg.LNK_BL_STATUS.addr then
    let p := d.bl i
    [(Reg.LNK_BL_STATUS_PEER_DEVICE, p.peerDev), (Reg.LNK_BL_STATUS_PEER_PORT, p.peerPort),
     (Reg.LNK_BL_STATUS_LANES_SWAPPED, bit p.swapped), (Reg.LNK_BL_STATUS_STATE, blCode p.st)]
  else if r.addr = Reg.LNK_BL_OFFSET.addr then [(Reg.LNK_BL_OFFSET_OFFSET, shown 64 (d.bl i).offset)]
  else if r.addr = Reg.LNK_BL_DELAY.addr then [(Reg.LNK_BL_DELAY_DELAY, shown 64 (d.bl i).delay)]
  else if r.addr = Reg.LNK_LANE_STATUS.addr then
    let l := d.lane i
    [(Reg.LNK_LANE_STATUS_ERRORS, l.errors), (Reg.LNK_LANE_STATUS_ADAPTED, bit l.adapted), (Reg.LNK_LANE_STATUS_CHK_LOCK, bit l.chk),
     (Reg.LNK_LANE_STATUS_CDR_LOCK, bit l.cdr)]
  else if r.addr = Reg.LNK_LANE_BITS.addr then [(Reg.LNK_LANE_BITS_BITS, (d.lane i).bits)]
  else if r.addr = Reg.LNK_ETH_STATUS.addr then [(Reg.LNK_ETH_STATUS_LINK_UP, bit (at' d.lnk.ethUp i))]
  else []

/-- STEP_REMAIN in whole ns; a part left over counts as one more, so that it reads 0 only when nothing remains (R438, R447). -/
def Dev.stepShown (d : Dev) : Int :=
  let r := d.stepNow
  if r ≥ 0 then -((-r) / 1099511627776) else r / 1099511627776

def Dev.roTmb (d : Dev) (r : RegDef) (i : Nat) : List (Field × Nat) :=
  if r.addr = Reg.TMB_STATUS.addr then
    [(Reg.TMB_STATUS_START_ARMED, bit d.tmb.startAt.isSome), (Reg.TMB_STATUS_SLEWING, bit (d.stepShown != 0)),
     (Reg.TMB_STATUS_TIME_STATE, d.timeStateNow.1), (Reg.TMB_STATUS_SOURCE, d.timeSource.1),
     (Reg.TMB_STATUS_SERVO_LOCKED, bit d.tmb.locked), (Reg.TMB_STATUS_BEAT_RUN, bit d.tmb.run)]
  else if r.addr = Reg.TMB_TIME.addr then [(Reg.TMB_TIME_TIME, d.ns)]
  else if r.addr = Reg.TMB_FREQ.addr then [(Reg.TMB_FREQ_FREQ, shown 64 d.tmb.freq)]
  else if r.addr = Reg.TMB_STEP_REMAIN.addr then [(Reg.TMB_STEP_REMAIN_REMAIN, shown 64 d.stepShown)]
  else if r.addr = Reg.TMB_OFFSET.addr then [(Reg.TMB_OFFSET_OFFSET, shown 64 d.tmb.offset)]
  else if r.addr = Reg.TMB_PTP_STATUS.addr then [(Reg.TMB_PTP_STATUS_STATES, packed 4 2 (fun e => (at' d.tmb.ports e).state))]
  else if r.addr = Reg.TMB_CAP.addr then
    [(Reg.TMB_CAP_NS, (at' d.tmb.caps i).ns % 2 ^ 48), (Reg.TMB_CAP_FRAC, (at' d.tmb.caps i).frac)]
  else []

/-! ## AXS, LGT, THM (R473, R476, R494, R496, R509, R512) -/

/-- AXS_AXIS_m_STATUS.STATE (R462, R476). -/
def Dev.stepperState (d : Dev) (m : Nat) : Nat :=
  if !(d.stepper m).on then 0
  else match d.moveOn m with
    | none => 1
    | some x => if x.decel != 0 then 4 else if x.home.isSome then 3 else 2

def Dev.roAxs (d : Dev) (r : RegDef) (i : Nat) : List (Field × Nat) :=
  if r.addr = Reg.AXS_STATUS.addr then
    [(Reg.AXS_STATUS_LIMIT, bitset 8 (fun m => d.limOn m true || d.limOn m false)),
     (Reg.AXS_STATUS_HOMED, bitset 8 (fun m => (d.stepper m).homed)), (Reg.AXS_STATUS_BUSY, bitset 8 (fun m => 2 ≤ d.stepperState m)),
     (Reg.AXS_STATUS_ENABLED, bitset 8 (fun m => d.stepperState m != 0))]
  else if r.addr = Reg.AXS_AXIS_POS.addr then
    [(Reg.AXS_AXIS_POS_POS, shown 32 (d.stepper i).pos), (Reg.AXS_AXIS_POS_CMD, shown 32 (d.lineNow i / (8000 * ustep)))]
  else if r.addr = Reg.AXS_AXIS_STATUS.addr then
    let x := d.stepper i
    [(Reg.AXS_AXIS_STATUS_LATCH, shown 32 x.latch), (Reg.AXS_AXIS_STATUS_HOMED, bit x.homed), (Reg.AXS_AXIS_STATUS_LIM_N, bit (d.limOn i false)),
     (Reg.AXS_AXIS_STATUS_LIM_P, bit (d.limOn i true)), (Reg.AXS_AXIS_STATUS_HOME_IN, bit (d.homeOn i)),
     (Reg.AXS_AXIS_STATUS_STATE, d.stepperState i)]
  else []

def Dev.roLgt (d : Dev) (r : RegDef) (i : Nat) : List (Field × Nat) :=
  if r.addr = Reg.LGT_STATUS.addr then
    [(Reg.LGT_STATUS_VSET, d.lgt.vset), (Reg.LGT_STATUS_NTC_FAULT, bit (d.lgt.ntcBad != 0))]
  else if r.addr = Reg.LGT_TEMP.addr then
    [(Reg.LGT_TEMP_TEMPS, packed 16 4 (fun c => shown 16 (at' d.lgt.temp c / 268435456)))]
  else if r.addr = Reg.LGT_CH.addr && lightUsed i then
    let x := d.light i
    [(Reg.LGT_CH_DUTY, x.duty), (Reg.LGT_CH_ON, x.on), (Reg.LGT_CH_STATE, x.st), (Reg.LGT_CH_CAUSE, x.cause)]
  else []

/-- THM_STATUS.DIE_MIN: the lowest last valid reading of the on-die sensors (R509). -/
def Dev.dieMin (d : Dev) : Int :=
  match (List.range 8).filterMap (fun i => if (d.sensor (16 + i)).read then some (d.sensor (16 + i)).temp else none) with
  | [] => 0
  | t :: ts => ts.foldl min t

/-- THM_SENS_s_STATUS.STATE (R512). -/
def sensCode (s : SensState) : Nat := match s with | .off => 0 | .normal => 1 | .warn => 2 | .grace => 3 | .enforced => 4

def Dev.roThm (d : Dev) (r : RegDef) (i : Nat) : List (Field × Nat) :=
  if r.addr = Reg.THM_STATUS.addr then
    [(Reg.THM_STATUS_DIE_MAX, shown 16 d.dieMax), (Reg.THM_STATUS_DIE_MIN, shown 16 d.dieMin), (Reg.THM_STATUS_SHUTDOWN, bit d.thm.latch),
     (Reg.THM_STATUS_WINDOW_OK, bit d.windowOk), (Reg.THM_STATUS_DIE_ENFORCE, bit d.dieEnforced),
     (Reg.THM_STATUS_ANY_ENFORCE, bit ((List.range 24).any (fun s => (d.sensor s).st == .enforced)))]
  else if r.addr = Reg.THM_SENS_STATUS.addr then
    let x := d.sensor i
    [(Reg.THM_SENS_STATUS_TEMP, shown 16 x.temp), (Reg.THM_SENS_STATUS_FAULT, bit x.fault),
     (Reg.THM_SENS_STATUS_FAST, bit (d.fastSensor i)), (Reg.THM_SENS_STATUS_STATE, sensCode x.st)]
  else []

/-! ## All blocks -/

/-- The RO fields of a register of block `b`, with their values; `v` is the free value that the fields open to it take. -/
def Dev.roFields (d : Dev) (m : Mem) (b : Nat) (r : RegDef) (i v : Nat) : List (Field × Nat) :=
  match b with
  | 0 => d.roMgt r i v
  | 1 => d.roHst r i
  | 2 => d.roMsn r
  | 3 => d.roPth m r i v
  | 4 => d.roLsr r i
  | 5 => d.roSrv r i
  | 6 => d.roMpm r i
  | 7 => d.roCam r i
  | 8 => d.roCdc r
  | 9 => d.roDma r i
  | 10 => d.roMem r i
  | 11 => d.roLnk r i
  | 12 => d.roTmb r i
  | 13 => d.roAxs r i
  | 14 => d.roLgt r i
  | 15 => d.roThm r i
  | _ => []

end Sys2Proof.Machine
end

