-- ==== Sys2Proof/Machine/RegAcc.lean ====
section
/-!
DEFINITION. Register accesses: finding a register by its offset (R3, R7, R16), reading and writing it (R4 to R6, R21), 32-bit halves
and their latches (R213), the standby-domain registers (R28), and the management requests REG_READ and REG_WRITE (R529).
-/
namespace Sys2Proof.Machine

/-! ## Finding a register (R3, R7, R16) -/

/-- The indices of a register in its array, if `off` is one of its offsets. -/
def RegDef.indices (r : RegDef) (off : Nat) : Option (Nat × Nat) :=
  if off < r.addr then none
  else
    let k := off - r.addr
    let i := if r.s1 = 0 then 0 else k / r.s1
    let rest := k - i * r.s1
    let j := if r.s2 = 0 then 0 else rest / r.s2
    if i < r.n1 ∧ j < r.n2 ∧ rest = j * r.s2 then some (i, j) else none

/-- The first register of a list that has the offset, with its indices. -/
def findReg : List RegDef → Nat → Option (RegDef × Nat × Nat)
  | [], _ => none
  | r :: t, off =>
    match r.indices off with
    | some (i, j) => some (r, i, j)
    | none => findReg t off

/-- The block of a BAR0 offset (R16). -/
def blockOf (off : Nat) : Nat := off / 0x100000

/-- The register at a BAR0 offset of the lower half of its block (R3); none where no chapter defines one. -/
def regAt (off : Nat) : Option (RegDef × Nat × Nat) := findReg (regTable (blockOf off)) off

/-- The offset lies where its block keeps the in-effect copies (R7). -/
def isCopy (off : Nat) : Bool := 0x80000 ≤ off % 0x100000

/-- The offset lies in the MSI-X table or the pending bit array of HST (R60). -/
def atMsix (off : Nat) : Bool := blockOf off == 1 && inMsix (off % 0x100000)

/-- The register is on the standby domain (R28): a register of THM, or one of five of MGT. -/
def isStandby (off : Nat) : Bool :=
  (blockOf off == 15 && (regAt (off / 8 * 8)).isSome) ||
    [Reg.MGT_IDENT_LO, Reg.MGT_IDENT_HI, Reg.MGT_FW_STATUS, Reg.MGT_LOG_STATUS, Reg.MGT_RESET_CAUSE].any
      (fun (r : RegDef) => r.addr == off / 8 * 8)

/-! ## Reading (R4, R6, R7) -/

/-- What a read shows of a field, by its access code (R6). -/
def Dev.fieldShown (d : Dev) (ro : List (Field × Nat)) (f : Field) (i j : Nat) : Nat :=
  match f.acc with
  | .rw => d.cur f i j
  | .rws => d.shadow f i j
  | .w1c => d.flag f i j
  | .rol => Assoc.get d.regs.rol (f.key i j) 0
  | .wo => 0
  | .ro => match ro.find? (fun p => p.1.lo == f.lo) with | some p => f.fit p.2 | none => 0

/-- A word put together from its fields; every other bit reads 0 (R4). -/
def fieldsWord (fs : List Field) (f : Field → Nat) : W64 := BitVec.ofNat 64 (fs.foldl (fun a x => a + f x % 2 ^ x.width * 2 ^ x.lo) 0)

/-- A register whose read shows something the spec leaves open: the board's levels on the GPIO pins (R550), and a zone's hand-over
coordinate while no course is open (R184). -/
def readsFree (r : RegDef) : Bool := r.addr == Reg.MGT_GPIO.addr || r.addr == Reg.PTH_SEAM_STATUS.addr

/-- The value of the register at an offset (R3 to R7). -/
def Dev.regValue (d : Dev) (m : Mem) (off v : Nat) : W64 :=
  if isCopy off then
    match regAt (off - 0x80000) with
    | some (r, i, j) => fieldsWord (r.fields.filter (fun f => f.acc == .rws)) (fun f => d.eff f i j)
    | none => 0
  else match regAt off with
    | some (r, i, j) => fieldsWord r.fields (fun f => d.fieldShown (d.roFields m (blockOf off) r i v) f i j)
    | none => 0

/-- Read a register: its value, and the device with the free value drawn that it shows. -/
def Dev.readReg (d : Dev) (m : Mem) (off : Nat) : W64 × Dev :=
  match regAt off with
  | some (r, _) => if readsFree r then (d.regValue m off d.free.1, d.free.2) else (d.regValue m off 0, d)
  | none => (d.regValue m off 0, d)

/-! ## Writing (R4, R6, R7, R21) -/

/-- A write of an MGT register (R33, R203, R222 to R224, R524, R525, R550). -/
def Dev.writeMgt (d : Dev) (r : RegDef) (v : W64) (i j : Nat) : Dev :=
  if r.addr = Reg.MGT_SAFE_KICK.addr || r.addr = Reg.MGT_SAFE_CTL.addr then d.writeSafe r v
  else if r.addr = Reg.MGT_CAL_TOL.addr then d.writeCalTol v i
  else d.store r v i j

/-- A write reaches the agent of block `b` (R19, R21). -/
def Dev.writeBlock (d : Dev) (m : Mem) (src : Source) (b : Nat) (r : RegDef) (v : W64) (i j : Nat) : Dev :=
  match b with
  | 0 => d.writeMgt r v i j
  | 1 => d.writeHst r v i j
  | 2 => d.writeMsn r v i j
  | 3 => d.writePth r v i j
  | 4 => d.writeLsr m r v i j
  | 5 => d.writeSrv r v i j
  | 6 => d.writeMpm r v i j
  | 7 => d.writeCam r v i j
  | 8 => d.store r v i j
  | 9 => d.writeDma r v i j
  | 10 => d.writeMem r v i j
  | 11 => d.writeLnk src r v i j
  | 12 => d.writeTmb r v i j
  | 13 => d.writeAxs r v i j
  | 14 => d.writeLgt r v i j
  | 15 => d.writeThm r v i j
  | _ => d

/-- A 64-bit write lands at an offset: at a defined register it takes effect or is refused, and anywhere else it is ignored (R3, R7);
one that would break a precondition of the measurement in progress is refused (R516). -/
def Dev.writeReg (d : Dev) (m : Mem) (src : Source) (off : Nat) (v : W64) : Dev :=
  if atMsix off then d.msixAccess (off % 0x100000) (.write64 v)
  else if isCopy off then d
  else match regAt off with
    | some (r, i, j) => d.calGuard (blockOf off) (d.writeBlock m src (blockOf off) r v i j)
    | none => d

/-! ## Halves (R213) -/

/-- The latches of a source: the host's, and the side-band's. -/
def srcIndex (src : Source) : Nat := match src with | .host => 0 | .sideband => 1

/-- The value that stands for a register's lower half when none was staged: W1C bits count as 0 (R213). -/
def Dev.presentLow (d : Dev) (off : Nat) : W32 :=
  match regAt off with
  | some (r, i, j) =>
    if isCopy off then 0
    else (fieldsWord r.fields (fun f => match f.acc with
      | .rw => d.cur f i j
      | .rws => d.shadow f i j
      | .ro | .wo | .w1c | .rol => 0)).extractLsb' 0 32
  | none => 0

/-- A lower-half write is staged. -/
def Dev.stageLow (d : Dev) (src : Source) (off : Nat) (v : W32) : Dev :=
  { d with mgt.stage := upd d.mgt.stage (srcIndex src) (fun _ => some { off, v }) }

/-- An upper-half write of the register at `off` lands it whole, with the lower half that was staged or stands. -/
def Dev.landHigh (d : Dev) (m : Mem) (src : Source) (off : Nat) (v : W32) : Dev :=
  let low := match at' d.mgt.stage (srcIndex src) with
    | some l => if l.off == off then l.v else d.presentLow off
    | none => d.presentLow off
  ({ d with mgt.stage := upd d.mgt.stage (srcIndex src) (fun _ => none) }).writeReg m src off (v ++ low)

/-- A lower-half read captures the register and returns its lower half. -/
def Dev.readLow (d : Dev) (m : Mem) (src : Source) (off : Nat) : W32 × Dev :=
  let r := d.readReg m off
  (r.1.extractLsb' 0 32,
   { r.2 with mgt.rdLatch := upd r.2.mgt.rdLatch (srcIndex src) (fun _ => some { off, v := r.1.extractLsb' 32 32 }) })

/-- An upper-half read of the register at `off`: the captured half, or the present one; the latch is emptied. -/
def Dev.readHigh (d : Dev) (m : Mem) (src : Source) (off : Nat) : W32 × Dev :=
  let held := match at' d.mgt.rdLatch (srcIndex src) with
    | some l => if l.off == off then some l.v else none
    | none => none
  let d' := { d with mgt.rdLatch := upd d.mgt.rdLatch (srcIndex src) (fun _ => none) }
  match held with
  | some v => (v, d')
  | none => let r := d'.readReg m off; (r.1.extractLsb' 32 32, r.2)

/-- A 32-bit write at `off`, a multiple of 4: its own dword in the MSI-X area, and a half anywhere else (R60, R213). -/
def Dev.write32 (d : Dev) (m : Mem) (src : Source) (off : Nat) (v : W32) : Dev :=
  if atMsix off then d.msixAccess (off % 0x100000) (.write32 v)
  else if off % 8 = 0 then d.stageLow src off v
  else d.landHigh m src (off - 4) v

/-- A 32-bit read at `off`, a multiple of 4. -/
def Dev.read32 (d : Dev) (m : Mem) (src : Source) (off : Nat) : W32 × Dev :=
  if atMsix off then (d.msixRead32 (off % 0x100000), d)
  else if off % 8 = 0 then d.readLow m src off
  else d.readHigh m src (off - 4)

/-! ## Who may access (R17, R28) -/

/-- A side-band access to this offset completes BLOCK_OFF (R28). -/
def Dev.blockOff (d : Dev) (off : Nat) : Bool := d.mainOff && !isStandby off

/-- The source's access reaches the block agents: the host's while the main domain runs, the side-band's while the management processor
serves and the register is not off. -/
def Dev.reaches (d : Dev) (src : Source) (off : Nat) : Bool :=
  match src with
  | .host => d.mainUp
  | .sideband => d.mgtUp && !d.blockOff off

/-- The size of BAR0 (R16). -/
def bar0Size : Nat := 0x1000000

/-! ## Meanings -/

/-- A write of a whole register: the host's lands as one, the side-band's as its two 32-bit halves through the staging latch, the lower first
(R17, R213). -/
def Dev.write64 (d : Dev) (m : Mem) (src : Source) (off : Nat) (v : W64) : Dev :=
  match src with
  | .host => d.writeReg m src off v
  | .sideband => (d.write32 m src off (v.extractLsb' 0 32)).write32 m src (off + 4) (v.extractLsb' 32 32)

/-- REGISTER_WRITE (R6, R17). -/
def execRegisterWrite (src : Source) (off : Nat) (v : W64) (s : State) : Host.Outcome State Fault Refusal :=
  if bar0Size ≤ off ∨ off % 8 ≠ 0 then .fault .noSuchRegister
  else .next (if s.dev.reaches src off then { s with dev := s.dev.write64 s.mem src off v } else s)

/-- LOWER_HALF_WRITE (R213). -/
def execLowerHalfWrite (src : Source) (off : Nat) (v : W32) (s : State) : Host.Outcome State Fault Refusal :=
  if bar0Size ≤ off ∨ off % 8 ≠ 0 then .fault .noSuchRegister
  else .next (if s.dev.reaches src off then { s with dev := s.dev.write32 s.mem src off v } else s)

/-- UPPER_HALF_WRITE (R213): `off` is the offset of the upper half. -/
def execUpperHalfWrite (src : Source) (off : Nat) (v : W32) (s : State) : Host.Outcome State Fault Refusal :=
  if bar0Size ≤ off ∨ off % 8 ≠ 4 then .fault .noSuchRegister
  else .next (if s.dev.reaches src off then { s with dev := s.dev.write32 s.mem src off v } else s)

/-- A 32-bit read by a source: the value goes out; while the register is off the side-band reads 0 (R28). -/
def State.halfRead (s : State) (src : Source) (off : Nat) : State :=
  if s.dev.reaches src off then
    let r := s.dev.read32 s.mem src off
    { s with dev := r.2.emit (.regValue src (r.1.zeroExtend 64)) }
  else if src == .sideband && s.dev.mgtUp then { s with dev := s.dev.emit (.regValue src 0) }
  else s

/-- LOWER_HALF_READ (R213). -/
def execLowerHalfRead (src : Source) (off : Nat) (s : State) : Host.Outcome State Fault Refusal :=
  if bar0Size ≤ off ∨ off % 8 ≠ 0 then .fault .noSuchRegister else .next (s.halfRead src off)

/-- UPPER_HALF_READ (R213): `off` is the offset of the upper half. -/
def execUpperHalfRead (src : Source) (off : Nat) (s : State) : Host.Outcome State Fault Refusal :=
  if bar0Size ≤ off ∨ off % 8 ≠ 4 then .fault .noSuchRegister else .next (s.halfRead src off)

/-- The management processor's own access to a 32-bit half, and the reply's status and data (R529, R530). -/
def Dev.pmpReg (d : Dev) (m : Mem) (h : PmpHdr) (off : Nat) (write : Option W32) : Dev :=
  if bar0Size ≤ off || off % 4 != 0 then d.answerPmp h 3
  else if d.blockOff off then d.answerPmp h 1 (if write.isNone then leBytes 4 0 else [])
  else match write with
    | some v => (d.write32 m .sideband off v).answerPmp h 0
    | none => let r := d.read32 m .sideband off; r.2.answerPmp h 0 (leBytes 4 r.1.toNat)

/-- REG_READ (R529). -/
def execRegRead (h : PmpHdr) (off : Nat) (s : State) : Host.Outcome State Fault Refusal :=
  .next { s with dev := s.dev.pmp h (fun d => d.pmpReg s.mem h off none) }

/-- REG_WRITE (R529). -/
def execRegWrite (h : PmpHdr) (off : Nat) (v : W32) (s : State) : Host.Outcome State Fault Refusal :=
  .next { s with dev := s.dev.pmp h (fun d => d.pmpReg s.mem h off (some v)) }

end Sys2Proof.Machine
end

