-- ==== Sys2Proof/Machine/Dispatch.lean ====
section
/-!
DEFINITION. The dispatch of commands to their meanings: one arm per command, in the order of spec/opcode_table.json.
-/
namespace Sys2Proof.Machine

/-- The effect of a command on everything but the queue. -/
def exec (i : Instr) (s : State) : Host.Outcome State Fault Refusal :=
  match i with
  | .registerWrite src off v => Sys2Proof.Machine.execRegisterWrite src off v s
  | .lowerHalfWrite src off v => Sys2Proof.Machine.execLowerHalfWrite src off v s
  | .upperHalfWrite src off v => Sys2Proof.Machine.execUpperHalfWrite src off v s
  | .lowerHalfRead src off => Sys2Proof.Machine.execLowerHalfRead src off s
  | .upperHalfRead src off => Sys2Proof.Machine.execUpperHalfRead src off s
  | .clockGateEntry blk isl => Sys2Proof.Machine.execClockGateEntry blk isl s
  | .islandOffEntry blk isl => Sys2Proof.Machine.execIslandOffEntry blk isl s
  | .islandWake blk isl => Sys2Proof.Machine.execIslandWake blk isl s
  | .pcieLinkUp speed width => Sys2Proof.Machine.execPcieLinkUp speed width s
  | .pcieLinkDown => Sys2Proof.Machine.execPcieLinkDown s
  | .functionLevelReset => Sys2Proof.Machine.execFunctionLevelReset s
  | .bar2Write addr bytes ecc => Sys2Proof.Machine.execBar2Write addr bytes ecc s
  | .bar2Read addr ecc => Sys2Proof.Machine.execBar2Read addr ecc s
  | .doorbellPoll => Sys2Proof.Machine.execDoorbellPoll s
  | .doorbellReturn table => Sys2Proof.Machine.execDoorbellReturn table s
  | .entryArrival ring rd => Sys2Proof.Machine.execEntryArrival ring rd s
  | .ringEnable src ring v => Sys2Proof.Machine.execRingEnable src ring v s
  | .ringDisable src ring v => Sys2Proof.Machine.execRingDisable src ring v s
  | .routeWrite src blk v => Sys2Proof.Machine.execRouteWrite src blk v s
  | .completionWrite => Sys2Proof.Machine.execCompletionWrite s
  | .msixModTimer ring => Sys2Proof.Machine.execMsixModTimer ring s
  | .msixTableAccess off acc => Sys2Proof.Machine.execMsixTableAccess off acc s
  | .psetWrite ring => Sys2Proof.Machine.execPsetWrite ring s
  | .psetLoad ring => Sys2Proof.Machine.execPsetLoad ring s
  | .psetLoadData ring rd => Sys2Proof.Machine.execPsetLoadData ring rd s
  | .psetCommit ring => Sys2Proof.Machine.execPsetCommit ring s
  | .paramCommit => Sys2Proof.Machine.execParamCommit s
  | .brick ring => Sys2Proof.Machine.execBrick ring s
  | .brickVerdict key rd => Sys2Proof.Machine.execBrickVerdict key rd s
  | .courseBegin ring => Sys2Proof.Machine.execCourseBegin ring s
  | .courseEnd ring => Sys2Proof.Machine.execCourseEnd ring s
  | .courseAbort ring => Sys2Proof.Machine.execCourseAbort ring s
  | .courseClose => Sys2Proof.Machine.execCourseClose s
  | .abortComplete => Sys2Proof.Machine.execAbortComplete s
  | .courseWaitResume ring => Sys2Proof.Machine.execCourseWaitResume ring s
  | .startBeatReached key => Sys2Proof.Machine.execStartBeatReached key s
  | .unplaceableTimeout key => Sys2Proof.Machine.execUnplaceableTimeout key s
  | .standstill => Sys2Proof.Machine.execStandstill s
  | .starveLimitReached key => Sys2Proof.Machine.execStarveLimitReached key s
  | .hostHold src v => Sys2Proof.Machine.execHostHold src v s
  | .masonSelection unserved => Sys2Proof.Machine.execMasonSelection unserved s
  | .assignmentInForce ch => Sys2Proof.Machine.execAssignmentInForce ch s
  | .plumeGuard undecided => Sys2Proof.Machine.execPlumeGuard undecided s
  | .trailSliceClose ch => Sys2Proof.Machine.execTrailSliceClose ch s
  | .trailSliceExpire ch => Sys2Proof.Machine.execTrailSliceExpire ch s
  | .holdPass ch => Sys2Proof.Machine.execHoldPass ch s
  | .plumeHoldTimeout ch => Sys2Proof.Machine.execPlumeHoldTimeout ch s
  | .masonDrop ch => Sys2Proof.Machine.execMasonDrop ch s
  | .remnantReady key => Sys2Proof.Machine.execRemnantReady key s
  | .stopSegmentDone ch => Sys2Proof.Machine.execStopSegmentDone ch s
  | .brickEnd ch => Sys2Proof.Machine.execBrickEnd ch s
  | .pisteSampleIssue ch ev => Sys2Proof.Machine.execPisteSampleIssue ch ev s
  | .vectorRefillDone ch ecc => Sys2Proof.Machine.execVectorRefillDone ch ecc s
  | .gridLoad ring => Sys2Proof.Machine.execGridLoad ring s
  | .gridLoadComplete rd => Sys2Proof.Machine.execGridLoadComplete rd s
  | .gridSwap ring ecc => Sys2Proof.Machine.execGridSwap ring ecc s
  | .gridSwapEffect ch => Sys2Proof.Machine.execGridSwapEffect ch s
  | .seamOffer ch => Sys2Proof.Machine.execSeamOffer ch s
  | .channelEnable src ch v => Sys2Proof.Machine.execChannelEnable src ch v s
  | .channelDisable src ch v => Sys2Proof.Machine.execChannelDisable src ch v s
  | .armingComplete ch => Sys2Proof.Machine.execArmingComplete ch s
  | .armingTimeout ch => Sys2Proof.Machine.execArmingTimeout ch s
  | .alarmQualified ch level => Sys2Proof.Machine.execAlarmQualified ch level s
  | .readyQualified ch level => Sys2Proof.Machine.execReadyQualified ch level s
  | .padReadbackMismatch ch emit gate => Sys2Proof.Machine.execPadReadbackMismatch ch emit gate s
  | .dacComplianceLoss ch => Sys2Proof.Machine.execDacComplianceLoss ch s
  | .channelFaultClear src ch v => Sys2Proof.Machine.execChannelFaultClear src ch v s
  | .safeInLow => Sys2Proof.Machine.execSafeInLow s
  | .safeInQualified => Sys2Proof.Machine.execSafeInQualified s
  | .heartbeatBoundary => Sys2Proof.Machine.execHeartbeatBoundary s
  | .safeKick src v => Sys2Proof.Machine.execSafeKick src v s
  | .kickTimeoutExpiry => Sys2Proof.Machine.execKickTimeoutExpiry s
  | .beaconReport b => Sys2Proof.Machine.execBeaconReport b s
  | .beaconUnverifiedTimeout ch => Sys2Proof.Machine.execBeaconUnverifiedTimeout ch s
  | .dacUpdate ch => Sys2Proof.Machine.execDacUpdate ch s
  | .mpmSample ch second mp br late => Sys2Proof.Machine.execMpmSample ch second mp br late s
  | .brQualReached ch => Sys2Proof.Machine.execBrQualReached ch s
  | .lowBeatsReached ch => Sys2Proof.Machine.execLowBeatsReached ch s
  | .satBeatsReached ch => Sys2Proof.Machine.execSatBeatsReached ch s
  | .velocityTick ax code late => Sys2Proof.Machine.execVelocityTick ax code late s
  | .positionTick ax code late => Sys2Proof.Machine.execPositionTick ax code late s
  | .currentDecision ax sensed hiHeld loHeld tripHeld => Sys2Proof.Machine.execCurrentDecision ax sensed hiHeld loHeld tripHeld s
  | .perrTicksReached ax => Sys2Proof.Machine.execPerrTicksReached ax s
  | .stuckBeatsReached ax => Sys2Proof.Machine.execStuckBeatsReached ax s
  | .curSenseCountReached ax => Sys2Proof.Machine.execCurSenseCountReached ax s
  | .posQualReached ax => Sys2Proof.Machine.execPosQualReached ax s
  | .gateReadbackMismatch ax gates => Sys2Proof.Machine.execGateReadbackMismatch ax gates s
  | .acquireTimeoutExpiry ax => Sys2Proof.Machine.execAcquireTimeoutExpiry ax s
  | .srvCommitEffect => Sys2Proof.Machine.execSrvCommitEffect s
  | .axisEnable src ax v => Sys2Proof.Machine.execAxisEnable src ax v s
  | .axisDisable src ax v => Sys2Proof.Machine.execAxisDisable src ax v s
  | .axisFaultClear src ax v => Sys2Proof.Machine.execAxisFaultClear src ax v s
  | .cameraPortEnable src c v => Sys2Proof.Machine.execCameraPortEnable src c v s
  | .cameraPortDisable src c v => Sys2Proof.Machine.execCameraPortDisable src c v s
  | .frameStart c vc frameNo hdr => Sys2Proof.Machine.execFrameStart c vc frameNo hdr s
  | .frameEnd c vc hdr => Sys2Proof.Machine.execFrameEnd c vc hdr s
  | .longPacket c vc dt px crcOk hdr => Sys2Proof.Machine.execLongPacket c vc dt px crcOk hdr s
  | .dphySotError c lanes => Sys2Proof.Machine.execDphySotError c lanes s
  | .camFrameTimeout c => Sys2Proof.Machine.execCamFrameTimeout c s
  | .engineLine e ecc => Sys2Proof.Machine.execEngineLine e ecc s
  | .outputHoldTimeout e => Sys2Proof.Machine.execOutputHoldTimeout e s
  | .frameWriteout c => Sys2Proof.Machine.execFrameWriteout c s
  | .capArm ring => Sys2Proof.Machine.execCapArm ring s
  | .capStop ring => Sys2Proof.Machine.execCapStop ring s
  | .tableLoad ring rd => Sys2Proof.Machine.execTableLoad ring rd s
  | .compress ring ctx => Sys2Proof.Machine.execCompress ring ctx s
  | .decompress ring ctx => Sys2Proof.Machine.execDecompress ring ctx s
  | .codecJobRun => Sys2Proof.Machine.execCodecJobRun s
  | .codecJobDone input busErr => Sys2Proof.Machine.execCodecJobDone input busErr s
  | .codecDisable src v => Sys2Proof.Machine.execCodecDisable src v s
  | .codecEnable src v => Sys2Proof.Machine.execCodecEnable src v s
  | .dmaMove ring => Sys2Proof.Machine.execDmaMove ring s
  | .dmaEntryStart c => Sys2Proof.Machine.execDmaEntryStart c s
  | .dmaBurstWritten c rd => Sys2Proof.Machine.execDmaBurstWritten c rd s
  | .dmaBusError c addr write => Sys2Proof.Machine.execDmaBusError c addr write s
  | .dmaAbort ring => Sys2Proof.Machine.execDmaAbort ring s
  | .dmaChannelDisable src c v => Sys2Proof.Machine.execDmaChannelDisable src c v s
  | .scrubRead addr ecc clash => Sys2Proof.Machine.execScrubRead addr ecc clash s
  | .dramReadReturn addr req ecc => Sys2Proof.Machine.execDramReadReturn addr req ecc s
  | .ddrEnable src c v => Sys2Proof.Machine.execDdrEnable src c v s
  | .ddrInitDone c bad => Sys2Proof.Machine.execDdrInitDone c bad s
  | .ddrDisable src c v => Sys2Proof.Machine.execDdrDisable src c v s
  | .ddrRefresh c rank waiting => Sys2Proof.Machine.execDdrRefresh c rank waiting s
  | .ddrMr4Poll c doubled => Sys2Proof.Machine.execDdrMr4Poll c doubled s
  | .rowWindowEnd => Sys2Proof.Machine.execRowWindowEnd s
  | .actLimitReached c bank req => Sys2Proof.Machine.execActLimitReached c bank req s
  | .laneTestStart src l v => Sys2Proof.Machine.execLaneTestStart src l v s
  | .laneTestStop src l v bits errs => Sys2Proof.Machine.execLaneTestStop src l v bits errs s
  | .laneInject src l v => Sys2Proof.Machine.execLaneInject src l v s
  | .blPortEnable src p v => Sys2Proof.Machine.execBlPortEnable src p v s
  | .blPortDisable src p v => Sys2Proof.Machine.execBlPortDisable src p v s
  | .blLaneLock p => Sys2Proof.Machine.execBlLaneLock p s
  | .blAlignFound p swapped => Sys2Proof.Machine.execBlAlignFound p swapped s
  | .blAlignTimeout p => Sys2Proof.Machine.execBlAlignTimeout p s
  | .blHelloSend p => Sys2Proof.Machine.execBlHelloSend p s
  | .blHelloReceive p w0 w1 => Sys2Proof.Machine.execBlHelloReceive p w0 w1 s
  | .blHelloTimeout p => Sys2Proof.Machine.execBlHelloTimeout p s
  | .blLinkLoss p blockErrors => Sys2Proof.Machine.execBlLinkLoss p blockErrors s
  | .blLinkctl p w => Sys2Proof.Machine.execBlLinkctl p w s
  | .blFrameReceive p pairs drift => Sys2Proof.Machine.execBlFrameReceive p pairs drift s
  | .timeFrameSend p inner => Sys2Proof.Machine.execTimeFrameSend p inner s
  | .timeFrameReceive p words inner good => Sys2Proof.Machine.execTimeFrameReceive p words inner good s
  | .rootTimeout => Sys2Proof.Machine.execRootTimeout s
  | .brickFrameReceive => Sys2Proof.Machine.execBrickFrameReceive s
  | .fedBrickStaging dev ring => Sys2Proof.Machine.execFedBrickStaging dev ring s
  | .ctrlEntryReceive => Sys2Proof.Machine.execCtrlEntryReceive s
  | .remnantFrameReceive => Sys2Proof.Machine.execRemnantFrameReceive s
  | .fedResultReceive => Sys2Proof.Machine.execFedResultReceive s
  | .foreignEventReceive => Sys2Proof.Machine.execForeignEventReceive s
  | .feedTimeoutExpiry key => Sys2Proof.Machine.execFeedTimeoutExpiry key s
  | .fedStreamClose dev ring => Sys2Proof.Machine.execFedStreamClose dev ring s
  | .ethLinkRise e => Sys2Proof.Machine.execEthLinkRise e s
  | .ethLinkFall e => Sys2Proof.Machine.execEthLinkFall e s
  | .tmbSetWrite src v => Sys2Proof.Machine.execTmbSetWrite src v s
  | .tmbStepWrite src v => Sys2Proof.Machine.execTmbStepWrite src v s
  | .beatStart src v => Sys2Proof.Machine.execBeatStart src v s
  | .beatStartReached => Sys2Proof.Machine.execBeatStartReached s
  | .ptpMessageReceive e m ts newState => Sys2Proof.Machine.execPtpMessageReceive e m ts newState s
  | .ptpMeasurement e off => Sys2Proof.Machine.execPtpMeasurement e off s
  | .syncTimeout e => Sys2Proof.Machine.execSyncTimeout e s
  | .freqUpdate => Sys2Proof.Machine.execFreqUpdate s
  | .statsEpoch => Sys2Proof.Machine.execStatsEpoch s
  | .tcapEdge idx falling ns frac => Sys2Proof.Machine.execTcapEdge idx falling ns frac s
  | .launchArm src sl v => Sys2Proof.Machine.execLaunchArm src sl v s
  | .launchCancel src sl v => Sys2Proof.Machine.execLaunchCancel src sl v s
  | .launchWindow sl => Sys2Proof.Machine.execLaunchWindow sl s
  | .launchSend sl ns frac => Sys2Proof.Machine.execLaunchSend sl ns frac s
  | .axsMove ring => Sys2Proof.Machine.execAxsMove ring s
  | .home ring => Sys2Proof.Machine.execHome ring s
  | .stop ring => Sys2Proof.Machine.execStop ring s
  | .setPos ring => Sys2Proof.Machine.execSetPos ring s
  | .axsEntryResume ring => Sys2Proof.Machine.execAxsEntryResume ring s
  | .profileTick late => Sys2Proof.Machine.execProfileTick late s
  | .limitQualified m plus level => Sys2Proof.Machine.execLimitQualified m plus level s
  | .homeQualified m level latch => Sys2Proof.Machine.execHomeQualified m level latch s
  | .homeInputDeassert m => Sys2Proof.Machine.execHomeInputDeassert m s
  | .homeMaxReached m => Sys2Proof.Machine.execHomeMaxReached m s
  | .stepperEnable src m v => Sys2Proof.Machine.execStepperEnable src m v s
  | .stepperDisable src m v => Sys2Proof.Machine.execStepperDisable src m v s
  | .lightSet ring => Sys2Proof.Machine.execLightSet ring s
  | .lightLoad ring rd => Sys2Proof.Machine.execLightLoad ring rd s
  | .lightGroupOff ring => Sys2Proof.Machine.execLightGroupOff ring s
  | .lightFrame tests late => Sys2Proof.Machine.execLightFrame tests late s
  | .boostOutOfRange beyond => Sys2Proof.Machine.execBoostOutOfRange beyond s
  | .boostFaultClear src v => Sys2Proof.Machine.execBoostFaultClear src v s
  | .ntcConversion c r => Sys2Proof.Machine.execNtcConversion c r s
  | .lightingEnable src v => Sys2Proof.Machine.execLightingEnable src v s
  | .lightingDisable src v => Sys2Proof.Machine.execLightingDisable src v s
  | .lightClear src idx v => Sys2Proof.Machine.execLightClear src idx v s
  | .thermalSample sn reading => Sys2Proof.Machine.execThermalSample sn reading s
  | .graceExpiry sn => Sys2Proof.Machine.execGraceExpiry sn s
  | .calRun ring table => Sys2Proof.Machine.execCalRun ring table s
  | .calMeasurementStart => Sys2Proof.Machine.execCalMeasurementStart s
  | .calRunComplete run1 run2 => Sys2Proof.Machine.execCalRunComplete run1 run2 s
  | .calRecall ring => Sys2Proof.Machine.execCalRecall ring s
  | .pmpIdent h => Sys2Proof.Machine.execPmpIdent h s
  | .regRead h off => Sys2Proof.Machine.execRegRead h off s
  | .regWrite h off v => Sys2Proof.Machine.execRegWrite h off v s
  | .logRead h first count => Sys2Proof.Machine.execLogRead h first count s
  | .imgBegin h slot len sha flashOk => Sys2Proof.Machine.execImgBegin h slot len sha flashOk s
  | .imgPiece h slot idx crc data flashOk => Sys2Proof.Machine.execImgPiece h slot idx crc data flashOk s
  | .imgStatus h slot => Sys2Proof.Machine.execImgStatus h slot s
  | .imgActivate h slot => Sys2Proof.Machine.execImgActivate h slot s
  | .fwHandover => Sys2Proof.Machine.execFwHandover s
  | .activateTimeout => Sys2Proof.Machine.execActivateTimeout s
  | .imgConfirm h flashOk => Sys2Proof.Machine.execImgConfirm h flashOk s
  | .imgRevert h flashOk => Sys2Proof.Machine.execImgRevert h flashOk s
  | .pmpReset h k => Sys2Proof.Machine.execPmpReset h k s
  | .export_ h addr len port dst udp => Sys2Proof.Machine.execExport h addr len port dst udp s
  | .exportComplete => Sys2Proof.Machine.execExportComplete s
  | .configGet h => Sys2Proof.Machine.execConfigGet h s
  | .configSet h settings flashOk => Sys2Proof.Machine.execConfigSet h settings flashOk s
  | .smbStatus => Sys2Proof.Machine.execSmbStatus s
  | .smbIdent => Sys2Proof.Machine.execSmbIdent s
  | .smbTemp => Sys2Proof.Machine.execSmbTemp s
  | .smbReset v => Sys2Proof.Machine.execSmbReset v s
  | .smbCause => Sys2Proof.Machine.execSmbCause s
  | .fullDeviceReset cause => Sys2Proof.Machine.execFullDeviceReset cause s
  | .resetNLow ns => Sys2Proof.Machine.execResetNLow ns s
  | .resetSequenceComplete => Sys2Proof.Machine.execResetSequenceComplete s
  | .standbyPowerGood straps => Sys2Proof.Machine.execStandbyPowerGood straps s
  | .standbyPowerLoss => Sys2Proof.Machine.execStandbyPowerLoss s
  | .mainPgRise => Sys2Proof.Machine.execMainPgRise s
  | .mainPgFall => Sys2Proof.Machine.execMainPgFall s
  | .ref100Loss ns => Sys2Proof.Machine.execRef100Loss ns s
  | .pciePerstN => Sys2Proof.Machine.execPciePerstN s
  | .pcieConfigWrite func msix => Sys2Proof.Machine.execPcieConfigWrite func msix s
  | .pciePerstNRise => Sys2Proof.Machine.execPciePerstNRise s
  | .resetNRise => Sys2Proof.Machine.execResetNRise s
  | .ref100Return => Sys2Proof.Machine.execRef100Return s
  | .smbAlertResponse => Sys2Proof.Machine.execSmbAlertResponse s
  | .checkerLock l => Sys2Proof.Machine.execCheckerLock l s
  | .checkerLockLoss l bits errs => Sys2Proof.Machine.execCheckerLockLoss l bits errs s
  | .readBackComplete c => Sys2Proof.Machine.execReadBackComplete c s
  | .fedBrickReadDone key rd => Sys2Proof.Machine.execFedBrickReadDone key rd s
  | .announceReceiptTimeout e newState => Sys2Proof.Machine.execAnnounceReceiptTimeout e newState s
  | .ptpMessageSend e m ts => Sys2Proof.Machine.execPtpMessageSend e m ts s

end Sys2Proof.Machine
end

