-- ==== Sys2Proof/Machine/Tick.lean ====
section
/-!
DEFINITION. What passes when no command waits: one FCLK cycle (R22, R427), with the effects that the spec ties to every cycle or to
every beat edge. The opcode table has no row for the clock, so an idle step of the model is one cycle.
-/
namespace Sys2Proof.Machine

/-- The work of every cycle: SAFE_IN is sampled, and reads high where no SAFE_IN_LOW is given in the cycle (R200); the step generators run (R457); cycles with a codec job
running are counted (R341), the peak of the staging pages follows (R385), and islands that must be ACTIVE are (R29, R30). -/
def Dev.everyCycle (d : Dev) : Dev :=
  let d := { d with safe.raw := true }
  let d := if d.cdc.job.isSome then d.bump Reg.CDC_STAT_BUSY_COUNT else d
  let d := d.axCycle.lineCycle
  (d.peak Reg.MEM_STAT_STAGE_PEAK_COUNT d.crs.pagesUsed.length).settleIslands

/-- A BRICK fetch waits for staging pages (R369, R385). -/
def Dev.fetchWaits (d : Dev) : Bool :=
  d.pagesFree < 17 && (List.range 64).any (fun n =>
    d.ringClass n == clsBrick && (d.ring n).st == .active && idxDiff (d.ring n).host (d.ring n).index != (d.ring n).fetching)

/-- The beat that ends now counts on the counters that count beats (R129, R385, R567). -/
def Dev.countBeat (d : Dev) : Dev :=
  let lasers := fun (p : Laser → Bool) => (d.msn.lasers.toList.filter p).length
  let d := d.bump Reg.MSN_STAT_PLUME_BEATS_COUNT (lasers (fun l => l.st == .plumeHeld))
  let d := if d.courseOpen && !d.msn.ready.isEmpty then d.bump Reg.MSN_STAT_IDLE_BEATS_COUNT (lasers (fun l => l.st == .idle)) else d
  let d := if d.msn.holdCauses != 0 then d.bump Reg.MSN_STAT_HOLD_BEATS_COUNT else d
  let d := if d.fetchWaits then d.bump Reg.MEM_STAT_STAGE_WAIT_COUNT else d
  forRange 16 d (fun d b => if d.waitsForBlock b then d.bump Reg.MGT_STAT_WAKE_WAKE 1 b else d)

/-- What the blocks take up of the RW fields that a beat or service edge has sampled anew; `was` is the register file up to that edge (R20). -/
def Dev.sampled (was : RegFile) (d : Dev) : Dev :=
  if was.rwAct == d.regs.rwAct then d
  else
    let d := forRange 32 (forRange 64 d Dev.ringEdge) (Dev.moverEdge was)
    let d := forRange 2 (d.codecEdge was) Dev.ddrEdge
    let d := forRange 8 (d.lnkEdge was) (Dev.stepperEdge was)
    (d.lightEdge was).settleHold

/-- A RUNNING laser whose sample of this beat the guard holds goes to PLUME_HELD (R115, R117). -/
def Dev.takeHold (d : Dev) (n : Nat) : Dev :=
  match (d.laser n).pendHold with
  | none => d
  | some h =>
    let d := d.updLaser n (fun l => { l with pendHold := none })
    if (d.laser n).st != .running then d
    else
      let d := (d.updPiste n (fun p => { p with st := .holding })).updLaser n (fun l => { l with heldSince := d.beatWide })
      let d := (d.setLaser n .plumeHeld).bump Reg.MSN_STAT_PLUME_HOLDS_COUNT
      d.raise 33 n 0x2001 (n + h.zone * 16 + h.cls * 256) (masonWords h.bid h.x h.y)

/-- The work of every beat edge: the paths' vectors count as they end (R88), lasers that the guard holds stop advancing (R115), channels take
the changes decided before (R196), what the throttle enforces is learned (R503), faulted channels and axes whose causes are gone go OFF
(R198, R279), and the heartbeat's conditions are tested (R201). -/
def Dev.everyBeat (d : Dev) : Dev :=
  let d := forRange 16 d (fun d n => d.countUntil n (d.beatWide * 80 * cycUnit))
  let d := forRange 16 d Dev.takeHold
  let left := (List.range 16).any (fun n => (d.chan n).next.isSome) || (List.range 48).any (fun a => (d.axis a).faulting)
  let d := forRange 48 d Dev.axisEdge
  let d := forRange 4 (forRange 16 d Dev.chanEdge) Dev.beaconEdge
  let d := (if left then d.calWatch else d).settleThermal
  let d := forRange 16 d Dev.settleFault
  let d := forRange 48 d Dev.settleAxis
  ({ d with safe.lapsed := d.safe.lapsed ||| d.heartbeatFails d.thm.latch }).clockOutputs

/-- A beat or service edge: what was sampled acts (R20), idle islands count (R29), and while the generator runs the beat's work is done. -/
def Dev.everyEdge (was : RegFile) (d : Dev) : Dev :=
  let d := (d.sampled was).countIdle
  if d.tmb.run then d.everyBeat else d

/-- One nominal FCLK cycle on the standby clock, in 2^-32 ns. -/
def cycleTime : Int := 0xA0000000

/-- One FCLK cycle. While the main domain does not run, only the standby clock goes on (R27, R28). -/
def Dev.tick (d : Dev) : Dev :=
  let d := if d.pwr.standby then { d with pwr.clock := d.pwr.clock + cycleTime } else d
  if !d.mainUp then d
  else
    let t := d.advance
    if t.tmb.cycle == 0 then ((if d.tmb.run then d.countBeat else d).advance.everyCycle).everyEdge d.regs
    else (if t.tmb.cycle == 64 then t.takeCut else t).everyCycle

end Sys2Proof.Machine
end

