-- ==== Sys2Proof/Laws/Mem.lean ====
section
/-!
SUPPORT. The memories: what a read after a write gives, and that every memory operation keeps the canonical form.
-/
namespace Sys2Proof.Machine

/-! ## Association lists -/

theorem Assoc.above_cons {α : Type} (b : Nat) (p : Nat × α) (t : AssocMap α) :
    Assoc.above b (p :: t) = true ↔ b < p.1 ∧ Assoc.above b t = true := by
  simp [Assoc.above]

theorem Assoc.above_put {α : Type} [DecidableEq α] (b q : Nat) (v d : α) (hq : b < q) :
    ∀ m : AssocMap α, Assoc.above b m = true → Assoc.above b (Assoc.put m q v d) = true := by
  intro m
  induction m with
  | nil => intro _; by_cases hv : v = d <;> simp [Assoc.put, Assoc.above, hv, hq]
  | cons p t ih =>
    obtain ⟨k, w⟩ := p
    intro h
    obtain ⟨hk, ht⟩ := (Assoc.above_cons b (k, w) t).mp h
    simp only [Assoc.put]
    split
    · split
      · exact h
      · exact (Assoc.above_cons _ _ _).mpr ⟨hq, h⟩
    · split
      · split
        · exact ht
        · exact (Assoc.above_cons _ _ _).mpr ⟨hq, ht⟩
      · exact (Assoc.above_cons _ _ _).mpr ⟨hk, ih ht⟩

theorem Assoc.above_of_le {α : Type} {a b : Nat} (hab : a ≤ b) {m : AssocMap α} (h : Assoc.above b m = true) :
    Assoc.above a m = true := by
  simp only [Assoc.above, List.all_eq_true, decide_eq_true_eq] at *
  intro p hp
  exact Nat.lt_of_le_of_lt hab (h p hp)

theorem Assoc.put_wf {α : Type} [DecidableEq α] (q : Nat) (v d : α) :
    ∀ m : AssocMap α, Assoc.wf d m = true → Assoc.wf d (Assoc.put m q v d) = true := by
  intro m
  induction m with
  | nil => intro _; by_cases hv : v = d <;> simp [Assoc.put, Assoc.wf, Assoc.above, hv]
  | cons p t ih =>
    obtain ⟨k, w⟩ := p
    intro h
    simp only [Assoc.wf, Bool.and_eq_true] at h
    obtain ⟨⟨ha, hw⟩, ht⟩ := h
    simp only [Assoc.put]
    split
    · rename_i hlt
      split
      · simp [Assoc.wf, ha, ht, hw]
      · rename_i hv
        have hab : Assoc.above q t = true := Assoc.above_of_le (Nat.le_of_lt hlt) ha
        have hab' : Assoc.above q ((k, w) :: t) = true := by
          simp only [Assoc.above, List.all_cons, Bool.and_eq_true, decide_eq_true_eq]
          exact ⟨hlt, by simpa [Assoc.above] using hab⟩
        simp [Assoc.wf, hv, ha, ht, hw, hab']
    · split
      · rename_i heq
        subst heq
        split
        · exact ht
        · rename_i hv; simp [Assoc.wf, hv, ha, ht]
      · rename_i h1 h2
        simp [Assoc.wf, hw, ih ht, Assoc.above_put k q v d (by omega) t ha]

theorem Assoc.get_put_ne {α : Type} [DecidableEq α] (q r : Nat) (v d : α) (hne : r ≠ q) :
    ∀ m : AssocMap α, Assoc.get (Assoc.put m q v d) r d = Assoc.get m r d := by
  intro m
  induction m with
  | nil => by_cases hv : v = d <;> simp [Assoc.put, Assoc.get, hv, Ne.symm hne]
  | cons p t ih =>
    obtain ⟨k, w⟩ := p
    simp only [Assoc.put]
    split
    · split <;> simp [Assoc.get, Ne.symm hne]
    · split
      · rename_i h; subst h
        split <;> simp [Assoc.get, Ne.symm hne]
      · simp [Assoc.get, ih]

theorem Assoc.get_of_above {α : Type} (q : Nat) (d : α) :
    ∀ m : AssocMap α, Assoc.above q m = true → Assoc.get m q d = d := by
  intro m
  induction m with
  | nil => intro _; rfl
  | cons p t ih =>
    intro h
    simp only [Assoc.above, List.all_cons, Bool.and_eq_true, decide_eq_true_eq] at h
    have : p.1 ≠ q := by omega
    simp [Assoc.get, this, ih (by simpa [Assoc.above] using h.2)]

theorem Assoc.get_put_eq {α : Type} [DecidableEq α] (q : Nat) (v d : α) :
    ∀ m : AssocMap α, Assoc.wf d m = true → Assoc.get (Assoc.put m q v d) q d = v := by
  intro m
  induction m with
  | nil => intro _; by_cases hv : v = d <;> simp [Assoc.put, Assoc.get, hv]
  | cons p t ih =>
    obtain ⟨k, w⟩ := p
    intro h
    simp only [Assoc.wf, Bool.and_eq_true] at h
    obtain ⟨⟨ha, _⟩, ht⟩ := h
    simp only [Assoc.put]
    split
    · rename_i hlt
      split
      · rename_i hv
        have : k ≠ q := by omega
        simp [Assoc.get, this, Assoc.get_of_above q d t (Assoc.above_of_le (Nat.le_of_lt hlt) ha), hv]
      · simp [Assoc.get]
    · split
      · rename_i heq
        subst heq
        split
        · rename_i hv; rw [hv]; exact Assoc.get_of_above q d t ha
        · simp [Assoc.get]
      · rename_i h2
        have : k ≠ q := fun hk => h2 hk.symm
        simp [Assoc.get, this, ih ht]

theorem Assoc.above_filter {α : Type} (b : Nat) (p : Nat × α → Bool) (m : AssocMap α) (h : Assoc.above b m = true) :
    Assoc.above b (m.filter p) = true := by
  simp only [Assoc.above, List.all_eq_true, decide_eq_true_eq] at *
  intro x hx
  exact h x (List.mem_filter.mp hx).1

theorem Assoc.filter_wf {α : Type} [DecidableEq α] (d : α) (p : Nat × α → Bool) :
    ∀ m : AssocMap α, Assoc.wf d m = true → Assoc.wf d (m.filter p) = true := by
  intro m
  induction m with
  | nil => intro h; exact h
  | cons x t ih =>
    obtain ⟨k, w⟩ := x
    intro h
    simp only [Assoc.wf, Bool.and_eq_true] at h
    obtain ⟨⟨ha, hw⟩, ht⟩ := h
    rw [List.filter_cons]
    split
    · simp only [Assoc.wf, Bool.and_eq_true]
      exact ⟨⟨Assoc.above_filter k p t ha, hw⟩, ih ht⟩
    · exact ih ht

/-! ## Rising lists -/

theorem rising_insert (x : Nat) : ∀ l : List Nat, rising l = true → rising (insertRising x l) = true := by
  have above : ∀ (b : Nat) (l : List Nat), b < x → l.all (fun y => b < y) = true →
      (insertRising x l).all (fun y => b < y) = true := by
    intro b l hb
    induction l with
    | nil => intro _; simp [insertRising, hb]
    | cons y t ih =>
      intro h
      simp only [List.all_cons, Bool.and_eq_true, decide_eq_true_eq] at h
      simp only [insertRising]
      split
      · simp_all
      · split
        · simp_all
        · simp only [List.all_cons, Bool.and_eq_true, decide_eq_true_eq]
          exact ⟨h.1, ih h.2⟩
  intro l
  induction l with
  | nil => intro _; rfl
  | cons y t ih =>
    intro h
    simp only [rising, Bool.and_eq_true] at h
    simp only [insertRising]
    split
    · rename_i hlt
      simp only [rising, Bool.and_eq_true, List.all_cons, decide_eq_true_eq]
      refine ⟨⟨hlt, ?_⟩, h⟩
      simp only [List.all_eq_true, decide_eq_true_eq] at *
      intro z hz
      exact Nat.lt_trans hlt (h.1 z hz)
    · split
      · simp [rising, h]
      · rename_i h1 h2
        simp only [rising, Bool.and_eq_true]
        exact ⟨above y t (by omega) h.1, ih h.2⟩

theorem rising_filter (p : Nat → Bool) : ∀ l : List Nat, rising l = true → rising (l.filter p) = true := by
  intro l
  induction l with
  | nil => intro h; exact h
  | cons y t ih =>
    intro h
    simp only [rising, Bool.and_eq_true] at h
    rw [List.filter_cons]
    split
    · simp only [rising, Bool.and_eq_true, List.all_eq_true, decide_eq_true_eq] at *
      exact ⟨fun z hz => h.1 z (List.mem_filter.mp hz).1, ih h.2⟩
    · exact ih h.2

/-! ## Bytes -/

theorem byteAt_putByte_eq (m : List Host.Cell) (a : Nat) (b : Byte) (h : Assoc.wf 0 m = true) :
    byteAt (putByte m a b) a = b := Assoc.get_put_eq a b 0 m h

theorem byteAt_putByte_ne (m : List Host.Cell) (a r : Nat) (b : Byte) (h : r ≠ a) :
    byteAt (putByte m a b) r = byteAt m r := Assoc.get_put_ne a r b 0 h m

theorem putByte_wf (m : List Host.Cell) (a : Nat) (b : Byte) (h : Assoc.wf 0 m = true) :
    Assoc.wf 0 (putByte m a b) = true := Assoc.put_wf a b 0 m h

theorem writeBytes_wf : ∀ (bs : List Byte) (m : List Host.Cell) (a : Nat), Assoc.wf 0 m = true →
    Assoc.wf 0 (writeBytes m a bs) = true := by
  intro bs
  induction bs with
  | nil => intro m a h; exact h
  | cons b t ih => intro m a h; exact ih _ _ (putByte_wf m a b h)

/-- Outside the bytes written, every byte reads as before. -/
theorem byteAt_writeBytes_out : ∀ (bs : List Byte) (m : List Host.Cell) (a r : Nat),
    (r < a ∨ a + bs.length ≤ r) → byteAt (writeBytes m a bs) r = byteAt m r := by
  intro bs
  induction bs with
  | nil => intro m a r _; rfl
  | cons b t ih =>
    intro m a r h
    simp only [List.length_cons] at h
    rw [writeBytes, ih _ _ _ (by omega), byteAt_putByte_ne _ _ _ _ (by omega)]

/-- A byte written reads back. -/
theorem byteAt_writeBytes_in : ∀ (bs : List Byte) (m : List Host.Cell) (a i : Nat) (h : i < bs.length),
    Assoc.wf 0 m = true → byteAt (writeBytes m a bs) (a + i) = bs[i] := by
  intro bs
  induction bs with
  | nil => intro m a i h; simp at h
  | cons b t ih =>
    intro m a i h hm
    cases i with
    | zero =>
      rw [writeBytes, byteAt_writeBytes_out _ _ _ _ (by omega)]
      exact byteAt_putByte_eq m a b hm
    | succ i =>
      have := ih (putByte m a b) (a + 1) i (by simpa using h) (putByte_wf m a b hm)
      rw [writeBytes]
      have e : a + (i + 1) = a + 1 + i := by omega
      rw [e, this]
      rfl

/-! ## Words and runs of bytes -/

/-- A number written as bytes, least significant first, reads back modulo their range. -/
theorem leNat_leBytes : ∀ n v, leNat (leBytes n v) = v % 256 ^ n
  | 0, v => by simp [leNat, leBytes, Nat.mod_one]
  | n + 1, v => by
    have h := leNat_leBytes n (v / 256)
    simp only [leNat] at h
    simp only [leNat, leBytes, List.foldr_cons, h, BitVec.toNat_ofNat]
    have e : 256 ^ (n + 1) = 256 * 256 ^ n := by rw [Nat.pow_succ, Nat.mul_comm]
    rw [e, Nat.mod_mul]

@[simp] theorem leBytes_length : ∀ n v, (leBytes n v).length = n
  | 0, _ => rfl
  | n + 1, v => by simp [leBytes, leBytes_length n]

@[simp] theorem wordBytes_cons (w : W64) (ws : List W64) : wordBytes (w :: ws) = leBytes 8 w.toNat ++ wordBytes ws := by simp [wordBytes]

@[simp] theorem wordBytes_length : ∀ ws, (wordBytes ws).length = 8 * ws.length
  | [] => rfl
  | w :: ws => by simp [wordBytes_length ws]; omega

/-- The i-th word of a list of words written as bytes, least significant first. -/
theorem word_of_wordBytes : ∀ (ws : List W64) (rest : List Byte) (i : Nat), i < ws.length →
    BitVec.ofNat 64 (leNat (((wordBytes ws ++ rest).drop (8 * i)).take 8)) = ws.getD i 0
  | [], _, i, h => absurd h (by simp)
  | w :: ws, rest, 0, _ => by
    rw [Nat.mul_zero, List.drop_zero, wordBytes_cons, List.append_assoc, List.take_left' (leBytes_length 8 _), leNat_leBytes]
    exact BitVec.eq_of_toNat_eq (by simp [Nat.mod_eq_of_lt w.isLt])
  | w :: ws, rest, i + 1, h => by
    have e : 8 * (i + 1) = (leBytes 8 w.toNat).length + 8 * i := by simp; omega
    rw [wordBytes_cons, List.append_assoc, e, ← List.drop_drop, List.drop_left]
    simpa using word_of_wordBytes ws rest i (by simpa using h)

/-- Any run of the bytes written reads back. -/
theorem readBytes_writeBytes (m : List Host.Cell) (a : Nat) (bs : List Byte) (k n : Nat) (h : Assoc.wf 0 m = true) (hl : k + n ≤ bs.length) :
    readBytes (writeBytes m a bs) (a + k) n = (bs.drop k).take n := by
  apply List.ext_getElem
  · simp [readBytes]; omega
  · intro i h1 h2
    simp only [readBytes, List.length_map, List.length_range] at h1
    simp only [readBytes, List.getElem_map, List.getElem_range, List.getElem_take, List.getElem_drop]
    rw [Nat.add_assoc, byteAt_writeBytes_in bs m a (k + i) (by omega) h]

/-- Behind the bytes written, every run reads as before. -/
theorem readBytes_out (m : List Host.Cell) (a : Nat) (bs : List Byte) (b n : Nat) (h : a + bs.length ≤ b) :
    readBytes (writeBytes m a bs) b n = readBytes m b n := by
  simp only [readBytes]
  apply List.map_congr_left
  intro i _
  rw [byteAt_writeBytes_out]
  omega

/-! ## The operations over the memories keep the canonical form -/

theorem Mem.wf_iff (m : Mem) :
    m.wf = true ↔ Assoc.wf 0 m.sram = true ∧ Assoc.wf 0 m.dram = true ∧ rising m.poisoned = true := by
  simp only [Mem.wf, Bool.and_eq_true]
  exact ⟨fun h => ⟨h.1.1, h.1.2, h.2⟩, fun h => ⟨⟨h.1, h.2.1⟩, h.2.2⟩⟩

theorem Mem.wf_empty : ({} : Mem).wf = true := by decide

theorem Mem.wf_putSram {m : Mem} (a : Nat) (bs : List Byte) (h : m.wf = true) : (m.putSram a bs).wf = true := by
  rw [Mem.wf_iff] at *
  exact ⟨writeBytes_wf bs _ a h.1, h.2.1, rising_filter _ _ h.2.2⟩

theorem Mem.wf_putDram {m : Mem} (a : Nat) (bs : List Byte) (h : m.wf = true) : (m.putDram a bs).wf = true := by
  rw [Mem.wf_iff] at *
  exact ⟨h.1, writeBytes_wf bs _ a h.2.1, h.2.2⟩

theorem Mem.wf_poison {m : Mem} (a : Nat) (h : m.wf = true) : (m.poison a).wf = true := by
  rw [Mem.wf_iff] at *
  exact ⟨h.1, h.2.1, rising_insert _ _ h.2.2⟩

theorem Mem.wf_putPart {m : Mem} (a : Nat) (bs : List Byte) (lo hi lo' : Nat) (h : m.wf = true) :
    (m.putPart a bs lo hi lo').wf = true := by
  simp only [Mem.putPart]
  split
  · exact Mem.wf_putSram _ _ h
  · exact h

theorem Mem.wf_putMapped {m : Mem} (a : Nat) (bs : List Byte) (h : m.wf = true) : (m.putMapped a bs).wf = true := by
  simp only [Mem.putMapped]
  split
  · exact Mem.wf_putPart _ _ _ _ _ (Mem.wf_putPart _ _ _ _ _ (Mem.wf_putSram _ _ h))
  · exact h

theorem Mem.wf_clearValid {m : Mem} (k : Nat) (h : m.wf = true) : (m.clearValid k).wf = true :=
  Mem.wf_putMapped _ _ h

theorem Mem.wf_stageBytes : ∀ (ps : List Nat) (m : Mem) (bs : List Byte), m.wf = true → (stageBytes m ps bs).wf = true := by
  intro ps
  induction ps with
  | nil => intro m bs h; exact h
  | cons p t ih => intro m bs h; exact ih _ _ (Mem.wf_putSram _ _ h)

theorem copyRange_wf (cells : List Host.Cell) (src dst len : Nat) (h : Assoc.wf 0 cells = true) :
    Assoc.wf 0 (copyRange cells src dst len) = true := by
  have go : ∀ (l m : List Host.Cell), Assoc.wf 0 m = true →
      Assoc.wf 0 (l.foldl (fun (m : List Host.Cell) c => putByte m (c.1 - src + dst) c.2) m) = true := by
    intro l
    induction l with
    | nil => intro m hm; exact hm
    | cons c t ih => intro m hm; exact ih _ (putByte_wf _ _ _ hm)
  exact go _ _ (Assoc.filter_wf 0 _ _ h)

theorem rising_foldl_insert : ∀ (xs l : List Nat), rising l = true →
    rising (xs.foldl (fun l p => insertRising p l) l) = true := by
  intro xs
  induction xs with
  | nil => intro l h; exact h
  | cons x t ih => intro l h; exact ih _ (rising_insert x l h)

theorem Mem.wf_commitBank {m : Mem} (h : m.wf = true) : m.commitBank.wf = true := by
  rw [Mem.wf_iff] at *
  exact ⟨copyRange_wf _ _ _ _ (copyRange_wf _ _ _ _ h.1), h.2.1, rising_foldl_insert _ _ (rising_filter _ _ h.2.2)⟩

theorem Mem.wf_dramPut (d : Dev) {m : Mem} (a : Nat) (bs : List Byte) (h : m.wf = true) : (d.dramPut m a bs).wf = true := by
  have go : ∀ (bs : List Byte) (p : Mem × Nat), p.1.wf = true →
      (bs.foldl (fun (p : Mem × Nat) b => (p.1.putDram (d.dramKey p.2) [b], p.2 + 1)) p).1.wf = true := by
    intro bs
    induction bs with
    | nil => intro p hp; exact hp
    | cons b t ih => intro p hp; exact ih _ (Mem.wf_putDram _ _ hp)
  exact go bs (m, a) h

theorem Mem.wf_readSram (d : Dev) {m : Mem} (src blk a : Nat) (ecc : EccRead) (h : m.wf = true) :
    (d.readSram m src blk a ecc).1.wf = true := by
  simp only [Dev.readSram]
  split
  · exact Mem.wf_poison _ h
  · exact h

theorem Mem.wf_readPartials :
    ∀ (ws : List Nat) (d : Dev) (m : Mem) (ecc : EccRead), m.wf = true → (d.readPartials m ecc ws).1.wf = true := by
  intro ws
  induction ws with
  | nil => intro d m ecc h; exact h
  | cons w t ih =>
    intro d m ecc h
    simp only [Dev.readPartials]
    split
    · exact ih _ _ _ (Mem.wf_readSram d _ _ _ _ h)
    · exact ih _ _ _ h

theorem Mem.wf_burstWrite : ∀ (rs : List (Nat × Nat)) (d : Dev) (m : Mem) (space : Nat) (bs : List Byte), m.wf = true →
    (d.burstWrite m space rs bs).1.wf = true := by
  intro rs
  induction rs with
  | nil => intro d m space bs h; exact h
  | cons r t ih =>
    intro d m space bs h
    unfold Dev.burstWrite
    split
    · exact ih _ _ _ _ h
    · exact ih _ _ _ _ (Mem.wf_dramPut _ _ _ h)
    · exact ih _ _ _ _ (Mem.wf_putSram _ _ h)

end Sys2Proof.Machine
end

