-- ==== Sys2Proof/Safety.lean ====
section
/-!
DEFINITION. What a safe run is: the memories keep their canonical form, a command changes only the parts of the device that are its
own, and nothing changes the queue but the step that takes its front.
-/
namespace Sys2Proof.Machine

/-- The parts of the device that a frame speaks of. `taken` is no field: a frame that leaves it open may take items from the merge. -/
inductive Part where
  | rw | rwAct | shadow | shadowAt | effect | srvNext | w1c | cnt | rol | rolBeat
  | merge | taken | out | freeCount
  | hst | lnk | crs | msn | pth | lsr | mpm | srv | safe | cam | cdc | dma | memc | tmb | axs | lgt | thm | cal | pwr
  | log | latches | replies | exporting | slots | boot | act | settings | resetReq
  deriving DecidableEq, Repr

/-- The part is the same in both devices. -/
def Part.same : Part → Dev → Dev → Prop
  | .rw, a, b => b.regs.rw = a.regs.rw
  | .rwAct, a, b => b.regs.rwAct = a.regs.rwAct
  | .shadow, a, b => b.regs.shadow = a.regs.shadow
  | .shadowAt, a, b => b.regs.shadowAt = a.regs.shadowAt
  | .effect, a, b => b.regs.effect = a.regs.effect
  | .srvNext, a, b => b.regs.srvNext = a.regs.srvNext
  | .w1c, a, b => b.regs.w1c = a.regs.w1c
  | .cnt, a, b => b.regs.cnt = a.regs.cnt
  | .rol, a, b => b.regs.rol = a.regs.rol
  | .rolBeat, a, b => b.regs.rolBeat = a.regs.rolBeat
  | .merge, a, b => b.ev.merge = a.ev.merge
  | .taken, _, _ => () = ()
  | .out, a, b => b.ev.out = a.ev.out
  | .freeCount, a, b => b.freeCount = a.freeCount
  | .hst, a, b => b.hst = a.hst
  | .lnk, a, b => b.lnk = a.lnk
  | .crs, a, b => b.crs = a.crs
  | .msn, a, b => b.msn = a.msn
  | .pth, a, b => b.pth = a.pth
  | .lsr, a, b => b.lsr = a.lsr
  | .mpm, a, b => b.mpm = a.mpm
  | .srv, a, b => b.srv = a.srv
  | .safe, a, b => b.safe = a.safe
  | .cam, a, b => b.cam = a.cam
  | .cdc, a, b => b.cdc = a.cdc
  | .dma, a, b => b.dma = a.dma
  | .memc, a, b => b.memc = a.memc
  | .tmb, a, b => b.tmb = a.tmb
  | .axs, a, b => b.axs = a.axs
  | .lgt, a, b => b.lgt = a.lgt
  | .thm, a, b => b.thm = a.thm
  | .cal, a, b => b.cal = a.cal
  | .pwr, a, b => b.pwr = a.pwr
  | .log, a, b => (b.mgt.log, b.mgt.nextSeq, b.mgt.overwritten) = (a.mgt.log, a.mgt.nextSeq, a.mgt.overwritten)
  | .latches, a, b => (b.mgt.stage, b.mgt.rdLatch) = (a.mgt.stage, a.mgt.rdLatch)
  | .replies, a, b => b.mgt.replies = a.mgt.replies
  | .exporting, a, b => b.mgt.exporting = a.mgt.exporting
  | .slots, a, b => b.mgt.slots = a.mgt.slots
  | .boot, a, b => (b.mgt.confirmed, b.mgt.running) = (a.mgt.confirmed, a.mgt.running)
  | .act, a, b => (b.mgt.act, b.mgt.serveFrom) = (a.mgt.act, a.mgt.serveFrom)
  | .settings, a, b => (b.mgt.areas, b.mgt.settings, b.mgt.area, b.mgt.guarded) = (a.mgt.areas, a.mgt.settings, a.mgt.area, a.mgt.guarded)
  | .resetReq, a, b => (b.mgt.resetAt, b.mgt.cause) = (a.mgt.resetAt, a.mgt.cause)

/-- The keys of a sparse map rise strictly: one entry at most for each key. -/
def keysRise : FieldMap → Bool
  | [] => true
  | (k, _) :: t => Assoc.above k t && keysRise t

/-- The canonical form of the register file: in each of its maps every field has one entry at most. -/
def RegFile.wf (r : RegFile) : Bool :=
  keysRise r.rw && keysRise r.rwAct && keysRise r.shadow && keysRise r.shadowAt && keysRise r.effect && keysRise r.srvNext && keysRise r.w1c &&
    keysRise r.cnt && keysRise r.rol

/-- `y` is `x`, but for its SUB number at most (R12), and for DETAIL in a CAP_OVERFLOW that goes on counting (R443). -/
structure Item.like (x y : Item) : Prop where
  kind : y.kind = x.kind
  code : y.code = x.code
  detail : x.code ≠ 0xC009 → y.detail = x.detail
  rest : (y.payload, y.unit, y.stamp) = (x.payload, x.unit, { x.stamp with sub := y.stamp.sub })

/-- Every item of one merge stands in the other, but for what it may take up while it waits. -/
structure Grows (a b : List Item) : Prop where
  all : ∀ x ∈ a, ∃ y ∈ b, x.like y

/-- Every part but those of `w` is the same, a register file in canonical form stays so, and, unless items are taken from the merge to be
written out, every item that waits goes on waiting. -/
structure Keeps (w : List Part) (d d' : Dev) : Prop where
  same : ∀ p, p ∉ w → p.same d d'
  regs : d.regs.wf = true → d'.regs.wf = true
  adds : Part.taken ∉ w → Grows d.ev.merge d'.ev.merge

/-- A state reached by a command that may change the parts `w` of the device and, where `m` is true, the memories: every other part is
the same, and the queue of waiting commands is. -/
structure KeepsS (w : List Part) (m : Bool) (s t : State) : Prop where
  dev : Keeps w s.dev t.dev
  mem : m = false → t.mem = s.mem
  pending : t.pending = s.pending

/-! ## What statements speak of -/

/-- The management processor takes `h` as a new request of its source (R528, R530), outside a handover (R537). -/
def Dev.takes (d : Dev) (h : PmpHdr) : Bool :=
  d.mgtUp && !d.handingOver && !d.mgt.replies.any (fun r => r.src == h.src && r.seq == h.seq) &&
    !d.mgt.exporting.any (fun x => x.src == h.src && x.seq == h.seq) && h.magicOk && h.version == 1 && h.opOk && h.lenOk

/-- Reaching `t` put `o` out, and nothing else. -/
def State.says (s t : State) (o : Out) : Prop := t.dev.ev.out = o :: s.dev.ev.out

/-- The registers whose write does more than store: each has a command of its own in the table. -/
def Reg.acting : List RegDef :=
  [Reg.MGT_SAFE_CTL, Reg.MGT_SAFE_KICK, Reg.MGT_CAL_TOL, Reg.HST_RING_CFG, Reg.LSR_CHAN_CTL, Reg.SRV_AXIS_CTL, Reg.CAM_PORT_CFG,
   Reg.DMA_CHAN_CFG, Reg.MEM_DDR_CFG, Reg.LNK_BL_CFG, Reg.LNK_LANE_TEST, Reg.LNK_ETH_CFG, Reg.TMB_CTL, Reg.TMB_SET, Reg.TMB_STEP,
   Reg.TMB_LAUNCH_CTL, Reg.AXS_AXIS_CFG, Reg.LGT_CTL, Reg.LGT_STATUS, Reg.LGT_CH, Reg.THM_SENS_CFG]

/-- The registers whose block checks what is written and may refuse it (R21). -/
def Reg.checked : List RegDef :=
  [Reg.HST_CTL, Reg.HST_DB_BASE, Reg.HST_WB_BASE, Reg.HST_RING_BASE, Reg.HST_EVT_ROUTE, Reg.HST_FOREIGN_ROUTE, Reg.MSN_CTL, Reg.MSN_GAS,
   Reg.MSN_FAIR, Reg.PTH_CTL, Reg.PTH_SEAM_CTL, Reg.PTH_SPEED, Reg.PTH_FIELD_X, Reg.PTH_FIELD_Y, Reg.PTH_DYN, Reg.PTH_FOCUS,
   Reg.PTH_TIMING, Reg.PTH_SEAM_CFG, Reg.PTH_SEAM_LINE, Reg.PTH_SEAM_SPAN, Reg.PTH_SEAM_BLEND, Reg.PTH_SEAM_SPREAD, Reg.PTH_SEAM_REG,
   Reg.LSR_CHAN_ARM, Reg.LSR_CHAN_BEACON, Reg.MPM_CHAN_CTL, Reg.MPM_CHAN_LIMIT, Reg.MPM_REF0, Reg.MPM_REF1, Reg.SRV_AXIS_CUR,
   Reg.SRV_AXIS_LOOP, Reg.SRV_AXIS_PERR, Reg.SRV_BANK_CFG, Reg.CAM_PORT_GEOM, Reg.MEM_SRAM_CTL, Reg.MEM_DDR_TIMING, Reg.MEM_DDR_LANE,
   Reg.MEM_DDR_MR, Reg.LNK_DEV, Reg.LNK_TIME_CTL, Reg.LNK_LANE_EQ, Reg.LNK_FEED, Reg.TMB_LAUNCH_TIME, Reg.TMB_LAUNCH_DATA, Reg.TMB_INCR,
   Reg.TMB_START_TIME, Reg.TMB_SERVO, Reg.TMB_EPOCH, Reg.TMB_PTP_CFG, Reg.AXS_PROF0, Reg.AXS_PROF1, Reg.AXS_AXIS_VLIM, Reg.LGT_BOOST,
   Reg.LGT_BEACON, Reg.THM_CTL, Reg.THM_SENS_THRESH]

/-- An event of a code and DETAIL stands in the merge. -/
def Dev.hasEvent (d : Dev) (code detail : Nat) : Bool :=
  d.ev.merge.any (fun x => x.isEvent && x.code == code && x.detail == detail)

/-- A DONE entry of a code for the entry `e` stands in the merge. -/
def Dev.hasDone (d : Dev) (e : Entry) (code : Nat) : Bool :=
  d.ev.merge.any (fun x => decide (x.kind = .done e.ring e.idx e.tag) && x.code == code)

/-- On the way from `d` to `d'` channel `n` is decided to leave its state for `st`: the change follows at the next beat edge, the work in
flight is dropped, and the pads go inactive within 80 cycles (R26, R196). -/
def Dev.leavesFor (d d' : Dev) (n : Nat) (st : ChanState) : Prop :=
  (d'.chan n).next = some st ∧ (d'.chan n).drop = true ∧ (d'.chan n).dropBeat = d.beatWide ∧ d.cycleNow ≤ (d'.chan n).offAt ∧
    (d'.chan n).offAt ≤ d.cycleNow + 80

/-- So it faults, with the cause of bit `c` (R197). -/
def Dev.faultsFor (d d' : Dev) (n c : Nat) : Prop :=
  d.leavesFor d' n .fault ∧ (d'.chan n).first = c ∧ bitOf (d'.flag Reg.LSR_CHAN_FAULT_CAUSE n) c = true

/-- On the way from `d` to `d'` axis `a` is decided to fault with the cause of bit `c`, which is reported; its channel hears of it at the next
beat edge (R277, R278). -/
def Dev.axisFaultsFor (d d' : Dev) (a c code detail : Nat) : Prop :=
  (d'.axis a).faulting = true ∧ bitOf (d'.flag Reg.SRV_AXIS_FAULT_CAUSE a) c = true ∧ bitOf (d'.chan (a / 3)).pend 7 = true ∧
    d'.hasEvent code detail = true ∧ ((d.axis a).faulting = false → (d'.axis a).first = c)

end Sys2Proof.Machine

namespace Sys2Proof
open Sys2Proof.Machine

/-- The parts of the device that a command may change. -/
def Instr.writes : Instr → List Part
  | .registerWrite .. | .lowerHalfWrite .. | .upperHalfWrite .. =>
    [.rw, .shadow, .w1c, .cnt, .merge, .out, .hst, .lnk, .lsr, .srv, .safe, .cam, .tmb, .lgt, .thm, .log, .latches]
  | .lowerHalfRead .. | .upperHalfRead .. =>
    [.out, .freeCount, .latches]
  | .clockGateEntry .. | .islandWake .. | .resetNRise =>
    [.pwr]
  | .islandOffEntry .. =>
    [.pth, .pwr]
  | .pcieLinkUp .. =>
    [.merge, .out, .hst, .msn, .log]
  | .pcieLinkDown =>
    [.cnt, .merge, .hst, .lnk, .crs, .msn, .log]
  | .functionLevelReset =>
    [.rw, .rwAct, .w1c, .cnt, .rol, .merge, .hst, .msn, .log]
  | .bar2Write .. | .scrubRead .. | .dramReadReturn .. =>
    [.cnt, .merge, .memc, .log]
  | .bar2Read .. =>
    [.cnt, .merge, .out, .freeCount, .memc, .log]
  | .doorbellPoll =>
    [.cnt, .out, .hst]
  | .doorbellReturn .. =>
    [.w1c, .cnt, .merge, .out, .hst, .log]
  | .entryArrival .. =>
    [.cnt, .merge, .out, .hst, .pwr, .log]
  | .ringEnable .. | .ringDisable .. =>
    [.rw, .shadow, .w1c, .merge, .hst, .log]
  | .routeWrite .. | .hostHold .. | .channelFaultClear .. | .axisFaultClear .. | .codecDisable .. | .codecEnable ..
  | .dmaChannelDisable .. | .ddrEnable .. | .ddrDisable .. | .blPortEnable .. | .blPortDisable .. | .stepperEnable ..
  | .stepperDisable .. | .lightingEnable .. | .lightingDisable .. =>
    [.rw, .shadow, .w1c]
  | .completionWrite =>
    [.cnt, .merge, .taken, .out, .hst, .lnk, .log]
  | .msixModTimer .. | .msixTableAccess .. | .pcieConfigWrite .. =>
    [.out, .hst]
  | .psetWrite .. =>
    [.merge, .hst]
  | .psetLoad .. =>
    [.merge, .out, .hst, .crs]
  | .psetLoadData .. =>
    [.cnt, .merge, .hst, .crs, .log]
  | .psetCommit .. =>
    [.merge, .hst, .crs]
  | .paramCommit =>
    [.effect, .srvNext, .cnt, .merge, .hst, .crs]
  | .brick .. | .courseEnd .. | .remnantFrameReceive | .fedResultReceive | .fedBrickReadDone .. =>
    [.cnt, .merge, .out, .hst, .lnk, .crs, .log]
  | .brickVerdict .. | .unplaceableTimeout .. | .standstill | .remnantReady .. =>
    [.cnt, .merge, .out, .hst, .lnk, .crs, .msn, .log]
  | .courseBegin .. =>
    [.cnt, .merge, .out, .hst, .lnk, .crs, .pth, .log]
  | .courseAbort .. | .courseWaitResume .. | .fedBrickStaging .. | .ctrlEntryReceive =>
    [.cnt, .merge, .out, .freeCount, .hst, .lnk, .crs, .msn, .pth, .lsr, .log]
  | .courseClose | .abortComplete =>
    [.cnt, .rol, .rolBeat, .merge, .out, .hst, .lnk, .crs, .pth, .thm, .log]
  | .startBeatReached .. =>
    [.crs, .msn]
  | .starveLimitReached .. =>
    [.cnt, .merge, .crs, .log]
  | .masonSelection .. | .plumeGuard .. =>
    [.w1c, .cnt, .merge, .crs, .msn, .pth, .log]
  | .assignmentInForce .. | .holdPass .. =>
    [.cnt, .crs, .msn, .pth]
  | .trailSliceClose .. | .trailSliceExpire .. =>
    [.msn]
  | .plumeHoldTimeout .. =>
    [.cnt, .merge, .crs, .msn, .pth, .log]
  | .masonDrop .. =>
    [.cnt, .merge, .crs, .msn, .pth, .lsr, .log]
  | .stopSegmentDone .. =>
    [.crs, .msn, .pth]
  | .brickEnd .. =>
    [.cnt, .merge, .out, .hst, .lnk, .crs, .msn, .pth, .log]
  | .pisteSampleIssue .. =>
    [.w1c, .cnt, .merge, .freeCount, .crs, .msn, .pth, .lsr, .log]
  | .vectorRefillDone .. =>
    [.cnt, .merge, .pth, .lsr, .memc, .log]
  | .gridLoad .. =>
    [.merge, .out, .hst, .pth]
  | .gridLoadComplete .. | .gridSwap .. =>
    [.cnt, .merge, .freeCount, .hst, .pth, .memc, .log]
  | .gridSwapEffect .. =>
    [.merge, .hst, .pth, .log]
  | .seamOffer .. =>
    [.cnt, .pth]
  | .channelEnable .. | .channelDisable .. =>
    [.rw, .shadow, .w1c, .lsr]
  | .armingComplete .. =>
    [.merge, .crs, .msn, .pth, .lsr, .log]
  | .armingTimeout .. | .alarmQualified .. | .readyQualified .. | .padReadbackMismatch .. | .dacComplianceLoss .. =>
    [.w1c, .merge, .freeCount, .lsr, .log]
  | .safeInLow =>
    [.w1c, .merge, .freeCount, .hst, .lsr, .mpm, .safe, .cal, .log]
  | .safeInQualified | .heartbeatBoundary =>
    [.merge, .safe, .log]
  | .safeKick .. =>
    [.rw, .shadow, .w1c, .safe]
  | .kickTimeoutExpiry =>
    [.w1c, .merge, .safe, .log]
  | .beaconReport .. =>
    [.lsr]
  | .beaconUnverifiedTimeout .. =>
    [.merge, .freeCount, .lsr, .log]
  | .dacUpdate .. =>
    [.cnt, .merge, .freeCount, .lsr, .mpm, .log]
  | .mpmSample .. =>
    [.w1c, .cnt, .merge, .mpm, .log]
  | .brQualReached .. =>
    [.cnt, .merge, .lsr, .mpm, .log]
  | .lowBeatsReached .. =>
    [.merge, .lsr, .mpm, .log]
  | .satBeatsReached .. =>
    [.merge, .mpm, .log]
  | .velocityTick .. =>
    [.w1c, .cnt, .merge, .srv, .log]
  | .positionTick .. =>
    [.w1c, .cnt, .merge, .freeCount, .pth, .srv, .log]
  | .currentDecision .. | .perrTicksReached .. | .stuckBeatsReached .. | .curSenseCountReached .. | .posQualReached ..
  | .gateReadbackMismatch .. | .acquireTimeoutExpiry .. =>
    [.w1c, .merge, .lsr, .srv, .log]
  | .srvCommitEffect =>
    [.effect, .srvNext, .cnt, .merge, .crs, .srv, .log]
  | .axisEnable .. | .axisDisable .. =>
    [.rw, .shadow, .w1c, .srv]
  | .cameraPortEnable .. | .cameraPortDisable .. =>
    [.rw, .shadow, .w1c, .cnt, .merge, .hst, .cam, .log]
  | .frameStart .. | .frameEnd .. | .camFrameTimeout .. | .capStop .. =>
    [.cnt, .merge, .hst, .cam, .log]
  | .longPacket .. =>
    [.cnt, .merge, .cam, .log]
  | .dphySotError .. =>
    [.merge, .log]
  | .engineLine .. =>
    [.w1c, .cnt, .merge, .out, .freeCount, .cam, .memc, .log]
  | .outputHoldTimeout .. =>
    [.w1c, .cnt, .merge, .cam, .log]
  | .frameWriteout .. =>
    [.merge, .out, .freeCount, .hst, .cam, .log]
  | .capArm .. =>
    [.merge, .hst, .cam]
  | .tableLoad .. =>
    [.cnt, .merge, .out, .hst, .cam, .log]
  | .compress .. | .decompress .. =>
    [.cnt, .merge, .out, .hst, .cdc, .memc, .log]
  | .codecJobRun =>
    [.out, .cdc]
  | .codecJobDone .. =>
    [.cnt, .merge, .out, .freeCount, .hst, .cdc, .memc, .log]
  | .dmaMove .. | .readBackComplete .. =>
    [.cnt, .merge, .hst, .dma, .log]
  | .dmaEntryStart .. =>
    [.cnt, .merge, .out, .hst, .dma, .log]
  | .dmaBurstWritten .. =>
    [.cnt, .merge, .out, .freeCount, .hst, .dma, .memc, .log]
  | .dmaBusError .. | .dmaAbort .. =>
    [.cnt, .merge, .freeCount, .hst, .dma, .log]
  | .ddrInitDone .. | .actLimitReached .. =>
    [.merge, .freeCount, .memc, .log]
  | .ddrRefresh .. | .ddrMr4Poll .. =>
    [.memc]
  | .rowWindowEnd =>
    [.cnt, .freeCount, .memc]
  | .laneTestStart .. | .laneTestStop .. | .laneInject .. =>
    [.rw, .shadow, .w1c, .lnk]
  | .blLaneLock .. | .blAlignFound .. | .blAlignTimeout .. | .blHelloTimeout .. | .fedStreamClose .. | .checkerLock ..
  | .checkerLockLoss .. =>
    [.lnk]
  | .blHelloSend .. =>
    [.out, .lnk]
  | .blHelloReceive .. | .blLinkLoss .. =>
    [.cnt, .merge, .hst, .lnk, .crs, .tmb, .log]
  | .blLinkctl .. =>
    [.cnt, .merge, .out, .hst, .lnk, .crs, .tmb, .log]
  | .blFrameReceive .. | .brickFrameReceive =>
    [.cnt, .merge, .out, .lnk, .log]
  | .timeFrameSend .. =>
    [.cnt, .out, .lnk]
  | .timeFrameReceive .. =>
    [.cnt, .merge, .lnk, .tmb, .log]
  | .rootTimeout =>
    [.merge, .lnk, .tmb, .log]
  | .foreignEventReceive =>
    [.cnt, .out, .hst, .lnk]
  | .feedTimeoutExpiry .. =>
    [.merge, .hst, .lnk, .crs, .log]
  | .ethLinkRise .. | .ethLinkFall .. =>
    [.merge, .lnk, .log]
  | .tmbSetWrite .. | .launchArm .. | .launchCancel .. =>
    [.rw, .shadow, .w1c, .merge, .tmb, .log]
  | .tmbStepWrite .. =>
    [.w1c, .merge, .tmb, .log]
  | .beatStart .. =>
    [.rw, .shadow, .w1c, .tmb]
  | .beatStartReached | .ptpMessageReceive .. | .syncTimeout .. | .freqUpdate | .announceReceiptTimeout .. =>
    [.merge, .tmb, .log]
  | .ptpMeasurement .. | .tcapEdge .. =>
    [.cnt, .merge, .tmb, .log]
  | .statsEpoch =>
    [.cnt, .rol, .rolBeat, .memc, .thm]
  | .launchWindow .. =>
    [.rw, .rwAct, .merge, .tmb, .log]
  | .launchSend .. =>
    [.rw, .rwAct, .cnt, .merge, .out, .lnk, .tmb, .log]
  | .axsMove .. | .home .. | .stop .. | .setPos .. | .axsEntryResume .. =>
    [.cnt, .merge, .hst, .axs, .log]
  | .profileTick .. =>
    [.w1c, .cnt, .merge, .hst, .axs, .log]
  | .limitQualified .. =>
    [.cnt, .merge, .axs, .log]
  | .homeQualified .. | .homeInputDeassert .. | .homeMaxReached .. =>
    [.axs]
  | .lightSet .. | .lightGroupOff .. =>
    [.merge, .hst, .lgt]
  | .lightLoad .. =>
    [.cnt, .merge, .out, .hst, .lgt, .log]
  | .lightFrame .. =>
    [.w1c, .cnt, .merge, .lgt, .log]
  | .boostOutOfRange .. =>
    [.w1c, .merge, .log]
  | .boostFaultClear .. | .lightClear .. =>
    [.rw, .shadow, .w1c, .lgt]
  | .ntcConversion .. =>
    [.merge, .freeCount, .lgt, .log]
  | .thermalSample .. =>
    [.rw, .rwAct, .shadow, .shadowAt, .effect, .srvNext, .w1c, .cnt, .rol, .rolBeat, .merge, .taken, .freeCount, .hst,
     .lnk, .crs, .msn, .pth, .lsr, .mpm, .srv, .safe, .cam, .cdc, .dma, .memc, .tmb, .axs, .lgt, .thm, .cal, .pwr, .log,
     .exporting]
  | .graceExpiry .. =>
    [.merge, .thm, .log]
  | .calRun .. =>
    [.cnt, .merge, .out, .hst, .cal, .log]
  | .calMeasurementStart =>
    [.mpm, .cal]
  | .calRunComplete .. =>
    [.rw, .shadow, .w1c, .merge, .out, .hst, .lnk, .pth, .mpm, .cal, .log]
  | .calRecall .. =>
    [.rw, .shadow, .w1c, .merge, .out, .hst, .lnk, .pth]
  | .pmpIdent .. | .logRead .. | .imgStatus .. | .configGet .. =>
    [.out, .replies]
  | .regRead .. | .regWrite .. =>
    [.rw, .shadow, .w1c, .cnt, .merge, .out, .freeCount, .hst, .lnk, .lsr, .srv, .safe, .cam, .tmb, .lgt, .thm, .log,
     .latches, .replies]
  | .imgBegin .. =>
    [.out, .replies, .slots]
  | .imgPiece .. =>
    [.merge, .out, .log, .replies, .slots]
  | .imgActivate .. | .imgRevert .. =>
    [.out, .replies, .act]
  | .fwHandover =>
    [.merge, .log, .slots, .boot, .act, .settings]
  | .activateTimeout =>
    [.merge, .log, .act]
  | .imgConfirm .. =>
    [.out, .replies, .slots, .boot, .settings]
  | .pmpReset .. =>
    [.out, .replies, .resetReq]
  | .export_ .. =>
    [.out, .freeCount, .replies, .exporting]
  | .exportComplete =>
    [.out, .replies, .exporting]
  | .configSet .. =>
    [.out, .replies, .settings]
  | .smbStatus | .smbIdent | .smbTemp | .smbCause | .smbAlertResponse | .ptpMessageSend .. =>
    [.out]
  | .smbReset .. | .fullDeviceReset .. | .standbyPowerGood .. | .mainPgRise | .ref100Return =>
    [.rw, .rwAct, .shadow, .shadowAt, .effect, .srvNext, .w1c, .cnt, .rol, .rolBeat, .merge, .taken, .hst, .lnk, .crs,
     .msn, .pth, .lsr, .mpm, .srv, .safe, .cam, .cdc, .dma, .memc, .tmb, .axs, .lgt, .thm, .cal, .pwr, .log, .latches,
     .replies, .exporting, .slots, .boot, .act, .settings, .resetReq]
  | .resetNLow .. =>
    [.rw, .rwAct, .shadow, .shadowAt, .effect, .srvNext, .w1c, .cnt, .rol, .rolBeat, .merge, .taken, .freeCount, .hst,
     .lnk, .crs, .msn, .pth, .lsr, .mpm, .srv, .safe, .cam, .cdc, .dma, .memc, .tmb, .axs, .lgt, .thm, .cal, .pwr, .log,
     .latches, .replies, .exporting, .slots, .boot, .act, .settings, .resetReq]
  | .resetSequenceComplete =>
    [.safe, .pwr]
  | .standbyPowerLoss =>
    [.rw, .rwAct, .shadow, .shadowAt, .effect, .srvNext, .w1c, .cnt, .rol, .rolBeat, .merge, .taken, .hst, .lnk, .crs,
     .msn, .pth, .lsr, .mpm, .srv, .safe, .cam, .cdc, .dma, .memc, .tmb, .axs, .lgt, .thm, .cal, .pwr, .log, .latches,
     .replies, .exporting, .boot, .act, .settings, .resetReq]
  | .mainPgFall | .ref100Loss .. =>
    [.rw, .rwAct, .shadow, .shadowAt, .effect, .srvNext, .w1c, .cnt, .rol, .rolBeat, .merge, .taken, .hst, .lnk, .crs,
     .msn, .pth, .lsr, .mpm, .srv, .safe, .cam, .cdc, .dma, .memc, .tmb, .axs, .lgt, .thm, .cal, .pwr, .log, .exporting]
  | .pciePerstN =>
    [.rw, .rwAct, .w1c, .cnt, .rol, .merge, .hst, .lnk, .crs, .msn, .log]
  | .pciePerstNRise =>
    [.hst]

/-- The commands that may change the memories. -/
def Instr.storesMem : Instr → Bool
  | .bar2Write .. | .bar2Read .. | .psetWrite .. | .psetLoadData .. | .paramCommit | .brickVerdict ..
  | .plumeHoldTimeout .. | .masonDrop .. | .pisteSampleIssue .. | .gridLoadComplete .. | .engineLine ..
  | .frameWriteout .. | .codecJobDone .. | .dmaBurstWritten .. | .dmaBusError .. | .scrubRead .. | .ddrInitDone ..
  | .fedBrickStaging .. | .smbReset .. | .fullDeviceReset .. | .resetNLow .. | .standbyPowerGood .. | .standbyPowerLoss
  | .mainPgRise | .mainPgFall | .ref100Loss .. | .ref100Return | .fedBrickReadDone .. => true
  | .registerWrite .. | .lowerHalfWrite .. | .upperHalfWrite .. | .lowerHalfRead .. | .upperHalfRead ..
  | .clockGateEntry .. | .islandOffEntry .. | .islandWake .. | .pcieLinkUp .. | .pcieLinkDown | .functionLevelReset
  | .doorbellPoll | .doorbellReturn .. | .entryArrival .. | .ringEnable .. | .ringDisable .. | .routeWrite ..
  | .completionWrite | .msixModTimer .. | .msixTableAccess .. | .psetLoad .. | .psetCommit .. | .brick ..
  | .courseBegin .. | .courseEnd .. | .courseAbort .. | .courseClose | .abortComplete | .courseWaitResume ..
  | .startBeatReached .. | .unplaceableTimeout .. | .standstill | .starveLimitReached .. | .hostHold ..
  | .masonSelection .. | .assignmentInForce .. | .plumeGuard .. | .trailSliceClose .. | .trailSliceExpire ..
  | .holdPass .. | .remnantReady .. | .stopSegmentDone .. | .brickEnd .. | .vectorRefillDone .. | .gridLoad ..
  | .gridSwap .. | .gridSwapEffect .. | .seamOffer .. | .channelEnable .. | .channelDisable .. | .armingComplete ..
  | .armingTimeout .. | .alarmQualified .. | .readyQualified .. | .padReadbackMismatch .. | .dacComplianceLoss ..
  | .channelFaultClear .. | .safeInLow | .safeInQualified | .heartbeatBoundary | .safeKick .. | .kickTimeoutExpiry
  | .beaconReport .. | .beaconUnverifiedTimeout .. | .dacUpdate .. | .mpmSample .. | .brQualReached ..
  | .lowBeatsReached .. | .satBeatsReached .. | .velocityTick .. | .positionTick .. | .currentDecision ..
  | .perrTicksReached .. | .stuckBeatsReached .. | .curSenseCountReached .. | .posQualReached ..
  | .gateReadbackMismatch .. | .acquireTimeoutExpiry .. | .srvCommitEffect | .axisEnable .. | .axisDisable ..
  | .axisFaultClear .. | .cameraPortEnable .. | .cameraPortDisable .. | .frameStart .. | .frameEnd .. | .longPacket ..
  | .dphySotError .. | .camFrameTimeout .. | .outputHoldTimeout .. | .capArm .. | .capStop .. | .tableLoad ..
  | .compress .. | .decompress .. | .codecJobRun | .codecDisable .. | .codecEnable .. | .dmaMove .. | .dmaEntryStart ..
  | .dmaAbort .. | .dmaChannelDisable .. | .dramReadReturn .. | .ddrEnable .. | .ddrDisable .. | .ddrRefresh ..
  | .ddrMr4Poll .. | .rowWindowEnd | .actLimitReached .. | .laneTestStart .. | .laneTestStop .. | .laneInject ..
  | .blPortEnable .. | .blPortDisable .. | .blLaneLock .. | .blAlignFound .. | .blAlignTimeout .. | .blHelloSend ..
  | .blHelloReceive .. | .blHelloTimeout .. | .blLinkLoss .. | .blLinkctl .. | .blFrameReceive .. | .timeFrameSend ..
  | .timeFrameReceive .. | .rootTimeout | .brickFrameReceive | .ctrlEntryReceive | .remnantFrameReceive
  | .fedResultReceive | .foreignEventReceive | .feedTimeoutExpiry .. | .fedStreamClose .. | .ethLinkRise ..
  | .ethLinkFall .. | .tmbSetWrite .. | .tmbStepWrite .. | .beatStart .. | .beatStartReached | .ptpMessageReceive ..
  | .ptpMeasurement .. | .syncTimeout .. | .freqUpdate | .statsEpoch | .tcapEdge .. | .launchArm .. | .launchCancel ..
  | .launchWindow .. | .launchSend .. | .axsMove .. | .home .. | .stop .. | .setPos .. | .axsEntryResume ..
  | .profileTick .. | .limitQualified .. | .homeQualified .. | .homeInputDeassert .. | .homeMaxReached ..
  | .stepperEnable .. | .stepperDisable .. | .lightSet .. | .lightLoad .. | .lightGroupOff .. | .lightFrame ..
  | .boostOutOfRange .. | .boostFaultClear .. | .ntcConversion .. | .lightingEnable .. | .lightingDisable ..
  | .lightClear .. | .thermalSample .. | .graceExpiry .. | .calRun .. | .calMeasurementStart | .calRunComplete ..
  | .calRecall .. | .pmpIdent .. | .regRead .. | .regWrite .. | .logRead .. | .imgBegin .. | .imgPiece .. | .imgStatus ..
  | .imgActivate .. | .fwHandover | .activateTimeout | .imgConfirm .. | .imgRevert .. | .pmpReset .. | .export_ ..
  | .exportComplete | .configGet .. | .configSet .. | .smbStatus | .smbIdent | .smbTemp | .smbCause
  | .resetSequenceComplete | .pciePerstN | .pcieConfigWrite .. | .pciePerstNRise | .resetNRise | .smbAlertResponse
  | .checkerLock .. | .checkerLockLoss .. | .readBackComplete .. | .announceReceiptTimeout .. | .ptpMessageSend .. => false

/-- The commands that reach the management block, THM, the power pins or the register agents, which also serve while the main domain is
held in reset (R28, R555). -/
def Instr.standby : Instr → Bool
  | .registerWrite .. | .lowerHalfWrite .. | .upperHalfWrite .. | .lowerHalfRead .. | .upperHalfRead .. | .thermalSample ..
  | .graceExpiry .. | .pmpIdent .. | .regRead .. | .regWrite .. | .logRead .. | .imgBegin .. | .imgPiece .. | .imgStatus ..
  | .imgActivate .. | .fwHandover | .activateTimeout | .imgConfirm .. | .imgRevert .. | .pmpReset .. | .export_ .. | .exportComplete
  | .configGet .. | .configSet .. | .smbStatus | .smbIdent | .smbTemp | .smbReset .. | .smbCause | .smbAlertResponse
  | .fullDeviceReset .. | .resetNLow .. | .resetNRise | .resetSequenceComplete | .standbyPowerGood .. | .standbyPowerLoss
  | .mainPgRise | .mainPgFall | .ref100Loss .. | .ref100Return | .pciePerstN | .pciePerstNRise => true
  | _ => false

/-- The register accesses. -/
def Instr.registerAccess : Instr → Bool
  | .registerWrite .. | .lowerHalfWrite .. | .upperHalfWrite .. | .lowerHalfRead .. | .upperHalfRead .. => true
  | _ => false

/-- The commands that name an SRAM address. -/
def Instr.sramAccess : Instr → Bool
  | .bar2Write .. | .bar2Read .. | .scrubRead .. => true
  | _ => false

end Sys2Proof
end

