-- ==== Sys2Proof/Laws/Keeps.lean ====
section
/-!
SUPPORT. The rules of `Keeps`, the frame relation of Safety.lean: it is reflexive, it goes through conditionals and folds, and changing
one part keeps every other.
-/
namespace Sys2Proof.Machine
set_option linter.all false

theorem Part.same_refl (p : Part) (d : Dev) : p.same d d := by cases p <;> exact rfl
theorem Part.same_trans (p : Part) {a b c : Dev} (h : p.same a b) (h' : p.same b c) : p.same a c := by
  cases p <;> exact Eq.trans h' h
/-! ## Growing merges -/

theorem Item.like_refl (x : Item) : x.like x := ⟨rfl, rfl, fun _ => rfl, rfl⟩
theorem Item.like_sub (x : Item) (n : Nat) : x.like { x with stamp.sub := n } := ⟨rfl, rfl, fun _ => rfl, rfl⟩
theorem Item.like_trans {x y z : Item} (h : x.like y) (h' : y.like z) : x.like z := by
  refine ⟨h'.kind.trans h.kind, h'.code.trans h.code, fun hc => (h'.detail (by rw [h.code]; exact hc)).trans (h.detail hc), ?_⟩
  have h1 := h.rest
  have h2 := h'.rest
  simp only [Prod.mk.injEq] at h1 h2 ⊢
  refine ⟨h2.1.trans h1.1, h2.2.1.trans h1.2.1, ?_⟩
  rw [h2.2.2, h1.2.2]
theorem Grows.refl (a : List Item) : Grows a a := ⟨fun x hx => ⟨x, hx, x.like_refl⟩⟩
theorem Grows.trans {a b c : List Item} (h : Grows a b) (h' : Grows b c) : Grows a c := ⟨fun x hx =>
  let ⟨y, hy, hl⟩ := h.all x hx
  let ⟨z, hz, hl'⟩ := h'.all y hy
  ⟨z, hz, Item.like_trans hl hl'⟩⟩

theorem mem_insertItem (x y : Item) : ∀ l : List Item, y ∈ insertItem x l ↔ y = x ∨ y ∈ l
  | [] => by simp [insertItem]
  | z :: t => by
    unfold insertItem
    split
    · simp
    · rw [List.mem_cons, mem_insertItem x y t, List.mem_cons]
      constructor <;> rintro (h | h | h) <;> simp [h]

theorem renumber_like : ∀ (l : List Item) (n : Nat) (x : Item), x ∈ l → ∃ y ∈ renumber n l, x.like y
  | z :: t, n, x, h => by
    unfold renumber
    rcases List.mem_cons.mp h with rfl | h
    · exact ⟨_, List.mem_cons_self, Item.like_sub _ _⟩
    · obtain ⟨y, hy, hl⟩ := renumber_like t (n + 1) x h
      exact ⟨y, List.mem_cons_of_mem _ hy, hl⟩

theorem mem_insertByUnit (x y : Item) : ∀ l : List Item, y ∈ insertByUnit x l ↔ y = x ∨ y ∈ l
  | [] => by simp [insertByUnit]
  | z :: t => by
    unfold insertByUnit
    split
    · simp
    · rw [List.mem_cons, mem_insertByUnit x y t, List.mem_cons]
      constructor <;> rintro (h | h | h) <;> simp [h]

theorem mem_foldl_insert (y : Item) : ∀ (l m : List Item), y ∈ l.foldl (fun m z => insertItem z m) m ↔ y ∈ l ∨ y ∈ m
  | [], m => by simp
  | z :: t, m => by
    rw [List.foldl_cons, mem_foldl_insert y t, mem_insertItem, List.mem_cons]
    exact or_left_comm.trans or_assoc.symm

/-- An added event stands in the merge, and so does everything that stood there, but for SUB numbers. -/
theorem addEvent_like (ev : Stream) (x y : Item) (h : y = x ∨ y ∈ ev.merge) : ∃ z ∈ (addEvent ev x).merge, y.like z := by
  unfold addEvent
  dsimp only
  by_cases hs : y = x ∨ sameInstant x y = true
  · have hm : y ∈ insertByUnit x (ev.merge.filter (sameInstant x)) := by
      rw [mem_insertByUnit]
      rcases hs with rfl | hs
      · exact .inl rfl
      · rcases h with rfl | h
        · exact .inl rfl
        · exact .inr (List.mem_filter.mpr ⟨h, hs⟩)
    obtain ⟨z, hz, hl⟩ := renumber_like _ 0 y hm
    exact ⟨z, (mem_foldl_insert z _ _).mpr (.inl hz), hl⟩
  · have h2 : y ∈ ev.merge := by
      rcases h with rfl | h
      · exact absurd (.inl rfl) hs
      · exact h
    refine ⟨y, (mem_foldl_insert y _ _).mpr (.inr (List.mem_filter.mpr ⟨h2, ?_⟩)), y.like_refl⟩
    simpa using fun h => hs (.inr h)

theorem Grows.insert (x : Item) (l : List Item) : Grows l (insertItem x l) :=
  ⟨fun y hy => ⟨y, (mem_insertItem _ _ _).mpr (.inr hy), y.like_refl⟩⟩
theorem Grows.count {p : Item → Bool} {n : Nat} (hp : ∀ x, p x = true → x.code = 0xC009) (l : List Item) :
    Grows l (l.map (fun x => if p x then { x with detail := n } else x)) := by
  refine ⟨fun y hy => ⟨_, List.mem_map_of_mem hy, ?_⟩⟩
  split
  · rename_i h
    exact ⟨rfl, rfl, fun hc => absurd (hp y h) hc, rfl⟩
  · exact y.like_refl
theorem Grows.event (ev : Stream) (x : Item) : Grows ev.merge (addEvent ev x).merge := ⟨fun y hy => addEvent_like ev x y (.inr hy)⟩

/-! ## The rules of `Keeps` -/

theorem Keeps.refl (w : List Part) (d : Dev) : Keeps w d d := ⟨fun p _ => p.same_refl d, id, fun _ => Grows.refl _⟩
theorem Keeps.step {v w : List Part} {d0 d d' : Dev} (h : Keeps v d d') (hs : v.all (fun p => w.contains p) = true)
    (h0 : Keeps w d0 d) : Keeps w d0 d' := by
  have hv : ∀ p, p ∉ w → p ∉ v := fun p hp hm => hp (by simpa using List.all_eq_true.mp hs p hm)
  exact ⟨fun p hp => p.same_trans (h0.same p hp) (h.same p (hv p hp)), fun hr => h.regs (h0.regs hr),
    fun ht => (h0.adds ht).trans (h.adds (hv _ ht))⟩
theorem Keeps.ite {w : List Part} {d0 a b : Dev} {c : Prop} [Decidable c] (ha : Keeps w d0 a) (hb : Keeps w d0 b) :
    Keeps w d0 (if c then a else b) := by split <;> assumption
theorem Keeps.elim {α : Type} {w : List Part} {d0 d : Dev} {f : α → Dev} (o : Option α) (h : Keeps w d0 d) (hf : ∀ x, Keeps w d0 (f x)) :
    Keeps w d0 (o.elim d f) := by cases o with | none => exact h | some x => exact hf x
theorem Keeps.cut {w : List Part} {d0 : Dev} (x : Dev) {y : Dev} (hx : Keeps w d0 x) (h : Keeps w d0 x → Keeps w d0 y) :
    Keeps w d0 y := h hx
theorem Keeps.cutR {α : Type} {w : List Part} {d0 : Dev} (x : α × Dev) {y : Dev} (hx : Keeps w d0 x.2)
    (h : Keeps w d0 x.2 → Keeps w d0 y) : Keeps w d0 y := h hx
theorem Keeps.cutL {α : Type} {w : List Part} {d0 : Dev} (x : Dev × α) {y : Dev} (hx : Keeps w d0 x.1)
    (h : Keeps w d0 x.1 → Keeps w d0 y) : Keeps w d0 y := h hx
theorem Keeps.hold {α : Type} {p : Prop} (_ : α) (h : p) : p := h
theorem Keeps.foldl {α : Type} {w : List Part} {d0 d : Dev} {f : Dev → α → Dev} (l : List α)
    (hf : ∀ d x, Keeps w d0 d → Keeps w d0 (f d x)) (h : Keeps w d0 d) : Keeps w d0 (l.foldl f d) := by
  induction l generalizing d with
  | nil => exact h
  | cons x t ih => exact ih (hf d x h)
theorem Keeps.forRange {w : List Part} {d0 d : Dev} {f : Dev → Nat → Dev} (n : Nat)
    (hf : ∀ d x, Keeps w d0 d → Keeps w d0 (f d x)) (h : Keeps w d0 d) : Keeps w d0 (forRange n d f) :=
  Keeps.foldl _ hf h
theorem Keeps.foldlR {α β : Type} {w : List Part} {d0 : Dev} {s : β × Dev} {f : β × Dev → α → β × Dev} (l : List α)
    (hf : ∀ s x, Keeps w d0 s.2 → Keeps w d0 (f s x).2) (h : Keeps w d0 s.2) : Keeps w d0 (l.foldl f s).2 := by
  induction l generalizing s with
  | nil => exact h
  | cons x t ih => exact ih (hf s x h)
theorem Keeps.forRangeR {β : Type} {w : List Part} {d0 : Dev} {s : β × Dev} {f : β × Dev → Nat → β × Dev} (n : Nat)
    (hf : ∀ s x, Keeps w d0 s.2 → Keeps w d0 (f s x).2) (h : Keeps w d0 s.2) : Keeps w d0 (Machine.forRange n s f).2 :=
  Keeps.foldlR _ hf h
theorem Keeps.pairR {α : Type} {w : List Part} {d0 d : Dev} {x : α × Dev} {a : α} (e : x = (a, d)) (h : Keeps w d0 x.2) :
    Keeps w d0 d := by subst e; exact h
theorem Keeps.pairL {α : Type} {w : List Part} {d0 d : Dev} {x : Dev × α} {a : α} (e : x = (d, a)) (h : Keeps w d0 x.1) :
    Keeps w d0 d := by subst e; exact h
theorem Keeps.pair3 {α β : Type} {w : List Part} {d0 d : Dev} {x : α × Dev × β} {a : α} {b : β} (e : x = (a, d, b))
    (h : Keeps w d0 x.2.1) : Keeps w d0 d := by subst e; exact h
theorem Keeps.iteR {α : Type} {w : List Part} {d0 : Dev} {a b : α × Dev} {c : Prop} [Decidable c] (ha : Keeps w d0 a.2)
    (hb : Keeps w d0 b.2) : Keeps w d0 (if c then a else b).2 := by split <;> assumption
theorem Keeps.iteL {α : Type} {w : List Part} {d0 : Dev} {a b : Dev × α} {c : Prop} [Decidable c] (ha : Keeps w d0 a.1)
    (hb : Keeps w d0 b.1) : Keeps w d0 (if c then a else b).1 := by split <;> assumption
/-- Every part but those of `w` is the same in what the computation answers, if it answers. -/
structure KeepsO (w : List Part) (d : Dev) (o : Option Dev) : Prop where
  keeps : ∀ d', o = some d' → Keeps w d d'
theorem KeepsO.none (w : List Part) (d : Dev) : KeepsO w d none := ⟨fun _ h => by cases h⟩
theorem KeepsO.some {w : List Part} {d d' : Dev} (h : Keeps w d d') : KeepsO w d (some d') := ⟨fun _ e => by cases e; exact h⟩
theorem KeepsO.step {v w : List Part} {d0 d : Dev} {o : Option Dev} (h : KeepsO v d o)
    (hs : v.all (fun p => w.contains p) = true) (h0 : Keeps w d0 d) : KeepsO w d0 o :=
  ⟨fun d' e => Keeps.step (h.keeps d' e) hs h0⟩
theorem KeepsO.getD {w : List Part} {d0 d : Dev} {o : Option Dev} (h : KeepsO w d0 o) (h0 : Keeps w d0 d) :
    Keeps w d0 (o.getD d) := by
  cases o with
  | none => exact h0
  | some x => exact h.keeps x rfl
theorem Keeps.ofOpt {w : List Part} {d0 d : Dev} {o : Option Dev} (e : o = some d) (h : KeepsO w d0 o) : Keeps w d0 d :=
  h.keeps d e
theorem Keeps.ofOpt3 {α β : Type} {w : List Part} {d0 d : Dev} {o : Option (α × β × Dev)} {a : α} {b : β}
    (e : o = some (a, b, d)) (h : KeepsO w d0 (o.map (fun x => x.2.2))) : Keeps w d0 d :=
  h.keeps d (by rw [e]; rfl)
/-- Every part but those of `w` is the same in what a planning step answers, if it planned. -/
structure KeepsP (w : List Part) (d : Dev) (r : PlanStep) : Prop where
  keeps : ∀ d', r = .planned d' → Keeps w d d'
theorem KeepsP.starved (w : List Part) (d : Dev) : KeepsP w d .starved := ⟨fun _ h => by cases h⟩
theorem KeepsP.nothing (w : List Part) (d : Dev) : KeepsP w d .nothing := ⟨fun _ h => by cases h⟩
theorem KeepsP.planned {w : List Part} {d d' : Dev} (h : Keeps w d d') : KeepsP w d (.planned d') := ⟨fun _ e => by cases e; exact h⟩
theorem KeepsP.step {v w : List Part} {d0 d : Dev} {r : PlanStep} (h : KeepsP v d r)
    (hs : v.all (fun p => w.contains p) = true) (h0 : Keeps w d0 d) : KeepsP w d0 r :=
  ⟨fun d' e => Keeps.step (h.keeps d' e) hs h0⟩
theorem Keeps.ofPlan {w : List Part} {d0 d : Dev} {r : PlanStep} (e : r = .planned d) (h : KeepsP w d0 r) : Keeps w d0 d :=
  h.keeps d e
theorem Keeps.cutP {w : List Part} {d0 : Dev} (x : Dev) {y : PlanStep} (hx : Keeps w d0 x) (h : Keeps w d0 x → KeepsP w d0 y) :
    KeepsP w d0 y := h hx
theorem Keeps.cutO {w : List Part} {d0 : Dev} (x : Dev) {y : Option Dev} (hx : Keeps w d0 x) (h : Keeps w d0 x → KeepsO w d0 y) :
    KeepsO w d0 y := h hx
/-! ## The canonical form of the register file -/

theorem keysRise_above {k q v dflt : Nat} (hq : k < q) :
    ∀ m : FieldMap, Assoc.above k m = true → Assoc.above k (Assoc.put m q v dflt) = true := Assoc.above_put k q v dflt hq
theorem keysRise_put (q v dflt : Nat) : ∀ m : FieldMap, keysRise m = true → keysRise (Assoc.put m q v dflt) = true
  | [], _ => by by_cases h : v = dflt <;> simp [Assoc.put, h, keysRise, Assoc.above]
  | (k, x) :: t, h => by
    simp only [keysRise, Bool.and_eq_true] at h
    obtain ⟨ha, ht⟩ := h
    unfold Assoc.put
    split
    · rename_i hlt
      split
      · simp [keysRise, ha, ht]
      · simp [keysRise, Assoc.above_cons, ha, ht, hlt, Assoc.above_of_le (Nat.le_of_lt hlt) ha]
    · split
      · rename_i hge heq
        subst heq
        split
        · exact ht
        · simp [keysRise, ha, ht]
      · rename_i hge hne
        simp [keysRise, keysRise_above (show k < q by omega) t ha, keysRise_put q v dflt t ht]
theorem keysRise_filter (p : Nat × Nat → Bool) : ∀ m : FieldMap, keysRise m = true → keysRise (m.filter p) = true
  | [], _ => rfl
  | x :: t, h => by
    simp only [keysRise, Bool.and_eq_true] at h
    rw [List.filter_cons]
    split
    · simp [keysRise, Assoc.above_filter x.1 p t h.1, keysRise_filter p t h.2]
    · exact keysRise_filter p t h.2
theorem keysRise_foldl_put {α : Type} (key val dflt : α → Nat) : ∀ (l : List α) (m : FieldMap), keysRise m = true →
    keysRise (l.foldl (fun m x => Assoc.put m (key x) (val x) (dflt x)) m) = true
  | [], _, h => h
  | x :: t, m, h => keysRise_foldl_put key val dflt t _ (keysRise_put _ _ _ m h)

/-! ## One changed part -/

theorem keeps_insert (d : Dev) (x : Item) : Keeps [.merge] d { d with ev.merge := insertItem x d.ev.merge } := by
  refine ⟨fun p hp => ?_, id, fun _ => Grows.insert _ _⟩; cases p <;> first | exact absurd (by decide) hp | exact rfl
theorem keeps_rolBeat (d : Dev) (v : Int) : Keeps [.rolBeat] d { d with regs.rolBeat := v } := by
  refine ⟨fun p hp => ?_, fun hr => hr, fun _ => Grows.refl _⟩; cases p <;> first | exact absurd (by decide) hp | exact rfl
theorem keeps_out (d : Dev) (v : List Out) : Keeps [.out] d { d with ev.out := v } := by
  refine ⟨fun p hp => ?_, fun hr => hr, fun _ => Grows.refl _⟩; cases p <;> first | exact absurd (by decide) hp | exact rfl
theorem keeps_freeCount (d : Dev) (v : Nat) : Keeps [.freeCount] d { d with freeCount := v } := by
  refine ⟨fun p hp => ?_, fun hr => hr, fun _ => Grows.refl _⟩; cases p <;> first | exact absurd (by decide) hp | exact rfl
theorem keeps_hst (d : Dev) (v : Hst) : Keeps [.hst] d { d with hst := v } := by
  refine ⟨fun p hp => ?_, fun hr => hr, fun _ => Grows.refl _⟩; cases p <;> first | exact absurd (by decide) hp | exact rfl
theorem keeps_lnk (d : Dev) (v : Lnk) : Keeps [.lnk] d { d with lnk := v } := by
  refine ⟨fun p hp => ?_, fun hr => hr, fun _ => Grows.refl _⟩; cases p <;> first | exact absurd (by decide) hp | exact rfl
theorem keeps_crs (d : Dev) (v : Course) : Keeps [.crs] d { d with crs := v } := by
  refine ⟨fun p hp => ?_, fun hr => hr, fun _ => Grows.refl _⟩; cases p <;> first | exact absurd (by decide) hp | exact rfl
theorem keeps_msn (d : Dev) (v : Msn) : Keeps [.msn] d { d with msn := v } := by
  refine ⟨fun p hp => ?_, fun hr => hr, fun _ => Grows.refl _⟩; cases p <;> first | exact absurd (by decide) hp | exact rfl
theorem keeps_pth (d : Dev) (v : Pth) : Keeps [.pth] d { d with pth := v } := by
  refine ⟨fun p hp => ?_, fun hr => hr, fun _ => Grows.refl _⟩; cases p <;> first | exact absurd (by decide) hp | exact rfl
theorem keeps_lsr (d : Dev) (v : Lsr) : Keeps [.lsr] d { d with lsr := v } := by
  refine ⟨fun p hp => ?_, fun hr => hr, fun _ => Grows.refl _⟩; cases p <;> first | exact absurd (by decide) hp | exact rfl
theorem keeps_mpm (d : Dev) (v : Mpm) : Keeps [.mpm] d { d with mpm := v } := by
  refine ⟨fun p hp => ?_, fun hr => hr, fun _ => Grows.refl _⟩; cases p <;> first | exact absurd (by decide) hp | exact rfl
theorem keeps_srv (d : Dev) (v : Srv) : Keeps [.srv] d { d with srv := v } := by
  refine ⟨fun p hp => ?_, fun hr => hr, fun _ => Grows.refl _⟩; cases p <;> first | exact absurd (by decide) hp | exact rfl
theorem keeps_safe (d : Dev) (v : Safety) : Keeps [.safe] d { d with safe := v } := by
  refine ⟨fun p hp => ?_, fun hr => hr, fun _ => Grows.refl _⟩; cases p <;> first | exact absurd (by decide) hp | exact rfl
theorem keeps_cam (d : Dev) (v : Cam) : Keeps [.cam] d { d with cam := v } := by
  refine ⟨fun p hp => ?_, fun hr => hr, fun _ => Grows.refl _⟩; cases p <;> first | exact absurd (by decide) hp | exact rfl
theorem keeps_cdc (d : Dev) (v : Cdc) : Keeps [.cdc] d { d with cdc := v } := by
  refine ⟨fun p hp => ?_, fun hr => hr, fun _ => Grows.refl _⟩; cases p <;> first | exact absurd (by decide) hp | exact rfl
theorem keeps_dma (d : Dev) (v : Dma) : Keeps [.dma] d { d with dma := v } := by
  refine ⟨fun p hp => ?_, fun hr => hr, fun _ => Grows.refl _⟩; cases p <;> first | exact absurd (by decide) hp | exact rfl
theorem keeps_memc (d : Dev) (v : Memc) : Keeps [.memc] d { d with memc := v } := by
  refine ⟨fun p hp => ?_, fun hr => hr, fun _ => Grows.refl _⟩; cases p <;> first | exact absurd (by decide) hp | exact rfl
theorem keeps_tmb (d : Dev) (v : Tmb) : Keeps [.tmb] d { d with tmb := v } := by
  refine ⟨fun p hp => ?_, fun hr => hr, fun _ => Grows.refl _⟩; cases p <;> first | exact absurd (by decide) hp | exact rfl
theorem keeps_axs (d : Dev) (v : Axs) : Keeps [.axs] d { d with axs := v } := by
  refine ⟨fun p hp => ?_, fun hr => hr, fun _ => Grows.refl _⟩; cases p <;> first | exact absurd (by decide) hp | exact rfl
theorem keeps_lgt (d : Dev) (v : Lgt) : Keeps [.lgt] d { d with lgt := v } := by
  refine ⟨fun p hp => ?_, fun hr => hr, fun _ => Grows.refl _⟩; cases p <;> first | exact absurd (by decide) hp | exact rfl
theorem keeps_thm (d : Dev) (v : Thm) : Keeps [.thm] d { d with thm := v } := by
  refine ⟨fun p hp => ?_, fun hr => hr, fun _ => Grows.refl _⟩; cases p <;> first | exact absurd (by decide) hp | exact rfl
theorem keeps_cal (d : Dev) (v : Cal) : Keeps [.cal] d { d with cal := v } := by
  refine ⟨fun p hp => ?_, fun hr => hr, fun _ => Grows.refl _⟩; cases p <;> first | exact absurd (by decide) hp | exact rfl
theorem keeps_pwr (d : Dev) (v : Power) : Keeps [.pwr] d { d with pwr := v } := by
  refine ⟨fun p hp => ?_, fun hr => hr, fun _ => Grows.refl _⟩; cases p <;> first | exact absurd (by decide) hp | exact rfl
theorem keeps_replies (d : Dev) (v : List Reply) : Keeps [.replies] d { d with mgt.replies := v } := by
  refine ⟨fun p hp => ?_, fun hr => hr, fun _ => Grows.refl _⟩; cases p <;> first | exact absurd (by decide) hp | exact rfl
theorem keeps_exporting (d : Dev) (v : Option Export) : Keeps [.exporting] d { d with mgt.exporting := v } := by
  refine ⟨fun p hp => ?_, fun hr => hr, fun _ => Grows.refl _⟩; cases p <;> first | exact absurd (by decide) hp | exact rfl
theorem keeps_slots (d : Dev) (v : Vector FwSlot 2) : Keeps [.slots] d { d with mgt.slots := v } := by
  refine ⟨fun p hp => ?_, fun hr => hr, fun _ => Grows.refl _⟩; cases p <;> first | exact absurd (by decide) hp | exact rfl
theorem keeps_act (d : Dev) (v : Option Activation) : Keeps [.act] d { d with mgt.act := v } := by
  refine ⟨fun p hp => ?_, fun hr => hr, fun _ => Grows.refl _⟩; cases p <;> first | exact absurd (by decide) hp | exact rfl
theorem Dev.withCal_keeps {w : List Part} {d0 d : Dev} {n op : Nat} {f : Dev → Entry → Dev} (_ : w.contains .hst = true)
    (hf : ∀ d e, Keeps w d0 d → Keeps w d0 (f d e)) (h : Keeps w d0 d) : Keeps w d0 (d.withCal n op f) := by
  unfold Dev.withCal
  repeat' split
  all_goals first | exact h | exact hf _ _ h
theorem Dev.withCapture_keeps {w : List Part} {d0 d : Dev} {n op : Nat} {f : Dev → Entry → Nat → Dev} (_ : w.contains .hst = true)
    (hf : ∀ d e c, Keeps w d0 d → Keeps w d0 (f d e c)) (h : Keeps w d0 d) : Keeps w d0 (d.withCapture n op f) := by
  unfold Dev.withCapture
  repeat' split
  all_goals first | exact h | exact hf _ _ _ h
end Sys2Proof.Machine
end

