-- ==== Sys2Proof/Laws/KeepsOps.lean ====
section
/-!
SUPPORT. Frames of the operations, domain time and the host interface: one lemma per function that answers a
device, saying which parts it may change.
-/
namespace Sys2Proof.Machine
set_option linter.all false

/-! ## Ops -/

theorem Dev.setCount_keeps (d : Dev) (a1 : Field) (a2 : Nat) (a3 : Nat) (a4 : Nat) : Keeps [.cnt] d (Dev.setCount d a1 a2 a3 a4) := by
  unfold Dev.setCount
  repeat' (first
    | with_reducible exact Keeps.refl _ _
    | (refine ⟨fun p hp => ?_, fun hr => by simp only [RegFile.wf, Bool.and_eq_true] at hr ⊢; simp [hr, keysRise_put, keysRise_filter], fun _ => Grows.refl _⟩; cases p <;> first | exact absurd (by decide) hp | apply Eq.refl))

theorem Dev.bump_keeps (d : Dev) (a1 : Field) (a2 : Nat) (a3 : Nat) (a4 : Nat) : Keeps [.cnt] d (Dev.bump d a1 a2 a3 a4) := by
  unfold Dev.bump
  repeat' (first
    | with_reducible exact Keeps.refl _ _
    | (with_reducible apply Keeps.step (Dev.setCount_keeps ..); · decide)
    | (refine ⟨fun p hp => ?_, fun hr => hr, fun _ => Grows.refl _⟩; cases p <;> first | exact absurd (by decide) hp | apply Eq.refl))

theorem Dev.passOn_keeps (d : Dev) (a1 : Nat) : Keeps [.hst] d (Dev.passOn d a1) := by
  unfold Dev.passOn
  repeat' (first
    | with_reducible exact Keeps.refl _ _
    | (refine ⟨fun p hp => ?_, fun hr => hr, fun _ => Grows.refl _⟩; cases p <;> first | exact absurd (by decide) hp | apply Eq.refl))

theorem Dev.updRing_keeps (d : Dev) (a1 : Nat) (a2 : Ring → Ring) : Keeps [.hst] d (Dev.updRing d a1 a2) := by
  unfold Dev.updRing
  repeat' (first
    | with_reducible exact Keeps.refl _ _
    | (refine ⟨fun p hp => ?_, fun hr => hr, fun _ => Grows.refl _⟩; cases p <;> first | exact absurd (by decide) hp | apply Eq.refl))

theorem Dev.complete_keeps (d : Dev) (a1 : Entry) (a2 : Nat) (a3 : Nat) (a4 : Nat) (a5 : (List W64)) : Keeps [.merge, .hst] d (Dev.complete d a1 a2 a3 a4 a5) := by
  unfold Dev.complete
  dsimp only
  refine Keeps.step (Dev.passOn_keeps ..) (by decide) (Keeps.step (Dev.updRing_keeps ..) (by decide) ?_)
  split
  · exact Keeps.refl _ _
  · refine ⟨fun p hp => ?_, fun hr => hr, fun _ => Grows.insert _ _⟩
    cases p <;> first | exact absurd (by decide) hp | apply Eq.refl

theorem Dev.pop_keeps (d : Dev) (a1 : Nat) : Keeps [.hst] d (Dev.pop d a1) := by
  unfold Dev.pop
  repeat' (first
    | with_reducible exact Keeps.refl _ _
    | (with_reducible apply Keeps.step (Dev.updRing_keeps ..); · decide)
    | (refine ⟨fun p hp => ?_, fun hr => hr, fun _ => Grows.refl _⟩; cases p <;> first | exact absurd (by decide) hp | apply Eq.refl))

theorem Dev.logEvent_keeps (d : Dev) (a1 : Item) : Keeps [.log] d (Dev.logEvent d a1) := by
  unfold Dev.logEvent
  repeat' (first
    | with_reducible exact Keeps.refl _ _
    | (refine ⟨fun p hp => ?_, fun hr => hr, fun _ => Grows.refl _⟩; cases p <;> first | exact absurd (by decide) hp | apply Eq.refl))

theorem Dev.raise_keeps (d : Dev) (a1 : Nat) (a2 : Nat) (a3 : Nat) (a4 : Nat) (a5 : (List W64)) : Keeps [.merge, .log] d (Dev.raise d a1 a2 a3 a4 a5) := by
  unfold Dev.raise
  dsimp only
  split
  · refine ⟨fun p hp => ?_, fun hr => hr, fun _ => Grows.event _ _⟩
    cases p <;> first | exact absurd (by decide) hp | apply Eq.refl
  · exact Keeps.step (Dev.logEvent_keeps ..) (by decide) (Keeps.refl _ _)

theorem Dev.setFlag_keeps (d : Dev) (a1 : Field) (a2 : Nat) (a3 : Nat) (a4 : Nat) : Keeps [.w1c] d (Dev.setFlag d a1 a2 a3 a4) := by
  unfold Dev.setFlag
  repeat' (first
    | with_reducible exact Keeps.refl _ _
    | (refine ⟨fun p hp => ?_, fun hr => by simp only [RegFile.wf, Bool.and_eq_true] at hr ⊢; simp [hr, keysRise_put, keysRise_filter], fun _ => Grows.refl _⟩; cases p <;> first | exact absurd (by decide) hp | apply Eq.refl))

theorem Dev.orFlag_keeps (d : Dev) (a1 : Field) (a2 : Nat) (a3 : Nat) (a4 : Nat) : Keeps [.w1c] d (Dev.orFlag d a1 a2 a3 a4) := by
  unfold Dev.orFlag
  repeat' (first
    | with_reducible exact Keeps.refl _ _
    | (with_reducible apply Keeps.step (Dev.setFlag_keeps ..); · decide)
    | (refine ⟨fun p hp => ?_, fun hr => hr, fun _ => Grows.refl _⟩; cases p <;> first | exact absurd (by decide) hp | apply Eq.refl))

theorem Dev.refuse_keeps (d : Dev) (a1 : Field) (a2 : Nat) : Keeps [.w1c] d (Dev.refuse d a1 a2) := by
  unfold Dev.refuse
  repeat' (first
    | with_reducible exact Keeps.refl _ _
    | (with_reducible apply Keeps.step (Dev.orFlag_keeps ..); · decide)
    | (refine ⟨fun p hp => ?_, fun hr => hr, fun _ => Grows.refl _⟩; cases p <;> first | exact absurd (by decide) hp | apply Eq.refl))

theorem Dev.emit_keeps (d : Dev) (a1 : Out) : Keeps [.out] d (Dev.emit d a1) := by
  unfold Dev.emit
  repeat' (first
    | with_reducible exact Keeps.refl _ _
    | (refine ⟨fun p hp => ?_, fun hr => hr, fun _ => Grows.refl _⟩; cases p <;> first | exact absurd (by decide) hp | apply Eq.refl))

theorem Dev.setRw_keeps (d : Dev) (a1 : Field) (a2 : Nat) (a3 : Nat) (a4 : Nat) : Keeps [.rw] d (Dev.setRw d a1 a2 a3 a4) := by
  unfold Dev.setRw
  repeat' (first
    | with_reducible exact Keeps.refl _ _
    | (refine ⟨fun p hp => ?_, fun hr => by simp only [RegFile.wf, Bool.and_eq_true] at hr ⊢; simp [hr, keysRise_put, keysRise_filter], fun _ => Grows.refl _⟩; cases p <;> first | exact absurd (by decide) hp | apply Eq.refl))

theorem Dev.setShadow_keeps (d : Dev) (a1 : Field) (a2 : Nat) (a3 : Nat) (a4 : Nat) : Keeps [.shadow] d (Dev.setShadow d a1 a2 a3 a4) := by
  unfold Dev.setShadow
  repeat' (first
    | with_reducible exact Keeps.refl _ _
    | (refine ⟨fun p hp => ?_, fun hr => by simp only [RegFile.wf, Bool.and_eq_true] at hr ⊢; simp [hr, keysRise_put, keysRise_filter], fun _ => Grows.refl _⟩; cases p <;> first | exact absurd (by decide) hp | apply Eq.refl))

theorem Dev.store_keeps (d : Dev) (a1 : RegDef) (a2 : W64) (a3 : Nat) (a4 : Nat) : Keeps [.rw, .shadow, .w1c] d (Dev.store d a1 a2 a3 a4) := by
  unfold Dev.store
  repeat' (first
    | (extract_lets +onlyGivenNames x; first | (refine Keeps.cut x ?_ ?_; (unfold x; clear x); rotate_left; (clear_value x; revert x; intro _ h)) | (revert x; intro _))
    | with_reducible refine Keeps.foldl _ (fun _ _ h => ?_) ?_
    | with_reducible refine Keeps.forRange _ (fun _ _ h => ?_) ?_
    | with_reducible exact Keeps.refl _ _
    | with_reducible assumption
    | split
    | (with_reducible apply Keeps.step (Dev.setFlag_keeps ..); · decide)
    | (with_reducible apply Keeps.step (Dev.setRw_keeps ..); · decide)
    | (with_reducible apply Keeps.step (Dev.setShadow_keeps ..); · decide)
    | (refine ⟨fun p hp => ?_, ?_, ?_⟩; rotate_left; (first | exact fun hr => hr | exact h.regs); (first | exact fun _ => Grows.refl _ | exact h.adds); cases p <;> first | exact absurd (by decide) hp | apply Eq.refl | apply h.same _ hp))

theorem Dev.storeIf_keeps (d : Dev) (a1 : Field) (a2 : Bool) (a3 : RegDef) (a4 : W64) (a5 : Nat) (a6 : Nat) : Keeps [.rw, .shadow, .w1c] d (Dev.storeIf d a1 a2 a3 a4 a5 a6) := by
  unfold Dev.storeIf
  repeat' (first
    | with_reducible exact Keeps.refl _ _
    | split
    | (with_reducible apply Keeps.step (Dev.refuse_keeps ..); · decide)
    | (with_reducible apply Keeps.step (Dev.store_keeps ..); · decide))

theorem Dev.free_keeps (d : Dev) : Keeps [.freeCount] d (Dev.free d).2 := by
  unfold Dev.free
  repeat' (first
    | (extract_lets +onlyGivenNames x; first | (refine Keeps.cut x ?_ ?_; (unfold x; clear x); rotate_left; (clear_value x; revert x; intro _ h)) | (revert x; intro _))
    | with_reducible refine Keeps.foldl _ (fun _ _ h => ?_) ?_
    | with_reducible refine Keeps.forRange _ (fun _ _ h => ?_) ?_
    | with_reducible exact Keeps.refl _ _
    | with_reducible assumption
    | split
    | with_reducible refine Keeps.forRangeR _ (fun _ _ h => ?_) ?_
    | with_reducible refine Keeps.foldlR _ (fun _ _ h => ?_) ?_
    | with_reducible refine Keeps.iteR ?_ ?_
    | with_reducible refine Keeps.pairR (by assumption) ?_
    | with_reducible refine Keeps.pairL (by assumption) ?_
    | with_reducible refine Keeps.pair3 (by assumption) ?_
    | (refine ⟨fun p hp => ?_, ?_, ?_⟩; rotate_left; (first | exact fun hr => hr | exact h.regs); (first | exact fun _ => Grows.refl _ | exact h.adds); cases p <;> first | exact absurd (by decide) hp | apply Eq.refl | apply h.same _ hp)
    | intro _
    | (dsimp only)
    | with_reducible refine Keeps.step (keeps_freeCount ..) (by decide) ?_)

theorem Dev.setRwNow_keeps (d : Dev) (a1 : Field) (a2 : Nat) (a3 : Nat) (a4 : Nat) : Keeps [.rw, .rwAct] d (Dev.setRwNow d a1 a2 a3 a4) := by
  unfold Dev.setRwNow
  repeat' (first
    | with_reducible exact Keeps.refl _ _
    | (refine ⟨fun p hp => ?_, fun hr => by simp only [RegFile.wf, Bool.and_eq_true] at hr ⊢; simp [hr, keysRise_put, keysRise_filter], fun _ => Grows.refl _⟩; cases p <;> first | exact absurd (by decide) hp | apply Eq.refl))

theorem Dev.overrun_keeps (d : Dev) (a1 : Nat) (a2 : Nat) (a3 : Nat) (a4 : Nat) (a5 : (List W64)) : Keeps [.w1c, .merge, .log] d (Dev.overrun d a1 a2 a3 a4 a5) := by
  unfold Dev.overrun
  repeat' (first
    | with_reducible exact Keeps.refl _ _
    | (with_reducible apply Keeps.step (Dev.raise_keeps ..); · decide)
    | (with_reducible apply Keeps.step (Dev.orFlag_keeps ..); · decide)
    | (refine ⟨fun p hp => ?_, fun hr => hr, fun _ => Grows.refl _⟩; cases p <;> first | exact absurd (by decide) hp | apply Eq.refl))

theorem Dev.bumpSat_keeps (d : Dev) (a1 : Field) (a2 : Nat) : Keeps [.cnt] d (Dev.bumpSat d a1 a2) := by
  unfold Dev.bumpSat
  repeat' (first
    | with_reducible exact Keeps.refl _ _
    | (with_reducible apply Keeps.step (Dev.setCount_keeps ..); · decide)
    | (refine ⟨fun p hp => ?_, fun hr => hr, fun _ => Grows.refl _⟩; cases p <;> first | exact absurd (by decide) hp | apply Eq.refl))

theorem Dev.recordAt_keeps (d : Dev) (a1 : Stamp) (a2 : Nat) (a3 : Nat) (a4 : Nat) (a5 : (List W64)) : Keeps [.merge] d (Dev.recordAt d a1 a2 a3 a4 a5) := by
  unfold Dev.recordAt
  refine ⟨fun p hp => ?_, fun hr => hr, fun _ => Grows.insert _ _⟩
  cases p <;> first | exact absurd (by decide) hp | apply Eq.refl

theorem Dev.record_keeps (d : Dev) (a1 : Nat) (a2 : Nat) (a3 : Nat) (a4 : List W64) : Keeps [.merge] d (Dev.record d a1 a2 a3 a4) := by
  unfold Dev.record
  repeat' (first
    | with_reducible exact Keeps.refl _ _
    | (with_reducible apply Keeps.step (Dev.recordAt_keeps ..); · decide)
    | (refine ⟨fun p hp => ?_, fun hr => hr, fun _ => Grows.refl _⟩; cases p <;> first | exact absurd (by decide) hp | apply Eq.refl))

theorem Dev.workFor_keeps (d : Dev) (a1 : List Nat) : Keeps [.pwr] d (Dev.workFor d a1) := by
  unfold Dev.workFor
  repeat' (first
    | (extract_lets +onlyGivenNames x; first | (refine Keeps.cut x ?_ ?_; (unfold x; clear x); rotate_left; (clear_value x; revert x; intro _ h)) | (revert x; intro _))
    | with_reducible refine Keeps.foldl _ (fun _ _ h => ?_) ?_
    | with_reducible refine Keeps.forRange _ (fun _ _ h => ?_) ?_
    | with_reducible exact Keeps.refl _ _
    | with_reducible assumption
    | split
    | (refine ⟨fun p hp => ?_, ?_, ?_⟩; rotate_left; (first | exact fun hr => hr | exact h.regs); (first | exact fun _ => Grows.refl _ | exact h.adds); cases p <;> first | exact absurd (by decide) hp | apply Eq.refl | apply h.same _ hp))

theorem Dev.peak_keeps (d : Dev) (a1 : Field) (a2 : Nat) (a3 : Nat) (a4 : Nat) : Keeps [.cnt] d (Dev.peak d a1 a2 a3 a4) := by
  unfold Dev.peak
  repeat' (first
    | with_reducible exact Keeps.refl _ _
    | (with_reducible apply Keeps.step (Dev.setCount_keeps ..); · decide)
    | (refine ⟨fun p hp => ?_, fun hr => hr, fun _ => Grows.refl _⟩; cases p <;> first | exact absurd (by decide) hp | apply Eq.refl))

/-! ## Flags -/

theorem Dev.refuseBlock_keeps (d : Dev) (a1 : Nat) : Keeps [.w1c] d (Dev.refuseBlock d a1) := by
  unfold Dev.refuseBlock
  repeat' (first
    | with_reducible exact Keeps.refl _ _
    | split
    | (with_reducible apply Keeps.step (Dev.refuse_keeps ..); · decide))

/-! ## Hst -/

theorem Dev.signal_keeps (d : Dev) (a1 : Nat) : Keeps [.out, .hst] d (Dev.signal d a1) := by
  unfold Dev.signal
  repeat' (first
    | (extract_lets +onlyGivenNames x; first | (refine Keeps.cut x ?_ ?_; (unfold x; clear x); rotate_left; (clear_value x; revert x; intro _ h)) | (revert x; intro _))
    | with_reducible exact Keeps.refl _ _
    | with_reducible assumption
    | split
    | (with_reducible apply Keeps.step (Dev.emit_keeps ..); · decide)
    | (refine ⟨fun p hp => ?_, ?_, ?_⟩; rotate_left; (first | exact fun hr => hr | exact h.regs); (first | exact fun _ => Grows.refl _ | exact h.adds); cases p <;> first | exact absurd (by decide) hp | apply Eq.refl | apply h.same _ hp))

theorem Dev.ringSignal_keeps (d : Dev) (a1 : Nat) : Keeps [.out, .hst] d (Dev.ringSignal d a1) := by
  unfold Dev.ringSignal
  repeat' (first
    | with_reducible exact Keeps.refl _ _
    | (with_reducible apply Keeps.step (Dev.updRing_keeps ..); · decide)
    | (with_reducible apply Keeps.step (Dev.signal_keeps ..); · decide)
    | (refine ⟨fun p hp => ?_, fun hr => hr, fun _ => Grows.refl _⟩; cases p <;> first | exact absurd (by decide) hp | apply Eq.refl))

theorem Dev.writeEntry_keeps (d : Dev) (a1 : Nat) (a2 : Item) : Keeps [.cnt, .out, .hst] d (Dev.writeEntry d a1 a2) := by
  unfold Dev.writeEntry
  repeat' (first
    | (extract_lets +onlyGivenNames x; first | (refine Keeps.cut x ?_ ?_; (unfold x; clear x); rotate_left; (clear_value x; revert x; intro _ h)) | (revert x; intro _))
    | with_reducible exact Keeps.refl _ _
    | with_reducible assumption
    | split
    | (with_reducible apply Keeps.step (Dev.bump_keeps ..); · decide)
    | (with_reducible apply Keeps.step (Dev.updRing_keeps ..); · decide)
    | (with_reducible apply Keeps.step (Dev.emit_keeps ..); · decide)
    | (with_reducible apply Keeps.step (Dev.ringSignal_keeps ..); · decide)
    | (refine ⟨fun p hp => ?_, ?_, ?_⟩; rotate_left; (first | exact fun hr => hr | exact h.regs); (first | exact fun _ => Grows.refl _ | exact h.adds); cases p <;> first | exact absurd (by decide) hp | apply Eq.refl | apply h.same _ hp))

theorem Dev.flushHeld_keeps (d : Dev) (a1 : Nat) (a2 : Nat) : Keeps [.cnt, .out, .hst] d (Dev.flushHeld d a1 a2) := by
  induction a2 generalizing d with
  | zero => unfold Dev.flushHeld; exact Keeps.refl _ _
  | succ k ih =>
    unfold Dev.flushHeld
    repeat' (first
      | (extract_lets +onlyGivenNames x; first | (refine Keeps.cut x ?_ ?_; (unfold x; clear x); rotate_left; (clear_value x; revert x; intro _ h)) | (revert x; intro _))
      | with_reducible refine Keeps.foldl _ (fun _ _ h => ?_) ?_
      | with_reducible refine Keeps.forRange _ (fun _ _ h => ?_) ?_
      | with_reducible exact Keeps.refl _ _
      | with_reducible assumption
      | split
      | (with_reducible apply Keeps.step (Dev.updRing_keeps ..); · decide)
      | (with_reducible apply Keeps.step (Dev.writeEntry_keeps ..); · decide)
      | with_reducible refine Keeps.step (ih ..) (by decide) ?_
      | with_reducible refine Keeps.pairR (by assumption) ?_
      | with_reducible refine Keeps.pairL (by assumption) ?_
      | with_reducible refine Keeps.pair3 (by assumption) ?_
      | (refine ⟨fun p hp => ?_, ?_, ?_⟩; rotate_left; (first | exact fun hr => hr | exact h.regs); (first | exact fun _ => Grows.refl _ | exact h.adds); cases p <;> first | exact absurd (by decide) hp | apply Eq.refl | apply h.same _ hp)
      | intro _
      | (dsimp only))

theorem Dev.flushRings_keeps (d : Dev) : Keeps [.cnt, .out, .hst] d (Dev.flushRings d) := by
  unfold Dev.flushRings
  repeat' (first
    | (extract_lets +onlyGivenNames x; first | (refine Keeps.cut x ?_ ?_; (unfold x; clear x); rotate_left; (clear_value x; revert x; intro _ h)) | (revert x; intro _))
    | with_reducible refine Keeps.foldl _ (fun _ _ h => ?_) ?_
    | with_reducible refine Keeps.forRange _ (fun _ _ h => ?_) ?_
    | with_reducible exact Keeps.refl _ _
    | with_reducible assumption
    | split
    | (with_reducible apply Keeps.step (Dev.flushHeld_keeps ..); · decide)
    | (refine ⟨fun p hp => ?_, ?_, ?_⟩; rotate_left; (first | exact fun hr => hr | exact h.regs); (first | exact fun _ => Grows.refl _ | exact h.adds); cases p <;> first | exact absurd (by decide) hp | apply Eq.refl | apply h.same _ hp))

theorem Dev.hstErrIrq_keeps (d : Dev) (a1 : Item) : Keeps [.out, .hst] d (Dev.hstErrIrq d a1) := by
  unfold Dev.hstErrIrq
  repeat' (first
    | with_reducible exact Keeps.refl _ _
    | split
    | (with_reducible apply Keeps.step (Dev.signal_keeps ..); · decide))

theorem Dev.loseEntry_keeps (d : Dev) (a1 : Nat) (a2 : Item) : Keeps [.cnt, .hst] d (Dev.loseEntry d a1 a2) := by
  unfold Dev.loseEntry
  repeat' (first
    | with_reducible exact Keeps.refl _ _
    | (with_reducible apply Keeps.step (Dev.bump_keeps ..); · decide)
    | (with_reducible apply Keeps.step (Dev.updRing_keeps ..); · decide)
    | (refine ⟨fun p hp => ?_, fun hr => hr, fun _ => Grows.refl _⟩; cases p <;> first | exact absurd (by decide) hp | apply Eq.refl))

theorem Dev.deliver_keeps (d : Dev) (a1 : Nat) (a2 : Item) : Keeps [.cnt, .out, .hst] d (Dev.deliver d a1 a2) := by
  unfold Dev.deliver
  repeat' (first
    | (extract_lets +onlyGivenNames x; first | (refine Keeps.cut x ?_ ?_; (unfold x; clear x); rotate_left; (clear_value x; revert x; intro _ h)) | (revert x; intro _))
    | with_reducible exact Keeps.refl _ _
    | with_reducible assumption
    | split
    | (with_reducible apply Keeps.step (Dev.updRing_keeps ..); · decide)
    | (with_reducible apply Keeps.step (Dev.writeEntry_keeps ..); · decide)
    | (with_reducible apply Keeps.step (Dev.loseEntry_keeps ..); · decide))

theorem Dev.writeForeignRoute_keeps (d : Dev) (a1 : W64) : Keeps [.rw, .shadow, .w1c] d (Dev.writeForeignRoute d a1) := by
  unfold Dev.writeForeignRoute
  repeat' (first
    | with_reducible exact Keeps.refl _ _
    | (with_reducible apply Keeps.step (Dev.storeIf_keeps ..); · decide)
    | (refine ⟨fun p hp => ?_, fun hr => hr, fun _ => Grows.refl _⟩; cases p <;> first | exact absurd (by decide) hp | apply Eq.refl))

theorem Dev.ringError_keeps (d : Dev) (a1 : Nat) (a2 : Nat) (a3 : Nat) : Keeps [.cnt, .merge, .hst, .log] d (Dev.ringError d a1 a2 a3) := by
  unfold Dev.ringError
  repeat' (first
    | (extract_lets +onlyGivenNames x; first | (refine Keeps.cut x ?_ ?_; (unfold x; clear x); rotate_left; (clear_value x; revert x; intro _ h)) | (revert x; intro _))
    | with_reducible refine Keeps.foldl _ (fun _ _ h => ?_) ?_
    | with_reducible refine Keeps.forRange _ (fun _ _ h => ?_) ?_
    | with_reducible exact Keeps.refl _ _
    | with_reducible assumption
    | split
    | (with_reducible apply Keeps.step (Dev.bump_keeps ..); · decide)
    | (with_reducible apply Keeps.step (Dev.updRing_keeps ..); · decide)
    | (with_reducible apply Keeps.step (Dev.raise_keeps ..); · decide)
    | with_reducible refine Keeps.pairR (by assumption) ?_
    | with_reducible refine Keeps.pairL (by assumption) ?_
    | with_reducible refine Keeps.pair3 (by assumption) ?_
    | (refine ⟨fun p hp => ?_, ?_, ?_⟩; rotate_left; (first | exact fun hr => hr | exact h.regs); (first | exact fun _ => Grows.refl _ | exact h.adds); cases p <;> first | exact absurd (by decide) hp | apply Eq.refl | apply h.same _ hp)
    | intro _
    | (dsimp only))

theorem Dev.bodyFetchErr_keeps (d : Dev) (a1 : Entry) : Keeps [.cnt, .merge, .hst, .log] d (Dev.bodyFetchErr d a1) := by
  unfold Dev.bodyFetchErr
  repeat' (first
    | with_reducible exact Keeps.refl _ _
    | (with_reducible apply Keeps.step (Dev.complete_keeps ..); · decide)
    | (with_reducible apply Keeps.step (Dev.ringError_keeps ..); · decide)
    | (refine ⟨fun p hp => ?_, fun hr => hr, fun _ => Grows.refl _⟩; cases p <;> first | exact absurd (by decide) hp | apply Eq.refl))

theorem Dev.ringEdge_keeps (d : Dev) (a1 : Nat) : Keeps [.hst] d (Dev.ringEdge d a1) := by
  unfold Dev.ringEdge
  repeat' (first
    | (extract_lets +onlyGivenNames x; first | (refine Keeps.cut x ?_ ?_; (unfold x; clear x); rotate_left; (clear_value x; revert x; intro _ h)) | (revert x; intro _))
    | with_reducible refine Keeps.foldl _ (fun _ _ h => ?_) ?_
    | with_reducible refine Keeps.forRange _ (fun _ _ h => ?_) ?_
    | with_reducible exact Keeps.refl _ _
    | with_reducible assumption
    | split
    | (with_reducible apply Keeps.step (Dev.updRing_keeps ..); · decide)
    | with_reducible refine Keeps.pairR (by assumption) ?_
    | with_reducible refine Keeps.pairL (by assumption) ?_
    | with_reducible refine Keeps.pair3 (by assumption) ?_
    | (refine ⟨fun p hp => ?_, ?_, ?_⟩; rotate_left; (first | exact fun hr => hr | exact h.regs); (first | exact fun _ => Grows.refl _ | exact h.adds); cases p <;> first | exact absurd (by decide) hp | apply Eq.refl | apply h.same _ hp)
    | intro _
    | (dsimp only)
    | with_reducible refine Keeps.step (keeps_hst ..) (by decide) ?_)

theorem Dev.ringDisable_keeps (d : Dev) (a1 : Nat) (a2 : W64) : Keeps [.rw, .shadow, .w1c, .hst] d (Dev.ringDisable d a1 a2) := by
  unfold Dev.ringDisable
  repeat' (first
    | (extract_lets +onlyGivenNames x; first | (refine Keeps.cut x ?_ ?_; (unfold x; clear x); rotate_left; (clear_value x; revert x; intro _ h)) | (revert x; intro _))
    | with_reducible exact Keeps.refl _ _
    | with_reducible assumption
    | split
    | (with_reducible apply Keeps.step (Dev.updRing_keeps ..); · decide)
    | (with_reducible apply Keeps.step (Dev.refuse_keeps ..); · decide)
    | (with_reducible apply Keeps.step (Dev.store_keeps ..); · decide))

theorem Dev.ringEnable_keeps (d : Dev) (a1 : Nat) (a2 : W64) : Keeps [.rw, .shadow, .w1c, .merge, .hst, .log] d (Dev.ringEnable d a1 a2) := by
  unfold Dev.ringEnable
  repeat' (first
    | with_reducible exact Keeps.refl _ _
    | split
    | (with_reducible apply Keeps.step (Dev.updRing_keeps ..); · decide)
    | (with_reducible apply Keeps.step (Dev.raise_keeps ..); · decide)
    | (with_reducible apply Keeps.step (Dev.refuse_keeps ..); · decide)
    | (with_reducible apply Keeps.step (Dev.store_keeps ..); · decide))

theorem Dev.writeRingCfg_keeps (d : Dev) (a1 : Nat) (a2 : W64) : Keeps [.rw, .shadow, .w1c, .merge, .hst, .log] d (Dev.writeRingCfg d a1 a2) := by
  unfold Dev.writeRingCfg
  repeat' (first
    | (extract_lets +onlyGivenNames x; first | (refine Keeps.cut x ?_ ?_; (unfold x; clear x); rotate_left; (clear_value x; revert x; intro _ h)) | (revert x; intro _))
    | with_reducible exact Keeps.refl _ _
    | with_reducible assumption
    | split
    | (with_reducible apply Keeps.step (Dev.store_keeps ..); · decide)
    | (with_reducible apply Keeps.step (Dev.storeIf_keeps ..); · decide)
    | (with_reducible apply Keeps.step (Dev.ringDisable_keeps ..); · decide)
    | (with_reducible apply Keeps.step (Dev.ringEnable_keeps ..); · decide))

theorem Dev.writeRoute_keeps (d : Dev) (a1 : Nat) (a2 : W64) : Keeps [.rw, .shadow, .w1c] d (Dev.writeRoute d a1 a2) := by
  unfold Dev.writeRoute
  repeat' (first
    | with_reducible exact Keeps.refl _ _
    | (with_reducible apply Keeps.step (Dev.storeIf_keeps ..); · decide)
    | (refine ⟨fun p hp => ?_, fun hr => hr, fun _ => Grows.refl _⟩; cases p <;> first | exact absurd (by decide) hp | apply Eq.refl))

theorem Dev.writeHst_keeps (d : Dev) (a1 : RegDef) (a2 : W64) (a3 : Nat) (a4 : Nat) : Keeps [.rw, .shadow, .w1c, .merge, .hst, .log] d (Dev.writeHst d a1 a2 a3 a4) := by
  unfold Dev.writeHst
  repeat' (first
    | with_reducible exact Keeps.refl _ _
    | split
    | (with_reducible apply Keeps.step (Dev.storeIf_keeps ..); · decide)
    | (with_reducible apply Keeps.step (Dev.writeForeignRoute_keeps ..); · decide)
    | (with_reducible apply Keeps.step (Dev.writeRingCfg_keeps ..); · decide)
    | (with_reducible apply Keeps.step (Dev.writeRoute_keeps ..); · decide))

theorem Dev.abandonReads_keeps (d : Dev) : Keeps [.hst] d (Dev.abandonReads d) := by
  unfold Dev.abandonReads
  repeat' (first
    | with_reducible exact Keeps.refl _ _
    | (refine ⟨fun p hp => ?_, fun hr => hr, fun _ => Grows.refl _⟩; cases p <;> first | exact absurd (by decide) hp | apply Eq.refl))

theorem Dev.linkUpWith_keeps (d : Dev) (a1 : Nat) (a2 : Nat) : Keeps [.hst] d (Dev.linkUpWith d a1 a2) := by
  unfold Dev.linkUpWith
  repeat' (first
    | with_reducible exact Keeps.refl _ _
    | split
    | (refine ⟨fun p hp => ?_, fun hr => hr, fun _ => Grows.refl _⟩; cases p <;> first | exact absurd (by decide) hp | apply Eq.refl))

theorem Dev.takeDoorbell_keeps (d : Dev) (a1 : Nat) (a2 : Nat) : Keeps [.cnt, .merge, .hst, .log] d (Dev.takeDoorbell d a1 a2) := by
  unfold Dev.takeDoorbell
  repeat' (first
    | (extract_lets +onlyGivenNames x; first | (refine Keeps.cut x ?_ ?_; (unfold x; clear x); rotate_left; (clear_value x; revert x; intro _ h)) | (revert x; intro _))
    | with_reducible exact Keeps.refl _ _
    | with_reducible assumption
    | split
    | (with_reducible apply Keeps.step (Dev.updRing_keeps ..); · decide)
    | (with_reducible apply Keeps.step (Dev.ringError_keeps ..); · decide))

theorem Dev.fetchRequests_keeps (d : Dev) (a1 : Nat) (a2 : Nat) (a3 : Nat) (a4 : Nat) : Keeps [.out] d (Dev.fetchRequests d a1 a2 a3 a4) := by
  induction a4 generalizing d a2 a3 with
  | zero => unfold Dev.fetchRequests; exact Keeps.refl _ _
  | succ k ih =>
    unfold Dev.fetchRequests
    repeat' (first
      | (extract_lets +onlyGivenNames x; first | (refine Keeps.cut x ?_ ?_; (unfold x; clear x); rotate_left; (clear_value x; revert x; intro _ h)) | (revert x; intro _))
      | with_reducible refine Keeps.foldl _ (fun _ _ h => ?_) ?_
      | with_reducible refine Keeps.forRange _ (fun _ _ h => ?_) ?_
      | with_reducible exact Keeps.refl _ _
      | with_reducible assumption
      | split
      | (with_reducible apply Keeps.step (Dev.emit_keeps ..); · decide)
      | with_reducible refine Keeps.step (ih ..) (by decide) ?_
      | with_reducible refine Keeps.pairR (by assumption) ?_
      | with_reducible refine Keeps.pairL (by assumption) ?_
      | with_reducible refine Keeps.pair3 (by assumption) ?_
      | (refine ⟨fun p hp => ?_, ?_, ?_⟩; rotate_left; (first | exact fun hr => hr | exact h.regs); (first | exact fun _ => Grows.refl _ | exact h.adds); cases p <;> first | exact absurd (by decide) hp | apply Eq.refl | apply h.same _ hp)
      | intro _
      | (dsimp only))

theorem Dev.fetchRing_keeps (d : Dev) (a1 : Nat) (a2 : Nat) : Keeps [.out, .hst] d (Dev.fetchRing d a1 a2) := by
  unfold Dev.fetchRing
  repeat' (first
    | with_reducible exact Keeps.refl _ _
    | (with_reducible apply Keeps.step (Dev.updRing_keeps ..); · decide)
    | (with_reducible apply Keeps.step (Dev.fetchRequests_keeps ..); · decide)
    | (refine ⟨fun p hp => ?_, fun hr => hr, fun _ => Grows.refl _⟩; cases p <;> first | exact absurd (by decide) hp | apply Eq.refl))

theorem Dev.writeBack_keeps (d : Dev) : Keeps [.out, .hst] d (Dev.writeBack d) := by
  unfold Dev.writeBack
  repeat' (first
    | with_reducible exact Keeps.refl _ _
    | split
    | (with_reducible apply Keeps.step (Dev.emit_keeps ..); · decide)
    | (refine ⟨fun p hp => ?_, fun hr => hr, fun _ => Grows.refl _⟩; cases p <;> first | exact absurd (by decide) hp | apply Eq.refl))

theorem Dev.doorbellReturn_keeps (d : Dev) (a1 : Option (List W32)) (a2 : Dev → Nat → Nat) : Keeps [.w1c, .cnt, .merge, .out, .hst, .log] d (Dev.doorbellReturn d a1 a2) := by
  unfold Dev.doorbellReturn
  repeat' (first
    | (extract_lets +onlyGivenNames x; first | (refine Keeps.cut x ?_ ?_; (unfold x; clear x); rotate_left; (clear_value x; revert x; intro _ h)) | (revert x; intro _))
    | with_reducible refine Keeps.foldl _ (fun _ _ h => ?_) ?_
    | with_reducible refine Keeps.forRange _ (fun _ _ h => ?_) ?_
    | with_reducible exact Keeps.refl _ _
    | with_reducible assumption
    | split
    | (with_reducible apply Keeps.step (Dev.raise_keeps ..); · decide)
    | (with_reducible apply Keeps.step (Dev.orFlag_keeps ..); · decide)
    | (with_reducible apply Keeps.step (Dev.flushRings_keeps ..); · decide)
    | (with_reducible apply Keeps.step (Dev.takeDoorbell_keeps ..); · decide)
    | (with_reducible apply Keeps.step (Dev.fetchRing_keeps ..); · decide)
    | (with_reducible apply Keeps.step (Dev.writeBack_keeps ..); · decide)
    | with_reducible refine Keeps.pairR (by assumption) ?_
    | with_reducible refine Keeps.pairL (by assumption) ?_
    | with_reducible refine Keeps.pair3 (by assumption) ?_
    | (refine ⟨fun p hp => ?_, ?_, ?_⟩; rotate_left; (first | exact fun hr => hr | exact h.regs); (first | exact fun _ => Grows.refl _ | exact h.adds); cases p <;> first | exact absurd (by decide) hp | apply Eq.refl | apply h.same _ hp)
    | intro _
    | (dsimp only)
    | with_reducible refine Keeps.step (keeps_hst ..) (by decide) ?_)

theorem Dev.doorbellPoll_keeps (d : Dev) : Keeps [.cnt, .out, .hst] d (Dev.doorbellPoll d) := by
  unfold Dev.doorbellPoll
  repeat' (first
    | (extract_lets +onlyGivenNames x; first | (refine Keeps.cut x ?_ ?_; (unfold x; clear x); rotate_left; (clear_value x; revert x; intro _ h)) | (revert x; intro _))
    | with_reducible refine Keeps.foldl _ (fun _ _ h => ?_) ?_
    | with_reducible refine Keeps.forRange _ (fun _ _ h => ?_) ?_
    | with_reducible exact Keeps.refl _ _
    | with_reducible assumption
    | split
    | (with_reducible apply Keeps.step (Dev.bump_keeps ..); · decide)
    | (with_reducible apply Keeps.step (Dev.emit_keeps ..); · decide)
    | with_reducible refine Keeps.pairR (by assumption) ?_
    | with_reducible refine Keeps.pairL (by assumption) ?_
    | with_reducible refine Keeps.pair3 (by assumption) ?_
    | (refine ⟨fun p hp => ?_, ?_, ?_⟩; rotate_left; (first | exact fun hr => hr | exact h.regs); (first | exact fun _ => Grows.refl _ | exact h.adds); cases p <;> first | exact absurd (by decide) hp | apply Eq.refl | apply h.same _ hp)
    | intro _
    | (dsimp only)
    | with_reducible refine Keeps.step (keeps_hst ..) (by decide) ?_)

theorem Dev.sendPending_keeps (d : Dev) (a1 : Nat) : Keeps [.out, .hst] d (Dev.sendPending d a1) := by
  unfold Dev.sendPending
  repeat' (first
    | (extract_lets +onlyGivenNames x; first | (refine Keeps.cut x ?_ ?_; (unfold x; clear x); rotate_left; (clear_value x; revert x; intro _ h)) | (revert x; intro _))
    | with_reducible exact Keeps.refl _ _
    | with_reducible assumption
    | split
    | (with_reducible apply Keeps.step (Dev.emit_keeps ..); · decide)
    | (refine ⟨fun p hp => ?_, ?_, ?_⟩; rotate_left; (first | exact fun hr => hr | exact h.regs); (first | exact fun _ => Grows.refl _ | exact h.adds); cases p <;> first | exact absurd (by decide) hp | apply Eq.refl | apply h.same _ hp))

theorem Dev.sendAllPending_keeps (d : Dev) : Keeps [.out, .hst] d (Dev.sendAllPending d) := by
  unfold Dev.sendAllPending
  repeat' (first
    | (extract_lets +onlyGivenNames x; first | (refine Keeps.cut x ?_ ?_; (unfold x; clear x); rotate_left; (clear_value x; revert x; intro _ h)) | (revert x; intro _))
    | with_reducible refine Keeps.foldl _ (fun _ _ h => ?_) ?_
    | with_reducible refine Keeps.forRange _ (fun _ _ h => ?_) ?_
    | with_reducible exact Keeps.refl _ _
    | with_reducible assumption
    | split
    | (with_reducible apply Keeps.step (Dev.sendPending_keeps ..); · decide)
    | (refine ⟨fun p hp => ?_, ?_, ?_⟩; rotate_left; (first | exact fun hr => hr | exact h.regs); (first | exact fun _ => Grows.refl _ | exact h.adds); cases p <;> first | exact absurd (by decide) hp | apply Eq.refl | apply h.same _ hp))

theorem Dev.acceptEntry_keeps (d : Dev) (a1 : Entry) : Keeps [.hst, .pwr] d (Dev.acceptEntry d a1) := by
  unfold Dev.acceptEntry
  repeat' (first
    | with_reducible exact Keeps.refl _ _
    | (with_reducible apply Keeps.step (Dev.passOn_keeps ..); · decide)
    | (with_reducible apply Keeps.step (Dev.updRing_keeps ..); · decide)
    | (with_reducible apply Keeps.step (Dev.workFor_keeps ..); · decide)
    | (refine ⟨fun p hp => ?_, fun hr => hr, fun _ => Grows.refl _⟩; cases p <;> first | exact absurd (by decide) hp | apply Eq.refl))

theorem Dev.entryArrival_keeps (d : Dev) (a1 : Nat) (a2 : EntryRead) : Keeps [.cnt, .merge, .out, .hst, .pwr, .log] d (Dev.entryArrival d a1 a2) := by
  unfold Dev.entryArrival
  repeat' (first
    | (extract_lets +onlyGivenNames x; first | (refine Keeps.cut x ?_ ?_; (unfold x; clear x); rotate_left; (clear_value x; revert x; intro _ h)) | (revert x; intro _))
    | with_reducible exact Keeps.refl _ _
    | with_reducible assumption
    | split
    | (with_reducible apply Keeps.step (Dev.bump_keeps ..); · decide)
    | (with_reducible apply Keeps.step (Dev.updRing_keeps ..); · decide)
    | (with_reducible apply Keeps.step (Dev.complete_keeps ..); · decide)
    | (with_reducible apply Keeps.step (Dev.ringError_keeps ..); · decide)
    | (with_reducible apply Keeps.step (Dev.bodyFetchErr_keeps ..); · decide)
    | (with_reducible apply Keeps.step (Dev.writeBack_keeps ..); · decide)
    | (with_reducible apply Keeps.step (Dev.acceptEntry_keeps ..); · decide)
    | (refine ⟨fun p hp => ?_, ?_, ?_⟩; rotate_left; (first | exact fun hr => hr | exact h.regs); (first | exact fun _ => Grows.refl _ | exact h.adds); cases p <;> first | exact absurd (by decide) hp | apply Eq.refl | apply h.same _ hp))

theorem Dev.setMsixDword_keeps (d : Dev) (a1 : Nat) (a2 : W32) : Keeps [.out, .hst] d (Dev.setMsixDword d a1 a2) := by
  unfold Dev.setMsixDword
  repeat' (first
    | with_reducible exact Keeps.refl _ _
    | (with_reducible apply Keeps.step (Dev.sendPending_keeps ..); · decide)
    | (refine ⟨fun p hp => ?_, fun hr => hr, fun _ => Grows.refl _⟩; cases p <;> first | exact absurd (by decide) hp | apply Eq.refl))

theorem Dev.msixAccess_keeps (d : Dev) (a1 : Nat) (a2 : MsixAccess) : Keeps [.out, .hst] d (Dev.msixAccess d a1 a2) := by
  unfold Dev.msixAccess
  dsimp only
  repeat' (first
    | (extract_lets +onlyGivenNames x; first | (refine Keeps.cut x ?_ ?_; (unfold x; clear x); rotate_left; (clear_value x; revert x; intro _ h)) | (revert x; intro _))
    | with_reducible refine Keeps.foldl _ (fun _ _ h => ?_) ?_
    | with_reducible refine Keeps.forRange _ (fun _ _ h => ?_) ?_
    | with_reducible exact Keeps.refl _ _
    | with_reducible assumption
    | split
    | (with_reducible apply Keeps.step (Dev.emit_keeps ..); · decide)
    | (with_reducible apply Keeps.step (Dev.setMsixDword_keeps ..); · decide)
    | with_reducible refine Keeps.pairR (by assumption) ?_
    | with_reducible refine Keeps.pairL (by assumption) ?_
    | with_reducible refine Keeps.pair3 (by assumption) ?_
    | (refine ⟨fun p hp => ?_, ?_, ?_⟩; rotate_left; (first | exact fun hr => hr | exact h.regs); (first | exact fun _ => Grows.refl _ | exact h.adds); cases p <;> first | exact absurd (by decide) hp | apply Eq.refl | apply h.same _ hp)
    | intro _
    | (dsimp only))

theorem Dev.flr_keeps (d : Dev) : Keeps [.rw, .rwAct, .w1c, .cnt, .rol, .merge, .hst, .log] d (Dev.flr d) := by
  unfold Dev.flr
  repeat' (first
    | with_reducible exact Keeps.refl _ _
    | (with_reducible apply Keeps.step (Dev.raise_keeps ..); · decide)
    | (with_reducible apply Keeps.step (Dev.orFlag_keeps ..); · decide)
    | (refine ⟨fun p hp => ?_, fun hr => by simp only [RegFile.wf, Bool.and_eq_true] at hr ⊢; simp [hr, keysRise_put, keysRise_filter], fun _ => Grows.refl _⟩; cases p <;> first | exact absurd (by decide) hp | apply Eq.refl))

/-! ## MemOps -/

theorem Dev.sramErr_keeps (d : Dev) (a1 : Nat) (a2 : Nat) (a3 : Nat) (a4 : EccRead) : Keeps [.cnt, .merge, .memc, .log] d (Dev.sramErr d a1 a2 a3 a4) := by
  unfold Dev.sramErr
  repeat' (first
    | (extract_lets +onlyGivenNames x; first | (refine Keeps.cut x ?_ ?_; (unfold x; clear x); rotate_left; (clear_value x; revert x; intro _ h)) | (revert x; intro _))
    | with_reducible exact Keeps.refl _ _
    | with_reducible assumption
    | split
    | (with_reducible apply Keeps.step (Dev.bump_keeps ..); · decide)
    | (with_reducible apply Keeps.step (Dev.raise_keeps ..); · decide)
    | (refine ⟨fun p hp => ?_, ?_, ?_⟩; rotate_left; (first | exact fun hr => hr | exact h.regs); (first | exact fun _ => Grows.refl _ | exact h.adds); cases p <;> first | exact absurd (by decide) hp | apply Eq.refl | apply h.same _ hp))

theorem Dev.sramRead_keeps (d : Dev) (a1 : Nat) (a2 : Nat) (a3 : EccRead) : Keeps [.cnt, .merge, .memc, .log] d (Dev.sramRead d a1 a2 a3) := by
  unfold Dev.sramRead
  repeat' (first
    | with_reducible exact Keeps.refl _ _
    | (with_reducible apply Keeps.step (Dev.sramErr_keeps ..); · decide)
    | (refine ⟨fun p hp => ?_, fun hr => hr, fun _ => Grows.refl _⟩; cases p <;> first | exact absurd (by decide) hp | apply Eq.refl))

theorem Dev.updDdr_keeps (d : Dev) (a1 : Nat) (a2 : Ddr → Ddr) : Keeps [.memc] d (Dev.updDdr d a1 a2) := by
  unfold Dev.updDdr
  repeat' (first
    | with_reducible exact Keeps.refl _ _
    | (refine ⟨fun p hp => ?_, fun hr => hr, fun _ => Grows.refl _⟩; cases p <;> first | exact absurd (by decide) hp | apply Eq.refl))

theorem Dev.dramAddrErr_keeps (d : Dev) (a1 : Nat) (a2 : Nat) : Keeps [.merge, .log] d (Dev.dramAddrErr d a1 a2) := by
  unfold Dev.dramAddrErr
  repeat' (first
    | with_reducible exact Keeps.refl _ _
    | (with_reducible apply Keeps.step (Dev.raise_keeps ..); · decide)
    | (refine ⟨fun p hp => ?_, fun hr => hr, fun _ => Grows.refl _⟩; cases p <;> first | exact absurd (by decide) hp | apply Eq.refl))

theorem Dev.dramRead_keeps (d : Dev) (a1 : Nat) (a2 : Nat) (a3 : EccRead) : Keeps [.cnt, .merge, .memc, .log] d (Dev.dramRead d a1 a2 a3) := by
  unfold Dev.dramRead
  repeat' (first
    | (extract_lets +onlyGivenNames x; first | (refine Keeps.cut x ?_ ?_; (unfold x; clear x); rotate_left; (clear_value x; revert x; intro _ h)) | (revert x; intro _))
    | with_reducible exact Keeps.refl _ _
    | with_reducible assumption
    | split
    | (with_reducible apply Keeps.step (Dev.bump_keeps ..); · decide)
    | (with_reducible apply Keeps.step (Dev.raise_keeps ..); · decide)
    | (with_reducible apply Keeps.step (Dev.dramAddrErr_keeps ..); · decide)
    | (refine ⟨fun p hp => ?_, ?_, ?_⟩; rotate_left; (first | exact fun hr => hr | exact h.regs); (first | exact fun _ => Grows.refl _ | exact h.adds); cases p <;> first | exact absurd (by decide) hp | apply Eq.refl | apply h.same _ hp))

/-! ## Tmb -/

theorem Dev.sourceLost_keeps (d : Dev) (a1 : Nat) : Keeps [.merge, .tmb, .log] d (Dev.sourceLost d a1) := by
  unfold Dev.sourceLost
  repeat' (first
    | (extract_lets +onlyGivenNames x; first | (refine Keeps.cut x ?_ ?_; (unfold x; clear x); rotate_left; (clear_value x; revert x; intro _ h)) | (revert x; intro _))
    | with_reducible exact Keeps.refl _ _
    | with_reducible assumption
    | split
    | (with_reducible apply Keeps.step (Dev.raise_keeps ..); · decide)
    | (refine ⟨fun p hp => ?_, ?_, ?_⟩; rotate_left; (first | exact fun hr => hr | exact h.regs); (first | exact fun _ => Grows.refl _ | exact h.adds); cases p <;> first | exact absurd (by decide) hp | apply Eq.refl | apply h.same _ hp))

theorem Dev.writeTmbCtl_keeps (d : Dev) (a1 : W64) : Keeps [.rw, .shadow, .w1c, .tmb] d (Dev.writeTmbCtl d a1) := by
  unfold Dev.writeTmbCtl
  repeat' (first
    | (extract_lets +onlyGivenNames x; first | (refine Keeps.cut x ?_ ?_; (unfold x; clear x); rotate_left; (clear_value x; revert x; intro _ h)) | (revert x; intro _))
    | with_reducible exact Keeps.refl _ _
    | with_reducible assumption
    | split
    | (with_reducible apply Keeps.step (Dev.refuse_keeps ..); · decide)
    | (with_reducible apply Keeps.step (Dev.store_keeps ..); · decide)
    | (refine ⟨fun p hp => ?_, ?_, ?_⟩; rotate_left; (first | exact fun hr => hr | exact h.regs); (first | exact fun _ => Grows.refl _ | exact h.adds); cases p <;> first | exact absurd (by decide) hp | apply Eq.refl | apply h.same _ hp))

theorem Dev.timeTo_keeps (d : Dev) (a1 : Int) : Keeps [.merge, .tmb, .log] d (Dev.timeTo d a1) := by
  unfold Dev.timeTo
  repeat' (first
    | (extract_lets +onlyGivenNames x; first | (refine Keeps.cut x ?_ ?_; (unfold x; clear x); rotate_left; (clear_value x; revert x; intro _ h)) | (revert x; intro _))
    | with_reducible exact Keeps.refl _ _
    | with_reducible assumption
    | split
    | (with_reducible apply Keeps.step (Dev.raise_keeps ..); · decide)
    | (refine ⟨fun p hp => ?_, ?_, ?_⟩; rotate_left; (first | exact fun hr => hr | exact h.regs); (first | exact fun _ => Grows.refl _ | exact h.adds); cases p <;> first | exact absurd (by decide) hp | apply Eq.refl | apply h.same _ hp))

theorem Dev.writeTmbSet_keeps (d : Dev) (a1 : W64) : Keeps [.rw, .shadow, .w1c, .merge, .tmb, .log] d (Dev.writeTmbSet d a1) := by
  unfold Dev.writeTmbSet
  repeat' (first
    | with_reducible exact Keeps.refl _ _
    | split
    | (with_reducible apply Keeps.step (Dev.refuse_keeps ..); · decide)
    | (with_reducible apply Keeps.step (Dev.store_keeps ..); · decide)
    | (with_reducible apply Keeps.step (Dev.timeTo_keeps ..); · decide))

theorem Dev.writeTmbStep_keeps (d : Dev) (a1 : W64) : Keeps [.w1c, .merge, .tmb, .log] d (Dev.writeTmbStep d a1) := by
  unfold Dev.writeTmbStep
  repeat' (first
    | with_reducible exact Keeps.refl _ _
    | split
    | (with_reducible apply Keeps.step (Dev.refuse_keeps ..); · decide)
    | (with_reducible apply Keeps.step (Dev.timeTo_keeps ..); · decide)
    | (refine ⟨fun p hp => ?_, fun hr => hr, fun _ => Grows.refl _⟩; cases p <;> first | exact absurd (by decide) hp | apply Eq.refl))

theorem Dev.writeTmbPlain_keeps (d : Dev) (a1 : RegDef) (a2 : W64) (a3 : Nat) (a4 : Nat) : Keeps [.rw, .shadow, .w1c] d (Dev.writeTmbPlain d a1 a2 a3 a4) := by
  unfold Dev.writeTmbPlain
  repeat' (first
    | with_reducible exact Keeps.refl _ _
    | (with_reducible apply Keeps.step (Dev.storeIf_keeps ..); · decide)
    | (refine ⟨fun p hp => ?_, fun hr => hr, fun _ => Grows.refl _⟩; cases p <;> first | exact absurd (by decide) hp | apply Eq.refl))

theorem Dev.clockOutputs_keeps (d : Dev) : Keeps [.tmb] d (Dev.clockOutputs d) := by
  unfold Dev.clockOutputs
  repeat' (first
    | (extract_lets +onlyGivenNames x; first | (refine Keeps.cut x ?_ ?_; (unfold x; clear x); rotate_left; (clear_value x; revert x; intro _ h)) | (revert x; intro _))
    | with_reducible refine Keeps.foldl _ (fun _ _ h => ?_) ?_
    | with_reducible refine Keeps.forRange _ (fun _ _ h => ?_) ?_
    | with_reducible exact Keeps.refl _ _
    | with_reducible assumption
    | split
    | with_reducible refine Keeps.pairR (by assumption) ?_
    | with_reducible refine Keeps.pairL (by assumption) ?_
    | with_reducible refine Keeps.pair3 (by assumption) ?_
    | (refine ⟨fun p hp => ?_, ?_, ?_⟩; rotate_left; (first | exact fun hr => hr | exact h.regs); (first | exact fun _ => Grows.refl _ | exact h.adds); cases p <;> first | exact absurd (by decide) hp | apply Eq.refl | apply h.same _ hp)
    | intro _
    | (dsimp only)
    | with_reducible refine Keeps.step (keeps_tmb ..) (by decide) ?_)

theorem Dev.startReached_keeps (d : Dev) : Keeps [.merge, .tmb, .log] d (Dev.startReached d) := by
  unfold Dev.startReached
  repeat' (first
    | with_reducible exact Keeps.refl _ _
    | split
    | (with_reducible apply Keeps.step (Dev.raise_keeps ..); · decide)
    | (with_reducible apply Keeps.step (Dev.clockOutputs_keeps ..); · decide)
    | (refine ⟨fun p hp => ?_, fun hr => hr, fun _ => Grows.refl _⟩; cases p <;> first | exact absurd (by decide) hp | apply Eq.refl))

theorem Dev.captureEdge_keeps (d : Dev) (a1 : Nat) (a2 : Bool) (a3 : Nat) (a4 : Nat) : Keeps [.cnt, .merge, .tmb, .log] d (Dev.captureEdge d a1 a2 a3 a4) := by
  have ht : ∀ (x : Dev) (f : Vector Capture 8), Keeps [.cnt, .merge, .tmb, .log] x { x with tmb.caps := f } := fun x f =>
    ⟨fun p hp => by cases p <;> first | exact absurd (by decide) hp | apply Eq.refl, fun hr => hr, fun _ => Grows.refl _⟩
  unfold Dev.captureEdge
  dsimp only
  split
  · exact Keeps.refl _ _
  · split
    · refine Keeps.step (v := [.cnt, .merge, .tmb, .log]) (d := { d with tmb.caps := upd d.tmb.caps a1 (fun c => { c with missed := c.missed + 1 }) }) ?_ (by decide) (ht d _)
      split
      · exact Keeps.step (Dev.raise_keeps ..) (by decide) (Keeps.refl _ _)
      · refine ⟨fun p hp => by cases p <;> first | exact absurd (by decide) hp | apply Eq.refl, fun hr => hr, fun _ => ?_⟩
        refine Grows.count (fun x hx => ?_) _
        simp only [Bool.and_eq_true, beq_iff_eq] at hx
        exact hx.1.1.2
    · exact Keeps.step (Dev.bump_keeps ..) (by decide) (Keeps.step (Dev.raise_keeps ..) (by decide) (ht d _))

theorem Dev.advance_keeps (d : Dev) : Keeps [.rwAct, .shadowAt, .tmb] d (Dev.advance d) := by
  unfold Dev.advance
  repeat' (first
    | with_reducible exact Keeps.refl _ _
    | (refine ⟨fun p hp => ?_, fun hr => by simp only [RegFile.wf, Bool.and_eq_true] at hr ⊢; simp [hr, keysRise_put, keysRise_filter, apply_ite keysRise], fun _ => Grows.refl _⟩; cases p <;> first | exact absurd (by decide) hp | apply Eq.refl))

theorem Dev.lockTest_keeps (d : Dev) (a1 : Int) : Keeps [.merge, .tmb, .log] d (Dev.lockTest d a1) := by
  unfold Dev.lockTest
  repeat' (first
    | (extract_lets +onlyGivenNames x; first | (refine Keeps.cut x ?_ ?_; (unfold x; clear x); rotate_left; (clear_value x; revert x; intro _ h)) | (revert x; intro _))
    | with_reducible exact Keeps.refl _ _
    | with_reducible assumption
    | split
    | (with_reducible apply Keeps.step (Dev.raise_keeps ..); · decide)
    | (refine ⟨fun p hp => ?_, ?_, ?_⟩; rotate_left; (first | exact fun hr => hr | exact h.regs); (first | exact fun _ => Grows.refl _ | exact h.adds); cases p <;> first | exact absurd (by decide) hp | apply Eq.refl | apply h.same _ hp))

theorem Dev.measure_keeps (d : Dev) (a1 : Nat) (a2 : Nat) (a3 : Int) : Keeps [.cnt, .merge, .tmb, .log] d (Dev.measure d a1 a2 a3) := by
  unfold Dev.measure
  repeat' (first
    | (extract_lets +onlyGivenNames x; first | (refine Keeps.cut x ?_ ?_; (unfold x; clear x); rotate_left; (clear_value x; revert x; intro _ h)) | (revert x; intro _))
    | with_reducible exact Keeps.refl _ _
    | with_reducible assumption
    | split
    | (with_reducible apply Keeps.step (Dev.raise_keeps ..); · decide)
    | (with_reducible apply Keeps.step (Dev.timeTo_keeps ..); · decide)
    | (with_reducible apply Keeps.step (Dev.peak_keeps ..); · decide)
    | (with_reducible apply Keeps.step (Dev.lockTest_keeps ..); · decide)
    | (refine ⟨fun p hp => ?_, ?_, ?_⟩; rotate_left; (first | exact fun hr => hr | exact h.regs); (first | exact fun _ => Grows.refl _ | exact h.adds); cases p <;> first | exact absurd (by decide) hp | apply Eq.refl | apply h.same _ hp))

theorem Dev.ptpState_keeps (d : Dev) (a1 : Nat) (a2 : Nat) : Keeps [.merge, .tmb, .log] d (Dev.ptpState d a1 a2) := by
  unfold Dev.ptpState
  repeat' (first
    | (extract_lets +onlyGivenNames x; first | (refine Keeps.cut x ?_ ?_; (unfold x; clear x); rotate_left; (clear_value x; revert x; intro _ h)) | (revert x; intro _))
    | with_reducible exact Keeps.refl _ _
    | with_reducible assumption
    | split
    | (with_reducible apply Keeps.step (Dev.raise_keeps ..); · decide)
    | (with_reducible apply Keeps.step (Dev.sourceLost_keeps ..); · decide)
    | (refine ⟨fun p hp => ?_, ?_, ?_⟩; rotate_left; (first | exact fun hr => hr | exact h.regs); (first | exact fun _ => Grows.refl _ | exact h.adds); cases p <;> first | exact absurd (by decide) hp | apply Eq.refl | apply h.same _ hp))

theorem Dev.ptpReceive_keeps (d : Dev) (a1 : Nat) (a2 : PtpMsg) (a3 : Int) (a4 : Nat) : Keeps [.merge, .tmb, .log] d (Dev.ptpReceive d a1 a2 a3 a4) := by
  unfold Dev.ptpReceive
  repeat' (first
    | with_reducible exact Keeps.refl _ _
    | split
    | (with_reducible apply Keeps.step (Dev.ptpState_keeps ..); · decide)
    | (refine ⟨fun p hp => ?_, fun hr => hr, fun _ => Grows.refl _⟩; cases p <;> first | exact absurd (by decide) hp | apply Eq.refl))

theorem Dev.ptpSend_keeps (d : Dev) (a1 : Nat) (a2 : PtpMsg) (a3 : Int) : Keeps [.out] d (Dev.ptpSend d a1 a2 a3) := by
  unfold Dev.ptpSend
  repeat' (first
    | (extract_lets +onlyGivenNames x; first | (refine Keeps.cut x ?_ ?_; (unfold x; clear x); rotate_left; (clear_value x; revert x; intro _ h)) | (revert x; intro _))
    | with_reducible refine Keeps.foldl _ (fun _ _ h => ?_) ?_
    | with_reducible refine Keeps.forRange _ (fun _ _ h => ?_) ?_
    | with_reducible exact Keeps.refl _ _
    | with_reducible assumption
    | split
    | (with_reducible apply Keeps.step (Dev.emit_keeps ..); · decide)
    | with_reducible refine Keeps.pairR (by assumption) ?_
    | with_reducible refine Keeps.pairL (by assumption) ?_
    | with_reducible refine Keeps.pair3 (by assumption) ?_
    | (refine ⟨fun p hp => ?_, ?_, ?_⟩; rotate_left; (first | exact fun hr => hr | exact h.regs); (first | exact fun _ => Grows.refl _ | exact h.adds); cases p <;> first | exact absurd (by decide) hp | apply Eq.refl | apply h.same _ hp)
    | intro _
    | (dsimp only))

theorem Dev.freqUpdate_keeps (d : Dev) : Keeps [.merge, .tmb, .log] d (Dev.freqUpdate d) := by
  unfold Dev.freqUpdate
  repeat' (first
    | (extract_lets +onlyGivenNames x; first | (refine Keeps.cut x ?_ ?_; (unfold x; clear x); rotate_left; (clear_value x; revert x; intro _ h)) | (revert x; intro _))
    | with_reducible exact Keeps.refl _ _
    | with_reducible assumption
    | split
    | (with_reducible apply Keeps.step (Dev.raise_keeps ..); · decide)
    | (refine ⟨fun p hp => ?_, ?_, ?_⟩; rotate_left; (first | exact fun hr => hr | exact h.regs); (first | exact fun _ => Grows.refl _ | exact h.adds); cases p <;> first | exact absurd (by decide) hp | apply Eq.refl | apply h.same _ hp))

end Sys2Proof.Machine
end

