-- ==== Sys2Proof/Laws/KeepsCourse.lean ====
section
/-!
SUPPORT. Frames of the courses, the Mason, the pistes and the fed streams: one lemma per function that answers a
device, saying which parts it may change.
-/
namespace Sys2Proof.Machine
set_option linter.all false

/-! ## Plan -/

theorem Dev.updPiste_keeps (d : Dev) (a1 : Nat) (a2 : Piste → Piste) : Keeps [.pth] d (Dev.updPiste d a1 a2) := by
  unfold Dev.updPiste
  repeat' (first
    | with_reducible exact Keeps.refl _ _
    | (refine ⟨fun p hp => ?_, fun hr => hr, fun _ => Grows.refl _⟩; cases p <;> first | exact absurd (by decide) hp | apply Eq.refl))

theorem Dev.addPlanned_keeps (d : Dev) (a1 : Nat) (a2 : Bool) (a3 : Feed) (a4 : Planned) (a5 : Exit) (a6 : List Piece) : Keeps [.pth] d (Dev.addPlanned d a1 a2 a3 a4 a5 a6) := by
  unfold Dev.addPlanned
  repeat' (first
    | with_reducible exact Keeps.refl _ _
    | (with_reducible apply Keeps.step (Dev.updPiste_keeps ..); · decide)
    | (refine ⟨fun p hp => ?_, fun hr => hr, fun _ => Grows.refl _⟩; cases p <;> first | exact absurd (by decide) hp | apply Eq.refl))

theorem Dev.layJoin_keeps (d : Dev) (a1 : Nat) (a2 : List Piece) (a3 : Nat) (a4 : Target) (a5 : List Int) (a6 : Arrive) : Keeps [.pth] d (Dev.layJoin d a1 a2 a3 a4 a5 a6) := by
  unfold Dev.layJoin
  repeat' (first
    | with_reducible exact Keeps.refl _ _
    | (with_reducible apply Keeps.step (Dev.updPiste_keeps ..); · decide)
    | (refine ⟨fun p hp => ?_, fun hr => hr, fun _ => Grows.refl _⟩; cases p <;> first | exact absurd (by decide) hp | apply Eq.refl))

theorem Dev.planTo_keeps (d : Dev) (a1 : Mem) (a2 : Nat) (a3 : Target) (a4 : JoinBy) (a5 : List Int) (a6 : Arrive) : Keeps [.cnt, .pth] d (Dev.planTo d a1 a2 a3 a4 a5 a6) := by
  unfold Dev.planTo
  repeat' (first
    | with_reducible exact Keeps.refl _ _
    | split
    | (with_reducible apply Keeps.step (Dev.bump_keeps ..); · decide)
    | (with_reducible apply Keeps.step (Dev.layJoin_keeps ..); · decide))

theorem Dev.layMark_keeps (d : Dev) (a1 : Nat) (a2 : Bool) (a3 : Feed) (a4 : Vec) (a5 : W64 × W64) (a6 : Int) (a7 : Int) : Keeps [.cnt, .pth] d (Dev.layMark d a1 a2 a3 a4 a5 a6 a7) := by
  unfold Dev.layMark
  repeat' (first
    | with_reducible exact Keeps.refl _ _
    | split
    | (with_reducible apply Keeps.step (Dev.bump_keeps ..); · decide)
    | (with_reducible apply Keeps.step (Dev.addPlanned_keeps ..); · decide))

theorem Dev.layDwell_keeps (d : Dev) (a1 : Nat) (a2 : Bool) (a3 : Feed) (a4 : Vec) (a5 : W64 × W64) (a6 : Int) (a7 : Int) : Keeps [.pth] d (Dev.layDwell d a1 a2 a3 a4 a5 a6 a7) := by
  unfold Dev.layDwell
  repeat' (first
    | with_reducible exact Keeps.refl _ _
    | (with_reducible apply Keeps.step (Dev.addPlanned_keeps ..); · decide)
    | (refine ⟨fun p hp => ?_, fun hr => hr, fun _ => Grows.refl _⟩; cases p <;> first | exact absurd (by decide) hp | apply Eq.refl))

theorem Dev.layJump_keeps (d : Dev) (a1 : Mem) (a2 : Nat) (a3 : Bool) (a4 : Feed) (a5 : Vec) (a6 : W64 × W64) (a7 : Int) (a8 : Int) : KeepsP [.cnt, .pth] d (Dev.layJump d a1 a2 a3 a4 a5 a6 a7 a8) := by
  unfold Dev.layJump
  repeat' (first
    | (extract_lets +onlyGivenNames x; first | (refine Keeps.cut x ?_ ?_; (unfold x; clear x); rotate_left; (clear_value x; revert x; intro _ h)) | (refine Keeps.cutP x ?_ ?_; (unfold x; clear x); rotate_left; (clear_value x; revert x; intro _ h)) | (revert x; intro _))
    | with_reducible refine Keeps.foldl _ (fun _ _ h => ?_) ?_
    | with_reducible refine Keeps.forRange _ (fun _ _ h => ?_) ?_
    | with_reducible exact Keeps.refl _ _
    | with_reducible assumption
    | split
    | (with_reducible apply Keeps.step (Dev.bump_keeps ..); · decide)
    | (with_reducible apply Keeps.step (Dev.addPlanned_keeps ..); · decide)
    | (with_reducible apply Keeps.step (Dev.planTo_keeps ..); · decide)
    | with_reducible refine KeepsP.planned ?_
    | with_reducible exact KeepsP.starved _ _
    | with_reducible exact KeepsP.nothing _ _
    | with_reducible refine Keeps.pairR (by assumption) ?_
    | with_reducible refine Keeps.pairL (by assumption) ?_
    | with_reducible refine Keeps.pair3 (by assumption) ?_
    | (refine ⟨fun p hp => ?_, ?_, ?_⟩; rotate_left; (first | exact fun hr => hr | exact h.regs); (first | exact fun _ => Grows.refl _ | exact h.adds); cases p <;> first | exact absurd (by decide) hp | apply Eq.refl | apply h.same _ hp)
    | intro _
    | (dsimp only))

theorem Dev.planStep_keeps (d : Dev) (a1 : Mem) (a2 : Nat) : KeepsP [.cnt, .pth] d (Dev.planStep d a1 a2) := by
  unfold Dev.planStep
  repeat' (first
    | (extract_lets +onlyGivenNames x; first | (refine Keeps.cut x ?_ ?_; (unfold x; clear x); rotate_left; (clear_value x; revert x; intro _ h)) | (refine Keeps.cutP x ?_ ?_; (unfold x; clear x); rotate_left; (clear_value x; revert x; intro _ h)) | (revert x; intro _))
    | with_reducible refine Keeps.foldl _ (fun _ _ h => ?_) ?_
    | with_reducible refine Keeps.forRange _ (fun _ _ h => ?_) ?_
    | with_reducible exact Keeps.refl _ _
    | with_reducible assumption
    | split
    | (with_reducible apply Keeps.step (Dev.bump_keeps ..); · decide)
    | (with_reducible apply Keeps.step (Dev.updPiste_keeps ..); · decide)
    | (with_reducible apply Keeps.step (Dev.addPlanned_keeps ..); · decide)
    | (with_reducible apply Keeps.step (Dev.layJoin_keeps ..); · decide)
    | (with_reducible apply Keeps.step (Dev.planTo_keeps ..); · decide)
    | (with_reducible apply Keeps.step (Dev.layMark_keeps ..); · decide)
    | (with_reducible apply Keeps.step (Dev.layDwell_keeps ..); · decide)
    | (with_reducible apply KeepsP.step (Dev.layJump_keeps ..); · decide)
    | with_reducible refine Keeps.ofPlan (by assumption) ?_
    | with_reducible refine KeepsP.planned ?_
    | with_reducible exact KeepsP.starved _ _
    | with_reducible exact KeepsP.nothing _ _
    | with_reducible refine Keeps.pairR (by assumption) ?_
    | with_reducible refine Keeps.pairL (by assumption) ?_
    | with_reducible refine Keeps.pair3 (by assumption) ?_
    | (refine ⟨fun p hp => ?_, ?_, ?_⟩; rotate_left; (first | exact fun hr => hr | exact h.regs); (first | exact fun _ => Grows.refl _ | exact h.adds); cases p <;> first | exact absurd (by decide) hp | apply Eq.refl | apply h.same _ hp)
    | intro _
    | (dsimp only))

theorem Dev.planRunOut_keeps (d : Dev) (a1 : Mem) (a2 : Nat) : Keeps [.cnt, .pth] d (Dev.planRunOut d a1 a2) := by
  unfold Dev.planRunOut
  repeat' (first
    | (extract_lets +onlyGivenNames x; first | (refine Keeps.cut x ?_ ?_; (unfold x; clear x); rotate_left; (clear_value x; revert x; intro _ h)) | (revert x; intro _))
    | with_reducible exact Keeps.refl _ _
    | with_reducible assumption
    | split
    | (with_reducible apply Keeps.step (Dev.updPiste_keeps ..); · decide)
    | (with_reducible apply Keeps.step (Dev.planTo_keeps ..); · decide))

theorem Dev.planUntil_keeps (d : Dev) (a1 : Mem) (a2 : Nat) (a3 : Int) (a4 : Int) (a5 : Nat) : Keeps [.cnt, .pth] d (Dev.planUntil d a1 a2 a3 a4 a5).1 := by
  induction a5 generalizing d with
  | zero => unfold Dev.planUntil; exact Keeps.refl _ _
  | succ k ih =>
    unfold Dev.planUntil
    repeat' (first
      | (extract_lets +onlyGivenNames x; first | (refine Keeps.cut x ?_ ?_; (unfold x; clear x); rotate_left; (clear_value x; revert x; intro _ h)) | (revert x; intro _))
      | with_reducible refine Keeps.foldl _ (fun _ _ h => ?_) ?_
      | with_reducible refine Keeps.forRange _ (fun _ _ h => ?_) ?_
      | with_reducible exact Keeps.refl _ _
      | with_reducible assumption
      | split
      | (with_reducible apply KeepsP.step (Dev.planStep_keeps ..); · decide)
      | (with_reducible apply Keeps.step (Dev.planRunOut_keeps ..); · decide)
      | with_reducible refine Keeps.step (ih ..) (by decide) ?_
      | with_reducible refine Keeps.iteL ?_ ?_
      | with_reducible refine Keeps.ofPlan (by assumption) ?_
      | with_reducible refine Keeps.pairR (by assumption) ?_
      | with_reducible refine Keeps.pairL (by assumption) ?_
      | with_reducible refine Keeps.pair3 (by assumption) ?_
      | (refine ⟨fun p hp => ?_, ?_, ?_⟩; rotate_left; (first | exact fun hr => hr | exact h.regs); (first | exact fun _ => Grows.refl _ | exact h.adds); cases p <;> first | exact absurd (by decide) hp | apply Eq.refl | apply h.same _ hp)
      | intro _
      | (dsimp only))

/-! ## Lsr -/

theorem Dev.padDelay_keeps (d : Dev) : Keeps [.freeCount] d (Dev.padDelay d).2 := by
  unfold Dev.padDelay
  repeat' (first
    | (extract_lets +onlyGivenNames x; first | (refine Keeps.cut x ?_ ?_; (unfold x; clear x); rotate_left; (clear_value x; revert x; intro _ h)) | (revert x; intro _))
    | with_reducible refine Keeps.foldl _ (fun _ _ h => ?_) ?_
    | with_reducible refine Keeps.forRange _ (fun _ _ h => ?_) ?_
    | with_reducible exact Keeps.refl _ _
    | with_reducible assumption
    | split
    | (with_reducible apply Keeps.step (Dev.free_keeps ..); · decide)
    | with_reducible refine Keeps.forRangeR _ (fun _ _ h => ?_) ?_
    | with_reducible refine Keeps.foldlR _ (fun _ _ h => ?_) ?_
    | with_reducible refine Keeps.iteR ?_ ?_
    | with_reducible refine Keeps.pairR (by assumption) ?_
    | with_reducible refine Keeps.pairL (by assumption) ?_
    | with_reducible refine Keeps.pair3 (by assumption) ?_
    | (refine ⟨fun p hp => ?_, ?_, ?_⟩; rotate_left; (first | exact fun hr => hr | exact h.regs); (first | exact fun _ => Grows.refl _ | exact h.adds); cases p <;> first | exact absurd (by decide) hp | apply Eq.refl | apply h.same _ hp)
    | intro _
    | (dsimp only))

theorem Dev.updChan_keeps (d : Dev) (a1 : Nat) (a2 : Chan → Chan) : Keeps [.lsr] d (Dev.updChan d a1 a2) := by
  unfold Dev.updChan
  repeat' (first
    | with_reducible exact Keeps.refl _ _
    | (refine ⟨fun p hp => ?_, fun hr => hr, fun _ => Grows.refl _⟩; cases p <;> first | exact absurd (by decide) hp | apply Eq.refl))

theorem Dev.causeFrom_keeps (d : Dev) (a1 : Nat) (a2 : Nat) : Keeps [.lsr] d (Dev.causeFrom d a1 a2) := by
  unfold Dev.causeFrom
  repeat' (first
    | with_reducible exact Keeps.refl _ _
    | (with_reducible apply Keeps.step (Dev.updChan_keeps ..); · decide)
    | (refine ⟨fun p hp => ?_, fun hr => hr, fun _ => Grows.refl _⟩; cases p <;> first | exact absurd (by decide) hp | apply Eq.refl))

theorem Dev.leaveActive_keeps (d : Dev) (a1 : Nat) (a2 : ChanState) (a3 : Bool) : Keeps [.freeCount, .lsr] d (Dev.leaveActive d a1 a2 a3) := by
  unfold Dev.leaveActive
  repeat' (first
    | (extract_lets +onlyGivenNames x; first | (refine Keeps.cut x ?_ ?_; (unfold x; clear x); rotate_left; (clear_value x; revert x; intro _ h)) | (revert x; intro _))
    | with_reducible refine Keeps.foldl _ (fun _ _ h => ?_) ?_
    | with_reducible refine Keeps.forRange _ (fun _ _ h => ?_) ?_
    | with_reducible exact Keeps.refl _ _
    | with_reducible assumption
    | split
    | (with_reducible apply Keeps.step (Dev.padDelay_keeps ..); · decide)
    | (with_reducible apply Keeps.step (Dev.updChan_keeps ..); · decide)
    | with_reducible refine Keeps.pairR (by assumption) ?_
    | with_reducible refine Keeps.pairL (by assumption) ?_
    | with_reducible refine Keeps.pair3 (by assumption) ?_
    | (refine ⟨fun p hp => ?_, ?_, ?_⟩; rotate_left; (first | exact fun hr => hr | exact h.regs); (first | exact fun _ => Grows.refl _ | exact h.adds); cases p <;> first | exact absurd (by decide) hp | apply Eq.refl | apply h.same _ hp)
    | intro _
    | (dsimp only))

theorem Dev.chanEvent_keeps (d : Dev) (a1 : Nat) (a2 : Nat) (a3 : Nat) : Keeps [.merge, .log] d (Dev.chanEvent d a1 a2 a3) := by
  unfold Dev.chanEvent
  repeat' (first
    | with_reducible exact Keeps.refl _ _
    | (with_reducible apply Keeps.step (Dev.raise_keeps ..); · decide)
    | (refine ⟨fun p hp => ?_, fun hr => hr, fun _ => Grows.refl _⟩; cases p <;> first | exact absurd (by decide) hp | apply Eq.refl))

theorem Dev.holdChan_keeps (d : Dev) (a1 : Nat) (a2 : Nat) (a3 : Nat) (a4 : Nat) : Keeps [.merge, .freeCount, .lsr, .log] d (Dev.holdChan d a1 a2 a3 a4) := by
  unfold Dev.holdChan
  repeat' (first
    | (extract_lets +onlyGivenNames x; first | (refine Keeps.cut x ?_ ?_; (unfold x; clear x); rotate_left; (clear_value x; revert x; intro _ h)) | (revert x; intro _))
    | with_reducible exact Keeps.refl _ _
    | with_reducible assumption
    | split
    | (with_reducible apply Keeps.step (Dev.bump_keeps ..); · decide)
    | (with_reducible apply Keeps.step (Dev.updChan_keeps ..); · decide)
    | (with_reducible apply Keeps.step (Dev.chanEvent_keeps ..); · decide)
    | (with_reducible apply Keeps.step (Dev.leaveActive_keeps ..); · decide))

theorem Dev.holdStanding_keeps (d : Dev) (a1 : Nat) : Keeps [.merge, .freeCount, .lsr, .log] d (Dev.holdStanding d a1) := by
  unfold Dev.holdStanding
  repeat' (first
    | with_reducible exact Keeps.refl _ _
    | split
    | (with_reducible apply Keeps.step (Dev.holdChan_keeps ..); · decide))

theorem Dev.takeEnable_keeps (d : Dev) (a1 : Nat) : Keeps [.rw, .rwAct, .merge, .freeCount, .lsr, .log] d (Dev.takeEnable d a1) := by
  unfold Dev.takeEnable
  repeat' (first
    | (extract_lets +onlyGivenNames x; first | (refine Keeps.cut x ?_ ?_; (unfold x; clear x); rotate_left; (clear_value x; revert x; intro _ h)) | (revert x; intro _))
    | with_reducible exact Keeps.refl _ _
    | with_reducible assumption
    | split
    | (with_reducible apply Keeps.step (Dev.updChan_keeps ..); · decide)
    | (with_reducible apply Keeps.step (Dev.setRwNow_keeps ..); · decide)
    | (with_reducible apply Keeps.step (Dev.leaveActive_keeps ..); · decide)
    | (with_reducible apply Keeps.step (Dev.holdStanding_keeps ..); · decide))

theorem Dev.rearm_keeps (d : Dev) (a1 : Nat) : Keeps [.merge, .lsr, .log] d (Dev.rearm d a1) := by
  unfold Dev.rearm
  repeat' (first
    | (extract_lets +onlyGivenNames x; first | (refine Keeps.cut x ?_ ?_; (unfold x; clear x); rotate_left; (clear_value x; revert x; intro _ h)) | (revert x; intro _))
    | with_reducible exact Keeps.refl _ _
    | with_reducible assumption
    | split
    | (with_reducible apply Keeps.step (Dev.updChan_keeps ..); · decide)
    | (with_reducible apply Keeps.step (Dev.chanEvent_keeps ..); · decide))

theorem Dev.takeNext_keeps (d : Dev) (a1 : Nat) : Keeps [.rw, .rwAct, .cnt, .merge, .lsr, .log] d (Dev.takeNext d a1) := by
  unfold Dev.takeNext
  repeat' (first
    | with_reducible exact Keeps.refl _ _
    | split
    | (with_reducible apply Keeps.step (Dev.bump_keeps ..); · decide)
    | (with_reducible apply Keeps.step (Dev.updChan_keeps ..); · decide)
    | (with_reducible apply Keeps.step (Dev.setRwNow_keeps ..); · decide)
    | (with_reducible apply Keeps.step (Dev.rearm_keeps ..); · decide))

theorem Dev.faultChan_keeps (d : Dev) (a1 : Nat) (a2 : Nat) (a3 : Bool) : Keeps [.w1c, .freeCount, .lsr] d (Dev.faultChan d a1 a2 a3) := by
  unfold Dev.faultChan
  repeat' (first
    | (extract_lets +onlyGivenNames x; first | (refine Keeps.cut x ?_ ?_; (unfold x; clear x); rotate_left; (clear_value x; revert x; intro _ h)) | (revert x; intro _))
    | with_reducible exact Keeps.refl _ _
    | with_reducible assumption
    | split
    | (with_reducible apply Keeps.step (Dev.bump_keeps ..); · decide)
    | (with_reducible apply Keeps.step (Dev.orFlag_keeps ..); · decide)
    | (with_reducible apply Keeps.step (Dev.updChan_keeps ..); · decide)
    | (with_reducible apply Keeps.step (Dev.leaveActive_keeps ..); · decide))

theorem Dev.chanEdge_keeps (d : Dev) (a1 : Nat) : Keeps [.rw, .rwAct, .w1c, .cnt, .merge, .freeCount, .lsr, .log] d (Dev.chanEdge d a1) := by
  unfold Dev.chanEdge
  repeat' (first
    | (extract_lets +onlyGivenNames x; first | (refine Keeps.cut x ?_ ?_; (unfold x; clear x); rotate_left; (clear_value x; revert x; intro _ h)) | (revert x; intro _))
    | with_reducible refine Keeps.foldl _ (fun _ _ h => ?_) ?_
    | with_reducible refine Keeps.forRange _ (fun _ _ h => ?_) ?_
    | with_reducible exact Keeps.refl _ _
    | with_reducible assumption
    | split
    | (with_reducible apply Keeps.step (Dev.updChan_keeps ..); · decide)
    | (with_reducible apply Keeps.step (Dev.takeEnable_keeps ..); · decide)
    | (with_reducible apply Keeps.step (Dev.faultChan_keeps ..); · decide)
    | (with_reducible apply Keeps.step (Dev.takeNext_keeps ..); · decide)
    | (refine ⟨fun p hp => ?_, ?_, ?_⟩; rotate_left; (first | exact fun hr => hr | exact h.regs); (first | exact fun _ => Grows.refl _ | exact h.adds); cases p <;> first | exact absurd (by decide) hp | apply Eq.refl | apply h.same _ hp))

theorem Dev.releaseChan_keeps (d : Dev) (a1 : Nat) (a2 : Nat) : Keeps [.merge, .lsr, .log] d (Dev.releaseChan d a1 a2) := by
  unfold Dev.releaseChan
  repeat' (first
    | (extract_lets +onlyGivenNames x; first | (refine Keeps.cut x ?_ ?_; (unfold x; clear x); rotate_left; (clear_value x; revert x; intro _ h)) | (revert x; intro _))
    | with_reducible exact Keeps.refl _ _
    | with_reducible assumption
    | split
    | (with_reducible apply Keeps.step (Dev.updChan_keeps ..); · decide)
    | (with_reducible apply Keeps.step (Dev.rearm_keeps ..); · decide))

theorem Dev.settleFault_keeps (d : Dev) (a1 : Nat) : Keeps [.w1c, .lsr] d (Dev.settleFault d a1) := by
  unfold Dev.settleFault
  repeat' (first
    | (extract_lets +onlyGivenNames x; first | (refine Keeps.cut x ?_ ?_; (unfold x; clear x); rotate_left; (clear_value x; revert x; intro _ h)) | (revert x; intro _))
    | with_reducible exact Keeps.refl _ _
    | with_reducible assumption
    | split
    | (with_reducible apply Keeps.step (Dev.orFlag_keeps ..); · decide)
    | (with_reducible apply Keeps.step (Dev.updChan_keeps ..); · decide))

theorem Dev.lsrFault_keeps (d : Dev) (a1 : Nat) (a2 : Nat) (a3 : Nat) (a4 : Nat) (a5 : Bool) : Keeps [.w1c, .merge, .freeCount, .lsr, .log] d (Dev.lsrFault d a1 a2 a3 a4 a5) := by
  unfold Dev.lsrFault
  repeat' (first
    | with_reducible exact Keeps.refl _ _
    | (with_reducible apply Keeps.step (Dev.chanEvent_keeps ..); · decide)
    | (with_reducible apply Keeps.step (Dev.faultChan_keeps ..); · decide)
    | (refine ⟨fun p hp => ?_, fun hr => hr, fun _ => Grows.refl _⟩; cases p <;> first | exact absurd (by decide) hp | apply Eq.refl))

/-! ## Line -/

theorem Dev.updLine_keeps (d : Dev) (a1 : Nat) (a2 : BlLine → BlLine) : Keeps [.lnk] d (Dev.updLine d a1 a2) := by
  unfold Dev.updLine
  repeat' (first
    | (extract_lets +onlyGivenNames x; first | (refine Keeps.cut x ?_ ?_; (unfold x; clear x); rotate_left; (clear_value x; revert x; intro _ h)) | (revert x; intro _))
    | with_reducible refine Keeps.foldl _ (fun _ _ h => ?_) ?_
    | with_reducible refine Keeps.forRange _ (fun _ _ h => ?_) ?_
    | with_reducible exact Keeps.refl _ _
    | with_reducible assumption
    | split
    | with_reducible refine Keeps.pairR (by assumption) ?_
    | with_reducible refine Keeps.pairL (by assumption) ?_
    | with_reducible refine Keeps.pair3 (by assumption) ?_
    | (refine ⟨fun p hp => ?_, ?_, ?_⟩; rotate_left; (first | exact fun hr => hr | exact h.regs); (first | exact fun _ => Grows.refl _ | exact h.adds); cases p <;> first | exact absurd (by decide) hp | apply Eq.refl | apply h.same _ hp)
    | intro _
    | (dsimp only)
    | with_reducible refine Keeps.step (keeps_lnk ..) (by decide) ?_)

theorem Dev.putFrame_keeps (d : Dev) (a1 : Nat) (a2 : Frame) : Keeps [.out, .lnk] d (Dev.putFrame d a1 a2) := by
  unfold Dev.putFrame
  repeat' (first
    | (extract_lets +onlyGivenNames x; first | (refine Keeps.cut x ?_ ?_; (unfold x; clear x); rotate_left; (clear_value x; revert x; intro _ h)) | (revert x; intro _))
    | with_reducible refine Keeps.foldl _ (fun _ _ h => ?_) ?_
    | with_reducible refine Keeps.forRange _ (fun _ _ h => ?_) ?_
    | with_reducible exact Keeps.refl _ _
    | with_reducible assumption
    | split
    | (with_reducible apply Keeps.step (Dev.emit_keeps ..); · decide)
    | (with_reducible apply Keeps.step (Dev.updLine_keeps ..); · decide)
    | with_reducible refine Keeps.pairR (by assumption) ?_
    | with_reducible refine Keeps.pairL (by assumption) ?_
    | with_reducible refine Keeps.pair3 (by assumption) ?_
    | (refine ⟨fun p hp => ?_, ?_, ?_⟩; rotate_left; (first | exact fun hr => hr | exact h.regs); (first | exact fun _ => Grows.refl _ | exact h.adds); cases p <;> first | exact absurd (by decide) hp | apply Eq.refl | apply h.same _ hp)
    | intro _
    | (dsimp only))

theorem Dev.putLinkctl_keeps (d : Dev) (a1 : Nat) (a2 : W64) : Keeps [.out, .lnk] d (Dev.putLinkctl d a1 a2) := by
  unfold Dev.putLinkctl
  repeat' (first
    | (extract_lets +onlyGivenNames x; first | (refine Keeps.cut x ?_ ?_; (unfold x; clear x); rotate_left; (clear_value x; revert x; intro _ h)) | (revert x; intro _))
    | with_reducible refine Keeps.foldl _ (fun _ _ h => ?_) ?_
    | with_reducible refine Keeps.forRange _ (fun _ _ h => ?_) ?_
    | with_reducible exact Keeps.refl _ _
    | with_reducible assumption
    | split
    | (with_reducible apply Keeps.step (Dev.emit_keeps ..); · decide)
    | (with_reducible apply Keeps.step (Dev.updLine_keeps ..); · decide)
    | with_reducible refine Keeps.pairR (by assumption) ?_
    | with_reducible refine Keeps.pairL (by assumption) ?_
    | with_reducible refine Keeps.pair3 (by assumption) ?_
    | (refine ⟨fun p hp => ?_, ?_, ?_⟩; rotate_left; (first | exact fun hr => hr | exact h.regs); (first | exact fun _ => Grows.refl _ | exact h.adds); cases p <;> first | exact absurd (by decide) hp | apply Eq.refl | apply h.same _ hp)
    | intro _
    | (dsimp only))

theorem Dev.lineStart_keeps (d : Dev) (a1 : Nat) : Keeps [.lnk] d (Dev.lineStart d a1) := by
  unfold Dev.lineStart
  repeat' (first
    | (extract_lets +onlyGivenNames x; first | (refine Keeps.cut x ?_ ?_; (unfold x; clear x); rotate_left; (clear_value x; revert x; intro _ h)) | (revert x; intro _))
    | with_reducible refine Keeps.foldl _ (fun _ _ h => ?_) ?_
    | with_reducible refine Keeps.forRange _ (fun _ _ h => ?_) ?_
    | with_reducible exact Keeps.refl _ _
    | with_reducible assumption
    | split
    | (with_reducible apply Keeps.step (Dev.updLine_keeps ..); · decide)
    | with_reducible refine Keeps.pairR (by assumption) ?_
    | with_reducible refine Keeps.pairL (by assumption) ?_
    | with_reducible refine Keeps.pair3 (by assumption) ?_
    | (refine ⟨fun p hp => ?_, ?_, ?_⟩; rotate_left; (first | exact fun hr => hr | exact h.regs); (first | exact fun _ => Grows.refl _ | exact h.adds); cases p <;> first | exact absurd (by decide) hp | apply Eq.refl | apply h.same _ hp)
    | intro _
    | (dsimp only))

theorem Dev.lineClear_keeps (d : Dev) (a1 : Nat) : Keeps [.lnk] d (Dev.lineClear d a1) := by
  unfold Dev.lineClear
  repeat' (first
    | (extract_lets +onlyGivenNames x; first | (refine Keeps.cut x ?_ ?_; (unfold x; clear x); rotate_left; (clear_value x; revert x; intro _ h)) | (revert x; intro _))
    | with_reducible refine Keeps.foldl _ (fun _ _ h => ?_) ?_
    | with_reducible refine Keeps.forRange _ (fun _ _ h => ?_) ?_
    | with_reducible exact Keeps.refl _ _
    | with_reducible assumption
    | split
    | (with_reducible apply Keeps.step (Dev.updLine_keeps ..); · decide)
    | with_reducible refine Keeps.pairR (by assumption) ?_
    | with_reducible refine Keeps.pairL (by assumption) ?_
    | with_reducible refine Keeps.pair3 (by assumption) ?_
    | (refine ⟨fun p hp => ?_, ?_, ?_⟩; rotate_left; (first | exact fun hr => hr | exact h.regs); (first | exact fun _ => Grows.refl _ | exact h.adds); cases p <;> first | exact absurd (by decide) hp | apply Eq.refl | apply h.same _ hp)
    | intro _
    | (dsimp only))

theorem Dev.sendPair_keeps (d : Dev) (a1 : Nat) : Keeps [.out, .lnk] d (Dev.sendPair d a1) := by
  unfold Dev.sendPair
  repeat' (first
    | (extract_lets +onlyGivenNames x; first | (refine Keeps.cut x ?_ ?_; (unfold x; clear x); rotate_left; (clear_value x; revert x; intro _ h)) | (revert x; intro _))
    | with_reducible refine Keeps.foldl _ (fun _ _ h => ?_) ?_
    | with_reducible refine Keeps.forRange _ (fun _ _ h => ?_) ?_
    | with_reducible exact Keeps.refl _ _
    | with_reducible assumption
    | split
    | (with_reducible apply Keeps.step (Dev.emit_keeps ..); · decide)
    | (with_reducible apply Keeps.step (Dev.updLine_keeps ..); · decide)
    | with_reducible refine Keeps.pairR (by assumption) ?_
    | with_reducible refine Keeps.pairL (by assumption) ?_
    | with_reducible refine Keeps.pair3 (by assumption) ?_
    | (refine ⟨fun p hp => ?_, ?_, ?_⟩; rotate_left; (first | exact fun hr => hr | exact h.regs); (first | exact fun _ => Grows.refl _ | exact h.adds); cases p <;> first | exact absurd (by decide) hp | apply Eq.refl | apply h.same _ hp)
    | intro _
    | (dsimp only))

theorem Dev.lineCycle_keeps (d : Dev) : Keeps [.out, .lnk] d (Dev.lineCycle d) := by
  unfold Dev.lineCycle
  repeat' (first
    | (extract_lets +onlyGivenNames x; first | (refine Keeps.cut x ?_ ?_; (unfold x; clear x); rotate_left; (clear_value x; revert x; intro _ h)) | (revert x; intro _))
    | with_reducible refine Keeps.foldl _ (fun _ _ h => ?_) ?_
    | with_reducible refine Keeps.forRange _ (fun _ _ h => ?_) ?_
    | with_reducible exact Keeps.refl _ _
    | with_reducible assumption
    | split
    | (with_reducible apply Keeps.step (Dev.sendPair_keeps ..); · decide)
    | with_reducible refine Keeps.pairR (by assumption) ?_
    | with_reducible refine Keeps.pairL (by assumption) ?_
    | with_reducible refine Keeps.pair3 (by assumption) ?_
    | (refine ⟨fun p hp => ?_, ?_, ?_⟩; rotate_left; (first | exact fun hr => hr | exact h.regs); (first | exact fun _ => Grows.refl _ | exact h.adds); cases p <;> first | exact absurd (by decide) hp | apply Eq.refl | apply h.same _ hp)
    | intro _
    | (dsimp only))

/-! ## LnkSend -/

theorem Dev.routerDrop_keeps (d : Dev) (a1 : Frame) (a2 : Nat) : Keeps [.cnt, .merge, .log] d (Dev.routerDrop d a1 a2) := by
  unfold Dev.routerDrop
  repeat' (first
    | with_reducible exact Keeps.refl _ _
    | (with_reducible apply Keeps.step (Dev.bump_keeps ..); · decide)
    | (with_reducible apply Keeps.step (Dev.raise_keeps ..); · decide)
    | (refine ⟨fun p hp => ?_, fun hr => hr, fun _ => Grows.refl _⟩; cases p <;> first | exact absurd (by decide) hp | apply Eq.refl))

theorem Dev.updBl_keeps (d : Dev) (a1 : Nat) (a2 : BlPort → BlPort) : Keeps [.lnk] d (Dev.updBl d a1 a2) := by
  unfold Dev.updBl
  repeat' (first
    | with_reducible exact Keeps.refl _ _
    | (refine ⟨fun p hp => ?_, fun hr => hr, fun _ => Grows.refl _⟩; cases p <;> first | exact absurd (by decide) hp | apply Eq.refl))

theorem Dev.updVl_keeps (d : Dev) (a1 : Nat) (a2 : Nat) (a3 : VLane → VLane) : Keeps [.lnk] d (Dev.updVl d a1 a2 a3) := by
  unfold Dev.updVl
  repeat' (first
    | with_reducible exact Keeps.refl _ _
    | (with_reducible apply Keeps.step (Dev.updBl_keeps ..); · decide)
    | (refine ⟨fun p hp => ?_, fun hr => hr, fun _ => Grows.refl _⟩; cases p <;> first | exact absurd (by decide) hp | apply Eq.refl))

theorem Dev.pumpVl_keeps (d : Dev) (a1 : Nat) (a2 : Nat) (a3 : Nat) : Keeps [.cnt, .out, .lnk] d (Dev.pumpVl d a1 a2 a3) := by
  induction a3 generalizing d with
  | zero => unfold Dev.pumpVl; exact Keeps.refl _ _
  | succ k ih =>
    unfold Dev.pumpVl
    repeat' (first
      | (extract_lets +onlyGivenNames x; first | (refine Keeps.cut x ?_ ?_; (unfold x; clear x); rotate_left; (clear_value x; revert x; intro _ h)) | (revert x; intro _))
      | with_reducible refine Keeps.foldl _ (fun _ _ h => ?_) ?_
      | with_reducible refine Keeps.forRange _ (fun _ _ h => ?_) ?_
      | with_reducible exact Keeps.refl _ _
      | with_reducible assumption
      | split
      | (with_reducible apply Keeps.step (Dev.bump_keeps ..); · decide)
      | (with_reducible apply Keeps.step (Dev.updVl_keeps ..); · decide)
      | (with_reducible apply Keeps.step (Dev.putFrame_keeps ..); · decide)
      | with_reducible refine Keeps.step (ih ..) (by decide) ?_
      | with_reducible refine Keeps.pairR (by assumption) ?_
      | with_reducible refine Keeps.pairL (by assumption) ?_
      | with_reducible refine Keeps.pair3 (by assumption) ?_
      | (refine ⟨fun p hp => ?_, ?_, ?_⟩; rotate_left; (first | exact fun hr => hr | exact h.regs); (first | exact fun _ => Grows.refl _ | exact h.adds); cases p <;> first | exact absurd (by decide) hp | apply Eq.refl | apply h.same _ hp)
      | intro _
      | (dsimp only))

theorem Dev.pumpPort_keeps (d : Dev) (a1 : Nat) : Keeps [.cnt, .out, .lnk] d (Dev.pumpPort d a1) := by
  unfold Dev.pumpPort
  repeat' (first
    | with_reducible exact Keeps.refl _ _
    | (with_reducible apply Keeps.step (Dev.pumpVl_keeps ..); · decide)
    | (refine ⟨fun p hp => ?_, fun hr => hr, fun _ => Grows.refl _⟩; cases p <;> first | exact absurd (by decide) hp | apply Eq.refl))

theorem Dev.blSend_keeps (d : Dev) (a1 : Nat) (a2 : Frame) : Keeps [.cnt, .out, .lnk] d (Dev.blSend d a1 a2) := by
  unfold Dev.blSend
  repeat' (first
    | with_reducible exact Keeps.refl _ _
    | (with_reducible apply Keeps.step (Dev.updVl_keeps ..); · decide)
    | (with_reducible apply Keeps.step (Dev.pumpPort_keeps ..); · decide)
    | (refine ⟨fun p hp => ?_, fun hr => hr, fun _ => Grows.refl _⟩; cases p <;> first | exact absurd (by decide) hp | apply Eq.refl))

theorem Dev.routeFrame_keeps (d : Dev) (a1 : Option Nat) (a2 : Frame) : Keeps [.cnt, .merge, .out, .lnk, .log] d (Dev.routeFrame d a1 a2).1 := by
  unfold Dev.routeFrame
  repeat' (first
    | (extract_lets +onlyGivenNames x; first | (refine Keeps.cut x ?_ ?_; (unfold x; clear x); rotate_left; (clear_value x; revert x; intro _ h)) | (revert x; intro _))
    | with_reducible refine Keeps.foldl _ (fun _ _ h => ?_) ?_
    | with_reducible refine Keeps.forRange _ (fun _ _ h => ?_) ?_
    | with_reducible exact Keeps.refl _ _
    | with_reducible assumption
    | split
    | (with_reducible apply Keeps.step (Dev.bump_keeps ..); · decide)
    | (with_reducible apply Keeps.step (Dev.routerDrop_keeps ..); · decide)
    | (with_reducible apply Keeps.step (Dev.blSend_keeps ..); · decide)
    | with_reducible refine Keeps.iteL ?_ ?_
    | with_reducible refine Keeps.pairR (by assumption) ?_
    | with_reducible refine Keeps.pairL (by assumption) ?_
    | with_reducible refine Keeps.pair3 (by assumption) ?_
    | (refine ⟨fun p hp => ?_, ?_, ?_⟩; rotate_left; (first | exact fun hr => hr | exact h.regs); (first | exact fun _ => Grows.refl _ | exact h.adds); cases p <;> first | exact absurd (by decide) hp | apply Eq.refl | apply h.same _ hp)
    | intro _
    | (dsimp only)
    | with_reducible refine Keeps.step (keeps_lnk ..) (by decide) ?_)

theorem Dev.pumpExports_keeps (d : Dev) (a1 : Nat) : Keeps [.cnt, .merge, .out, .lnk, .log] d (Dev.pumpExports d a1) := by
  induction a1 generalizing d with
  | zero => unfold Dev.pumpExports; exact Keeps.refl _ _
  | succ k ih =>
    unfold Dev.pumpExports
    repeat' (first
      | (extract_lets +onlyGivenNames x; first | (refine Keeps.cut x ?_ ?_; (unfold x; clear x); rotate_left; (clear_value x; revert x; intro _ h)) | (revert x; intro _))
      | with_reducible refine Keeps.foldl _ (fun _ _ h => ?_) ?_
      | with_reducible refine Keeps.forRange _ (fun _ _ h => ?_) ?_
      | with_reducible exact Keeps.refl _ _
      | with_reducible assumption
      | split
      | (with_reducible apply Keeps.step (Dev.routeFrame_keeps ..); · decide)
      | with_reducible refine Keeps.step (ih ..) (by decide) ?_
      | with_reducible refine Keeps.pairR (by assumption) ?_
      | with_reducible refine Keeps.pairL (by assumption) ?_
      | with_reducible refine Keeps.pair3 (by assumption) ?_
      | (refine ⟨fun p hp => ?_, ?_, ?_⟩; rotate_left; (first | exact fun hr => hr | exact h.regs); (first | exact fun _ => Grows.refl _ | exact h.adds); cases p <;> first | exact absurd (by decide) hp | apply Eq.refl | apply h.same _ hp)
      | intro _
      | (dsimp only))

theorem Dev.exportEvent_keeps (d : Dev) (a1 : Item) : Keeps [.cnt, .merge, .out, .lnk, .log] d (Dev.exportEvent d a1) := by
  unfold Dev.exportEvent
  repeat' (first
    | (extract_lets +onlyGivenNames x; first | (refine Keeps.cut x ?_ ?_; (unfold x; clear x); rotate_left; (clear_value x; revert x; intro _ h)) | (revert x; intro _))
    | with_reducible refine Keeps.foldl _ (fun _ _ h => ?_) ?_
    | with_reducible refine Keeps.forRange _ (fun _ _ h => ?_) ?_
    | with_reducible exact Keeps.refl _ _
    | with_reducible assumption
    | split
    | (with_reducible apply Keeps.step (Dev.bump_keeps ..); · decide)
    | (with_reducible apply Keeps.step (Dev.raise_keeps ..); · decide)
    | (with_reducible apply Keeps.step (Dev.pumpExports_keeps ..); · decide)
    | with_reducible refine Keeps.pairR (by assumption) ?_
    | with_reducible refine Keeps.pairL (by assumption) ?_
    | with_reducible refine Keeps.pair3 (by assumption) ?_
    | (refine ⟨fun p hp => ?_, ?_, ?_⟩; rotate_left; (first | exact fun hr => hr | exact h.regs); (first | exact fun _ => Grows.refl _ | exact h.adds); cases p <;> first | exact absurd (by decide) hp | apply Eq.refl | apply h.same _ hp)
    | intro _
    | (dsimp only)
    | with_reducible refine Keeps.step (keeps_lnk ..) (by decide) ?_)

theorem Dev.sendResult_keeps (d : Dev) (a1 : Entry) (a2 : Nat) (a3 : Nat) (a4 : Nat) (a5 : List W64) : Keeps [.cnt, .merge, .out, .lnk, .log] d (Dev.sendResult d a1 a2 a3 a4 a5) := by
  unfold Dev.sendResult
  repeat' (first
    | with_reducible exact Keeps.refl _ _
    | split
    | (with_reducible apply Keeps.step (Dev.routeFrame_keeps ..); · decide))

theorem Dev.answer_keeps (d : Dev) (a1 : Entry) (a2 : Nat) (a3 : Nat) (a4 : Nat) (a5 : (List W64)) : Keeps [.cnt, .merge, .out, .hst, .lnk, .log] d (Dev.answer d a1 a2 a3 a4 a5) := by
  unfold Dev.answer
  repeat' (first
    | with_reducible exact Keeps.refl _ _
    | split
    | (with_reducible apply Keeps.step (Dev.complete_keeps ..); · decide)
    | (with_reducible apply Keeps.step (Dev.sendResult_keeps ..); · decide))

theorem Dev.freePages_keeps (d : Dev) (a1 : List Nat) : Keeps [.crs] d (Dev.freePages d a1) := by
  unfold Dev.freePages
  repeat' (first
    | with_reducible exact Keeps.refl _ _
    | (refine ⟨fun p hp => ?_, fun hr => hr, fun _ => Grows.refl _⟩; cases p <;> first | exact absurd (by decide) hp | apply Eq.refl))

theorem Dev.fedResult_keeps (d : Dev) (a1 : Brick) (a2 : Nat) (a3 : Nat) (a4 : Nat) (a5 : List W64) : Keeps [.cnt, .merge, .out, .lnk, .log] d (Dev.fedResult d a1 a2 a3 a4 a5) := by
  unfold Dev.fedResult
  repeat' (first
    | with_reducible exact Keeps.refl _ _
    | split
    | (with_reducible apply Keeps.step (Dev.routeFrame_keeps ..); · decide)
    | (with_reducible apply Keeps.step (Dev.sendResult_keeps ..); · decide))

theorem Dev.fedRemove_keeps (d : Dev) (a1 : FedEntry) : Keeps [.lnk, .crs] d (Dev.fedRemove d a1) := by
  unfold Dev.fedRemove
  repeat' (first
    | with_reducible exact Keeps.refl _ _
    | (with_reducible apply Keeps.step (Dev.freePages_keeps ..); · decide)
    | (refine ⟨fun p hp => ?_, fun hr => hr, fun _ => Grows.refl _⟩; cases p <;> first | exact absurd (by decide) hp | apply Eq.refl))

theorem Dev.framePagesFree_keeps (d : Dev) (a1 : Frame) : Keeps [.lnk, .crs] d (Dev.framePagesFree d a1) := by
  unfold Dev.framePagesFree
  repeat' (first
    | with_reducible exact Keeps.refl _ _
    | split
    | (with_reducible apply Keeps.step (Dev.freePages_keeps ..); · decide)
    | (refine ⟨fun p hp => ?_, fun hr => hr, fun _ => Grows.refl _⟩; cases p <;> first | exact absurd (by decide) hp | apply Eq.refl))

theorem Dev.fedFail_keeps (d : Dev) (a1 : FedEntry) (a2 : Nat) (a3 : Nat) : Keeps [.merge, .hst, .lnk, .crs] d (Dev.fedFail d a1 a2 a3) := by
  unfold Dev.fedFail
  repeat' (first
    | with_reducible exact Keeps.refl _ _
    | (with_reducible apply Keeps.step (Dev.complete_keeps ..); · decide)
    | (with_reducible apply Keeps.step (Dev.fedRemove_keeps ..); · decide)
    | (refine ⟨fun p hp => ?_, fun hr => hr, fun _ => Grows.refl _⟩; cases p <;> first | exact absurd (by decide) hp | apply Eq.refl))

theorem Dev.feedLost_keeps (d : Dev) (a1 : FedEntry) : Keeps [.merge, .hst, .lnk, .crs, .log] d (Dev.feedLost d a1) := by
  unfold Dev.feedLost
  repeat' (first
    | with_reducible exact Keeps.refl _ _
    | (with_reducible apply Keeps.step (Dev.raise_keeps ..); · decide)
    | (with_reducible apply Keeps.step (Dev.fedFail_keeps ..); · decide)
    | (refine ⟨fun p hp => ?_, fun hr => hr, fun _ => Grows.refl _⟩; cases p <;> first | exact absurd (by decide) hp | apply Eq.refl))

theorem Dev.fedSend_keeps (d : Dev) (a1 : FedEntry) (a2 : Frame) : Keeps [.cnt, .merge, .out, .hst, .lnk, .crs, .log] d (Dev.fedSend d a1 a2) := by
  unfold Dev.fedSend
  repeat' (first
    | (extract_lets +onlyGivenNames x; first | (refine Keeps.cut x ?_ ?_; (unfold x; clear x); rotate_left; (clear_value x; revert x; intro _ h)) | (revert x; intro _))
    | with_reducible refine Keeps.foldl _ (fun _ _ h => ?_) ?_
    | with_reducible refine Keeps.forRange _ (fun _ _ h => ?_) ?_
    | with_reducible exact Keeps.refl _ _
    | with_reducible assumption
    | split
    | (with_reducible apply Keeps.step (Dev.bump_keeps ..); · decide)
    | (with_reducible apply Keeps.step (Dev.routeFrame_keeps ..); · decide)
    | (with_reducible apply Keeps.step (Dev.fedFail_keeps ..); · decide)
    | with_reducible refine Keeps.pairR (by assumption) ?_
    | with_reducible refine Keeps.pairL (by assumption) ?_
    | with_reducible refine Keeps.pair3 (by assumption) ?_
    | (refine ⟨fun p hp => ?_, ?_, ?_⟩; rotate_left; (first | exact fun hr => hr | exact h.regs); (first | exact fun _ => Grows.refl _ | exact h.adds); cases p <;> first | exact absurd (by decide) hp | apply Eq.refl | apply h.same _ hp)
    | intro _
    | (dsimp only)
    | with_reducible refine Keeps.step (keeps_lnk ..) (by decide) ?_)

/-! ## Crs -/

theorem Dev.updBrick_keeps (d : Dev) (a1 : Nat) (a2 : Brick → Brick) : Keeps [.crs] d (Dev.updBrick d a1 a2) := by
  unfold Dev.updBrick
  repeat' (first
    | with_reducible exact Keeps.refl _ _
    | (refine ⟨fun p hp => ?_, fun hr => hr, fun _ => Grows.refl _⟩; cases p <;> first | exact absurd (by decide) hp | apply Eq.refl))

theorem Dev.settleUnplaceable_keeps (d : Dev) : Keeps [.crs] d (Dev.settleUnplaceable d) := by
  unfold Dev.settleUnplaceable
  repeat' (first
    | with_reducible exact Keeps.refl _ _
    | (refine ⟨fun p hp => ?_, fun hr => hr, fun _ => Grows.refl _⟩; cases p <;> first | exact absurd (by decide) hp | apply Eq.refl))

theorem Dev.enterReady_keeps (d : Dev) (a1 : Nat) : Keeps [.crs, .msn] d (Dev.enterReady d a1) := by
  unfold Dev.enterReady
  repeat' (first
    | with_reducible exact Keeps.refl _ _
    | (with_reducible apply Keeps.step (Dev.updBrick_keeps ..); · decide)
    | (with_reducible apply Keeps.step (Dev.settleUnplaceable_keeps ..); · decide)
    | (refine ⟨fun p hp => ?_, fun hr => hr, fun _ => Grows.refl _⟩; cases p <;> first | exact absurd (by decide) hp | apply Eq.refl))

theorem Dev.dropBrick_keeps (d : Dev) (a1 : Brick) : Keeps [.crs, .msn] d (Dev.dropBrick d a1) := by
  unfold Dev.dropBrick
  repeat' (first
    | with_reducible exact Keeps.refl _ _
    | (refine ⟨fun p hp => ?_, fun hr => hr, fun _ => Grows.refl _⟩; cases p <;> first | exact absurd (by decide) hp | apply Eq.refl))

theorem Dev.answerBrick_keeps (d : Dev) (a1 : Brick) (a2 : Nat) (a3 : Nat) (a4 : Nat) (a5 : List W64) : Keeps [.cnt, .merge, .out, .hst, .lnk, .log] d (Dev.answerBrick d a1 a2 a3 a4 a5) := by
  unfold Dev.answerBrick
  repeat' (first
    | with_reducible exact Keeps.refl _ _
    | split
    | (with_reducible apply Keeps.step (Dev.complete_keeps ..); · decide)
    | (with_reducible apply Keeps.step (Dev.fedResult_keeps ..); · decide))

theorem Dev.rejectBrick_keeps (d : Dev) (a1 : Brick) (a2 : Nat) (a3 : Nat) : Keeps [.cnt, .merge, .out, .hst, .lnk, .crs, .msn, .log] d (Dev.rejectBrick d a1 a2 a3) := by
  unfold Dev.rejectBrick
  repeat' (first
    | (extract_lets +onlyGivenNames x; first | (refine Keeps.cut x ?_ ?_; (unfold x; clear x); rotate_left; (clear_value x; revert x; intro _ h)) | (revert x; intro _))
    | with_reducible exact Keeps.refl _ _
    | with_reducible assumption
    | split
    | (with_reducible apply Keeps.step (Dev.bump_keeps ..); · decide)
    | (with_reducible apply Keeps.step (Dev.dropBrick_keeps ..); · decide)
    | (with_reducible apply Keeps.step (Dev.answerBrick_keeps ..); · decide)
    | (refine ⟨fun p hp => ?_, ?_, ?_⟩; rotate_left; (first | exact fun hr => hr | exact h.regs); (first | exact fun _ => Grows.refl _ | exact h.adds); cases p <;> first | exact absurd (by decide) hp | apply Eq.refl | apply h.same _ hp))

theorem Dev.finishOne_keeps (d : Dev) (a1 : Brick) (a2 : Nat) (a3 : Nat) : Keeps [.cnt, .merge, .out, .hst, .lnk, .crs, .msn, .log] d (Dev.finishOne d a1 a2 a3) := by
  unfold Dev.finishOne
  repeat' (first
    | (extract_lets +onlyGivenNames x; first | (refine Keeps.cut x ?_ ?_; (unfold x; clear x); rotate_left; (clear_value x; revert x; intro _ h)) | (revert x; intro _))
    | with_reducible exact Keeps.refl _ _
    | with_reducible assumption
    | split
    | (with_reducible apply Keeps.step (Dev.bump_keeps ..); · decide)
    | (with_reducible apply Keeps.step (Dev.dropBrick_keeps ..); · decide)
    | (with_reducible apply Keeps.step (Dev.answerBrick_keeps ..); · decide)
    | (refine ⟨fun p hp => ?_, ?_, ?_⟩; rotate_left; (first | exact fun hr => hr | exact h.regs); (first | exact fun _ => Grows.refl _ | exact h.adds); cases p <;> first | exact absurd (by decide) hp | apply Eq.refl | apply h.same _ hp))

theorem Dev.depsMet_keeps (d : Dev) (a1 : Brick) : Keeps [.crs, .msn] d (Dev.depsMet d a1) := by
  unfold Dev.depsMet
  repeat' (first
    | with_reducible exact Keeps.refl _ _
    | split
    | (with_reducible apply Keeps.step (Dev.updBrick_keeps ..); · decide)
    | (with_reducible apply Keeps.step (Dev.enterReady_keeps ..); · decide))

theorem Dev.resolveDeps_keeps (a0 : Nat) (d : Dev) : Keeps [.cnt, .merge, .out, .hst, .lnk, .crs, .msn, .log] d (Dev.resolveDeps a0 d) := by
  induction a0 generalizing d with
  | zero => unfold Dev.resolveDeps; exact Keeps.refl _ _
  | succ k ih =>
    unfold Dev.resolveDeps
    repeat' (first
      | (extract_lets +onlyGivenNames x; first | (refine Keeps.cut x ?_ ?_; (unfold x; clear x); rotate_left; (clear_value x; revert x; intro _ h)) | (revert x; intro _))
      | with_reducible refine Keeps.foldl _ (fun _ _ h => ?_) ?_
      | with_reducible refine Keeps.forRange _ (fun _ _ h => ?_) ?_
      | with_reducible exact Keeps.refl _ _
      | with_reducible assumption
      | split
      | (with_reducible apply Keeps.step (Dev.raise_keeps ..); · decide)
      | (with_reducible apply Keeps.step (Dev.finishOne_keeps ..); · decide)
      | (with_reducible apply Keeps.step (Dev.depsMet_keeps ..); · decide)
      | with_reducible refine Keeps.step (ih ..) (by decide) ?_
      | with_reducible refine Keeps.pairR (by assumption) ?_
      | with_reducible refine Keeps.pairL (by assumption) ?_
      | with_reducible refine Keeps.pair3 (by assumption) ?_
      | (refine ⟨fun p hp => ?_, ?_, ?_⟩; rotate_left; (first | exact fun hr => hr | exact h.regs); (first | exact fun _ => Grows.refl _ | exact h.adds); cases p <;> first | exact absurd (by decide) hp | apply Eq.refl | apply h.same _ hp)
      | intro _
      | (dsimp only))

theorem Dev.acceptBrick_keeps (d : Dev) (a1 : Brick) (a2 : List Byte) : Keeps [.cnt, .merge, .out, .hst, .lnk, .crs, .msn, .log] d (Dev.acceptBrick d a1 a2) := by
  unfold Dev.acceptBrick
  repeat' (first
    | with_reducible exact Keeps.refl _ _
    | (with_reducible apply Keeps.step (Dev.bump_keeps ..); · decide)
    | (with_reducible apply Keeps.step (Dev.updBrick_keeps ..); · decide)
    | (with_reducible apply Keeps.step (Dev.resolveDeps_keeps ..); · decide)
    | with_reducible refine Keeps.step (keeps_crs ..) (by decide) ?_)

theorem Dev.finishBrick_keeps (d : Dev) (a1 : Brick) (a2 : Nat) (a3 : Nat) : Keeps [.cnt, .merge, .out, .hst, .lnk, .crs, .msn, .log] d (Dev.finishBrick d a1 a2 a3) := by
  unfold Dev.finishBrick
  repeat' (first
    | with_reducible exact Keeps.refl _ _
    | (with_reducible apply Keeps.step (Dev.finishOne_keeps ..); · decide)
    | (with_reducible apply Keeps.step (Dev.resolveDeps_keeps ..); · decide)
    | (refine ⟨fun p hp => ?_, fun hr => hr, fun _ => Grows.refl _⟩; cases p <;> first | exact absurd (by decide) hp | apply Eq.refl))

theorem Dev.unreachable_keeps (d : Dev) (a1 : Brick) : Keeps [.cnt, .merge, .out, .hst, .lnk, .crs, .msn, .log] d (Dev.unreachable d a1) := by
  unfold Dev.unreachable
  repeat' (first
    | with_reducible exact Keeps.refl _ _
    | (with_reducible apply Keeps.step (Dev.raise_keeps ..); · decide)
    | (with_reducible apply Keeps.step (Dev.finishBrick_keeps ..); · decide)
    | (refine ⟨fun p hp => ?_, fun hr => hr, fun _ => Grows.refl _⟩; cases p <;> first | exact absurd (by decide) hp | apply Eq.refl))

/-! ## Mason -/

theorem Dev.updLaser_keeps (d : Dev) (a1 : Nat) (a2 : Laser → Laser) : Keeps [.msn] d (Dev.updLaser d a1 a2) := by
  unfold Dev.updLaser
  repeat' (first
    | with_reducible exact Keeps.refl _ _
    | (refine ⟨fun p hp => ?_, fun hr => hr, fun _ => Grows.refl _⟩; cases p <;> first | exact absurd (by decide) hp | apply Eq.refl))

theorem Dev.stopPiste_keeps (d : Dev) (a1 : Nat) (a2 : Bool) : Keeps [.cnt, .pth] d (Dev.stopPiste d a1 a2) := by
  unfold Dev.stopPiste
  repeat' (first
    | (extract_lets +onlyGivenNames x; first | (refine Keeps.cut x ?_ ?_; (unfold x; clear x); rotate_left; (clear_value x; revert x; intro _ h)) | (revert x; intro _))
    | with_reducible exact Keeps.refl _ _
    | with_reducible assumption
    | split
    | (with_reducible apply Keeps.step (Dev.bump_keeps ..); · decide)
    | (with_reducible apply Keeps.step (Dev.updPiste_keeps ..); · decide))

theorem Dev.closeSlice_keeps (d : Dev) (a1 : Nat) : Keeps [.msn] d (Dev.closeSlice d a1) := by
  unfold Dev.closeSlice
  repeat' (first
    | with_reducible exact Keeps.refl _ _
    | (with_reducible apply Keeps.step (Dev.updLaser_keeps ..); · decide)
    | (refine ⟨fun p hp => ?_, fun hr => hr, fun _ => Grows.refl _⟩; cases p <;> first | exact absurd (by decide) hp | apply Eq.refl))

theorem Dev.setLaser_keeps (d : Dev) (a1 : Nat) (a2 : LaserState) : Keeps [.crs, .msn] d (Dev.setLaser d a1 a2) := by
  unfold Dev.setLaser
  repeat' (first
    | with_reducible exact Keeps.refl _ _
    | split
    | (with_reducible apply Keeps.step (Dev.updLaser_keeps ..); · decide)
    | (with_reducible apply Keeps.step (Dev.closeSlice_keeps ..); · decide)
    | (with_reducible apply Keeps.step (Dev.settleUnplaceable_keeps ..); · decide))

theorem Dev.returnQueued_keeps (d : Dev) (a1 : Nat) : Keeps [.crs, .msn, .pth] d (Dev.returnQueued d a1) := by
  unfold Dev.returnQueued
  repeat' (first
    | (extract_lets +onlyGivenNames x; first | (refine Keeps.cut x ?_ ?_; (unfold x; clear x); rotate_left; (clear_value x; revert x; intro _ h)) | (revert x; intro _))
    | with_reducible refine Keeps.foldl _ (fun _ _ h => ?_) ?_
    | with_reducible refine Keeps.forRange _ (fun _ _ h => ?_) ?_
    | with_reducible exact Keeps.refl _ _
    | with_reducible assumption
    | split
    | (with_reducible apply Keeps.step (Dev.updLaser_keeps ..); · decide)
    | (with_reducible apply Keeps.step (Dev.updPiste_keeps ..); · decide)
    | (with_reducible apply Keeps.step (Dev.enterReady_keeps ..); · decide)
    | (refine ⟨fun p hp => ?_, ?_, ?_⟩; rotate_left; (first | exact fun hr => hr | exact h.regs); (first | exact fun _ => Grows.refl _ | exact h.adds); cases p <;> first | exact absurd (by decide) hp | apply Eq.refl | apply h.same _ hp))

theorem Dev.markBricks_keeps (d : Dev) (a1 : Nat) (a2 : Sample → Bool) : Keeps [.crs] d (Dev.markBricks d a1 a2) := by
  unfold Dev.markBricks
  repeat' (first
    | (extract_lets +onlyGivenNames x; first | (refine Keeps.cut x ?_ ?_; (unfold x; clear x); rotate_left; (clear_value x; revert x; intro _ h)) | (revert x; intro _))
    | with_reducible refine Keeps.foldl _ (fun _ _ h => ?_) ?_
    | with_reducible refine Keeps.forRange _ (fun _ _ h => ?_) ?_
    | with_reducible exact Keeps.refl _ _
    | with_reducible assumption
    | split
    | (with_reducible apply Keeps.step (Dev.updBrick_keeps ..); · decide)
    | with_reducible refine Keeps.pairR (by assumption) ?_
    | with_reducible refine Keeps.pairL (by assumption) ?_
    | with_reducible refine Keeps.pair3 (by assumption) ?_
    | (refine ⟨fun p hp => ?_, ?_, ?_⟩; rotate_left; (first | exact fun hr => hr | exact h.regs); (first | exact fun _ => Grows.refl _ | exact h.adds); cases p <;> first | exact absurd (by decide) hp | apply Eq.refl | apply h.same _ hp)
    | intro _
    | (dsimp only))

theorem Dev.updChanCourse_keeps (d : Dev) (a1 : Nat) (a2 : ChanCourse → ChanCourse) : Keeps [.crs] d (Dev.updChanCourse d a1 a2) := by
  unfold Dev.updChanCourse
  repeat' (first
    | with_reducible exact Keeps.refl _ _
    | (refine ⟨fun p hp => ?_, fun hr => hr, fun _ => Grows.refl _⟩; cases p <;> first | exact absurd (by decide) hp | apply Eq.refl))

theorem Dev.countVectors_keeps (d : Dev) (a1 : Nat) (a2 : Planned → Bool) : Keeps [.cnt, .crs, .pth] d (Dev.countVectors d a1 a2) := by
  unfold Dev.countVectors
  repeat' (first
    | (extract_lets +onlyGivenNames x; first | (refine Keeps.cut x ?_ ?_; (unfold x; clear x); rotate_left; (clear_value x; revert x; intro _ h)) | (revert x; intro _))
    | with_reducible refine Keeps.foldl _ (fun _ _ h => ?_) ?_
    | with_reducible refine Keeps.forRange _ (fun _ _ h => ?_) ?_
    | with_reducible exact Keeps.refl _ _
    | with_reducible assumption
    | split
    | (with_reducible apply Keeps.step (Dev.bump_keeps ..); · decide)
    | (with_reducible apply Keeps.step (Dev.updBrick_keeps ..); · decide)
    | (with_reducible apply Keeps.step (Dev.updPiste_keeps ..); · decide)
    | (with_reducible apply Keeps.step (Dev.updChanCourse_keeps ..); · decide)
    | (refine ⟨fun p hp => ?_, ?_, ?_⟩; rotate_left; (first | exact fun hr => hr | exact h.regs); (first | exact fun _ => Grows.refl _ | exact h.adds); cases p <;> first | exact absurd (by decide) hp | apply Eq.refl | apply h.same _ hp))

theorem Dev.countUntil_keeps (d : Dev) (a1 : Nat) (a2 : Int) : Keeps [.cnt, .crs, .pth] d (Dev.countUntil d a1 a2) := by
  unfold Dev.countUntil
  repeat' (first
    | (extract_lets +onlyGivenNames x; first | (refine Keeps.cut x ?_ ?_; (unfold x; clear x); rotate_left; (clear_value x; revert x; intro _ h)) | (revert x; intro _))
    | with_reducible refine Keeps.foldl _ (fun _ _ h => ?_) ?_
    | with_reducible refine Keeps.forRange _ (fun _ _ h => ?_) ?_
    | with_reducible exact Keeps.refl _ _
    | with_reducible assumption
    | split
    | (with_reducible apply Keeps.step (Dev.markBricks_keeps ..); · decide)
    | (with_reducible apply Keeps.step (Dev.countVectors_keeps ..); · decide)
    | with_reducible refine Keeps.pairR (by assumption) ?_
    | with_reducible refine Keeps.pairL (by assumption) ?_
    | with_reducible refine Keeps.pair3 (by assumption) ?_
    | (refine ⟨fun p hp => ?_, ?_, ?_⟩; rotate_left; (first | exact fun hr => hr | exact h.regs); (first | exact fun _ => Grows.refl _ | exact h.adds); cases p <;> first | exact absurd (by decide) hp | apply Eq.refl | apply h.same _ hp)
    | intro _
    | (dsimp only))

theorem Dev.uncountAfter_keeps (d : Dev) (a1 : Nat) (a2 : Int) : Keeps [.crs] d (Dev.uncountAfter d a1 a2) := by
  unfold Dev.uncountAfter
  repeat' (first
    | with_reducible exact Keeps.refl _ _
    | (refine ⟨fun p hp => ?_, fun hr => hr, fun _ => Grows.refl _⟩; cases p <;> first | exact absurd (by decide) hp | apply Eq.refl))

theorem Dev.settleHold_keeps (d : Dev) : Keeps [.merge, .msn, .log] d (Dev.settleHold d) := by
  unfold Dev.settleHold
  repeat' (first
    | (extract_lets +onlyGivenNames x; first | (refine Keeps.cut x ?_ ?_; (unfold x; clear x); rotate_left; (clear_value x; revert x; intro _ h)) | (revert x; intro _))
    | with_reducible exact Keeps.refl _ _
    | with_reducible assumption
    | split
    | (with_reducible apply Keeps.step (Dev.raise_keeps ..); · decide)
    | (refine ⟨fun p hp => ?_, ?_, ?_⟩; rotate_left; (first | exact fun hr => hr | exact h.regs); (first | exact fun _ => Grows.refl _ | exact h.adds); cases p <;> first | exact absurd (by decide) hp | apply Eq.refl | apply h.same _ hp))

theorem Dev.parkOff_keeps (d : Dev) (a1 : Nat) (a2 : Bool) : Keeps [.cnt, .pth] d (Dev.parkOff d a1 a2) := by
  unfold Dev.parkOff
  repeat' (first
    | (extract_lets +onlyGivenNames x; first | (refine Keeps.cut x ?_ ?_; (unfold x; clear x); rotate_left; (clear_value x; revert x; intro _ h)) | (revert x; intro _))
    | with_reducible exact Keeps.refl _ _
    | with_reducible assumption
    | split
    | (with_reducible apply Keeps.step (Dev.updPiste_keeps ..); · decide)
    | (with_reducible apply Keeps.step (Dev.stopPiste_keeps ..); · decide))

theorem Dev.laserEnabled_keeps (d : Dev) (a1 : Nat) : Keeps [.crs, .msn, .pth] d (Dev.laserEnabled d a1) := by
  unfold Dev.laserEnabled
  repeat' (first
    | with_reducible exact Keeps.refl _ _
    | split
    | (with_reducible apply Keeps.step (Dev.updPiste_keeps ..); · decide)
    | (with_reducible apply Keeps.step (Dev.setLaser_keeps ..); · decide))

theorem Dev.takeCut_keeps (d : Dev) : Keeps [.msn] d (Dev.takeCut d) := by
  unfold Dev.takeCut
  repeat' (first
    | (extract_lets +onlyGivenNames x; first | (refine Keeps.cut x ?_ ?_; (unfold x; clear x); rotate_left; (clear_value x; revert x; intro _ h)) | (revert x; intro _))
    | with_reducible refine Keeps.foldl _ (fun _ _ h => ?_) ?_
    | with_reducible refine Keeps.forRange _ (fun _ _ h => ?_) ?_
    | with_reducible exact Keeps.refl _ _
    | with_reducible assumption
    | split
    | with_reducible refine Keeps.pairR (by assumption) ?_
    | with_reducible refine Keeps.pairL (by assumption) ?_
    | with_reducible refine Keeps.pair3 (by assumption) ?_
    | (refine ⟨fun p hp => ?_, ?_, ?_⟩; rotate_left; (first | exact fun hr => hr | exact h.regs); (first | exact fun _ => Grows.refl _ | exact h.adds); cases p <;> first | exact absurd (by decide) hp | apply Eq.refl | apply h.same _ hp)
    | intro _
    | (dsimp only)
    | with_reducible refine Keeps.step (keeps_msn ..) (by decide) ?_)

theorem Dev.remnantOf_keeps (d : Dev) (a1 : Nat) (a2 : Nat) (a3 : Resume) (a4 : Nat) (a5 : Bool) : Keeps [.cnt, .merge, .crs, .msn, .log] d (Dev.remnantOf d a1 a2 a3 a4 a5) := by
  unfold Dev.remnantOf
  repeat' (first
    | with_reducible exact Keeps.refl _ _
    | (with_reducible apply Keeps.step (Dev.bump_keeps ..); · decide)
    | (with_reducible apply Keeps.step (Dev.raise_keeps ..); · decide)
    | (with_reducible apply Keeps.step (Dev.updBrick_keeps ..); · decide)
    | (refine ⟨fun p hp => ?_, fun hr => hr, fun _ => Grows.refl _⟩; cases p <;> first | exact absurd (by decide) hp | apply Eq.refl))

theorem Dev.planLength_keeps (a0 : Mem) (a1 : Nat) (a2 : Int) (a3 : Nat) (a4 : Nat) (d : Dev) : Keeps [.cnt, .pth] d (Dev.planLength a0 a1 a2 a3 a4 d) := by
  induction a4 generalizing d with
  | zero => unfold Dev.planLength; exact Keeps.refl _ _
  | succ k ih =>
    unfold Dev.planLength
    repeat' (first
      | (extract_lets +onlyGivenNames x; first | (refine Keeps.cut x ?_ ?_; (unfold x; clear x); rotate_left; (clear_value x; revert x; intro _ h)) | (revert x; intro _))
      | with_reducible refine Keeps.foldl _ (fun _ _ h => ?_) ?_
      | with_reducible refine Keeps.forRange _ (fun _ _ h => ?_) ?_
      | with_reducible exact Keeps.refl _ _
      | with_reducible assumption
      | split
      | (with_reducible apply KeepsP.step (Dev.planStep_keeps ..); · decide)
      | (with_reducible apply Keeps.step (Dev.planRunOut_keeps ..); · decide)
      | with_reducible refine Keeps.step (ih ..) (by decide) ?_
      | with_reducible refine Keeps.ofPlan (by assumption) ?_
      | with_reducible refine Keeps.pairR (by assumption) ?_
      | with_reducible refine Keeps.pairL (by assumption) ?_
      | with_reducible refine Keeps.pair3 (by assumption) ?_
      | (refine ⟨fun p hp => ?_, ?_, ?_⟩; rotate_left; (first | exact fun hr => hr | exact h.regs); (first | exact fun _ => Grows.refl _ | exact h.adds); cases p <;> first | exact absurd (by decide) hp | apply Eq.refl | apply h.same _ hp)
      | intro _
      | (dsimp only))

theorem Dev.insertLoop_keeps (d : Dev) (a1 : Mem) (a2 : Nat) (a3 : Int) : Keeps [.cnt, .pth] d (Dev.insertLoop d a1 a2 a3) := by
  unfold Dev.insertLoop
  repeat' (first
    | with_reducible exact Keeps.refl _ _
    | (with_reducible apply Keeps.step (Dev.updPiste_keeps ..); · decide)
    | (with_reducible apply Keeps.step (Dev.planLength_keeps ..); · decide)
    | (refine ⟨fun p hp => ?_, fun hr => hr, fun _ => Grows.refl _⟩; cases p <;> first | exact absurd (by decide) hp | apply Eq.refl))

theorem Dev.freeHead_keeps (d : Dev) : Keeps [.freeCount] d (Dev.freeHead d).2 := by
  unfold Dev.freeHead
  repeat' (first
    | (extract_lets +onlyGivenNames x; first | (refine Keeps.cut x ?_ ?_; (unfold x; clear x); rotate_left; (clear_value x; revert x; intro _ h)) | (revert x; intro _))
    | with_reducible refine Keeps.foldl _ (fun _ _ h => ?_) ?_
    | with_reducible refine Keeps.forRange _ (fun _ _ h => ?_) ?_
    | with_reducible exact Keeps.refl _ _
    | with_reducible assumption
    | split
    | (with_reducible apply Keeps.step (Dev.free_keeps ..); · decide)
    | with_reducible refine Keeps.forRangeR _ (fun _ _ h => ?_) ?_
    | with_reducible refine Keeps.foldlR _ (fun _ _ h => ?_) ?_
    | with_reducible refine Keeps.iteR ?_ ?_
    | with_reducible refine Keeps.pairR (by assumption) ?_
    | with_reducible refine Keeps.pairL (by assumption) ?_
    | with_reducible refine Keeps.pair3 (by assumption) ?_
    | (refine ⟨fun p hp => ?_, ?_, ?_⟩; rotate_left; (first | exact fun hr => hr | exact h.regs); (first | exact fun _ => Grows.refl _ | exact h.adds); cases p <;> first | exact absurd (by decide) hp | apply Eq.refl | apply h.same _ hp)
    | intro _
    | (dsimp only))

theorem Dev.openSlice_keeps (d : Dev) (a1 : Nat) (a2 : Slice) : Keeps [.msn] d (Dev.openSlice d a1 a2) := by
  unfold Dev.openSlice
  repeat' (first
    | with_reducible exact Keeps.refl _ _
    | (with_reducible apply Keeps.step (Dev.updLaser_keeps ..); · decide)
    | (refine ⟨fun p hp => ?_, fun hr => hr, fun _ => Grows.refl _⟩; cases p <;> first | exact absurd (by decide) hp | apply Eq.refl))

theorem Dev.trailAdd_keeps (d : Dev) (a1 : Nat) (a2 : Nat) (a3 : Nat) (a4 : Int) (a5 : Int) : Keeps [.msn] d (Dev.trailAdd d a1 a2 a3 a4 a5) := by
  unfold Dev.trailAdd
  repeat' (first
    | (extract_lets +onlyGivenNames x; first | (refine Keeps.cut x ?_ ?_; (unfold x; clear x); rotate_left; (clear_value x; revert x; intro _ h)) | (revert x; intro _))
    | with_reducible exact Keeps.refl _ _
    | with_reducible assumption
    | split
    | (with_reducible apply Keeps.step (Dev.updLaser_keeps ..); · decide)
    | (with_reducible apply Keeps.step (Dev.openSlice_keeps ..); · decide))

theorem Dev.assign_keeps (d : Dev) (a1 : Nat) (a2 : Brick) : Keeps [.crs, .msn] d (Dev.assign d a1 a2) := by
  unfold Dev.assign
  repeat' (first
    | with_reducible exact Keeps.refl _ _
    | (with_reducible apply Keeps.step (Dev.updBrick_keeps ..); · decide)
    | (refine ⟨fun p hp => ?_, fun hr => hr, fun _ => Grows.refl _⟩; cases p <;> first | exact absurd (by decide) hp | apply Eq.refl))

theorem Dev.makeRemnant_keeps (d : Dev) (a1 : Mem) (a2 : Nat) (a3 : Int) (a4 : Bool) : Keeps [.cnt, .merge, .crs, .msn, .log] d (Dev.makeRemnant d a1 a2 a3 a4) := by
  unfold Dev.makeRemnant
  repeat' (first
    | with_reducible exact Keeps.refl _ _
    | split
    | (with_reducible apply Keeps.step (Dev.updLaser_keeps ..); · decide)
    | (with_reducible apply Keeps.step (Dev.remnantOf_keeps ..); · decide))

theorem Dev.countBrick_keeps (d : Dev) (a1 : Nat) (a2 : Nat) : Keeps [.cnt, .crs, .pth] d (Dev.countBrick d a1 a2) := by
  unfold Dev.countBrick
  repeat' (first
    | (extract_lets +onlyGivenNames x; first | (refine Keeps.cut x ?_ ?_; (unfold x; clear x); rotate_left; (clear_value x; revert x; intro _ h)) | (revert x; intro _))
    | with_reducible refine Keeps.foldl _ (fun _ _ h => ?_) ?_
    | with_reducible refine Keeps.forRange _ (fun _ _ h => ?_) ?_
    | with_reducible exact Keeps.refl _ _
    | with_reducible assumption
    | split
    | (with_reducible apply Keeps.step (Dev.markBricks_keeps ..); · decide)
    | (with_reducible apply Keeps.step (Dev.countVectors_keeps ..); · decide)
    | with_reducible refine Keeps.pairR (by assumption) ?_
    | with_reducible refine Keeps.pairL (by assumption) ?_
    | with_reducible refine Keeps.pair3 (by assumption) ?_
    | (refine ⟨fun p hp => ?_, ?_, ?_⟩; rotate_left; (first | exact fun hr => hr | exact h.regs); (first | exact fun _ => Grows.refl _ | exact h.adds); cases p <;> first | exact absurd (by decide) hp | apply Eq.refl | apply h.same _ hp)
    | intro _
    | (dsimp only))

/-! ## Seam -/

theorem Dev.updSeam_keeps (d : Dev) (a1 : Seam) (a2 : Seam → Seam) : Keeps [.pth] d (Dev.updSeam d a1 a2) := by
  unfold Dev.updSeam
  repeat' (first
    | with_reducible exact Keeps.refl _ _
    | (refine ⟨fun p hp => ?_, fun hr => hr, fun _ => Grows.refl _⟩; cases p <;> first | exact absurd (by decide) hp | apply Eq.refl))

theorem Dev.dropSeam_keeps (d : Dev) (a1 : Seam) : Keeps [.pth] d (Dev.dropSeam d a1) := by
  unfold Dev.dropSeam
  repeat' (first
    | with_reducible exact Keeps.refl _ _
    | (refine ⟨fun p hp => ?_, fun hr => hr, fun _ => Grows.refl _⟩; cases p <;> first | exact absurd (by decide) hp | apply Eq.refl))

theorem Dev.seamCancel_keeps (d : Dev) (a1 : Seam) : Keeps [.cnt, .crs, .msn, .pth] d (Dev.seamCancel d a1) := by
  unfold Dev.seamCancel
  repeat' (first
    | (extract_lets +onlyGivenNames x; first | (refine Keeps.cut x ?_ ?_; (unfold x; clear x); rotate_left; (clear_value x; revert x; intro _ h)) | (revert x; intro _))
    | with_reducible refine Keeps.foldl _ (fun _ _ h => ?_) ?_
    | with_reducible refine Keeps.forRange _ (fun _ _ h => ?_) ?_
    | with_reducible exact Keeps.refl _ _
    | with_reducible assumption
    | split
    | (with_reducible apply Keeps.step (Dev.bump_keeps ..); · decide)
    | (with_reducible apply Keeps.step (Dev.updLaser_keeps ..); · decide)
    | (with_reducible apply Keeps.step (Dev.dropSeam_keeps ..); · decide)
    | (with_reducible apply Keeps.step (Dev.updPiste_keeps ..); · decide)
    | (with_reducible apply Keeps.step (Dev.stopPiste_keeps ..); · decide)
    | (with_reducible apply Keeps.step (Dev.setLaser_keeps ..); · decide)
    | (with_reducible apply Keeps.step (Dev.returnQueued_keeps ..); · decide)
    | with_reducible refine Keeps.pairR (by assumption) ?_
    | with_reducible refine Keeps.pairL (by assumption) ?_
    | with_reducible refine Keeps.pair3 (by assumption) ?_
    | (refine ⟨fun p hp => ?_, ?_, ?_⟩; rotate_left; (first | exact fun hr => hr | exact h.regs); (first | exact fun _ => Grows.refl _ | exact h.adds); cases p <;> first | exact absurd (by decide) hp | apply Eq.refl | apply h.same _ hp)
    | intro _
    | (dsimp only))

theorem Dev.seamWithdraw.go_keeps (a0 : Nat) (d : Dev) (a2 : Seam) : Keeps [.cnt, .crs, .msn, .pth] d (Dev.seamWithdraw.go a0 d a2) := by
  induction a0 generalizing d a2 with
  | zero => unfold Dev.seamWithdraw.go; exact Keeps.step (Dev.seamCancel_keeps ..) (by decide) (Keeps.refl _ _)
  | succ k ih =>
    unfold Dev.seamWithdraw.go
    exact Keeps.step (Dev.seamCancel_keeps ..) (by decide) (Keeps.elim _ (Keeps.refl _ _) fun _ => ih ..)

theorem Dev.seamWithdraw_keeps (d : Dev) (a1 : Seam) : Keeps [.cnt, .crs, .msn, .pth] d (Dev.seamWithdraw d a1) := by
  unfold Dev.seamWithdraw
  repeat' (first
    | (extract_lets +onlyGivenNames x; first | (refine Keeps.cut x ?_ ?_; (unfold x; clear x); rotate_left; (clear_value x; revert x; intro _ h)) | (revert x; intro _))
    | with_reducible exact Keeps.refl _ _
    | with_reducible assumption
    | split
    | (with_reducible apply Keeps.step (Dev.seamWithdraw.go_keeps ..); · decide))

theorem Dev.seamUnchain_keeps (d : Dev) (a1 : Seam) : Keeps [.cnt, .crs, .msn, .pth] d (Dev.seamUnchain d a1) := by
  unfold Dev.seamUnchain
  exact Keeps.elim _ (Keeps.refl _ _) fun _ => Keeps.step (Dev.seamWithdraw_keeps ..) (by decide) (Keeps.refl _ _)

theorem Dev.seamShare_keeps (d : Dev) (a1 : Seam) : Keeps [.pth] d (Dev.seamShare d a1) := by
  unfold Dev.seamShare
  repeat' (first
    | (extract_lets +onlyGivenNames x; first | (refine Keeps.cut x ?_ ?_; (unfold x; clear x); rotate_left; (clear_value x; revert x; intro _ h)) | (revert x; intro _))
    | with_reducible refine Keeps.foldl _ (fun _ _ h => ?_) ?_
    | with_reducible refine Keeps.forRange _ (fun _ _ h => ?_) ?_
    | with_reducible exact Keeps.refl _ _
    | with_reducible assumption
    | split
    | (with_reducible apply Keeps.step (Dev.updPiste_keeps ..); · decide)
    | with_reducible refine Keeps.pairR (by assumption) ?_
    | with_reducible refine Keeps.pairL (by assumption) ?_
    | with_reducible refine Keeps.pair3 (by assumption) ?_
    | (refine ⟨fun p hp => ?_, ?_, ?_⟩; rotate_left; (first | exact fun hr => hr | exact h.regs); (first | exact fun _ => Grows.refl _ | exact h.adds); cases p <;> first | exact absurd (by decide) hp | apply Eq.refl | apply h.same _ hp)
    | intro _
    | (dsimp only))

theorem Dev.cutAtExit_keeps (d : Dev) (a1 : Seam) : Keeps [.pth] d (Dev.cutAtExit d a1) := by
  unfold Dev.cutAtExit
  repeat' (first
    | with_reducible exact Keeps.refl _ _
    | (with_reducible apply Keeps.step (Dev.updSeam_keeps ..); · decide)
    | (with_reducible apply Keeps.step (Dev.updPiste_keeps ..); · decide)
    | (refine ⟨fun p hp => ?_, fun hr => hr, fun _ => Grows.refl _⟩; cases p <;> first | exact absurd (by decide) hp | apply Eq.refl))

theorem Dev.seamDone_keeps (d : Dev) (a1 : Seam) (a2 : Int) : Keeps [.cnt, .crs, .msn, .pth] d (Dev.seamDone d a1 a2) := by
  unfold Dev.seamDone
  repeat' (first
    | with_reducible exact Keeps.refl _ _
    | split
    | (with_reducible apply Keeps.step (Dev.bump_keeps ..); · decide)
    | (with_reducible apply Keeps.step (Dev.updLaser_keeps ..); · decide)
    | (with_reducible apply Keeps.step (Dev.updBrick_keeps ..); · decide)
    | (with_reducible apply Keeps.step (Dev.dropSeam_keeps ..); · decide)
    | (with_reducible apply Keeps.step (Dev.updPiste_keeps ..); · decide)
    | (with_reducible apply Keeps.step (Dev.seamShare_keeps ..); · decide)
    | (with_reducible apply Keeps.step (Dev.cutAtExit_keeps ..); · decide))

theorem Dev.seamTakeover_keeps (d : Dev) (a1 : Seam) : Keeps [.cnt, .merge, .crs, .msn, .pth, .log] d (Dev.seamTakeover d a1) := by
  unfold Dev.seamTakeover
  repeat' (first
    | with_reducible exact Keeps.refl _ _
    | (with_reducible apply Keeps.step (Dev.raise_keeps ..); · decide)
    | (with_reducible apply Keeps.step (Dev.updLaser_keeps ..); · decide)
    | (with_reducible apply Keeps.step (Dev.seamDone_keeps ..); · decide)
    | (refine ⟨fun p hp => ?_, fun hr => hr, fun _ => Grows.refl _⟩; cases p <;> first | exact absurd (by decide) hp | apply Eq.refl))

theorem Dev.testZones_keeps (d : Dev) : Keeps [.merge, .pth, .log] d (Dev.testZones d) := by
  unfold Dev.testZones
  repeat' (first
    | (extract_lets +onlyGivenNames x; first | (refine Keeps.cut x ?_ ?_; (unfold x; clear x); rotate_left; (clear_value x; revert x; intro _ h)) | (revert x; intro _))
    | with_reducible refine Keeps.foldl _ (fun _ _ h => ?_) ?_
    | with_reducible refine Keeps.forRange _ (fun _ _ h => ?_) ?_
    | with_reducible exact Keeps.refl _ _
    | with_reducible assumption
    | split
    | (with_reducible apply Keeps.step (Dev.raise_keeps ..); · decide)
    | (refine ⟨fun p hp => ?_, ?_, ?_⟩; rotate_left; (first | exact fun hr => hr | exact h.regs); (first | exact fun _ => Grows.refl _ | exact h.adds); cases p <;> first | exact absurd (by decide) hp | apply Eq.refl | apply h.same _ hp))

theorem Dev.staleZones_keeps (d : Dev) (a1 : Nat) : Keeps [.merge, .pth, .log] d (Dev.staleZones d a1) := by
  unfold Dev.staleZones
  repeat' (first
    | (extract_lets +onlyGivenNames x; first | (refine Keeps.cut x ?_ ?_; (unfold x; clear x); rotate_left; (clear_value x; revert x; intro _ h)) | (revert x; intro _))
    | with_reducible refine Keeps.foldl _ (fun _ _ h => ?_) ?_
    | with_reducible refine Keeps.forRange _ (fun _ _ h => ?_) ?_
    | with_reducible exact Keeps.refl _ _
    | with_reducible assumption
    | split
    | (with_reducible apply Keeps.step (Dev.raise_keeps ..); · decide)
    | (refine ⟨fun p hp => ?_, ?_, ?_⟩; rotate_left; (first | exact fun hr => hr | exact h.regs); (first | exact fun _ => Grows.refl _ | exact h.adds); cases p <;> first | exact absurd (by decide) hp | apply Eq.refl | apply h.same _ hp))

theorem Dev.seamsOver_keeps (d : Dev) (a1 : Int) : Keeps [.cnt, .crs, .msn, .pth] d (Dev.seamsOver d a1) := by
  unfold Dev.seamsOver
  repeat' (first
    | (extract_lets +onlyGivenNames x; first | (refine Keeps.cut x ?_ ?_; (unfold x; clear x); rotate_left; (clear_value x; revert x; intro _ h)) | (revert x; intro _))
    | with_reducible refine Keeps.foldl _ (fun _ _ h => ?_) ?_
    | with_reducible refine Keeps.forRange _ (fun _ _ h => ?_) ?_
    | with_reducible exact Keeps.refl _ _
    | with_reducible assumption
    | split
    | (with_reducible apply Keeps.step (Dev.seamDone_keeps ..); · decide)
    | with_reducible refine Keeps.pairR (by assumption) ?_
    | with_reducible refine Keeps.pairL (by assumption) ?_
    | with_reducible refine Keeps.pair3 (by assumption) ?_
    | (refine ⟨fun p hp => ?_, ?_, ?_⟩; rotate_left; (first | exact fun hr => hr | exact h.regs); (first | exact fun _ => Grows.refl _ | exact h.adds); cases p <;> first | exact absurd (by decide) hp | apply Eq.refl | apply h.same _ hp)
    | intro _
    | (dsimp only))

theorem Dev.seamMiss_keeps (d : Dev) (a1 : Mem) (a2 : Seam) (a3 : Int) : Keeps [.cnt, .merge, .crs, .msn, .pth, .log] d (Dev.seamMiss d a1 a2 a3) := by
  unfold Dev.seamMiss
  repeat' (first
    | (extract_lets +onlyGivenNames x; first | (refine Keeps.cut x ?_ ?_; (unfold x; clear x); rotate_left; (clear_value x; revert x; intro _ h)) | (revert x; intro _))
    | with_reducible exact Keeps.refl _ _
    | with_reducible assumption
    | split
    | (with_reducible apply Keeps.step (Dev.bump_keeps ..); · decide)
    | (with_reducible apply Keeps.step (Dev.raise_keeps ..); · decide)
    | (with_reducible apply Keeps.step (Dev.updLaser_keeps ..); · decide)
    | (with_reducible apply Keeps.step (Dev.dropSeam_keeps ..); · decide)
    | (with_reducible apply Keeps.step (Dev.updPiste_keeps ..); · decide)
    | (with_reducible apply Keeps.step (Dev.stopPiste_keeps ..); · decide)
    | (with_reducible apply Keeps.step (Dev.setLaser_keeps ..); · decide)
    | (with_reducible apply Keeps.step (Dev.returnQueued_keeps ..); · decide)
    | (with_reducible apply Keeps.step (Dev.seamUnchain_keeps ..); · decide)
    | (with_reducible apply Keeps.step (Dev.cutAtExit_keeps ..); · decide)
    | (with_reducible apply Keeps.step (Dev.remnantOf_keeps ..); · decide)
    | (refine ⟨fun p hp => ?_, ?_, ?_⟩; rotate_left; (first | exact fun hr => hr | exact h.regs); (first | exact fun _ => Grows.refl _ | exact h.adds); cases p <;> first | exact absurd (by decide) hp | apply Eq.refl | apply h.same _ hp))

theorem Dev.countSlide_keeps (d : Dev) (a1 : Seam) : Keeps [.cnt] d (Dev.countSlide d a1) := by
  unfold Dev.countSlide
  repeat' (first
    | (extract_lets +onlyGivenNames x; first | (refine Keeps.cut x ?_ ?_; (unfold x; clear x); rotate_left; (clear_value x; revert x; intro _ h)) | (revert x; intro _))
    | with_reducible refine Keeps.foldl _ (fun _ _ h => ?_) ?_
    | with_reducible refine Keeps.forRange _ (fun _ _ h => ?_) ?_
    | with_reducible exact Keeps.refl _ _
    | with_reducible assumption
    | split
    | (with_reducible apply Keeps.step (Dev.bump_keeps ..); · decide)
    | with_reducible refine Keeps.pairR (by assumption) ?_
    | with_reducible refine Keeps.pairL (by assumption) ?_
    | with_reducible refine Keeps.pair3 (by assumption) ?_
    | (refine ⟨fun p hp => ?_, ?_, ?_⟩; rotate_left; (first | exact fun hr => hr | exact h.regs); (first | exact fun _ => Grows.refl _ | exact h.adds); cases p <;> first | exact absurd (by decide) hp | apply Eq.refl | apply h.same _ hp)
    | intro _
    | (dsimp only))

theorem Dev.seamBlend_keeps (d : Dev) (a1 : Seam) (a2 : Int) : Keeps [.cnt, .pth] d (Dev.seamBlend d a1 a2) := by
  unfold Dev.seamBlend
  repeat' (first
    | (extract_lets +onlyGivenNames x; first | (refine Keeps.cut x ?_ ?_; (unfold x; clear x); rotate_left; (clear_value x; revert x; intro _ h)) | (revert x; intro _))
    | with_reducible refine Keeps.foldl _ (fun _ _ h => ?_) ?_
    | with_reducible refine Keeps.forRange _ (fun _ _ h => ?_) ?_
    | with_reducible exact Keeps.refl _ _
    | with_reducible assumption
    | split
    | (with_reducible apply Keeps.step (Dev.updSeam_keeps ..); · decide)
    | (with_reducible apply Keeps.step (Dev.countSlide_keeps ..); · decide)
    | with_reducible refine Keeps.pairR (by assumption) ?_
    | with_reducible refine Keeps.pairL (by assumption) ?_
    | with_reducible refine Keeps.pair3 (by assumption) ?_
    | (refine ⟨fun p hp => ?_, ?_, ?_⟩; rotate_left; (first | exact fun hr => hr | exact h.regs); (first | exact fun _ => Grows.refl _ | exact h.adds); cases p <;> first | exact absurd (by decide) hp | apply Eq.refl | apply h.same _ hp)
    | intro _
    | (dsimp only))

theorem Dev.seamStep_keeps (d : Dev) (a1 : Mem) (a2 : Seam) (a3 : Int) : Keeps [.cnt, .merge, .crs, .msn, .pth, .log] d (Dev.seamStep d a1 a2 a3) := by
  unfold Dev.seamStep
  repeat' (first
    | (extract_lets +onlyGivenNames x; first | (refine Keeps.cut x ?_ ?_; (unfold x; clear x); rotate_left; (clear_value x; revert x; intro _ h)) | (revert x; intro _))
    | with_reducible exact Keeps.refl _ _
    | with_reducible assumption
    | split
    | (with_reducible apply Keeps.step (Dev.bump_keeps ..); · decide)
    | (with_reducible apply Keeps.step (Dev.updSeam_keeps ..); · decide)
    | (with_reducible apply Keeps.step (Dev.seamWithdraw_keeps ..); · decide)
    | (with_reducible apply Keeps.step (Dev.seamShare_keeps ..); · decide)
    | (with_reducible apply Keeps.step (Dev.cutAtExit_keeps ..); · decide)
    | (with_reducible apply Keeps.step (Dev.seamDone_keeps ..); · decide)
    | (with_reducible apply Keeps.step (Dev.seamMiss_keeps ..); · decide)
    | (with_reducible apply Keeps.step (Dev.seamBlend_keeps ..); · decide))

theorem Dev.seamMark_keeps (d : Dev) (a1 : Nat) (a2 : Nat) (a3 : Nat) : Keeps [.pth] d (Dev.seamMark d a1 a2 a3) := by
  unfold Dev.seamMark
  repeat' (first
    | with_reducible exact Keeps.refl _ _
    | (with_reducible apply Keeps.step (Dev.updPiste_keeps ..); · decide)
    | (refine ⟨fun p hp => ?_, fun hr => hr, fun _ => Grows.refl _⟩; cases p <;> first | exact absurd (by decide) hp | apply Eq.refl))

theorem Dev.seamOffer_keeps (d : Dev) (a1 : Mem) (a2 : Nat) : Keeps [.cnt, .pth] d (Dev.seamOffer d a1 a2) := by
  unfold Dev.seamOffer
  repeat' (first
    | (extract_lets +onlyGivenNames x; first | (refine Keeps.cut x ?_ ?_; (unfold x; clear x); rotate_left; (clear_value x; revert x; intro _ h)) | (revert x; intro _))
    | with_reducible exact Keeps.refl _ _
    | with_reducible assumption
    | split
    | (with_reducible apply Keeps.step (Dev.bump_keeps ..); · decide)
    | (with_reducible apply Keeps.step (Dev.planUntil_keeps ..); · decide)
    | (with_reducible apply Keeps.step (Dev.seamMark_keeps ..); · decide)
    | (refine ⟨fun p hp => ?_, ?_, ?_⟩; rotate_left; (first | exact fun hr => hr | exact h.regs); (first | exact fun _ => Grows.refl _ | exact h.adds); cases p <;> first | exact absurd (by decide) hp | apply Eq.refl | apply h.same _ hp))

theorem Dev.declineOffer_keeps (d : Dev) : Keeps [.cnt] d (Dev.declineOffer d) := by
  unfold Dev.declineOffer
  repeat' (first
    | with_reducible exact Keeps.refl _ _
    | (with_reducible apply Keeps.step (Dev.bump_keeps ..); · decide)
    | (refine ⟨fun p hp => ?_, fun hr => hr, fun _ => Grows.refl _⟩; cases p <;> first | exact absurd (by decide) hp | apply Eq.refl))

/-! ## Piste -/

theorem Dev.gatedSample_keeps (d : Dev) (a1 : Nat) : Keeps [.pth, .lsr] d (Dev.gatedSample d a1) := by
  unfold Dev.gatedSample
  repeat' (first
    | with_reducible exact Keeps.refl _ _
    | (with_reducible apply Keeps.step (Dev.updPiste_keeps ..); · decide)
    | (with_reducible apply Keeps.step (Dev.updChan_keeps ..); · decide)
    | (refine ⟨fun p hp => ?_, fun hr => hr, fun _ => Grows.refl _⟩; cases p <;> first | exact absurd (by decide) hp | apply Eq.refl))

theorem Dev.pisteFault_keeps (d : Dev) (a1 : Nat) (a2 : Nat) (a3 : Nat) : Keeps [.merge, .pth, .lsr, .log] d (Dev.pisteFault d a1 a2 a3) := by
  unfold Dev.pisteFault
  repeat' (first
    | with_reducible exact Keeps.refl _ _
    | (with_reducible apply Keeps.step (Dev.raise_keeps ..); · decide)
    | (with_reducible apply Keeps.step (Dev.gatedSample_keeps ..); · decide)
    | (with_reducible apply Keeps.step (Dev.causeFrom_keeps ..); · decide)
    | (refine ⟨fun p hp => ?_, fun hr => hr, fun _ => Grows.refl _⟩; cases p <;> first | exact absurd (by decide) hp | apply Eq.refl))

theorem Dev.refillDone_keeps (d : Dev) (a1 : Mem) (a2 : Nat) (a3 : EccRead) : Keeps [.cnt, .merge, .pth, .lsr, .memc, .log] d (Dev.refillDone d a1 a2 a3) := by
  unfold Dev.refillDone
  repeat' (first
    | (extract_lets +onlyGivenNames x; first | (refine Keeps.cut x ?_ ?_; (unfold x; clear x); rotate_left; (clear_value x; revert x; intro _ h)) | (refine Keeps.hold (x : RegFile) ?_; revert x; intro _) | (refine Keeps.hold (x : Stream) ?_; revert x; intro _) | (refine Keeps.hold (x : Mgt) ?_; revert x; intro _) | (clear_value x; revert x; intro _))
    | with_reducible refine Keeps.foldl _ (fun _ _ h => ?_) ?_
    | with_reducible refine Keeps.forRange _ (fun _ _ h => ?_) ?_
    | with_reducible exact Keeps.refl _ _
    | with_reducible assumption
    | split
    | (with_reducible apply Keeps.step (Dev.updPiste_keeps ..); · decide)
    | (with_reducible apply Keeps.step (Dev.sramRead_keeps ..); · decide)
    | (with_reducible apply Keeps.step (Dev.pisteFault_keeps ..); · decide)
    | with_reducible refine Keeps.pairR (by assumption) ?_
    | with_reducible refine Keeps.pairL (by assumption) ?_
    | with_reducible refine Keeps.pair3 (by assumption) ?_
    | (refine ⟨fun p hp => ?_, ?_, ?_⟩; rotate_left; (first | exact fun hr => hr | exact h.regs); (first | exact fun _ => Grows.refl _ | exact h.adds); cases p <;> first | exact absurd (by decide) hp | apply Eq.refl | apply h.same _ hp)
    | intro _
    | (dsimp only))

theorem Dev.seamLate_keeps (d : Dev) (a1 : Nat) (a2 : Int) : Keeps [.cnt, .pth] d (Dev.seamLate d a1 a2) := by
  unfold Dev.seamLate
  repeat' (first
    | with_reducible exact Keeps.refl _ _
    | split
    | (with_reducible apply Keeps.step (Dev.bump_keeps ..); · decide)
    | (with_reducible apply Keeps.step (Dev.seamMark_keeps ..); · decide))

theorem Dev.seamTrack_keeps (d : Dev) (a1 : Nat) : Keeps [.merge, .pth, .log] d (Dev.seamTrack d a1) := by
  unfold Dev.seamTrack
  repeat' (first
    | (extract_lets +onlyGivenNames x; first | (refine Keeps.cut x ?_ ?_; (unfold x; clear x); rotate_left; (clear_value x; revert x; intro _ h)) | (revert x; intro _))
    | with_reducible exact Keeps.refl _ _
    | with_reducible assumption
    | split
    | (with_reducible apply Keeps.step (Dev.raise_keeps ..); · decide)
    | (with_reducible apply Keeps.step (Dev.updPiste_keeps ..); · decide))

theorem Dev.pushSample_keeps (d : Dev) (a1 : Nat) (a2 : Int) (a3 : Int) (a4 : Int) (a5 : Option (Nat × Nat × Planned × Option Nat)) : Keeps [.crs, .msn, .lsr] d (Dev.pushSample d a1 a2 a3 a4 a5) := by
  unfold Dev.pushSample
  repeat' (first
    | with_reducible exact Keeps.refl _ _
    | split
    | (with_reducible apply Keeps.step (Dev.updBrick_keeps ..); · decide)
    | (with_reducible apply Keeps.step (Dev.updChan_keeps ..); · decide)
    | (with_reducible apply Keeps.step (Dev.updChanCourse_keeps ..); · decide)
    | (with_reducible apply Keeps.step (Dev.trailAdd_keeps ..); · decide))

theorem Dev.sampleIssue_keeps (d : Dev) (a1 : Mem) (a2 : Nat) (a3 : PisteIssue) : Keeps [.w1c, .cnt, .merge, .freeCount, .crs, .msn, .pth, .lsr, .log] d (Dev.sampleIssue d a1 a2 a3) := by
  unfold Dev.sampleIssue
  repeat' (first
    | (extract_lets +onlyGivenNames x; first | (refine Keeps.cut x ?_ ?_; (unfold x; clear x); rotate_left; (clear_value x; revert x; intro _ h)) | (revert x; intro _))
    | with_reducible refine Keeps.foldl _ (fun _ _ h => ?_) ?_
    | with_reducible refine Keeps.forRange _ (fun _ _ h => ?_) ?_
    | with_reducible exact Keeps.refl _ _
    | with_reducible assumption
    | split
    | (with_reducible apply Keeps.step (Dev.bump_keeps ..); · decide)
    | (with_reducible apply Keeps.step (Dev.orFlag_keeps ..); · decide)
    | (with_reducible apply Keeps.step (Dev.updPiste_keeps ..); · decide)
    | (with_reducible apply Keeps.step (Dev.gatedSample_keeps ..); · decide)
    | (with_reducible apply Keeps.step (Dev.pisteFault_keeps ..); · decide)
    | (with_reducible apply Keeps.step (Dev.seamStep_keeps ..); · decide)
    | (with_reducible apply Keeps.step (Dev.planUntil_keeps ..); · decide)
    | (with_reducible apply Keeps.step (Dev.seamLate_keeps ..); · decide)
    | (with_reducible apply Keeps.step (Dev.freeHead_keeps ..); · decide)
    | (with_reducible apply Keeps.step (Dev.seamTrack_keeps ..); · decide)
    | (with_reducible apply Keeps.step (Dev.pushSample_keeps ..); · decide)
    | (with_reducible apply Keeps.step (Dev.countVectors_keeps ..); · decide)
    | with_reducible refine Keeps.pairR (by assumption) ?_
    | with_reducible refine Keeps.pairL (by assumption) ?_
    | with_reducible refine Keeps.pair3 (by assumption) ?_
    | (refine ⟨fun p hp => ?_, ?_, ?_⟩; rotate_left; (first | exact fun hr => hr | exact h.regs); (first | exact fun _ => Grows.refl _ | exact h.adds); cases p <;> first | exact absurd (by decide) hp | apply Eq.refl | apply h.same _ hp)
    | intro _
    | (dsimp only))

theorem Dev.holdHead_keeps (d : Dev) (a1 : Mem) (a2 : Nat) : Keeps [.cnt, .freeCount, .pth] d (Dev.holdHead d a1 a2) := by
  unfold Dev.holdHead
  repeat' (first
    | (extract_lets +onlyGivenNames x; first | (refine Keeps.cut x ?_ ?_; (unfold x; clear x); rotate_left; (clear_value x; revert x; intro _ h)) | (revert x; intro _))
    | with_reducible refine Keeps.foldl _ (fun _ _ h => ?_) ?_
    | with_reducible refine Keeps.forRange _ (fun _ _ h => ?_) ?_
    | with_reducible exact Keeps.refl _ _
    | with_reducible assumption
    | split
    | (with_reducible apply Keeps.step (Dev.bump_keeps ..); · decide)
    | (with_reducible apply Keeps.step (Dev.updPiste_keeps ..); · decide)
    | (with_reducible apply Keeps.step (Dev.freeHead_keeps ..); · decide)
    | with_reducible refine Keeps.pairR (by assumption) ?_
    | with_reducible refine Keeps.pairL (by assumption) ?_
    | with_reducible refine Keeps.pair3 (by assumption) ?_
    | (refine ⟨fun p hp => ?_, ?_, ?_⟩; rotate_left; (first | exact fun hr => hr | exact h.regs); (first | exact fun _ => Grows.refl _ | exact h.adds); cases p <;> first | exact absurd (by decide) hp | apply Eq.refl | apply h.same _ hp)
    | intro _
    | (dsimp only))

/-! ## MasonCmd -/

theorem Dev.noteDropped_keeps (d : Dev) (a1 : Nat) (a2 : Option Nat) : Keeps [.crs] d (Dev.noteDropped d a1 a2) := by
  unfold Dev.noteDropped
  repeat' (first
    | with_reducible exact Keeps.refl _ _
    | split
    | (with_reducible apply Keeps.step (Dev.updBrick_keeps ..); · decide))

theorem Dev.receiverDrops_keeps (d : Dev) (a1 : Nat) (a2 : Seam) : Keeps [.cnt, .crs, .msn, .pth] d (Dev.receiverDrops d a1 a2) := by
  unfold Dev.receiverDrops
  repeat' (first
    | (extract_lets +onlyGivenNames x; first | (refine Keeps.cut x ?_ ?_; (unfold x; clear x); rotate_left; (clear_value x; revert x; intro _ h)) | (revert x; intro _))
    | with_reducible refine Keeps.foldl _ (fun _ _ h => ?_) ?_
    | with_reducible refine Keeps.forRange _ (fun _ _ h => ?_) ?_
    | with_reducible exact Keeps.refl _ _
    | with_reducible assumption
    | split
    | (with_reducible apply Keeps.step (Dev.updLaser_keeps ..); · decide)
    | (with_reducible apply Keeps.step (Dev.noteDropped_keeps ..); · decide)
    | (with_reducible apply Keeps.step (Dev.updSeam_keeps ..); · decide)
    | (with_reducible apply Keeps.step (Dev.seamWithdraw_keeps ..); · decide)
    | (with_reducible apply Keeps.step (Dev.seamUnchain_keeps ..); · decide)
    | with_reducible refine Keeps.pairR (by assumption) ?_
    | with_reducible refine Keeps.pairL (by assumption) ?_
    | with_reducible refine Keeps.pair3 (by assumption) ?_
    | (refine ⟨fun p hp => ?_, ?_, ?_⟩; rotate_left; (first | exact fun hr => hr | exact h.regs); (first | exact fun _ => Grows.refl _ | exact h.adds); cases p <;> first | exact absurd (by decide) hp | apply Eq.refl | apply h.same _ hp)
    | intro _
    | (dsimp only))

theorem Dev.donorDrops_keeps (d : Dev) (a1 : Nat) (a2 : Seam) : Keeps [.cnt, .merge, .crs, .msn, .pth, .log] d (Dev.donorDrops d a1 a2) := by
  unfold Dev.donorDrops
  repeat' (first
    | (extract_lets +onlyGivenNames x; first | (refine Keeps.cut x ?_ ?_; (unfold x; clear x); rotate_left; (clear_value x; revert x; intro _ h)) | (revert x; intro _))
    | with_reducible refine Keeps.foldl _ (fun _ _ h => ?_) ?_
    | with_reducible refine Keeps.forRange _ (fun _ _ h => ?_) ?_
    | with_reducible exact Keeps.refl _ _
    | with_reducible assumption
    | split
    | (with_reducible apply Keeps.step (Dev.updBrick_keeps ..); · decide)
    | (with_reducible apply Keeps.step (Dev.noteDropped_keeps ..); · decide)
    | (with_reducible apply Keeps.step (Dev.dropSeam_keeps ..); · decide)
    | (with_reducible apply Keeps.step (Dev.seamWithdraw_keeps ..); · decide)
    | (with_reducible apply Keeps.step (Dev.seamTakeover_keeps ..); · decide)
    | with_reducible refine Keeps.pairR (by assumption) ?_
    | with_reducible refine Keeps.pairL (by assumption) ?_
    | with_reducible refine Keeps.pair3 (by assumption) ?_
    | (refine ⟨fun p hp => ?_, ?_, ?_⟩; rotate_left; (first | exact fun hr => hr | exact h.regs); (first | exact fun _ => Grows.refl _ | exact h.adds); cases p <;> first | exact absurd (by decide) hp | apply Eq.refl | apply h.same _ hp)
    | intro _
    | (dsimp only))

theorem Dev.seamDrop_keeps (d : Dev) (a1 : Nat) : Keeps [.cnt, .merge, .crs, .msn, .pth, .log] d (Dev.seamDrop d a1) := by
  unfold Dev.seamDrop
  repeat' (first
    | (extract_lets +onlyGivenNames x; first | (refine Keeps.cut x ?_ ?_; (unfold x; clear x); rotate_left; (clear_value x; revert x; intro _ h)) | (revert x; intro _))
    | with_reducible refine Keeps.foldl _ (fun _ _ h => ?_) ?_
    | with_reducible refine Keeps.forRange _ (fun _ _ h => ?_) ?_
    | with_reducible exact Keeps.refl _ _
    | with_reducible assumption
    | split
    | (with_reducible apply Keeps.step (Dev.receiverDrops_keeps ..); · decide)
    | (with_reducible apply Keeps.step (Dev.donorDrops_keeps ..); · decide)
    | with_reducible refine Keeps.pairR (by assumption) ?_
    | with_reducible refine Keeps.pairL (by assumption) ?_
    | with_reducible refine Keeps.pair3 (by assumption) ?_
    | (refine ⟨fun p hp => ?_, ?_, ?_⟩; rotate_left; (first | exact fun hr => hr | exact h.regs); (first | exact fun _ => Grows.refl _ | exact h.adds); cases p <;> first | exact absurd (by decide) hp | apply Eq.refl | apply h.same _ hp)
    | intro _
    | (dsimp only))

theorem Dev.sliceExpire_keeps (d : Dev) (a1 : Nat) : Keeps [.msn] d (Dev.sliceExpire d a1) := by
  unfold Dev.sliceExpire
  repeat' (first
    | with_reducible exact Keeps.refl _ _
    | (with_reducible apply Keeps.step (Dev.updLaser_keeps ..); · decide)
    | (refine ⟨fun p hp => ?_, fun hr => hr, fun _ => Grows.refl _⟩; cases p <;> first | exact absurd (by decide) hp | apply Eq.refl))

theorem Dev.startBeatReached_keeps (d : Dev) (a1 : Nat) : Keeps [.crs, .msn] d (Dev.startBeatReached d a1) := by
  unfold Dev.startBeatReached
  repeat' (first
    | with_reducible exact Keeps.refl _ _
    | split
    | (with_reducible apply Keeps.step (Dev.enterReady_keeps ..); · decide))

theorem Dev.startOn_keeps (d : Dev) (a1 : Nat) (a2 : Nat) : Keeps [.crs] d (Dev.startOn d a1 a2) := by
  unfold Dev.startOn
  repeat' (first
    | with_reducible exact Keeps.refl _ _
    | (with_reducible apply Keeps.step (Dev.updBrick_keeps ..); · decide)
    | (with_reducible apply Keeps.step (Dev.updChanCourse_keeps ..); · decide)
    | (refine ⟨fun p hp => ?_, fun hr => hr, fun _ => Grows.refl _⟩; cases p <;> first | exact absurd (by decide) hp | apply Eq.refl))

theorem Dev.assignmentInForce_keeps (d : Dev) (a1 : Mem) (a2 : Nat) : Keeps [.cnt, .crs, .msn, .pth] d (Dev.assignmentInForce d a1 a2) := by
  unfold Dev.assignmentInForce
  repeat' (first
    | (extract_lets +onlyGivenNames x; first | (refine Keeps.cut x ?_ ?_; (unfold x; clear x); rotate_left; (clear_value x; revert x; intro _ h)) | (revert x; intro _))
    | with_reducible exact Keeps.refl _ _
    | with_reducible assumption
    | split
    | (with_reducible apply Keeps.step (Dev.bump_keeps ..); · decide)
    | (with_reducible apply Keeps.step (Dev.updLaser_keeps ..); · decide)
    | (with_reducible apply Keeps.step (Dev.updPiste_keeps ..); · decide)
    | (with_reducible apply Keeps.step (Dev.setLaser_keeps ..); · decide)
    | (with_reducible apply Keeps.step (Dev.startOn_keeps ..); · decide))

theorem Dev.holdPass_keeps (d : Dev) (a1 : Mem) (a2 : Nat) : Keeps [.cnt, .crs, .msn, .pth] d (Dev.holdPass d a1 a2) := by
  unfold Dev.holdPass
  repeat' (first
    | (extract_lets +onlyGivenNames x; first | (refine Keeps.cut x ?_ ?_; (unfold x; clear x); rotate_left; (clear_value x; revert x; intro _ h)) | (revert x; intro _))
    | with_reducible exact Keeps.refl _ _
    | with_reducible assumption
    | split
    | (with_reducible apply Keeps.step (Dev.bump_keeps ..); · decide)
    | (with_reducible apply Keeps.step (Dev.updLaser_keeps ..); · decide)
    | (with_reducible apply Keeps.step (Dev.updPiste_keeps ..); · decide)
    | (with_reducible apply Keeps.step (Dev.setLaser_keeps ..); · decide)
    | (with_reducible apply Keeps.step (Dev.insertLoop_keeps ..); · decide))

theorem Dev.stopDone_keeps (d : Dev) (a1 : Nat) : Keeps [.crs, .msn, .pth] d (Dev.stopDone d a1) := by
  unfold Dev.stopDone
  repeat' (first
    | (extract_lets +onlyGivenNames x; first | (refine Keeps.cut x ?_ ?_; (unfold x; clear x); rotate_left; (clear_value x; revert x; intro _ h)) | (revert x; intro _))
    | with_reducible exact Keeps.refl _ _
    | with_reducible assumption
    | split
    | (with_reducible apply Keeps.step (Dev.updPiste_keeps ..); · decide)
    | (with_reducible apply Keeps.step (Dev.setLaser_keeps ..); · decide))

theorem Dev.plumeTimeout_keeps (d : Dev) (a1 : Mem) (a2 : Nat) : Keeps [.cnt, .merge, .crs, .msn, .pth, .log] d (Dev.plumeTimeout d a1 a2) := by
  unfold Dev.plumeTimeout
  repeat' (first
    | (extract_lets +onlyGivenNames x; first | (refine Keeps.cut x ?_ ?_; (unfold x; clear x); rotate_left; (clear_value x; revert x; intro _ h)) | (revert x; intro _))
    | with_reducible exact Keeps.refl _ _
    | with_reducible assumption
    | split
    | (with_reducible apply Keeps.step (Dev.bump_keeps ..); · decide)
    | (with_reducible apply Keeps.step (Dev.raise_keeps ..); · decide)
    | (with_reducible apply Keeps.step (Dev.updLaser_keeps ..); · decide)
    | (with_reducible apply Keeps.step (Dev.stopPiste_keeps ..); · decide)
    | (with_reducible apply Keeps.step (Dev.setLaser_keeps ..); · decide)
    | (with_reducible apply Keeps.step (Dev.returnQueued_keeps ..); · decide)
    | (with_reducible apply Keeps.step (Dev.countUntil_keeps ..); · decide)
    | (with_reducible apply Keeps.step (Dev.makeRemnant_keeps ..); · decide)
    | (refine ⟨fun p hp => ?_, ?_, ?_⟩; rotate_left; (first | exact fun hr => hr | exact h.regs); (first | exact fun _ => Grows.refl _ | exact h.adds); cases p <;> first | exact absurd (by decide) hp | apply Eq.refl | apply h.same _ hp))

theorem Dev.sliceClose_keeps (d : Dev) (a1 : Nat) : Keeps [.msn] d (Dev.sliceClose d a1) := by
  unfold Dev.sliceClose
  repeat' (first
    | with_reducible exact Keeps.refl _ _
    | split
    | (with_reducible apply Keeps.step (Dev.closeSlice_keeps ..); · decide))

theorem Dev.enterHold_keeps (d : Dev) (a1 : Mem) (a2 : Nat) (a3 : Int) (a4 : Nat) (a5 : Nat) (a6 : Nat) : Keeps [.cnt, .msn, .pth] d (Dev.enterHold d a1 a2 a3 a4 a5 a6) := by
  unfold Dev.enterHold
  repeat' (first
    | with_reducible exact Keeps.refl _ _
    | (with_reducible apply Keeps.step (Dev.bump_keeps ..); · decide)
    | (with_reducible apply Keeps.step (Dev.raise_keeps ..); · decide)
    | (with_reducible apply Keeps.step (Dev.updLaser_keeps ..); · decide)
    | (with_reducible apply Keeps.step (Dev.updPiste_keeps ..); · decide)
    | (with_reducible apply Keeps.step (Dev.setLaser_keeps ..); · decide)
    | (with_reducible apply Keeps.step (Dev.insertLoop_keeps ..); · decide)
    | (refine ⟨fun p hp => ?_, fun hr => hr, fun _ => Grows.refl _⟩; cases p <;> first | exact absurd (by decide) hp | apply Eq.refl))

theorem Dev.holdLaser_keeps (d : Dev) (a1 : Mem) (a2 : Int) (a3 : GuardPoint) (a4 : Nat) (a5 : Nat) : Keeps [.cnt, .msn, .pth] d (Dev.holdLaser d a1 a2 a3 a4 a5) := by
  unfold Dev.holdLaser
  repeat' (first
    | (extract_lets +onlyGivenNames x; first | (refine Keeps.cut x ?_ ?_; (unfold x; clear x); rotate_left; (clear_value x; revert x; intro _ h)) | (revert x; intro _))
    | with_reducible refine Keeps.foldl _ (fun _ _ h => ?_) ?_
    | with_reducible refine Keeps.forRange _ (fun _ _ h => ?_) ?_
    | with_reducible exact Keeps.refl _ _
    | with_reducible assumption
    | split
    | (with_reducible apply Keeps.step (Dev.updLaser_keeps ..); · decide)
    | (with_reducible apply Keeps.step (Dev.enterHold_keeps ..); · decide)
    | with_reducible refine Keeps.pairR (by assumption) ?_
    | with_reducible refine Keeps.pairL (by assumption) ?_
    | with_reducible refine Keeps.pair3 (by assumption) ?_
    | (refine ⟨fun p hp => ?_, ?_, ?_⟩; rotate_left; (first | exact fun hr => hr | exact h.regs); (first | exact fun _ => Grows.refl _ | exact h.adds); cases p <;> first | exact absurd (by decide) hp | apply Eq.refl | apply h.same _ hp)
    | intro _
    | (dsimp only))

theorem Dev.guardHolds_keeps (d : Dev) (a1 : Mem) (a2 : Int) (a3 : GuardPoint) (a4 : Nat) (a5 : Nat) : Keeps [.cnt, .crs, .msn, .pth] d (Dev.guardHolds d a1 a2 a3 a4 a5) := by
  unfold Dev.guardHolds
  repeat' (first
    | (extract_lets +onlyGivenNames x; first | (refine Keeps.cut x ?_ ?_; (unfold x; clear x); rotate_left; (clear_value x; revert x; intro _ h)) | (revert x; intro _))
    | with_reducible exact Keeps.refl _ _
    | with_reducible assumption
    | split
    | (with_reducible apply Keeps.step (Dev.updSeam_keeps ..); · decide)
    | (with_reducible apply Keeps.step (Dev.seamWithdraw_keeps ..); · decide)
    | (with_reducible apply Keeps.step (Dev.holdLaser_keeps ..); · decide))

theorem Dev.plumeGuard_keeps (d : Dev) (a1 : Mem) (a2 : Nat) : Keeps [.w1c, .cnt, .merge, .crs, .msn, .pth, .log] d (Dev.plumeGuard d a1 a2) := by
  unfold Dev.plumeGuard
  repeat' (first
    | (extract_lets +onlyGivenNames x; first | (refine Keeps.cut x ?_ ?_; (unfold x; clear x); rotate_left; (clear_value x; revert x; intro _ h)) | (revert x; intro _))
    | with_reducible refine Keeps.foldl _ (fun _ _ h => ?_) ?_
    | with_reducible refine Keeps.forRange _ (fun _ _ h => ?_) ?_
    | with_reducible exact Keeps.refl _ _
    | with_reducible assumption
    | split
    | (with_reducible apply Keeps.step (Dev.updLaser_keeps ..); · decide)
    | (with_reducible apply Keeps.step (Dev.overrun_keeps ..); · decide)
    | (with_reducible apply Keeps.step (Dev.seamsOver_keeps ..); · decide)
    | (with_reducible apply Keeps.step (Dev.guardHolds_keeps ..); · decide)
    | (refine ⟨fun p hp => ?_, ?_, ?_⟩; rotate_left; (first | exact fun hr => hr | exact h.regs); (first | exact fun _ => Grows.refl _ | exact h.adds); cases p <;> first | exact absurd (by decide) hp | apply Eq.refl | apply h.same _ hp))

theorem Dev.offersTo_keeps (d : Dev) (a1 : Mem) (a2 : Nat) : Keeps [.cnt, .msn, .pth] d (Dev.offersTo d a1 a2) := by
  unfold Dev.offersTo
  repeat' (first
    | (extract_lets +onlyGivenNames x; first | (refine Keeps.cut x ?_ ?_; (unfold x; clear x); rotate_left; (clear_value x; revert x; intro _ h)) | (revert x; intro _))
    | with_reducible refine Keeps.foldl _ (fun _ _ h => ?_) ?_
    | with_reducible refine Keeps.forRange _ (fun _ _ h => ?_) ?_
    | with_reducible exact Keeps.refl _ _
    | with_reducible assumption
    | split
    | (with_reducible apply Keeps.step (Dev.updPiste_keeps ..); · decide)
    | (with_reducible apply Keeps.step (Dev.declineOffer_keeps ..); · decide)
    | (refine ⟨fun p hp => ?_, ?_, ?_⟩; rotate_left; (first | exact fun hr => hr | exact h.regs); (first | exact fun _ => Grows.refl _ | exact h.adds); cases p <;> first | exact absurd (by decide) hp | apply Eq.refl | apply h.same _ hp))

theorem Dev.masonSelection_keeps (d : Dev) (a1 : Mem) (a2 : Nat) : Keeps [.w1c, .cnt, .merge, .crs, .msn, .pth, .log] d (Dev.masonSelection d a1 a2) := by
  unfold Dev.masonSelection
  repeat' (first
    | (extract_lets +onlyGivenNames x; first | (refine Keeps.cut x ?_ ?_; (unfold x; clear x); rotate_left; (clear_value x; revert x; intro _ h)) | (revert x; intro _))
    | with_reducible refine Keeps.foldl _ (fun _ _ h => ?_) ?_
    | with_reducible refine Keeps.forRange _ (fun _ _ h => ?_) ?_
    | with_reducible exact Keeps.refl _ _
    | with_reducible assumption
    | split
    | (with_reducible apply Keeps.step (Dev.overrun_keeps ..); · decide)
    | (with_reducible apply Keeps.step (Dev.assign_keeps ..); · decide)
    | (with_reducible apply Keeps.step (Dev.declineOffer_keeps ..); · decide)
    | (with_reducible apply Keeps.step (Dev.offersTo_keeps ..); · decide)
    | (refine ⟨fun p hp => ?_, ?_, ?_⟩; rotate_left; (first | exact fun hr => hr | exact h.regs); (first | exact fun _ => Grows.refl _ | exact h.adds); cases p <;> first | exact absurd (by decide) hp | apply Eq.refl | apply h.same _ hp))

theorem Dev.starveLimit_keeps (d : Dev) (a1 : Nat) : Keeps [.cnt, .merge, .crs, .log] d (Dev.starveLimit d a1) := by
  unfold Dev.starveLimit
  repeat' (first
    | (extract_lets +onlyGivenNames x; first | (refine Keeps.cut x ?_ ?_; (unfold x; clear x); rotate_left; (clear_value x; revert x; intro _ h)) | (revert x; intro _))
    | with_reducible exact Keeps.refl _ _
    | with_reducible assumption
    | split
    | (with_reducible apply Keeps.step (Dev.bump_keeps ..); · decide)
    | (with_reducible apply Keeps.step (Dev.raise_keeps ..); · decide)
    | (with_reducible apply Keeps.step (Dev.updBrick_keeps ..); · decide))

theorem Dev.remnantReady_keeps (d : Dev) (a1 : Nat) : Keeps [.cnt, .merge, .out, .hst, .lnk, .crs, .msn, .log] d (Dev.remnantReady d a1) := by
  unfold Dev.remnantReady
  repeat' (first
    | (extract_lets +onlyGivenNames x; first | (refine Keeps.cut x ?_ ?_; (unfold x; clear x); rotate_left; (clear_value x; revert x; intro _ h)) | (revert x; intro _))
    | with_reducible exact Keeps.refl _ _
    | with_reducible assumption
    | split
    | (with_reducible apply Keeps.step (Dev.bump_keeps ..); · decide)
    | (with_reducible apply Keeps.step (Dev.raise_keeps ..); · decide)
    | (with_reducible apply Keeps.step (Dev.updBrick_keeps ..); · decide)
    | (with_reducible apply Keeps.step (Dev.enterReady_keeps ..); · decide)
    | (with_reducible apply Keeps.step (Dev.unreachable_keeps ..); · decide)
    | (refine ⟨fun p hp => ?_, ?_, ?_⟩; rotate_left; (first | exact fun hr => hr | exact h.regs); (first | exact fun _ => Grows.refl _ | exact h.adds); cases p <;> first | exact absurd (by decide) hp | apply Eq.refl | apply h.same _ hp))

theorem Dev.standstill_keeps (d : Dev) : Keeps [.cnt, .merge, .out, .hst, .lnk, .crs, .msn, .log] d (Dev.standstill d) := by
  unfold Dev.standstill
  repeat' (first
    | (extract_lets +onlyGivenNames x; first | (refine Keeps.cut x ?_ ?_; (unfold x; clear x); rotate_left; (clear_value x; revert x; intro _ h)) | (revert x; intro _))
    | with_reducible refine Keeps.foldl _ (fun _ _ h => ?_) ?_
    | with_reducible refine Keeps.forRange _ (fun _ _ h => ?_) ?_
    | with_reducible exact Keeps.refl _ _
    | with_reducible assumption
    | split
    | (with_reducible apply Keeps.step (Dev.raise_keeps ..); · decide)
    | (with_reducible apply Keeps.step (Dev.finishOne_keeps ..); · decide)
    | (refine ⟨fun p hp => ?_, ?_, ?_⟩; rotate_left; (first | exact fun hr => hr | exact h.regs); (first | exact fun _ => Grows.refl _ | exact h.adds); cases p <;> first | exact absurd (by decide) hp | apply Eq.refl | apply h.same _ hp))

theorem Dev.unplaceableTimeout_keeps (d : Dev) (a1 : Nat) : Keeps [.cnt, .merge, .out, .hst, .lnk, .crs, .msn, .log] d (Dev.unplaceableTimeout d a1) := by
  unfold Dev.unplaceableTimeout
  repeat' (first
    | with_reducible exact Keeps.refl _ _
    | split
    | (with_reducible apply Keeps.step (Dev.unreachable_keeps ..); · decide))

theorem Dev.masonDrop_keeps (d : Dev) (a1 : Mem) (a2 : Nat) : Keeps [.cnt, .merge, .crs, .msn, .pth, .lsr, .log] d (Dev.masonDrop d a1 a2) := by
  unfold Dev.masonDrop
  repeat' (first
    | (extract_lets +onlyGivenNames x; first | (refine Keeps.cut x ?_ ?_; (unfold x; clear x); rotate_left; (clear_value x; revert x; intro _ h)) | (revert x; intro _))
    | with_reducible exact Keeps.refl _ _
    | with_reducible assumption
    | split
    | (with_reducible apply Keeps.step (Dev.updLaser_keeps ..); · decide)
    | (with_reducible apply Keeps.step (Dev.stopPiste_keeps ..); · decide)
    | (with_reducible apply Keeps.step (Dev.setLaser_keeps ..); · decide)
    | (with_reducible apply Keeps.step (Dev.returnQueued_keeps ..); · decide)
    | (with_reducible apply Keeps.step (Dev.seamDrop_keeps ..); · decide)
    | (with_reducible apply Keeps.step (Dev.countUntil_keeps ..); · decide)
    | (with_reducible apply Keeps.step (Dev.uncountAfter_keeps ..); · decide)
    | (with_reducible apply Keeps.step (Dev.updChan_keeps ..); · decide)
    | (with_reducible apply Keeps.step (Dev.parkOff_keeps ..); · decide)
    | (with_reducible apply Keeps.step (Dev.makeRemnant_keeps ..); · decide))

theorem Dev.brickDone_keeps (d : Dev) (a1 : Mem) (a2 : Nat) : Keeps [.cnt, .merge, .out, .hst, .lnk, .crs, .msn, .pth, .log] d (Dev.brickDone d a1 a2) := by
  unfold Dev.brickDone
  repeat' (first
    | (extract_lets +onlyGivenNames x; first | (refine Keeps.cut x ?_ ?_; (unfold x; clear x); rotate_left; (clear_value x; revert x; intro _ h)) | (revert x; intro _))
    | with_reducible exact Keeps.refl _ _
    | with_reducible assumption
    | split
    | (with_reducible apply Keeps.step (Dev.updLaser_keeps ..); · decide)
    | (with_reducible apply Keeps.step (Dev.updPiste_keeps ..); · decide)
    | (with_reducible apply Keeps.step (Dev.setLaser_keeps ..); · decide)
    | (with_reducible apply Keeps.step (Dev.finishBrick_keeps ..); · decide)
    | (with_reducible apply Keeps.step (Dev.startOn_keeps ..); · decide)
    | (with_reducible apply Keeps.step (Dev.planRunOut_keeps ..); · decide)
    | (with_reducible apply Keeps.step (Dev.countBrick_keeps ..); · decide))

/-! ## Param -/

theorem Dev.psetWrite_keeps (d : Dev) (a1 : Mem) (a2 : Nat) : Keeps [.merge, .hst] d (Dev.psetWrite d a1 a2).2 := by
  unfold Dev.psetWrite
  repeat' (first
    | (extract_lets +onlyGivenNames x; first | (refine Keeps.cut x ?_ ?_; (unfold x; clear x); rotate_left; (clear_value x; revert x; intro _ h)) | (revert x; intro _))
    | with_reducible refine Keeps.foldl _ (fun _ _ h => ?_) ?_
    | with_reducible refine Keeps.forRange _ (fun _ _ h => ?_) ?_
    | with_reducible exact Keeps.refl _ _
    | with_reducible assumption
    | split
    | (with_reducible apply Keeps.step (Dev.complete_keeps ..); · decide)
    | (with_reducible apply Keeps.step (Dev.pop_keeps ..); · decide)
    | with_reducible refine Keeps.forRangeR _ (fun _ _ h => ?_) ?_
    | with_reducible refine Keeps.foldlR _ (fun _ _ h => ?_) ?_
    | with_reducible refine Keeps.iteR ?_ ?_
    | with_reducible refine Keeps.pairR (by assumption) ?_
    | with_reducible refine Keeps.pairL (by assumption) ?_
    | with_reducible refine Keeps.pair3 (by assumption) ?_
    | (refine ⟨fun p hp => ?_, ?_, ?_⟩; rotate_left; (first | exact fun hr => hr | exact h.regs); (first | exact fun _ => Grows.refl _ | exact h.adds); cases p <;> first | exact absurd (by decide) hp | apply Eq.refl | apply h.same _ hp)
    | intro _
    | (dsimp only))

theorem Dev.psetLoad_keeps (d : Dev) (a1 : Nat) : Keeps [.merge, .out, .hst, .crs] d (Dev.psetLoad d a1) := by
  unfold Dev.psetLoad
  repeat' (first
    | (extract_lets +onlyGivenNames x; first | (refine Keeps.cut x ?_ ?_; (unfold x; clear x); rotate_left; (clear_value x; revert x; intro _ h)) | (revert x; intro _))
    | with_reducible exact Keeps.refl _ _
    | with_reducible assumption
    | split
    | (with_reducible apply Keeps.step (Dev.complete_keeps ..); · decide)
    | (with_reducible apply Keeps.step (Dev.pop_keeps ..); · decide)
    | (with_reducible apply Keeps.step (Dev.emit_keeps ..); · decide)
    | (refine ⟨fun p hp => ?_, ?_, ?_⟩; rotate_left; (first | exact fun hr => hr | exact h.regs); (first | exact fun _ => Grows.refl _ | exact h.adds); cases p <;> first | exact absurd (by decide) hp | apply Eq.refl | apply h.same _ hp))

theorem Dev.psetLoadData_keeps (d : Dev) (a1 : Mem) (a2 : Nat) (a3 : HostRead) : Keeps [.cnt, .merge, .hst, .crs, .log] d (Dev.psetLoadData d a1 a2 a3).2 := by
  unfold Dev.psetLoadData
  repeat' (first
    | (extract_lets +onlyGivenNames x; first | (refine Keeps.cut x ?_ ?_; (unfold x; clear x); rotate_left; (clear_value x; revert x; intro _ h)) | (revert x; intro _))
    | with_reducible refine Keeps.foldl _ (fun _ _ h => ?_) ?_
    | with_reducible refine Keeps.forRange _ (fun _ _ h => ?_) ?_
    | with_reducible exact Keeps.refl _ _
    | with_reducible assumption
    | split
    | (with_reducible apply Keeps.step (Dev.complete_keeps ..); · decide)
    | (with_reducible apply Keeps.step (Dev.pop_keeps ..); · decide)
    | (with_reducible apply Keeps.step (Dev.bodyFetchErr_keeps ..); · decide)
    | with_reducible refine Keeps.forRangeR _ (fun _ _ h => ?_) ?_
    | with_reducible refine Keeps.foldlR _ (fun _ _ h => ?_) ?_
    | with_reducible refine Keeps.iteR ?_ ?_
    | with_reducible refine Keeps.pairR (by assumption) ?_
    | with_reducible refine Keeps.pairL (by assumption) ?_
    | with_reducible refine Keeps.pair3 (by assumption) ?_
    | (refine ⟨fun p hp => ?_, ?_, ?_⟩; rotate_left; (first | exact fun hr => hr | exact h.regs); (first | exact fun _ => Grows.refl _ | exact h.adds); cases p <;> first | exact absurd (by decide) hp | apply Eq.refl | apply h.same _ hp)
    | intro _
    | (dsimp only)
    | with_reducible refine Keeps.step (keeps_crs ..) (by decide) ?_)

theorem Dev.commitShadows_keeps (d : Dev) : Keeps [.effect, .srvNext, .crs] d (Dev.commitShadows d) := by
  unfold Dev.commitShadows
  repeat' (first
    | with_reducible exact Keeps.refl _ _
    | (refine ⟨fun p hp => ?_, fun hr => by simp only [RegFile.wf, Bool.and_eq_true] at hr ⊢; simp [hr, keysRise_filter, keysRise_foldl_put], fun _ => Grows.refl _⟩; cases p <;> first | exact absurd (by decide) hp | apply Eq.refl))

theorem Dev.psetCommit_keeps (d : Dev) (a1 : Nat) : Keeps [.merge, .hst, .crs] d (Dev.psetCommit d a1) := by
  unfold Dev.psetCommit
  repeat' (first
    | with_reducible exact Keeps.refl _ _
    | split
    | (with_reducible apply Keeps.step (Dev.complete_keeps ..); · decide)
    | (with_reducible apply Keeps.step (Dev.pop_keeps ..); · decide)
    | (refine ⟨fun p hp => ?_, fun hr => hr, fun _ => Grows.refl _⟩; cases p <;> first | exact absurd (by decide) hp | apply Eq.refl))

theorem Dev.paramCommit_keeps (d : Dev) (a1 : Mem) : Keeps [.effect, .srvNext, .cnt, .merge, .hst, .crs] d (Dev.paramCommit d a1).2 := by
  unfold Dev.paramCommit
  repeat' (first
    | (extract_lets +onlyGivenNames x; first | (refine Keeps.cut x ?_ ?_; (unfold x; clear x); rotate_left; (clear_value x; revert x; intro _ h)) | (revert x; intro _))
    | with_reducible refine Keeps.foldl _ (fun _ _ h => ?_) ?_
    | with_reducible refine Keeps.forRange _ (fun _ _ h => ?_) ?_
    | with_reducible exact Keeps.refl _ _
    | with_reducible assumption
    | split
    | (with_reducible apply Keeps.step (Dev.bump_keeps ..); · decide)
    | (with_reducible apply Keeps.step (Dev.complete_keeps ..); · decide)
    | (with_reducible apply Keeps.step (Dev.pop_keeps ..); · decide)
    | (with_reducible apply Keeps.step (Dev.commitShadows_keeps ..); · decide)
    | with_reducible refine Keeps.forRangeR _ (fun _ _ h => ?_) ?_
    | with_reducible refine Keeps.foldlR _ (fun _ _ h => ?_) ?_
    | with_reducible refine Keeps.iteR ?_ ?_
    | with_reducible refine Keeps.pairR (by assumption) ?_
    | with_reducible refine Keeps.pairL (by assumption) ?_
    | with_reducible refine Keeps.pair3 (by assumption) ?_
    | (refine ⟨fun p hp => ?_, ?_, ?_⟩; rotate_left; (first | exact fun hr => hr | exact h.regs); (first | exact fun _ => Grows.refl _ | exact h.adds); cases p <;> first | exact absurd (by decide) hp | apply Eq.refl | apply h.same _ hp)
    | intro _
    | (dsimp only)
    | with_reducible refine Keeps.step (keeps_crs ..) (by decide) ?_)

/-! ## Course -/

theorem Dev.rejectDesc_keeps (d : Dev) (a1 : Entry) (a2 : Nat) : Keeps [.cnt, .merge, .out, .hst, .lnk, .crs, .log] d (Dev.rejectDesc d a1 a2) := by
  unfold Dev.rejectDesc
  repeat' (first
    | (extract_lets +onlyGivenNames x; first | (refine Keeps.cut x ?_ ?_; (unfold x; clear x); rotate_left; (clear_value x; revert x; intro _ h)) | (revert x; intro _))
    | with_reducible exact Keeps.refl _ _
    | with_reducible assumption
    | split
    | (with_reducible apply Keeps.step (Dev.bump_keeps ..); · decide)
    | (with_reducible apply Keeps.step (Dev.answer_keeps ..); · decide)
    | (refine ⟨fun p hp => ?_, ?_, ?_⟩; rotate_left; (first | exact fun hr => hr | exact h.regs); (first | exact fun _ => Grows.refl _ | exact h.adds); cases p <;> first | exact absurd (by decide) hp | apply Eq.refl | apply h.same _ hp))

theorem Dev.takeBrick_keeps (d : Dev) (a1 : Entry) (a2 : List Nat) : Keeps [.crs] d (Dev.takeBrick d a1 a2) := by
  unfold Dev.takeBrick
  repeat' (first
    | with_reducible exact Keeps.refl _ _
    | (refine ⟨fun p hp => ?_, fun hr => hr, fun _ => Grows.refl _⟩; cases p <;> first | exact absurd (by decide) hp | apply Eq.refl))

theorem Dev.verdict_keeps (d : Dev) (a1 : Mem) (a2 : Brick) (a3 : List Byte) : Keeps [.cnt, .merge, .out, .hst, .lnk, .crs, .msn, .log] d (Dev.verdict d a1 a2 a3) := by
  unfold Dev.verdict
  repeat' (first
    | with_reducible exact Keeps.refl _ _
    | split
    | (with_reducible apply Keeps.step (Dev.rejectBrick_keeps ..); · decide)
    | (with_reducible apply Keeps.step (Dev.acceptBrick_keeps ..); · decide))

theorem Dev.openCourse_keeps (d : Dev) (a1 : Nat) : Keeps [.merge, .crs, .pth, .log] d (Dev.openCourse d a1) := by
  unfold Dev.openCourse
  repeat' (first
    | with_reducible exact Keeps.refl _ _
    | (with_reducible apply Keeps.step (Dev.testZones_keeps ..); · decide)
    | (refine ⟨fun p hp => ?_, fun hr => hr, fun _ => Grows.refl _⟩; cases p <;> first | exact absurd (by decide) hp | apply Eq.refl))

theorem Dev.beginEntry_keeps (d : Dev) (a1 : Entry) : KeepsO [.cnt, .merge, .out, .hst, .lnk, .crs, .pth, .log] d (Dev.beginEntry d a1) := by
  unfold Dev.beginEntry
  repeat' (first
    | (extract_lets +onlyGivenNames x; first | (refine Keeps.cut x ?_ ?_; (unfold x; clear x); rotate_left; (clear_value x; revert x; intro _ h)) | (refine Keeps.cutO x ?_ ?_; (unfold x; clear x); rotate_left; (clear_value x; revert x; intro _ h)) | (revert x; intro _))
    | with_reducible refine Keeps.foldl _ (fun _ _ h => ?_) ?_
    | with_reducible refine Keeps.forRange _ (fun _ _ h => ?_) ?_
    | with_reducible exact Keeps.refl _ _
    | with_reducible assumption
    | split
    | (with_reducible apply Keeps.step (Dev.answer_keeps ..); · decide)
    | (with_reducible apply Keeps.step (Dev.openCourse_keeps ..); · decide)
    | with_reducible refine KeepsO.some ?_
    | with_reducible exact KeepsO.none _ _
    | with_reducible refine Keeps.pairR (by assumption) ?_
    | with_reducible refine Keeps.pairL (by assumption) ?_
    | with_reducible refine Keeps.pair3 (by assumption) ?_
    | (refine ⟨fun p hp => ?_, ?_, ?_⟩; rotate_left; (first | exact fun hr => hr | exact h.regs); (first | exact fun _ => Grows.refl _ | exact h.adds); cases p <;> first | exact absurd (by decide) hp | apply Eq.refl | apply h.same _ hp)
    | intro _
    | (dsimp only))

theorem Dev.endEntry_keeps (d : Dev) (a1 : Entry) : KeepsO [.cnt, .merge, .out, .hst, .lnk, .crs, .log] d (Dev.endEntry d a1) := by
  unfold Dev.endEntry
  repeat' (first
    | (extract_lets +onlyGivenNames x; first | (refine Keeps.cut x ?_ ?_; (unfold x; clear x); rotate_left; (clear_value x; revert x; intro _ h)) | (refine Keeps.cutO x ?_ ?_; (unfold x; clear x); rotate_left; (clear_value x; revert x; intro _ h)) | (revert x; intro _))
    | with_reducible refine Keeps.foldl _ (fun _ _ h => ?_) ?_
    | with_reducible refine Keeps.forRange _ (fun _ _ h => ?_) ?_
    | with_reducible exact Keeps.refl _ _
    | with_reducible assumption
    | split
    | (with_reducible apply Keeps.step (Dev.answer_keeps ..); · decide)
    | with_reducible refine KeepsO.some ?_
    | with_reducible exact KeepsO.none _ _
    | with_reducible refine Keeps.pairR (by assumption) ?_
    | with_reducible refine Keeps.pairL (by assumption) ?_
    | with_reducible refine Keeps.pair3 (by assumption) ?_
    | (refine ⟨fun p hp => ?_, ?_, ?_⟩; rotate_left; (first | exact fun hr => hr | exact h.regs); (first | exact fun _ => Grows.refl _ | exact h.adds); cases p <;> first | exact absurd (by decide) hp | apply Eq.refl | apply h.same _ hp)
    | intro _
    | (dsimp only)
    | with_reducible refine Keeps.step (keeps_crs ..) (by decide) ?_)

theorem Dev.abortStaged_keeps (d : Dev) : Keeps [.cnt, .merge, .out, .hst, .lnk, .crs, .msn, .log] d (Dev.abortStaged d) := by
  unfold Dev.abortStaged
  repeat' (first
    | (extract_lets +onlyGivenNames x; first | (refine Keeps.cut x ?_ ?_; (unfold x; clear x); rotate_left; (clear_value x; revert x; intro _ h)) | (revert x; intro _))
    | with_reducible refine Keeps.foldl _ (fun _ _ h => ?_) ?_
    | with_reducible refine Keeps.forRange _ (fun _ _ h => ?_) ?_
    | with_reducible exact Keeps.refl _ _
    | with_reducible assumption
    | split
    | (with_reducible apply Keeps.step (Dev.dropBrick_keeps ..); · decide)
    | (with_reducible apply Keeps.step (Dev.answerBrick_keeps ..); · decide)
    | (with_reducible apply Keeps.step (Dev.finishOne_keeps ..); · decide)
    | (refine ⟨fun p hp => ?_, ?_, ?_⟩; rotate_left; (first | exact fun hr => hr | exact h.regs); (first | exact fun _ => Grows.refl _ | exact h.adds); cases p <;> first | exact absurd (by decide) hp | apply Eq.refl | apply h.same _ hp))

theorem Dev.gatePipe_keeps (d : Dev) (a1 : Nat) : Keeps [.lsr] d (Dev.gatePipe d a1) := by
  unfold Dev.gatePipe
  repeat' (first
    | with_reducible exact Keeps.refl _ _
    | (with_reducible apply Keeps.step (Dev.updChan_keeps ..); · decide)
    | (refine ⟨fun p hp => ?_, fun hr => hr, fun _ => Grows.refl _⟩; cases p <;> first | exact absurd (by decide) hp | apply Eq.refl))

theorem Dev.abortLaser_keeps (d : Dev) (a1 : Mem) (a2 : Nat) : Keeps [.cnt, .merge, .out, .freeCount, .hst, .lnk, .crs, .msn, .pth, .lsr, .log] d (Dev.abortLaser d a1 a2) := by
  unfold Dev.abortLaser
  repeat' (first
    | (extract_lets +onlyGivenNames x; first | (refine Keeps.cut x ?_ ?_; (unfold x; clear x); rotate_left; (clear_value x; revert x; intro _ h)) | (revert x; intro _))
    | with_reducible refine Keeps.foldl _ (fun _ _ h => ?_) ?_
    | with_reducible refine Keeps.forRange _ (fun _ _ h => ?_) ?_
    | with_reducible exact Keeps.refl _ _
    | with_reducible assumption
    | split
    | (with_reducible apply Keeps.step (Dev.updLaser_keeps ..); · decide)
    | (with_reducible apply Keeps.step (Dev.stopPiste_keeps ..); · decide)
    | (with_reducible apply Keeps.step (Dev.setLaser_keeps ..); · decide)
    | (with_reducible apply Keeps.step (Dev.finishOne_keeps ..); · decide)
    | (with_reducible apply Keeps.step (Dev.padDelay_keeps ..); · decide)
    | (with_reducible apply Keeps.step (Dev.countUntil_keeps ..); · decide)
    | (with_reducible apply Keeps.step (Dev.uncountAfter_keeps ..); · decide)
    | (with_reducible apply Keeps.step (Dev.gatePipe_keeps ..); · decide)
    | with_reducible refine Keeps.pairR (by assumption) ?_
    | with_reducible refine Keeps.pairL (by assumption) ?_
    | with_reducible refine Keeps.pair3 (by assumption) ?_
    | (refine ⟨fun p hp => ?_, ?_, ?_⟩; rotate_left; (first | exact fun hr => hr | exact h.regs); (first | exact fun _ => Grows.refl _ | exact h.adds); cases p <;> first | exact absurd (by decide) hp | apply Eq.refl | apply h.same _ hp)
    | intro _
    | (dsimp only))

theorem Dev.abortCourse_keeps (d : Dev) (a1 : Mem) (a2 : Entry) : Keeps [.cnt, .merge, .out, .freeCount, .hst, .lnk, .crs, .msn, .pth, .lsr, .log] d (Dev.abortCourse d a1 a2) := by
  unfold Dev.abortCourse
  repeat' (first
    | (extract_lets +onlyGivenNames x; first | (refine Keeps.cut x ?_ ?_; (unfold x; clear x); rotate_left; (clear_value x; revert x; intro _ h)) | (revert x; intro _))
    | with_reducible refine Keeps.foldl _ (fun _ _ h => ?_) ?_
    | with_reducible refine Keeps.forRange _ (fun _ _ h => ?_) ?_
    | with_reducible exact Keeps.refl _ _
    | with_reducible assumption
    | split
    | (with_reducible apply Keeps.step (Dev.abortStaged_keeps ..); · decide)
    | (with_reducible apply Keeps.step (Dev.abortLaser_keeps ..); · decide)
    | (refine ⟨fun p hp => ?_, ?_, ?_⟩; rotate_left; (first | exact fun hr => hr | exact h.regs); (first | exact fun _ => Grows.refl _ | exact h.adds); cases p <;> first | exact absurd (by decide) hp | apply Eq.refl | apply h.same _ hp))

theorem Dev.abortEntry_keeps (d : Dev) (a1 : Mem) (a2 : Entry) : KeepsO [.cnt, .merge, .out, .freeCount, .hst, .lnk, .crs, .msn, .pth, .lsr, .log] d (Dev.abortEntry d a1 a2) := by
  unfold Dev.abortEntry
  repeat' (first
    | (extract_lets +onlyGivenNames x; first | (refine Keeps.cut x ?_ ?_; (unfold x; clear x); rotate_left; (clear_value x; revert x; intro _ h)) | (refine Keeps.cutO x ?_ ?_; (unfold x; clear x); rotate_left; (clear_value x; revert x; intro _ h)) | (revert x; intro _))
    | with_reducible refine Keeps.foldl _ (fun _ _ h => ?_) ?_
    | with_reducible refine Keeps.forRange _ (fun _ _ h => ?_) ?_
    | with_reducible exact Keeps.refl _ _
    | with_reducible assumption
    | split
    | (with_reducible apply Keeps.step (Dev.answer_keeps ..); · decide)
    | (with_reducible apply Keeps.step (Dev.abortCourse_keeps ..); · decide)
    | with_reducible refine KeepsO.some ?_
    | with_reducible exact KeepsO.none _ _
    | with_reducible refine Keeps.pairR (by assumption) ?_
    | with_reducible refine Keeps.pairL (by assumption) ?_
    | with_reducible refine Keeps.pair3 (by assumption) ?_
    | (refine ⟨fun p hp => ?_, ?_, ?_⟩; rotate_left; (first | exact fun hr => hr | exact h.regs); (first | exact fun _ => Grows.refl _ | exact h.adds); cases p <;> first | exact absurd (by decide) hp | apply Eq.refl | apply h.same _ hp)
    | intro _
    | (dsimp only))

theorem Dev.writeSeam_keeps (d : Dev) (a1 : RegDef) (a2 : W64) (a3 : Nat) : Keeps [.rw, .shadow, .w1c] d (Dev.writeSeam d a1 a2 a3) := by
  unfold Dev.writeSeam
  repeat' (first
    | (extract_lets +onlyGivenNames x; first | (refine Keeps.cut x ?_ ?_; (unfold x; clear x); rotate_left; (clear_value x; revert x; intro _ h)) | (revert x; intro _))
    | with_reducible exact Keeps.refl _ _
    | with_reducible assumption
    | split
    | (with_reducible apply Keeps.step (Dev.refuse_keeps ..); · decide)
    | (with_reducible apply Keeps.step (Dev.store_keeps ..); · decide))

theorem Dev.writePth_keeps (d : Dev) (a1 : RegDef) (a2 : W64) (a3 : Nat) (a4 : Nat) : Keeps [.rw, .shadow, .w1c] d (Dev.writePth d a1 a2 a3 a4) := by
  unfold Dev.writePth
  repeat' (first
    | (extract_lets +onlyGivenNames x; first | (refine Keeps.cut x ?_ ?_; (unfold x; clear x); rotate_left; (clear_value x; revert x; intro _ h)) | (revert x; intro _))
    | with_reducible exact Keeps.refl _ _
    | with_reducible assumption
    | split
    | (with_reducible apply Keeps.step (Dev.storeIf_keeps ..); · decide)
    | (with_reducible apply Keeps.step (Dev.writeSeam_keeps ..); · decide))

theorem Dev.brickVerdict_keeps (d : Dev) (a1 : Mem) (a2 : Nat) (a3 : HostRead) : Keeps [.cnt, .merge, .out, .hst, .lnk, .crs, .msn, .log] d (Dev.brickVerdict d a1 a2 a3).2 := by
  unfold Dev.brickVerdict
  repeat' (first
    | (extract_lets +onlyGivenNames x; first | (refine Keeps.cut x ?_ ?_; (unfold x; clear x); rotate_left; (clear_value x; revert x; intro _ h)) | (revert x; intro _))
    | with_reducible refine Keeps.foldl _ (fun _ _ h => ?_) ?_
    | with_reducible refine Keeps.forRange _ (fun _ _ h => ?_) ?_
    | with_reducible exact Keeps.refl _ _
    | with_reducible assumption
    | split
    | (with_reducible apply Keeps.step (Dev.dropBrick_keeps ..); · decide)
    | (with_reducible apply Keeps.step (Dev.verdict_keeps ..); · decide)
    | (with_reducible apply Keeps.step (Dev.bodyFetchErr_keeps ..); · decide)
    | with_reducible refine Keeps.forRangeR _ (fun _ _ h => ?_) ?_
    | with_reducible refine Keeps.foldlR _ (fun _ _ h => ?_) ?_
    | with_reducible refine Keeps.iteR ?_ ?_
    | with_reducible refine Keeps.pairR (by assumption) ?_
    | with_reducible refine Keeps.pairL (by assumption) ?_
    | with_reducible refine Keeps.pair3 (by assumption) ?_
    | (refine ⟨fun p hp => ?_, ?_, ?_⟩; rotate_left; (first | exact fun hr => hr | exact h.regs); (first | exact fun _ => Grows.refl _ | exact h.adds); cases p <;> first | exact absurd (by decide) hp | apply Eq.refl | apply h.same _ hp)
    | intro _
    | (dsimp only))

theorem Dev.writeMsn_keeps (d : Dev) (a1 : RegDef) (a2 : W64) (a3 : Nat) (a4 : Nat) : Keeps [.rw, .shadow, .w1c] d (Dev.writeMsn d a1 a2 a3 a4) := by
  unfold Dev.writeMsn
  repeat' (first
    | with_reducible exact Keeps.refl _ _
    | (with_reducible apply Keeps.step (Dev.storeIf_keeps ..); · decide)
    | (with_reducible apply Keeps.step (Dev.settleHold_keeps ..); · decide)
    | (refine ⟨fun p hp => ?_, fun hr => hr, fun _ => Grows.refl _⟩; cases p <;> first | exact absurd (by decide) hp | apply Eq.refl))

theorem Dev.feedBrick_keeps (d : Dev) (a1 : Entry) : Keeps [.merge, .out, .hst, .lnk, .crs] d (Dev.feedBrick d a1) := by
  unfold Dev.feedBrick
  repeat' (first
    | with_reducible exact Keeps.refl _ _
    | split
    | (with_reducible apply Keeps.step (Dev.complete_keeps ..); · decide)
    | (with_reducible apply Keeps.step (Dev.pop_keeps ..); · decide)
    | (with_reducible apply Keeps.step (Dev.emit_keeps ..); · decide)
    | (refine ⟨fun p hp => ?_, fun hr => hr, fun _ => Grows.refl _⟩; cases p <;> first | exact absurd (by decide) hp | apply Eq.refl))

theorem Dev.brickEntry_keeps (d : Dev) (a1 : Nat) : Keeps [.cnt, .merge, .out, .hst, .lnk, .crs, .log] d (Dev.brickEntry d a1) := by
  unfold Dev.brickEntry
  repeat' (first
    | with_reducible exact Keeps.refl _ _
    | split
    | (with_reducible apply Keeps.step (Dev.pop_keeps ..); · decide)
    | (with_reducible apply Keeps.step (Dev.emit_keeps ..); · decide)
    | (with_reducible apply Keeps.step (Dev.rejectDesc_keeps ..); · decide)
    | (with_reducible apply Keeps.step (Dev.takeBrick_keeps ..); · decide)
    | (with_reducible apply Keeps.step (Dev.feedBrick_keeps ..); · decide))

theorem Dev.latchRol_keeps (d : Dev) : Keeps [.cnt, .rol, .rolBeat, .thm] d (Dev.latchRol d) := by
  unfold Dev.latchRol
  repeat' (first
    | with_reducible exact Keeps.refl _ _
    | split
    | (refine ⟨fun p hp => ?_, fun hr => by simp only [RegFile.wf, Bool.and_eq_true] at hr ⊢; simp [hr, keysRise], fun _ => Grows.refl _⟩; cases p <;> first | exact absurd (by decide) hp | apply Eq.refl))

theorem Dev.feedCtrl_keeps (d : Dev) (a1 : Entry) : Keeps [.cnt, .merge, .out, .hst, .lnk, .crs, .log] d (Dev.feedCtrl d a1) := by
  unfold Dev.feedCtrl
  repeat' (first
    | (extract_lets +onlyGivenNames x; first | (refine Keeps.cut x ?_ ?_; (unfold x; clear x); rotate_left; (clear_value x; revert x; intro _ h)) | (revert x; intro _))
    | with_reducible exact Keeps.refl _ _
    | with_reducible assumption
    | split
    | (with_reducible apply Keeps.step (Dev.pop_keeps ..); · decide)
    | (with_reducible apply Keeps.step (Dev.fedSend_keeps ..); · decide)
    | (refine ⟨fun p hp => ?_, ?_, ?_⟩; rotate_left; (first | exact fun hr => hr | exact h.regs); (first | exact fun _ => Grows.refl _ | exact h.adds); cases p <;> first | exact absurd (by decide) hp | apply Eq.refl | apply h.same _ hp))

theorem Dev.courseOp_keeps {w : List Part} {d0 d : Dev} {n op : Nat} {f : Dev → Entry → Option Dev} (hs : [.cnt, .merge, .out, .hst, .lnk, .crs, .log].all (fun p => w.contains p) = true)
    (hf : ∀ d e, Keeps w d0 d → KeepsO w d0 (f d e)) (h : Keeps w d0 d) : Keeps w d0 (d.courseOp n op f) := by
  unfold Dev.courseOp
  have hp : Keeps w d0 (d.pop n) := Keeps.step (v := [.cnt, .merge, .out, .hst, .lnk, .crs, .log]) (Keeps.step (Dev.pop_keeps ..) (by decide) (Keeps.refl _ _)) hs h
  repeat' split
  all_goals first
    | exact h
    | exact Keeps.step (v := [.cnt, .merge, .out, .hst, .lnk, .crs, .log]) (Keeps.step (Dev.feedCtrl_keeps ..) (by decide) (Keeps.refl _ _)) hs h
    | skip
  cases e : f (d.pop n) _ with
  | none => exact h
  | some y => exact (hf _ _ hp).keeps _ e

theorem Dev.courseRecords_keeps (d : Dev) (a1 : Bool) : Keeps [.merge] d (Dev.courseRecords d a1) := by
  unfold Dev.courseRecords
  repeat' (first
    | (extract_lets +onlyGivenNames x; first | (refine Keeps.cut x ?_ ?_; (unfold x; clear x); rotate_left; (clear_value x; revert x; intro _ h)) | (revert x; intro _))
    | with_reducible refine Keeps.foldl _ (fun _ _ h => ?_) ?_
    | with_reducible refine Keeps.forRange _ (fun _ _ h => ?_) ?_
    | with_reducible exact Keeps.refl _ _
    | with_reducible assumption
    | split
    | (with_reducible apply Keeps.step (Dev.record_keeps ..); · decide)
    | (refine ⟨fun p hp => ?_, ?_, ?_⟩; rotate_left; (first | exact fun hr => hr | exact h.regs); (first | exact fun _ => Grows.refl _ | exact h.adds); cases p <;> first | exact absurd (by decide) hp | apply Eq.refl | apply h.same _ hp))

theorem Dev.closeCourse_keeps (d : Dev) (a1 : Bool) : Keeps [.cnt, .rol, .rolBeat, .merge, .out, .hst, .lnk, .crs, .pth, .thm, .log] d (Dev.closeCourse d a1) := by
  unfold Dev.closeCourse
  repeat' (first
    | (extract_lets +onlyGivenNames x; first | (refine Keeps.cut x ?_ ?_; (unfold x; clear x); rotate_left; (clear_value x; revert x; intro _ h)) | (revert x; intro _))
    | with_reducible exact Keeps.refl _ _
    | with_reducible assumption
    | split
    | (with_reducible apply Keeps.step (Dev.answer_keeps ..); · decide)
    | (with_reducible apply Keeps.step (Dev.latchRol_keeps ..); · decide)
    | (with_reducible apply Keeps.step (Dev.courseRecords_keeps ..); · decide)
    | (refine ⟨fun p hp => ?_, ?_, ?_⟩; rotate_left; (first | exact fun hr => hr | exact h.regs); (first | exact fun _ => Grows.refl _ | exact h.adds); cases p <;> first | exact absurd (by decide) hp | apply Eq.refl | apply h.same _ hp))

theorem Dev.abortComplete_keeps (d : Dev) : Keeps [.cnt, .rol, .rolBeat, .merge, .out, .hst, .lnk, .crs, .pth, .thm, .log] d (Dev.abortComplete d) := by
  unfold Dev.abortComplete
  repeat' (first
    | with_reducible exact Keeps.refl _ _
    | split
    | (with_reducible apply Keeps.step (Dev.closeCourse_keeps ..); · decide))

theorem Dev.courseClose_keeps (d : Dev) : Keeps [.cnt, .rol, .rolBeat, .merge, .out, .hst, .lnk, .crs, .pth, .thm, .log] d (Dev.courseClose d) := by
  unfold Dev.courseClose
  repeat' (first
    | with_reducible exact Keeps.refl _ _
    | split
    | (with_reducible apply Keeps.step (Dev.closeCourse_keeps ..); · decide))

/-! ## Feed -/

theorem Dev.takeArrived_keeps (d : Dev) (a1 : Frame → Bool) : KeepsO [.lnk] d ((Dev.takeArrived d a1).map (fun x => x.2.2)) := by
  unfold Dev.takeArrived
  refine ⟨fun d' e => ?_⟩
  split at e
  · simp only [Option.map_eq_some_iff] at e
    obtain ⟨_, ⟨_, _, rfl⟩, rfl⟩ := e
    exact keeps_lnk ..
  · cases e

theorem Dev.fedFront_keeps (d : Dev) (a1 : Mem) (a2 : FedIn) : KeepsO [.cnt, .merge, .out, .freeCount, .hst, .lnk, .crs, .msn, .pth, .lsr, .log] d (Dev.fedFront d a1 a2) := by
  unfold Dev.fedFront
  repeat' (first
    | (extract_lets +onlyGivenNames x; first | (refine Keeps.cut x ?_ ?_; (unfold x; clear x); rotate_left; (clear_value x; revert x; intro _ h)) | (refine Keeps.cutO x ?_ ?_; (unfold x; clear x); rotate_left; (clear_value x; revert x; intro _ h)) | (revert x; intro _))
    | with_reducible refine Keeps.foldl _ (fun _ _ h => ?_) ?_
    | with_reducible refine Keeps.forRange _ (fun _ _ h => ?_) ?_
    | with_reducible exact Keeps.refl _ _
    | with_reducible assumption
    | split
    | (with_reducible apply Keeps.step (Dev.rejectDesc_keeps ..); · decide)
    | (with_reducible apply Keeps.step (Dev.freePages_keeps ..); · decide)
    | (with_reducible apply Keeps.step (Dev.takeBrick_keeps ..); · decide)
    | (with_reducible apply Keeps.step (Dev.verdict_keeps ..); · decide)
    | (with_reducible apply KeepsO.step (Dev.beginEntry_keeps ..); · decide)
    | (with_reducible apply KeepsO.step (Dev.endEntry_keeps ..); · decide)
    | (with_reducible apply KeepsO.step (Dev.abortEntry_keeps ..); · decide)
    | with_reducible refine KeepsO.some ?_
    | with_reducible exact KeepsO.none _ _
    | with_reducible refine Keeps.ofOpt (by assumption) ?_
    | with_reducible refine KeepsO.getD ?_ ?_
    | with_reducible refine Keeps.pairR (by assumption) ?_
    | with_reducible refine Keeps.pairL (by assumption) ?_
    | with_reducible refine Keeps.pair3 (by assumption) ?_
    | (refine ⟨fun p hp => ?_, ?_, ?_⟩; rotate_left; (first | exact fun hr => hr | exact h.regs); (first | exact fun _ => Grows.refl _ | exact h.adds); cases p <;> first | exact absurd (by decide) hp | apply Eq.refl | apply h.same _ hp)
    | intro _
    | (dsimp only))

theorem Dev.updStream_keeps (d : Dev) (a1 : Nat) (a2 : Nat) (a3 : FedStream → FedStream) : Keeps [.lnk] d (Dev.updStream d a1 a2 a3) := by
  unfold Dev.updStream
  repeat' (first
    | with_reducible exact Keeps.refl _ _
    | (refine ⟨fun p hp => ?_, fun hr => hr, fun _ => Grows.refl _⟩; cases p <;> first | exact absurd (by decide) hp | apply Eq.refl))

theorem Dev.runStream_keeps (d : Dev) (a1 : Mem) (a2 : Nat) (a3 : Nat) (a4 : Nat) : Keeps [.cnt, .merge, .out, .freeCount, .hst, .lnk, .crs, .msn, .pth, .lsr, .log] d (Dev.runStream d a1 a2 a3 a4) := by
  induction a4 generalizing d with
  | zero => unfold Dev.runStream; exact Keeps.refl _ _
  | succ k ih =>
    unfold Dev.runStream
    repeat' (first
      | (extract_lets +onlyGivenNames x; first | (refine Keeps.cut x ?_ ?_; (unfold x; clear x); rotate_left; (clear_value x; revert x; intro _ h)) | (revert x; intro _))
      | with_reducible refine Keeps.foldl _ (fun _ _ h => ?_) ?_
      | with_reducible refine Keeps.forRange _ (fun _ _ h => ?_) ?_
      | with_reducible exact Keeps.refl _ _
      | with_reducible assumption
      | split
      | (with_reducible apply KeepsO.step (Dev.fedFront_keeps ..); · decide)
      | (with_reducible apply Keeps.step (Dev.updStream_keeps ..); · decide)
      | with_reducible refine Keeps.step (ih ..) (by decide) ?_
      | with_reducible refine Keeps.ofOpt (by assumption) ?_
      | with_reducible refine KeepsO.getD ?_ ?_
      | with_reducible refine Keeps.pairR (by assumption) ?_
      | with_reducible refine Keeps.pairL (by assumption) ?_
      | with_reducible refine Keeps.pair3 (by assumption) ?_
      | (refine ⟨fun p hp => ?_, ?_, ?_⟩; rotate_left; (first | exact fun hr => hr | exact h.regs); (first | exact fun _ => Grows.refl _ | exact h.adds); cases p <;> first | exact absurd (by decide) hp | apply Eq.refl | apply h.same _ hp)
      | intro _
      | (dsimp only))

theorem Dev.runStreamAll_keeps (d : Dev) (a1 : Mem) (a2 : Nat) (a3 : Nat) : Keeps [.cnt, .merge, .out, .freeCount, .hst, .lnk, .crs, .msn, .pth, .lsr, .log] d (Dev.runStreamAll d a1 a2 a3) := by
  unfold Dev.runStreamAll
  repeat' (first
    | with_reducible exact Keeps.refl _ _
    | split
    | (with_reducible apply Keeps.step (Dev.runStream_keeps ..); · decide))

theorem Dev.sendLinkctl_keeps (d : Dev) (a1 : Nat) (a2 : Nat) : Keeps [.out, .lnk] d (Dev.sendLinkctl d a1 a2) := by
  unfold Dev.sendLinkctl
  repeat' (first
    | with_reducible exact Keeps.refl _ _
    | (with_reducible apply Keeps.step (Dev.putLinkctl_keeps ..); · decide)
    | (refine ⟨fun p hp => ?_, fun hr => hr, fun _ => Grows.refl _⟩; cases p <;> first | exact absurd (by decide) hp | apply Eq.refl))

theorem Dev.freeSlot_keeps (d : Dev) (a1 : Option Nat) (a2 : Nat) : Keeps [.out, .lnk] d (Dev.freeSlot d a1 a2) := by
  unfold Dev.freeSlot
  repeat' (first
    | with_reducible exact Keeps.refl _ _
    | split
    | (with_reducible apply Keeps.step (Dev.updVl_keeps ..); · decide)
    | (with_reducible apply Keeps.step (Dev.sendLinkctl_keeps ..); · decide))

theorem Dev.joinStream_keeps (d : Dev) (a1 : Frame) (a2 : Option Nat) : Keeps [.cnt, .merge, .out, .lnk, .log] d (Dev.joinStream d a1 a2) := by
  unfold Dev.joinStream
  repeat' (first
    | (extract_lets +onlyGivenNames x; first | (refine Keeps.cut x ?_ ?_; (unfold x; clear x); rotate_left; (clear_value x; revert x; intro _ h)) | (revert x; intro _))
    | with_reducible exact Keeps.refl _ _
    | with_reducible assumption
    | split
    | (with_reducible apply Keeps.step (Dev.raise_keeps ..); · decide)
    | (with_reducible apply Keeps.step (Dev.sendResult_keeps ..); · decide)
    | (with_reducible apply Keeps.step (Dev.updStream_keeps ..); · decide)
    | (with_reducible apply Keeps.step (Dev.freeSlot_keeps ..); · decide)
    | (refine ⟨fun p hp => ?_, ?_, ?_⟩; rotate_left; (first | exact fun hr => hr | exact h.regs); (first | exact fun _ => Grows.refl _ | exact h.adds); cases p <;> first | exact absurd (by decide) hp | apply Eq.refl | apply h.same _ hp))

theorem Dev.ctrlEntry_keeps (d : Dev) (a1 : Mem) : Keeps [.cnt, .merge, .out, .freeCount, .hst, .lnk, .crs, .msn, .pth, .lsr, .log] d (Dev.ctrlEntry d a1) := by
  unfold Dev.ctrlEntry
  repeat' (first
    | (extract_lets +onlyGivenNames x; first | (refine Keeps.cut x ?_ ?_; (unfold x; clear x); rotate_left; (clear_value x; revert x; intro _ h)) | (revert x; intro _))
    | with_reducible refine Keeps.foldl _ (fun _ _ h => ?_) ?_
    | with_reducible refine Keeps.forRange _ (fun _ _ h => ?_) ?_
    | with_reducible exact Keeps.refl _ _
    | with_reducible assumption
    | split
    | (with_reducible apply KeepsO.step (Dev.takeArrived_keeps ..); · decide)
    | (with_reducible apply Keeps.step (Dev.runStreamAll_keeps ..); · decide)
    | (with_reducible apply Keeps.step (Dev.freeSlot_keeps ..); · decide)
    | (with_reducible apply Keeps.step (Dev.joinStream_keeps ..); · decide)
    | with_reducible refine Keeps.ofOpt3 (by assumption) ?_
    | with_reducible refine Keeps.pairR (by assumption) ?_
    | with_reducible refine Keeps.pairL (by assumption) ?_
    | with_reducible refine Keeps.pair3 (by assumption) ?_
    | (refine ⟨fun p hp => ?_, ?_, ?_⟩; rotate_left; (first | exact fun hr => hr | exact h.regs); (first | exact fun _ => Grows.refl _ | exact h.adds); cases p <;> first | exact absurd (by decide) hp | apply Eq.refl | apply h.same _ hp)
    | intro _
    | (dsimp only))

theorem Dev.fedAnswer_keeps (d : Dev) (a1 : Frame) (a2 : Nat) (a3 : Nat) (a4 : Stamp) (a5 : List W64) : Keeps [.cnt, .merge, .out, .hst, .lnk, .crs, .log] d (Dev.fedAnswer d a1 a2 a3 a4 a5) := by
  unfold Dev.fedAnswer
  repeat' (first
    | (extract_lets +onlyGivenNames x; first | (refine Keeps.cut x ?_ ?_; (unfold x; clear x); rotate_left; (clear_value x; revert x; intro _ h)) | (revert x; intro _))
    | with_reducible exact Keeps.refl _ _
    | with_reducible assumption
    | split
    | (with_reducible apply Keeps.step (Dev.bump_keeps ..); · decide)
    | (with_reducible apply Keeps.step (Dev.passOn_keeps ..); · decide)
    | (with_reducible apply Keeps.step (Dev.updRing_keeps ..); · decide)
    | (with_reducible apply Keeps.step (Dev.raise_keeps ..); · decide)
    | (with_reducible apply Keeps.step (Dev.deliver_keeps ..); · decide)
    | (with_reducible apply Keeps.step (Dev.fedRemove_keeps ..); · decide))

theorem Dev.remnantFrame_keeps (d : Dev) : Keeps [.cnt, .merge, .out, .hst, .lnk, .crs, .log] d (Dev.remnantFrame d) := by
  unfold Dev.remnantFrame
  repeat' (first
    | (extract_lets +onlyGivenNames x; first | (refine Keeps.cut x ?_ ?_; (unfold x; clear x); rotate_left; (clear_value x; revert x; intro _ h)) | (revert x; intro _))
    | with_reducible refine Keeps.foldl _ (fun _ _ h => ?_) ?_
    | with_reducible refine Keeps.forRange _ (fun _ _ h => ?_) ?_
    | with_reducible exact Keeps.refl _ _
    | with_reducible assumption
    | split
    | (with_reducible apply KeepsO.step (Dev.takeArrived_keeps ..); · decide)
    | (with_reducible apply Keeps.step (Dev.freeSlot_keeps ..); · decide)
    | (with_reducible apply Keeps.step (Dev.fedAnswer_keeps ..); · decide)
    | with_reducible refine Keeps.ofOpt3 (by assumption) ?_
    | with_reducible refine Keeps.pairR (by assumption) ?_
    | with_reducible refine Keeps.pairL (by assumption) ?_
    | with_reducible refine Keeps.pair3 (by assumption) ?_
    | (refine ⟨fun p hp => ?_, ?_, ?_⟩; rotate_left; (first | exact fun hr => hr | exact h.regs); (first | exact fun _ => Grows.refl _ | exact h.adds); cases p <;> first | exact absurd (by decide) hp | apply Eq.refl | apply h.same _ hp)
    | intro _
    | (dsimp only))

theorem Dev.fedPump_keeps (d : Dev) (a1 : Nat) (a2 : Nat) : Keeps [.cnt, .merge, .out, .hst, .lnk, .crs, .log] d (Dev.fedPump d a1 a2) := by
  induction a2 generalizing d with
  | zero => unfold Dev.fedPump; exact Keeps.refl _ _
  | succ k ih =>
    unfold Dev.fedPump
    repeat' (first
      | (extract_lets +onlyGivenNames x; first | (refine Keeps.cut x ?_ ?_; (unfold x; clear x); rotate_left; (clear_value x; revert x; intro _ h)) | (revert x; intro _))
      | with_reducible refine Keeps.foldl _ (fun _ _ h => ?_) ?_
      | with_reducible refine Keeps.forRange _ (fun _ _ h => ?_) ?_
      | with_reducible exact Keeps.refl _ _
      | with_reducible assumption
      | split
      | (with_reducible apply Keeps.step (Dev.fedSend_keeps ..); · decide)
      | with_reducible refine Keeps.step (ih ..) (by decide) ?_
      | with_reducible refine Keeps.pairR (by assumption) ?_
      | with_reducible refine Keeps.pairL (by assumption) ?_
      | with_reducible refine Keeps.pair3 (by assumption) ?_
      | (refine ⟨fun p hp => ?_, ?_, ?_⟩; rotate_left; (first | exact fun hr => hr | exact h.regs); (first | exact fun _ => Grows.refl _ | exact h.adds); cases p <;> first | exact absurd (by decide) hp | apply Eq.refl | apply h.same _ hp)
      | intro _
      | (dsimp only))

theorem Dev.waitResume_keeps (d : Dev) (a1 : Mem) (a2 : Nat) : Keeps [.cnt, .merge, .out, .freeCount, .hst, .lnk, .crs, .msn, .pth, .lsr, .log] d (Dev.waitResume d a1 a2) := by
  unfold Dev.waitResume
  repeat' (first
    | (extract_lets +onlyGivenNames x; first | (refine Keeps.cut x ?_ ?_; (unfold x; clear x); rotate_left; (clear_value x; revert x; intro _ h)) | (revert x; intro _))
    | with_reducible refine Keeps.foldl _ (fun _ _ h => ?_) ?_
    | with_reducible refine Keeps.forRange _ (fun _ _ h => ?_) ?_
    | with_reducible exact Keeps.refl _ _
    | with_reducible assumption
    | split
    | (with_reducible apply KeepsO.step (Dev.beginEntry_keeps ..); · decide)
    | (with_reducible apply Keeps.step (Dev.runStreamAll_keeps ..); · decide)
    | (with_reducible apply Keeps.step (Dev.brickEntry_keeps ..); · decide)
    | with_reducible refine Dev.courseOp_keeps (by decide) (fun _ _ h => ?_) ?_
    | with_reducible refine Keeps.ofOpt (by assumption) ?_
    | with_reducible refine KeepsO.getD ?_ ?_
    | with_reducible refine Keeps.pairR (by assumption) ?_
    | with_reducible refine Keeps.pairL (by assumption) ?_
    | with_reducible refine Keeps.pair3 (by assumption) ?_
    | (refine ⟨fun p hp => ?_, ?_, ?_⟩; rotate_left; (first | exact fun hr => hr | exact h.regs); (first | exact fun _ => Grows.refl _ | exact h.adds); cases p <;> first | exact absurd (by decide) hp | apply Eq.refl | apply h.same _ hp)
    | intro _
    | (dsimp only))

theorem Dev.fedRead_keeps (d : Dev) (a1 : Mem) (a2 : Nat) (a3 : HostRead) : Keeps [.cnt, .merge, .out, .hst, .lnk, .crs, .log] d (Dev.fedRead d a1 a2 a3).2 := by
  unfold Dev.fedRead
  repeat' (first
    | (extract_lets +onlyGivenNames x; first | (refine Keeps.cut x ?_ ?_; (unfold x; clear x); rotate_left; (clear_value x; revert x; intro _ h)) | (revert x; intro _))
    | with_reducible refine Keeps.foldl _ (fun _ _ h => ?_) ?_
    | with_reducible refine Keeps.forRange _ (fun _ _ h => ?_) ?_
    | with_reducible exact Keeps.refl _ _
    | with_reducible assumption
    | split
    | (with_reducible apply Keeps.step (Dev.fedRemove_keeps ..); · decide)
    | (with_reducible apply Keeps.step (Dev.bodyFetchErr_keeps ..); · decide)
    | (with_reducible apply Keeps.step (Dev.fedSend_keeps ..); · decide)
    | (with_reducible apply Keeps.step (Dev.fedPump_keeps ..); · decide)
    | with_reducible refine Keeps.forRangeR _ (fun _ _ h => ?_) ?_
    | with_reducible refine Keeps.foldlR _ (fun _ _ h => ?_) ?_
    | with_reducible refine Keeps.iteR ?_ ?_
    | with_reducible refine Keeps.pairR (by assumption) ?_
    | with_reducible refine Keeps.pairL (by assumption) ?_
    | with_reducible refine Keeps.pair3 (by assumption) ?_
    | (refine ⟨fun p hp => ?_, ?_, ?_⟩; rotate_left; (first | exact fun hr => hr | exact h.regs); (first | exact fun _ => Grows.refl _ | exact h.adds); cases p <;> first | exact absurd (by decide) hp | apply Eq.refl | apply h.same _ hp)
    | intro _
    | (dsimp only))

theorem Dev.fedStaging_keeps (d : Dev) (a1 : Mem) (a2 : Nat) (a3 : Nat) : Keeps [.cnt, .merge, .out, .freeCount, .hst, .lnk, .crs, .msn, .pth, .lsr, .log] d (Dev.fedStaging d a1 a2 a3).2 := by
  unfold Dev.fedStaging
  repeat' (first
    | (extract_lets +onlyGivenNames x; first | (refine Keeps.cut x ?_ ?_; (unfold x; clear x); rotate_left; (clear_value x; revert x; intro _ h)) | (revert x; intro _))
    | with_reducible refine Keeps.foldl _ (fun _ _ h => ?_) ?_
    | with_reducible refine Keeps.forRange _ (fun _ _ h => ?_) ?_
    | with_reducible exact Keeps.refl _ _
    | with_reducible assumption
    | split
    | (with_reducible apply Keeps.step (Dev.updStream_keeps ..); · decide)
    | (with_reducible apply Keeps.step (Dev.runStreamAll_keeps ..); · decide)
    | (with_reducible apply Keeps.step (Dev.freeSlot_keeps ..); · decide)
    | with_reducible refine Keeps.forRangeR _ (fun _ _ h => ?_) ?_
    | with_reducible refine Keeps.foldlR _ (fun _ _ h => ?_) ?_
    | with_reducible refine Keeps.iteR ?_ ?_
    | with_reducible refine Keeps.pairR (by assumption) ?_
    | with_reducible refine Keeps.pairL (by assumption) ?_
    | with_reducible refine Keeps.pair3 (by assumption) ?_
    | (refine ⟨fun p hp => ?_, ?_, ?_⟩; rotate_left; (first | exact fun hr => hr | exact h.regs); (first | exact fun _ => Grows.refl _ | exact h.adds); cases p <;> first | exact absurd (by decide) hp | apply Eq.refl | apply h.same _ hp)
    | intro _
    | (dsimp only)
    | with_reducible refine Keeps.step (keeps_crs ..) (by decide) ?_)

theorem Dev.fedDone_keeps (d : Dev) : Keeps [.cnt, .merge, .out, .hst, .lnk, .crs, .log] d (Dev.fedDone d) := by
  unfold Dev.fedDone
  repeat' (first
    | (extract_lets +onlyGivenNames x; first | (refine Keeps.cut x ?_ ?_; (unfold x; clear x); rotate_left; (clear_value x; revert x; intro _ h)) | (revert x; intro _))
    | with_reducible refine Keeps.foldl _ (fun _ _ h => ?_) ?_
    | with_reducible refine Keeps.forRange _ (fun _ _ h => ?_) ?_
    | with_reducible exact Keeps.refl _ _
    | with_reducible assumption
    | split
    | (with_reducible apply KeepsO.step (Dev.takeArrived_keeps ..); · decide)
    | (with_reducible apply Keeps.step (Dev.freeSlot_keeps ..); · decide)
    | (with_reducible apply Keeps.step (Dev.fedAnswer_keeps ..); · decide)
    | with_reducible refine Keeps.ofOpt3 (by assumption) ?_
    | with_reducible refine Keeps.pairR (by assumption) ?_
    | with_reducible refine Keeps.pairL (by assumption) ?_
    | with_reducible refine Keeps.pair3 (by assumption) ?_
    | (refine ⟨fun p hp => ?_, ?_, ?_⟩; rotate_left; (first | exact fun hr => hr | exact h.regs); (first | exact fun _ => Grows.refl _ | exact h.adds); cases p <;> first | exact absurd (by decide) hp | apply Eq.refl | apply h.same _ hp)
    | intro _
    | (dsimp only))

theorem Dev.foreignEvent_keeps (d : Dev) : Keeps [.cnt, .out, .hst, .lnk] d (Dev.foreignEvent d) := by
  unfold Dev.foreignEvent
  repeat' (first
    | (extract_lets +onlyGivenNames x; first | (refine Keeps.cut x ?_ ?_; (unfold x; clear x); rotate_left; (clear_value x; revert x; intro _ h)) | (revert x; intro _))
    | with_reducible refine Keeps.foldl _ (fun _ _ h => ?_) ?_
    | with_reducible refine Keeps.forRange _ (fun _ _ h => ?_) ?_
    | with_reducible exact Keeps.refl _ _
    | with_reducible assumption
    | split
    | (with_reducible apply Keeps.step (Dev.deliver_keeps ..); · decide)
    | (with_reducible apply KeepsO.step (Dev.takeArrived_keeps ..); · decide)
    | (with_reducible apply Keeps.step (Dev.freeSlot_keeps ..); · decide)
    | with_reducible refine Keeps.ofOpt3 (by assumption) ?_
    | with_reducible refine Keeps.pairR (by assumption) ?_
    | with_reducible refine Keeps.pairL (by assumption) ?_
    | with_reducible refine Keeps.pair3 (by assumption) ?_
    | (refine ⟨fun p hp => ?_, ?_, ?_⟩; rotate_left; (first | exact fun hr => hr | exact h.regs); (first | exact fun _ => Grows.refl _ | exact h.adds); cases p <;> first | exact absurd (by decide) hp | apply Eq.refl | apply h.same _ hp)
    | intro _
    | (dsimp only))

theorem Dev.brickFrame_keeps (d : Dev) : Keeps [.cnt, .merge, .out, .lnk, .log] d (Dev.brickFrame d) := by
  unfold Dev.brickFrame
  repeat' (first
    | (extract_lets +onlyGivenNames x; first | (refine Keeps.cut x ?_ ?_; (unfold x; clear x); rotate_left; (clear_value x; revert x; intro _ h)) | (revert x; intro _))
    | with_reducible refine Keeps.foldl _ (fun _ _ h => ?_) ?_
    | with_reducible refine Keeps.forRange _ (fun _ _ h => ?_) ?_
    | with_reducible exact Keeps.refl _ _
    | with_reducible assumption
    | split
    | (with_reducible apply KeepsO.step (Dev.takeArrived_keeps ..); · decide)
    | (with_reducible apply Keeps.step (Dev.joinStream_keeps ..); · decide)
    | with_reducible refine Keeps.ofOpt3 (by assumption) ?_
    | with_reducible refine Keeps.pairR (by assumption) ?_
    | with_reducible refine Keeps.pairL (by assumption) ?_
    | with_reducible refine Keeps.pair3 (by assumption) ?_
    | (refine ⟨fun p hp => ?_, ?_, ?_⟩; rotate_left; (first | exact fun hr => hr | exact h.regs); (first | exact fun _ => Grows.refl _ | exact h.adds); cases p <;> first | exact absurd (by decide) hp | apply Eq.refl | apply h.same _ hp)
    | intro _
    | (dsimp only))

theorem Dev.feedTimeout_keeps (d : Dev) (a1 : Nat) : Keeps [.merge, .hst, .lnk, .crs, .log] d (Dev.feedTimeout d a1) := by
  unfold Dev.feedTimeout
  repeat' (first
    | (extract_lets +onlyGivenNames x; first | (refine Keeps.cut x ?_ ?_; (unfold x; clear x); rotate_left; (clear_value x; revert x; intro _ h)) | (revert x; intro _))
    | with_reducible exact Keeps.refl _ _
    | with_reducible assumption
    | split
    | (with_reducible apply Keeps.step (Dev.feedLost_keeps ..); · decide))

theorem Dev.closeStream_keeps (d : Dev) (a1 : Nat) (a2 : Nat) : Keeps [.lnk] d (Dev.closeStream d a1 a2) := by
  unfold Dev.closeStream
  repeat' (first
    | (extract_lets +onlyGivenNames x; first | (refine Keeps.cut x ?_ ?_; (unfold x; clear x); rotate_left; (clear_value x; revert x; intro _ h)) | (revert x; intro _))
    | with_reducible exact Keeps.refl _ _
    | with_reducible assumption
    | split
    | (refine ⟨fun p hp => ?_, ?_, ?_⟩; rotate_left; (first | exact fun hr => hr | exact h.regs); (first | exact fun _ => Grows.refl _ | exact h.adds); cases p <;> first | exact absurd (by decide) hp | apply Eq.refl | apply h.same _ hp))

/-! ## Mpm -/

theorem Dev.writeMpm_keeps (d : Dev) (a1 : RegDef) (a2 : W64) (a3 : Nat) (a4 : Nat) : Keeps [.rw, .shadow, .w1c] d (Dev.writeMpm d a1 a2 a3 a4) := by
  unfold Dev.writeMpm
  repeat' (first
    | with_reducible exact Keeps.refl _ _
    | (with_reducible apply Keeps.step (Dev.storeIf_keeps ..); · decide)
    | (refine ⟨fun p hp => ?_, fun hr => hr, fun _ => Grows.refl _⟩; cases p <;> first | exact absurd (by decide) hp | apply Eq.refl))

theorem Dev.updMpm_keeps (d : Dev) (a1 : Nat) (a2 : MpmChan → MpmChan) : Keeps [.mpm] d (Dev.updMpm d a1 a2) := by
  unfold Dev.updMpm
  repeat' (first
    | with_reducible exact Keeps.refl _ _
    | (refine ⟨fun p hp => ?_, fun hr => hr, fun _ => Grows.refl _⟩; cases p <;> first | exact absurd (by decide) hp | apply Eq.refl))

theorem Dev.mpmEvent_keeps (d : Dev) (a1 : Nat) (a2 : Nat) (a3 : Nat) : Keeps [.merge, .log] d (Dev.mpmEvent d a1 a2 a3) := by
  unfold Dev.mpmEvent
  repeat' (first
    | with_reducible exact Keeps.refl _ _
    | (with_reducible apply Keeps.step (Dev.raise_keeps ..); · decide)
    | (refine ⟨fun p hp => ?_, fun hr => hr, fun _ => Grows.refl _⟩; cases p <;> first | exact absurd (by decide) hp | apply Eq.refl))

theorem Dev.brTrip_keeps (d : Dev) (a1 : Nat) : Keeps [.cnt, .merge, .lsr, .mpm, .log] d (Dev.brTrip d a1) := by
  unfold Dev.brTrip
  repeat' (first
    | (extract_lets +onlyGivenNames x; first | (refine Keeps.cut x ?_ ?_; (unfold x; clear x); rotate_left; (clear_value x; revert x; intro _ h)) | (revert x; intro _))
    | with_reducible exact Keeps.refl _ _
    | with_reducible assumption
    | split
    | (with_reducible apply Keeps.step (Dev.bump_keeps ..); · decide)
    | (with_reducible apply Keeps.step (Dev.causeFrom_keeps ..); · decide)
    | (with_reducible apply Keeps.step (Dev.updMpm_keeps ..); · decide)
    | (with_reducible apply Keeps.step (Dev.mpmEvent_keeps ..); · decide))

theorem Dev.mpmVector_keeps (d : Dev) (a1 : Nat) (a2 : Sample) : Keeps [.cnt, .merge, .mpm, .log] d (Dev.mpmVector d a1 a2) := by
  unfold Dev.mpmVector
  repeat' (first
    | (extract_lets +onlyGivenNames x; first | (refine Keeps.cut x ?_ ?_; (unfold x; clear x); rotate_left; (clear_value x; revert x; intro _ h)) | (revert x; intro _))
    | with_reducible exact Keeps.refl _ _
    | with_reducible assumption
    | split
    | (with_reducible apply Keeps.step (Dev.bump_keeps ..); · decide)
    | (with_reducible apply Keeps.step (Dev.updMpm_keeps ..); · decide)
    | (with_reducible apply Keeps.step (Dev.mpmEvent_keeps ..); · decide))

theorem Dev.satTrip_keeps (d : Dev) (a1 : Nat) : Keeps [.merge, .mpm, .log] d (Dev.satTrip d a1) := by
  unfold Dev.satTrip
  repeat' (first
    | (extract_lets +onlyGivenNames x; first | (refine Keeps.cut x ?_ ?_; (unfold x; clear x); rotate_left; (clear_value x; revert x; intro _ h)) | (revert x; intro _))
    | with_reducible exact Keeps.refl _ _
    | with_reducible assumption
    | split
    | (with_reducible apply Keeps.step (Dev.updMpm_keeps ..); · decide)
    | (with_reducible apply Keeps.step (Dev.mpmEvent_keeps ..); · decide))

theorem Dev.lowTrip_keeps (d : Dev) (a1 : Nat) : Keeps [.merge, .lsr, .mpm, .log] d (Dev.lowTrip d a1) := by
  unfold Dev.lowTrip
  repeat' (first
    | (extract_lets +onlyGivenNames x; first | (refine Keeps.cut x ?_ ?_; (unfold x; clear x); rotate_left; (clear_value x; revert x; intro _ h)) | (revert x; intro _))
    | with_reducible exact Keeps.refl _ _
    | with_reducible assumption
    | split
    | (with_reducible apply Keeps.step (Dev.causeFrom_keeps ..); · decide)
    | (with_reducible apply Keeps.step (Dev.updMpm_keeps ..); · decide)
    | (with_reducible apply Keeps.step (Dev.mpmEvent_keeps ..); · decide))

theorem Dev.closeTrace_keeps (d : Dev) (a1 : Nat) : Keeps [.cnt, .merge, .mpm] d (Dev.closeTrace d a1) := by
  unfold Dev.closeTrace
  repeat' (first
    | with_reducible exact Keeps.refl _ _
    | split
    | (with_reducible apply Keeps.step (Dev.bump_keeps ..); · decide)
    | (with_reducible apply Keeps.step (Dev.updMpm_keeps ..); · decide)
    | (with_reducible apply Keeps.step (Dev.recordAt_keeps ..); · decide))

theorem Dev.coverBeat_keeps (d : Dev) (a1 : Nat) (a2 : Applied) (a3 : Meas) : Keeps [.cnt, .merge, .mpm] d (Dev.coverBeat d a1 a2 a3) := by
  unfold Dev.coverBeat
  repeat' (first
    | (extract_lets +onlyGivenNames x; first | (refine Keeps.cut x ?_ ?_; (unfold x; clear x); rotate_left; (clear_value x; revert x; intro _ h)) | (revert x; intro _))
    | with_reducible refine Keeps.foldl _ (fun _ _ h => ?_) ?_
    | with_reducible refine Keeps.forRange _ (fun _ _ h => ?_) ?_
    | with_reducible exact Keeps.refl _ _
    | with_reducible assumption
    | split
    | (with_reducible apply Keeps.step (Dev.updMpm_keeps ..); · decide)
    | (with_reducible apply Keeps.step (Dev.closeTrace_keeps ..); · decide)
    | with_reducible refine Keeps.pairR (by assumption) ?_
    | with_reducible refine Keeps.pairL (by assumption) ?_
    | with_reducible refine Keeps.pair3 (by assumption) ?_
    | (refine ⟨fun p hp => ?_, ?_, ?_⟩; rotate_left; (first | exact fun hr => hr | exact h.regs); (first | exact fun _ => Grows.refl _ | exact h.adds); cases p <;> first | exact absurd (by decide) hp | apply Eq.refl | apply h.same _ hp)
    | intro _
    | (dsimp only))

theorem Dev.stepTrace_keeps (d : Dev) (a1 : Nat) (a2 : Applied) (a3 : Meas) (a4 : Sample) : Keeps [.cnt, .merge, .mpm] d (Dev.stepTrace d a1 a2 a3 a4) := by
  unfold Dev.stepTrace
  repeat' (first
    | (extract_lets +onlyGivenNames x; first | (refine Keeps.cut x ?_ ?_; (unfold x; clear x); rotate_left; (clear_value x; revert x; intro _ h)) | (revert x; intro _))
    | with_reducible exact Keeps.refl _ _
    | with_reducible assumption
    | split
    | (with_reducible apply Keeps.step (Dev.closeTrace_keeps ..); · decide)
    | (with_reducible apply Keeps.step (Dev.coverBeat_keeps ..); · decide))

theorem Dev.mpmApply_keeps (d : Dev) (a1 : Nat) (a2 : Sample) (a3 : Nat) : Keeps [.cnt, .mpm] d (Dev.mpmApply d a1 a2 a3).2 := by
  unfold Dev.mpmApply
  repeat' (first
    | (extract_lets +onlyGivenNames x; first | (refine Keeps.cut x ?_ ?_; (unfold x; clear x); rotate_left; (clear_value x; revert x; intro _ h)) | (revert x; intro _))
    | with_reducible refine Keeps.foldl _ (fun _ _ h => ?_) ?_
    | with_reducible refine Keeps.forRange _ (fun _ _ h => ?_) ?_
    | with_reducible exact Keeps.refl _ _
    | with_reducible assumption
    | split
    | (with_reducible apply Keeps.step (Dev.bump_keeps ..); · decide)
    | (with_reducible apply Keeps.step (Dev.updMpm_keeps ..); · decide)
    | with_reducible refine Keeps.forRangeR _ (fun _ _ h => ?_) ?_
    | with_reducible refine Keeps.foldlR _ (fun _ _ h => ?_) ?_
    | with_reducible refine Keeps.iteR ?_ ?_
    | with_reducible refine Keeps.pairR (by assumption) ?_
    | with_reducible refine Keeps.pairL (by assumption) ?_
    | with_reducible refine Keeps.pair3 (by assumption) ?_
    | (refine ⟨fun p hp => ?_, ?_, ?_⟩; rotate_left; (first | exact fun hr => hr | exact h.regs); (first | exact fun _ => Grows.refl _ | exact h.adds); cases p <;> first | exact absurd (by decide) hp | apply Eq.refl | apply h.same _ hp)
    | intro _
    | (dsimp only))

theorem Dev.dacUpdate_keeps (d : Dev) (a1 : Nat) : Keeps [.cnt, .merge, .freeCount, .lsr, .mpm, .log] d (Dev.dacUpdate d a1) := by
  unfold Dev.dacUpdate
  repeat' (first
    | (extract_lets +onlyGivenNames x; first | (refine Keeps.cut x ?_ ?_; (unfold x; clear x); rotate_left; (clear_value x; revert x; intro _ h)) | (revert x; intro _))
    | with_reducible refine Keeps.foldl _ (fun _ _ h => ?_) ?_
    | with_reducible refine Keeps.forRange _ (fun _ _ h => ?_) ?_
    | with_reducible exact Keeps.refl _ _
    | with_reducible assumption
    | split
    | (with_reducible apply Keeps.step (Dev.bump_keeps ..); · decide)
    | (with_reducible apply Keeps.step (Dev.free_keeps ..); · decide)
    | (with_reducible apply Keeps.step (Dev.updChan_keeps ..); · decide)
    | (with_reducible apply Keeps.step (Dev.updMpm_keeps ..); · decide)
    | (with_reducible apply Keeps.step (Dev.mpmVector_keeps ..); · decide)
    | (with_reducible apply Keeps.step (Dev.stepTrace_keeps ..); · decide)
    | (with_reducible apply Keeps.step (Dev.mpmApply_keeps ..); · decide)
    | with_reducible refine Keeps.pairR (by assumption) ?_
    | with_reducible refine Keeps.pairL (by assumption) ?_
    | with_reducible refine Keeps.pair3 (by assumption) ?_
    | (refine ⟨fun p hp => ?_, ?_, ?_⟩; rotate_left; (first | exact fun hr => hr | exact h.regs); (first | exact fun _ => Grows.refl _ | exact h.adds); cases p <;> first | exact absurd (by decide) hp | apply Eq.refl | apply h.same _ hp)
    | intro _
    | (dsimp only))

theorem Dev.countLow_keeps (d : Dev) (a1 : Nat) : Keeps [.mpm] d (Dev.countLow d a1) := by
  unfold Dev.countLow
  repeat' (first
    | (extract_lets +onlyGivenNames x; first | (refine Keeps.cut x ?_ ?_; (unfold x; clear x); rotate_left; (clear_value x; revert x; intro _ h)) | (revert x; intro _))
    | with_reducible refine Keeps.foldl _ (fun _ _ h => ?_) ?_
    | with_reducible refine Keeps.forRange _ (fun _ _ h => ?_) ?_
    | with_reducible exact Keeps.refl _ _
    | with_reducible assumption
    | split
    | (with_reducible apply Keeps.step (Dev.updMpm_keeps ..); · decide)
    | with_reducible refine Keeps.pairR (by assumption) ?_
    | with_reducible refine Keeps.pairL (by assumption) ?_
    | with_reducible refine Keeps.pair3 (by assumption) ?_
    | (refine ⟨fun p hp => ?_, ?_, ?_⟩; rotate_left; (first | exact fun hr => hr | exact h.regs); (first | exact fun _ => Grows.refl _ | exact h.adds); cases p <;> first | exact absurd (by decide) hp | apply Eq.refl | apply h.same _ hp)
    | intro _
    | (dsimp only))

theorem Dev.mpmSample_keeps (d : Dev) (a1 : Nat) (a2 : Bool) (a3 : Nat) (a4 : Nat) (a5 : Bool) : Keeps [.w1c, .cnt, .merge, .mpm, .log] d (Dev.mpmSample d a1 a2 a3 a4 a5) := by
  unfold Dev.mpmSample
  repeat' (first
    | (extract_lets +onlyGivenNames x; first | (refine Keeps.cut x ?_ ?_; (unfold x; clear x); rotate_left; (clear_value x; revert x; intro _ h)) | (revert x; intro _))
    | with_reducible refine Keeps.foldl _ (fun _ _ h => ?_) ?_
    | with_reducible refine Keeps.forRange _ (fun _ _ h => ?_) ?_
    | with_reducible exact Keeps.refl _ _
    | with_reducible assumption
    | split
    | (with_reducible apply Keeps.step (Dev.bump_keeps ..); · decide)
    | (with_reducible apply Keeps.step (Dev.orFlag_keeps ..); · decide)
    | (with_reducible apply Keeps.step (Dev.updMpm_keeps ..); · decide)
    | (with_reducible apply Keeps.step (Dev.mpmEvent_keeps ..); · decide)
    | (with_reducible apply Keeps.step (Dev.countLow_keeps ..); · decide)
    | with_reducible refine Keeps.pairR (by assumption) ?_
    | with_reducible refine Keeps.pairL (by assumption) ?_
    | with_reducible refine Keeps.pair3 (by assumption) ?_
    | (refine ⟨fun p hp => ?_, ?_, ?_⟩; rotate_left; (first | exact fun hr => hr | exact h.regs); (first | exact fun _ => Grows.refl _ | exact h.adds); cases p <;> first | exact absurd (by decide) hp | apply Eq.refl | apply h.same _ hp)
    | intro _
    | (dsimp only))

end Sys2Proof.Machine
end

