-- ==== Sys2Proof/Laws/KeepsAct.lean ====
section
/-!
SUPPORT. Frames of the laser channels, servos, heat, axes and links: one lemma per function that answers a
device, saying which parts it may change.
-/
namespace Sys2Proof.Machine
set_option linter.all false

/-! ## Lnk -/

theorem Dev.writeBlCfg_keeps (d : Dev) (a1 : Nat) (a2 : W64) : Keeps [.rw, .shadow, .w1c] d (Dev.writeBlCfg d a1 a2) := by
  unfold Dev.writeBlCfg
  repeat' (first
    | (extract_lets +onlyGivenNames x; first | (refine Keeps.cut x ?_ ?_; (unfold x; clear x); rotate_left; (clear_value x; revert x; intro _ h)) | (revert x; intro _))
    | with_reducible refine Keeps.foldl _ (fun _ _ h => ?_) ?_
    | with_reducible refine Keeps.forRange _ (fun _ _ h => ?_) ?_
    | with_reducible exact Keeps.refl _ _
    | with_reducible assumption
    | split
    | (with_reducible apply Keeps.step (Dev.refuse_keeps ..); · decide)
    | (with_reducible apply Keeps.step (Dev.store_keeps ..); · decide)
    | (with_reducible apply Keeps.step (Dev.blState_keeps ..); · decide)
    | (with_reducible apply Keeps.step (Dev.updLane_keeps ..); · decide)
    | (with_reducible apply Keeps.step (Dev.blDown_keeps ..); · decide)
    | (refine ⟨fun p hp => ?_, ?_, ?_⟩; rotate_left; (first | exact fun hr => hr | exact h.regs); (first | exact fun _ => Grows.refl _ | exact h.adds); cases p <;> first | exact absurd (by decide) hp | apply Eq.refl | apply h.same _ hp))

theorem Dev.updLane_keeps (d : Dev) (a1 : Nat) (a2 : LaneState → LaneState) : Keeps [.lnk] d (Dev.updLane d a1 a2) := by
  unfold Dev.updLane
  repeat' (first
    | with_reducible exact Keeps.refl _ _
    | (refine ⟨fun p hp => ?_, fun hr => hr, fun _ => Grows.refl _⟩; cases p <;> first | exact absurd (by decide) hp | apply Eq.refl))

theorem Dev.writeLaneTest_keeps (d : Dev) (a1 : Source) (a2 : Nat) (a3 : W64) : Keeps [.rw, .shadow, .w1c, .lnk] d (Dev.writeLaneTest d a1 a2 a3) := by
  unfold Dev.writeLaneTest
  repeat' (first
    | (extract_lets +onlyGivenNames x; first | (refine Keeps.cut x ?_ ?_; (unfold x; clear x); rotate_left; (clear_value x; revert x; intro _ h)) | (revert x; intro _))
    | with_reducible exact Keeps.refl _ _
    | with_reducible assumption
    | split
    | (with_reducible apply Keeps.step (Dev.refuse_keeps ..); · decide)
    | (with_reducible apply Keeps.step (Dev.store_keeps ..); · decide)
    | (with_reducible apply Keeps.step (Dev.updLane_keeps ..); · decide))

theorem Dev.writeEthCfg_keeps (d : Dev) (a1 : Nat) (a2 : W64) : Keeps [.rw, .shadow, .w1c] d (Dev.writeEthCfg d a1 a2) := by
  unfold Dev.writeEthCfg
  repeat' (first
    | (extract_lets +onlyGivenNames x; first | (refine Keeps.cut x ?_ ?_; (unfold x; clear x); rotate_left; (clear_value x; revert x; intro _ h)) | (revert x; intro _))
    | with_reducible exact Keeps.refl _ _
    | with_reducible assumption
    | split
    | (with_reducible apply Keeps.step (Dev.refuse_keeps ..); · decide)
    | (with_reducible apply Keeps.step (Dev.store_keeps ..); · decide)
    | (with_reducible apply Keeps.step (Dev.ethLink_keeps ..); · decide))

theorem Dev.writeLnk_keeps (d : Dev) (a1 : Source) (a2 : RegDef) (a3 : W64) (a4 : Nat) (a5 : Nat) : Keeps [.rw, .shadow, .w1c, .lnk] d (Dev.writeLnk d a1 a2 a3 a4 a5) := by
  unfold Dev.writeLnk
  repeat' (first
    | with_reducible exact Keeps.refl _ _
    | split
    | (with_reducible apply Keeps.step (Dev.storeIf_keeps ..); · decide)
    | (with_reducible apply Keeps.step (Dev.settleRoot_keeps ..); · decide)
    | (with_reducible apply Keeps.step (Dev.writeBlCfg_keeps ..); · decide)
    | (with_reducible apply Keeps.step (Dev.writeLaneTest_keeps ..); · decide)
    | (with_reducible apply Keeps.step (Dev.writeEthCfg_keeps ..); · decide))

theorem Dev.settleRoot_keeps (d : Dev) : Keeps [.merge, .lnk, .tmb, .log] d (Dev.settleRoot d) := by
  unfold Dev.settleRoot
  repeat' (first
    | (extract_lets +onlyGivenNames x; first | (refine Keeps.cut x ?_ ?_; (unfold x; clear x); rotate_left; (clear_value x; revert x; intro _ h)) | (revert x; intro _))
    | with_reducible exact Keeps.refl _ _
    | with_reducible assumption
    | split
    | (with_reducible apply Keeps.step (Dev.raise_keeps ..); · decide)
    | (with_reducible apply Keeps.step (Dev.sourceLost_keeps ..); · decide)
    | (refine ⟨fun p hp => ?_, ?_, ?_⟩; rotate_left; (first | exact fun hr => hr | exact h.regs); (first | exact fun _ => Grows.refl _ | exact h.adds); cases p <;> first | exact absurd (by decide) hp | apply Eq.refl | apply h.same _ hp))

theorem Dev.blState_keeps (d : Dev) (a1 : Nat) (a2 : BlState) : Keeps [.lnk] d (Dev.blState d a1 a2) := by
  unfold Dev.blState
  repeat' (first
    | with_reducible exact Keeps.refl _ _
    | (with_reducible apply Keeps.step (Dev.updBl_keeps ..); · decide)
    | (refine ⟨fun p hp => ?_, fun hr => hr, fun _ => Grows.refl _⟩; cases p <;> first | exact absurd (by decide) hp | apply Eq.refl))

theorem Dev.blDrop_keeps (d : Dev) (a1 : Nat) : Keeps [.cnt, .merge, .hst, .lnk, .crs, .log] d (Dev.blDrop d a1) := by
  unfold Dev.blDrop
  repeat' (first
    | (extract_lets +onlyGivenNames x; first | (refine Keeps.cut x ?_ ?_; (unfold x; clear x); rotate_left; (clear_value x; revert x; intro _ h)) | (revert x; intro _))
    | with_reducible refine Keeps.foldl _ (fun _ _ h => ?_) ?_
    | with_reducible refine Keeps.forRange _ (fun _ _ h => ?_) ?_
    | with_reducible exact Keeps.refl _ _
    | with_reducible assumption
    | split
    | (with_reducible apply Keeps.step (Dev.bump_keeps ..); · decide)
    | (with_reducible apply Keeps.step (Dev.updBl_keeps ..); · decide)
    | (with_reducible apply Keeps.step (Dev.framePagesFree_keeps ..); · decide)
    | (with_reducible apply Keeps.step (Dev.lineClear_keeps ..); · decide)
    | (with_reducible apply Keeps.step (Dev.feedLost_keeps ..); · decide)
    | (refine ⟨fun p hp => ?_, ?_, ?_⟩; rotate_left; (first | exact fun hr => hr | exact h.regs); (first | exact fun _ => Grows.refl _ | exact h.adds); cases p <;> first | exact absurd (by decide) hp | apply Eq.refl | apply h.same _ hp))

theorem Dev.blDown_keeps (d : Dev) (a1 : Nat) (a2 : Nat) (a3 : BlState) : Keeps [.cnt, .merge, .hst, .lnk, .crs, .tmb, .log] d (Dev.blDown d a1 a2 a3) := by
  unfold Dev.blDown
  repeat' (first
    | with_reducible exact Keeps.refl _ _
    | (with_reducible apply Keeps.step (Dev.raise_keeps ..); · decide)
    | (with_reducible apply Keeps.step (Dev.blState_keeps ..); · decide)
    | (with_reducible apply Keeps.step (Dev.settleRoot_keeps ..); · decide)
    | (with_reducible apply Keeps.step (Dev.blDrop_keeps ..); · decide)
    | (refine ⟨fun p hp => ?_, fun hr => hr, fun _ => Grows.refl _⟩; cases p <;> first | exact absurd (by decide) hp | apply Eq.refl))

theorem Dev.blEdge_keeps (d : Dev) (a1 : Nat) : Keeps [.cnt, .merge, .hst, .lnk, .crs, .tmb, .log] d (Dev.blEdge d a1) := by
  unfold Dev.blEdge
  repeat' (first
    | (extract_lets +onlyGivenNames x; first | (refine Keeps.cut x ?_ ?_; (unfold x; clear x); rotate_left; (clear_value x; revert x; intro _ h)) | (revert x; intro _))
    | with_reducible refine Keeps.foldl _ (fun _ _ h => ?_) ?_
    | with_reducible refine Keeps.forRange _ (fun _ _ h => ?_) ?_
    | with_reducible exact Keeps.refl _ _
    | with_reducible assumption
    | split
    | (with_reducible apply Keeps.step (Dev.updLane_keeps ..); · decide)
    | (with_reducible apply Keeps.step (Dev.lineStart_keeps ..); · decide)
    | (with_reducible apply Keeps.step (Dev.blState_keeps ..); · decide)
    | (with_reducible apply Keeps.step (Dev.blDown_keeps ..); · decide)
    | with_reducible refine Keeps.pairR (by assumption) ?_
    | with_reducible refine Keeps.pairL (by assumption) ?_
    | with_reducible refine Keeps.pair3 (by assumption) ?_
    | (refine ⟨fun p hp => ?_, ?_, ?_⟩; rotate_left; (first | exact fun hr => hr | exact h.regs); (first | exact fun _ => Grows.refl _ | exact h.adds); cases p <;> first | exact absurd (by decide) hp | apply Eq.refl | apply h.same _ hp)
    | intro _
    | (dsimp only))

theorem Dev.ethLink_keeps (d : Dev) (a1 : Nat) (a2 : Bool) : Keeps [.merge, .lnk, .log] d (Dev.ethLink d a1 a2) := by
  unfold Dev.ethLink
  repeat' (first
    | with_reducible exact Keeps.refl _ _
    | split
    | (with_reducible apply Keeps.step (Dev.raise_keeps ..); · decide)
    | (with_reducible apply Keeps.step (Dev.updLane_keeps ..); · decide)
    | (refine ⟨fun p hp => ?_, fun hr => hr, fun _ => Grows.refl _⟩; cases p <;> first | exact absurd (by decide) hp | apply Eq.refl))

theorem Dev.ethEdge_keeps (d : Dev) (a1 : Nat) : Keeps [.merge, .lnk, .log] d (Dev.ethEdge d a1) := by
  unfold Dev.ethEdge
  repeat' (first
    | (extract_lets +onlyGivenNames x; first | (refine Keeps.cut x ?_ ?_; (unfold x; clear x); rotate_left; (clear_value x; revert x; intro _ h)) | (revert x; intro _))
    | with_reducible refine Keeps.foldl _ (fun _ _ h => ?_) ?_
    | with_reducible refine Keeps.forRange _ (fun _ _ h => ?_) ?_
    | with_reducible exact Keeps.refl _ _
    | with_reducible assumption
    | split
    | (with_reducible apply Keeps.step (Dev.ethLink_keeps ..); · decide)
    | with_reducible refine Keeps.pairR (by assumption) ?_
    | with_reducible refine Keeps.pairL (by assumption) ?_
    | with_reducible refine Keeps.pair3 (by assumption) ?_
    | (refine ⟨fun p hp => ?_, ?_, ?_⟩; rotate_left; (first | exact fun hr => hr | exact h.regs); (first | exact fun _ => Grows.refl _ | exact h.adds); cases p <;> first | exact absurd (by decide) hp | apply Eq.refl | apply h.same _ hp)
    | intro _
    | (dsimp only))

theorem Dev.lnkEdge_keeps (a0 : RegFile) (d : Dev) : Keeps [.cnt, .merge, .hst, .lnk, .crs, .tmb, .log] d (Dev.lnkEdge a0 d) := by
  unfold Dev.lnkEdge
  repeat' (first
    | (extract_lets +onlyGivenNames x; first | (refine Keeps.cut x ?_ ?_; (unfold x; clear x); rotate_left; (clear_value x; revert x; intro _ h)) | (revert x; intro _))
    | with_reducible refine Keeps.foldl _ (fun _ _ h => ?_) ?_
    | with_reducible refine Keeps.forRange _ (fun _ _ h => ?_) ?_
    | with_reducible exact Keeps.refl _ _
    | with_reducible assumption
    | split
    | (with_reducible apply Keeps.step (Dev.settleRoot_keeps ..); · decide)
    | (with_reducible apply Keeps.step (Dev.blEdge_keeps ..); · decide)
    | (with_reducible apply Keeps.step (Dev.ethEdge_keeps ..); · decide)
    | with_reducible refine Keeps.pairR (by assumption) ?_
    | with_reducible refine Keeps.pairL (by assumption) ?_
    | with_reducible refine Keeps.pair3 (by assumption) ?_
    | (refine ⟨fun p hp => ?_, ?_, ?_⟩; rotate_left; (first | exact fun hr => hr | exact h.regs); (first | exact fun _ => Grows.refl _ | exact h.adds); cases p <;> first | exact absurd (by decide) hp | apply Eq.refl | apply h.same _ hp)
    | intro _
    | (dsimp only))

theorem Dev.blComesUp_keeps (d : Dev) (a1 : Nat) : Keeps [.merge, .lnk, .log] d (Dev.blComesUp d a1) := by
  unfold Dev.blComesUp
  repeat' (first
    | with_reducible exact Keeps.refl _ _
    | (with_reducible apply Keeps.step (Dev.raise_keeps ..); · decide)
    | (with_reducible apply Keeps.step (Dev.updBl_keeps ..); · decide)
    | (with_reducible apply Keeps.step (Dev.blState_keeps ..); · decide)
    | (with_reducible apply Keeps.step (Dev.lineClear_keeps ..); · decide)
    | (refine ⟨fun p hp => ?_, fun hr => hr, fun _ => Grows.refl _⟩; cases p <;> first | exact absurd (by decide) hp | apply Eq.refl))

theorem Dev.blHello_keeps (d : Dev) (a1 : Nat) (a2 : W64) : Keeps [.cnt, .merge, .hst, .lnk, .crs, .tmb, .log] d (Dev.blHello d a1 a2) := by
  unfold Dev.blHello
  repeat' (first
    | (extract_lets +onlyGivenNames x; first | (refine Keeps.cut x ?_ ?_; (unfold x; clear x); rotate_left; (clear_value x; revert x; intro _ h)) | (revert x; intro _))
    | with_reducible exact Keeps.refl _ _
    | with_reducible assumption
    | split
    | (with_reducible apply Keeps.step (Dev.raise_keeps ..); · decide)
    | (with_reducible apply Keeps.step (Dev.updBl_keeps ..); · decide)
    | (with_reducible apply Keeps.step (Dev.blState_keeps ..); · decide)
    | (with_reducible apply Keeps.step (Dev.settleRoot_keeps ..); · decide)
    | (with_reducible apply Keeps.step (Dev.blDrop_keeps ..); · decide)
    | (with_reducible apply Keeps.step (Dev.blComesUp_keeps ..); · decide))

theorem Dev.timeSend_keeps (d : Dev) (a1 : Nat) (a2 : Int) : Keeps [.cnt, .out, .lnk] d (Dev.timeSend d a1 a2) := by
  unfold Dev.timeSend
  repeat' (first
    | with_reducible exact Keeps.refl _ _
    | split
    | (with_reducible apply Keeps.step (Dev.bump_keeps ..); · decide)
    | (with_reducible apply Keeps.step (Dev.updBl_keeps ..); · decide)
    | (with_reducible apply Keeps.step (Dev.putFrame_keeps ..); · decide))

theorem Dev.linkctlVl_keeps (d : Dev) (a1 : Nat) (a2 : Nat) (a3 : Nat) (a4 : Nat) (a5 : Bool) : Keeps [.cnt, .out, .lnk, .crs] d (Dev.linkctlVl d a1 a2 a3 a4 a5).1 := by
  unfold Dev.linkctlVl
  repeat' (first
    | (extract_lets +onlyGivenNames x; first | (refine Keeps.cut x ?_ ?_; (unfold x; clear x); rotate_left; (clear_value x; revert x; intro _ h)) | (revert x; intro _))
    | with_reducible refine Keeps.foldl _ (fun _ _ h => ?_) ?_
    | with_reducible refine Keeps.forRange _ (fun _ _ h => ?_) ?_
    | with_reducible exact Keeps.refl _ _
    | with_reducible assumption
    | split
    | (with_reducible apply Keeps.step (Dev.bump_keeps ..); · decide)
    | (with_reducible apply Keeps.step (Dev.updVl_keeps ..); · decide)
    | (with_reducible apply Keeps.step (Dev.putFrame_keeps ..); · decide)
    | (with_reducible apply Keeps.step (Dev.framePagesFree_keeps ..); · decide)
    | with_reducible refine Keeps.iteL ?_ ?_
    | with_reducible refine Keeps.pairR (by assumption) ?_
    | with_reducible refine Keeps.pairL (by assumption) ?_
    | with_reducible refine Keeps.pair3 (by assumption) ?_
    | (refine ⟨fun p hp => ?_, ?_, ?_⟩; rotate_left; (first | exact fun hr => hr | exact h.regs); (first | exact fun _ => Grows.refl _ | exact h.adds); cases p <;> first | exact absurd (by decide) hp | apply Eq.refl | apply h.same _ hp)
    | intro _
    | (dsimp only))

theorem Dev.putHello_keeps (d : Dev) (a1 : Nat) (a2 : List W64) : Keeps [.out, .lnk] d (Dev.putHello d a1 a2) := by
  unfold Dev.putHello
  repeat' (first
    | (extract_lets +onlyGivenNames x; first | (refine Keeps.cut x ?_ ?_; (unfold x; clear x); rotate_left; (clear_value x; revert x; intro _ h)) | (revert x; intro _))
    | with_reducible refine Keeps.foldl _ (fun _ _ h => ?_) ?_
    | with_reducible refine Keeps.forRange _ (fun _ _ h => ?_) ?_
    | with_reducible exact Keeps.refl _ _
    | with_reducible assumption
    | split
    | (with_reducible apply Keeps.step (Dev.emit_keeps ..); · decide)
    | (with_reducible apply Keeps.step (Dev.updLine_keeps ..); · decide)
    | with_reducible refine Keeps.pairR (by assumption) ?_
    | with_reducible refine Keeps.pairL (by assumption) ?_
    | with_reducible refine Keeps.pair3 (by assumption) ?_
    | (refine ⟨fun p hp => ?_, ?_, ?_⟩; rotate_left; (first | exact fun hr => hr | exact h.regs); (first | exact fun _ => Grows.refl _ | exact h.adds); cases p <;> first | exact absurd (by decide) hp | apply Eq.refl | apply h.same _ hp)
    | intro _
    | (dsimp only))

theorem Dev.blHelloSend_keeps (d : Dev) (a1 : Nat) : Keeps [.out, .lnk] d (Dev.blHelloSend d a1) := by
  unfold Dev.blHelloSend
  repeat' (first
    | (extract_lets +onlyGivenNames x; first | (refine Keeps.cut x ?_ ?_; (unfold x; clear x); rotate_left; (clear_value x; revert x; intro _ h)) | (refine Keeps.hold (x : RegFile) ?_; revert x; intro _) | (refine Keeps.hold (x : Stream) ?_; revert x; intro _) | (refine Keeps.hold (x : Mgt) ?_; revert x; intro _) | (clear_value x; revert x; intro _))
    | with_reducible refine Keeps.foldl _ (fun _ _ h => ?_) ?_
    | with_reducible refine Keeps.forRange _ (fun _ _ h => ?_) ?_
    | with_reducible exact Keeps.refl _ _
    | with_reducible assumption
    | split
    | (with_reducible apply Keeps.step (Dev.updBl_keeps ..); · decide)
    | (with_reducible apply Keeps.step (Dev.putHello_keeps ..); · decide)
    | with_reducible refine Keeps.pairR (by assumption) ?_
    | with_reducible refine Keeps.pairL (by assumption) ?_
    | with_reducible refine Keeps.pair3 (by assumption) ?_
    | (refine ⟨fun p hp => ?_, ?_, ?_⟩; rotate_left; (first | exact fun hr => hr | exact h.regs); (first | exact fun _ => Grows.refl _ | exact h.adds); cases p <;> first | exact absurd (by decide) hp | apply Eq.refl | apply h.same _ hp)
    | intro _
    | (dsimp only))

theorem Dev.timeReceive_keeps (d : Dev) (a1 : Nat) (a2 : List W64) (a3 : Int) (a4 : Bool) : Keeps [.cnt, .merge, .lnk, .tmb, .log] d (Dev.timeReceive d a1 a2 a3 a4) := by
  unfold Dev.timeReceive
  repeat' (first
    | (extract_lets +onlyGivenNames x; first | (refine Keeps.cut x ?_ ?_; (unfold x; clear x); rotate_left; (clear_value x; revert x; intro _ h)) | (revert x; intro _))
    | with_reducible exact Keeps.refl _ _
    | with_reducible assumption
    | split
    | (with_reducible apply Keeps.step (Dev.raise_keeps ..); · decide)
    | (with_reducible apply Keeps.step (Dev.updBl_keeps ..); · decide)
    | (with_reducible apply Keeps.step (Dev.settleRoot_keeps ..); · decide)
    | (with_reducible apply Keeps.step (Dev.measure_keeps ..); · decide))

theorem Dev.checkerCount_keeps (d : Dev) (a1 : Nat) (a2 : Nat) (a3 : Nat) : Keeps [.lnk] d (Dev.checkerCount d a1 a2 a3) := by
  unfold Dev.checkerCount
  repeat' (first
    | with_reducible exact Keeps.refl _ _
    | (with_reducible apply Keeps.step (Dev.updLane_keeps ..); · decide)
    | (refine ⟨fun p hp => ?_, fun hr => hr, fun _ => Grows.refl _⟩; cases p <;> first | exact absurd (by decide) hp | apply Eq.refl))

theorem Dev.blLinkLoss_keeps (d : Dev) (a1 : Nat) (a2 : Nat) : Keeps [.cnt, .merge, .hst, .lnk, .crs, .tmb, .log] d (Dev.blLinkLoss d a1 a2) := by
  unfold Dev.blLinkLoss
  repeat' (first
    | (extract_lets +onlyGivenNames x; first | (refine Keeps.cut x ?_ ?_; (unfold x; clear x); rotate_left; (clear_value x; revert x; intro _ h)) | (revert x; intro _))
    | with_reducible refine Keeps.foldl _ (fun _ _ h => ?_) ?_
    | with_reducible refine Keeps.forRange _ (fun _ _ h => ?_) ?_
    | with_reducible exact Keeps.refl _ _
    | with_reducible assumption
    | split
    | (with_reducible apply Keeps.step (Dev.bump_keeps ..); · decide)
    | (with_reducible apply Keeps.step (Dev.updLane_keeps ..); · decide)
    | (with_reducible apply Keeps.step (Dev.blDown_keeps ..); · decide)
    | (refine ⟨fun p hp => ?_, ?_, ?_⟩; rotate_left; (first | exact fun hr => hr | exact h.regs); (first | exact fun _ => Grows.refl _ | exact h.adds); cases p <;> first | exact absurd (by decide) hp | apply Eq.refl | apply h.same _ hp))

theorem Dev.blFrame_keeps (d : Dev) (a1 : Nat) (a2 : Frame) (a3 : Bool) : Keeps [.cnt, .merge, .out, .lnk, .log] d (Dev.blFrame d a1 a2 a3) := by
  unfold Dev.blFrame
  repeat' (first
    | (extract_lets +onlyGivenNames x; first | (refine Keeps.cut x ?_ ?_; (unfold x; clear x); rotate_left; (clear_value x; revert x; intro _ h)) | (revert x; intro _))
    | with_reducible exact Keeps.refl _ _
    | with_reducible assumption
    | split
    | (with_reducible apply Keeps.step (Dev.bump_keeps ..); · decide)
    | (with_reducible apply Keeps.step (Dev.updVl_keeps ..); · decide)
    | (with_reducible apply Keeps.step (Dev.routeFrame_keeps ..); · decide)
    | (with_reducible apply Keeps.step (Dev.sendLinkctl_keeps ..); · decide))

theorem Dev.blPairs_keeps (d : Dev) (a1 : Nat) (a2 : List (LaneBlock × LaneBlock)) (a3 : Int) : Keeps [.cnt, .merge, .out, .lnk, .log] d (Dev.blPairs d a1 a2 a3) := by
  unfold Dev.blPairs
  repeat' (first
    | (extract_lets +onlyGivenNames x; first | (refine Keeps.cut x ?_ ?_; (unfold x; clear x); rotate_left; (clear_value x; revert x; intro _ h)) | (revert x; intro _))
    | with_reducible refine Keeps.foldl _ (fun _ _ h => ?_) ?_
    | with_reducible refine Keeps.forRange _ (fun _ _ h => ?_) ?_
    | with_reducible exact Keeps.refl _ _
    | with_reducible assumption
    | split
    | (with_reducible apply Keeps.step (Dev.bump_keeps ..); · decide)
    | (with_reducible apply Keeps.step (Dev.updLine_keeps ..); · decide)
    | (with_reducible apply Keeps.step (Dev.blFrame_keeps ..); · decide)
    | with_reducible refine Keeps.pairR (by assumption) ?_
    | with_reducible refine Keeps.pairL (by assumption) ?_
    | with_reducible refine Keeps.pair3 (by assumption) ?_
    | (refine ⟨fun p hp => ?_, ?_, ?_⟩; rotate_left; (first | exact fun hr => hr | exact h.regs); (first | exact fun _ => Grows.refl _ | exact h.adds); cases p <;> first | exact absurd (by decide) hp | apply Eq.refl | apply h.same _ hp)
    | intro _
    | (dsimp only))

theorem Dev.blLinkctl_keeps (d : Dev) (a1 : Nat) (a2 : W64) : Keeps [.cnt, .merge, .out, .hst, .lnk, .crs, .tmb, .log] d (Dev.blLinkctl d a1 a2) := by
  unfold Dev.blLinkctl
  repeat' (first
    | (extract_lets +onlyGivenNames x; first | (refine Keeps.cut x ?_ ?_; (unfold x; clear x); rotate_left; (clear_value x; revert x; intro _ h)) | (revert x; intro _))
    | with_reducible refine Keeps.foldl _ (fun _ _ h => ?_) ?_
    | with_reducible refine Keeps.forRange _ (fun _ _ h => ?_) ?_
    | with_reducible exact Keeps.refl _ _
    | with_reducible assumption
    | split
    | (with_reducible apply Keeps.step (Dev.raise_keeps ..); · decide)
    | (with_reducible apply Keeps.step (Dev.pumpPort_keeps ..); · decide)
    | (with_reducible apply Keeps.step (Dev.pumpExports_keeps ..); · decide)
    | (with_reducible apply Keeps.step (Dev.blDown_keeps ..); · decide)
    | (with_reducible apply Keeps.step (Dev.linkctlVl_keeps ..); · decide)
    | with_reducible refine Keeps.pairR (by assumption) ?_
    | with_reducible refine Keeps.pairL (by assumption) ?_
    | with_reducible refine Keeps.pair3 (by assumption) ?_
    | (refine ⟨fun p hp => ?_, ?_, ?_⟩; rotate_left; (first | exact fun hr => hr | exact h.regs); (first | exact fun _ => Grows.refl _ | exact h.adds); cases p <;> first | exact absurd (by decide) hp | apply Eq.refl | apply h.same _ hp)
    | intro _
    | (dsimp only))

theorem Dev.blLaneLock_keeps (d : Dev) (a1 : Nat) : Keeps [.lnk] d (Dev.blLaneLock d a1) := by
  unfold Dev.blLaneLock
  repeat' (first
    | (extract_lets +onlyGivenNames x; first | (refine Keeps.cut x ?_ ?_; (unfold x; clear x); rotate_left; (clear_value x; revert x; intro _ h)) | (revert x; intro _))
    | with_reducible refine Keeps.foldl _ (fun _ _ h => ?_) ?_
    | with_reducible refine Keeps.forRange _ (fun _ _ h => ?_) ?_
    | with_reducible exact Keeps.refl _ _
    | with_reducible assumption
    | split
    | (with_reducible apply Keeps.step (Dev.blState_keeps ..); · decide)
    | (with_reducible apply Keeps.step (Dev.updLane_keeps ..); · decide)
    | with_reducible refine Keeps.pairR (by assumption) ?_
    | with_reducible refine Keeps.pairL (by assumption) ?_
    | with_reducible refine Keeps.pair3 (by assumption) ?_
    | (refine ⟨fun p hp => ?_, ?_, ?_⟩; rotate_left; (first | exact fun hr => hr | exact h.regs); (first | exact fun _ => Grows.refl _ | exact h.adds); cases p <;> first | exact absurd (by decide) hp | apply Eq.refl | apply h.same _ hp)
    | intro _
    | (dsimp only))

/-! ## CalWatch -/

theorem Dev.calRelease_keeps (d : Dev) : Keeps [.mpm, .cal] d (Dev.calRelease d) := by
  unfold Dev.calRelease
  repeat' (first
    | with_reducible exact Keeps.refl _ _
    | (refine ⟨fun p hp => ?_, fun hr => hr, fun _ => Grows.refl _⟩; cases p <;> first | exact absurd (by decide) hp | apply Eq.refl))

theorem Dev.calAbort_keeps (d : Dev) : Keeps [.merge, .hst, .mpm, .cal, .log] d (Dev.calAbort d) := by
  unfold Dev.calAbort
  repeat' (first
    | with_reducible exact Keeps.refl _ _
    | split
    | (with_reducible apply Keeps.step (Dev.complete_keeps ..); · decide)
    | (with_reducible apply Keeps.step (Dev.raise_keeps ..); · decide)
    | (with_reducible apply Keeps.step (Dev.calRelease_keeps ..); · decide))

theorem Dev.calWatch_keeps (d : Dev) : Keeps [.merge, .hst, .mpm, .cal, .log] d (Dev.calWatch d) := by
  unfold Dev.calWatch
  repeat' (first
    | with_reducible exact Keeps.refl _ _
    | split
    | (with_reducible apply Keeps.step (Dev.calAbort_keeps ..); · decide))

theorem Dev.calGuard_keeps {w : List Part} {d0 d x : Dev} {blk : Nat} (hs : [Part.w1c].all (fun p => w.contains p) = true)
    (h : Keeps w d0 d) (hx : Keeps w d0 x) : Keeps w d0 (d.calGuard blk x) := by
  unfold Dev.calGuard
  split
  · exact Keeps.step (v := [.w1c]) (Keeps.step (Dev.refuseBlock_keeps ..) (by decide) (Keeps.refl _ _)) hs h
  · exact hx

/-! ## Thm -/

theorem Dev.updSens_keeps (d : Dev) (a1 : Nat) (a2 : Sensor → Sensor) : Keeps [.thm] d (Dev.updSens d a1 a2) := by
  unfold Dev.updSens
  repeat' (first
    | with_reducible exact Keeps.refl _ _
    | (refine ⟨fun p hp => ?_, fun hr => hr, fun _ => Grows.refl _⟩; cases p <;> first | exact absurd (by decide) hp | apply Eq.refl))

theorem Dev.writeSensCfg_keeps (d : Dev) (a1 : Nat) (a2 : W64) : Keeps [.rw, .shadow, .w1c, .thm] d (Dev.writeSensCfg d a1 a2) := by
  unfold Dev.writeSensCfg
  repeat' (first
    | (extract_lets +onlyGivenNames x; first | (refine Keeps.cut x ?_ ?_; (unfold x; clear x); rotate_left; (clear_value x; revert x; intro _ h)) | (revert x; intro _))
    | with_reducible exact Keeps.refl _ _
    | with_reducible assumption
    | split
    | (with_reducible apply Keeps.step (Dev.refuse_keeps ..); · decide)
    | (with_reducible apply Keeps.step (Dev.store_keeps ..); · decide)
    | (with_reducible apply Keeps.step (Dev.updSens_keeps ..); · decide))

theorem Dev.writeThm_keeps (d : Dev) (a1 : RegDef) (a2 : W64) (a3 : Nat) (a4 : Nat) : Keeps [.rw, .shadow, .w1c, .thm] d (Dev.writeThm d a1 a2 a3 a4) := by
  unfold Dev.writeThm
  repeat' (first
    | with_reducible exact Keeps.refl _ _
    | split
    | (with_reducible apply Keeps.step (Dev.storeIf_keeps ..); · decide)
    | (with_reducible apply Keeps.step (Dev.writeSensCfg_keeps ..); · decide))

theorem Dev.settleThermal_keeps (d : Dev) : Keeps [.merge, .freeCount, .hst, .msn, .lsr, .mpm, .thm, .cal, .log] d (Dev.settleThermal d) := by
  unfold Dev.settleThermal
  repeat' (first
    | (extract_lets +onlyGivenNames x; first | (refine Keeps.cut x ?_ ?_; (unfold x; clear x); rotate_left; (clear_value x; revert x; intro _ h)) | (revert x; intro _))
    | with_reducible refine Keeps.foldl _ (fun _ _ h => ?_) ?_
    | with_reducible refine Keeps.forRange _ (fun _ _ h => ?_) ?_
    | with_reducible exact Keeps.refl _ _
    | with_reducible assumption
    | split
    | (with_reducible apply Keeps.step (Dev.holdChan_keeps ..); · decide)
    | (with_reducible apply Keeps.step (Dev.settleHold_keeps ..); · decide)
    | (with_reducible apply Keeps.step (Dev.calWatch_keeps ..); · decide)
    | (with_reducible apply Keeps.step (Dev.releaseChan_keeps ..); · decide)
    | (refine ⟨fun p hp => ?_, ?_, ?_⟩; rotate_left; (first | exact fun hr => hr | exact h.regs); (first | exact fun _ => Grows.refl _ | exact h.adds); cases p <;> first | exact absurd (by decide) hp | apply Eq.refl | apply h.same _ hp))

theorem Dev.flushLog_keeps (d : Dev) : Keeps [.merge, .taken, .log] d (Dev.flushLog d) := by
  have h : Keeps [.merge, .taken, .log] d ((d.ev.merge.filter (·.isEvent)).foldl (fun (d : Dev) x => d.logEvent x) d) :=
    Keeps.foldl _ (fun _ _ h => Keeps.step (Dev.logEvent_keeps ..) (by decide) h) (Keeps.refl _ _)
  unfold Dev.flushLog
  refine ⟨fun p hp => ?_, h.regs, fun hn => absurd (by decide) hn⟩
  cases p <;> first | exact absurd (by decide) hp | exact h.same _ hp

theorem Dev.sensorTemp_keeps (d : Dev) (a1 : Nat) (a2 : Option Int) : Keeps [.freeCount] d (Dev.sensorTemp d a1 a2).2 := by
  unfold Dev.sensorTemp
  repeat' (first
    | (extract_lets +onlyGivenNames x; first | (refine Keeps.cut x ?_ ?_; (unfold x; clear x); rotate_left; (clear_value x; revert x; intro _ h)) | (revert x; intro _))
    | with_reducible refine Keeps.foldl _ (fun _ _ h => ?_) ?_
    | with_reducible refine Keeps.forRange _ (fun _ _ h => ?_) ?_
    | with_reducible exact Keeps.refl _ _
    | with_reducible assumption
    | split
    | (with_reducible apply Keeps.step (Dev.free_keeps ..); · decide)
    | with_reducible refine Keeps.forRangeR _ (fun _ _ h => ?_) ?_
    | with_reducible refine Keeps.foldlR _ (fun _ _ h => ?_) ?_
    | with_reducible refine Keeps.iteR ?_ ?_
    | with_reducible refine Keeps.pairR (by assumption) ?_
    | with_reducible refine Keeps.pairL (by assumption) ?_
    | with_reducible refine Keeps.pair3 (by assumption) ?_
    | (refine ⟨fun p hp => ?_, ?_, ?_⟩; rotate_left; (first | exact fun hr => hr | exact h.regs); (first | exact fun _ => Grows.refl _ | exact h.adds); cases p <;> first | exact absurd (by decide) hp | apply Eq.refl | apply h.same _ hp)
    | intro _
    | (dsimp only))

theorem Dev.mainLost_keeps (d : Dev) : Keeps [.rw, .rwAct, .shadow, .shadowAt, .effect, .srvNext, .w1c, .cnt, .rol, .rolBeat, .merge, .taken, .hst, .lnk, .crs, .msn, .pth, .lsr, .mpm, .srv, .safe, .cam, .cdc, .dma, .memc, .tmb, .axs, .lgt, .thm, .cal, .pwr, .log, .exporting] d (Dev.mainLost d) := by
  have h0 := Dev.flushLog_keeps d
  refine ⟨fun p hp => ?_, fun hr => ?_, fun hn => absurd (by decide) hn⟩
  · unfold Dev.mainLost
    cases p <;> first | exact absurd (by decide) hp | exact h0.same .out (by decide) | exact h0.same .freeCount (by decide) | exact h0.same .latches (by decide) | exact h0.same .replies (by decide) | exact h0.same .slots (by decide) | exact h0.same .boot (by decide) | exact h0.same .act (by decide) | exact h0.same .settings (by decide) | exact h0.same .resetReq (by decide)
  have h := h0.regs hr
  show RegFile.wf (let g := d.flushLog.regs
    { rw := standbyFields g.rw, rwAct := standbyFields g.rwAct, w1c := standbyFields g.w1c, cnt := standbyFields g.cnt,
      rol := standbyFields g.rol }) = true
  simp only [RegFile.wf, Bool.and_eq_true] at h ⊢
  simp [standbyFields, h, keysRise_filter, keysRise]

theorem Dev.thmEvent_keeps (d : Dev) (a1 : Nat) (a2 : Nat) (a3 : Nat) (a4 : Nat) : Keeps [.merge, .log] d (Dev.thmEvent d a1 a2 a3 a4) := by
  unfold Dev.thmEvent
  repeat' (first
    | with_reducible exact Keeps.refl _ _
    | (with_reducible apply Keeps.step (Dev.raise_keeps ..); · decide)
    | (refine ⟨fun p hp => ?_, fun hr => hr, fun _ => Grows.refl _⟩; cases p <;> first | exact absurd (by decide) hp | apply Eq.refl))

theorem Dev.thermShutdown_keeps (d : Dev) (a1 : Nat) : Keeps [.rw, .rwAct, .shadow, .shadowAt, .effect, .srvNext, .w1c, .cnt, .rol, .rolBeat, .merge, .taken, .hst, .lnk, .crs, .msn, .pth, .lsr, .mpm, .srv, .safe, .cam, .cdc, .dma, .memc, .tmb, .axs, .lgt, .thm, .cal, .pwr, .log, .exporting] d (Dev.thermShutdown d a1) := by
  unfold Dev.thermShutdown
  dsimp only
  refine Keeps.step (keeps_thm _ _) (by decide) (Keeps.step (Dev.mainLost_keeps _) (by decide) ?_)
  refine Keeps.step (Dev.thmEvent_keeps ..) (by decide) ?_
  repeat' (first
    | with_reducible exact Keeps.refl _ _
    | (with_reducible apply Keeps.step (Dev.calAbort_keeps ..); · decide)
    | split)

theorem Dev.enforce_keeps (d : Dev) (a1 : Nat) : Keeps [.merge, .thm, .log] d (Dev.enforce d a1) := by
  unfold Dev.enforce
  repeat' (first
    | with_reducible exact Keeps.refl _ _
    | (with_reducible apply Keeps.step (Dev.updSens_keeps ..); · decide)
    | (with_reducible apply Keeps.step (Dev.thmEvent_keeps ..); · decide)
    | (refine ⟨fun p hp => ?_, fun hr => hr, fun _ => Grows.refl _⟩; cases p <;> first | exact absurd (by decide) hp | apply Eq.refl))

theorem Dev.throttleReq_keeps (d : Dev) (a1 : Nat) : Keeps [.merge, .thm, .log] d (Dev.throttleReq d a1) := by
  unfold Dev.throttleReq
  repeat' (first
    | (extract_lets +onlyGivenNames x; first | (refine Keeps.cut x ?_ ?_; (unfold x; clear x); rotate_left; (clear_value x; revert x; intro _ h)) | (revert x; intro _))
    | with_reducible exact Keeps.refl _ _
    | with_reducible assumption
    | split
    | (with_reducible apply Keeps.step (Dev.updSens_keeps ..); · decide)
    | (with_reducible apply Keeps.step (Dev.thmEvent_keeps ..); · decide)
    | (with_reducible apply Keeps.step (Dev.enforce_keeps ..); · decide))

theorem Dev.thermTests_keeps (d : Dev) (a1 : Nat) (a2 : Option Int) : Keeps [.rw, .rwAct, .shadow, .shadowAt, .effect, .srvNext, .w1c, .cnt, .rol, .rolBeat, .merge, .taken, .hst, .lnk, .crs, .msn, .pth, .lsr, .mpm, .srv, .safe, .cam, .cdc, .dma, .memc, .tmb, .axs, .lgt, .thm, .cal, .pwr, .log, .exporting] d (Dev.thermTests d a1 a2) := by
  unfold Dev.thermTests
  dsimp only
  repeat' (first
    | with_reducible exact Keeps.refl _ _
    | split
    | (with_reducible apply Keeps.step (Dev.updSens_keeps ..); · decide)
    | (with_reducible apply Keeps.step (Dev.thmEvent_keeps ..); · decide)
    | (with_reducible apply Keeps.step (Dev.enforce_keeps ..); · decide)
    | (with_reducible apply Keeps.step (Dev.throttleReq_keeps ..); · decide)
    | (with_reducible apply Keeps.step (Dev.thermShutdown_keeps ..); · decide)
    | (with_reducible apply Keeps.step (Dev.bump_keeps ..); · decide))

theorem Dev.takeReading_keeps (d : Dev) (a1 : Nat) (a2 : Option Int) : Keeps [.cnt, .merge, .thm, .log] d (Dev.takeReading d a1 a2) := by
  unfold Dev.takeReading
  repeat' (first
    | (extract_lets +onlyGivenNames x; first | (refine Keeps.cut x ?_ ?_; (unfold x; clear x); rotate_left; (clear_value x; revert x; intro _ h)) | (revert x; intro _))
    | with_reducible exact Keeps.refl _ _
    | with_reducible assumption
    | split
    | (with_reducible apply Keeps.step (Dev.setCount_keeps ..); · decide)
    | (with_reducible apply Keeps.step (Dev.updSens_keeps ..); · decide)
    | (with_reducible apply Keeps.step (Dev.thmEvent_keeps ..); · decide))

theorem Dev.thermalSample_keeps (d : Dev) (a1 : Nat) (a2 : Option Int) : Keeps [.rw, .rwAct, .shadow, .shadowAt, .effect, .srvNext, .w1c, .cnt, .rol, .rolBeat, .merge, .taken, .freeCount, .hst, .lnk, .crs, .msn, .pth, .lsr, .mpm, .srv, .safe, .cam, .cdc, .dma, .memc, .tmb, .axs, .lgt, .thm, .cal, .pwr, .log, .exporting] d (Dev.thermalSample d a1 a2) := by
  unfold Dev.thermalSample
  split
  · exact Keeps.refl _ _
  · refine Keeps.step (Dev.thermTests_keeps ..) (by decide) (Keeps.step (Dev.takeReading_keeps ..) (by decide) ?_)
    exact Keeps.step (Dev.sensorTemp_keeps ..) (by decide) (Keeps.step (Dev.updSens_keeps ..) (by decide) (Keeps.refl _ _))

/-! ## LsrCmd -/

theorem Dev.writeSafe_keeps (d : Dev) (a1 : RegDef) (a2 : W64) : Keeps [.rw, .shadow, .w1c, .safe] d (Dev.writeSafe d a1 a2) := by
  unfold Dev.writeSafe
  repeat' (first
    | with_reducible exact Keeps.refl _ _
    | split
    | (with_reducible apply Keeps.step (Dev.store_keeps ..); · decide)
    | (refine ⟨fun p hp => ?_, fun hr => hr, fun _ => Grows.refl _⟩; cases p <;> first | exact absurd (by decide) hp | apply Eq.refl))

theorem Dev.writeChanCtl_keeps (d : Dev) (a1 : Mem) (a2 : Nat) (a3 : W64) : Keeps [.rw, .shadow, .w1c, .lsr] d (Dev.writeChanCtl d a1 a2 a3) := by
  unfold Dev.writeChanCtl
  repeat' (first
    | (extract_lets +onlyGivenNames x; first | (refine Keeps.cut x ?_ ?_; (unfold x; clear x); rotate_left; (clear_value x; revert x; intro _ h)) | (revert x; intro _))
    | with_reducible exact Keeps.refl _ _
    | with_reducible assumption
    | split
    | (with_reducible apply Keeps.step (Dev.refuse_keeps ..); · decide)
    | (with_reducible apply Keeps.step (Dev.refuseBlock_keeps ..); · decide)
    | (with_reducible apply Keeps.step (Dev.store_keeps ..); · decide)
    | (with_reducible apply Keeps.step (Dev.updChan_keeps ..); · decide))

theorem Dev.writeLsr_keeps (d : Dev) (a1 : Mem) (a2 : RegDef) (a3 : W64) (a4 : Nat) (a5 : Nat) : Keeps [.rw, .shadow, .w1c, .lsr] d (Dev.writeLsr d a1 a2 a3 a4 a5) := by
  unfold Dev.writeLsr
  repeat' (first
    | with_reducible exact Keeps.refl _ _
    | split
    | (with_reducible apply Keeps.step (Dev.storeIf_keeps ..); · decide)
    | (with_reducible apply Keeps.step (Dev.writeChanCtl_keeps ..); · decide))

theorem Dev.beaconChan_keeps (d : Dev) (a1 : Nat) (a2 : Nat) (a3 : Nat) : Keeps [.merge, .freeCount, .lsr, .log] d (Dev.beaconChan d a1 a2 a3) := by
  unfold Dev.beaconChan
  repeat' (first
    | (extract_lets +onlyGivenNames x; first | (refine Keeps.cut x ?_ ?_; (unfold x; clear x); rotate_left; (clear_value x; revert x; intro _ h)) | (revert x; intro _))
    | with_reducible exact Keeps.refl _ _
    | with_reducible assumption
    | split
    | (with_reducible apply Keeps.step (Dev.updChan_keeps ..); · decide)
    | (with_reducible apply Keeps.step (Dev.holdChan_keeps ..); · decide)
    | (with_reducible apply Keeps.step (Dev.releaseChan_keeps ..); · decide))

theorem Dev.beaconEdge_keeps (d : Dev) (a1 : Nat) : Keeps [.merge, .freeCount, .lsr, .log] d (Dev.beaconEdge d a1) := by
  unfold Dev.beaconEdge
  repeat' (first
    | (extract_lets +onlyGivenNames x; first | (refine Keeps.cut x ?_ ?_; (unfold x; clear x); rotate_left; (clear_value x; revert x; intro _ h)) | (revert x; intro _))
    | with_reducible refine Keeps.foldl _ (fun _ _ h => ?_) ?_
    | with_reducible refine Keeps.forRange _ (fun _ _ h => ?_) ?_
    | with_reducible exact Keeps.refl _ _
    | with_reducible assumption
    | split
    | (with_reducible apply Keeps.step (Dev.beaconChan_keeps ..); · decide)
    | with_reducible refine Keeps.pairR (by assumption) ?_
    | with_reducible refine Keeps.pairL (by assumption) ?_
    | with_reducible refine Keeps.pair3 (by assumption) ?_
    | (refine ⟨fun p hp => ?_, ?_, ?_⟩; rotate_left; (first | exact fun hr => hr | exact h.regs); (first | exact fun _ => Grows.refl _ | exact h.adds); cases p <;> first | exact absurd (by decide) hp | apply Eq.refl | apply h.same _ hp)
    | intro _
    | (dsimp only)
    | with_reducible refine Keeps.step (keeps_lsr ..) (by decide) ?_)

theorem Dev.safeLow_keeps (d : Dev) : Keeps [.w1c, .merge, .freeCount, .hst, .lsr, .mpm, .safe, .cal, .log] d (Dev.safeLow d) := by
  unfold Dev.safeLow
  repeat' (first
    | (extract_lets +onlyGivenNames x; first | (refine Keeps.cut x ?_ ?_; (unfold x; clear x); rotate_left; (clear_value x; revert x; intro _ h)) | (revert x; intro _))
    | with_reducible refine Keeps.foldl _ (fun _ _ h => ?_) ?_
    | with_reducible refine Keeps.forRange _ (fun _ _ h => ?_) ?_
    | with_reducible exact Keeps.refl _ _
    | with_reducible assumption
    | split
    | (with_reducible apply Keeps.step (Dev.raise_keeps ..); · decide)
    | (with_reducible apply Keeps.step (Dev.orFlag_keeps ..); · decide)
    | (with_reducible apply Keeps.step (Dev.lsrFault_keeps ..); · decide)
    | (with_reducible apply Keeps.step (Dev.calAbort_keeps ..); · decide)
    | (refine ⟨fun p hp => ?_, ?_, ?_⟩; rotate_left; (first | exact fun hr => hr | exact h.regs); (first | exact fun _ => Grows.refl _ | exact h.adds); cases p <;> first | exact absurd (by decide) hp | apply Eq.refl | apply h.same _ hp))

theorem Dev.alarmQualified_keeps (d : Dev) (a1 : Nat) (a2 : Bool) : Keeps [.w1c, .merge, .freeCount, .lsr, .log] d (Dev.alarmQualified d a1 a2) := by
  unfold Dev.alarmQualified
  repeat' (first
    | (extract_lets +onlyGivenNames x; first | (refine Keeps.cut x ?_ ?_; (unfold x; clear x); rotate_left; (clear_value x; revert x; intro _ h)) | (revert x; intro _))
    | with_reducible exact Keeps.refl _ _
    | with_reducible assumption
    | split
    | (with_reducible apply Keeps.step (Dev.updChan_keeps ..); · decide)
    | (with_reducible apply Keeps.step (Dev.faultChan_keeps ..); · decide)
    | (with_reducible apply Keeps.step (Dev.lsrFault_keeps ..); · decide))

theorem Dev.armingTimeout_keeps (d : Dev) (a1 : Nat) : Keeps [.w1c, .merge, .freeCount, .lsr, .log] d (Dev.armingTimeout d a1) := by
  unfold Dev.armingTimeout
  repeat' (first
    | (extract_lets +onlyGivenNames x; first | (refine Keeps.cut x ?_ ?_; (unfold x; clear x); rotate_left; (clear_value x; revert x; intro _ h)) | (revert x; intro _))
    | with_reducible exact Keeps.refl _ _
    | with_reducible assumption
    | split
    | (with_reducible apply Keeps.step (Dev.lsrFault_keeps ..); · decide))

theorem Dev.safeClosed_keeps (d : Dev) : Keeps [.merge, .safe, .log] d (Dev.safeClosed d) := by
  unfold Dev.safeClosed
  repeat' (first
    | with_reducible exact Keeps.refl _ _
    | split
    | (with_reducible apply Keeps.step (Dev.raise_keeps ..); · decide)
    | (refine ⟨fun p hp => ?_, fun hr => hr, fun _ => Grows.refl _⟩; cases p <;> first | exact absurd (by decide) hp | apply Eq.refl))

theorem Dev.beaconReport_keeps (d : Dev) (a1 : Nat) : Keeps [.lsr] d (Dev.beaconReport d a1) := by
  unfold Dev.beaconReport
  repeat' (first
    | (extract_lets +onlyGivenNames x; first | (refine Keeps.cut x ?_ ?_; (unfold x; clear x); rotate_left; (clear_value x; revert x; intro _ h)) | (revert x; intro _))
    | with_reducible refine Keeps.foldl _ (fun _ _ h => ?_) ?_
    | with_reducible refine Keeps.forRange _ (fun _ _ h => ?_) ?_
    | with_reducible exact Keeps.refl _ _
    | with_reducible assumption
    | split
    | (with_reducible apply Keeps.step (Dev.beaconChan_keeps ..); · decide)
    | (refine ⟨fun p hp => ?_, ?_, ?_⟩; rotate_left; (first | exact fun hr => hr | exact h.regs); (first | exact fun _ => Grows.refl _ | exact h.adds); cases p <;> first | exact absurd (by decide) hp | apply Eq.refl | apply h.same _ hp))

theorem Dev.beaconTimeout_keeps (d : Dev) (a1 : Nat) : Keeps [.merge, .freeCount, .lsr, .log] d (Dev.beaconTimeout d a1) := by
  unfold Dev.beaconTimeout
  repeat' (first
    | with_reducible exact Keeps.refl _ _
    | split
    | (with_reducible apply Keeps.step (Dev.holdChan_keeps ..); · decide))

theorem Dev.readyQualified_keeps (d : Dev) (a1 : Nat) (a2 : Bool) : Keeps [.w1c, .merge, .freeCount, .lsr, .log] d (Dev.readyQualified d a1 a2) := by
  unfold Dev.readyQualified
  repeat' (first
    | (extract_lets +onlyGivenNames x; first | (refine Keeps.cut x ?_ ?_; (unfold x; clear x); rotate_left; (clear_value x; revert x; intro _ h)) | (revert x; intro _))
    | with_reducible exact Keeps.refl _ _
    | with_reducible assumption
    | split
    | (with_reducible apply Keeps.step (Dev.updChan_keeps ..); · decide)
    | (with_reducible apply Keeps.step (Dev.lsrFault_keeps ..); · decide))

theorem Dev.padMismatch_keeps (d : Dev) (a1 : Nat) (a2 : Bool) (a3 : Bool) : Keeps [.w1c, .merge, .freeCount, .lsr, .log] d (Dev.padMismatch d a1 a2 a3) := by
  unfold Dev.padMismatch
  repeat' (first
    | (extract_lets +onlyGivenNames x; first | (refine Keeps.cut x ?_ ?_; (unfold x; clear x); rotate_left; (clear_value x; revert x; intro _ h)) | (revert x; intro _))
    | with_reducible exact Keeps.refl _ _
    | with_reducible assumption
    | split
    | (with_reducible apply Keeps.step (Dev.updChan_keeps ..); · decide)
    | (with_reducible apply Keeps.step (Dev.faultChan_keeps ..); · decide)
    | (with_reducible apply Keeps.step (Dev.lsrFault_keeps ..); · decide))

theorem Dev.armingComplete_keeps (d : Dev) (a1 : Nat) : Keeps [.merge, .crs, .msn, .pth, .lsr, .log] d (Dev.armingComplete d a1) := by
  unfold Dev.armingComplete
  repeat' (first
    | with_reducible exact Keeps.refl _ _
    | split
    | (with_reducible apply Keeps.step (Dev.updChan_keeps ..); · decide)
    | (with_reducible apply Keeps.step (Dev.chanEvent_keeps ..); · decide)
    | (with_reducible apply Keeps.step (Dev.laserEnabled_keeps ..); · decide)
    | (with_reducible apply Keeps.step (Dev.updChanCourse_keeps ..); · decide))

theorem Dev.dacLoss_keeps (d : Dev) (a1 : Nat) : Keeps [.w1c, .merge, .freeCount, .lsr, .log] d (Dev.dacLoss d a1) := by
  unfold Dev.dacLoss
  repeat' (first
    | with_reducible exact Keeps.refl _ _
    | split
    | (with_reducible apply Keeps.step (Dev.lsrFault_keeps ..); · decide))

theorem Dev.heartbeat_keeps (d : Dev) : Keeps [.merge, .safe, .log] d (Dev.heartbeat d) := by
  unfold Dev.heartbeat
  repeat' (first
    | (extract_lets +onlyGivenNames x; first | (refine Keeps.cut x ?_ ?_; (unfold x; clear x); rotate_left; (clear_value x; revert x; intro _ h)) | (revert x; intro _))
    | with_reducible exact Keeps.refl _ _
    | with_reducible assumption
    | split
    | (with_reducible apply Keeps.step (Dev.raise_keeps ..); · decide)
    | (refine ⟨fun p hp => ?_, ?_, ?_⟩; rotate_left; (first | exact fun hr => hr | exact h.regs); (first | exact fun _ => Grows.refl _ | exact h.adds); cases p <;> first | exact absurd (by decide) hp | apply Eq.refl | apply h.same _ hp))

theorem Dev.kickExpiry_keeps (d : Dev) : Keeps [.w1c, .merge, .safe, .log] d (Dev.kickExpiry d) := by
  unfold Dev.kickExpiry
  repeat' (first
    | (extract_lets +onlyGivenNames x; first | (refine Keeps.cut x ?_ ?_; (unfold x; clear x); rotate_left; (clear_value x; revert x; intro _ h)) | (revert x; intro _))
    | with_reducible exact Keeps.refl _ _
    | with_reducible assumption
    | split
    | (with_reducible apply Keeps.step (Dev.raise_keeps ..); · decide)
    | (with_reducible apply Keeps.step (Dev.orFlag_keeps ..); · decide)
    | (refine ⟨fun p hp => ?_, ?_, ?_⟩; rotate_left; (first | exact fun hr => hr | exact h.regs); (first | exact fun _ => Grows.refl _ | exact h.adds); cases p <;> first | exact absurd (by decide) hp | apply Eq.refl | apply h.same _ hp))

/-! ## Srv -/

theorem Dev.updAxis_keeps (d : Dev) (a1 : Nat) (a2 : Axis → Axis) : Keeps [.srv] d (Dev.updAxis d a1 a2) := by
  unfold Dev.updAxis
  repeat' (first
    | with_reducible exact Keeps.refl _ _
    | (refine ⟨fun p hp => ?_, fun hr => hr, fun _ => Grows.refl _⟩; cases p <;> first | exact absurd (by decide) hp | apply Eq.refl))

theorem Dev.writeAxisCtl_keeps (d : Dev) (a1 : Nat) (a2 : W64) : Keeps [.rw, .shadow, .w1c, .srv] d (Dev.writeAxisCtl d a1 a2) := by
  unfold Dev.writeAxisCtl
  repeat' (first
    | (extract_lets +onlyGivenNames x; first | (refine Keeps.cut x ?_ ?_; (unfold x; clear x); rotate_left; (clear_value x; revert x; intro _ h)) | (revert x; intro _))
    | with_reducible exact Keeps.refl _ _
    | with_reducible assumption
    | split
    | (with_reducible apply Keeps.step (Dev.refuse_keeps ..); · decide)
    | (with_reducible apply Keeps.step (Dev.refuseBlock_keeps ..); · decide)
    | (with_reducible apply Keeps.step (Dev.store_keeps ..); · decide)
    | (with_reducible apply Keeps.step (Dev.updAxis_keeps ..); · decide))

theorem Dev.writeSrv_keeps (d : Dev) (a1 : RegDef) (a2 : W64) (a3 : Nat) (a4 : Nat) : Keeps [.rw, .shadow, .w1c, .srv] d (Dev.writeSrv d a1 a2 a3 a4) := by
  unfold Dev.writeSrv
  repeat' (first
    | with_reducible exact Keeps.refl _ _
    | split
    | (with_reducible apply Keeps.step (Dev.storeIf_keeps ..); · decide)
    | (with_reducible apply Keeps.step (Dev.writeAxisCtl_keeps ..); · decide))

theorem Dev.setBridge_keeps (d : Dev) (a1 : Nat) (a2 : Bridge) : Keeps [.cnt, .srv] d (Dev.setBridge d a1 a2) := by
  unfold Dev.setBridge
  repeat' (first
    | (extract_lets +onlyGivenNames x; first | (refine Keeps.cut x ?_ ?_; (unfold x; clear x); rotate_left; (clear_value x; revert x; intro _ h)) | (revert x; intro _))
    | with_reducible refine Keeps.foldl _ (fun _ _ h => ?_) ?_
    | with_reducible refine Keeps.forRange _ (fun _ _ h => ?_) ?_
    | with_reducible exact Keeps.refl _ _
    | with_reducible assumption
    | split
    | (with_reducible apply Keeps.step (Dev.bump_keeps ..); · decide)
    | (with_reducible apply Keeps.step (Dev.updAxis_keeps ..); · decide)
    | with_reducible refine Keeps.pairR (by assumption) ?_
    | with_reducible refine Keeps.pairL (by assumption) ?_
    | with_reducible refine Keeps.pair3 (by assumption) ?_
    | (refine ⟨fun p hp => ?_, ?_, ?_⟩; rotate_left; (first | exact fun hr => hr | exact h.regs); (first | exact fun _ => Grows.refl _ | exact h.adds); cases p <;> first | exact absurd (by decide) hp | apply Eq.refl | apply h.same _ hp)
    | intro _
    | (dsimp only))

theorem Dev.axisEdge_keeps (d : Dev) (a1 : Nat) : Keeps [.rw, .rwAct, .cnt, .srv] d (Dev.axisEdge d a1) := by
  unfold Dev.axisEdge
  repeat' (first
    | (extract_lets +onlyGivenNames x; first | (refine Keeps.cut x ?_ ?_; (unfold x; clear x); rotate_left; (clear_value x; revert x; intro _ h)) | (revert x; intro _))
    | with_reducible exact Keeps.refl _ _
    | with_reducible assumption
    | split
    | (with_reducible apply Keeps.step (Dev.updAxis_keeps ..); · decide)
    | (with_reducible apply Keeps.step (Dev.setRwNow_keeps ..); · decide)
    | (with_reducible apply Keeps.step (Dev.setBridge_keeps ..); · decide))

theorem Dev.settleAxis_keeps (d : Dev) (a1 : Nat) : Keeps [.srv] d (Dev.settleAxis d a1) := by
  unfold Dev.settleAxis
  repeat' (first
    | (extract_lets +onlyGivenNames x; first | (refine Keeps.cut x ?_ ?_; (unfold x; clear x); rotate_left; (clear_value x; revert x; intro _ h)) | (revert x; intro _))
    | with_reducible exact Keeps.refl _ _
    | with_reducible assumption
    | split
    | (with_reducible apply Keeps.step (Dev.orFlag_keeps ..); · decide)
    | (with_reducible apply Keeps.step (Dev.updAxis_keeps ..); · decide))

theorem Dev.axisEvent_keeps (d : Dev) (a1 : Nat) (a2 : Nat) (a3 : Nat) : Keeps [.merge, .log] d (Dev.axisEvent d a1 a2 a3) := by
  unfold Dev.axisEvent
  repeat' (first
    | with_reducible exact Keeps.refl _ _
    | (with_reducible apply Keeps.step (Dev.raise_keeps ..); · decide)
    | (refine ⟨fun p hp => ?_, fun hr => hr, fun _ => Grows.refl _⟩; cases p <;> first | exact absurd (by decide) hp | apply Eq.refl))

theorem Dev.wrapped_keeps (d : Dev) (a1 : Nat) (a2 : Nat) (a3 : Bool) : Keeps [.cnt, .merge, .srv, .log] d (Dev.wrapped d a1 a2 a3) := by
  unfold Dev.wrapped
  repeat' (first
    | with_reducible exact Keeps.refl _ _
    | split
    | (with_reducible apply Keeps.step (Dev.bump_keeps ..); · decide)
    | (with_reducible apply Keeps.step (Dev.updAxis_keeps ..); · decide)
    | (with_reducible apply Keeps.step (Dev.axisEvent_keeps ..); · decide))

theorem Dev.positionLoop_keeps (d : Dev) (a1 : Nat) : Keeps [.cnt, .merge, .srv, .log] d (Dev.positionLoop d a1) := by
  unfold Dev.positionLoop
  repeat' (first
    | (extract_lets +onlyGivenNames x; first | (refine Keeps.cut x ?_ ?_; (unfold x; clear x); rotate_left; (clear_value x; revert x; intro _ h)) | (revert x; intro _))
    | with_reducible refine Keeps.foldl _ (fun _ _ h => ?_) ?_
    | with_reducible refine Keeps.forRange _ (fun _ _ h => ?_) ?_
    | with_reducible exact Keeps.refl _ _
    | with_reducible assumption
    | split
    | (with_reducible apply Keeps.step (Dev.updAxis_keeps ..); · decide)
    | (with_reducible apply Keeps.step (Dev.wrapped_keeps ..); · decide)
    | with_reducible refine Keeps.pairR (by assumption) ?_
    | with_reducible refine Keeps.pairL (by assumption) ?_
    | with_reducible refine Keeps.pair3 (by assumption) ?_
    | (refine ⟨fun p hp => ?_, ?_, ?_⟩; rotate_left; (first | exact fun hr => hr | exact h.regs); (first | exact fun _ => Grows.refl _ | exact h.adds); cases p <;> first | exact absurd (by decide) hp | apply Eq.refl | apply h.same _ hp)
    | intro _
    | (dsimp only))

theorem Dev.axisFault_keeps (d : Dev) (a1 : Nat) (a2 : Nat) (a3 : Nat) (a4 : Nat) : Keeps [.w1c, .merge, .lsr, .srv, .log] d (Dev.axisFault d a1 a2 a3 a4) := by
  unfold Dev.axisFault
  repeat' (first
    | (extract_lets +onlyGivenNames x; first | (refine Keeps.cut x ?_ ?_; (unfold x; clear x); rotate_left; (clear_value x; revert x; intro _ h)) | (revert x; intro _))
    | with_reducible exact Keeps.refl _ _
    | with_reducible assumption
    | split
    | (with_reducible apply Keeps.step (Dev.orFlag_keeps ..); · decide)
    | (with_reducible apply Keeps.step (Dev.causeFrom_keeps ..); · decide)
    | (with_reducible apply Keeps.step (Dev.updAxis_keeps ..); · decide)
    | (with_reducible apply Keeps.step (Dev.axisEvent_keeps ..); · decide))

theorem Dev.formError_keeps (d : Dev) (a1 : Nat) : Keeps [.srv] d (Dev.formError d a1) := by
  unfold Dev.formError
  repeat' (first
    | (extract_lets +onlyGivenNames x; first | (refine Keeps.cut x ?_ ?_; (unfold x; clear x); rotate_left; (clear_value x; revert x; intro _ h)) | (revert x; intro _))
    | with_reducible refine Keeps.foldl _ (fun _ _ h => ?_) ?_
    | with_reducible refine Keeps.forRange _ (fun _ _ h => ?_) ?_
    | with_reducible exact Keeps.refl _ _
    | with_reducible assumption
    | split
    | (with_reducible apply Keeps.step (Dev.updAxis_keeps ..); · decide)
    | with_reducible refine Keeps.pairR (by assumption) ?_
    | with_reducible refine Keeps.pairL (by assumption) ?_
    | with_reducible refine Keeps.pair3 (by assumption) ?_
    | (refine ⟨fun p hp => ?_, ?_, ?_⟩; rotate_left; (first | exact fun hr => hr | exact h.regs); (first | exact fun _ => Grows.refl _ | exact h.adds); cases p <;> first | exact absurd (by decide) hp | apply Eq.refl | apply h.same _ hp)
    | intro _
    | (dsimp only))

theorem Dev.sampleAxis_keeps (d : Dev) (a1 : Nat) (a2 : Nat) : Keeps [.srv] d (Dev.sampleAxis d a1 a2) := by
  unfold Dev.sampleAxis
  repeat' (first
    | (extract_lets +onlyGivenNames x; first | (refine Keeps.cut x ?_ ?_; (unfold x; clear x); rotate_left; (clear_value x; revert x; intro _ h)) | (revert x; intro _))
    | with_reducible refine Keeps.foldl _ (fun _ _ h => ?_) ?_
    | with_reducible refine Keeps.forRange _ (fun _ _ h => ?_) ?_
    | with_reducible exact Keeps.refl _ _
    | with_reducible assumption
    | split
    | (with_reducible apply Keeps.step (Dev.updAxis_keeps ..); · decide)
    | with_reducible refine Keeps.pairR (by assumption) ?_
    | with_reducible refine Keeps.pairL (by assumption) ?_
    | with_reducible refine Keeps.pair3 (by assumption) ?_
    | (refine ⟨fun p hp => ?_, ?_, ?_⟩; rotate_left; (first | exact fun hr => hr | exact h.regs); (first | exact fun _ => Grows.refl _ | exact h.adds); cases p <;> first | exact absurd (by decide) hp | apply Eq.refl | apply h.same _ hp)
    | intro _
    | (dsimp only))

theorem Dev.srvOverrun_keeps (d : Dev) (a1 : Nat) : Keeps [.w1c, .merge, .log] d (Dev.srvOverrun d a1) := by
  unfold Dev.srvOverrun
  repeat' (first
    | with_reducible exact Keeps.refl _ _
    | (with_reducible apply Keeps.step (Dev.orFlag_keeps ..); · decide)
    | (with_reducible apply Keeps.step (Dev.axisEvent_keeps ..); · decide)
    | (refine ⟨fun p hp => ?_, fun hr => hr, fun _ => Grows.refl _⟩; cases p <;> first | exact absurd (by decide) hp | apply Eq.refl))

theorem Dev.velocityLoop_keeps (d : Dev) (a1 : Nat) : Keeps [.cnt, .merge, .srv, .log] d (Dev.velocityLoop d a1) := by
  unfold Dev.velocityLoop
  repeat' (first
    | (extract_lets +onlyGivenNames x; first | (refine Keeps.cut x ?_ ?_; (unfold x; clear x); rotate_left; (clear_value x; revert x; intro _ h)) | (revert x; intro _))
    | with_reducible refine Keeps.foldl _ (fun _ _ h => ?_) ?_
    | with_reducible refine Keeps.forRange _ (fun _ _ h => ?_) ?_
    | with_reducible exact Keeps.refl _ _
    | with_reducible assumption
    | split
    | (with_reducible apply Keeps.step (Dev.bump_keeps ..); · decide)
    | (with_reducible apply Keeps.step (Dev.updAxis_keeps ..); · decide)
    | (with_reducible apply Keeps.step (Dev.wrapped_keeps ..); · decide)
    | with_reducible refine Keeps.pairR (by assumption) ?_
    | with_reducible refine Keeps.pairL (by assumption) ?_
    | with_reducible refine Keeps.pair3 (by assumption) ?_
    | (refine ⟨fun p hp => ?_, ?_, ?_⟩; rotate_left; (first | exact fun hr => hr | exact h.regs); (first | exact fun _ => Grows.refl _ | exact h.adds); cases p <;> first | exact absurd (by decide) hp | apply Eq.refl | apply h.same _ hp)
    | intro _
    | (dsimp only))

theorem Dev.velocityTick_keeps (d : Dev) (a1 : Nat) (a2 : Nat) (a3 : Bool) : Keeps [.w1c, .cnt, .merge, .srv, .log] d (Dev.velocityTick d a1 a2 a3) := by
  unfold Dev.velocityTick
  repeat' (first
    | (extract_lets +onlyGivenNames x; first | (refine Keeps.cut x ?_ ?_; (unfold x; clear x); rotate_left; (clear_value x; revert x; intro _ h)) | (revert x; intro _))
    | with_reducible exact Keeps.refl _ _
    | with_reducible assumption
    | split
    | (with_reducible apply Keeps.step (Dev.orFlag_keeps ..); · decide)
    | (with_reducible apply Keeps.step (Dev.updAxis_keeps ..); · decide)
    | (with_reducible apply Keeps.step (Dev.peak_keeps ..); · decide)
    | (with_reducible apply Keeps.step (Dev.formError_keeps ..); · decide)
    | (with_reducible apply Keeps.step (Dev.sampleAxis_keeps ..); · decide)
    | (with_reducible apply Keeps.step (Dev.srvOverrun_keeps ..); · decide)
    | (with_reducible apply Keeps.step (Dev.velocityLoop_keeps ..); · decide))

theorem Dev.loadBank_keeps (d : Dev) (a1 : Nat) (a2 : Nat) (a3 : Nat) : Keeps [.srv] d (Dev.loadBank d a1 a2 a3) := by
  unfold Dev.loadBank
  repeat' (first
    | with_reducible exact Keeps.refl _ _
    | (with_reducible apply Keeps.step (Dev.updAxis_keeps ..); · decide)
    | (refine ⟨fun p hp => ?_, fun hr => hr, fun _ => Grows.refl _⟩; cases p <;> first | exact absurd (by decide) hp | apply Eq.refl))

theorem Dev.swapAxis_keeps (d : Dev) (a1 : Nat) : Keeps [.cnt, .merge, .srv, .log] d (Dev.swapAxis d a1) := by
  unfold Dev.swapAxis
  repeat' (first
    | (extract_lets +onlyGivenNames x; first | (refine Keeps.cut x ?_ ?_; (unfold x; clear x); rotate_left; (clear_value x; revert x; intro _ h)) | (revert x; intro _))
    | with_reducible exact Keeps.refl _ _
    | with_reducible assumption
    | split
    | (with_reducible apply Keeps.step (Dev.bump_keeps ..); · decide)
    | (with_reducible apply Keeps.step (Dev.updAxis_keeps ..); · decide)
    | (with_reducible apply Keeps.step (Dev.axisEvent_keeps ..); · decide)
    | (with_reducible apply Keeps.step (Dev.loadBank_keeps ..); · decide))

theorem Dev.srvEffect_keeps (d : Dev) : Keeps [.effect, .srvNext, .cnt, .merge, .crs, .srv, .log] d (Dev.srvEffect d) := by
  unfold Dev.srvEffect
  split
  · exact Keeps.refl _ _
  · refine Keeps.forRange _ (fun _ _ h => Keeps.step (Dev.swapAxis_keeps ..) (by decide) h) ?_
    refine ⟨fun p hp => by cases p <;> first | exact absurd (by decide) hp | apply Eq.refl, fun hr => ?_, fun _ => Grows.refl _⟩
    simp only [RegFile.wf, Bool.and_eq_true] at hr ⊢
    simp [hr, keysRise_filter, keysRise_foldl_put, keysRise]

theorem Dev.currentDecision_keeps (d : Dev) (a1 : Nat) (a2 : Int) (a3 a4 : Bool) (a5 : BitVec 2) :
    Keeps [.w1c, .merge, .lsr, .srv, .log] d (Dev.currentDecision d a1 a2 a3 a4 a5) := by
  unfold Dev.currentDecision
  repeat' (first
    | (extract_lets +onlyGivenNames x; first | (refine Keeps.cut x ?_ ?_; (unfold x; clear x); rotate_left; (clear_value x; revert x; intro _ h)) | (revert x; intro _))
    | with_reducible exact Keeps.refl _ _
    | with_reducible assumption
    | split
    | (with_reducible apply Keeps.step (Dev.updAxis_keeps ..); · decide)
    | (with_reducible apply Keeps.step (Dev.axisFault_keeps ..); · decide)
    | (with_reducible apply Keeps.step (Dev.setBridge_keeps ..); · decide))

theorem Dev.acquire_keeps (d : Dev) (a1 : Nat) : Keeps [.srv] d (Dev.acquire d a1) := by
  unfold Dev.acquire
  repeat' (first
    | with_reducible exact Keeps.refl _ _
    | (with_reducible apply Keeps.step (Dev.updAxis_keeps ..); · decide)
    | (with_reducible apply Keeps.step (Dev.loadBank_keeps ..); · decide)
    | (refine ⟨fun p hp => ?_, fun hr => hr, fun _ => Grows.refl _⟩; cases p <;> first | exact absurd (by decide) hp | apply Eq.refl))

theorem Dev.acquireStep_keeps (d : Dev) (a1 : Nat) : Keeps [.merge, .srv, .log] d (Dev.acquireStep d a1) := by
  unfold Dev.acquireStep
  repeat' (first
    | (extract_lets +onlyGivenNames x; first | (refine Keeps.cut x ?_ ?_; (unfold x; clear x); rotate_left; (clear_value x; revert x; intro _ h)) | (revert x; intro _))
    | with_reducible exact Keeps.refl _ _
    | with_reducible assumption
    | split
    | (with_reducible apply Keeps.step (Dev.updAxis_keeps ..); · decide)
    | (with_reducible apply Keeps.step (Dev.axisEvent_keeps ..); · decide)
    | (with_reducible apply Keeps.step (Dev.formError_keeps ..); · decide))

theorem Dev.positionTick_keeps (d : Dev) (a1 : Mem) (a2 : Nat) (a3 : Nat) (a4 : Bool) : Keeps [.w1c, .cnt, .merge, .freeCount, .pth, .srv, .log] d (Dev.positionTick d a1 a2 a3 a4) := by
  unfold Dev.positionTick
  repeat' (first
    | (extract_lets +onlyGivenNames x; first | (refine Keeps.cut x ?_ ?_; (unfold x; clear x); rotate_left; (clear_value x; revert x; intro _ h)) | (revert x; intro _))
    | with_reducible exact Keeps.refl _ _
    | with_reducible assumption
    | split
    | (with_reducible apply Keeps.step (Dev.updAxis_keeps ..); · decide)
    | (with_reducible apply Keeps.step (Dev.positionLoop_keeps ..); · decide)
    | (with_reducible apply Keeps.step (Dev.formError_keeps ..); · decide)
    | (with_reducible apply Keeps.step (Dev.sampleAxis_keeps ..); · decide)
    | (with_reducible apply Keeps.step (Dev.srvOverrun_keeps ..); · decide)
    | (with_reducible apply Keeps.step (Dev.holdHead_keeps ..); · decide)
    | (with_reducible apply Keeps.step (Dev.acquire_keeps ..); · decide)
    | (with_reducible apply Keeps.step (Dev.acquireStep_keeps ..); · decide))

/-! ## Launch -/

theorem Dev.launchEvent_keeps (d : Dev) (a1 : Nat) (a2 : Nat) (a3 : Nat) (a4 : Nat) (a5 : Nat) : Keeps [.merge, .log] d (Dev.launchEvent d a1 a2 a3 a4 a5) := by
  unfold Dev.launchEvent
  repeat' (first
    | with_reducible exact Keeps.refl _ _
    | (with_reducible apply Keeps.step (Dev.raise_keeps ..); · decide)
    | (refine ⟨fun p hp => ?_, fun hr => hr, fun _ => Grows.refl _⟩; cases p <;> first | exact absurd (by decide) hp | apply Eq.refl))

theorem Dev.writeLaunchCtl_keeps (d : Dev) (a1 : Nat) (a2 : W64) : Keeps [.rw, .shadow, .w1c, .merge, .tmb, .log] d (Dev.writeLaunchCtl d a1 a2) := by
  unfold Dev.writeLaunchCtl
  repeat' (first
    | (extract_lets +onlyGivenNames x; first | (refine Keeps.cut x ?_ ?_; (unfold x; clear x); rotate_left; (clear_value x; revert x; intro _ h)) | (revert x; intro _))
    | with_reducible exact Keeps.refl _ _
    | with_reducible assumption
    | split
    | (with_reducible apply Keeps.step (Dev.refuse_keeps ..); · decide)
    | (with_reducible apply Keeps.step (Dev.store_keeps ..); · decide)
    | (with_reducible apply Keeps.step (Dev.launchEvent_keeps ..); · decide)
    | (refine ⟨fun p hp => ?_, ?_, ?_⟩; rotate_left; (first | exact fun hr => hr | exact h.regs); (first | exact fun _ => Grows.refl _ | exact h.adds); cases p <;> first | exact absurd (by decide) hp | apply Eq.refl | apply h.same _ hp))

theorem Dev.writeTmb_keeps (d : Dev) (a1 : RegDef) (a2 : W64) (a3 : Nat) (a4 : Nat) : Keeps [.rw, .shadow, .w1c, .merge, .tmb, .log] d (Dev.writeTmb d a1 a2 a3 a4) := by
  unfold Dev.writeTmb
  repeat' (first
    | with_reducible exact Keeps.refl _ _
    | split
    | (with_reducible apply Keeps.step (Dev.storeIf_keeps ..); · decide)
    | (with_reducible apply Keeps.step (Dev.writeTmbCtl_keeps ..); · decide)
    | (with_reducible apply Keeps.step (Dev.writeTmbSet_keeps ..); · decide)
    | (with_reducible apply Keeps.step (Dev.writeTmbStep_keeps ..); · decide)
    | (with_reducible apply Keeps.step (Dev.writeLaunchCtl_keeps ..); · decide)
    | (with_reducible apply Keeps.step (Dev.writeTmbPlain_keeps ..); · decide))

theorem Dev.statsEpoch_keeps (d : Dev) : Keeps [.cnt, .rol, .rolBeat, .memc, .thm] d (Dev.statsEpoch d) := by
  unfold Dev.statsEpoch
  repeat' (first
    | (extract_lets +onlyGivenNames x; first | (refine Keeps.cut x ?_ ?_; (unfold x; clear x); rotate_left; (clear_value x; revert x; intro _ h)) | (revert x; intro _))
    | with_reducible exact Keeps.refl _ _
    | with_reducible assumption
    | split
    | (with_reducible apply Keeps.step (Dev.latchRol_keeps ..); · decide)
    | (refine ⟨fun p hp => ?_, ?_, ?_⟩; rotate_left; (first | exact fun hr => hr | exact h.regs); (first | exact fun _ => Grows.refl _ | exact h.adds); cases p <;> first | exact absurd (by decide) hp | apply Eq.refl | apply h.same _ hp))

theorem Dev.launchEnd_keeps (d : Dev) (a1 : Nat) : Keeps [.rw, .rwAct, .tmb] d (Dev.launchEnd d a1) := by
  unfold Dev.launchEnd
  repeat' (first
    | (extract_lets +onlyGivenNames x; first | (refine Keeps.cut x ?_ ?_; (unfold x; clear x); rotate_left; (clear_value x; revert x; intro _ h)) | (revert x; intro _))
    | with_reducible refine Keeps.foldl _ (fun _ _ h => ?_) ?_
    | with_reducible refine Keeps.forRange _ (fun _ _ h => ?_) ?_
    | with_reducible exact Keeps.refl _ _
    | with_reducible assumption
    | split
    | (with_reducible apply Keeps.step (Dev.setRwNow_keeps ..); · decide)
    | with_reducible refine Keeps.pairR (by assumption) ?_
    | with_reducible refine Keeps.pairL (by assumption) ?_
    | with_reducible refine Keeps.pair3 (by assumption) ?_
    | (refine ⟨fun p hp => ?_, ?_, ?_⟩; rotate_left; (first | exact fun hr => hr | exact h.regs); (first | exact fun _ => Grows.refl _ | exact h.adds); cases p <;> first | exact absurd (by decide) hp | apply Eq.refl | apply h.same _ hp)
    | intro _
    | (dsimp only)
    | with_reducible refine Keeps.step (keeps_tmb ..) (by decide) ?_)

theorem Dev.launchWindow_keeps (d : Dev) (a1 : Nat) : Keeps [.rw, .rwAct, .merge, .tmb, .log] d (Dev.launchWindow d a1) := by
  unfold Dev.launchWindow
  repeat' (first
    | with_reducible exact Keeps.refl _ _
    | split
    | (with_reducible apply Keeps.step (Dev.launchEvent_keeps ..); · decide)
    | (with_reducible apply Keeps.step (Dev.launchEnd_keeps ..); · decide)
    | (refine ⟨fun p hp => ?_, fun hr => hr, fun _ => Grows.refl _⟩; cases p <;> first | exact absurd (by decide) hp | apply Eq.refl))

theorem Dev.launchFrame_keeps (d : Dev) (a1 : Nat) : Keeps [.cnt, .out, .lnk] d (Dev.launchFrame d a1) := by
  unfold Dev.launchFrame
  repeat' (first
    | (extract_lets +onlyGivenNames x; first | (refine Keeps.cut x ?_ ?_; (unfold x; clear x); rotate_left; (clear_value x; revert x; intro _ h)) | (revert x; intro _))
    | with_reducible exact Keeps.refl _ _
    | with_reducible assumption
    | split
    | (with_reducible apply Keeps.step (Dev.emit_keeps ..); · decide)
    | (with_reducible apply Keeps.step (Dev.updVl_keeps ..); · decide)
    | (with_reducible apply Keeps.step (Dev.pumpPort_keeps ..); · decide))

theorem Dev.launchSend_keeps (d : Dev) (a1 : Nat) (a2 : Nat) (a3 : Nat) : Keeps [.rw, .rwAct, .cnt, .merge, .out, .lnk, .tmb, .log] d (Dev.launchSend d a1 a2 a3) := by
  unfold Dev.launchSend
  repeat' (first
    | with_reducible exact Keeps.refl _ _
    | split
    | (with_reducible apply Keeps.step (Dev.bump_keeps ..); · decide)
    | (with_reducible apply Keeps.step (Dev.launchEvent_keeps ..); · decide)
    | (with_reducible apply Keeps.step (Dev.launchEnd_keeps ..); · decide)
    | (with_reducible apply Keeps.step (Dev.launchFrame_keeps ..); · decide))

/-! ## Axs -/

theorem Dev.axDone_keeps (d : Dev) (a1 : Entry) (a2 : Nat) (a3 : (List W64)) : Keeps [.cnt, .merge, .hst] d (Dev.axDone d a1 a2 a3) := by
  unfold Dev.axDone
  repeat' (first
    | with_reducible exact Keeps.refl _ _
    | (with_reducible apply Keeps.step (Dev.bump_keeps ..); · decide)
    | (with_reducible apply Keeps.step (Dev.complete_keeps ..); · decide)
    | (refine ⟨fun p hp => ?_, fun hr => hr, fun _ => Grows.refl _⟩; cases p <;> first | exact absurd (by decide) hp | apply Eq.refl))

theorem Dev.axPlan_keeps (d : Dev) : Keeps [.axs] d (Dev.axPlan d) := by
  unfold Dev.axPlan
  repeat' (first
    | (extract_lets +onlyGivenNames x; first | (refine Keeps.cut x ?_ ?_; (unfold x; clear x); rotate_left; (clear_value x; revert x; intro _ h)) | (revert x; intro _))
    | with_reducible refine Keeps.foldl _ (fun _ _ h => ?_) ?_
    | with_reducible refine Keeps.forRange _ (fun _ _ h => ?_) ?_
    | with_reducible exact Keeps.refl _ _
    | with_reducible assumption
    | split
    | with_reducible refine Keeps.pairR (by assumption) ?_
    | with_reducible refine Keeps.pairL (by assumption) ?_
    | with_reducible refine Keeps.pair3 (by assumption) ?_
    | (refine ⟨fun p hp => ?_, ?_, ?_⟩; rotate_left; (first | exact fun hr => hr | exact h.regs); (first | exact fun _ => Grows.refl _ | exact h.adds); cases p <;> first | exact absurd (by decide) hp | apply Eq.refl | apply h.same _ hp)
    | intro _
    | (dsimp only)
    | with_reducible refine Keeps.step (keeps_axs ..) (by decide) ?_)

theorem Dev.updMoves_keeps (d : Dev) (a1 : Nat) (a2 : AxMove → AxMove) : Keeps [.axs] d (Dev.updMoves d a1 a2) := by
  unfold Dev.updMoves
  repeat' (first
    | with_reducible exact Keeps.refl _ _
    | (refine ⟨fun p hp => ?_, fun hr => hr, fun _ => Grows.refl _⟩; cases p <;> first | exact absurd (by decide) hp | apply Eq.refl))

theorem Dev.axStop_keeps (d : Dev) (a1 : Entry) : Keeps [.cnt, .merge, .hst, .axs] d (Dev.axStop d a1) := by
  unfold Dev.axStop
  repeat' (first
    | with_reducible exact Keeps.refl _ _
    | split
    | (with_reducible apply Keeps.step (Dev.axDone_keeps ..); · decide)
    | (with_reducible apply Keeps.step (Dev.updMoves_keeps ..); · decide)
    | (refine ⟨fun p hp => ?_, fun hr => hr, fun _ => Grows.refl _⟩; cases p <;> first | exact absurd (by decide) hp | apply Eq.refl))

theorem Dev.updStepper_keeps (d : Dev) (a1 : Nat) (a2 : AxsAxis → AxsAxis) : Keeps [.axs] d (Dev.updStepper d a1 a2) := by
  unfold Dev.updStepper
  repeat' (first
    | with_reducible exact Keeps.refl _ _
    | (refine ⟨fun p hp => ?_, fun hr => hr, fun _ => Grows.refl _⟩; cases p <;> first | exact absurd (by decide) hp | apply Eq.refl))

theorem Dev.axSetPos_keeps (d : Dev) (a1 : Entry) : Keeps [.cnt, .merge, .hst, .axs] d (Dev.axSetPos d a1) := by
  unfold Dev.axSetPos
  repeat' (first
    | (extract_lets +onlyGivenNames x; first | (refine Keeps.cut x ?_ ?_; (unfold x; clear x); rotate_left; (clear_value x; revert x; intro _ h)) | (revert x; intro _))
    | with_reducible refine Keeps.foldl _ (fun _ _ h => ?_) ?_
    | with_reducible refine Keeps.forRange _ (fun _ _ h => ?_) ?_
    | with_reducible exact Keeps.refl _ _
    | with_reducible assumption
    | split
    | (with_reducible apply Keeps.step (Dev.axDone_keeps ..); · decide)
    | (with_reducible apply Keeps.step (Dev.updStepper_keeps ..); · decide)
    | (refine ⟨fun p hp => ?_, ?_, ?_⟩; rotate_left; (first | exact fun hr => hr | exact h.regs); (first | exact fun _ => Grows.refl _ | exact h.adds); cases p <;> first | exact absurd (by decide) hp | apply Eq.refl | apply h.same _ hp))

theorem Dev.beginHome_keeps (d : Dev) (a1 : Entry) : Keeps [.axs] d (Dev.beginHome d a1) := by
  unfold Dev.beginHome
  repeat' (first
    | with_reducible exact Keeps.refl _ _
    | (refine ⟨fun p hp => ?_, fun hr => hr, fun _ => Grows.refl _⟩; cases p <;> first | exact absurd (by decide) hp | apply Eq.refl))

theorem Dev.axEvent_keeps (d : Dev) (a1 : Nat) (a2 : Nat) (a3 : Nat) : Keeps [.merge, .log] d (Dev.axEvent d a1 a2 a3) := by
  unfold Dev.axEvent
  repeat' (first
    | with_reducible exact Keeps.refl _ _
    | (with_reducible apply Keeps.step (Dev.raise_keeps ..); · decide)
    | (refine ⟨fun p hp => ?_, fun hr => hr, fun _ => Grows.refl _⟩; cases p <;> first | exact absurd (by decide) hp | apply Eq.refl))

theorem Dev.moveRests_keeps (d : Dev) (a1 : AxMove) : Keeps [.cnt, .merge, .hst, .axs, .log] d (Dev.moveRests d a1) := by
  unfold Dev.moveRests
  repeat' (first
    | with_reducible exact Keeps.refl _ _
    | split
    | (with_reducible apply Keeps.step (Dev.axDone_keeps ..); · decide)
    | (with_reducible apply Keeps.step (Dev.axEvent_keeps ..); · decide)
    | (refine ⟨fun p hp => ?_, fun hr => hr, fun _ => Grows.refl _⟩; cases p <;> first | exact absurd (by decide) hp | apply Eq.refl))

theorem Dev.beginMove_keeps (d : Dev) (a1 : Entry) : Keeps [.cnt, .merge, .hst, .axs, .log] d (Dev.beginMove d a1) := by
  unfold Dev.beginMove
  repeat' (first
    | (extract_lets +onlyGivenNames x; first | (refine Keeps.cut x ?_ ?_; (unfold x; clear x); rotate_left; (clear_value x; revert x; intro _ h)) | (revert x; intro _))
    | with_reducible exact Keeps.refl _ _
    | with_reducible assumption
    | split
    | (with_reducible apply Keeps.step (Dev.moveRests_keeps ..); · decide)
    | (refine ⟨fun p hp => ?_, ?_, ?_⟩; rotate_left; (first | exact fun hr => hr | exact h.regs); (first | exact fun _ => Grows.refl _ | exact h.adds); cases p <;> first | exact absurd (by decide) hp | apply Eq.refl | apply h.same _ hp))

theorem Dev.axStart_keeps (d : Dev) (a1 : Entry) : Keeps [.cnt, .merge, .hst, .axs, .log] d (Dev.axStart d a1) := by
  unfold Dev.axStart
  repeat' (first
    | with_reducible exact Keeps.refl _ _
    | split
    | (with_reducible apply Keeps.step (Dev.axDone_keeps ..); · decide)
    | (with_reducible apply Keeps.step (Dev.beginHome_keeps ..); · decide)
    | (with_reducible apply Keeps.step (Dev.beginMove_keeps ..); · decide))

theorem Dev.supersede_keeps (d : Dev) (a1 : AxMove) : Keeps [.cnt, .merge, .hst, .axs] d (Dev.supersede d a1) := by
  unfold Dev.supersede
  repeat' (first
    | with_reducible exact Keeps.refl _ _
    | split
    | (with_reducible apply Keeps.step (Dev.axDone_keeps ..); · decide)
    | (with_reducible apply Keeps.step (Dev.updMoves_keeps ..); · decide))

theorem Dev.axReplaceNow_keeps (d : Dev) (a1 : Entry) : Keeps [.cnt, .merge, .hst, .axs, .log] d (Dev.axReplaceNow d a1) := by
  unfold Dev.axReplaceNow
  repeat' (first
    | (extract_lets +onlyGivenNames x; first | (refine Keeps.cut x ?_ ?_; (unfold x; clear x); rotate_left; (clear_value x; revert x; intro _ h)) | (revert x; intro _))
    | with_reducible refine Keeps.foldl _ (fun _ _ h => ?_) ?_
    | with_reducible refine Keeps.forRange _ (fun _ _ h => ?_) ?_
    | with_reducible exact Keeps.refl _ _
    | with_reducible assumption
    | split
    | (with_reducible apply Keeps.step (Dev.axDone_keeps ..); · decide)
    | (with_reducible apply Keeps.step (Dev.axStart_keeps ..); · decide)
    | (with_reducible apply Keeps.step (Dev.supersede_keeps ..); · decide)
    | with_reducible refine Keeps.pairR (by assumption) ?_
    | with_reducible refine Keeps.pairL (by assumption) ?_
    | with_reducible refine Keeps.pair3 (by assumption) ?_
    | (refine ⟨fun p hp => ?_, ?_, ?_⟩; rotate_left; (first | exact fun hr => hr | exact h.regs); (first | exact fun _ => Grows.refl _ | exact h.adds); cases p <;> first | exact absurd (by decide) hp | apply Eq.refl | apply h.same _ hp)
    | intro _
    | (dsimp only)
    | with_reducible refine Keeps.step (keeps_axs ..) (by decide) ?_)

theorem Dev.axAct_keeps (d : Dev) (a1 : Nat) (a2 : Nat) : Keeps [.cnt, .merge, .hst, .axs, .log] d (Dev.axAct d a1 a2) := by
  unfold Dev.axAct
  repeat' (first
    | (extract_lets +onlyGivenNames x; first | (refine Keeps.cut x ?_ ?_; (unfold x; clear x); rotate_left; (clear_value x; revert x; intro _ h)) | (revert x; intro _))
    | with_reducible refine Keeps.foldl _ (fun _ _ h => ?_) ?_
    | with_reducible refine Keeps.forRange _ (fun _ _ h => ?_) ?_
    | with_reducible exact Keeps.refl _ _
    | with_reducible assumption
    | split
    | (with_reducible apply Keeps.step (Dev.axDone_keeps ..); · decide)
    | (with_reducible apply Keeps.step (Dev.pop_keeps ..); · decide)
    | (with_reducible apply Keeps.step (Dev.axStop_keeps ..); · decide)
    | (with_reducible apply Keeps.step (Dev.axSetPos_keeps ..); · decide)
    | (with_reducible apply Keeps.step (Dev.axStart_keeps ..); · decide)
    | (with_reducible apply Keeps.step (Dev.axReplaceNow_keeps ..); · decide)
    | with_reducible refine Keeps.pairR (by assumption) ?_
    | with_reducible refine Keeps.pairL (by assumption) ?_
    | with_reducible refine Keeps.pair3 (by assumption) ?_
    | (refine ⟨fun p hp => ?_, ?_, ?_⟩; rotate_left; (first | exact fun hr => hr | exact h.regs); (first | exact fun _ => Grows.refl _ | exact h.adds); cases p <;> first | exact absurd (by decide) hp | apply Eq.refl | apply h.same _ hp)
    | intro _
    | (dsimp only))

theorem Dev.axEntry_keeps (d : Dev) (a1 : Nat) (a2 : Nat) : Keeps [.cnt, .merge, .hst, .axs, .log] d (Dev.axEntry d a1 a2) := by
  unfold Dev.axEntry
  repeat' (first
    | with_reducible exact Keeps.refl _ _
    | split
    | (with_reducible apply Keeps.step (Dev.axPlan_keeps ..); · decide)
    | (with_reducible apply Keeps.step (Dev.axAct_keeps ..); · decide))

theorem Dev.stepperEdge_keeps (a0 : RegFile) (d : Dev) (a2 : Nat) : Keeps [.axs] d (Dev.stepperEdge a0 d a2) := by
  unfold Dev.stepperEdge
  repeat' (first
    | (extract_lets +onlyGivenNames x; first | (refine Keeps.cut x ?_ ?_; (unfold x; clear x); rotate_left; (clear_value x; revert x; intro _ h)) | (revert x; intro _))
    | with_reducible refine Keeps.foldl _ (fun _ _ h => ?_) ?_
    | with_reducible refine Keeps.forRange _ (fun _ _ h => ?_) ?_
    | with_reducible exact Keeps.refl _ _
    | with_reducible assumption
    | split
    | (with_reducible apply Keeps.step (Dev.updMoves_keeps ..); · decide)
    | (with_reducible apply Keeps.step (Dev.updStepper_keeps ..); · decide)
    | with_reducible refine Keeps.pairR (by assumption) ?_
    | with_reducible refine Keeps.pairL (by assumption) ?_
    | with_reducible refine Keeps.pair3 (by assumption) ?_
    | (refine ⟨fun p hp => ?_, ?_, ?_⟩; rotate_left; (first | exact fun hr => hr | exact h.regs); (first | exact fun _ => Grows.refl _ | exact h.adds); cases p <;> first | exact absurd (by decide) hp | apply Eq.refl | apply h.same _ hp)
    | intro _
    | (dsimp only))

theorem Dev.writeAxCfg_keeps (d : Dev) (a1 : Nat) (a2 : W64) : Keeps [.rw, .shadow, .w1c] d (Dev.writeAxCfg d a1 a2) := by
  unfold Dev.writeAxCfg
  repeat' (first
    | (extract_lets +onlyGivenNames x; first | (refine Keeps.cut x ?_ ?_; (unfold x; clear x); rotate_left; (clear_value x; revert x; intro _ h)) | (revert x; intro _))
    | with_reducible exact Keeps.refl _ _
    | with_reducible assumption
    | split
    | (with_reducible apply Keeps.step (Dev.updMoves_keeps ..); · decide)
    | (with_reducible apply Keeps.step (Dev.updStepper_keeps ..); · decide)
    | (with_reducible apply Keeps.step (Dev.refuse_keeps ..); · decide)
    | (with_reducible apply Keeps.step (Dev.store_keeps ..); · decide))

theorem Dev.writeAxs_keeps (d : Dev) (a1 : RegDef) (a2 : W64) (a3 : Nat) (a4 : Nat) : Keeps [.rw, .shadow, .w1c] d (Dev.writeAxs d a1 a2 a3 a4) := by
  unfold Dev.writeAxs
  repeat' (first
    | with_reducible exact Keeps.refl _ _
    | split
    | (with_reducible apply Keeps.step (Dev.storeIf_keeps ..); · decide)
    | (with_reducible apply Keeps.step (Dev.writeAxCfg_keeps ..); · decide))

theorem Dev.homeRests_keeps (d : Dev) (a1 : AxMove) (a2 : HomeRun) : Keeps [.cnt, .merge, .hst, .axs, .log] d (Dev.homeRests d a1 a2) := by
  unfold Dev.homeRests
  repeat' (first
    | with_reducible exact Keeps.refl _ _
    | split
    | (with_reducible apply Keeps.step (Dev.updStepper_keeps ..); · decide)
    | (with_reducible apply Keeps.step (Dev.axEvent_keeps ..); · decide)
    | (with_reducible apply Keeps.step (Dev.moveRests_keeps ..); · decide)
    | (refine ⟨fun p hp => ?_, fun hr => hr, fun _ => Grows.refl _⟩; cases p <;> first | exact absurd (by decide) hp | apply Eq.refl))

theorem Dev.axRest_keeps (d : Dev) (a1 : AxMove) : Keeps [.cnt, .merge, .hst, .axs, .log] d (Dev.axRest d a1) := by
  unfold Dev.axRest
  repeat' (first
    | (extract_lets +onlyGivenNames x; first | (refine Keeps.cut x ?_ ?_; (unfold x; clear x); rotate_left; (clear_value x; revert x; intro _ h)) | (revert x; intro _))
    | with_reducible refine Keeps.foldl _ (fun _ _ h => ?_) ?_
    | with_reducible refine Keeps.forRange _ (fun _ _ h => ?_) ?_
    | with_reducible exact Keeps.refl _ _
    | with_reducible assumption
    | split
    | (with_reducible apply Keeps.step (Dev.updStepper_keeps ..); · decide)
    | (with_reducible apply Keeps.step (Dev.moveRests_keeps ..); · decide)
    | (with_reducible apply Keeps.step (Dev.homeRests_keeps ..); · decide)
    | (refine ⟨fun p hp => ?_, ?_, ?_⟩; rotate_left; (first | exact fun hr => hr | exact h.regs); (first | exact fun _ => Grows.refl _ | exact h.adds); cases p <;> first | exact absurd (by decide) hp | apply Eq.refl | apply h.same _ hp))

theorem Dev.replaceStart_keeps (d : Dev) : Keeps [.cnt, .merge, .hst, .axs, .log] d (Dev.replaceStart d) := by
  unfold Dev.replaceStart
  repeat' (first
    | (extract_lets +onlyGivenNames x; first | (refine Keeps.cut x ?_ ?_; (unfold x; clear x); rotate_left; (clear_value x; revert x; intro _ h)) | (revert x; intro _))
    | with_reducible refine Keeps.foldl _ (fun _ _ h => ?_) ?_
    | with_reducible refine Keeps.forRange _ (fun _ _ h => ?_) ?_
    | with_reducible exact Keeps.refl _ _
    | with_reducible assumption
    | split
    | (with_reducible apply Keeps.step (Dev.axDone_keeps ..); · decide)
    | (with_reducible apply Keeps.step (Dev.axStart_keeps ..); · decide)
    | (refine ⟨fun p hp => ?_, ?_, ?_⟩; rotate_left; (first | exact fun hr => hr | exact h.regs); (first | exact fun _ => Grows.refl _ | exact h.adds); cases p <;> first | exact absurd (by decide) hp | apply Eq.refl | apply h.same _ hp))

theorem Dev.stopsDone_keeps (d : Dev) : Keeps [.cnt, .merge, .hst, .axs] d (Dev.stopsDone d) := by
  unfold Dev.stopsDone
  repeat' (first
    | (extract_lets +onlyGivenNames x; first | (refine Keeps.cut x ?_ ?_; (unfold x; clear x); rotate_left; (clear_value x; revert x; intro _ h)) | (revert x; intro _))
    | with_reducible refine Keeps.foldl _ (fun _ _ h => ?_) ?_
    | with_reducible refine Keeps.forRange _ (fun _ _ h => ?_) ?_
    | with_reducible exact Keeps.refl _ _
    | with_reducible assumption
    | split
    | (with_reducible apply Keeps.step (Dev.axDone_keeps ..); · decide)
    | with_reducible refine Keeps.pairR (by assumption) ?_
    | with_reducible refine Keeps.pairL (by assumption) ?_
    | with_reducible refine Keeps.pair3 (by assumption) ?_
    | (refine ⟨fun p hp => ?_, ?_, ?_⟩; rotate_left; (first | exact fun hr => hr | exact h.regs); (first | exact fun _ => Grows.refl _ | exact h.adds); cases p <;> first | exact absurd (by decide) hp | apply Eq.refl | apply h.same _ hp)
    | intro _
    | (dsimp only)
    | with_reducible refine Keeps.step (keeps_axs ..) (by decide) ?_)

theorem Dev.profileTick_keeps (d : Dev) (a1 : Bool) : Keeps [.w1c, .cnt, .merge, .hst, .axs, .log] d (Dev.profileTick d a1) := by
  unfold Dev.profileTick
  repeat' (first
    | (extract_lets +onlyGivenNames x; first | (refine Keeps.cut x ?_ ?_; (unfold x; clear x); rotate_left; (clear_value x; revert x; intro _ h)) | (revert x; intro _))
    | with_reducible refine Keeps.foldl _ (fun _ _ h => ?_) ?_
    | with_reducible refine Keeps.forRange _ (fun _ _ h => ?_) ?_
    | with_reducible exact Keeps.refl _ _
    | with_reducible assumption
    | split
    | (with_reducible apply Keeps.step (Dev.axPlan_keeps ..); · decide)
    | (with_reducible apply Keeps.step (Dev.overrun_keeps ..); · decide)
    | (with_reducible apply Keeps.step (Dev.axRest_keeps ..); · decide)
    | (with_reducible apply Keeps.step (Dev.replaceStart_keeps ..); · decide)
    | (with_reducible apply Keeps.step (Dev.stopsDone_keeps ..); · decide)
    | with_reducible refine Keeps.pairR (by assumption) ?_
    | with_reducible refine Keeps.pairL (by assumption) ?_
    | with_reducible refine Keeps.pair3 (by assumption) ?_
    | (refine ⟨fun p hp => ?_, ?_, ?_⟩; rotate_left; (first | exact fun hr => hr | exact h.regs); (first | exact fun _ => Grows.refl _ | exact h.adds); cases p <;> first | exact absurd (by decide) hp | apply Eq.refl | apply h.same _ hp)
    | intro _
    | (dsimp only)
    | with_reducible refine Keeps.step (keeps_axs ..) (by decide) ?_)

theorem Dev.homeDeassert_keeps (d : Dev) (a1 : Nat) : Keeps [.axs] d (Dev.homeDeassert d a1) := by
  unfold Dev.homeDeassert
  repeat' (first
    | with_reducible exact Keeps.refl _ _
    | (with_reducible apply Keeps.step (Dev.updMoves_keeps ..); · decide)
    | (refine ⟨fun p hp => ?_, fun hr => hr, fun _ => Grows.refl _⟩; cases p <;> first | exact absurd (by decide) hp | apply Eq.refl))

theorem Dev.axStep_keeps (d : Dev) (a1 : Nat) : Keeps [.cnt, .axs] d (Dev.axStep d a1) := by
  unfold Dev.axStep
  repeat' (first
    | (extract_lets +onlyGivenNames x; first | (refine Keeps.cut x ?_ ?_; (unfold x; clear x); rotate_left; (clear_value x; revert x; intro _ h)) | (revert x; intro _))
    | with_reducible refine Keeps.foldl _ (fun _ _ h => ?_) ?_
    | with_reducible refine Keeps.forRange _ (fun _ _ h => ?_) ?_
    | with_reducible exact Keeps.refl _ _
    | with_reducible assumption
    | split
    | (with_reducible apply Keeps.step (Dev.bump_keeps ..); · decide)
    | (with_reducible apply Keeps.step (Dev.updStepper_keeps ..); · decide)
    | with_reducible refine Keeps.pairR (by assumption) ?_
    | with_reducible refine Keeps.pairL (by assumption) ?_
    | with_reducible refine Keeps.pair3 (by assumption) ?_
    | (refine ⟨fun p hp => ?_, ?_, ?_⟩; rotate_left; (first | exact fun hr => hr | exact h.regs); (first | exact fun _ => Grows.refl _ | exact h.adds); cases p <;> first | exact absurd (by decide) hp | apply Eq.refl | apply h.same _ hp)
    | intro _
    | (dsimp only))

theorem Dev.axTurn_keeps (d : Dev) (a1 : Nat) : Keeps [.axs] d (Dev.axTurn d a1) := by
  unfold Dev.axTurn
  repeat' (first
    | (extract_lets +onlyGivenNames x; first | (refine Keeps.cut x ?_ ?_; (unfold x; clear x); rotate_left; (clear_value x; revert x; intro _ h)) | (revert x; intro _))
    | with_reducible refine Keeps.foldl _ (fun _ _ h => ?_) ?_
    | with_reducible refine Keeps.forRange _ (fun _ _ h => ?_) ?_
    | with_reducible exact Keeps.refl _ _
    | with_reducible assumption
    | split
    | (with_reducible apply Keeps.step (Dev.updStepper_keeps ..); · decide)
    | with_reducible refine Keeps.pairR (by assumption) ?_
    | with_reducible refine Keeps.pairL (by assumption) ?_
    | with_reducible refine Keeps.pair3 (by assumption) ?_
    | (refine ⟨fun p hp => ?_, ?_, ?_⟩; rotate_left; (first | exact fun hr => hr | exact h.regs); (first | exact fun _ => Grows.refl _ | exact h.adds); cases p <;> first | exact absurd (by decide) hp | apply Eq.refl | apply h.same _ hp)
    | intro _
    | (dsimp only))

theorem Dev.axCross_keeps (d : Dev) (a1 : Nat) : Keeps [.axs] d (Dev.axCross d a1) := by
  unfold Dev.axCross
  repeat' (first
    | (extract_lets +onlyGivenNames x; first | (refine Keeps.cut x ?_ ?_; (unfold x; clear x); rotate_left; (clear_value x; revert x; intro _ h)) | (revert x; intro _))
    | with_reducible refine Keeps.foldl _ (fun _ _ h => ?_) ?_
    | with_reducible refine Keeps.forRange _ (fun _ _ h => ?_) ?_
    | with_reducible exact Keeps.refl _ _
    | with_reducible assumption
    | split
    | (with_reducible apply Keeps.step (Dev.updStepper_keeps ..); · decide)
    | with_reducible refine Keeps.pairR (by assumption) ?_
    | with_reducible refine Keeps.pairL (by assumption) ?_
    | with_reducible refine Keeps.pair3 (by assumption) ?_
    | (refine ⟨fun p hp => ?_, ?_, ?_⟩; rotate_left; (first | exact fun hr => hr | exact h.regs); (first | exact fun _ => Grows.refl _ | exact h.adds); cases p <;> first | exact absurd (by decide) hp | apply Eq.refl | apply h.same _ hp)
    | intro _
    | (dsimp only))

theorem Dev.axCycle_keeps (d : Dev) : Keeps [.cnt, .axs] d (Dev.axCycle d) := by
  unfold Dev.axCycle
  repeat' (first
    | (extract_lets +onlyGivenNames x; first | (refine Keeps.cut x ?_ ?_; (unfold x; clear x); rotate_left; (clear_value x; revert x; intro _ h)) | (revert x; intro _))
    | with_reducible refine Keeps.foldl _ (fun _ _ h => ?_) ?_
    | with_reducible refine Keeps.forRange _ (fun _ _ h => ?_) ?_
    | with_reducible exact Keeps.refl _ _
    | with_reducible assumption
    | split
    | (with_reducible apply Keeps.step (Dev.axStep_keeps ..); · decide)
    | (with_reducible apply Keeps.step (Dev.axTurn_keeps ..); · decide)
    | (with_reducible apply Keeps.step (Dev.axCross_keeps ..); · decide)
    | with_reducible refine Keeps.pairR (by assumption) ?_
    | with_reducible refine Keeps.pairL (by assumption) ?_
    | with_reducible refine Keeps.pair3 (by assumption) ?_
    | (refine ⟨fun p hp => ?_, ?_, ?_⟩; rotate_left; (first | exact fun hr => hr | exact h.regs); (first | exact fun _ => Grows.refl _ | exact h.adds); cases p <;> first | exact absurd (by decide) hp | apply Eq.refl | apply h.same _ hp)
    | intro _
    | (dsimp only))

theorem Dev.homeQualified_keeps (d : Dev) (a1 : Nat) (a2 : Bool) (a3 : Int) : Keeps [.axs] d (Dev.homeQualified d a1 a2 a3) := by
  unfold Dev.homeQualified
  repeat' (first
    | (extract_lets +onlyGivenNames x; first | (refine Keeps.cut x ?_ ?_; (unfold x; clear x); rotate_left; (clear_value x; revert x; intro _ h)) | (revert x; intro _))
    | with_reducible exact Keeps.refl _ _
    | with_reducible assumption
    | split
    | (with_reducible apply Keeps.step (Dev.updMoves_keeps ..); · decide)
    | (with_reducible apply Keeps.step (Dev.updStepper_keeps ..); · decide))

theorem Dev.homeMax_keeps (d : Dev) (a1 : Nat) : Keeps [.axs] d (Dev.homeMax d a1) := by
  unfold Dev.homeMax
  repeat' (first
    | with_reducible exact Keeps.refl _ _
    | (with_reducible apply Keeps.step (Dev.updMoves_keeps ..); · decide)
    | (refine ⟨fun p hp => ?_, fun hr => hr, fun _ => Grows.refl _⟩; cases p <;> first | exact absurd (by decide) hp | apply Eq.refl))

theorem Dev.limitQualified_keeps (d : Dev) (a1 : Nat) (a2 : Bool) (a3 : Bool) : Keeps [.cnt, .merge, .axs, .log] d (Dev.limitQualified d a1 a2 a3) := by
  unfold Dev.limitQualified
  repeat' (first
    | (extract_lets +onlyGivenNames x; first | (refine Keeps.cut x ?_ ?_; (unfold x; clear x); rotate_left; (clear_value x; revert x; intro _ h)) | (revert x; intro _))
    | with_reducible exact Keeps.refl _ _
    | with_reducible assumption
    | split
    | (with_reducible apply Keeps.step (Dev.bump_keeps ..); · decide)
    | (with_reducible apply Keeps.step (Dev.updMoves_keeps ..); · decide)
    | (with_reducible apply Keeps.step (Dev.updStepper_keeps ..); · decide)
    | (with_reducible apply Keeps.step (Dev.axEvent_keeps ..); · decide))

/-! ## HstCmd -/

theorem Dev.completionWrite_keeps (d : Dev) : Keeps [.cnt, .merge, .taken, .out, .hst, .lnk, .log] d (Dev.completionWrite d) := by
  unfold Dev.completionWrite
  repeat' (first
    | (extract_lets +onlyGivenNames x; first | (refine Keeps.cut x ?_ ?_; (unfold x; clear x); rotate_left; (clear_value x; revert x; intro _ h)) | (revert x; intro _))
    | with_reducible exact Keeps.refl _ _
    | with_reducible assumption
    | split
    | (with_reducible apply Keeps.step (Dev.logEvent_keeps ..); · decide)
    | (with_reducible apply Keeps.step (Dev.ringSignal_keeps ..); · decide)
    | (with_reducible apply Keeps.step (Dev.flushRings_keeps ..); · decide)
    | (with_reducible apply Keeps.step (Dev.hstErrIrq_keeps ..); · decide)
    | (with_reducible apply Keeps.step (Dev.exportEvent_keeps ..); · decide)
    | (with_reducible apply Keeps.step (Dev.deliver_keeps ..); · decide)
    | (refine ⟨fun p hp => ?_, ?_, ?_⟩; rotate_left; (first | exact fun hr => hr | exact h.regs); (exact fun hn => absurd (by decide) hn); cases p <;> first | exact absurd (by decide) hp | apply Eq.refl | apply h.same _ hp))

theorem Dev.modTimer_keeps (d : Dev) (a1 : Nat) : Keeps [.out, .hst] d (Dev.modTimer d a1) := by
  unfold Dev.modTimer
  repeat' (first
    | (extract_lets +onlyGivenNames x; first | (refine Keeps.cut x ?_ ?_; (unfold x; clear x); rotate_left; (clear_value x; revert x; intro _ h)) | (revert x; intro _))
    | with_reducible exact Keeps.refl _ _
    | with_reducible assumption
    | split
    | (with_reducible apply Keeps.step (Dev.ringSignal_keeps ..); · decide))

theorem Dev.forgetEntry_keeps (d : Dev) (a1 : Entry) : Keeps [.hst] d (Dev.forgetEntry d a1) := by
  unfold Dev.forgetEntry
  repeat' (first
    | with_reducible exact Keeps.refl _ _
    | (with_reducible apply Keeps.step (Dev.passOn_keeps ..); · decide)
    | (with_reducible apply Keeps.step (Dev.updRing_keeps ..); · decide)
    | (refine ⟨fun p hp => ?_, fun hr => hr, fun _ => Grows.refl _⟩; cases p <;> first | exact absurd (by decide) hp | apply Eq.refl))

theorem Dev.abandonBricks_keeps (d : Dev) : Keeps [.cnt, .hst, .lnk, .crs, .msn] d (Dev.abandonBricks d) := by
  unfold Dev.abandonBricks
  repeat' (first
    | (extract_lets +onlyGivenNames x; first | (refine Keeps.cut x ?_ ?_; (unfold x; clear x); rotate_left; (clear_value x; revert x; intro _ h)) | (revert x; intro _))
    | with_reducible refine Keeps.foldl _ (fun _ _ h => ?_) ?_
    | with_reducible refine Keeps.forRange _ (fun _ _ h => ?_) ?_
    | with_reducible exact Keeps.refl _ _
    | with_reducible assumption
    | split
    | (with_reducible apply Keeps.step (Dev.bump_keeps ..); · decide)
    | (with_reducible apply Keeps.step (Dev.dropBrick_keeps ..); · decide)
    | (with_reducible apply Keeps.step (Dev.fedRemove_keeps ..); · decide)
    | (with_reducible apply Keeps.step (Dev.forgetEntry_keeps ..); · decide)
    | (refine ⟨fun p hp => ?_, ?_, ?_⟩; rotate_left; (first | exact fun hr => hr | exact h.regs); (first | exact fun _ => Grows.refl _ | exact h.adds); cases p <;> first | exact absurd (by decide) hp | apply Eq.refl | apply h.same _ hp))

theorem Dev.linkFalls_keeps (d : Dev) : Keeps [.cnt, .merge, .hst, .lnk, .crs, .msn, .log] d (Dev.linkFalls d) := by
  unfold Dev.linkFalls
  repeat' (first
    | (extract_lets +onlyGivenNames x; first | (refine Keeps.cut x ?_ ?_; (unfold x; clear x); rotate_left; (clear_value x; revert x; intro _ h)) | (revert x; intro _))
    | with_reducible refine Keeps.foldl _ (fun _ _ h => ?_) ?_
    | with_reducible refine Keeps.forRange _ (fun _ _ h => ?_) ?_
    | with_reducible exact Keeps.refl _ _
    | with_reducible assumption
    | split
    | (with_reducible apply Keeps.step (Dev.pop_keeps ..); · decide)
    | (with_reducible apply Keeps.step (Dev.raise_keeps ..); · decide)
    | (with_reducible apply Keeps.step (Dev.settleHold_keeps ..); · decide)
    | (with_reducible apply Keeps.step (Dev.abandonReads_keeps ..); · decide)
    | (with_reducible apply Keeps.step (Dev.forgetEntry_keeps ..); · decide)
    | (with_reducible apply Keeps.step (Dev.abandonBricks_keeps ..); · decide)
    | (refine ⟨fun p hp => ?_, ?_, ?_⟩; rotate_left; (first | exact fun hr => hr | exact h.regs); (first | exact fun _ => Grows.refl _ | exact h.adds); cases p <;> first | exact absurd (by decide) hp | apply Eq.refl | apply h.same _ hp))

theorem Dev.linkRises_keeps (d : Dev) (a1 : Nat) (a2 : Nat) : Keeps [.merge, .out, .hst, .msn, .log] d (Dev.linkRises d a1 a2) := by
  unfold Dev.linkRises
  repeat' (first
    | with_reducible exact Keeps.refl _ _
    | split
    | (with_reducible apply Keeps.step (Dev.settleHold_keeps ..); · decide)
    | (with_reducible apply Keeps.step (Dev.linkUpWith_keeps ..); · decide)
    | (with_reducible apply Keeps.step (Dev.sendAllPending_keeps ..); · decide))

end Sys2Proof.Machine
end

