-- ==== Sys2Proof/Laws/KeepsData.lean ====
section
/-!
SUPPORT. Frames of the calibration, cameras, codec, movers, lights, DRAM, firmware, power and register accesses: one lemma per function that answers a
device, saying which parts it may change.
-/
namespace Sys2Proof.Machine
set_option linter.all false

/-! ## Cal -/

theorem Dev.calDone_keeps (d : Dev) (a1 : Entry) (a2 : Nat) (a3 : Nat) (a4 : (List W64)) : Keeps [.merge, .hst] d (Dev.calDone d a1 a2 a3 a4) := by
  unfold Dev.calDone
  repeat' (first
    | with_reducible exact Keeps.refl _ _
    | (with_reducible apply Keeps.step (Dev.complete_keeps ..); · decide)
    | (with_reducible apply Keeps.step (Dev.pop_keeps ..); · decide)
    | (refine ⟨fun p hp => ?_, fun hr => hr, fun _ => Grows.refl _⟩; cases p <;> first | exact absurd (by decide) hp | apply Eq.refl))

theorem Dev.putResult_keeps (d : Dev) (a1 : W64) (a2 : List W64) : Keeps [.out] d (Dev.putResult d a1 a2) := by
  unfold Dev.putResult
  repeat' (first
    | with_reducible exact Keeps.refl _ _
    | split
    | (with_reducible apply Keeps.step (Dev.emit_keeps ..); · decide))

theorem Dev.calWrites_keeps (d : Dev) (a1 : Nat) (a2 : Nat) (a3 : List W64) : Keeps [.rw, .shadow, .w1c, .lnk, .pth] d (Dev.calWrites d a1 a2 a3) := by
  unfold Dev.calWrites
  repeat' (first
    | (extract_lets +onlyGivenNames x; first | (refine Keeps.cut x ?_ ?_; (unfold x; clear x); rotate_left; (clear_value x; revert x; intro _ h)) | (revert x; intro _))
    | with_reducible refine Keeps.foldl _ (fun _ _ h => ?_) ?_
    | with_reducible refine Keeps.forRange _ (fun _ _ h => ?_) ?_
    | with_reducible exact Keeps.refl _ _
    | with_reducible assumption
    | split
    | (with_reducible apply Keeps.step (Dev.setShadow_keeps ..); · decide)
    | (with_reducible apply Keeps.step (Dev.store_keeps ..); · decide)
    | (with_reducible apply Keeps.step (Dev.writeMpm_keeps ..); · decide)
    | (with_reducible apply Keeps.step (Dev.writePth_keeps ..); · decide)
    | (with_reducible apply Keeps.step (Dev.writeLnk_keeps ..); · decide)
    | (refine ⟨fun p hp => ?_, ?_, ?_⟩; rotate_left; (first | exact fun hr => hr | exact h.regs); (first | exact fun _ => Grows.refl _ | exact h.adds); cases p <;> first | exact absurd (by decide) hp | apply Eq.refl | apply h.same _ hp))

theorem Dev.calApply_keeps (d : Dev) (a1 : Nat) (a2 : Nat) (a3 : List W64) : KeepsO [.rw, .shadow, .w1c, .lnk, .pth] d (Dev.calApply d a1 a2 a3) := by
  unfold Dev.calApply
  repeat' (first
    | (extract_lets +onlyGivenNames x; first | (refine Keeps.cut x ?_ ?_; (unfold x; clear x); rotate_left; (clear_value x; revert x; intro _ h)) | (refine Keeps.cutO x ?_ ?_; (unfold x; clear x); rotate_left; (clear_value x; revert x; intro _ h)) | (revert x; intro _))
    | with_reducible refine Keeps.foldl _ (fun _ _ h => ?_) ?_
    | with_reducible refine Keeps.forRange _ (fun _ _ h => ?_) ?_
    | with_reducible exact Keeps.refl _ _
    | with_reducible assumption
    | split
    | (with_reducible apply Keeps.step (Dev.setFlag_keeps ..); · decide)
    | (with_reducible apply Keeps.step (Dev.calWrites_keeps ..); · decide)
    | with_reducible refine KeepsO.some ?_
    | with_reducible exact KeepsO.none _ _
    | with_reducible refine Keeps.pairR (by assumption) ?_
    | with_reducible refine Keeps.pairL (by assumption) ?_
    | with_reducible refine Keeps.pair3 (by assumption) ?_
    | (refine ⟨fun p hp => ?_, ?_, ?_⟩; rotate_left; (first | exact fun hr => hr | exact h.regs); (first | exact fun _ => Grows.refl _ | exact h.adds); cases p <;> first | exact absurd (by decide) hp | apply Eq.refl | apply h.same _ hp)
    | intro _
    | (dsimp only))

theorem Dev.calRecall_keeps (d : Dev) (a1 : Nat) : Keeps [.rw, .shadow, .w1c, .merge, .out, .hst, .lnk, .pth] d (Dev.calRecall d a1) := by
  unfold Dev.calRecall
  repeat' (first
    | (extract_lets +onlyGivenNames x; first | (refine Keeps.cut x ?_ ?_; (unfold x; clear x); rotate_left; (clear_value x; revert x; intro _ h)) | (revert x; intro _))
    | with_reducible refine Keeps.foldl _ (fun _ _ h => ?_) ?_
    | with_reducible refine Keeps.forRange _ (fun _ _ h => ?_) ?_
    | with_reducible exact Keeps.refl _ _
    | with_reducible assumption
    | split
    | (with_reducible apply Keeps.step (Dev.calDone_keeps ..); · decide)
    | (with_reducible apply Keeps.step (Dev.putResult_keeps ..); · decide)
    | (with_reducible apply KeepsO.step (Dev.calApply_keeps ..); · decide)
    | with_reducible refine Dev.withCal_keeps (by decide) (fun _ _ h => ?_) ?_
    | with_reducible refine Keeps.ofOpt (by assumption) ?_
    | with_reducible refine KeepsO.getD ?_ ?_
    | with_reducible refine Keeps.pairR (by assumption) ?_
    | with_reducible refine Keeps.pairL (by assumption) ?_
    | with_reducible refine Keeps.pair3 (by assumption) ?_
    | (refine ⟨fun p hp => ?_, ?_, ?_⟩; rotate_left; (first | exact fun hr => hr | exact h.regs); (first | exact fun _ => Grows.refl _ | exact h.adds); cases p <;> first | exact absurd (by decide) hp | apply Eq.refl | apply h.same _ hp)
    | intro _
    | (dsimp only))

theorem Dev.writeCalTol_keeps (d : Dev) (a1 : W64) (a2 : Nat) : Keeps [.rw, .shadow, .w1c] d (Dev.writeCalTol d a1 a2) := by
  unfold Dev.writeCalTol
  repeat' (first
    | with_reducible exact Keeps.refl _ _
    | (with_reducible apply Keeps.step (Dev.storeIf_keeps ..); · decide)
    | (refine ⟨fun p hp => ?_, fun hr => hr, fun _ => Grows.refl _⟩; cases p <;> first | exact absurd (by decide) hp | apply Eq.refl))

theorem Dev.gridSwapEffect_keeps (d : Dev) (a1 : Nat) : Keeps [.merge, .hst, .pth, .log] d (Dev.gridSwapEffect d a1) := by
  unfold Dev.gridSwapEffect
  repeat' (first
    | (extract_lets +onlyGivenNames x; first | (refine Keeps.cut x ?_ ?_; (unfold x; clear x); rotate_left; (clear_value x; revert x; intro _ h)) | (revert x; intro _))
    | with_reducible exact Keeps.refl _ _
    | with_reducible assumption
    | split
    | (with_reducible apply Keeps.step (Dev.complete_keeps ..); · decide)
    | (with_reducible apply Keeps.step (Dev.raise_keeps ..); · decide)
    | (with_reducible apply Keeps.step (Dev.updPiste_keeps ..); · decide)
    | (with_reducible apply Keeps.step (Dev.staleZones_keeps ..); · decide))

theorem Dev.updCal_keeps (d : Dev) (a1 : Nat) (a2 : CalCount → CalCount) : Keeps [.cal] d (Dev.updCal d a1 a2) := by
  unfold Dev.updCal
  repeat' (first
    | with_reducible exact Keeps.refl _ _
    | (refine ⟨fun p hp => ?_, fun hr => hr, fun _ => Grows.refl _⟩; cases p <;> first | exact absurd (by decide) hp | apply Eq.refl))

theorem Dev.calComplete_keeps (d : Dev) (a1 : List CalPoint) (a2 : List CalPoint) : Keeps [.rw, .shadow, .w1c, .merge, .out, .hst, .lnk, .pth, .mpm, .cal, .log] d (Dev.calComplete d a1 a2) := by
  unfold Dev.calComplete
  repeat' (first
    | (extract_lets +onlyGivenNames x; first | (refine Keeps.cut x ?_ ?_; (unfold x; clear x); rotate_left; (clear_value x; revert x; intro _ h)) | (revert x; intro _))
    | with_reducible refine Keeps.foldl _ (fun _ _ h => ?_) ?_
    | with_reducible refine Keeps.forRange _ (fun _ _ h => ?_) ?_
    | with_reducible exact Keeps.refl _ _
    | with_reducible assumption
    | split
    | (with_reducible apply Keeps.step (Dev.complete_keeps ..); · decide)
    | (with_reducible apply Keeps.step (Dev.raise_keeps ..); · decide)
    | (with_reducible apply Keeps.step (Dev.putResult_keeps ..); · decide)
    | (with_reducible apply Keeps.step (Dev.calWrites_keeps ..); · decide)
    | (with_reducible apply Keeps.step (Dev.calRelease_keeps ..); · decide)
    | (with_reducible apply Keeps.step (Dev.updCal_keeps ..); · decide)
    | (refine ⟨fun p hp => ?_, ?_, ?_⟩; rotate_left; (first | exact fun hr => hr | exact h.regs); (first | exact fun _ => Grows.refl _ | exact h.adds); cases p <;> first | exact absurd (by decide) hp | apply Eq.refl | apply h.same _ hp))

theorem Dev.gridSwap_keeps (d : Dev) (a1 : Mem) (a2 : Nat) (a3 : EccRead) : Keeps [.cnt, .merge, .freeCount, .hst, .pth, .memc, .log] d (Dev.gridSwap d a1 a2 a3) := by
  unfold Dev.gridSwap
  repeat' (first
    | (extract_lets +onlyGivenNames x; first | (refine Keeps.cut x ?_ ?_; (unfold x; clear x); rotate_left; (clear_value x; revert x; intro _ h)) | (revert x; intro _))
    | with_reducible refine Keeps.foldl _ (fun _ _ h => ?_) ?_
    | with_reducible refine Keeps.forRange _ (fun _ _ h => ?_) ?_
    | with_reducible exact Keeps.refl _ _
    | with_reducible assumption
    | split
    | (with_reducible apply Keeps.step (Dev.pop_keeps ..); · decide)
    | (with_reducible apply Keeps.step (Dev.updPiste_keeps ..); · decide)
    | (with_reducible apply Keeps.step (Dev.free_keeps ..); · decide)
    | (with_reducible apply Keeps.step (Dev.sramRead_keeps ..); · decide)
    | (with_reducible apply Keeps.step (Dev.calDone_keeps ..); · decide)
    | with_reducible refine Dev.withCal_keeps (by decide) (fun _ _ h => ?_) ?_
    | with_reducible refine Keeps.pairR (by assumption) ?_
    | with_reducible refine Keeps.pairL (by assumption) ?_
    | with_reducible refine Keeps.pair3 (by assumption) ?_
    | (refine ⟨fun p hp => ?_, ?_, ?_⟩; rotate_left; (first | exact fun hr => hr | exact h.regs); (first | exact fun _ => Grows.refl _ | exact h.adds); cases p <;> first | exact absurd (by decide) hp | apply Eq.refl | apply h.same _ hp)
    | intro _
    | (dsimp only))

theorem Dev.gridLoad_keeps (d : Dev) (a1 : Nat) : Keeps [.merge, .out, .hst, .pth] d (Dev.gridLoad d a1) := by
  unfold Dev.gridLoad
  repeat' (first
    | (extract_lets +onlyGivenNames x; first | (refine Keeps.cut x ?_ ?_; (unfold x; clear x); rotate_left; (clear_value x; revert x; intro _ h)) | (revert x; intro _))
    | with_reducible refine Keeps.foldl _ (fun _ _ h => ?_) ?_
    | with_reducible refine Keeps.forRange _ (fun _ _ h => ?_) ?_
    | with_reducible exact Keeps.refl _ _
    | with_reducible assumption
    | split
    | (with_reducible apply Keeps.step (Dev.pop_keeps ..); · decide)
    | (with_reducible apply Keeps.step (Dev.emit_keeps ..); · decide)
    | (with_reducible apply Keeps.step (Dev.calDone_keeps ..); · decide)
    | with_reducible refine Dev.withCal_keeps (by decide) (fun _ _ h => ?_) ?_
    | with_reducible refine Keeps.pairR (by assumption) ?_
    | with_reducible refine Keeps.pairL (by assumption) ?_
    | with_reducible refine Keeps.pair3 (by assumption) ?_
    | (refine ⟨fun p hp => ?_, ?_, ?_⟩; rotate_left; (first | exact fun hr => hr | exact h.regs); (first | exact fun _ => Grows.refl _ | exact h.adds); cases p <;> first | exact absurd (by decide) hp | apply Eq.refl | apply h.same _ hp)
    | intro _
    | (dsimp only)
    | with_reducible refine Keeps.step (keeps_pth ..) (by decide) ?_)

theorem Dev.calAccept_keeps (d : Dev) (a1 : Entry) (a2 : List (Int × Int)) : Keeps [.merge, .hst, .cal] d (Dev.calAccept d a1 a2) := by
  unfold Dev.calAccept
  repeat' (first
    | (extract_lets +onlyGivenNames x; first | (refine Keeps.cut x ?_ ?_; (unfold x; clear x); rotate_left; (clear_value x; revert x; intro _ h)) | (revert x; intro _))
    | with_reducible exact Keeps.refl _ _
    | with_reducible assumption
    | split
    | (with_reducible apply Keeps.step (Dev.pop_keeps ..); · decide)
    | (with_reducible apply Keeps.step (Dev.calDone_keeps ..); · decide)
    | (refine ⟨fun p hp => ?_, ?_, ?_⟩; rotate_left; (first | exact fun hr => hr | exact h.regs); (first | exact fun _ => Grows.refl _ | exact h.adds); cases p <;> first | exact absurd (by decide) hp | apply Eq.refl | apply h.same _ hp))

theorem Dev.calRun_keeps (d : Dev) (a1 : Nat) (a2 : HostRead) : Keeps [.cnt, .merge, .out, .hst, .cal, .log] d (Dev.calRun d a1 a2) := by
  unfold Dev.calRun
  repeat' (first
    | (extract_lets +onlyGivenNames x; first | (refine Keeps.cut x ?_ ?_; (unfold x; clear x); rotate_left; (clear_value x; revert x; intro _ h)) | (revert x; intro _))
    | with_reducible refine Keeps.foldl _ (fun _ _ h => ?_) ?_
    | with_reducible refine Keeps.forRange _ (fun _ _ h => ?_) ?_
    | with_reducible exact Keeps.refl _ _
    | with_reducible assumption
    | split
    | (with_reducible apply Keeps.step (Dev.pop_keeps ..); · decide)
    | (with_reducible apply Keeps.step (Dev.emit_keeps ..); · decide)
    | (with_reducible apply Keeps.step (Dev.calDone_keeps ..); · decide)
    | (with_reducible apply Keeps.step (Dev.bodyFetchErr_keeps ..); · decide)
    | (with_reducible apply Keeps.step (Dev.calAccept_keeps ..); · decide)
    | with_reducible refine Dev.withCal_keeps (by decide) (fun _ _ h => ?_) ?_
    | with_reducible refine Keeps.pairR (by assumption) ?_
    | with_reducible refine Keeps.pairL (by assumption) ?_
    | with_reducible refine Keeps.pair3 (by assumption) ?_
    | (refine ⟨fun p hp => ?_, ?_, ?_⟩; rotate_left; (first | exact fun hr => hr | exact h.regs); (first | exact fun _ => Grows.refl _ | exact h.adds); cases p <;> first | exact absurd (by decide) hp | apply Eq.refl | apply h.same _ hp)
    | intro _
    | (dsimp only))

theorem Dev.gridLoadComplete_keeps (d : Dev) (a1 : Mem) (a2 : HostRead) : Keeps [.cnt, .merge, .freeCount, .hst, .pth, .memc, .log] d (Dev.gridLoadComplete d a1 a2).2 := by
  unfold Dev.gridLoadComplete
  repeat' (first
    | (extract_lets +onlyGivenNames x; first | (refine Keeps.cut x ?_ ?_; (unfold x; clear x); rotate_left; (clear_value x; revert x; intro _ h)) | (revert x; intro _))
    | with_reducible refine Keeps.foldl _ (fun _ _ h => ?_) ?_
    | with_reducible refine Keeps.forRange _ (fun _ _ h => ?_) ?_
    | with_reducible exact Keeps.refl _ _
    | with_reducible assumption
    | split
    | (with_reducible apply Keeps.step (Dev.complete_keeps ..); · decide)
    | (with_reducible apply Keeps.step (Dev.free_keeps ..); · decide)
    | (with_reducible apply Keeps.step (Dev.ringError_keeps ..); · decide)
    | (with_reducible apply Keeps.step (Dev.dramAddrErr_keeps ..); · decide)
    | (with_reducible apply Keeps.step (Dev.dramRead_keeps ..); · decide)
    | with_reducible refine Keeps.forRangeR _ (fun _ _ h => ?_) ?_
    | with_reducible refine Keeps.foldlR _ (fun _ _ h => ?_) ?_
    | with_reducible refine Keeps.iteR ?_ ?_
    | with_reducible refine Keeps.pairR (by assumption) ?_
    | with_reducible refine Keeps.pairL (by assumption) ?_
    | with_reducible refine Keeps.pair3 (by assumption) ?_
    | (refine ⟨fun p hp => ?_, ?_, ?_⟩; rotate_left; (first | exact fun hr => hr | exact h.regs); (first | exact fun _ => Grows.refl _ | exact h.adds); cases p <;> first | exact absurd (by decide) hp | apply Eq.refl | apply h.same _ hp)
    | intro _
    | (dsimp only)
    | with_reducible refine Keeps.step (keeps_pth ..) (by decide) ?_)

theorem Dev.calStart_keeps (d : Dev) : Keeps [.mpm, .cal] d (Dev.calStart d) := by
  unfold Dev.calStart
  repeat' (first
    | with_reducible exact Keeps.refl _ _
    | split
    | (refine ⟨fun p hp => ?_, fun hr => hr, fun _ => Grows.refl _⟩; cases p <;> first | exact absurd (by decide) hp | apply Eq.refl))

/-! ## Cam -/

theorem Dev.sotError_keeps (d : Dev) (a1 : Nat) (a2 : Nat) : Keeps [.merge, .log] d (Dev.sotError d a1 a2) := by
  unfold Dev.sotError
  repeat' (first
    | (extract_lets +onlyGivenNames x; first | (refine Keeps.cut x ?_ ?_; (unfold x; clear x); rotate_left; (clear_value x; revert x; intro _ h)) | (revert x; intro _))
    | with_reducible exact Keeps.refl _ _
    | with_reducible assumption
    | split
    | (with_reducible apply Keeps.step (Dev.raise_keeps ..); · decide))

theorem Dev.updEngine_keeps (d : Dev) (a1 : Nat) (a2 : CamEngine → CamEngine) : Keeps [.cam] d (Dev.updEngine d a1 a2) := by
  unfold Dev.updEngine
  repeat' (first
    | with_reducible exact Keeps.refl _ _
    | (refine ⟨fun p hp => ?_, fun hr => hr, fun _ => Grows.refl _⟩; cases p <;> first | exact absurd (by decide) hp | apply Eq.refl))

theorem Dev.updCport_keeps (d : Dev) (a1 : Nat) (a2 : CamPort → CamPort) : Keeps [.cam] d (Dev.updCport d a1 a2) := by
  unfold Dev.updCport
  repeat' (first
    | with_reducible exact Keeps.refl _ _
    | (refine ⟨fun p hp => ?_, fun hr => hr, fun _ => Grows.refl _⟩; cases p <;> first | exact absurd (by decide) hp | apply Eq.refl))

theorem Dev.updFrame_keeps (d : Dev) (a1 : Nat) (a2 : CamLine) (a3 : CamFrame → CamFrame) : Keeps [.cam] d (Dev.updFrame d a1 a2 a3) := by
  unfold Dev.updFrame
  repeat' (first
    | with_reducible exact Keeps.refl _ _
    | (with_reducible apply Keeps.step (Dev.updCport_keeps ..); · decide)
    | (refine ⟨fun p hp => ?_, fun hr => hr, fun _ => Grows.refl _⟩; cases p <;> first | exact absurd (by decide) hp | apply Eq.refl))

theorem Dev.writeOut_keeps (d : Dev) (a1 : Mem) (a2 : CamFrame) (a3 : Nat) (a4 : List Byte) : Keeps [.merge, .out, .log] d (Dev.writeOut d a1 a2 a3 a4).2 := by
  unfold Dev.writeOut
  repeat' (first
    | (extract_lets +onlyGivenNames x; first | (refine Keeps.cut x ?_ ?_; (unfold x; clear x); rotate_left; (clear_value x; revert x; intro _ h)) | (revert x; intro _))
    | with_reducible refine Keeps.foldl _ (fun _ _ h => ?_) ?_
    | with_reducible refine Keeps.forRange _ (fun _ _ h => ?_) ?_
    | with_reducible exact Keeps.refl _ _
    | with_reducible assumption
    | split
    | (with_reducible apply Keeps.step (Dev.emit_keeps ..); · decide)
    | (with_reducible apply Keeps.step (Dev.dramAddrErr_keeps ..); · decide)
    | with_reducible refine Keeps.forRangeR _ (fun _ _ h => ?_) ?_
    | with_reducible refine Keeps.foldlR _ (fun _ _ h => ?_) ?_
    | with_reducible refine Keeps.iteR ?_ ?_
    | with_reducible refine Keeps.pairR (by assumption) ?_
    | with_reducible refine Keeps.pairL (by assumption) ?_
    | with_reducible refine Keeps.pair3 (by assumption) ?_
    | (refine ⟨fun p hp => ?_, ?_, ?_⟩; rotate_left; (first | exact fun hr => hr | exact h.regs); (first | exact fun _ => Grows.refl _ | exact h.adds); cases p <;> first | exact absurd (by decide) hp | apply Eq.refl | apply h.same _ hp)
    | intro _
    | (dsimp only))

theorem Dev.writeRow_keeps (d : Dev) (a1 : Mem) (a2 : CamFrame) (a3 : Nat) (a4 : List Nat) (a5 : List Nat) : Keeps [.merge, .out, .log] d (Dev.writeRow d a1 a2 a3 a4 a5).2 := by
  unfold Dev.writeRow
  repeat' (first
    | (extract_lets +onlyGivenNames x; first | (refine Keeps.cut x ?_ ?_; (unfold x; clear x); rotate_left; (clear_value x; revert x; intro _ h)) | (revert x; intro _))
    | with_reducible refine Keeps.foldl _ (fun _ _ h => ?_) ?_
    | with_reducible refine Keeps.forRange _ (fun _ _ h => ?_) ?_
    | with_reducible exact Keeps.refl _ _
    | with_reducible assumption
    | split
    | (with_reducible apply Keeps.step (Dev.writeOut_keeps ..); · decide)
    | with_reducible refine Keeps.forRangeR _ (fun _ _ h => ?_) ?_
    | with_reducible refine Keeps.foldlR _ (fun _ _ h => ?_) ?_
    | with_reducible refine Keeps.iteR ?_ ?_
    | with_reducible refine Keeps.pairR (by assumption) ?_
    | with_reducible refine Keeps.pairL (by assumption) ?_
    | with_reducible refine Keeps.pair3 (by assumption) ?_
    | (refine ⟨fun p hp => ?_, ?_, ?_⟩; rotate_left; (first | exact fun hr => hr | exact h.regs); (first | exact fun _ => Grows.refl _ | exact h.adds); cases p <;> first | exact absurd (by decide) hp | apply Eq.refl | apply h.same _ hp)
    | intro _
    | (dsimp only))

theorem Dev.finishLine_keeps (d : Dev) (a1 : Mem) (a2 : Nat) (a3 : Nat) (a4 : CamLine) : Keeps [.merge, .out, .freeCount, .cam, .log] d (Dev.finishLine d a1 a2 a3 a4).2 := by
  unfold Dev.finishLine
  repeat' (first
    | (extract_lets +onlyGivenNames x; first | (refine Keeps.cut x ?_ ?_; (unfold x; clear x); rotate_left; (clear_value x; revert x; intro _ h)) | (revert x; intro _))
    | with_reducible refine Keeps.foldl _ (fun _ _ h => ?_) ?_
    | with_reducible refine Keeps.forRange _ (fun _ _ h => ?_) ?_
    | with_reducible exact Keeps.refl _ _
    | with_reducible assumption
    | split
    | (with_reducible apply Keeps.step (Dev.free_keeps ..); · decide)
    | (with_reducible apply Keeps.step (Dev.updEngine_keeps ..); · decide)
    | (with_reducible apply Keeps.step (Dev.updFrame_keeps ..); · decide)
    | (with_reducible apply Keeps.step (Dev.writeRow_keeps ..); · decide)
    | with_reducible refine Keeps.forRangeR _ (fun _ _ h => ?_) ?_
    | with_reducible refine Keeps.foldlR _ (fun _ _ h => ?_) ?_
    | with_reducible refine Keeps.iteR ?_ ?_
    | with_reducible refine Keeps.pairR (by assumption) ?_
    | with_reducible refine Keeps.pairL (by assumption) ?_
    | with_reducible refine Keeps.pair3 (by assumption) ?_
    | (refine ⟨fun p hp => ?_, ?_, ?_⟩; rotate_left; (first | exact fun hr => hr | exact h.regs); (first | exact fun _ => Grows.refl _ | exact h.adds); cases p <;> first | exact absurd (by decide) hp | apply Eq.refl | apply h.same _ hp)
    | intro _
    | (dsimp only))

theorem Dev.abandonLine_keeps (d : Dev) (a1 : Nat) (a2 : Nat) (a3 : CamLine) : Keeps [.w1c, .cnt, .merge, .cam, .log] d (Dev.abandonLine d a1 a2 a3) := by
  unfold Dev.abandonLine
  repeat' (first
    | with_reducible exact Keeps.refl _ _
    | (with_reducible apply Keeps.step (Dev.updFrame_keeps ..); · decide)
    | (with_reducible apply Keeps.step (Dev.overrun_keeps ..); · decide)
    | (with_reducible apply Keeps.step (Dev.bumpSat_keeps ..); · decide)
    | (refine ⟨fun p hp => ?_, fun hr => hr, fun _ => Grows.refl _⟩; cases p <;> first | exact absurd (by decide) hp | apply Eq.refl))

theorem Dev.engineLine_keeps (d : Dev) (a1 : Mem) (a2 : Nat) (a3 : EccRead) : Keeps [.w1c, .cnt, .merge, .out, .freeCount, .cam, .memc, .log] d (Dev.engineLine d a1 a2 a3).2 := by
  unfold Dev.engineLine
  repeat' (first
    | (extract_lets +onlyGivenNames x; first | (refine Keeps.cut x ?_ ?_; (unfold x; clear x); rotate_left; (clear_value x; revert x; intro _ h)) | (revert x; intro _))
    | with_reducible refine Keeps.foldl _ (fun _ _ h => ?_) ?_
    | with_reducible refine Keeps.forRange _ (fun _ _ h => ?_) ?_
    | with_reducible exact Keeps.refl _ _
    | with_reducible assumption
    | split
    | (with_reducible apply Keeps.step (Dev.bump_keeps ..); · decide)
    | (with_reducible apply Keeps.step (Dev.free_keeps ..); · decide)
    | (with_reducible apply Keeps.step (Dev.sramRead_keeps ..); · decide)
    | (with_reducible apply Keeps.step (Dev.updEngine_keeps ..); · decide)
    | (with_reducible apply Keeps.step (Dev.updCport_keeps ..); · decide)
    | (with_reducible apply Keeps.step (Dev.finishLine_keeps ..); · decide)
    | (with_reducible apply Keeps.step (Dev.abandonLine_keeps ..); · decide)
    | with_reducible refine Keeps.forRangeR _ (fun _ _ h => ?_) ?_
    | with_reducible refine Keeps.foldlR _ (fun _ _ h => ?_) ?_
    | with_reducible refine Keeps.iteR ?_ ?_
    | with_reducible refine Keeps.pairR (by assumption) ?_
    | with_reducible refine Keeps.pairL (by assumption) ?_
    | with_reducible refine Keeps.pair3 (by assumption) ?_
    | (refine ⟨fun p hp => ?_, ?_, ?_⟩; rotate_left; (first | exact fun hr => hr | exact h.regs); (first | exact fun _ => Grows.refl _ | exact h.adds); cases p <;> first | exact absurd (by decide) hp | apply Eq.refl | apply h.same _ hp)
    | intro _
    | (dsimp only))

theorem Dev.openFrame_keeps (d : Dev) (a1 : Nat) (a2 : Nat) (a3 : Entry) : Keeps [.cam] d (Dev.openFrame d a1 a2 a3) := by
  unfold Dev.openFrame
  repeat' (first
    | with_reducible exact Keeps.refl _ _
    | (with_reducible apply Keeps.step (Dev.updCport_keeps ..); · decide)
    | (refine ⟨fun p hp => ?_, fun hr => hr, fun _ => Grows.refl _⟩; cases p <;> first | exact absurd (by decide) hp | apply Eq.refl))

theorem Dev.startFrame_keeps (d : Dev) (a1 : Nat) (a2 : Nat) : Keeps [.cnt, .cam] d (Dev.startFrame d a1 a2) := by
  unfold Dev.startFrame
  repeat' (first
    | (extract_lets +onlyGivenNames x; first | (refine Keeps.cut x ?_ ?_; (unfold x; clear x); rotate_left; (clear_value x; revert x; intro _ h)) | (revert x; intro _))
    | with_reducible exact Keeps.refl _ _
    | with_reducible assumption
    | split
    | (with_reducible apply Keeps.step (Dev.bump_keeps ..); · decide)
    | (with_reducible apply Keeps.step (Dev.updCport_keeps ..); · decide)
    | (with_reducible apply Keeps.step (Dev.openFrame_keeps ..); · decide))

theorem Dev.camDone_keeps (d : Dev) (a1 : Nat) (a2 : Entry) (a3 : Nat) (a4 : W64) : Keeps [.merge, .hst] d (Dev.camDone d a1 a2 a3 a4) := by
  unfold Dev.camDone
  repeat' (first
    | with_reducible exact Keeps.refl _ _
    | (with_reducible apply Keeps.step (Dev.complete_keeps ..); · decide)
    | (refine ⟨fun p hp => ?_, fun hr => hr, fun _ => Grows.refl _⟩; cases p <;> first | exact absurd (by decide) hp | apply Eq.refl))

theorem Dev.countFrame_keeps (d : Dev) (a1 : Nat) : Keeps [.cam] d (Dev.countFrame d a1) := by
  unfold Dev.countFrame
  repeat' (first
    | with_reducible exact Keeps.refl _ _
    | (with_reducible apply Keeps.step (Dev.updCport_keeps ..); · decide)
    | (refine ⟨fun p hp => ?_, fun hr => hr, fun _ => Grows.refl _⟩; cases p <;> first | exact absurd (by decide) hp | apply Eq.refl))

theorem Dev.flagFrame_keeps (d : Dev) (a1 : Nat) (a2 : Nat) (a3 : Nat) (a4 : Nat) (a5 : Nat) : Keeps [.merge, .cam, .log] d (Dev.flagFrame d a1 a2 a3 a4 a5) := by
  unfold Dev.flagFrame
  repeat' (first
    | with_reducible exact Keeps.refl _ _
    | split
    | (with_reducible apply Keeps.step (Dev.raise_keeps ..); · decide)
    | (with_reducible apply Keeps.step (Dev.updCport_keeps ..); · decide))

theorem Dev.closeFrame_keeps (d : Dev) (a1 : Nat) (a2 : List (Entry × Nat × W64)) : Keeps [.cnt, .cam] d (Dev.closeFrame d a1 a2) := by
  unfold Dev.closeFrame
  repeat' (first
    | with_reducible exact Keeps.refl _ _
    | split
    | (with_reducible apply Keeps.step (Dev.bump_keeps ..); · decide)
    | (with_reducible apply Keeps.step (Dev.updCport_keeps ..); · decide))

theorem Dev.stopCapture_keeps (d : Dev) (a1 : Nat) (a2 : CamState) (a3 : List (Entry × Nat × W64)) : Keeps [.cnt, .merge, .hst, .cam, .log] d (Dev.stopCapture d a1 a2 a3) := by
  unfold Dev.stopCapture
  repeat' (first
    | (extract_lets +onlyGivenNames x; first | (refine Keeps.cut x ?_ ?_; (unfold x; clear x); rotate_left; (clear_value x; revert x; intro _ h)) | (revert x; intro _))
    | with_reducible refine Keeps.foldl _ (fun _ _ h => ?_) ?_
    | with_reducible refine Keeps.forRange _ (fun _ _ h => ?_) ?_
    | with_reducible exact Keeps.refl _ _
    | with_reducible assumption
    | split
    | (with_reducible apply Keeps.step (Dev.updCport_keeps ..); · decide)
    | (with_reducible apply Keeps.step (Dev.camDone_keeps ..); · decide)
    | (with_reducible apply Keeps.step (Dev.countFrame_keeps ..); · decide)
    | (with_reducible apply Keeps.step (Dev.flagFrame_keeps ..); · decide)
    | (with_reducible apply Keeps.step (Dev.closeFrame_keeps ..); · decide)
    | (refine ⟨fun p hp => ?_, ?_, ?_⟩; rotate_left; (first | exact fun hr => hr | exact h.regs); (first | exact fun _ => Grows.refl _ | exact h.adds); cases p <;> first | exact absurd (by decide) hp | apply Eq.refl | apply h.same _ hp))

theorem Dev.writeCamCfg_keeps (d : Dev) (a1 : Nat) (a2 : W64) : Keeps [.rw, .shadow, .w1c, .cnt, .merge, .hst, .cam, .log] d (Dev.writeCamCfg d a1 a2) := by
  unfold Dev.writeCamCfg
  repeat' (first
    | (extract_lets +onlyGivenNames x; first | (refine Keeps.cut x ?_ ?_; (unfold x; clear x); rotate_left; (clear_value x; revert x; intro _ h)) | (revert x; intro _))
    | with_reducible exact Keeps.refl _ _
    | with_reducible assumption
    | split
    | (with_reducible apply Keeps.step (Dev.refuse_keeps ..); · decide)
    | (with_reducible apply Keeps.step (Dev.store_keeps ..); · decide)
    | (with_reducible apply Keeps.step (Dev.updCport_keeps ..); · decide)
    | (with_reducible apply Keeps.step (Dev.stopCapture_keeps ..); · decide))

theorem Dev.writeCam_keeps (d : Dev) (a1 : RegDef) (a2 : W64) (a3 : Nat) (a4 : Nat) : Keeps [.rw, .shadow, .w1c, .cnt, .merge, .hst, .cam, .log] d (Dev.writeCam d a1 a2 a3 a4) := by
  unfold Dev.writeCam
  repeat' (first
    | with_reducible exact Keeps.refl _ _
    | split
    | (with_reducible apply Keeps.step (Dev.storeIf_keeps ..); · decide)
    | (with_reducible apply Keeps.step (Dev.writeCamCfg_keeps ..); · decide))

theorem Dev.holdTimeout_keeps (d : Dev) (a1 : Nat) : Keeps [.w1c, .cnt, .merge, .cam, .log] d (Dev.holdTimeout d a1) := by
  unfold Dev.holdTimeout
  repeat' (first
    | with_reducible exact Keeps.refl _ _
    | split
    | (with_reducible apply Keeps.step (Dev.updEngine_keeps ..); · decide)
    | (with_reducible apply Keeps.step (Dev.abandonLine_keeps ..); · decide))

theorem Dev.takeHeader_keeps (d : Dev) (a1 : Nat) (a2 : HdrEcc) : Keeps [.cnt, .merge, .cam, .log] d (Dev.takeHeader d a1 a2).1 := by
  unfold Dev.takeHeader
  repeat' (first
    | (extract_lets +onlyGivenNames x; first | (refine Keeps.cut x ?_ ?_; (unfold x; clear x); rotate_left; (clear_value x; revert x; intro _ h)) | (revert x; intro _))
    | with_reducible refine Keeps.foldl _ (fun _ _ h => ?_) ?_
    | with_reducible refine Keeps.forRange _ (fun _ _ h => ?_) ?_
    | with_reducible exact Keeps.refl _ _
    | with_reducible assumption
    | split
    | (with_reducible apply Keeps.step (Dev.bumpSat_keeps ..); · decide)
    | (with_reducible apply Keeps.step (Dev.flagFrame_keeps ..); · decide)
    | with_reducible refine Keeps.iteL ?_ ?_
    | with_reducible refine Keeps.pairR (by assumption) ?_
    | with_reducible refine Keeps.pairL (by assumption) ?_
    | with_reducible refine Keeps.pair3 (by assumption) ?_
    | (refine ⟨fun p hp => ?_, ?_, ?_⟩; rotate_left; (first | exact fun hr => hr | exact h.regs); (first | exact fun _ => Grows.refl _ | exact h.adds); cases p <;> first | exact absurd (by decide) hp | apply Eq.refl | apply h.same _ hp)
    | intro _
    | (dsimp only))

theorem Dev.capReject_keeps (d : Dev) (a1 : Entry) (a2 : Nat) (a3 : Nat) : Keeps [.merge, .hst] d (Dev.capReject d a1 a2 a3) := by
  unfold Dev.capReject
  repeat' (first
    | with_reducible exact Keeps.refl _ _
    | (with_reducible apply Keeps.step (Dev.complete_keeps ..); · decide)
    | (with_reducible apply Keeps.step (Dev.pop_keeps ..); · decide)
    | (refine ⟨fun p hp => ?_, fun hr => hr, fun _ => Grows.refl _⟩; cases p <;> first | exact absurd (by decide) hp | apply Eq.refl))

theorem Dev.capStop_keeps (d : Dev) (a1 : Nat) : Keeps [.cnt, .merge, .hst, .cam, .log] d (Dev.capStop d a1) := by
  unfold Dev.capStop
  repeat' (first
    | (extract_lets +onlyGivenNames x; first | (refine Keeps.cut x ?_ ?_; (unfold x; clear x); rotate_left; (clear_value x; revert x; intro _ h)) | (revert x; intro _))
    | with_reducible refine Keeps.foldl _ (fun _ _ h => ?_) ?_
    | with_reducible refine Keeps.forRange _ (fun _ _ h => ?_) ?_
    | with_reducible exact Keeps.refl _ _
    | with_reducible assumption
    | split
    | (with_reducible apply Keeps.step (Dev.pop_keeps ..); · decide)
    | (with_reducible apply Keeps.step (Dev.stopCapture_keeps ..); · decide)
    | (with_reducible apply Keeps.step (Dev.capReject_keeps ..); · decide)
    | with_reducible refine Dev.withCapture_keeps (by decide) (fun _ _ _ h => ?_) ?_
    | with_reducible refine Keeps.pairR (by assumption) ?_
    | with_reducible refine Keeps.pairL (by assumption) ?_
    | with_reducible refine Keeps.pair3 (by assumption) ?_
    | (refine ⟨fun p hp => ?_, ?_, ?_⟩; rotate_left; (first | exact fun hr => hr | exact h.regs); (first | exact fun _ => Grows.refl _ | exact h.adds); cases p <;> first | exact absurd (by decide) hp | apply Eq.refl | apply h.same _ hp)
    | intro _
    | (dsimp only))

theorem Dev.endFrame_keeps (d : Dev) (a1 : Nat) : Keeps [.cnt, .merge, .hst, .cam, .log] d (Dev.endFrame d a1) := by
  unfold Dev.endFrame
  repeat' (first
    | (extract_lets +onlyGivenNames x; first | (refine Keeps.cut x ?_ ?_; (unfold x; clear x); rotate_left; (clear_value x; revert x; intro _ h)) | (revert x; intro _))
    | with_reducible exact Keeps.refl _ _
    | with_reducible assumption
    | split
    | (with_reducible apply Keeps.step (Dev.updCport_keeps ..); · decide)
    | (with_reducible apply Keeps.step (Dev.camDone_keeps ..); · decide)
    | (with_reducible apply Keeps.step (Dev.countFrame_keeps ..); · decide)
    | (with_reducible apply Keeps.step (Dev.flagFrame_keeps ..); · decide)
    | (with_reducible apply Keeps.step (Dev.closeFrame_keeps ..); · decide))

theorem Dev.frameStart_keeps (d : Dev) (a1 : Nat) (a2 : Nat) (a3 : Nat) (a4 : HdrEcc) : Keeps [.cnt, .merge, .hst, .cam, .log] d (Dev.frameStart d a1 a2 a3 a4) := by
  unfold Dev.frameStart
  repeat' (first
    | (extract_lets +onlyGivenNames x; first | (refine Keeps.cut x ?_ ?_; (unfold x; clear x); rotate_left; (clear_value x; revert x; intro _ h)) | (revert x; intro _))
    | with_reducible refine Keeps.foldl _ (fun _ _ h => ?_) ?_
    | with_reducible refine Keeps.forRange _ (fun _ _ h => ?_) ?_
    | with_reducible exact Keeps.refl _ _
    | with_reducible assumption
    | split
    | (with_reducible apply Keeps.step (Dev.bumpSat_keeps ..); · decide)
    | (with_reducible apply Keeps.step (Dev.startFrame_keeps ..); · decide)
    | (with_reducible apply Keeps.step (Dev.flagFrame_keeps ..); · decide)
    | (with_reducible apply Keeps.step (Dev.takeHeader_keeps ..); · decide)
    | (with_reducible apply Keeps.step (Dev.endFrame_keeps ..); · decide)
    | with_reducible refine Keeps.pairR (by assumption) ?_
    | with_reducible refine Keeps.pairL (by assumption) ?_
    | with_reducible refine Keeps.pair3 (by assumption) ?_
    | (refine ⟨fun p hp => ?_, ?_, ?_⟩; rotate_left; (first | exact fun hr => hr | exact h.regs); (first | exact fun _ => Grows.refl _ | exact h.adds); cases p <;> first | exact absurd (by decide) hp | apply Eq.refl | apply h.same _ hp)
    | intro _
    | (dsimp only))

theorem Dev.writeFrame_keeps (d : Dev) (a1 : Mem) (a2 : Nat) (a3 : CamFrame) : Keeps [.merge, .out, .freeCount, .log] d (Dev.writeFrame d a1 a2 a3).2 := by
  unfold Dev.writeFrame
  repeat' (first
    | (extract_lets +onlyGivenNames x; first | (refine Keeps.cut x ?_ ?_; (unfold x; clear x); rotate_left; (clear_value x; revert x; intro _ h)) | (revert x; intro _))
    | with_reducible refine Keeps.foldl _ (fun _ _ h => ?_) ?_
    | with_reducible refine Keeps.forRange _ (fun _ _ h => ?_) ?_
    | with_reducible exact Keeps.refl _ _
    | with_reducible assumption
    | split
    | (with_reducible apply Keeps.step (Dev.free_keeps ..); · decide)
    | (with_reducible apply Keeps.step (Dev.writeOut_keeps ..); · decide)
    | (with_reducible apply Keeps.step (Dev.writeRow_keeps ..); · decide)
    | with_reducible refine Keeps.forRangeR _ (fun _ _ h => ?_) ?_
    | with_reducible refine Keeps.foldlR _ (fun _ _ h => ?_) ?_
    | with_reducible refine Keeps.iteR ?_ ?_
    | with_reducible refine Keeps.pairR (by assumption) ?_
    | with_reducible refine Keeps.pairL (by assumption) ?_
    | with_reducible refine Keeps.pair3 (by assumption) ?_
    | (refine ⟨fun p hp => ?_, ?_, ?_⟩; rotate_left; (first | exact fun hr => hr | exact h.regs); (first | exact fun _ => Grows.refl _ | exact h.adds); cases p <;> first | exact absurd (by decide) hp | apply Eq.refl | apply h.same _ hp)
    | intro _
    | (dsimp only))

theorem Dev.featWords_keeps (d : Dev) (a1 : CamFrame) : Keeps [.freeCount] d (Dev.featWords d a1).2 := by
  unfold Dev.featWords
  repeat' (first
    | (extract_lets +onlyGivenNames x; first | (refine Keeps.cut x ?_ ?_; (unfold x; clear x); rotate_left; (clear_value x; revert x; intro _ h)) | (revert x; intro _))
    | with_reducible refine Keeps.foldl _ (fun _ _ h => ?_) ?_
    | with_reducible refine Keeps.forRange _ (fun _ _ h => ?_) ?_
    | with_reducible exact Keeps.refl _ _
    | with_reducible assumption
    | split
    | (with_reducible apply Keeps.step (Dev.free_keeps ..); · decide)
    | with_reducible refine Keeps.forRangeR _ (fun _ _ h => ?_) ?_
    | with_reducible refine Keeps.foldlR _ (fun _ _ h => ?_) ?_
    | with_reducible refine Keeps.iteR ?_ ?_
    | with_reducible refine Keeps.pairR (by assumption) ?_
    | with_reducible refine Keeps.pairL (by assumption) ?_
    | with_reducible refine Keeps.pair3 (by assumption) ?_
    | (refine ⟨fun p hp => ?_, ?_, ?_⟩; rotate_left; (first | exact fun hr => hr | exact h.regs); (first | exact fun _ => Grows.refl _ | exact h.adds); cases p <;> first | exact absurd (by decide) hp | apply Eq.refl | apply h.same _ hp)
    | intro _
    | (dsimp only))

theorem Dev.frameRecords_keeps (d : Dev) (a1 : Nat) (a2 : CamFrame) : Keeps [.merge, .freeCount] d (Dev.frameRecords d a1 a2) := by
  unfold Dev.frameRecords
  repeat' (first
    | with_reducible exact Keeps.refl _ _
    | split
    | (with_reducible apply Keeps.step (Dev.record_keeps ..); · decide)
    | (with_reducible apply Keeps.step (Dev.featWords_keeps ..); · decide))

theorem Dev.frameWriteout_keeps (d : Dev) (a1 : Mem) (a2 : Nat) : Keeps [.merge, .out, .freeCount, .hst, .cam, .log] d (Dev.frameWriteout d a1 a2).2 := by
  unfold Dev.frameWriteout
  repeat' (first
    | (extract_lets +onlyGivenNames x; first | (refine Keeps.cut x ?_ ?_; (unfold x; clear x); rotate_left; (clear_value x; revert x; intro _ h)) | (revert x; intro _))
    | with_reducible refine Keeps.foldl _ (fun _ _ h => ?_) ?_
    | with_reducible refine Keeps.forRange _ (fun _ _ h => ?_) ?_
    | with_reducible exact Keeps.refl _ _
    | with_reducible assumption
    | split
    | (with_reducible apply Keeps.step (Dev.updCport_keeps ..); · decide)
    | (with_reducible apply Keeps.step (Dev.camDone_keeps ..); · decide)
    | (with_reducible apply Keeps.step (Dev.writeFrame_keeps ..); · decide)
    | (with_reducible apply Keeps.step (Dev.frameRecords_keeps ..); · decide)
    | with_reducible refine Keeps.forRangeR _ (fun _ _ h => ?_) ?_
    | with_reducible refine Keeps.foldlR _ (fun _ _ h => ?_) ?_
    | with_reducible refine Keeps.iteR ?_ ?_
    | with_reducible refine Keeps.pairR (by assumption) ?_
    | with_reducible refine Keeps.pairL (by assumption) ?_
    | with_reducible refine Keeps.pair3 (by assumption) ?_
    | (refine ⟨fun p hp => ?_, ?_, ?_⟩; rotate_left; (first | exact fun hr => hr | exact h.regs); (first | exact fun _ => Grows.refl _ | exact h.adds); cases p <;> first | exact absurd (by decide) hp | apply Eq.refl | apply h.same _ hp)
    | intro _
    | (dsimp only))

theorem Dev.syncErr_keeps (d : Dev) (a1 : Nat) : Keeps [.merge, .cam, .log] d (Dev.syncErr d a1) := by
  unfold Dev.syncErr
  repeat' (first
    | (extract_lets +onlyGivenNames x; first | (refine Keeps.cut x ?_ ?_; (unfold x; clear x); rotate_left; (clear_value x; revert x; intro _ h)) | (revert x; intro _))
    | with_reducible exact Keeps.refl _ _
    | with_reducible assumption
    | split
    | (with_reducible apply Keeps.step (Dev.raise_keeps ..); · decide)
    | (with_reducible apply Keeps.step (Dev.updCport_keeps ..); · decide))

theorem Dev.frameEnd_keeps (d : Dev) (a1 : Nat) (a2 : Nat) (a3 : HdrEcc) : Keeps [.cnt, .merge, .hst, .cam, .log] d (Dev.frameEnd d a1 a2 a3) := by
  unfold Dev.frameEnd
  repeat' (first
    | (extract_lets +onlyGivenNames x; first | (refine Keeps.cut x ?_ ?_; (unfold x; clear x); rotate_left; (clear_value x; revert x; intro _ h)) | (revert x; intro _))
    | with_reducible refine Keeps.foldl _ (fun _ _ h => ?_) ?_
    | with_reducible refine Keeps.forRange _ (fun _ _ h => ?_) ?_
    | with_reducible exact Keeps.refl _ _
    | with_reducible assumption
    | split
    | (with_reducible apply Keeps.step (Dev.updCport_keeps ..); · decide)
    | (with_reducible apply Keeps.step (Dev.bumpSat_keeps ..); · decide)
    | (with_reducible apply Keeps.step (Dev.takeHeader_keeps ..); · decide)
    | (with_reducible apply Keeps.step (Dev.endFrame_keeps ..); · decide)
    | (with_reducible apply Keeps.step (Dev.syncErr_keeps ..); · decide)
    | with_reducible refine Keeps.pairR (by assumption) ?_
    | with_reducible refine Keeps.pairL (by assumption) ?_
    | with_reducible refine Keeps.pair3 (by assumption) ?_
    | (refine ⟨fun p hp => ?_, ?_, ?_⟩; rotate_left; (first | exact fun hr => hr | exact h.regs); (first | exact fun _ => Grows.refl _ | exact h.adds); cases p <;> first | exact absurd (by decide) hp | apply Eq.refl | apply h.same _ hp)
    | intro _
    | (dsimp only))

theorem Dev.capArm_keeps (d : Dev) (a1 : Nat) : Keeps [.merge, .hst, .cam] d (Dev.capArm d a1) := by
  unfold Dev.capArm
  repeat' (first
    | (extract_lets +onlyGivenNames x; first | (refine Keeps.cut x ?_ ?_; (unfold x; clear x); rotate_left; (clear_value x; revert x; intro _ h)) | (revert x; intro _))
    | with_reducible refine Keeps.foldl _ (fun _ _ h => ?_) ?_
    | with_reducible refine Keeps.forRange _ (fun _ _ h => ?_) ?_
    | with_reducible exact Keeps.refl _ _
    | with_reducible assumption
    | split
    | (with_reducible apply Keeps.step (Dev.pop_keeps ..); · decide)
    | (with_reducible apply Keeps.step (Dev.updCport_keeps ..); · decide)
    | (with_reducible apply Keeps.step (Dev.capReject_keeps ..); · decide)
    | with_reducible refine Dev.withCapture_keeps (by decide) (fun _ _ _ h => ?_) ?_
    | with_reducible refine Keeps.pairR (by assumption) ?_
    | with_reducible refine Keeps.pairL (by assumption) ?_
    | with_reducible refine Keeps.pair3 (by assumption) ?_
    | (refine ⟨fun p hp => ?_, ?_, ?_⟩; rotate_left; (first | exact fun hr => hr | exact h.regs); (first | exact fun _ => Grows.refl _ | exact h.adds); cases p <;> first | exact absurd (by decide) hp | apply Eq.refl | apply h.same _ hp)
    | intro _
    | (dsimp only))

theorem Dev.tableLoad_keeps (d : Dev) (a1 : Nat) (a2 : HostRead) : Keeps [.cnt, .merge, .out, .hst, .cam, .log] d (Dev.tableLoad d a1 a2) := by
  unfold Dev.tableLoad
  repeat' (first
    | (extract_lets +onlyGivenNames x; first | (refine Keeps.cut x ?_ ?_; (unfold x; clear x); rotate_left; (clear_value x; revert x; intro _ h)) | (refine Keeps.hold (x : RegFile) ?_; revert x; intro _) | (refine Keeps.hold (x : Stream) ?_; revert x; intro _) | (refine Keeps.hold (x : Mgt) ?_; revert x; intro _) | (clear_value x; revert x; intro _))
    | with_reducible refine Keeps.foldl _ (fun _ _ h => ?_) ?_
    | with_reducible refine Keeps.forRange _ (fun _ _ h => ?_) ?_
    | with_reducible exact Keeps.refl _ _
    | with_reducible assumption
    | split
    | (with_reducible apply Keeps.step (Dev.pop_keeps ..); · decide)
    | (with_reducible apply Keeps.step (Dev.emit_keeps ..); · decide)
    | (with_reducible apply Keeps.step (Dev.bodyFetchErr_keeps ..); · decide)
    | (with_reducible apply Keeps.step (Dev.updCport_keeps ..); · decide)
    | (with_reducible apply Keeps.step (Dev.capReject_keeps ..); · decide)
    | with_reducible refine Dev.withCapture_keeps (by decide) (fun _ _ _ h => ?_) ?_
    | with_reducible refine Keeps.pairR (by assumption) ?_
    | with_reducible refine Keeps.pairL (by assumption) ?_
    | with_reducible refine Keeps.pair3 (by assumption) ?_
    | (refine ⟨fun p hp => ?_, ?_, ?_⟩; rotate_left; (first | exact fun hr => hr | exact h.regs); (first | exact fun _ => Grows.refl _ | exact h.adds); cases p <;> first | exact absurd (by decide) hp | apply Eq.refl | apply h.same _ hp)
    | intro _
    | (dsimp only))

theorem Dev.frameTimeout_keeps (d : Dev) (a1 : Nat) : Keeps [.cnt, .merge, .hst, .cam, .log] d (Dev.frameTimeout d a1) := by
  unfold Dev.frameTimeout
  repeat' (first
    | (extract_lets +onlyGivenNames x; first | (refine Keeps.cut x ?_ ?_; (unfold x; clear x); rotate_left; (clear_value x; revert x; intro _ h)) | (revert x; intro _))
    | with_reducible exact Keeps.refl _ _
    | with_reducible assumption
    | split
    | (with_reducible apply Keeps.step (Dev.flagFrame_keeps ..); · decide)
    | (with_reducible apply Keeps.step (Dev.endFrame_keeps ..); · decide))

theorem Dev.notePeak_keeps (d : Dev) (a1 : Nat) : Keeps [.cnt] d (Dev.notePeak d a1) := by
  unfold Dev.notePeak
  repeat' (first
    | with_reducible exact Keeps.refl _ _
    | (with_reducible apply Keeps.step (Dev.peak_keeps ..); · decide)
    | (refine ⟨fun p hp => ?_, fun hr => hr, fun _ => Grows.refl _⟩; cases p <;> first | exact absurd (by decide) hp | apply Eq.refl))

theorem Dev.takeLine_keeps (d : Dev) (a1 : Nat) (a2 : CamFrame) (a3 : List Nat) (a4 : Bool) : Keeps [.cnt, .merge, .cam, .log] d (Dev.takeLine d a1 a2 a3 a4) := by
  unfold Dev.takeLine
  repeat' (first
    | (extract_lets +onlyGivenNames x; first | (refine Keeps.cut x ?_ ?_; (unfold x; clear x); rotate_left; (clear_value x; revert x; intro _ h)) | (revert x; intro _))
    | with_reducible exact Keeps.refl _ _
    | with_reducible assumption
    | split
    | (with_reducible apply Keeps.step (Dev.updCport_keeps ..); · decide)
    | (with_reducible apply Keeps.step (Dev.bumpSat_keeps ..); · decide)
    | (with_reducible apply Keeps.step (Dev.flagFrame_keeps ..); · decide)
    | (with_reducible apply Keeps.step (Dev.notePeak_keeps ..); · decide))

theorem Dev.longPacket_keeps (d : Dev) (a1 : Nat) (a2 : Nat) (a3 : Nat) (a4 : List Nat) (a5 : Bool) (a6 : HdrEcc) : Keeps [.cnt, .merge, .cam, .log] d (Dev.longPacket d a1 a2 a3 a4 a5 a6) := by
  unfold Dev.longPacket
  repeat' (first
    | (extract_lets +onlyGivenNames x; first | (refine Keeps.cut x ?_ ?_; (unfold x; clear x); rotate_left; (clear_value x; revert x; intro _ h)) | (revert x; intro _))
    | with_reducible refine Keeps.foldl _ (fun _ _ h => ?_) ?_
    | with_reducible refine Keeps.forRange _ (fun _ _ h => ?_) ?_
    | with_reducible exact Keeps.refl _ _
    | with_reducible assumption
    | split
    | (with_reducible apply Keeps.step (Dev.bumpSat_keeps ..); · decide)
    | (with_reducible apply Keeps.step (Dev.takeHeader_keeps ..); · decide)
    | (with_reducible apply Keeps.step (Dev.syncErr_keeps ..); · decide)
    | (with_reducible apply Keeps.step (Dev.takeLine_keeps ..); · decide)
    | with_reducible refine Keeps.pairR (by assumption) ?_
    | with_reducible refine Keeps.pairL (by assumption) ?_
    | with_reducible refine Keeps.pair3 (by assumption) ?_
    | (refine ⟨fun p hp => ?_, ?_, ?_⟩; rotate_left; (first | exact fun hr => hr | exact h.regs); (first | exact fun _ => Grows.refl _ | exact h.adds); cases p <;> first | exact absurd (by decide) hp | apply Eq.refl | apply h.same _ hp)
    | intro _
    | (dsimp only))

/-! ## Cdc -/

theorem Dev.codecDone_keeps (d : Dev) (a1 : Entry) (a2 : CodecResult) : Keeps [.cnt, .merge, .hst] d (Dev.codecDone d a1 a2) := by
  unfold Dev.codecDone
  repeat' (first
    | with_reducible exact Keeps.refl _ _
    | split
    | (with_reducible apply Keeps.step (Dev.bump_keeps ..); · decide)
    | (with_reducible apply Keeps.step (Dev.complete_keeps ..); · decide))

theorem Dev.codecReject_keeps (d : Dev) (a1 : Entry) (a2 : Nat) : Keeps [.cnt, .merge, .hst] d (Dev.codecReject d a1 a2) := by
  unfold Dev.codecReject
  repeat' (first
    | with_reducible exact Keeps.refl _ _
    | (with_reducible apply Keeps.step (Dev.codecDone_keeps ..); · decide)
    | (refine ⟨fun p hp => ?_, fun hr => hr, fun _ => Grows.refl _⟩; cases p <;> first | exact absurd (by decide) hp | apply Eq.refl))

theorem Dev.codecEdge_keeps (a0 : RegFile) (d : Dev) : Keeps [.cnt, .merge, .freeCount, .hst, .cdc] d (Dev.codecEdge a0 d) := by
  unfold Dev.codecEdge
  repeat' (first
    | (extract_lets +onlyGivenNames x; first | (refine Keeps.cut x ?_ ?_; (unfold x; clear x); rotate_left; (clear_value x; revert x; intro _ h)) | (revert x; intro _))
    | with_reducible refine Keeps.foldl _ (fun _ _ h => ?_) ?_
    | with_reducible refine Keeps.forRange _ (fun _ _ h => ?_) ?_
    | with_reducible exact Keeps.refl _ _
    | with_reducible assumption
    | split
    | (with_reducible apply Keeps.step (Dev.pop_keeps ..); · decide)
    | (with_reducible apply Keeps.step (Dev.free_keeps ..); · decide)
    | (with_reducible apply Keeps.step (Dev.codecReject_keeps ..); · decide)
    | with_reducible refine Keeps.pairR (by assumption) ?_
    | with_reducible refine Keeps.pairL (by assumption) ?_
    | with_reducible refine Keeps.pair3 (by assumption) ?_
    | (refine ⟨fun p hp => ?_, ?_, ?_⟩; rotate_left; (first | exact fun hr => hr | exact h.regs); (first | exact fun _ => Grows.refl _ | exact h.adds); cases p <;> first | exact absurd (by decide) hp | apply Eq.refl | apply h.same _ hp)
    | intro _
    | (dsimp only)
    | with_reducible refine Keeps.step (keeps_cdc ..) (by decide) ?_)

theorem Dev.codecWrite_keeps (d : Dev) (a1 : Mem) (a2 : Nat) (a3 : Nat) (a4 : List Byte) : Keeps [.merge, .out, .log] d (Dev.codecWrite d a1 a2 a3 a4).2.1 := by
  unfold Dev.codecWrite
  repeat' (first
    | (extract_lets +onlyGivenNames x; first | (refine Keeps.cut x ?_ ?_; (unfold x; clear x); rotate_left; (clear_value x; revert x; intro _ h)) | (revert x; intro _))
    | with_reducible refine Keeps.foldl _ (fun _ _ h => ?_) ?_
    | with_reducible refine Keeps.forRange _ (fun _ _ h => ?_) ?_
    | with_reducible exact Keeps.refl _ _
    | with_reducible assumption
    | split
    | (with_reducible apply Keeps.step (Dev.emit_keeps ..); · decide)
    | (with_reducible apply Keeps.step (Dev.dramAddrErr_keeps ..); · decide)
    | with_reducible refine Keeps.pairR (by assumption) ?_
    | with_reducible refine Keeps.pairL (by assumption) ?_
    | with_reducible refine Keeps.pair3 (by assumption) ?_
    | (refine ⟨fun p hp => ?_, ?_, ?_⟩; rotate_left; (first | exact fun hr => hr | exact h.regs); (first | exact fun _ => Grows.refl _ | exact h.adds); cases p <;> first | exact absurd (by decide) hp | apply Eq.refl | apply h.same _ hp)
    | intro _
    | (dsimp only))

theorem Dev.codecRead_keeps (d : Dev) (a1 : Mem) (a2 : Nat) (a3 : Nat) (a4 : Nat) (a5 : HostRead) : Keeps [.cnt, .merge, .memc, .log] d (Dev.codecRead d a1 a2 a3 a4 a5).1 := by
  unfold Dev.codecRead
  repeat' (first
    | (extract_lets +onlyGivenNames x; first | (refine Keeps.cut x ?_ ?_; (unfold x; clear x); rotate_left; (clear_value x; revert x; intro _ h)) | (revert x; intro _))
    | with_reducible refine Keeps.foldl _ (fun _ _ h => ?_) ?_
    | with_reducible refine Keeps.forRange _ (fun _ _ h => ?_) ?_
    | with_reducible exact Keeps.refl _ _
    | with_reducible assumption
    | split
    | (with_reducible apply Keeps.step (Dev.dramAddrErr_keeps ..); · decide)
    | (with_reducible apply Keeps.step (Dev.dramRead_keeps ..); · decide)
    | with_reducible refine Keeps.iteL ?_ ?_
    | with_reducible refine Keeps.pairR (by assumption) ?_
    | with_reducible refine Keeps.pairL (by assumption) ?_
    | with_reducible refine Keeps.pair3 (by assumption) ?_
    | (refine ⟨fun p hp => ?_, ?_, ?_⟩; rotate_left; (first | exact fun hr => hr | exact h.regs); (first | exact fun _ => Grows.refl _ | exact h.adds); cases p <;> first | exact absurd (by decide) hp | apply Eq.refl | apply h.same _ hp)
    | intro _
    | (dsimp only))

theorem Dev.codecEntry_keeps (d : Dev) (a1 : Mem) (a2 : Nat) (a3 : Nat) (a4 : HostRead) : Keeps [.cnt, .merge, .out, .hst, .cdc, .memc, .log] d (Dev.codecEntry d a1 a2 a3 a4) := by
  unfold Dev.codecEntry
  repeat' (first
    | (extract_lets +onlyGivenNames x; first | (refine Keeps.cut x ?_ ?_; (unfold x; clear x); rotate_left; (clear_value x; revert x; intro _ h)) | (revert x; intro _))
    | with_reducible refine Keeps.foldl _ (fun _ _ h => ?_) ?_
    | with_reducible refine Keeps.forRange _ (fun _ _ h => ?_) ?_
    | with_reducible exact Keeps.refl _ _
    | with_reducible assumption
    | split
    | (with_reducible apply Keeps.step (Dev.pop_keeps ..); · decide)
    | (with_reducible apply Keeps.step (Dev.emit_keeps ..); · decide)
    | (with_reducible apply Keeps.step (Dev.codecReject_keeps ..); · decide)
    | (with_reducible apply Keeps.step (Dev.codecRead_keeps ..); · decide)
    | with_reducible refine Keeps.pairR (by assumption) ?_
    | with_reducible refine Keeps.pairL (by assumption) ?_
    | with_reducible refine Keeps.pair3 (by assumption) ?_
    | (refine ⟨fun p hp => ?_, ?_, ?_⟩; rotate_left; (first | exact fun hr => hr | exact h.regs); (first | exact fun _ => Grows.refl _ | exact h.adds); cases p <;> first | exact absurd (by decide) hp | apply Eq.refl | apply h.same _ hp)
    | intro _
    | (dsimp only)
    | with_reducible refine Keeps.step (keeps_cdc ..) (by decide) ?_)

theorem Dev.saveContext_keeps (d : Dev) (a1 : Mem) (a2 : Entry) (a3 : CodecResult) : Keeps [.merge, .out, .freeCount, .cdc, .log] d (Dev.saveContext d a1 a2 a3).2 := by
  unfold Dev.saveContext
  repeat' (first
    | (extract_lets +onlyGivenNames x; first | (refine Keeps.cut x ?_ ?_; (unfold x; clear x); rotate_left; (clear_value x; revert x; intro _ h)) | (revert x; intro _))
    | with_reducible refine Keeps.foldl _ (fun _ _ h => ?_) ?_
    | with_reducible refine Keeps.forRange _ (fun _ _ h => ?_) ?_
    | with_reducible exact Keeps.refl _ _
    | with_reducible assumption
    | split
    | (with_reducible apply Keeps.step (Dev.codecWrite_keeps ..); · decide)
    | with_reducible refine Keeps.forRangeR _ (fun _ _ h => ?_) ?_
    | with_reducible refine Keeps.foldlR _ (fun _ _ h => ?_) ?_
    | with_reducible refine Keeps.iteR ?_ ?_
    | with_reducible refine Keeps.pairR (by assumption) ?_
    | with_reducible refine Keeps.pairL (by assumption) ?_
    | with_reducible refine Keeps.pair3 (by assumption) ?_
    | (refine ⟨fun p hp => ?_, ?_, ?_⟩; rotate_left; (first | exact fun hr => hr | exact h.regs); (first | exact fun _ => Grows.refl _ | exact h.adds); cases p <;> first | exact absurd (by decide) hp | apply Eq.refl | apply h.same _ hp)
    | intro _
    | (dsimp only)
    | with_reducible refine Keeps.step (keeps_cdc ..) (by decide) ?_
    | with_reducible refine Keeps.step (keeps_freeCount ..) (by decide) ?_)

theorem Dev.codecEnd_keeps (d : Dev) (a1 : Mem) (a2 : HostRead) (a3 : Option Nat) : Keeps [.cnt, .merge, .out, .freeCount, .hst, .cdc, .memc, .log] d (Dev.codecEnd d a1 a2 a3).2 := by
  unfold Dev.codecEnd
  repeat' (first
    | (extract_lets +onlyGivenNames x; first | (refine Keeps.cut x ?_ ?_; (unfold x; clear x); rotate_left; (clear_value x; revert x; intro _ h)) | (revert x; intro _))
    | with_reducible refine Keeps.foldl _ (fun _ _ h => ?_) ?_
    | with_reducible refine Keeps.forRange _ (fun _ _ h => ?_) ?_
    | with_reducible exact Keeps.refl _ _
    | with_reducible assumption
    | split
    | (with_reducible apply Keeps.step (Dev.codecDone_keeps ..); · decide)
    | (with_reducible apply Keeps.step (Dev.codecWrite_keeps ..); · decide)
    | (with_reducible apply Keeps.step (Dev.codecRead_keeps ..); · decide)
    | (with_reducible apply Keeps.step (Dev.saveContext_keeps ..); · decide)
    | with_reducible refine Keeps.forRangeR _ (fun _ _ h => ?_) ?_
    | with_reducible refine Keeps.foldlR _ (fun _ _ h => ?_) ?_
    | with_reducible refine Keeps.iteR ?_ ?_
    | with_reducible refine Keeps.pairR (by assumption) ?_
    | with_reducible refine Keeps.pairL (by assumption) ?_
    | with_reducible refine Keeps.pair3 (by assumption) ?_
    | (refine ⟨fun p hp => ?_, ?_, ?_⟩; rotate_left; (first | exact fun hr => hr | exact h.regs); (first | exact fun _ => Grows.refl _ | exact h.adds); cases p <;> first | exact absurd (by decide) hp | apply Eq.refl | apply h.same _ hp)
    | intro _
    | (dsimp only)
    | with_reducible refine Keeps.step (keeps_cdc ..) (by decide) ?_)

theorem Dev.codecStart_keeps (d : Dev) : Keeps [.out, .cdc] d (Dev.codecStart d) := by
  unfold Dev.codecStart
  repeat' (first
    | with_reducible exact Keeps.refl _ _
    | split
    | (with_reducible apply Keeps.step (Dev.emit_keeps ..); · decide)
    | (refine ⟨fun p hp => ?_, fun hr => hr, fun _ => Grows.refl _⟩; cases p <;> first | exact absurd (by decide) hp | apply Eq.refl))

/-! ## Dma -/

theorem Dev.moveDone_keeps (d : Dev) (a1 : Nat) (a2 : Entry) (a3 : Nat) (a4 : Nat) (a5 : Nat) (a6 : Nat) (a7 : Nat) (a8 : Nat) : Keeps [.cnt, .merge, .hst, .log] d (Dev.moveDone d a1 a2 a3 a4 a5 a6 a7 a8) := by
  unfold Dev.moveDone
  repeat' (first
    | with_reducible exact Keeps.refl _ _
    | split
    | (with_reducible apply Keeps.step (Dev.bump_keeps ..); · decide)
    | (with_reducible apply Keeps.step (Dev.complete_keeps ..); · decide)
    | (with_reducible apply Keeps.step (Dev.raise_keeps ..); · decide))

theorem Dev.moveReject_keeps (d : Dev) (a1 : Entry) (a2 : Nat) (a3 : Nat) : Keeps [.cnt, .merge, .hst, .log] d (Dev.moveReject d a1 a2 a3) := by
  unfold Dev.moveReject
  repeat' (first
    | with_reducible exact Keeps.refl _ _
    | (with_reducible apply Keeps.step (Dev.moveDone_keeps ..); · decide)
    | (refine ⟨fun p hp => ?_, fun hr => hr, fun _ => Grows.refl _⟩; cases p <;> first | exact absurd (by decide) hp | apply Eq.refl))

theorem Dev.takeOut_keeps (d : Dev) (a1 : Entry) : Keeps [.hst] d (Dev.takeOut d a1) := by
  unfold Dev.takeOut
  repeat' (first
    | with_reducible exact Keeps.refl _ _
    | (with_reducible apply Keeps.step (Dev.updRing_keeps ..); · decide)
    | (refine ⟨fun p hp => ?_, fun hr => hr, fun _ => Grows.refl _⟩; cases p <;> first | exact absurd (by decide) hp | apply Eq.refl))

theorem Dev.updMover_keeps (d : Dev) (a1 : Nat) (a2 : DmaChan → DmaChan) : Keeps [.dma] d (Dev.updMover d a1 a2) := by
  unfold Dev.updMover
  repeat' (first
    | with_reducible exact Keeps.refl _ _
    | (refine ⟨fun p hp => ?_, fun hr => hr, fun _ => Grows.refl _⟩; cases p <;> first | exact absurd (by decide) hp | apply Eq.refl))

theorem Dev.moveEntry_keeps (d : Dev) (a1 : Nat) : Keeps [.cnt, .merge, .hst, .dma, .log] d (Dev.moveEntry d a1) := by
  unfold Dev.moveEntry
  repeat' (first
    | (extract_lets +onlyGivenNames x; first | (refine Keeps.cut x ?_ ?_; (unfold x; clear x); rotate_left; (clear_value x; revert x; intro _ h)) | (revert x; intro _))
    | with_reducible exact Keeps.refl _ _
    | with_reducible assumption
    | split
    | (with_reducible apply Keeps.step (Dev.moveReject_keeps ..); · decide)
    | (with_reducible apply Keeps.step (Dev.takeOut_keeps ..); · decide)
    | (with_reducible apply Keeps.step (Dev.updMover_keeps ..); · decide))

theorem Dev.burstWrite_keeps (d : Dev) (a1 : Mem) (a2 : Nat) (a3 : List (Nat × Nat)) (a4 : List Byte) : Keeps [.out] d (Dev.burstWrite d a1 a2 a3 a4).2 := by
  induction a3 generalizing d a1 a4 with
  | nil => unfold Dev.burstWrite; exact Keeps.refl _ _
  | cons x t ih =>
    unfold Dev.burstWrite
    repeat' (first
      | (extract_lets +onlyGivenNames x; first | (refine Keeps.cut x ?_ ?_; (unfold x; clear x); rotate_left; (clear_value x; revert x; intro _ h)) | (revert x; intro _))
      | with_reducible refine Keeps.foldl _ (fun _ _ h => ?_) ?_
      | with_reducible refine Keeps.forRange _ (fun _ _ h => ?_) ?_
      | with_reducible exact Keeps.refl _ _
      | with_reducible assumption
      | split
      | (with_reducible apply Keeps.step (Dev.emit_keeps ..); · decide)
      | with_reducible refine Keeps.step (ih ..) (by decide) ?_
      | with_reducible refine Keeps.forRangeR _ (fun _ _ h => ?_) ?_
      | with_reducible refine Keeps.foldlR _ (fun _ _ h => ?_) ?_
      | with_reducible refine Keeps.iteR ?_ ?_
      | with_reducible refine Keeps.pairR (by assumption) ?_
      | with_reducible refine Keeps.pairL (by assumption) ?_
      | with_reducible refine Keeps.pair3 (by assumption) ?_
      | (refine ⟨fun p hp => ?_, ?_, ?_⟩; rotate_left; (first | exact fun hr => hr | exact h.regs); (first | exact fun _ => Grows.refl _ | exact h.adds); cases p <;> first | exact absurd (by decide) hp | apply Eq.refl | apply h.same _ hp)
      | intro _
      | (dsimp only))

theorem Dev.flushChan_keeps (d : Dev) (a1 : Nat) (a2 : Nat) : Keeps [.cnt, .merge, .hst, .dma, .log] d (Dev.flushChan d a1 a2) := by
  unfold Dev.flushChan
  repeat' (first
    | (extract_lets +onlyGivenNames x; first | (refine Keeps.cut x ?_ ?_; (unfold x; clear x); rotate_left; (clear_value x; revert x; intro _ h)) | (revert x; intro _))
    | with_reducible refine Keeps.foldl _ (fun _ _ h => ?_) ?_
    | with_reducible refine Keeps.forRange _ (fun _ _ h => ?_) ?_
    | with_reducible exact Keeps.refl _ _
    | with_reducible assumption
    | split
    | (with_reducible apply Keeps.step (Dev.moveReject_keeps ..); · decide)
    | (with_reducible apply Keeps.step (Dev.updMover_keeps ..); · decide)
    | (refine ⟨fun p hp => ?_, ?_, ?_⟩; rotate_left; (first | exact fun hr => hr | exact h.regs); (first | exact fun _ => Grows.refl _ | exact h.adds); cases p <;> first | exact absurd (by decide) hp | apply Eq.refl | apply h.same _ hp))

theorem Dev.runEnd_keeps (d : Dev) (a1 : Nat) (a2 : DmaRun) (a3 : Nat) (a4 : Nat) (a5 : Nat) : Keeps [.cnt, .merge, .hst, .dma, .log] d (Dev.runEnd d a1 a2 a3 a4 a5) := by
  unfold Dev.runEnd
  repeat' (first
    | with_reducible exact Keeps.refl _ _
    | split
    | (with_reducible apply Keeps.step (Dev.complete_keeps ..); · decide)
    | (with_reducible apply Keeps.step (Dev.moveDone_keeps ..); · decide)
    | (with_reducible apply Keeps.step (Dev.updMover_keeps ..); · decide)
    | (with_reducible apply Keeps.step (Dev.flushChan_keeps ..); · decide))

theorem Dev.abortRun_keeps (d : Dev) (a1 : Nat) (a2 : DmaRun) : Keeps [.cnt, .merge, .freeCount, .hst, .dma, .log] d (Dev.abortRun d a1 a2) := by
  unfold Dev.abortRun
  repeat' (first
    | (extract_lets +onlyGivenNames x; first | (refine Keeps.cut x ?_ ?_; (unfold x; clear x); rotate_left; (clear_value x; revert x; intro _ h)) | (revert x; intro _))
    | with_reducible refine Keeps.foldl _ (fun _ _ h => ?_) ?_
    | with_reducible refine Keeps.forRange _ (fun _ _ h => ?_) ?_
    | with_reducible exact Keeps.refl _ _
    | with_reducible assumption
    | split
    | (with_reducible apply Keeps.step (Dev.free_keeps ..); · decide)
    | (with_reducible apply Keeps.step (Dev.updMover_keeps ..); · decide)
    | (with_reducible apply Keeps.step (Dev.runEnd_keeps ..); · decide)
    | with_reducible refine Keeps.pairR (by assumption) ?_
    | with_reducible refine Keeps.pairL (by assumption) ?_
    | with_reducible refine Keeps.pair3 (by assumption) ?_
    | (refine ⟨fun p hp => ?_, ?_, ?_⟩; rotate_left; (first | exact fun hr => hr | exact h.regs); (first | exact fun _ => Grows.refl _ | exact h.adds); cases p <;> first | exact absurd (by decide) hp | apply Eq.refl | apply h.same _ hp)
    | intro _
    | (dsimp only))

theorem Dev.moverEdge_keeps (a0 : RegFile) (d : Dev) (a2 : Nat) : Keeps [.cnt, .merge, .freeCount, .hst, .dma, .log] d (Dev.moverEdge a0 d a2) := by
  unfold Dev.moverEdge
  repeat' (first
    | (extract_lets +onlyGivenNames x; first | (refine Keeps.cut x ?_ ?_; (unfold x; clear x); rotate_left; (clear_value x; revert x; intro _ h)) | (revert x; intro _))
    | with_reducible refine Keeps.foldl _ (fun _ _ h => ?_) ?_
    | with_reducible refine Keeps.forRange _ (fun _ _ h => ?_) ?_
    | with_reducible exact Keeps.refl _ _
    | with_reducible assumption
    | split
    | (with_reducible apply Keeps.step (Dev.flushChan_keeps ..); · decide)
    | (with_reducible apply Keeps.step (Dev.abortRun_keeps ..); · decide)
    | with_reducible refine Keeps.pairR (by assumption) ?_
    | with_reducible refine Keeps.pairL (by assumption) ?_
    | with_reducible refine Keeps.pair3 (by assumption) ?_
    | (refine ⟨fun p hp => ?_, ?_, ?_⟩; rotate_left; (first | exact fun hr => hr | exact h.regs); (first | exact fun _ => Grows.refl _ | exact h.adds); cases p <;> first | exact absurd (by decide) hp | apply Eq.refl | apply h.same _ hp)
    | intro _
    | (dsimp only))

theorem Dev.writeChanCfg_keeps (d : Dev) (a1 : Nat) (a2 : W64) : Keeps [.rw, .shadow, .w1c] d (Dev.writeChanCfg d a1 a2) := by
  unfold Dev.writeChanCfg
  repeat' (first
    | (extract_lets +onlyGivenNames x; first | (refine Keeps.cut x ?_ ?_; (unfold x; clear x); rotate_left; (clear_value x; revert x; intro _ h)) | (revert x; intro _))
    | with_reducible exact Keeps.refl _ _
    | with_reducible assumption
    | split
    | (with_reducible apply Keeps.step (Dev.refuse_keeps ..); · decide)
    | (with_reducible apply Keeps.step (Dev.store_keeps ..); · decide)
    | (with_reducible apply Keeps.step (Dev.flushChan_keeps ..); · decide)
    | (with_reducible apply Keeps.step (Dev.abortRun_keeps ..); · decide))

theorem Dev.writeDma_keeps (d : Dev) (a1 : RegDef) (a2 : W64) (a3 : Nat) (a4 : Nat) : Keeps [.rw, .shadow, .w1c] d (Dev.writeDma d a1 a2 a3 a4) := by
  unfold Dev.writeDma
  repeat' (first
    | with_reducible exact Keeps.refl _ _
    | split
    | (with_reducible apply Keeps.step (Dev.store_keeps ..); · decide)
    | (with_reducible apply Keeps.step (Dev.writeChanCfg_keeps ..); · decide))

theorem Dev.burstFault_keeps (d : Dev) (a1 : Mem) (a2 : Entry) (a3 : List (Nat × Nat)) (a4 : List (Nat × Nat)) : KeepsO [.cnt, .merge, .memc, .log] d ((Dev.burstFault d a1 a2 a3 a4).map (fun x => x.2.2)) := by
  unfold Dev.burstFault
  refine ⟨fun d' e => ?_⟩
  have hd : ∀ a, Keeps [.cnt, .merge, .memc, .log] d (d.dramAddrErr a 3) :=
    fun a => Keeps.step (Dev.dramAddrErr_keeps ..) (by decide) (Keeps.refl _ _)
  have hs : ∀ a, Keeps [.cnt, .merge, .memc, .log] d (d.sramRead 9 a .uncorrectable) :=
    fun a => Keeps.step (Dev.sramRead_keeps ..) (by decide) (Keeps.refl _ _)
  simp only [Option.map_eq_some_iff, Option.or_eq_some_iff] at e
  obtain ⟨x, e, rfl⟩ := e
  rcases e with e | ⟨_, e⟩ <;> (repeat' split at e) <;> first
    | (obtain ⟨_, _, rfl⟩ := Option.map_eq_some_iff.mp e; first | exact hd _ | exact hs _)
    | cases e

theorem Dev.issueReads_keeps (d : Dev) (a1 : Entry) (a2 : Nat) : Keeps [.out] d (Dev.issueReads d a1 a2) := by
  unfold Dev.issueReads
  repeat' (first
    | (extract_lets +onlyGivenNames x; first | (refine Keeps.cut x ?_ ?_; (unfold x; clear x); rotate_left; (clear_value x; revert x; intro _ h)) | (revert x; intro _))
    | with_reducible refine Keeps.foldl _ (fun _ _ h => ?_) ?_
    | with_reducible refine Keeps.forRange _ (fun _ _ h => ?_) ?_
    | with_reducible exact Keeps.refl _ _
    | with_reducible assumption
    | split
    | (with_reducible apply Keeps.step (Dev.emit_keeps ..); · decide)
    | with_reducible refine Keeps.pairR (by assumption) ?_
    | with_reducible refine Keeps.pairL (by assumption) ?_
    | with_reducible refine Keeps.pair3 (by assumption) ?_
    | (refine ⟨fun p hp => ?_, ?_, ?_⟩; rotate_left; (first | exact fun hr => hr | exact h.regs); (first | exact fun _ => Grows.refl _ | exact h.adds); cases p <;> first | exact absurd (by decide) hp | apply Eq.refl | apply h.same _ hp)
    | intro _
    | (dsimp only))

theorem Dev.moveStart_keeps (d : Dev) (a1 : Nat) : Keeps [.cnt, .merge, .out, .hst, .dma, .log] d (Dev.moveStart d a1) := by
  unfold Dev.moveStart
  repeat' (first
    | (extract_lets +onlyGivenNames x; first | (refine Keeps.cut x ?_ ?_; (unfold x; clear x); rotate_left; (clear_value x; revert x; intro _ h)) | (revert x; intro _))
    | with_reducible exact Keeps.refl _ _
    | with_reducible assumption
    | split
    | (with_reducible apply Keeps.step (Dev.updMover_keeps ..); · decide)
    | (with_reducible apply Keeps.step (Dev.runEnd_keeps ..); · decide)
    | (with_reducible apply Keeps.step (Dev.issueReads_keeps ..); · decide))

theorem Dev.spoil_keeps (d : Dev) (a1 : Mem) (a2 : Nat) (a3 : List (Nat × Nat)) : Keeps [.freeCount] d (Dev.spoil d a1 a2 a3).2 := by
  unfold Dev.spoil
  repeat' (first
    | (extract_lets +onlyGivenNames x; first | (refine Keeps.cut x ?_ ?_; (unfold x; clear x); rotate_left; (clear_value x; revert x; intro _ h)) | (revert x; intro _))
    | with_reducible refine Keeps.foldl _ (fun _ _ h => ?_) ?_
    | with_reducible refine Keeps.forRange _ (fun _ _ h => ?_) ?_
    | with_reducible exact Keeps.refl _ _
    | with_reducible assumption
    | split
    | (with_reducible apply Keeps.step (Dev.free_keeps ..); · decide)
    | with_reducible refine Keeps.forRangeR _ (fun _ _ h => ?_) ?_
    | with_reducible refine Keeps.foldlR _ (fun _ _ h => ?_) ?_
    | with_reducible refine Keeps.iteR ?_ ?_
    | with_reducible refine Keeps.pairR (by assumption) ?_
    | with_reducible refine Keeps.pairL (by assumption) ?_
    | with_reducible refine Keeps.pair3 (by assumption) ?_
    | (refine ⟨fun p hp => ?_, ?_, ?_⟩; rotate_left; (first | exact fun hr => hr | exact h.regs); (first | exact fun _ => Grows.refl _ | exact h.adds); cases p <;> first | exact absurd (by decide) hp | apply Eq.refl | apply h.same _ hp)
    | intro _
    | (dsimp only))

theorem Dev.moveBad_keeps (d : Dev) (a1 : Mem) (a2 : Nat) (a3 : DmaRun) (a4 : Nat) (a5 : Nat) : Keeps [.cnt, .merge, .freeCount, .hst, .dma, .log] d (Dev.moveBad d a1 a2 a3 a4 a5).2 := by
  unfold Dev.moveBad
  repeat' (first
    | (extract_lets +onlyGivenNames x; first | (refine Keeps.cut x ?_ ?_; (unfold x; clear x); rotate_left; (clear_value x; revert x; intro _ h)) | (revert x; intro _))
    | with_reducible refine Keeps.foldl _ (fun _ _ h => ?_) ?_
    | with_reducible refine Keeps.forRange _ (fun _ _ h => ?_) ?_
    | with_reducible exact Keeps.refl _ _
    | with_reducible assumption
    | split
    | (with_reducible apply Keeps.step (Dev.runEnd_keeps ..); · decide)
    | (with_reducible apply Keeps.step (Dev.spoil_keeps ..); · decide)
    | with_reducible refine Keeps.forRangeR _ (fun _ _ h => ?_) ?_
    | with_reducible refine Keeps.foldlR _ (fun _ _ h => ?_) ?_
    | with_reducible refine Keeps.iteR ?_ ?_
    | with_reducible refine Keeps.pairR (by assumption) ?_
    | with_reducible refine Keeps.pairL (by assumption) ?_
    | with_reducible refine Keeps.pair3 (by assumption) ?_
    | (refine ⟨fun p hp => ?_, ?_, ?_⟩; rotate_left; (first | exact fun hr => hr | exact h.regs); (first | exact fun _ => Grows.refl _ | exact h.adds); cases p <;> first | exact absurd (by decide) hp | apply Eq.refl | apply h.same _ hp)
    | intro _
    | (dsimp only))

theorem Dev.afterBurst_keeps (d : Dev) (a1 : Nat) (a2 : DmaRun) : Keeps [.cnt, .merge, .out, .hst, .dma, .log] d (Dev.afterBurst d a1 a2) := by
  unfold Dev.afterBurst
  repeat' (first
    | (extract_lets +onlyGivenNames x; first | (refine Keeps.cut x ?_ ?_; (unfold x; clear x); rotate_left; (clear_value x; revert x; intro _ h)) | (revert x; intro _))
    | with_reducible exact Keeps.refl _ _
    | with_reducible assumption
    | split
    | (with_reducible apply Keeps.step (Dev.emit_keeps ..); · decide)
    | (with_reducible apply Keeps.step (Dev.updMover_keeps ..); · decide)
    | (with_reducible apply Keeps.step (Dev.runEnd_keeps ..); · decide)
    | (with_reducible apply Keeps.step (Dev.issueReads_keeps ..); · decide))

theorem Dev.burstWritten_keeps (d : Dev) (a1 : Mem) (a2 : Nat) (a3 : List Byte) : Keeps [.cnt, .merge, .out, .freeCount, .hst, .dma, .memc, .log] d (Dev.burstWritten d a1 a2 a3).2 := by
  unfold Dev.burstWritten
  repeat' (first
    | (extract_lets +onlyGivenNames x; first | (refine Keeps.cut x ?_ ?_; (unfold x; clear x); rotate_left; (clear_value x; revert x; intro _ h)) | (revert x; intro _))
    | with_reducible refine Keeps.foldl _ (fun _ _ h => ?_) ?_
    | with_reducible refine Keeps.forRange _ (fun _ _ h => ?_) ?_
    | with_reducible exact Keeps.refl _ _
    | with_reducible assumption
    | split
    | (with_reducible apply Keeps.step (Dev.bump_keeps ..); · decide)
    | (with_reducible apply Keeps.step (Dev.burstWrite_keeps ..); · decide)
    | (with_reducible apply KeepsO.step (Dev.burstFault_keeps ..); · decide)
    | (with_reducible apply Keeps.step (Dev.moveBad_keeps ..); · decide)
    | (with_reducible apply Keeps.step (Dev.afterBurst_keeps ..); · decide)
    | with_reducible refine Keeps.forRangeR _ (fun _ _ h => ?_) ?_
    | with_reducible refine Keeps.foldlR _ (fun _ _ h => ?_) ?_
    | with_reducible refine Keeps.iteR ?_ ?_
    | with_reducible refine Keeps.ofOpt3 (by assumption) ?_
    | with_reducible refine Keeps.pairR (by assumption) ?_
    | with_reducible refine Keeps.pairL (by assumption) ?_
    | with_reducible refine Keeps.pair3 (by assumption) ?_
    | (refine ⟨fun p hp => ?_, ?_, ?_⟩; rotate_left; (first | exact fun hr => hr | exact h.regs); (first | exact fun _ => Grows.refl _ | exact h.adds); cases p <;> first | exact absurd (by decide) hp | apply Eq.refl | apply h.same _ hp)
    | intro _
    | (dsimp only))

theorem Dev.busError_keeps (d : Dev) (a1 : Mem) (a2 : Nat) (a3 : Nat) (a4 : Nat) : Keeps [.cnt, .merge, .freeCount, .hst, .dma, .log] d (Dev.busError d a1 a2 a3 a4).2 := by
  unfold Dev.busError
  repeat' (first
    | (extract_lets +onlyGivenNames x; first | (refine Keeps.cut x ?_ ?_; (unfold x; clear x); rotate_left; (clear_value x; revert x; intro _ h)) | (revert x; intro _))
    | with_reducible refine Keeps.foldl _ (fun _ _ h => ?_) ?_
    | with_reducible refine Keeps.forRange _ (fun _ _ h => ?_) ?_
    | with_reducible exact Keeps.refl _ _
    | with_reducible assumption
    | split
    | (with_reducible apply Keeps.step (Dev.moveBad_keeps ..); · decide)
    | with_reducible refine Keeps.forRangeR _ (fun _ _ h => ?_) ?_
    | with_reducible refine Keeps.foldlR _ (fun _ _ h => ?_) ?_
    | with_reducible refine Keeps.iteR ?_ ?_
    | with_reducible refine Keeps.pairR (by assumption) ?_
    | with_reducible refine Keeps.pairL (by assumption) ?_
    | with_reducible refine Keeps.pair3 (by assumption) ?_
    | (refine ⟨fun p hp => ?_, ?_, ?_⟩; rotate_left; (first | exact fun hr => hr | exact h.regs); (first | exact fun _ => Grows.refl _ | exact h.adds); cases p <;> first | exact absurd (by decide) hp | apply Eq.refl | apply h.same _ hp)
    | intro _
    | (dsimp only))

theorem Dev.moveAbort_keeps (d : Dev) (a1 : Nat) : Keeps [.cnt, .merge, .freeCount, .hst, .dma, .log] d (Dev.moveAbort d a1) := by
  unfold Dev.moveAbort
  repeat' (first
    | (extract_lets +onlyGivenNames x; first | (refine Keeps.cut x ?_ ?_; (unfold x; clear x); rotate_left; (clear_value x; revert x; intro _ h)) | (revert x; intro _))
    | with_reducible exact Keeps.refl _ _
    | with_reducible assumption
    | split
    | (with_reducible apply Keeps.step (Dev.complete_keeps ..); · decide)
    | (with_reducible apply Keeps.step (Dev.takeOut_keeps ..); · decide)
    | (with_reducible apply Keeps.step (Dev.flushChan_keeps ..); · decide)
    | (with_reducible apply Keeps.step (Dev.abortRun_keeps ..); · decide))

theorem Dev.readBackDone_keeps (d : Dev) (a1 : Nat) : Keeps [.cnt, .merge, .hst, .dma, .log] d (Dev.readBackDone d a1) := by
  unfold Dev.readBackDone
  repeat' (first
    | with_reducible exact Keeps.refl _ _
    | split
    | (with_reducible apply Keeps.step (Dev.runEnd_keeps ..); · decide))

/-! ## Memc -/

theorem Dev.actLimitReached_keeps (d : Dev) (a1 : Nat) (a2 : Nat) (a3 : Nat) : Keeps [.merge, .freeCount, .memc, .log] d (Dev.actLimitReached d a1 a2 a3) := by
  unfold Dev.actLimitReached
  repeat' (first
    | (extract_lets +onlyGivenNames x; first | (refine Keeps.cut x ?_ ?_; (unfold x; clear x); rotate_left; (clear_value x; revert x; intro _ h)) | (revert x; intro _))
    | with_reducible refine Keeps.foldl _ (fun _ _ h => ?_) ?_
    | with_reducible refine Keeps.forRange _ (fun _ _ h => ?_) ?_
    | with_reducible exact Keeps.refl _ _
    | with_reducible assumption
    | split
    | (with_reducible apply Keeps.step (Dev.raise_keeps ..); · decide)
    | (with_reducible apply Keeps.step (Dev.free_keeps ..); · decide)
    | (with_reducible apply Keeps.step (Dev.updDdr_keeps ..); · decide)
    | with_reducible refine Keeps.pairR (by assumption) ?_
    | with_reducible refine Keeps.pairL (by assumption) ?_
    | with_reducible refine Keeps.pair3 (by assumption) ?_
    | (refine ⟨fun p hp => ?_, ?_, ?_⟩; rotate_left; (first | exact fun hr => hr | exact h.regs); (first | exact fun _ => Grows.refl _ | exact h.adds); cases p <;> first | exact absurd (by decide) hp | apply Eq.refl | apply h.same _ hp)
    | intro _
    | (dsimp only))

theorem Dev.ddrEdge_keeps (d : Dev) (a1 : Nat) : Keeps [.memc] d (Dev.ddrEdge d a1) := by
  unfold Dev.ddrEdge
  repeat' (first
    | (extract_lets +onlyGivenNames x; first | (refine Keeps.cut x ?_ ?_; (unfold x; clear x); rotate_left; (clear_value x; revert x; intro _ h)) | (revert x; intro _))
    | with_reducible refine Keeps.foldl _ (fun _ _ h => ?_) ?_
    | with_reducible refine Keeps.forRange _ (fun _ _ h => ?_) ?_
    | with_reducible exact Keeps.refl _ _
    | with_reducible assumption
    | split
    | (with_reducible apply Keeps.step (Dev.updDdr_keeps ..); · decide)
    | with_reducible refine Keeps.pairR (by assumption) ?_
    | with_reducible refine Keeps.pairL (by assumption) ?_
    | with_reducible refine Keeps.pair3 (by assumption) ?_
    | (refine ⟨fun p hp => ?_, ?_, ?_⟩; rotate_left; (first | exact fun hr => hr | exact h.regs); (first | exact fun _ => Grows.refl _ | exact h.adds); cases p <;> first | exact absurd (by decide) hp | apply Eq.refl | apply h.same _ hp)
    | intro _
    | (dsimp only))

theorem Dev.writeDdrCfg_keeps (d : Dev) (a1 : Nat) (a2 : W64) : Keeps [.rw, .shadow, .w1c] d (Dev.writeDdrCfg d a1 a2) := by
  unfold Dev.writeDdrCfg
  repeat' (first
    | (extract_lets +onlyGivenNames x; first | (refine Keeps.cut x ?_ ?_; (unfold x; clear x); rotate_left; (clear_value x; revert x; intro _ h)) | (revert x; intro _))
    | with_reducible exact Keeps.refl _ _
    | with_reducible assumption
    | split
    | (with_reducible apply Keeps.step (Dev.refuse_keeps ..); · decide)
    | (with_reducible apply Keeps.step (Dev.store_keeps ..); · decide)
    | (with_reducible apply Keeps.step (Dev.updDdr_keeps ..); · decide))

theorem Dev.writeMem_keeps (d : Dev) (a1 : RegDef) (a2 : W64) (a3 : Nat) (a4 : Nat) : Keeps [.rw, .shadow, .w1c] d (Dev.writeMem d a1 a2 a3 a4) := by
  unfold Dev.writeMem
  repeat' (first
    | with_reducible exact Keeps.refl _ _
    | split
    | (with_reducible apply Keeps.step (Dev.storeIf_keeps ..); · decide)
    | (with_reducible apply Keeps.step (Dev.writeDdrCfg_keeps ..); · decide))

theorem Dev.readSram_keeps (d : Dev) (a1 : Mem) (a2 : Nat) (a3 : Nat) (a4 : Nat) (a5 : EccRead) : Keeps [.cnt, .merge, .memc, .log] d (Dev.readSram d a1 a2 a3 a4 a5).2 := by
  unfold Dev.readSram
  repeat' (first
    | (extract_lets +onlyGivenNames x; first | (refine Keeps.cut x ?_ ?_; (unfold x; clear x); rotate_left; (clear_value x; revert x; intro _ h)) | (revert x; intro _))
    | with_reducible refine Keeps.foldl _ (fun _ _ h => ?_) ?_
    | with_reducible refine Keeps.forRange _ (fun _ _ h => ?_) ?_
    | with_reducible exact Keeps.refl _ _
    | with_reducible assumption
    | split
    | (with_reducible apply Keeps.step (Dev.sramErr_keeps ..); · decide)
    | with_reducible refine Keeps.forRangeR _ (fun _ _ h => ?_) ?_
    | with_reducible refine Keeps.foldlR _ (fun _ _ h => ?_) ?_
    | with_reducible refine Keeps.iteR ?_ ?_
    | with_reducible refine Keeps.pairR (by assumption) ?_
    | with_reducible refine Keeps.pairL (by assumption) ?_
    | with_reducible refine Keeps.pair3 (by assumption) ?_
    | (refine ⟨fun p hp => ?_, ?_, ?_⟩; rotate_left; (first | exact fun hr => hr | exact h.regs); (first | exact fun _ => Grows.refl _ | exact h.adds); cases p <;> first | exact absurd (by decide) hp | apply Eq.refl | apply h.same _ hp)
    | intro _
    | (dsimp only))

theorem Dev.readPartials_keeps (d : Dev) (a1 : Mem) (a2 : EccRead) (a3 : List Nat) : Keeps [.cnt, .merge, .memc, .log] d (Dev.readPartials d a1 a2 a3).2 := by
  induction a3 generalizing d a1 a2 with
  | nil => unfold Dev.readPartials; exact Keeps.refl _ _
  | cons x t ih =>
    unfold Dev.readPartials
    repeat' (first
      | (extract_lets +onlyGivenNames x; first | (refine Keeps.cut x ?_ ?_; (unfold x; clear x); rotate_left; (clear_value x; revert x; intro _ h)) | (refine Keeps.cutR x ?_ ?_; (unfold x; clear x); rotate_left; (clear_value x; revert x; intro _ h)) | (refine Keeps.cutL x ?_ ?_; (unfold x; clear x); rotate_left; (clear_value x; revert x; intro _ h)) | (revert x; intro _))
      | with_reducible refine Keeps.foldl _ (fun _ _ h => ?_) ?_
      | with_reducible refine Keeps.forRange _ (fun _ _ h => ?_) ?_
      | with_reducible exact Keeps.refl _ _
      | with_reducible assumption
      | split
      | (with_reducible apply Keeps.step (Dev.readSram_keeps ..); · decide)
      | with_reducible refine Keeps.step (ih ..) (by decide) ?_
      | with_reducible refine Keeps.forRangeR _ (fun _ _ h => ?_) ?_
      | with_reducible refine Keeps.foldlR _ (fun _ _ h => ?_) ?_
      | with_reducible refine Keeps.iteR ?_ ?_
      | with_reducible refine Keeps.pairR (by assumption) ?_
      | with_reducible refine Keeps.pairL (by assumption) ?_
      | with_reducible refine Keeps.pair3 (by assumption) ?_
      | (refine ⟨fun p hp => ?_, ?_, ?_⟩; rotate_left; (first | exact fun hr => hr | exact h.regs); (first | exact fun _ => Grows.refl _ | exact h.adds); cases p <;> first | exact absurd (by decide) hp | apply Eq.refl | apply h.same _ hp)
      | intro _
      | (dsimp only))

theorem Dev.bar2Read_keeps (d : Dev) (a1 : Mem) (a2 : Nat) (a3 : EccRead) : Keeps [.cnt, .merge, .out, .freeCount, .memc, .log] d (Dev.bar2Read d a1 a2 a3).2 := by
  unfold Dev.bar2Read
  repeat' (first
    | (extract_lets +onlyGivenNames x; first | (refine Keeps.cut x ?_ ?_; (unfold x; clear x); rotate_left; (clear_value x; revert x; intro _ h)) | (revert x; intro _))
    | with_reducible refine Keeps.foldl _ (fun _ _ h => ?_) ?_
    | with_reducible refine Keeps.forRange _ (fun _ _ h => ?_) ?_
    | with_reducible exact Keeps.refl _ _
    | with_reducible assumption
    | split
    | (with_reducible apply Keeps.step (Dev.emit_keeps ..); · decide)
    | (with_reducible apply Keeps.step (Dev.free_keeps ..); · decide)
    | (with_reducible apply Keeps.step (Dev.readSram_keeps ..); · decide)
    | with_reducible refine Keeps.forRangeR _ (fun _ _ h => ?_) ?_
    | with_reducible refine Keeps.foldlR _ (fun _ _ h => ?_) ?_
    | with_reducible refine Keeps.iteR ?_ ?_
    | with_reducible refine Keeps.pairR (by assumption) ?_
    | with_reducible refine Keeps.pairL (by assumption) ?_
    | with_reducible refine Keeps.pair3 (by assumption) ?_
    | (refine ⟨fun p hp => ?_, ?_, ?_⟩; rotate_left; (first | exact fun hr => hr | exact h.regs); (first | exact fun _ => Grows.refl _ | exact h.adds); cases p <;> first | exact absurd (by decide) hp | apply Eq.refl | apply h.same _ hp)
    | intro _
    | (dsimp only))

theorem Dev.rowWindowEnd_keeps (d : Dev) : Keeps [.cnt, .freeCount, .memc] d (Dev.rowWindowEnd d) := by
  unfold Dev.rowWindowEnd
  repeat' (first
    | (extract_lets +onlyGivenNames x; first | (refine Keeps.cut x ?_ ?_; (unfold x; clear x); rotate_left; (clear_value x; revert x; intro _ h)) | (revert x; intro _))
    | with_reducible refine Keeps.foldl _ (fun _ _ h => ?_) ?_
    | with_reducible refine Keeps.forRange _ (fun _ _ h => ?_) ?_
    | with_reducible exact Keeps.refl _ _
    | with_reducible assumption
    | split
    | (with_reducible apply Keeps.step (Dev.bump_keeps ..); · decide)
    | (with_reducible apply Keeps.step (Dev.free_keeps ..); · decide)
    | with_reducible refine Keeps.pairR (by assumption) ?_
    | with_reducible refine Keeps.pairL (by assumption) ?_
    | with_reducible refine Keeps.pair3 (by assumption) ?_
    | (refine ⟨fun p hp => ?_, ?_, ?_⟩; rotate_left; (first | exact fun hr => hr | exact h.regs); (first | exact fun _ => Grows.refl _ | exact h.adds); cases p <;> first | exact absurd (by decide) hp | apply Eq.refl | apply h.same _ hp)
    | intro _
    | (dsimp only)
    | with_reducible refine Keeps.step (keeps_memc ..) (by decide) ?_)

theorem Dev.ddrRefresh_keeps (d : Dev) (a1 : Nat) (a2 : Nat) (a3 : Bool) : Keeps [.memc] d (Dev.ddrRefresh d a1 a2 a3) := by
  unfold Dev.ddrRefresh
  repeat' (first
    | with_reducible exact Keeps.refl _ _
    | split
    | (with_reducible apply Keeps.step (Dev.updDdr_keeps ..); · decide))

theorem Dev.ddrPattern_keeps (d : Dev) (a1 : Mem) (a2 : Nat) : Keeps [.freeCount] d (Dev.ddrPattern d a1 a2).2 := by
  unfold Dev.ddrPattern
  repeat' (first
    | (extract_lets +onlyGivenNames x; first | (refine Keeps.cut x ?_ ?_; (unfold x; clear x); rotate_left; (clear_value x; revert x; intro _ h)) | (revert x; intro _))
    | with_reducible refine Keeps.foldl _ (fun _ _ h => ?_) ?_
    | with_reducible refine Keeps.forRange _ (fun _ _ h => ?_) ?_
    | with_reducible exact Keeps.refl _ _
    | with_reducible assumption
    | split
    | (with_reducible apply Keeps.step (Dev.free_keeps ..); · decide)
    | with_reducible refine Keeps.forRangeR _ (fun _ _ h => ?_) ?_
    | with_reducible refine Keeps.foldlR _ (fun _ _ h => ?_) ?_
    | with_reducible refine Keeps.iteR ?_ ?_
    | with_reducible refine Keeps.pairR (by assumption) ?_
    | with_reducible refine Keeps.pairL (by assumption) ?_
    | with_reducible refine Keeps.pair3 (by assumption) ?_
    | (refine ⟨fun p hp => ?_, ?_, ?_⟩; rotate_left; (first | exact fun hr => hr | exact h.regs); (first | exact fun _ => Grows.refl _ | exact h.adds); cases p <;> first | exact absurd (by decide) hp | apply Eq.refl | apply h.same _ hp)
    | intro _
    | (dsimp only))

theorem Dev.ddrInitDone_keeps (d : Dev) (a1 : Mem) (a2 : Nat) (a3 : Option (Nat × Nat)) : Keeps [.merge, .freeCount, .memc, .log] d (Dev.ddrInitDone d a1 a2 a3).2 := by
  unfold Dev.ddrInitDone
  repeat' (first
    | (extract_lets +onlyGivenNames x; first | (refine Keeps.cut x ?_ ?_; (unfold x; clear x); rotate_left; (clear_value x; revert x; intro _ h)) | (revert x; intro _))
    | with_reducible refine Keeps.foldl _ (fun _ _ h => ?_) ?_
    | with_reducible refine Keeps.forRange _ (fun _ _ h => ?_) ?_
    | with_reducible exact Keeps.refl _ _
    | with_reducible assumption
    | split
    | (with_reducible apply Keeps.step (Dev.raise_keeps ..); · decide)
    | (with_reducible apply Keeps.step (Dev.updDdr_keeps ..); · decide)
    | (with_reducible apply Keeps.step (Dev.ddrPattern_keeps ..); · decide)
    | with_reducible refine Keeps.forRangeR _ (fun _ _ h => ?_) ?_
    | with_reducible refine Keeps.foldlR _ (fun _ _ h => ?_) ?_
    | with_reducible refine Keeps.iteR ?_ ?_
    | with_reducible refine Keeps.pairR (by assumption) ?_
    | with_reducible refine Keeps.pairL (by assumption) ?_
    | with_reducible refine Keeps.pair3 (by assumption) ?_
    | (refine ⟨fun p hp => ?_, ?_, ?_⟩; rotate_left; (first | exact fun hr => hr | exact h.regs); (first | exact fun _ => Grows.refl _ | exact h.adds); cases p <;> first | exact absurd (by decide) hp | apply Eq.refl | apply h.same _ hp)
    | intro _
    | (dsimp only))

theorem Dev.bar2Write_keeps (d : Dev) (a1 : Mem) (a2 : Nat) (a3 : List Byte) (a4 : EccRead) : Keeps [.cnt, .merge, .memc, .log] d (Dev.bar2Write d a1 a2 a3 a4).2 := by
  unfold Dev.bar2Write
  repeat' (first
    | (extract_lets +onlyGivenNames x; first | (refine Keeps.cut x ?_ ?_; (unfold x; clear x); rotate_left; (clear_value x; revert x; intro _ h)) | (revert x; intro _))
    | with_reducible refine Keeps.foldl _ (fun _ _ h => ?_) ?_
    | with_reducible refine Keeps.forRange _ (fun _ _ h => ?_) ?_
    | with_reducible exact Keeps.refl _ _
    | with_reducible assumption
    | split
    | (with_reducible apply Keeps.step (Dev.bump_keeps ..); · decide)
    | (with_reducible apply Keeps.step (Dev.readPartials_keeps ..); · decide)
    | with_reducible refine Keeps.forRangeR _ (fun _ _ h => ?_) ?_
    | with_reducible refine Keeps.foldlR _ (fun _ _ h => ?_) ?_
    | with_reducible refine Keeps.iteR ?_ ?_
    | with_reducible refine Keeps.pairR (by assumption) ?_
    | with_reducible refine Keeps.pairL (by assumption) ?_
    | with_reducible refine Keeps.pair3 (by assumption) ?_
    | (refine ⟨fun p hp => ?_, ?_, ?_⟩; rotate_left; (first | exact fun hr => hr | exact h.regs); (first | exact fun _ => Grows.refl _ | exact h.adds); cases p <;> first | exact absurd (by decide) hp | apply Eq.refl | apply h.same _ hp)
    | intro _
    | (dsimp only))

theorem Dev.scrubRead_keeps (d : Dev) (a1 : Mem) (a2 : Nat) (a3 : EccRead) (a4 : Bool) : Keeps [.cnt, .merge, .memc, .log] d (Dev.scrubRead d a1 a2 a3 a4).2 := by
  unfold Dev.scrubRead
  repeat' (first
    | (extract_lets +onlyGivenNames x; first | (refine Keeps.cut x ?_ ?_; (unfold x; clear x); rotate_left; (clear_value x; revert x; intro _ h)) | (revert x; intro _))
    | with_reducible refine Keeps.foldl _ (fun _ _ h => ?_) ?_
    | with_reducible refine Keeps.forRange _ (fun _ _ h => ?_) ?_
    | with_reducible exact Keeps.refl _ _
    | with_reducible assumption
    | split
    | (with_reducible apply Keeps.step (Dev.readSram_keeps ..); · decide)
    | with_reducible refine Keeps.forRangeR _ (fun _ _ h => ?_) ?_
    | with_reducible refine Keeps.foldlR _ (fun _ _ h => ?_) ?_
    | with_reducible refine Keeps.iteR ?_ ?_
    | with_reducible refine Keeps.pairR (by assumption) ?_
    | with_reducible refine Keeps.pairL (by assumption) ?_
    | with_reducible refine Keeps.pair3 (by assumption) ?_
    | (refine ⟨fun p hp => ?_, ?_, ?_⟩; rotate_left; (first | exact fun hr => hr | exact h.regs); (first | exact fun _ => Grows.refl _ | exact h.adds); cases p <;> first | exact absurd (by decide) hp | apply Eq.refl | apply h.same _ hp)
    | intro _
    | (dsimp only))

/-! ## Lgt -/

theorem Dev.boostStart_keeps (d : Dev) : Keeps [.lgt] d (Dev.boostStart d) := by
  unfold Dev.boostStart
  repeat' (first
    | (extract_lets +onlyGivenNames x; first | (refine Keeps.cut x ?_ ?_; (unfold x; clear x); rotate_left; (clear_value x; revert x; intro _ h)) | (revert x; intro _))
    | with_reducible refine Keeps.foldl _ (fun _ _ h => ?_) ?_
    | with_reducible refine Keeps.forRange _ (fun _ _ h => ?_) ?_
    | with_reducible exact Keeps.refl _ _
    | with_reducible assumption
    | split
    | with_reducible refine Keeps.pairR (by assumption) ?_
    | with_reducible refine Keeps.pairL (by assumption) ?_
    | with_reducible refine Keeps.pair3 (by assumption) ?_
    | (refine ⟨fun p hp => ?_, ?_, ?_⟩; rotate_left; (first | exact fun hr => hr | exact h.regs); (first | exact fun _ => Grows.refl _ | exact h.adds); cases p <;> first | exact absurd (by decide) hp | apply Eq.refl | apply h.same _ hp)
    | intro _
    | (dsimp only)
    | with_reducible refine Keeps.step (keeps_lgt ..) (by decide) ?_)

theorem Dev.lightEdge_keeps (a0 : RegFile) (d : Dev) : Keeps [.lgt] d (Dev.lightEdge a0 d) := by
  unfold Dev.lightEdge
  repeat' (first
    | (extract_lets +onlyGivenNames x; first | (refine Keeps.cut x ?_ ?_; (unfold x; clear x); rotate_left; (clear_value x; revert x; intro _ h)) | (revert x; intro _))
    | with_reducible refine Keeps.foldl _ (fun _ _ h => ?_) ?_
    | with_reducible refine Keeps.forRange _ (fun _ _ h => ?_) ?_
    | with_reducible exact Keeps.refl _ _
    | with_reducible assumption
    | split
    | (with_reducible apply Keeps.step (Dev.boostStart_keeps ..); · decide)
    | with_reducible refine Keeps.pairR (by assumption) ?_
    | with_reducible refine Keeps.pairL (by assumption) ?_
    | with_reducible refine Keeps.pair3 (by assumption) ?_
    | (refine ⟨fun p hp => ?_, ?_, ?_⟩; rotate_left; (first | exact fun hr => hr | exact h.regs); (first | exact fun _ => Grows.refl _ | exact h.adds); cases p <;> first | exact absurd (by decide) hp | apply Eq.refl | apply h.same _ hp)
    | intro _
    | (dsimp only))

theorem Dev.countLit_keeps (d : Dev) : Keeps [.lgt] d (Dev.countLit d) := by
  unfold Dev.countLit
  repeat' (first
    | (extract_lets +onlyGivenNames x; first | (refine Keeps.cut x ?_ ?_; (unfold x; clear x); rotate_left; (clear_value x; revert x; intro _ h)) | (revert x; intro _))
    | with_reducible refine Keeps.foldl _ (fun _ _ h => ?_) ?_
    | with_reducible refine Keeps.forRange _ (fun _ _ h => ?_) ?_
    | with_reducible exact Keeps.refl _ _
    | with_reducible assumption
    | split
    | with_reducible refine Keeps.pairR (by assumption) ?_
    | with_reducible refine Keeps.pairL (by assumption) ?_
    | with_reducible refine Keeps.pair3 (by assumption) ?_
    | (refine ⟨fun p hp => ?_, ?_, ?_⟩; rotate_left; (first | exact fun hr => hr | exact h.regs); (first | exact fun _ => Grows.refl _ | exact h.adds); cases p <;> first | exact absurd (by decide) hp | apply Eq.refl | apply h.same _ hp)
    | intro _
    | (dsimp only)
    | with_reducible refine Keeps.step (keeps_lgt ..) (by decide) ?_)

theorem Dev.boostAdapt_keeps (d : Dev) (a1 : List SinkTest) : Keeps [.lgt] d (Dev.boostAdapt d a1) := by
  unfold Dev.boostAdapt
  repeat' (first
    | with_reducible exact Keeps.refl _ _
    | split
    | (refine ⟨fun p hp => ?_, fun hr => hr, fun _ => Grows.refl _⟩; cases p <;> first | exact absurd (by decide) hp | apply Eq.refl))

theorem Dev.updLight_keeps (d : Dev) (a1 : Nat) (a2 : LightCh → LightCh) : Keeps [.lgt] d (Dev.updLight d a1 a2) := by
  unfold Dev.updLight
  repeat' (first
    | with_reducible exact Keeps.refl _ _
    | (refine ⟨fun p hp => ?_, fun hr => hr, fun _ => Grows.refl _⟩; cases p <;> first | exact absurd (by decide) hp | apply Eq.refl))

theorem Dev.lightFails_keeps (d : Dev) (a1 : Nat) (a2 : Nat) : Keeps [.merge, .lgt, .log] d (Dev.lightFails d a1 a2) := by
  unfold Dev.lightFails
  repeat' (first
    | (extract_lets +onlyGivenNames x; first | (refine Keeps.cut x ?_ ?_; (unfold x; clear x); rotate_left; (clear_value x; revert x; intro _ h)) | (revert x; intro _))
    | with_reducible exact Keeps.refl _ _
    | with_reducible assumption
    | split
    | (with_reducible apply Keeps.step (Dev.raise_keeps ..); · decide)
    | (with_reducible apply Keeps.step (Dev.updLight_keeps ..); · decide)
    | (refine ⟨fun p hp => ?_, ?_, ?_⟩; rotate_left; (first | exact fun hr => hr | exact h.regs); (first | exact fun _ => Grows.refl _ | exact h.adds); cases p <;> first | exact absurd (by decide) hp | apply Eq.refl | apply h.same _ hp))

theorem Dev.takeDiagnosis_keeps (d : Dev) (a1 : Nat) (a2 : Bool) (a3 : Option Nat) : Keeps [.cnt, .merge, .lgt, .log] d (Dev.takeDiagnosis d a1 a2 a3) := by
  unfold Dev.takeDiagnosis
  repeat' (first
    | (extract_lets +onlyGivenNames x; first | (refine Keeps.cut x ?_ ?_; (unfold x; clear x); rotate_left; (clear_value x; revert x; intro _ h)) | (revert x; intro _))
    | with_reducible exact Keeps.refl _ _
    | with_reducible assumption
    | split
    | (with_reducible apply Keeps.step (Dev.bump_keeps ..); · decide)
    | (with_reducible apply Keeps.step (Dev.updLight_keeps ..); · decide)
    | (with_reducible apply Keeps.step (Dev.lightFails_keeps ..); · decide))

theorem Dev.lightReport_keeps (d : Dev) (a1 : Nat) : Keeps [.cnt, .merge, .lgt, .log] d (Dev.lightReport d a1) := by
  unfold Dev.lightReport
  repeat' (first
    | (extract_lets +onlyGivenNames x; first | (refine Keeps.cut x ?_ ?_; (unfold x; clear x); rotate_left; (clear_value x; revert x; intro _ h)) | (revert x; intro _))
    | with_reducible exact Keeps.refl _ _
    | with_reducible assumption
    | split
    | (with_reducible apply Keeps.step (Dev.bump_keeps ..); · decide)
    | (with_reducible apply Keeps.step (Dev.raise_keeps ..); · decide)
    | (with_reducible apply Keeps.step (Dev.updLight_keeps ..); · decide))

theorem Dev.frameEnds_keeps (d : Dev) (a1 : List SinkTest) : Keeps [.cnt, .merge, .lgt, .log] d (Dev.frameEnds d a1) := by
  unfold Dev.frameEnds
  repeat' (first
    | (extract_lets +onlyGivenNames x; first | (refine Keeps.cut x ?_ ?_; (unfold x; clear x); rotate_left; (clear_value x; revert x; intro _ h)) | (revert x; intro _))
    | with_reducible refine Keeps.foldl _ (fun _ _ h => ?_) ?_
    | with_reducible refine Keeps.forRange _ (fun _ _ h => ?_) ?_
    | with_reducible exact Keeps.refl _ _
    | with_reducible assumption
    | split
    | (with_reducible apply Keeps.step (Dev.countLit_keeps ..); · decide)
    | (with_reducible apply Keeps.step (Dev.boostAdapt_keeps ..); · decide)
    | (with_reducible apply Keeps.step (Dev.takeDiagnosis_keeps ..); · decide)
    | (with_reducible apply Keeps.step (Dev.lightReport_keeps ..); · decide)
    | (refine ⟨fun p hp => ?_, ?_, ?_⟩; rotate_left; (first | exact fun hr => hr | exact h.regs); (first | exact fun _ => Grows.refl _ | exact h.adds); cases p <;> first | exact absurd (by decide) hp | apply Eq.refl | apply h.same _ hp))

theorem Dev.writeLgtCtl_keeps (d : Dev) (a1 : W64) : Keeps [.rw, .shadow, .w1c] d (Dev.writeLgtCtl d a1) := by
  unfold Dev.writeLgtCtl
  repeat' (first
    | (extract_lets +onlyGivenNames x; first | (refine Keeps.cut x ?_ ?_; (unfold x; clear x); rotate_left; (clear_value x; revert x; intro _ h)) | (revert x; intro _))
    | with_reducible exact Keeps.refl _ _
    | with_reducible assumption
    | split
    | (with_reducible apply Keeps.step (Dev.refuse_keeps ..); · decide)
    | (with_reducible apply Keeps.step (Dev.store_keeps ..); · decide)
    | (refine ⟨fun p hp => ?_, ?_, ?_⟩; rotate_left; (first | exact fun hr => hr | exact h.regs); (first | exact fun _ => Grows.refl _ | exact h.adds); cases p <;> first | exact absurd (by decide) hp | apply Eq.refl | apply h.same _ hp))

theorem Dev.writeLgtStatus_keeps (d : Dev) (a1 : W64) : Keeps [.rw, .shadow, .w1c, .lgt] d (Dev.writeLgtStatus d a1) := by
  unfold Dev.writeLgtStatus
  repeat' (first
    | (extract_lets +onlyGivenNames x; first | (refine Keeps.cut x ?_ ?_; (unfold x; clear x); rotate_left; (clear_value x; revert x; intro _ h)) | (revert x; intro _))
    | with_reducible exact Keeps.refl _ _
    | with_reducible assumption
    | split
    | (with_reducible apply Keeps.step (Dev.store_keeps ..); · decide)
    | (with_reducible apply Keeps.step (Dev.boostStart_keeps ..); · decide)
    | (refine ⟨fun p hp => ?_, ?_, ?_⟩; rotate_left; (first | exact fun hr => hr | exact h.regs); (first | exact fun _ => Grows.refl _ | exact h.adds); cases p <;> first | exact absurd (by decide) hp | apply Eq.refl | apply h.same _ hp))

theorem Dev.lightClear_keeps (d : Dev) (a1 : Nat) : Keeps [.lgt] d (Dev.lightClear d a1) := by
  unfold Dev.lightClear
  repeat' (first
    | (extract_lets +onlyGivenNames x; first | (refine Keeps.cut x ?_ ?_; (unfold x; clear x); rotate_left; (clear_value x; revert x; intro _ h)) | (revert x; intro _))
    | with_reducible exact Keeps.refl _ _
    | with_reducible assumption
    | split
    | (with_reducible apply Keeps.step (Dev.updLight_keeps ..); · decide)
    | (refine ⟨fun p hp => ?_, ?_, ?_⟩; rotate_left; (first | exact fun hr => hr | exact h.regs); (first | exact fun _ => Grows.refl _ | exact h.adds); cases p <;> first | exact absurd (by decide) hp | apply Eq.refl | apply h.same _ hp))

theorem Dev.writeLgtCh_keeps (d : Dev) (a1 : Nat) (a2 : W64) : Keeps [.rw, .shadow, .w1c, .lgt] d (Dev.writeLgtCh d a1 a2) := by
  unfold Dev.writeLgtCh
  repeat' (first
    | with_reducible exact Keeps.refl _ _
    | split
    | (with_reducible apply Keeps.step (Dev.refuse_keeps ..); · decide)
    | (with_reducible apply Keeps.step (Dev.store_keeps ..); · decide)
    | (with_reducible apply Keeps.step (Dev.lightClear_keeps ..); · decide))

theorem Dev.writeLgt_keeps (d : Dev) (a1 : RegDef) (a2 : W64) (a3 : Nat) (a4 : Nat) : Keeps [.rw, .shadow, .w1c, .lgt] d (Dev.writeLgt d a1 a2 a3 a4) := by
  unfold Dev.writeLgt
  repeat' (first
    | with_reducible exact Keeps.refl _ _
    | split
    | (with_reducible apply Keeps.step (Dev.storeIf_keeps ..); · decide)
    | (with_reducible apply Keeps.step (Dev.writeLgtCtl_keeps ..); · decide)
    | (with_reducible apply Keeps.step (Dev.writeLgtStatus_keeps ..); · decide)
    | (with_reducible apply Keeps.step (Dev.writeLgtCh_keeps ..); · decide))

theorem Dev.boostOut_keeps (d : Dev) (a1 : Bool) : Keeps [.w1c, .merge, .log] d (Dev.boostOut d a1) := by
  unfold Dev.boostOut
  repeat' (first
    | (extract_lets +onlyGivenNames x; first | (refine Keeps.cut x ?_ ?_; (unfold x; clear x); rotate_left; (clear_value x; revert x; intro _ h)) | (revert x; intro _))
    | with_reducible exact Keeps.refl _ _
    | with_reducible assumption
    | split
    | (with_reducible apply Keeps.step (Dev.raise_keeps ..); · decide)
    | (with_reducible apply Keeps.step (Dev.setFlag_keeps ..); · decide))

theorem Dev.lightOn_keeps (d : Dev) (a1 : Nat) : Keeps [.cnt, .lgt] d (Dev.lightOn d a1) := by
  unfold Dev.lightOn
  repeat' (first
    | (extract_lets +onlyGivenNames x; first | (refine Keeps.cut x ?_ ?_; (unfold x; clear x); rotate_left; (clear_value x; revert x; intro _ h)) | (revert x; intro _))
    | with_reducible exact Keeps.refl _ _
    | with_reducible assumption
    | split
    | (with_reducible apply Keeps.step (Dev.bump_keeps ..); · decide)
    | (with_reducible apply Keeps.step (Dev.updLight_keeps ..); · decide))

theorem Dev.lightDone_keeps (d : Dev) (a1 : Entry) (a2 : Nat) : Keeps [.merge, .hst] d (Dev.lightDone d a1 a2) := by
  unfold Dev.lightDone
  repeat' (first
    | with_reducible exact Keeps.refl _ _
    | (with_reducible apply Keeps.step (Dev.complete_keeps ..); · decide)
    | (with_reducible apply Keeps.step (Dev.takeOut_keeps ..); · decide)
    | (refine ⟨fun p hp => ?_, fun hr => hr, fun _ => Grows.refl _⟩; cases p <;> first | exact absurd (by decide) hp | apply Eq.refl))

theorem Dev.setDuty_keeps (d : Dev) (a1 : Nat) (a2 : Nat) : Keeps [.lgt] d (Dev.setDuty d a1 a2) := by
  unfold Dev.setDuty
  repeat' (first
    | with_reducible exact Keeps.refl _ _
    | (with_reducible apply Keeps.step (Dev.updLight_keeps ..); · decide)
    | (refine ⟨fun p hp => ?_, fun hr => hr, fun _ => Grows.refl _⟩; cases p <;> first | exact absurd (by decide) hp | apply Eq.refl))

theorem Dev.lightLoad_keeps (d : Dev) (a1 : Nat) (a2 : HostRead) : Keeps [.cnt, .merge, .out, .hst, .lgt, .log] d (Dev.lightLoad d a1 a2) := by
  unfold Dev.lightLoad
  repeat' (first
    | (extract_lets +onlyGivenNames x; first | (refine Keeps.cut x ?_ ?_; (unfold x; clear x); rotate_left; (clear_value x; revert x; intro _ h)) | (revert x; intro _))
    | with_reducible refine Keeps.foldl _ (fun _ _ h => ?_) ?_
    | with_reducible refine Keeps.forRange _ (fun _ _ h => ?_) ?_
    | with_reducible exact Keeps.refl _ _
    | with_reducible assumption
    | split
    | (with_reducible apply Keeps.step (Dev.emit_keeps ..); · decide)
    | (with_reducible apply Keeps.step (Dev.takeOut_keeps ..); · decide)
    | (with_reducible apply Keeps.step (Dev.bodyFetchErr_keeps ..); · decide)
    | (with_reducible apply Keeps.step (Dev.lightDone_keeps ..); · decide)
    | (with_reducible apply Keeps.step (Dev.setDuty_keeps ..); · decide)
    | (refine ⟨fun p hp => ?_, ?_, ?_⟩; rotate_left; (first | exact fun hr => hr | exact h.regs); (first | exact fun _ => Grows.refl _ | exact h.adds); cases p <;> first | exact absurd (by decide) hp | apply Eq.refl | apply h.same _ hp))

theorem Dev.lightGroupOff_keeps (d : Dev) (a1 : Nat) : Keeps [.merge, .hst, .lgt] d (Dev.lightGroupOff d a1) := by
  unfold Dev.lightGroupOff
  repeat' (first
    | (extract_lets +onlyGivenNames x; first | (refine Keeps.cut x ?_ ?_; (unfold x; clear x); rotate_left; (clear_value x; revert x; intro _ h)) | (revert x; intro _))
    | with_reducible refine Keeps.foldl _ (fun _ _ h => ?_) ?_
    | with_reducible refine Keeps.forRange _ (fun _ _ h => ?_) ?_
    | with_reducible exact Keeps.refl _ _
    | with_reducible assumption
    | split
    | (with_reducible apply Keeps.step (Dev.lightDone_keeps ..); · decide)
    | (with_reducible apply Keeps.step (Dev.setDuty_keeps ..); · decide)
    | (refine ⟨fun p hp => ?_, ?_, ?_⟩; rotate_left; (first | exact fun hr => hr | exact h.regs); (first | exact fun _ => Grows.refl _ | exact h.adds); cases p <;> first | exact absurd (by decide) hp | apply Eq.refl | apply h.same _ hp))

theorem Dev.moveAfter_keeps (d : Dev) (a1 : Nat) (a2 : Option Nat) : Keeps [.lgt] d (Dev.moveAfter d a1 a2) := by
  unfold Dev.moveAfter
  repeat' (first
    | with_reducible exact Keeps.refl _ _
    | split
    | (with_reducible apply Keeps.step (Dev.updLight_keeps ..); · decide))

theorem Dev.placeKind_keeps (d : Dev) (a1 : Nat × Nat) : Keeps [.lgt] d (Dev.placeKind d a1) := by
  unfold Dev.placeKind
  repeat' (first
    | (extract_lets +onlyGivenNames x; first | (refine Keeps.cut x ?_ ?_; (unfold x; clear x); rotate_left; (clear_value x; revert x; intro _ h)) | (revert x; intro _))
    | with_reducible refine Keeps.foldl _ (fun _ _ h => ?_) ?_
    | with_reducible refine Keeps.forRange _ (fun _ _ h => ?_) ?_
    | with_reducible exact Keeps.refl _ _
    | with_reducible assumption
    | split
    | (with_reducible apply Keeps.step (Dev.updLight_keeps ..); · decide)
    | (with_reducible apply Keeps.step (Dev.moveAfter_keeps ..); · decide)
    | (refine ⟨fun p hp => ?_, ?_, ?_⟩; rotate_left; (first | exact fun hr => hr | exact h.regs); (first | exact fun _ => Grows.refl _ | exact h.adds); cases p <;> first | exact absurd (by decide) hp | apply Eq.refl | apply h.same _ hp))

theorem Dev.frameBegins_keeps (d : Dev) (a1 : Bool) : Keeps [.w1c, .cnt, .merge, .lgt, .log] d (Dev.frameBegins d a1) := by
  unfold Dev.frameBegins
  repeat' (first
    | (extract_lets +onlyGivenNames x; first | (refine Keeps.cut x ?_ ?_; (unfold x; clear x); rotate_left; (clear_value x; revert x; intro _ h)) | (revert x; intro _))
    | with_reducible refine Keeps.foldl _ (fun _ _ h => ?_) ?_
    | with_reducible refine Keeps.forRange _ (fun _ _ h => ?_) ?_
    | with_reducible exact Keeps.refl _ _
    | with_reducible assumption
    | split
    | (with_reducible apply Keeps.step (Dev.overrun_keeps ..); · decide)
    | (with_reducible apply Keeps.step (Dev.updLight_keeps ..); · decide)
    | (with_reducible apply Keeps.step (Dev.lightOn_keeps ..); · decide)
    | (with_reducible apply Keeps.step (Dev.placeKind_keeps ..); · decide)
    | (refine ⟨fun p hp => ?_, ?_, ?_⟩; rotate_left; (first | exact fun hr => hr | exact h.regs); (first | exact fun _ => Grows.refl _ | exact h.adds); cases p <;> first | exact absurd (by decide) hp | apply Eq.refl | apply h.same _ hp))

theorem Dev.lightFrame_keeps (d : Dev) (a1 : List SinkTest) (a2 : Bool) : Keeps [.w1c, .cnt, .merge, .lgt, .log] d (Dev.lightFrame d a1 a2) := by
  unfold Dev.lightFrame
  repeat' (first
    | with_reducible exact Keeps.refl _ _
    | split
    | (with_reducible apply Keeps.step (Dev.frameEnds_keeps ..); · decide)
    | (with_reducible apply Keeps.step (Dev.frameBegins_keeps ..); · decide))

theorem Dev.ntcConversion_keeps (d : Dev) (a1 : Nat) (a2 : Nat) : Keeps [.merge, .freeCount, .lgt, .log] d (Dev.ntcConversion d a1 a2) := by
  unfold Dev.ntcConversion
  repeat' (first
    | (extract_lets +onlyGivenNames x; first | (refine Keeps.cut x ?_ ?_; (unfold x; clear x); rotate_left; (clear_value x; revert x; intro _ h)) | (revert x; intro _))
    | with_reducible refine Keeps.foldl _ (fun _ _ h => ?_) ?_
    | with_reducible refine Keeps.forRange _ (fun _ _ h => ?_) ?_
    | with_reducible exact Keeps.refl _ _
    | with_reducible assumption
    | split
    | (with_reducible apply Keeps.step (Dev.raise_keeps ..); · decide)
    | (with_reducible apply Keeps.step (Dev.free_keeps ..); · decide)
    | with_reducible refine Keeps.pairR (by assumption) ?_
    | with_reducible refine Keeps.pairL (by assumption) ?_
    | with_reducible refine Keeps.pair3 (by assumption) ?_
    | (refine ⟨fun p hp => ?_, ?_, ?_⟩; rotate_left; (first | exact fun hr => hr | exact h.regs); (first | exact fun _ => Grows.refl _ | exact h.adds); cases p <;> first | exact absurd (by decide) hp | apply Eq.refl | apply h.same _ hp)
    | intro _
    | (dsimp only)
    | with_reducible refine Keeps.step (keeps_lgt ..) (by decide) ?_)

theorem Dev.lightSet_keeps (d : Dev) (a1 : Nat) : Keeps [.merge, .hst, .lgt] d (Dev.lightSet d a1) := by
  unfold Dev.lightSet
  repeat' (first
    | (extract_lets +onlyGivenNames x; first | (refine Keeps.cut x ?_ ?_; (unfold x; clear x); rotate_left; (clear_value x; revert x; intro _ h)) | (revert x; intro _))
    | with_reducible refine Keeps.foldl _ (fun _ _ h => ?_) ?_
    | with_reducible refine Keeps.forRange _ (fun _ _ h => ?_) ?_
    | with_reducible exact Keeps.refl _ _
    | with_reducible assumption
    | split
    | (with_reducible apply Keeps.step (Dev.lightDone_keeps ..); · decide)
    | (with_reducible apply Keeps.step (Dev.setDuty_keeps ..); · decide)
    | (refine ⟨fun p hp => ?_, ?_, ?_⟩; rotate_left; (first | exact fun hr => hr | exact h.regs); (first | exact fun _ => Grows.refl _ | exact h.adds); cases p <;> first | exact absurd (by decide) hp | apply Eq.refl | apply h.same _ hp))

/-! ## Fw -/

theorem Dev.fwEvent_keeps (d : Dev) (a1 : Nat) (a2 : Nat) : Keeps [.merge, .log] d (Dev.fwEvent d a1 a2) := by
  unfold Dev.fwEvent
  repeat' (first
    | with_reducible exact Keeps.refl _ _
    | (with_reducible apply Keeps.step (Dev.raise_keeps ..); · decide)
    | (refine ⟨fun p hp => ?_, fun hr => hr, fun _ => Grows.refl _⟩; cases p <;> first | exact absurd (by decide) hp | apply Eq.refl))

theorem Dev.putSettings_keeps (d : Dev) (a1 : Nat) (a2 : Nat) (a3 : List Byte) : Keeps [.settings] d (Dev.putSettings d a1 a2 a3) := by
  unfold Dev.putSettings
  repeat' (first
    | with_reducible exact Keeps.refl _ _
    | (refine ⟨fun p hp => ?_, fun hr => hr, fun _ => Grows.refl _⟩; cases p <;> first | exact absurd (by decide) hp | apply Eq.refl))

theorem Dev.chooseSettings_keeps (d : Dev) (a1 : Nat) : Keeps [.merge, .log, .settings] d (Dev.chooseSettings d a1) := by
  unfold Dev.chooseSettings
  repeat' (first
    | (extract_lets +onlyGivenNames x; first | (refine Keeps.cut x ?_ ?_; (unfold x; clear x); rotate_left; (clear_value x; revert x; intro _ h)) | (revert x; intro _))
    | with_reducible exact Keeps.refl _ _
    | with_reducible assumption
    | split
    | (with_reducible apply Keeps.step (Dev.raise_keeps ..); · decide)
    | (with_reducible apply Keeps.step (Dev.putSettings_keeps ..); · decide)
    | (refine ⟨fun p hp => ?_, ?_, ?_⟩; rotate_left; (first | exact fun hr => hr | exact h.regs); (first | exact fun _ => Grows.refl _ | exact h.adds); cases p <;> first | exact absurd (by decide) hp | apply Eq.refl | apply h.same _ hp))

theorem Dev.updFw_keeps (d : Dev) (a1 : Nat) (a2 : FwSlot → FwSlot) : Keeps [.slots] d (Dev.updFw d a1 a2) := by
  unfold Dev.updFw
  repeat' (first
    | with_reducible exact Keeps.refl _ _
    | (refine ⟨fun p hp => ?_, fun hr => hr, fun _ => Grows.refl _⟩; cases p <;> first | exact absurd (by decide) hp | apply Eq.refl))

theorem Dev.dropTrial_keeps (d : Dev) : Keeps [.slots, .boot, .settings] d (Dev.dropTrial d) := by
  unfold Dev.dropTrial
  repeat' (first
    | with_reducible exact Keeps.refl _ _
    | split
    | (with_reducible apply Keeps.step (Dev.updFw_keeps ..); · decide)
    | (refine ⟨fun p hp => ?_, fun hr => hr, fun _ => Grows.refl _⟩; cases p <;> first | exact absurd (by decide) hp | apply Eq.refl))

theorem Dev.fwHandover_keeps (d : Dev) : Keeps [.merge, .log, .slots, .boot, .act, .settings] d (Dev.fwHandover d) := by
  unfold Dev.fwHandover
  repeat' (first
    | with_reducible exact Keeps.refl _ _
    | split
    | (with_reducible apply Keeps.step (Dev.fwEvent_keeps ..); · decide)
    | (with_reducible apply Keeps.step (Dev.chooseSettings_keeps ..); · decide)
    | (with_reducible apply Keeps.step (Dev.updFw_keeps ..); · decide)
    | (with_reducible apply Keeps.step (Dev.dropTrial_keeps ..); · decide)
    | (refine ⟨fun p hp => ?_, fun hr => hr, fun _ => Grows.refl _⟩; cases p <;> first | exact absurd (by decide) hp | apply Eq.refl))

theorem Dev.pmpReply_keeps (d : Dev) (a1 : Nat) (a2 : Nat) (a3 : Nat) (a4 : (List Byte)) : Keeps [.out, .replies] d (Dev.pmpReply d a1 a2 a3 a4) := by
  unfold Dev.pmpReply
  repeat' (first
    | with_reducible exact Keeps.refl _ _
    | (with_reducible apply Keeps.step (Dev.emit_keeps ..); · decide)
    | (refine ⟨fun p hp => ?_, fun hr => hr, fun _ => Grows.refl _⟩; cases p <;> first | exact absurd (by decide) hp | apply Eq.refl))

theorem Dev.answerPmp_keeps (d : Dev) (a1 : PmpHdr) (a2 : Nat) (a3 : (List Byte)) : Keeps [.out, .replies] d (Dev.answerPmp d a1 a2 a3) := by
  unfold Dev.answerPmp
  repeat' (first
    | with_reducible exact Keeps.refl _ _
    | (with_reducible apply Keeps.step (Dev.pmpReply_keeps ..); · decide)
    | (refine ⟨fun p hp => ?_, fun hr => hr, fun _ => Grows.refl _⟩; cases p <;> first | exact absurd (by decide) hp | apply Eq.refl))

theorem Dev.logRead_keeps (d : Dev) (a1 : PmpHdr) (a2 : Nat) (a3 : Nat) : Keeps [.out, .replies] d (Dev.logRead d a1 a2 a3) := by
  unfold Dev.logRead
  repeat' (first
    | with_reducible exact Keeps.refl _ _
    | split
    | (with_reducible apply Keeps.step (Dev.answerPmp_keeps ..); · decide))

theorem Dev.pmp_keeps {w : List Part} {d0 d : Dev} {x : PmpHdr} {f : Dev → Dev} (hs : [.out, .replies].all (fun p => w.contains p) = true)
    (hf : ∀ d, Keeps w d0 d → Keeps w d0 (f d)) (h : Keeps w d0 d) : Keeps w d0 (d.pmp x f) := by
  unfold Dev.pmp
  repeat' split
  all_goals first
    | exact h
    | exact hf _ h
    | exact Keeps.step (v := [.out, .replies]) (Keeps.step (Dev.emit_keeps ..) (by decide) (Keeps.refl _ _)) hs h
    | exact Keeps.step (v := [.out, .replies]) (Keeps.step (Dev.answerPmp_keeps ..) (by decide) (Keeps.refl _ _)) hs h

theorem Dev.configSet_keeps (d : Dev) (a1 : PmpHdr) (a2 : List Byte) (a3 : Bool) : Keeps [.out, .replies, .settings] d (Dev.configSet d a1 a2 a3) := by
  unfold Dev.configSet
  repeat' (first
    | (extract_lets +onlyGivenNames x; first | (refine Keeps.cut x ?_ ?_; (unfold x; clear x); rotate_left; (clear_value x; revert x; intro _ h)) | (revert x; intro _))
    | with_reducible exact Keeps.refl _ _
    | with_reducible assumption
    | split
    | (with_reducible apply Keeps.step (Dev.putSettings_keeps ..); · decide)
    | (with_reducible apply Keeps.step (Dev.answerPmp_keeps ..); · decide))

theorem Dev.imgRevert_keeps (d : Dev) (a1 : PmpHdr) (a2 : Bool) : Keeps [.out, .replies, .act] d (Dev.imgRevert d a1 a2) := by
  unfold Dev.imgRevert
  repeat' (first
    | with_reducible exact Keeps.refl _ _
    | split
    | (with_reducible apply Keeps.step (Dev.answerPmp_keeps ..); · decide)
    | (refine ⟨fun p hp => ?_, fun hr => hr, fun _ => Grows.refl _⟩; cases p <;> first | exact absurd (by decide) hp | apply Eq.refl))

theorem Dev.imgStatus_keeps (d : Dev) (a1 : PmpHdr) (a2 : Nat) : Keeps [.out, .replies] d (Dev.imgStatus d a1 a2) := by
  unfold Dev.imgStatus
  repeat' (first
    | (extract_lets +onlyGivenNames x; first | (refine Keeps.cut x ?_ ?_; (unfold x; clear x); rotate_left; (clear_value x; revert x; intro _ h)) | (revert x; intro _))
    | with_reducible exact Keeps.refl _ _
    | with_reducible assumption
    | split
    | (with_reducible apply Keeps.step (Dev.answerPmp_keeps ..); · decide))

theorem Dev.imgBegin_keeps (d : Dev) (a1 : PmpHdr) (a2 : Nat) (a3 : Nat) (a4 : BitVec 384) (a5 : Bool) : Keeps [.out, .replies, .slots] d (Dev.imgBegin d a1 a2 a3 a4 a5) := by
  unfold Dev.imgBegin
  repeat' (first
    | (extract_lets +onlyGivenNames x; first | (refine Keeps.cut x ?_ ?_; (unfold x; clear x); rotate_left; (clear_value x; revert x; intro _ h)) | (revert x; intro _))
    | with_reducible exact Keeps.refl _ _
    | with_reducible assumption
    | split
    | (with_reducible apply Keeps.step (Dev.updFw_keeps ..); · decide)
    | (with_reducible apply Keeps.step (Dev.answerPmp_keeps ..); · decide))

theorem Dev.pmpIdent_keeps (d : Dev) (a1 : PmpHdr) : Keeps [.out, .replies] d (Dev.pmpIdent d a1) := by
  unfold Dev.pmpIdent
  repeat' (first
    | with_reducible exact Keeps.refl _ _
    | (with_reducible apply Keeps.step (Dev.answerPmp_keeps ..); · decide)
    | (refine ⟨fun p hp => ?_, fun hr => hr, fun _ => Grows.refl _⟩; cases p <;> first | exact absurd (by decide) hp | apply Eq.refl))

theorem Dev.activateTimeout_keeps (d : Dev) : Keeps [.merge, .log, .act] d (Dev.activateTimeout d) := by
  unfold Dev.activateTimeout
  repeat' (first
    | with_reducible exact Keeps.refl _ _
    | split
    | (with_reducible apply Keeps.step (Dev.fwEvent_keeps ..); · decide)
    | (refine ⟨fun p hp => ?_, fun hr => hr, fun _ => Grows.refl _⟩; cases p <;> first | exact absurd (by decide) hp | apply Eq.refl))

theorem Dev.imgActivate_keeps (d : Dev) (a1 : PmpHdr) (a2 : Nat) : Keeps [.out, .replies, .act] d (Dev.imgActivate d a1 a2) := by
  unfold Dev.imgActivate
  repeat' (first
    | with_reducible exact Keeps.refl _ _
    | split
    | (with_reducible apply Keeps.step (Dev.answerPmp_keeps ..); · decide)
    | (refine ⟨fun p hp => ?_, fun hr => hr, fun _ => Grows.refl _⟩; cases p <;> first | exact absurd (by decide) hp | apply Eq.refl))

theorem Dev.imgVerify_keeps (d : Dev) (a1 : Nat) : Keeps [.merge, .log, .slots] d (Dev.imgVerify d a1).1 := by
  unfold Dev.imgVerify
  repeat' (first
    | (extract_lets +onlyGivenNames x; first | (refine Keeps.cut x ?_ ?_; (unfold x; clear x); rotate_left; (clear_value x; revert x; intro _ h)) | (revert x; intro _))
    | with_reducible refine Keeps.foldl _ (fun _ _ h => ?_) ?_
    | with_reducible refine Keeps.forRange _ (fun _ _ h => ?_) ?_
    | with_reducible exact Keeps.refl _ _
    | with_reducible assumption
    | split
    | (with_reducible apply Keeps.step (Dev.fwEvent_keeps ..); · decide)
    | (with_reducible apply Keeps.step (Dev.updFw_keeps ..); · decide)
    | with_reducible refine Keeps.iteL ?_ ?_
    | with_reducible refine Keeps.pairR (by assumption) ?_
    | with_reducible refine Keeps.pairL (by assumption) ?_
    | with_reducible refine Keeps.pair3 (by assumption) ?_
    | (refine ⟨fun p hp => ?_, ?_, ?_⟩; rotate_left; (first | exact fun hr => hr | exact h.regs); (first | exact fun _ => Grows.refl _ | exact h.adds); cases p <;> first | exact absurd (by decide) hp | apply Eq.refl | apply h.same _ hp)
    | intro _
    | (dsimp only))

theorem Dev.imgPiece_keeps (d : Dev) (a1 : PmpHdr) (a2 : Nat) (a3 : Nat) (a4 : Nat) (a5 : List Byte) (a6 : Bool) : Keeps [.merge, .out, .log, .replies, .slots] d (Dev.imgPiece d a1 a2 a3 a4 a5 a6) := by
  unfold Dev.imgPiece
  repeat' (first
    | (extract_lets +onlyGivenNames x; first | (refine Keeps.cut x ?_ ?_; (unfold x; clear x); rotate_left; (clear_value x; revert x; intro _ h)) | (revert x; intro _))
    | with_reducible exact Keeps.refl _ _
    | with_reducible assumption
    | split
    | (with_reducible apply Keeps.step (Dev.updFw_keeps ..); · decide)
    | (with_reducible apply Keeps.step (Dev.answerPmp_keeps ..); · decide)
    | (with_reducible apply Keeps.step (Dev.imgVerify_keeps ..); · decide))

theorem Dev.configGet_keeps (d : Dev) (a1 : PmpHdr) : Keeps [.out, .replies] d (Dev.configGet d a1) := by
  unfold Dev.configGet
  repeat' (first
    | with_reducible exact Keeps.refl _ _
    | (with_reducible apply Keeps.step (Dev.answerPmp_keeps ..); · decide)
    | (refine ⟨fun p hp => ?_, fun hr => hr, fun _ => Grows.refl _⟩; cases p <;> first | exact absurd (by decide) hp | apply Eq.refl))

theorem Dev.imgConfirm_keeps (d : Dev) (a1 : PmpHdr) (a2 : Bool) : Keeps [.out, .replies, .slots, .boot, .settings] d (Dev.imgConfirm d a1 a2) := by
  unfold Dev.imgConfirm
  repeat' (first
    | with_reducible exact Keeps.refl _ _
    | split
    | (with_reducible apply Keeps.step (Dev.updFw_keeps ..); · decide)
    | (with_reducible apply Keeps.step (Dev.answerPmp_keeps ..); · decide)
    | (refine ⟨fun p hp => ?_, fun hr => hr, fun _ => Grows.refl _⟩; cases p <;> first | exact absurd (by decide) hp | apply Eq.refl))

theorem Dev.exportStart_keeps (d : Dev) (a1 : PmpHdr) (a2 : Nat) (a3 : Nat) (a4 : Nat) (a5 : BitVec 128) (a6 : W16) : Keeps [.out, .freeCount, .replies, .exporting] d (Dev.exportStart d a1 a2 a3 a4 a5 a6) := by
  unfold Dev.exportStart
  repeat' (first
    | (extract_lets +onlyGivenNames x; first | (refine Keeps.cut x ?_ ?_; (unfold x; clear x); rotate_left; (clear_value x; revert x; intro _ h)) | (revert x; intro _))
    | with_reducible refine Keeps.foldl _ (fun _ _ h => ?_) ?_
    | with_reducible refine Keeps.forRange _ (fun _ _ h => ?_) ?_
    | with_reducible exact Keeps.refl _ _
    | with_reducible assumption
    | split
    | (with_reducible apply Keeps.step (Dev.free_keeps ..); · decide)
    | (with_reducible apply Keeps.step (Dev.answerPmp_keeps ..); · decide)
    | with_reducible refine Keeps.pairR (by assumption) ?_
    | with_reducible refine Keeps.pairL (by assumption) ?_
    | with_reducible refine Keeps.pair3 (by assumption) ?_
    | (refine ⟨fun p hp => ?_, ?_, ?_⟩; rotate_left; (first | exact fun hr => hr | exact h.regs); (first | exact fun _ => Grows.refl _ | exact h.adds); cases p <;> first | exact absurd (by decide) hp | apply Eq.refl | apply h.same _ hp)
    | intro _
    | (dsimp only)
    | with_reducible refine Keeps.step (keeps_exporting ..) (by decide) ?_
    | with_reducible refine Keeps.step (keeps_log ..) (by decide) ?_
    | with_reducible refine Keeps.step (keeps_replies ..) (by decide) ?_)

theorem Dev.exportDone_keeps (d : Dev) (a1 : Mem) : Keeps [.out, .replies, .exporting] d (Dev.exportDone d a1) := by
  unfold Dev.exportDone
  repeat' (first
    | (extract_lets +onlyGivenNames x; first | (refine Keeps.cut x ?_ ?_; (unfold x; clear x); rotate_left; (clear_value x; revert x; intro _ h)) | (revert x; intro _))
    | with_reducible refine Keeps.foldl _ (fun _ _ h => ?_) ?_
    | with_reducible refine Keeps.forRange _ (fun _ _ h => ?_) ?_
    | with_reducible exact Keeps.refl _ _
    | with_reducible assumption
    | split
    | (with_reducible apply Keeps.step (Dev.emit_keeps ..); · decide)
    | (with_reducible apply Keeps.step (Dev.pmpReply_keeps ..); · decide)
    | (refine ⟨fun p hp => ?_, ?_, ?_⟩; rotate_left; (first | exact fun hr => hr | exact h.regs); (first | exact fun _ => Grows.refl _ | exact h.adds); cases p <;> first | exact absurd (by decide) hp | apply Eq.refl | apply h.same _ hp))

/-! ## Pwr -/

theorem Dev.countIdle_keeps (d : Dev) : Keeps [.pwr] d (Dev.countIdle d) := by
  unfold Dev.countIdle
  repeat' (first
    | (extract_lets +onlyGivenNames x; first | (refine Keeps.cut x ?_ ?_; (unfold x; clear x); rotate_left; (clear_value x; revert x; intro _ h)) | (revert x; intro _))
    | with_reducible refine Keeps.foldl _ (fun _ _ h => ?_) ?_
    | with_reducible refine Keeps.forRange _ (fun _ _ h => ?_) ?_
    | with_reducible exact Keeps.refl _ _
    | with_reducible assumption
    | split
    | with_reducible refine Keeps.pairR (by assumption) ?_
    | with_reducible refine Keeps.pairL (by assumption) ?_
    | with_reducible refine Keeps.pair3 (by assumption) ?_
    | (refine ⟨fun p hp => ?_, ?_, ?_⟩; rotate_left; (first | exact fun hr => hr | exact h.regs); (first | exact fun _ => Grows.refl _ | exact h.adds); cases p <;> first | exact absurd (by decide) hp | apply Eq.refl | apply h.same _ hp)
    | intro _
    | (dsimp only)
    | with_reducible refine Keeps.step (keeps_pwr ..) (by decide) ?_)

theorem Dev.smbAnswer_keeps (d : Dev) (a1 : List Byte) : Keeps [.out] d (Dev.smbAnswer d a1) := by
  unfold Dev.smbAnswer
  repeat' (first
    | with_reducible exact Keeps.refl _ _
    | split
    | (with_reducible apply Keeps.step (Dev.emit_keeps ..); · decide))

theorem Dev.fullReset_keeps (d : Dev) (a1 : Nat) : Keeps [.rw, .rwAct, .shadow, .shadowAt, .effect, .srvNext, .w1c, .cnt, .rol, .rolBeat, .merge, .taken, .hst, .lnk, .crs, .msn, .pth, .lsr, .mpm, .srv, .safe, .cam, .cdc, .dma, .memc, .tmb, .axs, .lgt, .thm, .cal, .pwr, .log, .latches, .replies, .exporting, .slots, .boot, .act, .settings, .resetReq] d (Dev.fullReset d a1) := by
  have h0 := Dev.flushLog_keeps d
  unfold Dev.fullReset
  dsimp only
  refine Keeps.step (Dev.chooseSettings_keeps ..) (by decide) ?_
  have hr : ∀ x : Dev, x.ev.out = d.flushLog.ev.out → x.freeCount = d.flushLog.freeCount → x.regs = {} → Keeps [.rw, .rwAct, .shadow, .shadowAt, .effect, .srvNext, .w1c, .cnt, .rol, .rolBeat, .merge, .taken, .hst, .lnk, .crs, .msn, .pth, .lsr, .mpm, .srv, .safe, .cam, .cdc, .dma, .memc, .tmb, .axs, .lgt, .thm, .cal, .pwr, .log, .latches, .replies, .exporting, .slots, .boot, .act, .settings, .resetReq] d x := by
    intro x ho hf hx
    refine ⟨fun p hp => ?_, fun _ => by rw [hx]; rfl, fun hn => absurd (by decide) hn⟩
    cases p <;> first
      | exact absurd (by decide) hp
      | exact ho.trans (h0.same .out (by decide))
      | exact hf.trans (h0.same .freeCount (by decide))
  split
  · exact Keeps.step (Dev.fwEvent_keeps ..) (by decide) (Keeps.step (Dev.dropTrial_keeps ..) (by decide)
      (Keeps.step (Dev.raise_keeps ..) (by decide) (hr _ rfl rfl rfl)))
  · exact Keeps.step (Dev.raise_keeps ..) (by decide) (hr _ rfl rfl rfl)

theorem Dev.setIsland_keeps (d : Dev) (a1 : Nat) (a2 : Nat) : Keeps [.pwr] d (Dev.setIsland d a1 a2) := by
  unfold Dev.setIsland
  repeat' (first
    | with_reducible exact Keeps.refl _ _
    | (refine ⟨fun p hp => ?_, fun hr => hr, fun _ => Grows.refl _⟩; cases p <;> first | exact absurd (by decide) hp | apply Eq.refl))

theorem Dev.gateIsland_keeps (d : Dev) (a1 : Nat) : Keeps [.pwr] d (Dev.gateIsland d a1) := by
  unfold Dev.gateIsland
  repeat' (first
    | with_reducible exact Keeps.refl _ _
    | split
    | (with_reducible apply Keeps.step (Dev.setIsland_keeps ..); · decide))

theorem Dev.settleIslands_keeps (d : Dev) : Keeps [.pwr] d (Dev.settleIslands d) := by
  unfold Dev.settleIslands
  repeat' (first
    | (extract_lets +onlyGivenNames x; first | (refine Keeps.cut x ?_ ?_; (unfold x; clear x); rotate_left; (clear_value x; revert x; intro _ h)) | (revert x; intro _))
    | with_reducible refine Keeps.foldl _ (fun _ _ h => ?_) ?_
    | with_reducible refine Keeps.forRange _ (fun _ _ h => ?_) ?_
    | with_reducible exact Keeps.refl _ _
    | with_reducible assumption
    | split
    | (with_reducible apply Keeps.step (Dev.setIsland_keeps ..); · decide)
    | (with_reducible apply Keeps.step (Dev.workFor_keeps ..); · decide)
    | (refine ⟨fun p hp => ?_, ?_, ?_⟩; rotate_left; (first | exact fun hr => hr | exact h.regs); (first | exact fun _ => Grows.refl _ | exact h.adds); cases p <;> first | exact absurd (by decide) hp | apply Eq.refl | apply h.same _ hp))

theorem Dev.wakeIsland_keeps (d : Dev) (a1 : Nat) : Keeps [.pwr] d (Dev.wakeIsland d a1) := by
  unfold Dev.wakeIsland
  repeat' (first
    | with_reducible exact Keeps.refl _ _
    | split
    | (with_reducible apply Keeps.step (Dev.setIsland_keeps ..); · decide)
    | (refine ⟨fun p hp => ?_, fun hr => hr, fun _ => Grows.refl _⟩; cases p <;> first | exact absurd (by decide) hp | apply Eq.refl))

theorem Dev.offIsland_keeps (d : Dev) (a1 : Nat) : Keeps [.pth, .pwr] d (Dev.offIsland d a1) := by
  unfold Dev.offIsland
  repeat' (first
    | with_reducible exact Keeps.refl _ _
    | split
    | (with_reducible apply Keeps.step (Dev.updPiste_keeps ..); · decide)
    | (with_reducible apply Keeps.step (Dev.setIsland_keeps ..); · decide))

theorem Dev.standbyGood_keeps (d : Dev) (a1 : BitVec 5) : Keeps [.taken, .pwr] d (Dev.standbyGood d a1) := by
  unfold Dev.standbyGood
  repeat' (first
    | with_reducible exact Keeps.refl _ _
    | (refine ⟨fun p hp => ?_, fun hr => hr, fun _ => Grows.refl _⟩; cases p <;> first | exact absurd (by decide) hp | apply Eq.refl))

theorem Dev.sequenceDone_keeps (d : Dev) : Keeps [.safe, .pwr] d (Dev.sequenceDone d) := by
  unfold Dev.sequenceDone
  repeat' (first
    | with_reducible exact Keeps.refl _ _
    | split
    | (refine ⟨fun p hp => ?_, fun hr => hr, fun _ => Grows.refl _⟩; cases p <;> first | exact absurd (by decide) hp | apply Eq.refl))

theorem Dev.standbyLost_keeps (d : Dev) : Keeps [.rw, .rwAct, .shadow, .shadowAt, .effect, .srvNext, .w1c, .cnt, .rol, .rolBeat, .merge, .taken, .hst, .lnk, .crs, .msn, .pth, .lsr, .mpm, .srv, .safe, .cam, .cdc, .dma, .memc, .tmb, .axs, .lgt, .thm, .cal, .pwr, .log, .latches, .replies, .exporting, .boot, .act, .settings, .resetReq] d (Dev.standbyLost d) := by
  refine ⟨fun p hp => ?_, fun hr => (rfl : RegFile.wf {} = true), fun hn => absurd (by decide) hn⟩
  cases p <;> first | exact absurd (by decide) hp | apply Eq.refl

theorem Dev.perstLow_keeps (d : Dev) : Keeps [.rw, .rwAct, .w1c, .cnt, .rol, .merge, .hst, .lnk, .crs, .msn, .log] d (Dev.perstLow d) := by
  unfold Dev.perstLow
  repeat' (first
    | (extract_lets +onlyGivenNames x; first | (refine Keeps.cut x ?_ ?_; (unfold x; clear x); rotate_left; (clear_value x; revert x; intro _ h)) | (revert x; intro _))
    | with_reducible exact Keeps.refl _ _
    | with_reducible assumption
    | split
    | (with_reducible apply Keeps.step (Dev.settleHold_keeps ..); · decide)
    | (with_reducible apply Keeps.step (Dev.linkFalls_keeps ..); · decide)
    | (with_reducible apply Keeps.step (Dev.flr_keeps ..); · decide)
    | (refine ⟨fun p hp => ?_, ?_, ?_⟩; rotate_left; (first | exact fun hr => hr | exact h.regs); (first | exact fun _ => Grows.refl _ | exact h.adds); cases p <;> first | exact absurd (by decide) hp | apply Eq.refl | apply h.same _ hp))

/-! ## RegAcc -/

theorem Dev.writeMgt_keeps (d : Dev) (a1 : RegDef) (a2 : W64) (a3 : Nat) (a4 : Nat) : Keeps [.rw, .shadow, .w1c, .safe] d (Dev.writeMgt d a1 a2 a3 a4) := by
  unfold Dev.writeMgt
  repeat' (first
    | with_reducible exact Keeps.refl _ _
    | split
    | (with_reducible apply Keeps.step (Dev.store_keeps ..); · decide)
    | (with_reducible apply Keeps.step (Dev.writeSafe_keeps ..); · decide)
    | (with_reducible apply Keeps.step (Dev.writeCalTol_keeps ..); · decide))

theorem Dev.writeBlock_keeps (d : Dev) (a1 : Mem) (a2 : Source) (a3 : Nat) (a4 : RegDef) (a5 : W64) (a6 : Nat) (a7 : Nat) : Keeps [.rw, .shadow, .w1c, .cnt, .merge, .hst, .lnk, .lsr, .srv, .safe, .cam, .tmb, .lgt, .thm, .log] d (Dev.writeBlock d a1 a2 a3 a4 a5 a6 a7) := by
  unfold Dev.writeBlock
  repeat' (first
    | with_reducible exact Keeps.refl _ _
    | split
    | (with_reducible apply Keeps.step (Dev.store_keeps ..); · decide)
    | (with_reducible apply Keeps.step (Dev.writeMpm_keeps ..); · decide)
    | (with_reducible apply Keeps.step (Dev.writePth_keeps ..); · decide)
    | (with_reducible apply Keeps.step (Dev.writeLnk_keeps ..); · decide)
    | (with_reducible apply Keeps.step (Dev.writeMgt_keeps ..); · decide)
    | (with_reducible apply Keeps.step (Dev.writeHst_keeps ..); · decide)
    | (with_reducible apply Keeps.step (Dev.writeMsn_keeps ..); · decide)
    | (with_reducible apply Keeps.step (Dev.writeLsr_keeps ..); · decide)
    | (with_reducible apply Keeps.step (Dev.writeSrv_keeps ..); · decide)
    | (with_reducible apply Keeps.step (Dev.writeCam_keeps ..); · decide)
    | (with_reducible apply Keeps.step (Dev.writeDma_keeps ..); · decide)
    | (with_reducible apply Keeps.step (Dev.writeMem_keeps ..); · decide)
    | (with_reducible apply Keeps.step (Dev.writeTmb_keeps ..); · decide)
    | (with_reducible apply Keeps.step (Dev.writeAxs_keeps ..); · decide)
    | (with_reducible apply Keeps.step (Dev.writeLgt_keeps ..); · decide)
    | (with_reducible apply Keeps.step (Dev.writeThm_keeps ..); · decide))

theorem Dev.readReg_keeps (d : Dev) (a1 : Mem) (a2 : Nat) : Keeps [.freeCount] d (Dev.readReg d a1 a2).2 := by
  unfold Dev.readReg
  repeat' (first
    | (extract_lets +onlyGivenNames x; first | (refine Keeps.cut x ?_ ?_; (unfold x; clear x); rotate_left; (clear_value x; revert x; intro _ h)) | (revert x; intro _))
    | with_reducible refine Keeps.foldl _ (fun _ _ h => ?_) ?_
    | with_reducible refine Keeps.forRange _ (fun _ _ h => ?_) ?_
    | with_reducible exact Keeps.refl _ _
    | with_reducible assumption
    | split
    | (with_reducible apply Keeps.step (Dev.free_keeps ..); · decide)
    | with_reducible refine Keeps.forRangeR _ (fun _ _ h => ?_) ?_
    | with_reducible refine Keeps.foldlR _ (fun _ _ h => ?_) ?_
    | with_reducible refine Keeps.iteR ?_ ?_
    | with_reducible refine Keeps.pairR (by assumption) ?_
    | with_reducible refine Keeps.pairL (by assumption) ?_
    | with_reducible refine Keeps.pair3 (by assumption) ?_
    | (refine ⟨fun p hp => ?_, ?_, ?_⟩; rotate_left; (first | exact fun hr => hr | exact h.regs); (first | exact fun _ => Grows.refl _ | exact h.adds); cases p <;> first | exact absurd (by decide) hp | apply Eq.refl | apply h.same _ hp)
    | intro _
    | (dsimp only))

theorem Dev.readHigh_keeps (d : Dev) (a1 : Mem) (a2 : Source) (a3 : Nat) : Keeps [.freeCount, .latches] d (Dev.readHigh d a1 a2 a3).2 := by
  unfold Dev.readHigh
  have h0 : Keeps [.freeCount, .latches] d { d with mgt.rdLatch := upd d.mgt.rdLatch (srcIndex a2) (fun _ => none) } := by
    refine ⟨fun p hp => ?_, fun hr => hr, fun _ => Grows.refl _⟩
    cases p <;> first | exact absurd (by decide) hp | exact rfl
  dsimp only
  split
  · exact h0
  · exact Keeps.step (Dev.readReg_keeps ..) (by decide) h0

theorem Dev.writeReg_keeps (d : Dev) (a1 : Mem) (a2 : Source) (a3 : Nat) (a4 : W64) : Keeps [.rw, .shadow, .w1c, .cnt, .merge, .out, .hst, .lnk, .lsr, .srv, .safe, .cam, .tmb, .lgt, .thm, .log] d (Dev.writeReg d a1 a2 a3 a4) := by
  unfold Dev.writeReg
  repeat' (first
    | (extract_lets +onlyGivenNames x; first | (refine Keeps.cut x ?_ ?_; (unfold x; clear x); rotate_left; (clear_value x; revert x; intro _ h)) | (revert x; intro _))
    | with_reducible refine Keeps.foldl _ (fun _ _ h => ?_) ?_
    | with_reducible refine Keeps.forRange _ (fun _ _ h => ?_) ?_
    | with_reducible exact Keeps.refl _ _
    | with_reducible assumption
    | split
    | (with_reducible apply Keeps.step (Dev.writeBlock_keeps ..); · decide)
    | (with_reducible apply Keeps.step (Dev.msixAccess_keeps ..); · decide)
    | with_reducible refine Dev.calGuard_keeps (by decide) ?_ ?_
    | with_reducible refine Keeps.pairR (by assumption) ?_
    | with_reducible refine Keeps.pairL (by assumption) ?_
    | with_reducible refine Keeps.pair3 (by assumption) ?_
    | (refine ⟨fun p hp => ?_, ?_, ?_⟩; rotate_left; (first | exact fun hr => hr | exact h.regs); (first | exact fun _ => Grows.refl _ | exact h.adds); cases p <;> first | exact absurd (by decide) hp | apply Eq.refl | apply h.same _ hp)
    | intro _
    | (dsimp only))

theorem Dev.landHigh_keeps (d : Dev) (a1 : Mem) (a2 : Source) (a3 : Nat) (a4 : W32) : Keeps [.rw, .shadow, .w1c, .cnt, .merge, .out, .hst, .lnk, .lsr, .srv, .safe, .cam, .tmb, .lgt, .thm, .log, .latches] d (Dev.landHigh d a1 a2 a3 a4) := by
  unfold Dev.landHigh
  repeat' (first
    | with_reducible exact Keeps.refl _ _
    | (with_reducible apply Keeps.step (Dev.writeReg_keeps ..); · decide)
    | (refine ⟨fun p hp => ?_, fun hr => hr, fun _ => Grows.refl _⟩; cases p <;> first | exact absurd (by decide) hp | apply Eq.refl))

theorem Dev.stageLow_keeps (d : Dev) (a1 : Source) (a2 : Nat) (a3 : W32) : Keeps [.latches] d (Dev.stageLow d a1 a2 a3) := by
  unfold Dev.stageLow
  repeat' (first
    | with_reducible exact Keeps.refl _ _
    | (refine ⟨fun p hp => ?_, fun hr => hr, fun _ => Grows.refl _⟩; cases p <;> first | exact absurd (by decide) hp | apply Eq.refl))

theorem Dev.write32_keeps (d : Dev) (a1 : Mem) (a2 : Source) (a3 : Nat) (a4 : W32) : Keeps [.rw, .shadow, .w1c, .cnt, .merge, .out, .hst, .lnk, .lsr, .srv, .safe, .cam, .tmb, .lgt, .thm, .log, .latches] d (Dev.write32 d a1 a2 a3 a4) := by
  unfold Dev.write32
  repeat' (first
    | with_reducible exact Keeps.refl _ _
    | split
    | (with_reducible apply Keeps.step (Dev.msixAccess_keeps ..); · decide)
    | (with_reducible apply Keeps.step (Dev.landHigh_keeps ..); · decide)
    | (with_reducible apply Keeps.step (Dev.stageLow_keeps ..); · decide))

theorem Dev.readLow_keeps (d : Dev) (a1 : Mem) (a2 : Source) (a3 : Nat) : Keeps [.freeCount, .latches] d (Dev.readLow d a1 a2 a3).2 := by
  unfold Dev.readLow
  repeat' (first
    | (extract_lets +onlyGivenNames x; first | (refine Keeps.cut x ?_ ?_; (unfold x; clear x); rotate_left; (clear_value x; revert x; intro _ h)) | (revert x; intro _))
    | with_reducible refine Keeps.foldl _ (fun _ _ h => ?_) ?_
    | with_reducible refine Keeps.forRange _ (fun _ _ h => ?_) ?_
    | with_reducible exact Keeps.refl _ _
    | with_reducible assumption
    | split
    | (with_reducible apply Keeps.step (Dev.readReg_keeps ..); · decide)
    | with_reducible refine Keeps.forRangeR _ (fun _ _ h => ?_) ?_
    | with_reducible refine Keeps.foldlR _ (fun _ _ h => ?_) ?_
    | with_reducible refine Keeps.iteR ?_ ?_
    | with_reducible refine Keeps.pairR (by assumption) ?_
    | with_reducible refine Keeps.pairL (by assumption) ?_
    | with_reducible refine Keeps.pair3 (by assumption) ?_
    | (refine ⟨fun p hp => ?_, ?_, ?_⟩; rotate_left; (first | exact fun hr => hr | exact h.regs); (first | exact fun _ => Grows.refl _ | exact h.adds); cases p <;> first | exact absurd (by decide) hp | apply Eq.refl | apply h.same _ hp)
    | intro _
    | (dsimp only)
    | with_reducible refine Keeps.step (keeps_exporting ..) (by decide) ?_
    | with_reducible refine Keeps.step (keeps_log ..) (by decide) ?_
    | with_reducible refine Keeps.step (keeps_replies ..) (by decide) ?_)

theorem Dev.read32_keeps (d : Dev) (a1 : Mem) (a2 : Source) (a3 : Nat) : Keeps [.freeCount, .latches] d (Dev.read32 d a1 a2 a3).2 := by
  unfold Dev.read32
  repeat' (first
    | (extract_lets +onlyGivenNames x; first | (refine Keeps.cut x ?_ ?_; (unfold x; clear x); rotate_left; (clear_value x; revert x; intro _ h)) | (revert x; intro _))
    | with_reducible refine Keeps.foldl _ (fun _ _ h => ?_) ?_
    | with_reducible refine Keeps.forRange _ (fun _ _ h => ?_) ?_
    | with_reducible exact Keeps.refl _ _
    | with_reducible assumption
    | split
    | (with_reducible apply Keeps.step (Dev.readHigh_keeps ..); · decide)
    | (with_reducible apply Keeps.step (Dev.readLow_keeps ..); · decide)
    | with_reducible refine Keeps.forRangeR _ (fun _ _ h => ?_) ?_
    | with_reducible refine Keeps.foldlR _ (fun _ _ h => ?_) ?_
    | with_reducible refine Keeps.iteR ?_ ?_
    | with_reducible refine Keeps.pairR (by assumption) ?_
    | with_reducible refine Keeps.pairL (by assumption) ?_
    | with_reducible refine Keeps.pair3 (by assumption) ?_
    | (refine ⟨fun p hp => ?_, ?_, ?_⟩; rotate_left; (first | exact fun hr => hr | exact h.regs); (first | exact fun _ => Grows.refl _ | exact h.adds); cases p <;> first | exact absurd (by decide) hp | apply Eq.refl | apply h.same _ hp)
    | intro _
    | (dsimp only))

theorem Dev.pmpReg_keeps (d : Dev) (a1 : Mem) (a2 : PmpHdr) (a3 : Nat) (a4 : Option W32) : Keeps [.rw, .shadow, .w1c, .cnt, .merge, .out, .freeCount, .hst, .lnk, .lsr, .srv, .safe, .cam, .tmb, .lgt, .thm, .log, .latches, .replies] d (Dev.pmpReg d a1 a2 a3 a4) := by
  unfold Dev.pmpReg
  repeat' (first
    | with_reducible exact Keeps.refl _ _
    | split
    | (with_reducible apply Keeps.step (Dev.answerPmp_keeps ..); · decide)
    | (with_reducible apply Keeps.step (Dev.write32_keeps ..); · decide)
    | (with_reducible apply Keeps.step (Dev.read32_keeps ..); · decide))

theorem Dev.write64_keeps (d : Dev) (a1 : Mem) (a2 : Source) (a3 : Nat) (a4 : W64) : Keeps [.rw, .shadow, .w1c, .cnt, .merge, .out, .hst, .lnk, .lsr, .srv, .safe, .cam, .tmb, .lgt, .thm, .log, .latches] d (Dev.write64 d a1 a2 a3 a4) := by
  unfold Dev.write64
  repeat' (first
    | (extract_lets +onlyGivenNames x; first | (refine Keeps.cut x ?_ ?_; (unfold x; clear x); rotate_left; (clear_value x; revert x; intro _ h)) | (revert x; intro _))
    | with_reducible refine Keeps.foldl _ (fun _ _ h => ?_) ?_
    | with_reducible refine Keeps.forRange _ (fun _ _ h => ?_) ?_
    | with_reducible exact Keeps.refl _ _
    | with_reducible assumption
    | split
    | (with_reducible apply Keeps.step (Dev.writeReg_keeps ..); · decide)
    | (with_reducible apply Keeps.step (Dev.write32_keeps ..); · decide)
    | with_reducible refine Keeps.pairR (by assumption) ?_
    | with_reducible refine Keeps.pairL (by assumption) ?_
    | with_reducible refine Keeps.pair3 (by assumption) ?_
    | (refine ⟨fun p hp => ?_, ?_, ?_⟩; rotate_left; (first | exact fun hr => hr | exact h.regs); (first | exact fun _ => Grows.refl _ | exact h.adds); cases p <;> first | exact absurd (by decide) hp | apply Eq.refl | apply h.same _ hp)
    | intro _
    | (dsimp only))

/-! ## Tick -/

theorem Dev.sampled_keeps (a0 : RegFile) (d : Dev) : Keeps [.cnt, .merge, .freeCount, .hst, .lnk, .crs, .msn, .cdc, .dma, .memc, .tmb, .axs, .lgt, .log] d (Dev.sampled a0 d) := by
  unfold Dev.sampled
  repeat' (first
    | (extract_lets +onlyGivenNames x; first | (refine Keeps.cut x ?_ ?_; (unfold x; clear x); rotate_left; (clear_value x; revert x; intro _ h)) | (revert x; intro _))
    | with_reducible refine Keeps.foldl _ (fun _ _ h => ?_) ?_
    | with_reducible refine Keeps.forRange _ (fun _ _ h => ?_) ?_
    | with_reducible exact Keeps.refl _ _
    | with_reducible assumption
    | split
    | (with_reducible apply Keeps.step (Dev.ringEdge_keeps ..); · decide)
    | (with_reducible apply Keeps.step (Dev.moverEdge_keeps ..); · decide)
    | (with_reducible apply Keeps.step (Dev.codecEdge_keeps ..); · decide)
    | (with_reducible apply Keeps.step (Dev.ddrEdge_keeps ..); · decide)
    | (with_reducible apply Keeps.step (Dev.lnkEdge_keeps ..); · decide)
    | (with_reducible apply Keeps.step (Dev.stepperEdge_keeps ..); · decide)
    | (with_reducible apply Keeps.step (Dev.settleHold_keeps ..); · decide)
    | (with_reducible apply Keeps.step (Dev.lightEdge_keeps ..); · decide)
    | with_reducible refine Keeps.pairR (by assumption) ?_
    | with_reducible refine Keeps.pairL (by assumption) ?_
    | with_reducible refine Keeps.pair3 (by assumption) ?_
    | (refine ⟨fun p hp => ?_, ?_, ?_⟩; rotate_left; (first | exact fun hr => hr | exact h.regs); (first | exact fun _ => Grows.refl _ | exact h.adds); cases p <;> first | exact absurd (by decide) hp | apply Eq.refl | apply h.same _ hp)
    | intro _
    | (dsimp only))

theorem Dev.takeHold_keeps (d : Dev) (a1 : Nat) : Keeps [.cnt, .merge, .crs, .msn, .pth, .log] d (Dev.takeHold d a1) := by
  unfold Dev.takeHold
  repeat' (first
    | (extract_lets +onlyGivenNames x; first | (refine Keeps.cut x ?_ ?_; (unfold x; clear x); rotate_left; (clear_value x; revert x; intro _ h)) | (revert x; intro _))
    | with_reducible refine Keeps.foldl _ (fun _ _ h => ?_) ?_
    | with_reducible refine Keeps.forRange _ (fun _ _ h => ?_) ?_
    | with_reducible exact Keeps.refl _ _
    | with_reducible assumption
    | split
    | (with_reducible apply Keeps.step (Dev.bump_keeps ..); · decide)
    | (with_reducible apply Keeps.step (Dev.raise_keeps ..); · decide)
    | (with_reducible apply Keeps.step (Dev.updLaser_keeps ..); · decide)
    | (with_reducible apply Keeps.step (Dev.updPiste_keeps ..); · decide)
    | (with_reducible apply Keeps.step (Dev.setLaser_keeps ..); · decide)
    | with_reducible refine Keeps.pairR (by assumption) ?_
    | with_reducible refine Keeps.pairL (by assumption) ?_
    | with_reducible refine Keeps.pair3 (by assumption) ?_
    | (refine ⟨fun p hp => ?_, ?_, ?_⟩; rotate_left; (first | exact fun hr => hr | exact h.regs); (first | exact fun _ => Grows.refl _ | exact h.adds); cases p <;> first | exact absurd (by decide) hp | apply Eq.refl | apply h.same _ hp)
    | intro _
    | (dsimp only))

theorem Dev.everyBeat_keeps (d : Dev) : Keeps [.rw, .rwAct, .w1c, .cnt, .merge, .freeCount, .hst, .crs, .msn, .pth, .lsr, .mpm, .srv, .safe, .tmb, .thm, .cal, .log] d (Dev.everyBeat d) := by
  unfold Dev.everyBeat
  repeat' (first
    | (extract_lets +onlyGivenNames x; first | (refine Keeps.cut x ?_ ?_; (unfold x; clear x); rotate_left; (clear_value x; revert x; intro _ h)) | (revert x; intro _))
    | with_reducible refine Keeps.foldl _ (fun _ _ h => ?_) ?_
    | with_reducible refine Keeps.forRange _ (fun _ _ h => ?_) ?_
    | with_reducible exact Keeps.refl _ _
    | with_reducible assumption
    | split
    | (with_reducible apply Keeps.step (Dev.countUntil_keeps ..); · decide)
    | (with_reducible apply Keeps.step (Dev.takeHold_keeps ..); · decide)
    | (with_reducible apply Keeps.step (Dev.axisEdge_keeps ..); · decide)
    | (with_reducible apply Keeps.step (Dev.chanEdge_keeps ..); · decide)
    | (with_reducible apply Keeps.step (Dev.beaconEdge_keeps ..); · decide)
    | (with_reducible apply Keeps.step (Dev.calWatch_keeps ..); · decide)
    | (with_reducible apply Keeps.step (Dev.settleThermal_keeps ..); · decide)
    | (with_reducible apply Keeps.step (Dev.settleFault_keeps ..); · decide)
    | (with_reducible apply Keeps.step (Dev.settleAxis_keeps ..); · decide)
    | (with_reducible apply Keeps.step (Dev.clockOutputs_keeps ..); · decide)
    | (refine ⟨fun p hp => ?_, ?_, ?_⟩; rotate_left; (first | exact fun hr => hr | exact h.regs); (first | exact fun _ => Grows.refl _ | exact h.adds); cases p <;> first | exact absurd (by decide) hp | apply Eq.refl | apply h.same _ hp))

theorem Dev.everyEdge_keeps (a0 : RegFile) (d : Dev) : Keeps [.rw, .rwAct, .w1c, .cnt, .merge, .freeCount, .hst, .lnk, .crs, .msn, .pth, .lsr, .mpm, .srv, .safe, .cdc, .dma, .memc, .tmb, .axs, .lgt, .thm, .cal, .pwr, .log] d (Dev.everyEdge a0 d) := by
  unfold Dev.everyEdge
  repeat' (first
    | (extract_lets +onlyGivenNames x; first | (refine Keeps.cut x ?_ ?_; (unfold x; clear x); rotate_left; (clear_value x; revert x; intro _ h)) | (revert x; intro _))
    | with_reducible refine Keeps.foldl _ (fun _ _ h => ?_) ?_
    | with_reducible refine Keeps.forRange _ (fun _ _ h => ?_) ?_
    | with_reducible exact Keeps.refl _ _
    | with_reducible assumption
    | split
    | (with_reducible apply Keeps.step (Dev.sampled_keeps ..); · decide)
    | (with_reducible apply Keeps.step (Dev.countIdle_keeps ..); · decide)
    | (with_reducible apply Keeps.step (Dev.everyBeat_keeps ..); · decide)
    | with_reducible refine Keeps.pairR (by assumption) ?_
    | with_reducible refine Keeps.pairL (by assumption) ?_
    | with_reducible refine Keeps.pair3 (by assumption) ?_
    | (refine ⟨fun p hp => ?_, ?_, ?_⟩; rotate_left; (first | exact fun hr => hr | exact h.regs); (first | exact fun _ => Grows.refl _ | exact h.adds); cases p <;> first | exact absurd (by decide) hp | apply Eq.refl | apply h.same _ hp)
    | intro _
    | (dsimp only))

theorem Dev.everyCycle_keeps (d : Dev) : Keeps [.cnt, .out, .lnk, .safe, .axs, .pwr] d (Dev.everyCycle d) := by
  unfold Dev.everyCycle
  repeat' (first
    | (extract_lets +onlyGivenNames x; first | (refine Keeps.cut x ?_ ?_; (unfold x; clear x); rotate_left; (clear_value x; revert x; intro _ h)) | (revert x; intro _))
    | with_reducible refine Keeps.foldl _ (fun _ _ h => ?_) ?_
    | with_reducible refine Keeps.forRange _ (fun _ _ h => ?_) ?_
    | with_reducible exact Keeps.refl _ _
    | with_reducible assumption
    | split
    | (with_reducible apply Keeps.step (Dev.bump_keeps ..); · decide)
    | (with_reducible apply Keeps.step (Dev.axCycle_keeps ..); · decide)
    | (with_reducible apply Keeps.step (Dev.lineCycle_keeps ..); · decide)
    | (with_reducible apply Keeps.step (Dev.settleIslands_keeps ..); · decide)
    | (with_reducible apply Keeps.step (Dev.peak_keeps ..); · decide)
    | with_reducible refine Keeps.pairR (by assumption) ?_
    | with_reducible refine Keeps.pairL (by assumption) ?_
    | with_reducible refine Keeps.pair3 (by assumption) ?_
    | (refine ⟨fun p hp => ?_, ?_, ?_⟩; rotate_left; (first | exact fun hr => hr | exact h.regs); (first | exact fun _ => Grows.refl _ | exact h.adds); cases p <;> first | exact absurd (by decide) hp | apply Eq.refl | apply h.same _ hp)
    | intro _
    | (dsimp only)
    | with_reducible refine Keeps.step (keeps_safe ..) (by decide) ?_)

theorem Dev.countBeat_keeps (d : Dev) : Keeps [.cnt] d (Dev.countBeat d) := by
  unfold Dev.countBeat
  repeat' (first
    | (extract_lets +onlyGivenNames x; first | (refine Keeps.cut x ?_ ?_; (unfold x; clear x); rotate_left; (clear_value x; revert x; intro _ h)) | (revert x; intro _))
    | with_reducible refine Keeps.foldl _ (fun _ _ h => ?_) ?_
    | with_reducible refine Keeps.forRange _ (fun _ _ h => ?_) ?_
    | with_reducible exact Keeps.refl _ _
    | with_reducible assumption
    | split
    | (with_reducible apply Keeps.step (Dev.bump_keeps ..); · decide)
    | (refine ⟨fun p hp => ?_, ?_, ?_⟩; rotate_left; (first | exact fun hr => hr | exact h.regs); (first | exact fun _ => Grows.refl _ | exact h.adds); cases p <;> first | exact absurd (by decide) hp | apply Eq.refl | apply h.same _ hp))

theorem Dev.tick_keeps (d : Dev) : Keeps [.rw, .rwAct, .shadowAt, .w1c, .cnt, .merge, .out, .freeCount, .hst, .lnk, .crs, .msn, .pth, .lsr, .mpm, .srv, .safe, .cdc, .dma, .memc, .tmb, .axs, .lgt, .thm, .cal, .pwr, .log] d (Dev.tick d) := by
  unfold Dev.tick
  repeat' (first
    | (extract_lets +onlyGivenNames x; first | (refine Keeps.cut x ?_ ?_; (unfold x; clear x); rotate_left; (clear_value x; revert x; intro _ h)) | (revert x; intro _))
    | with_reducible exact Keeps.refl _ _
    | with_reducible assumption
    | split
    | (with_reducible apply Keeps.step (Dev.everyEdge_keeps ..); · decide)
    | (with_reducible apply Keeps.step (Dev.advance_keeps ..); · decide)
    | (with_reducible apply Keeps.step (Dev.everyCycle_keeps ..); · decide)
    | (with_reducible apply Keeps.step (Dev.countBeat_keeps ..); · decide)
    | (with_reducible apply Keeps.step (Dev.takeCut_keeps ..); · decide)
    | (refine ⟨fun p hp => ?_, ?_, ?_⟩; rotate_left; (first | exact fun hr => hr | exact h.regs); (first | exact fun _ => Grows.refl _ | exact h.adds); cases p <;> first | exact absurd (by decide) hp | apply Eq.refl | apply h.same _ hp))

end Sys2Proof.Machine
end

