-- ==== Sys2Proof/Laws/KeepsExec.lean ====
section
/-!
SUPPORT. Frames of the commands: one lemma per meaning, saying which parts of the device it may change (`Instr.writes`), whether it may
change the memories (`Instr.storesMem`), and that the rest of the queue stands.
-/
namespace Sys2Proof.Machine
set_option linter.all false

/-- What the outcome keeps, if it is a next state. -/
structure KeepsX (w : List Part) (m : Bool) (s : State) (r : Host.Outcome State Fault Refusal) : Prop where
  keeps : ∀ t, r = .next t → KeepsS w m s t

theorem keeps_resetAt (d : Dev) (v : Option Int) : Keeps [.resetReq] d { d with mgt.resetAt := v } := by
  refine ⟨fun p hp => ?_, fun hr => hr, fun _ => Grows.refl _⟩; cases p <;> first | exact absurd (by decide) hp | exact rfl
theorem KeepsS.refl (w : List Part) (m : Bool) (s : State) : KeepsS w m s s :=
  ⟨Keeps.refl w s.dev, fun _ => rfl, rfl⟩
theorem KeepsS.ofDev {w : List Part} {m : Bool} {s : State} {d : Dev} (h : Keeps w s.dev d) : KeepsS w m s { s with dev := d } :=
  ⟨h, fun _ => rfl, rfl⟩
theorem KeepsS.ofMem {w : List Part} {s : State} {x : Mem} {d : Dev} (h : Keeps w s.dev d) :
    KeepsS w true s { s with mem := x, dev := d } := ⟨h, (nomatch ·), rfl⟩
theorem KeepsX.next {w : List Part} {m : Bool} {s t : State} (h : KeepsS w m s t) : KeepsX w m s (.next t) :=
  ⟨fun _ e => by cases e; exact h⟩
theorem KeepsX.fault (w : List Part) (m : Bool) (s : State) (r : Fault) : KeepsX w m s (.fault r) := ⟨fun _ e => nomatch e⟩
theorem KeepsX.mainOnly {w : List Part} {m : Bool} {s t : State} (h : KeepsS w m s t) : KeepsX w m s (s.mainOnly t) := by
  unfold State.mainOnly
  refine KeepsX.next ?_
  split
  · exact h
  · exact KeepsS.refl ..

theorem execRegisterWrite_keeps (src : Source) (off : Nat) (v : W64) (s : State) : KeepsX [.rw, .shadow, .w1c, .cnt, .merge, .out, .hst, .lnk, .lsr, .srv, .safe, .cam, .tmb, .lgt, .thm, .log, .latches] false s (execRegisterWrite src off v s) := by
  unfold execRegisterWrite
  repeat' (first
    | with_reducible refine KeepsX.mainOnly ?_
    | with_reducible refine KeepsX.next ?_
    | with_reducible exact KeepsX.fault _ _ _ _
    | with_reducible exact KeepsS.refl _ _ _
    | with_reducible exact Keeps.refl _ _
    | split
    | (with_reducible apply Keeps.step (Dev.write64_keeps ..); · decide)
    | with_reducible assumption
    | refine KeepsS.ofDev ?_
    | refine KeepsS.ofMem ?_
    | (refine ⟨fun p hp => ?_, fun hr => hr, fun _ => Grows.refl _⟩; cases p <;> first | exact absurd (by decide) hp | apply Eq.refl)
    | (dsimp only))

theorem execLowerHalfWrite_keeps (src : Source) (off : Nat) (v : W32) (s : State) : KeepsX [.rw, .shadow, .w1c, .cnt, .merge, .out, .hst, .lnk, .lsr, .srv, .safe, .cam, .tmb, .lgt, .thm, .log, .latches] false s (execLowerHalfWrite src off v s) := by
  unfold execLowerHalfWrite
  repeat' (first
    | with_reducible refine KeepsX.mainOnly ?_
    | with_reducible refine KeepsX.next ?_
    | with_reducible exact KeepsX.fault _ _ _ _
    | with_reducible exact KeepsS.refl _ _ _
    | with_reducible exact Keeps.refl _ _
    | split
    | (with_reducible apply Keeps.step (Dev.write32_keeps ..); · decide)
    | with_reducible assumption
    | refine KeepsS.ofDev ?_
    | refine KeepsS.ofMem ?_
    | (refine ⟨fun p hp => ?_, fun hr => hr, fun _ => Grows.refl _⟩; cases p <;> first | exact absurd (by decide) hp | apply Eq.refl)
    | (dsimp only))

theorem execUpperHalfWrite_keeps (src : Source) (off : Nat) (v : W32) (s : State) : KeepsX [.rw, .shadow, .w1c, .cnt, .merge, .out, .hst, .lnk, .lsr, .srv, .safe, .cam, .tmb, .lgt, .thm, .log, .latches] false s (execUpperHalfWrite src off v s) := by
  unfold execUpperHalfWrite
  repeat' (first
    | with_reducible refine KeepsX.mainOnly ?_
    | with_reducible refine KeepsX.next ?_
    | with_reducible exact KeepsX.fault _ _ _ _
    | with_reducible exact KeepsS.refl _ _ _
    | with_reducible exact Keeps.refl _ _
    | split
    | (with_reducible apply Keeps.step (Dev.write32_keeps ..); · decide)
    | with_reducible assumption
    | refine KeepsS.ofDev ?_
    | refine KeepsS.ofMem ?_
    | (refine ⟨fun p hp => ?_, fun hr => hr, fun _ => Grows.refl _⟩; cases p <;> first | exact absurd (by decide) hp | apply Eq.refl)
    | (dsimp only))

theorem execLowerHalfRead_keeps (src : Source) (off : Nat) (s : State) : KeepsX [.out, .freeCount, .latches] false s (execLowerHalfRead src off s) := by
  unfold execLowerHalfRead
  unfold State.halfRead
  repeat' (first
    | with_reducible refine KeepsX.mainOnly ?_
    | with_reducible refine KeepsX.next ?_
    | with_reducible exact KeepsX.fault _ _ _ _
    | with_reducible exact KeepsS.refl _ _ _
    | with_reducible exact Keeps.refl _ _
    | split
    | (with_reducible apply Keeps.step (Dev.read32_keeps ..); · decide)
    | (with_reducible apply Keeps.step (Dev.emit_keeps ..); · decide)
    | with_reducible assumption
    | refine KeepsS.ofDev ?_
    | refine KeepsS.ofMem ?_
    | (refine ⟨fun p hp => ?_, fun hr => hr, fun _ => Grows.refl _⟩; cases p <;> first | exact absurd (by decide) hp | apply Eq.refl)
    | (dsimp only))

theorem execUpperHalfRead_keeps (src : Source) (off : Nat) (s : State) : KeepsX [.out, .freeCount, .latches] false s (execUpperHalfRead src off s) := by
  unfold execUpperHalfRead
  unfold State.halfRead
  repeat' (first
    | with_reducible refine KeepsX.mainOnly ?_
    | with_reducible refine KeepsX.next ?_
    | with_reducible exact KeepsX.fault _ _ _ _
    | with_reducible exact KeepsS.refl _ _ _
    | with_reducible exact Keeps.refl _ _
    | split
    | (with_reducible apply Keeps.step (Dev.read32_keeps ..); · decide)
    | (with_reducible apply Keeps.step (Dev.emit_keeps ..); · decide)
    | with_reducible assumption
    | refine KeepsS.ofDev ?_
    | refine KeepsS.ofMem ?_
    | (refine ⟨fun p hp => ?_, fun hr => hr, fun _ => Grows.refl _⟩; cases p <;> first | exact absurd (by decide) hp | apply Eq.refl)
    | (dsimp only))

theorem execClockGateEntry_keeps (blk : Nat) (isl : Nat) (s : State) : KeepsX [.pwr] false s (execClockGateEntry blk isl s) := by
  unfold execClockGateEntry
  repeat' (first
    | with_reducible refine KeepsX.mainOnly ?_
    | with_reducible refine KeepsX.next ?_
    | with_reducible exact KeepsX.fault _ _ _ _
    | with_reducible exact KeepsS.refl _ _ _
    | with_reducible exact Keeps.refl _ _
    | split
    | (with_reducible apply Keeps.step (Dev.gateIsland_keeps ..); · decide)
    | with_reducible assumption
    | refine KeepsS.ofDev ?_
    | refine KeepsS.ofMem ?_
    | (refine ⟨fun p hp => ?_, fun hr => hr, fun _ => Grows.refl _⟩; cases p <;> first | exact absurd (by decide) hp | apply Eq.refl)
    | (dsimp only))

theorem execIslandOffEntry_keeps (blk : Nat) (isl : Nat) (s : State) : KeepsX [.pth, .pwr] false s (execIslandOffEntry blk isl s) := by
  unfold execIslandOffEntry
  repeat' (first
    | with_reducible refine KeepsX.mainOnly ?_
    | with_reducible refine KeepsX.next ?_
    | with_reducible exact KeepsX.fault _ _ _ _
    | with_reducible exact KeepsS.refl _ _ _
    | with_reducible exact Keeps.refl _ _
    | split
    | (with_reducible apply Keeps.step (Dev.offIsland_keeps ..); · decide)
    | with_reducible assumption
    | refine KeepsS.ofDev ?_
    | refine KeepsS.ofMem ?_
    | (refine ⟨fun p hp => ?_, fun hr => hr, fun _ => Grows.refl _⟩; cases p <;> first | exact absurd (by decide) hp | apply Eq.refl)
    | (dsimp only))

theorem execIslandWake_keeps (blk : Nat) (isl : Nat) (s : State) : KeepsX [.pwr] false s (execIslandWake blk isl s) := by
  unfold execIslandWake
  repeat' (first
    | with_reducible refine KeepsX.mainOnly ?_
    | with_reducible refine KeepsX.next ?_
    | with_reducible exact KeepsX.fault _ _ _ _
    | with_reducible exact KeepsS.refl _ _ _
    | with_reducible exact Keeps.refl _ _
    | split
    | (with_reducible apply Keeps.step (Dev.wakeIsland_keeps ..); · decide)
    | with_reducible assumption
    | refine KeepsS.ofDev ?_
    | refine KeepsS.ofMem ?_
    | (refine ⟨fun p hp => ?_, fun hr => hr, fun _ => Grows.refl _⟩; cases p <;> first | exact absurd (by decide) hp | apply Eq.refl)
    | (dsimp only))

theorem execPcieLinkUp_keeps (speed : Nat) (width : Nat) (s : State) : KeepsX [.merge, .out, .hst, .msn, .log] false s (execPcieLinkUp speed width s) := by
  unfold execPcieLinkUp
  repeat' (first
    | with_reducible refine KeepsX.mainOnly ?_
    | with_reducible refine KeepsX.next ?_
    | with_reducible exact KeepsX.fault _ _ _ _
    | with_reducible exact KeepsS.refl _ _ _
    | with_reducible exact Keeps.refl _ _
    | split
    | (with_reducible apply Keeps.step (Dev.linkRises_keeps ..); · decide)
    | with_reducible assumption
    | refine KeepsS.ofDev ?_
    | refine KeepsS.ofMem ?_
    | (refine ⟨fun p hp => ?_, fun hr => hr, fun _ => Grows.refl _⟩; cases p <;> first | exact absurd (by decide) hp | apply Eq.refl)
    | (dsimp only))

theorem execPcieLinkDown_keeps (s : State) : KeepsX [.cnt, .merge, .hst, .lnk, .crs, .msn, .log] false s (execPcieLinkDown s) := by
  unfold execPcieLinkDown
  repeat' (first
    | with_reducible refine KeepsX.mainOnly ?_
    | with_reducible refine KeepsX.next ?_
    | with_reducible exact KeepsX.fault _ _ _ _
    | with_reducible exact KeepsS.refl _ _ _
    | with_reducible exact Keeps.refl _ _
    | split
    | (with_reducible apply Keeps.step (Dev.linkFalls_keeps ..); · decide)
    | with_reducible assumption
    | refine KeepsS.ofDev ?_
    | refine KeepsS.ofMem ?_
    | (refine ⟨fun p hp => ?_, fun hr => hr, fun _ => Grows.refl _⟩; cases p <;> first | exact absurd (by decide) hp | apply Eq.refl)
    | (dsimp only))

theorem execFunctionLevelReset_keeps (s : State) : KeepsX [.rw, .rwAct, .w1c, .cnt, .rol, .merge, .hst, .msn, .log] false s (execFunctionLevelReset s) := by
  unfold execFunctionLevelReset
  repeat' (first
    | with_reducible refine KeepsX.mainOnly ?_
    | with_reducible refine KeepsX.next ?_
    | with_reducible exact KeepsX.fault _ _ _ _
    | with_reducible exact KeepsS.refl _ _ _
    | with_reducible exact Keeps.refl _ _
    | split
    | (with_reducible apply Keeps.step (Dev.settleHold_keeps ..); · decide)
    | (with_reducible apply Keeps.step (Dev.flr_keeps ..); · decide)
    | with_reducible assumption
    | refine KeepsS.ofDev ?_
    | refine KeepsS.ofMem ?_
    | (refine ⟨fun p hp => ?_, fun hr => hr, fun _ => Grows.refl _⟩; cases p <;> first | exact absurd (by decide) hp | apply Eq.refl)
    | (dsimp only))

theorem execBar2Write_keeps (addr : Nat) (bytes : List Byte) (ecc : EccRead) (s : State) : KeepsX [.cnt, .merge, .memc, .log] true s (execBar2Write addr bytes ecc s) := by
  unfold execBar2Write
  repeat' (first
    | with_reducible refine KeepsX.mainOnly ?_
    | with_reducible refine KeepsX.next ?_
    | with_reducible exact KeepsX.fault _ _ _ _
    | with_reducible exact KeepsS.refl _ _ _
    | with_reducible exact Keeps.refl _ _
    | split
    | (with_reducible apply Keeps.step (Dev.bar2Write_keeps ..); · decide)
    | with_reducible assumption
    | refine KeepsS.ofDev ?_
    | refine KeepsS.ofMem ?_
    | (refine ⟨fun p hp => ?_, fun hr => hr, fun _ => Grows.refl _⟩; cases p <;> first | exact absurd (by decide) hp | apply Eq.refl)
    | (dsimp only))

theorem execBar2Read_keeps (addr : Nat) (ecc : EccRead) (s : State) : KeepsX [.cnt, .merge, .out, .freeCount, .memc, .log] true s (execBar2Read addr ecc s) := by
  unfold execBar2Read
  repeat' (first
    | with_reducible refine KeepsX.mainOnly ?_
    | with_reducible refine KeepsX.next ?_
    | with_reducible exact KeepsX.fault _ _ _ _
    | with_reducible exact KeepsS.refl _ _ _
    | with_reducible exact Keeps.refl _ _
    | split
    | (with_reducible apply Keeps.step (Dev.bar2Read_keeps ..); · decide)
    | with_reducible assumption
    | refine KeepsS.ofDev ?_
    | refine KeepsS.ofMem ?_
    | (refine ⟨fun p hp => ?_, fun hr => hr, fun _ => Grows.refl _⟩; cases p <;> first | exact absurd (by decide) hp | apply Eq.refl)
    | (dsimp only))

theorem execDoorbellPoll_keeps (s : State) : KeepsX [.cnt, .out, .hst] false s (execDoorbellPoll s) := by
  unfold execDoorbellPoll
  repeat' (first
    | with_reducible refine KeepsX.mainOnly ?_
    | with_reducible refine KeepsX.next ?_
    | with_reducible exact KeepsX.fault _ _ _ _
    | with_reducible exact KeepsS.refl _ _ _
    | with_reducible exact Keeps.refl _ _
    | split
    | (with_reducible apply Keeps.step (Dev.doorbellPoll_keeps ..); · decide)
    | with_reducible assumption
    | refine KeepsS.ofDev ?_
    | refine KeepsS.ofMem ?_
    | (refine ⟨fun p hp => ?_, fun hr => hr, fun _ => Grows.refl _⟩; cases p <;> first | exact absurd (by decide) hp | apply Eq.refl)
    | (dsimp only))

theorem execDoorbellReturn_keeps (table : Option (List W32)) (s : State) : KeepsX [.w1c, .cnt, .merge, .out, .hst, .log] false s (execDoorbellReturn table s) := by
  unfold execDoorbellReturn
  repeat' (first
    | with_reducible refine KeepsX.mainOnly ?_
    | with_reducible refine KeepsX.next ?_
    | with_reducible exact KeepsX.fault _ _ _ _
    | with_reducible exact KeepsS.refl _ _ _
    | with_reducible exact Keeps.refl _ _
    | split
    | (with_reducible apply Keeps.step (Dev.doorbellReturn_keeps ..); · decide)
    | with_reducible assumption
    | refine KeepsS.ofDev ?_
    | refine KeepsS.ofMem ?_
    | (refine ⟨fun p hp => ?_, fun hr => hr, fun _ => Grows.refl _⟩; cases p <;> first | exact absurd (by decide) hp | apply Eq.refl)
    | (dsimp only))

theorem execEntryArrival_keeps (ring : Nat) (rd : EntryRead) (s : State) : KeepsX [.cnt, .merge, .out, .hst, .pwr, .log] false s (execEntryArrival ring rd s) := by
  unfold execEntryArrival
  repeat' (first
    | with_reducible refine KeepsX.mainOnly ?_
    | with_reducible refine KeepsX.next ?_
    | with_reducible exact KeepsX.fault _ _ _ _
    | with_reducible exact KeepsS.refl _ _ _
    | with_reducible exact Keeps.refl _ _
    | split
    | (with_reducible apply Keeps.step (Dev.entryArrival_keeps ..); · decide)
    | with_reducible assumption
    | refine KeepsS.ofDev ?_
    | refine KeepsS.ofMem ?_
    | (refine ⟨fun p hp => ?_, fun hr => hr, fun _ => Grows.refl _⟩; cases p <;> first | exact absurd (by decide) hp | apply Eq.refl)
    | (dsimp only))

theorem execRingEnable_keeps (src : Source) (ring : Nat) (v : W64) (s : State) : KeepsX [.rw, .shadow, .w1c, .merge, .hst, .log] false s (execRingEnable src ring v s) := by
  unfold execRingEnable
  repeat' (first
    | with_reducible refine KeepsX.mainOnly ?_
    | with_reducible refine KeepsX.next ?_
    | with_reducible exact KeepsX.fault _ _ _ _
    | with_reducible exact KeepsS.refl _ _ _
    | with_reducible exact Keeps.refl _ _
    | split
    | (with_reducible apply Keeps.step (Dev.writeRingCfg_keeps ..); · decide)
    | with_reducible assumption
    | refine KeepsS.ofDev ?_
    | refine KeepsS.ofMem ?_
    | (refine ⟨fun p hp => ?_, fun hr => hr, fun _ => Grows.refl _⟩; cases p <;> first | exact absurd (by decide) hp | apply Eq.refl)
    | (dsimp only))

theorem execRingDisable_keeps (src : Source) (ring : Nat) (v : W64) (s : State) : KeepsX [.rw, .shadow, .w1c, .merge, .hst, .log] false s (execRingDisable src ring v s) := by
  unfold execRingDisable
  repeat' (first
    | with_reducible refine KeepsX.mainOnly ?_
    | with_reducible refine KeepsX.next ?_
    | with_reducible exact KeepsX.fault _ _ _ _
    | with_reducible exact KeepsS.refl _ _ _
    | with_reducible exact Keeps.refl _ _
    | split
    | (with_reducible apply Keeps.step (Dev.writeRingCfg_keeps ..); · decide)
    | with_reducible assumption
    | refine KeepsS.ofDev ?_
    | refine KeepsS.ofMem ?_
    | (refine ⟨fun p hp => ?_, fun hr => hr, fun _ => Grows.refl _⟩; cases p <;> first | exact absurd (by decide) hp | apply Eq.refl)
    | (dsimp only))

theorem execRouteWrite_keeps (src : Source) (blk : Nat) (v : W64) (s : State) : KeepsX [.rw, .shadow, .w1c] false s (execRouteWrite src blk v s) := by
  unfold execRouteWrite
  repeat' (first
    | with_reducible refine KeepsX.mainOnly ?_
    | with_reducible refine KeepsX.next ?_
    | with_reducible exact KeepsX.fault _ _ _ _
    | with_reducible exact KeepsS.refl _ _ _
    | with_reducible exact Keeps.refl _ _
    | split
    | (with_reducible apply Keeps.step (Dev.writeForeignRoute_keeps ..); · decide)
    | (with_reducible apply Keeps.step (Dev.writeRoute_keeps ..); · decide)
    | with_reducible assumption
    | refine KeepsS.ofDev ?_
    | refine KeepsS.ofMem ?_
    | (refine ⟨fun p hp => ?_, fun hr => hr, fun _ => Grows.refl _⟩; cases p <;> first | exact absurd (by decide) hp | apply Eq.refl)
    | (dsimp only))

theorem execCompletionWrite_keeps (s : State) : KeepsX [.cnt, .merge, .taken, .out, .hst, .lnk, .log] false s (execCompletionWrite s) := by
  unfold execCompletionWrite
  repeat' (first
    | with_reducible refine KeepsX.mainOnly ?_
    | with_reducible refine KeepsX.next ?_
    | with_reducible exact KeepsX.fault _ _ _ _
    | with_reducible exact KeepsS.refl _ _ _
    | with_reducible exact Keeps.refl _ _
    | split
    | (with_reducible apply Keeps.step (Dev.completionWrite_keeps ..); · decide)
    | with_reducible assumption
    | refine KeepsS.ofDev ?_
    | refine KeepsS.ofMem ?_
    | (refine ⟨fun p hp => ?_, fun hr => hr, fun _ => Grows.refl _⟩; cases p <;> first | exact absurd (by decide) hp | apply Eq.refl)
    | (dsimp only))

theorem execMsixModTimer_keeps (ring : Nat) (s : State) : KeepsX [.out, .hst] false s (execMsixModTimer ring s) := by
  unfold execMsixModTimer
  repeat' (first
    | with_reducible refine KeepsX.mainOnly ?_
    | with_reducible refine KeepsX.next ?_
    | with_reducible exact KeepsX.fault _ _ _ _
    | with_reducible exact KeepsS.refl _ _ _
    | with_reducible exact Keeps.refl _ _
    | split
    | (with_reducible apply Keeps.step (Dev.modTimer_keeps ..); · decide)
    | with_reducible assumption
    | refine KeepsS.ofDev ?_
    | refine KeepsS.ofMem ?_
    | (refine ⟨fun p hp => ?_, fun hr => hr, fun _ => Grows.refl _⟩; cases p <;> first | exact absurd (by decide) hp | apply Eq.refl)
    | (dsimp only))

theorem execMsixTableAccess_keeps (off : Nat) (acc : MsixAccess) (s : State) : KeepsX [.out, .hst] false s (execMsixTableAccess off acc s) := by
  unfold execMsixTableAccess
  repeat' (first
    | with_reducible refine KeepsX.mainOnly ?_
    | with_reducible refine KeepsX.next ?_
    | with_reducible exact KeepsX.fault _ _ _ _
    | with_reducible exact KeepsS.refl _ _ _
    | with_reducible exact Keeps.refl _ _
    | split
    | (with_reducible apply Keeps.step (Dev.msixAccess_keeps ..); · decide)
    | with_reducible assumption
    | refine KeepsS.ofDev ?_
    | refine KeepsS.ofMem ?_
    | (refine ⟨fun p hp => ?_, fun hr => hr, fun _ => Grows.refl _⟩; cases p <;> first | exact absurd (by decide) hp | apply Eq.refl)
    | (dsimp only))

theorem execPsetWrite_keeps (ring : Nat) (s : State) : KeepsX [.merge, .hst] true s (execPsetWrite ring s) := by
  unfold execPsetWrite
  repeat' (first
    | with_reducible refine KeepsX.mainOnly ?_
    | with_reducible refine KeepsX.next ?_
    | with_reducible exact KeepsX.fault _ _ _ _
    | with_reducible exact KeepsS.refl _ _ _
    | with_reducible exact Keeps.refl _ _
    | split
    | (with_reducible apply Keeps.step (Dev.psetWrite_keeps ..); · decide)
    | with_reducible assumption
    | refine KeepsS.ofDev ?_
    | refine KeepsS.ofMem ?_
    | (refine ⟨fun p hp => ?_, fun hr => hr, fun _ => Grows.refl _⟩; cases p <;> first | exact absurd (by decide) hp | apply Eq.refl)
    | (dsimp only))

theorem execPsetLoad_keeps (ring : Nat) (s : State) : KeepsX [.merge, .out, .hst, .crs] false s (execPsetLoad ring s) := by
  unfold execPsetLoad
  repeat' (first
    | with_reducible refine KeepsX.mainOnly ?_
    | with_reducible refine KeepsX.next ?_
    | with_reducible exact KeepsX.fault _ _ _ _
    | with_reducible exact KeepsS.refl _ _ _
    | with_reducible exact Keeps.refl _ _
    | split
    | (with_reducible apply Keeps.step (Dev.psetLoad_keeps ..); · decide)
    | with_reducible assumption
    | refine KeepsS.ofDev ?_
    | refine KeepsS.ofMem ?_
    | (refine ⟨fun p hp => ?_, fun hr => hr, fun _ => Grows.refl _⟩; cases p <;> first | exact absurd (by decide) hp | apply Eq.refl)
    | (dsimp only))

theorem execPsetLoadData_keeps (ring : Nat) (rd : HostRead) (s : State) : KeepsX [.cnt, .merge, .hst, .crs, .log] true s (execPsetLoadData ring rd s) := by
  unfold execPsetLoadData
  repeat' (first
    | with_reducible refine KeepsX.mainOnly ?_
    | with_reducible refine KeepsX.next ?_
    | with_reducible exact KeepsX.fault _ _ _ _
    | with_reducible exact KeepsS.refl _ _ _
    | with_reducible exact Keeps.refl _ _
    | split
    | (with_reducible apply Keeps.step (Dev.psetLoadData_keeps ..); · decide)
    | with_reducible assumption
    | refine KeepsS.ofDev ?_
    | refine KeepsS.ofMem ?_
    | (refine ⟨fun p hp => ?_, fun hr => hr, fun _ => Grows.refl _⟩; cases p <;> first | exact absurd (by decide) hp | apply Eq.refl)
    | (dsimp only))

theorem execPsetCommit_keeps (ring : Nat) (s : State) : KeepsX [.merge, .hst, .crs] false s (execPsetCommit ring s) := by
  unfold execPsetCommit
  repeat' (first
    | with_reducible refine KeepsX.mainOnly ?_
    | with_reducible refine KeepsX.next ?_
    | with_reducible exact KeepsX.fault _ _ _ _
    | with_reducible exact KeepsS.refl _ _ _
    | with_reducible exact Keeps.refl _ _
    | split
    | (with_reducible apply Keeps.step (Dev.psetCommit_keeps ..); · decide)
    | with_reducible assumption
    | refine KeepsS.ofDev ?_
    | refine KeepsS.ofMem ?_
    | (refine ⟨fun p hp => ?_, fun hr => hr, fun _ => Grows.refl _⟩; cases p <;> first | exact absurd (by decide) hp | apply Eq.refl)
    | (dsimp only))

theorem execParamCommit_keeps (s : State) : KeepsX [.effect, .srvNext, .cnt, .merge, .hst, .crs] true s (execParamCommit s) := by
  unfold execParamCommit
  repeat' (first
    | with_reducible refine KeepsX.mainOnly ?_
    | with_reducible refine KeepsX.next ?_
    | with_reducible exact KeepsX.fault _ _ _ _
    | with_reducible exact KeepsS.refl _ _ _
    | with_reducible exact Keeps.refl _ _
    | split
    | (with_reducible apply Keeps.step (Dev.paramCommit_keeps ..); · decide)
    | with_reducible assumption
    | refine KeepsS.ofDev ?_
    | refine KeepsS.ofMem ?_
    | (refine ⟨fun p hp => ?_, fun hr => hr, fun _ => Grows.refl _⟩; cases p <;> first | exact absurd (by decide) hp | apply Eq.refl)
    | (dsimp only))

theorem execBrick_keeps (ring : Nat) (s : State) : KeepsX [.cnt, .merge, .out, .hst, .lnk, .crs, .log] false s (execBrick ring s) := by
  unfold execBrick
  repeat' (first
    | with_reducible refine KeepsX.mainOnly ?_
    | with_reducible refine KeepsX.next ?_
    | with_reducible exact KeepsX.fault _ _ _ _
    | with_reducible exact KeepsS.refl _ _ _
    | with_reducible exact Keeps.refl _ _
    | split
    | (with_reducible apply Keeps.step (Dev.brickEntry_keeps ..); · decide)
    | with_reducible assumption
    | refine KeepsS.ofDev ?_
    | refine KeepsS.ofMem ?_
    | (refine ⟨fun p hp => ?_, fun hr => hr, fun _ => Grows.refl _⟩; cases p <;> first | exact absurd (by decide) hp | apply Eq.refl)
    | (dsimp only))

theorem execBrickVerdict_keeps (key : Nat) (rd : HostRead) (s : State) : KeepsX [.cnt, .merge, .out, .hst, .lnk, .crs, .msn, .log] true s (execBrickVerdict key rd s) := by
  unfold execBrickVerdict
  repeat' (first
    | with_reducible refine KeepsX.mainOnly ?_
    | with_reducible refine KeepsX.next ?_
    | with_reducible exact KeepsX.fault _ _ _ _
    | with_reducible exact KeepsS.refl _ _ _
    | with_reducible exact Keeps.refl _ _
    | split
    | (with_reducible apply Keeps.step (Dev.brickVerdict_keeps ..); · decide)
    | with_reducible assumption
    | refine KeepsS.ofDev ?_
    | refine KeepsS.ofMem ?_
    | (refine ⟨fun p hp => ?_, fun hr => hr, fun _ => Grows.refl _⟩; cases p <;> first | exact absurd (by decide) hp | apply Eq.refl)
    | (dsimp only))

theorem execCourseBegin_keeps (ring : Nat) (s : State) : KeepsX [.cnt, .merge, .out, .hst, .lnk, .crs, .pth, .log] false s (execCourseBegin ring s) := by
  unfold execCourseBegin
  repeat' (first
    | with_reducible refine KeepsX.mainOnly ?_
    | with_reducible refine KeepsX.next ?_
    | with_reducible exact KeepsX.fault _ _ _ _
    | with_reducible exact KeepsS.refl _ _ _
    | with_reducible exact Keeps.refl _ _
    | split
    | (with_reducible apply Keeps.step (Dev.beginEntry_keeps ..); · decide)
    | with_reducible refine Dev.courseOp_keeps (by decide) (fun _ _ h => ?_) ?_
    | (with_reducible apply KeepsO.step (Dev.beginEntry_keeps ..); · decide)
    | with_reducible assumption
    | refine KeepsS.ofDev ?_
    | refine KeepsS.ofMem ?_
    | (refine ⟨fun p hp => ?_, fun hr => hr, fun _ => Grows.refl _⟩; cases p <;> first | exact absurd (by decide) hp | apply Eq.refl)
    | (dsimp only))

theorem execCourseEnd_keeps (ring : Nat) (s : State) : KeepsX [.cnt, .merge, .out, .hst, .lnk, .crs, .log] false s (execCourseEnd ring s) := by
  unfold execCourseEnd
  repeat' (first
    | with_reducible refine KeepsX.mainOnly ?_
    | with_reducible refine KeepsX.next ?_
    | with_reducible exact KeepsX.fault _ _ _ _
    | with_reducible exact KeepsS.refl _ _ _
    | with_reducible exact Keeps.refl _ _
    | split
    | (with_reducible apply Keeps.step (Dev.endEntry_keeps ..); · decide)
    | with_reducible refine Dev.courseOp_keeps (by decide) (fun _ _ h => ?_) ?_
    | (with_reducible apply KeepsO.step (Dev.endEntry_keeps ..); · decide)
    | with_reducible assumption
    | refine KeepsS.ofDev ?_
    | refine KeepsS.ofMem ?_
    | (refine ⟨fun p hp => ?_, fun hr => hr, fun _ => Grows.refl _⟩; cases p <;> first | exact absurd (by decide) hp | apply Eq.refl)
    | (dsimp only))

theorem execCourseAbort_keeps (ring : Nat) (s : State) : KeepsX [.cnt, .merge, .out, .freeCount, .hst, .lnk, .crs, .msn, .pth, .lsr, .log] false s (execCourseAbort ring s) := by
  unfold execCourseAbort
  repeat' (first
    | with_reducible refine KeepsX.mainOnly ?_
    | with_reducible refine KeepsX.next ?_
    | with_reducible exact KeepsX.fault _ _ _ _
    | with_reducible exact KeepsS.refl _ _ _
    | with_reducible exact Keeps.refl _ _
    | split
    | (with_reducible apply Keeps.step (Dev.abortEntry_keeps ..); · decide)
    | with_reducible refine Dev.courseOp_keeps (by decide) (fun _ _ h => ?_) ?_
    | (with_reducible apply KeepsO.step (Dev.abortEntry_keeps ..); · decide)
    | with_reducible assumption
    | refine KeepsS.ofDev ?_
    | refine KeepsS.ofMem ?_
    | (refine ⟨fun p hp => ?_, fun hr => hr, fun _ => Grows.refl _⟩; cases p <;> first | exact absurd (by decide) hp | apply Eq.refl)
    | (dsimp only))

theorem execCourseClose_keeps (s : State) : KeepsX [.cnt, .rol, .rolBeat, .merge, .out, .hst, .lnk, .crs, .pth, .thm, .log] false s (execCourseClose s) := by
  unfold execCourseClose
  repeat' (first
    | with_reducible refine KeepsX.mainOnly ?_
    | with_reducible refine KeepsX.next ?_
    | with_reducible exact KeepsX.fault _ _ _ _
    | with_reducible exact KeepsS.refl _ _ _
    | with_reducible exact Keeps.refl _ _
    | split
    | (with_reducible apply Keeps.step (Dev.courseClose_keeps ..); · decide)
    | with_reducible assumption
    | refine KeepsS.ofDev ?_
    | refine KeepsS.ofMem ?_
    | (refine ⟨fun p hp => ?_, fun hr => hr, fun _ => Grows.refl _⟩; cases p <;> first | exact absurd (by decide) hp | apply Eq.refl)
    | (dsimp only))

theorem execAbortComplete_keeps (s : State) : KeepsX [.cnt, .rol, .rolBeat, .merge, .out, .hst, .lnk, .crs, .pth, .thm, .log] false s (execAbortComplete s) := by
  unfold execAbortComplete
  repeat' (first
    | with_reducible refine KeepsX.mainOnly ?_
    | with_reducible refine KeepsX.next ?_
    | with_reducible exact KeepsX.fault _ _ _ _
    | with_reducible exact KeepsS.refl _ _ _
    | with_reducible exact Keeps.refl _ _
    | split
    | (with_reducible apply Keeps.step (Dev.abortComplete_keeps ..); · decide)
    | with_reducible assumption
    | refine KeepsS.ofDev ?_
    | refine KeepsS.ofMem ?_
    | (refine ⟨fun p hp => ?_, fun hr => hr, fun _ => Grows.refl _⟩; cases p <;> first | exact absurd (by decide) hp | apply Eq.refl)
    | (dsimp only))

theorem execCourseWaitResume_keeps (ring : Nat) (s : State) : KeepsX [.cnt, .merge, .out, .freeCount, .hst, .lnk, .crs, .msn, .pth, .lsr, .log] false s (execCourseWaitResume ring s) := by
  unfold execCourseWaitResume
  repeat' (first
    | with_reducible refine KeepsX.mainOnly ?_
    | with_reducible refine KeepsX.next ?_
    | with_reducible exact KeepsX.fault _ _ _ _
    | with_reducible exact KeepsS.refl _ _ _
    | with_reducible exact Keeps.refl _ _
    | split
    | (with_reducible apply Keeps.step (Dev.waitResume_keeps ..); · decide)
    | with_reducible assumption
    | refine KeepsS.ofDev ?_
    | refine KeepsS.ofMem ?_
    | (refine ⟨fun p hp => ?_, fun hr => hr, fun _ => Grows.refl _⟩; cases p <;> first | exact absurd (by decide) hp | apply Eq.refl)
    | (dsimp only))

theorem execStartBeatReached_keeps (key : Nat) (s : State) : KeepsX [.crs, .msn] false s (execStartBeatReached key s) := by
  unfold execStartBeatReached
  repeat' (first
    | with_reducible refine KeepsX.mainOnly ?_
    | with_reducible refine KeepsX.next ?_
    | with_reducible exact KeepsX.fault _ _ _ _
    | with_reducible exact KeepsS.refl _ _ _
    | with_reducible exact Keeps.refl _ _
    | split
    | (with_reducible apply Keeps.step (Dev.startBeatReached_keeps ..); · decide)
    | with_reducible assumption
    | refine KeepsS.ofDev ?_
    | refine KeepsS.ofMem ?_
    | (refine ⟨fun p hp => ?_, fun hr => hr, fun _ => Grows.refl _⟩; cases p <;> first | exact absurd (by decide) hp | apply Eq.refl)
    | (dsimp only))

theorem execUnplaceableTimeout_keeps (key : Nat) (s : State) : KeepsX [.cnt, .merge, .out, .hst, .lnk, .crs, .msn, .log] false s (execUnplaceableTimeout key s) := by
  unfold execUnplaceableTimeout
  repeat' (first
    | with_reducible refine KeepsX.mainOnly ?_
    | with_reducible refine KeepsX.next ?_
    | with_reducible exact KeepsX.fault _ _ _ _
    | with_reducible exact KeepsS.refl _ _ _
    | with_reducible exact Keeps.refl _ _
    | split
    | (with_reducible apply Keeps.step (Dev.unplaceableTimeout_keeps ..); · decide)
    | with_reducible assumption
    | refine KeepsS.ofDev ?_
    | refine KeepsS.ofMem ?_
    | (refine ⟨fun p hp => ?_, fun hr => hr, fun _ => Grows.refl _⟩; cases p <;> first | exact absurd (by decide) hp | apply Eq.refl)
    | (dsimp only))

theorem execStandstill_keeps (s : State) : KeepsX [.cnt, .merge, .out, .hst, .lnk, .crs, .msn, .log] false s (execStandstill s) := by
  unfold execStandstill
  repeat' (first
    | with_reducible refine KeepsX.mainOnly ?_
    | with_reducible refine KeepsX.next ?_
    | with_reducible exact KeepsX.fault _ _ _ _
    | with_reducible exact KeepsS.refl _ _ _
    | with_reducible exact Keeps.refl _ _
    | split
    | (with_reducible apply Keeps.step (Dev.standstill_keeps ..); · decide)
    | with_reducible assumption
    | refine KeepsS.ofDev ?_
    | refine KeepsS.ofMem ?_
    | (refine ⟨fun p hp => ?_, fun hr => hr, fun _ => Grows.refl _⟩; cases p <;> first | exact absurd (by decide) hp | apply Eq.refl)
    | (dsimp only))

theorem execStarveLimitReached_keeps (key : Nat) (s : State) : KeepsX [.cnt, .merge, .crs, .log] false s (execStarveLimitReached key s) := by
  unfold execStarveLimitReached
  repeat' (first
    | with_reducible refine KeepsX.mainOnly ?_
    | with_reducible refine KeepsX.next ?_
    | with_reducible exact KeepsX.fault _ _ _ _
    | with_reducible exact KeepsS.refl _ _ _
    | with_reducible exact Keeps.refl _ _
    | split
    | (with_reducible apply Keeps.step (Dev.starveLimit_keeps ..); · decide)
    | with_reducible assumption
    | refine KeepsS.ofDev ?_
    | refine KeepsS.ofMem ?_
    | (refine ⟨fun p hp => ?_, fun hr => hr, fun _ => Grows.refl _⟩; cases p <;> first | exact absurd (by decide) hp | apply Eq.refl)
    | (dsimp only))

theorem execHostHold_keeps (src : Source) (v : W64) (s : State) : KeepsX [.rw, .shadow, .w1c] false s (execHostHold src v s) := by
  unfold execHostHold
  repeat' (first
    | with_reducible refine KeepsX.mainOnly ?_
    | with_reducible refine KeepsX.next ?_
    | with_reducible exact KeepsX.fault _ _ _ _
    | with_reducible exact KeepsS.refl _ _ _
    | with_reducible exact Keeps.refl _ _
    | split
    | (with_reducible apply Keeps.step (Dev.writeMsn_keeps ..); · decide)
    | with_reducible assumption
    | refine KeepsS.ofDev ?_
    | refine KeepsS.ofMem ?_
    | (refine ⟨fun p hp => ?_, fun hr => hr, fun _ => Grows.refl _⟩; cases p <;> first | exact absurd (by decide) hp | apply Eq.refl)
    | (dsimp only))

theorem execMasonSelection_keeps (unserved : W16) (s : State) : KeepsX [.w1c, .cnt, .merge, .crs, .msn, .pth, .log] false s (execMasonSelection unserved s) := by
  unfold execMasonSelection
  repeat' (first
    | with_reducible refine KeepsX.mainOnly ?_
    | with_reducible refine KeepsX.next ?_
    | with_reducible exact KeepsX.fault _ _ _ _
    | with_reducible exact KeepsS.refl _ _ _
    | with_reducible exact Keeps.refl _ _
    | split
    | (with_reducible apply Keeps.step (Dev.masonSelection_keeps ..); · decide)
    | with_reducible assumption
    | refine KeepsS.ofDev ?_
    | refine KeepsS.ofMem ?_
    | (refine ⟨fun p hp => ?_, fun hr => hr, fun _ => Grows.refl _⟩; cases p <;> first | exact absurd (by decide) hp | apply Eq.refl)
    | (dsimp only))

theorem execAssignmentInForce_keeps (ch : Nat) (s : State) : KeepsX [.cnt, .crs, .msn, .pth] false s (execAssignmentInForce ch s) := by
  unfold execAssignmentInForce
  repeat' (first
    | with_reducible refine KeepsX.mainOnly ?_
    | with_reducible refine KeepsX.next ?_
    | with_reducible exact KeepsX.fault _ _ _ _
    | with_reducible exact KeepsS.refl _ _ _
    | with_reducible exact Keeps.refl _ _
    | split
    | (with_reducible apply Keeps.step (Dev.assignmentInForce_keeps ..); · decide)
    | with_reducible assumption
    | refine KeepsS.ofDev ?_
    | refine KeepsS.ofMem ?_
    | (refine ⟨fun p hp => ?_, fun hr => hr, fun _ => Grows.refl _⟩; cases p <;> first | exact absurd (by decide) hp | apply Eq.refl)
    | (dsimp only))

theorem execPlumeGuard_keeps (undecided : W16) (s : State) : KeepsX [.w1c, .cnt, .merge, .crs, .msn, .pth, .log] false s (execPlumeGuard undecided s) := by
  unfold execPlumeGuard
  repeat' (first
    | with_reducible refine KeepsX.mainOnly ?_
    | with_reducible refine KeepsX.next ?_
    | with_reducible exact KeepsX.fault _ _ _ _
    | with_reducible exact KeepsS.refl _ _ _
    | with_reducible exact Keeps.refl _ _
    | split
    | (with_reducible apply Keeps.step (Dev.plumeGuard_keeps ..); · decide)
    | with_reducible assumption
    | refine KeepsS.ofDev ?_
    | refine KeepsS.ofMem ?_
    | (refine ⟨fun p hp => ?_, fun hr => hr, fun _ => Grows.refl _⟩; cases p <;> first | exact absurd (by decide) hp | apply Eq.refl)
    | (dsimp only))

theorem execTrailSliceClose_keeps (ch : Nat) (s : State) : KeepsX [.msn] false s (execTrailSliceClose ch s) := by
  unfold execTrailSliceClose
  repeat' (first
    | with_reducible refine KeepsX.mainOnly ?_
    | with_reducible refine KeepsX.next ?_
    | with_reducible exact KeepsX.fault _ _ _ _
    | with_reducible exact KeepsS.refl _ _ _
    | with_reducible exact Keeps.refl _ _
    | split
    | (with_reducible apply Keeps.step (Dev.sliceClose_keeps ..); · decide)
    | with_reducible assumption
    | refine KeepsS.ofDev ?_
    | refine KeepsS.ofMem ?_
    | (refine ⟨fun p hp => ?_, fun hr => hr, fun _ => Grows.refl _⟩; cases p <;> first | exact absurd (by decide) hp | apply Eq.refl)
    | (dsimp only))

theorem execTrailSliceExpire_keeps (ch : Nat) (s : State) : KeepsX [.msn] false s (execTrailSliceExpire ch s) := by
  unfold execTrailSliceExpire
  repeat' (first
    | with_reducible refine KeepsX.mainOnly ?_
    | with_reducible refine KeepsX.next ?_
    | with_reducible exact KeepsX.fault _ _ _ _
    | with_reducible exact KeepsS.refl _ _ _
    | with_reducible exact Keeps.refl _ _
    | split
    | (with_reducible apply Keeps.step (Dev.sliceExpire_keeps ..); · decide)
    | with_reducible assumption
    | refine KeepsS.ofDev ?_
    | refine KeepsS.ofMem ?_
    | (refine ⟨fun p hp => ?_, fun hr => hr, fun _ => Grows.refl _⟩; cases p <;> first | exact absurd (by decide) hp | apply Eq.refl)
    | (dsimp only))

theorem execHoldPass_keeps (ch : Nat) (s : State) : KeepsX [.cnt, .crs, .msn, .pth] false s (execHoldPass ch s) := by
  unfold execHoldPass
  repeat' (first
    | with_reducible refine KeepsX.mainOnly ?_
    | with_reducible refine KeepsX.next ?_
    | with_reducible exact KeepsX.fault _ _ _ _
    | with_reducible exact KeepsS.refl _ _ _
    | with_reducible exact Keeps.refl _ _
    | split
    | (with_reducible apply Keeps.step (Dev.holdPass_keeps ..); · decide)
    | with_reducible assumption
    | refine KeepsS.ofDev ?_
    | refine KeepsS.ofMem ?_
    | (refine ⟨fun p hp => ?_, fun hr => hr, fun _ => Grows.refl _⟩; cases p <;> first | exact absurd (by decide) hp | apply Eq.refl)
    | (dsimp only))

theorem execPlumeHoldTimeout_keeps (ch : Nat) (s : State) : KeepsX [.cnt, .merge, .crs, .msn, .pth, .log] true s (execPlumeHoldTimeout ch s) := by
  unfold execPlumeHoldTimeout
  repeat' (first
    | with_reducible refine KeepsX.mainOnly ?_
    | with_reducible refine KeepsX.next ?_
    | with_reducible exact KeepsX.fault _ _ _ _
    | with_reducible exact KeepsS.refl _ _ _
    | with_reducible exact Keeps.refl _ _
    | split
    | (with_reducible apply Keeps.step (Dev.plumeTimeout_keeps ..); · decide)
    | with_reducible assumption
    | refine KeepsS.ofDev ?_
    | refine KeepsS.ofMem ?_
    | (refine ⟨fun p hp => ?_, fun hr => hr, fun _ => Grows.refl _⟩; cases p <;> first | exact absurd (by decide) hp | apply Eq.refl)
    | (dsimp only))

theorem execMasonDrop_keeps (ch : Nat) (s : State) : KeepsX [.cnt, .merge, .crs, .msn, .pth, .lsr, .log] true s (execMasonDrop ch s) := by
  unfold execMasonDrop
  repeat' (first
    | with_reducible refine KeepsX.mainOnly ?_
    | with_reducible refine KeepsX.next ?_
    | with_reducible exact KeepsX.fault _ _ _ _
    | with_reducible exact KeepsS.refl _ _ _
    | with_reducible exact Keeps.refl _ _
    | split
    | (with_reducible apply Keeps.step (Dev.masonDrop_keeps ..); · decide)
    | with_reducible assumption
    | refine KeepsS.ofDev ?_
    | refine KeepsS.ofMem ?_
    | (refine ⟨fun p hp => ?_, fun hr => hr, fun _ => Grows.refl _⟩; cases p <;> first | exact absurd (by decide) hp | apply Eq.refl)
    | (dsimp only))

theorem execRemnantReady_keeps (key : Nat) (s : State) : KeepsX [.cnt, .merge, .out, .hst, .lnk, .crs, .msn, .log] false s (execRemnantReady key s) := by
  unfold execRemnantReady
  repeat' (first
    | with_reducible refine KeepsX.mainOnly ?_
    | with_reducible refine KeepsX.next ?_
    | with_reducible exact KeepsX.fault _ _ _ _
    | with_reducible exact KeepsS.refl _ _ _
    | with_reducible exact Keeps.refl _ _
    | split
    | (with_reducible apply Keeps.step (Dev.remnantReady_keeps ..); · decide)
    | with_reducible assumption
    | refine KeepsS.ofDev ?_
    | refine KeepsS.ofMem ?_
    | (refine ⟨fun p hp => ?_, fun hr => hr, fun _ => Grows.refl _⟩; cases p <;> first | exact absurd (by decide) hp | apply Eq.refl)
    | (dsimp only))

theorem execStopSegmentDone_keeps (ch : Nat) (s : State) : KeepsX [.crs, .msn, .pth] false s (execStopSegmentDone ch s) := by
  unfold execStopSegmentDone
  repeat' (first
    | with_reducible refine KeepsX.mainOnly ?_
    | with_reducible refine KeepsX.next ?_
    | with_reducible exact KeepsX.fault _ _ _ _
    | with_reducible exact KeepsS.refl _ _ _
    | with_reducible exact Keeps.refl _ _
    | split
    | (with_reducible apply Keeps.step (Dev.stopDone_keeps ..); · decide)
    | with_reducible assumption
    | refine KeepsS.ofDev ?_
    | refine KeepsS.ofMem ?_
    | (refine ⟨fun p hp => ?_, fun hr => hr, fun _ => Grows.refl _⟩; cases p <;> first | exact absurd (by decide) hp | apply Eq.refl)
    | (dsimp only))

theorem execBrickEnd_keeps (ch : Nat) (s : State) : KeepsX [.cnt, .merge, .out, .hst, .lnk, .crs, .msn, .pth, .log] false s (execBrickEnd ch s) := by
  unfold execBrickEnd
  repeat' (first
    | with_reducible refine KeepsX.mainOnly ?_
    | with_reducible refine KeepsX.next ?_
    | with_reducible exact KeepsX.fault _ _ _ _
    | with_reducible exact KeepsS.refl _ _ _
    | with_reducible exact Keeps.refl _ _
    | split
    | (with_reducible apply Keeps.step (Dev.brickDone_keeps ..); · decide)
    | with_reducible assumption
    | refine KeepsS.ofDev ?_
    | refine KeepsS.ofMem ?_
    | (refine ⟨fun p hp => ?_, fun hr => hr, fun _ => Grows.refl _⟩; cases p <;> first | exact absurd (by decide) hp | apply Eq.refl)
    | (dsimp only))

theorem execPisteSampleIssue_keeps (ch : Nat) (ev : PisteIssue) (s : State) : KeepsX [.w1c, .cnt, .merge, .freeCount, .crs, .msn, .pth, .lsr, .log] true s (execPisteSampleIssue ch ev s) := by
  unfold execPisteSampleIssue
  repeat' (first
    | with_reducible refine KeepsX.mainOnly ?_
    | with_reducible refine KeepsX.next ?_
    | with_reducible exact KeepsX.fault _ _ _ _
    | with_reducible exact KeepsS.refl _ _ _
    | with_reducible exact Keeps.refl _ _
    | split
    | (with_reducible apply Keeps.step (Dev.sampleIssue_keeps ..); · decide)
    | with_reducible assumption
    | refine KeepsS.ofDev ?_
    | refine KeepsS.ofMem ?_
    | (refine ⟨fun p hp => ?_, fun hr => hr, fun _ => Grows.refl _⟩; cases p <;> first | exact absurd (by decide) hp | apply Eq.refl)
    | (dsimp only))

theorem execVectorRefillDone_keeps (ch : Nat) (ecc : EccRead) (s : State) : KeepsX [.cnt, .merge, .pth, .lsr, .memc, .log] false s (execVectorRefillDone ch ecc s) := by
  unfold execVectorRefillDone
  repeat' (first
    | with_reducible refine KeepsX.mainOnly ?_
    | with_reducible refine KeepsX.next ?_
    | with_reducible exact KeepsX.fault _ _ _ _
    | with_reducible exact KeepsS.refl _ _ _
    | with_reducible exact Keeps.refl _ _
    | split
    | (with_reducible apply Keeps.step (Dev.refillDone_keeps ..); · decide)
    | with_reducible assumption
    | refine KeepsS.ofDev ?_
    | refine KeepsS.ofMem ?_
    | (refine ⟨fun p hp => ?_, fun hr => hr, fun _ => Grows.refl _⟩; cases p <;> first | exact absurd (by decide) hp | apply Eq.refl)
    | (dsimp only))

theorem execGridLoad_keeps (ring : Nat) (s : State) : KeepsX [.merge, .out, .hst, .pth] false s (execGridLoad ring s) := by
  unfold execGridLoad
  repeat' (first
    | with_reducible refine KeepsX.mainOnly ?_
    | with_reducible refine KeepsX.next ?_
    | with_reducible exact KeepsX.fault _ _ _ _
    | with_reducible exact KeepsS.refl _ _ _
    | with_reducible exact Keeps.refl _ _
    | split
    | (with_reducible apply Keeps.step (Dev.gridLoad_keeps ..); · decide)
    | with_reducible assumption
    | refine KeepsS.ofDev ?_
    | refine KeepsS.ofMem ?_
    | (refine ⟨fun p hp => ?_, fun hr => hr, fun _ => Grows.refl _⟩; cases p <;> first | exact absurd (by decide) hp | apply Eq.refl)
    | (dsimp only))

theorem execGridLoadComplete_keeps (rd : HostRead) (s : State) : KeepsX [.cnt, .merge, .freeCount, .hst, .pth, .memc, .log] true s (execGridLoadComplete rd s) := by
  unfold execGridLoadComplete
  repeat' (first
    | with_reducible refine KeepsX.mainOnly ?_
    | with_reducible refine KeepsX.next ?_
    | with_reducible exact KeepsX.fault _ _ _ _
    | with_reducible exact KeepsS.refl _ _ _
    | with_reducible exact Keeps.refl _ _
    | split
    | (with_reducible apply Keeps.step (Dev.gridLoadComplete_keeps ..); · decide)
    | with_reducible assumption
    | refine KeepsS.ofDev ?_
    | refine KeepsS.ofMem ?_
    | (refine ⟨fun p hp => ?_, fun hr => hr, fun _ => Grows.refl _⟩; cases p <;> first | exact absurd (by decide) hp | apply Eq.refl)
    | (dsimp only))

theorem execGridSwap_keeps (ring : Nat) (ecc : EccRead) (s : State) : KeepsX [.cnt, .merge, .freeCount, .hst, .pth, .memc, .log] false s (execGridSwap ring ecc s) := by
  unfold execGridSwap
  repeat' (first
    | with_reducible refine KeepsX.mainOnly ?_
    | with_reducible refine KeepsX.next ?_
    | with_reducible exact KeepsX.fault _ _ _ _
    | with_reducible exact KeepsS.refl _ _ _
    | with_reducible exact Keeps.refl _ _
    | split
    | (with_reducible apply Keeps.step (Dev.gridSwap_keeps ..); · decide)
    | with_reducible assumption
    | refine KeepsS.ofDev ?_
    | refine KeepsS.ofMem ?_
    | (refine ⟨fun p hp => ?_, fun hr => hr, fun _ => Grows.refl _⟩; cases p <;> first | exact absurd (by decide) hp | apply Eq.refl)
    | (dsimp only))

theorem execGridSwapEffect_keeps (ch : Nat) (s : State) : KeepsX [.merge, .hst, .pth, .log] false s (execGridSwapEffect ch s) := by
  unfold execGridSwapEffect
  repeat' (first
    | with_reducible refine KeepsX.mainOnly ?_
    | with_reducible refine KeepsX.next ?_
    | with_reducible exact KeepsX.fault _ _ _ _
    | with_reducible exact KeepsS.refl _ _ _
    | with_reducible exact Keeps.refl _ _
    | split
    | (with_reducible apply Keeps.step (Dev.gridSwapEffect_keeps ..); · decide)
    | with_reducible assumption
    | refine KeepsS.ofDev ?_
    | refine KeepsS.ofMem ?_
    | (refine ⟨fun p hp => ?_, fun hr => hr, fun _ => Grows.refl _⟩; cases p <;> first | exact absurd (by decide) hp | apply Eq.refl)
    | (dsimp only))

theorem execSeamOffer_keeps (ch : Nat) (s : State) : KeepsX [.cnt, .pth] false s (execSeamOffer ch s) := by
  unfold execSeamOffer
  repeat' (first
    | with_reducible refine KeepsX.mainOnly ?_
    | with_reducible refine KeepsX.next ?_
    | with_reducible exact KeepsX.fault _ _ _ _
    | with_reducible exact KeepsS.refl _ _ _
    | with_reducible exact Keeps.refl _ _
    | split
    | (with_reducible apply Keeps.step (Dev.seamOffer_keeps ..); · decide)
    | with_reducible assumption
    | refine KeepsS.ofDev ?_
    | refine KeepsS.ofMem ?_
    | (refine ⟨fun p hp => ?_, fun hr => hr, fun _ => Grows.refl _⟩; cases p <;> first | exact absurd (by decide) hp | apply Eq.refl)
    | (dsimp only))

theorem execChannelEnable_keeps (src : Source) (ch : Nat) (v : W64) (s : State) : KeepsX [.rw, .shadow, .w1c, .lsr] false s (execChannelEnable src ch v s) := by
  unfold execChannelEnable
  repeat' (first
    | with_reducible refine KeepsX.mainOnly ?_
    | with_reducible refine KeepsX.next ?_
    | with_reducible exact KeepsX.fault _ _ _ _
    | with_reducible exact KeepsS.refl _ _ _
    | with_reducible exact Keeps.refl _ _
    | split
    | (with_reducible apply Keeps.step (Dev.writeChanCtl_keeps ..); · decide)
    | with_reducible assumption
    | refine KeepsS.ofDev ?_
    | refine KeepsS.ofMem ?_
    | (refine ⟨fun p hp => ?_, fun hr => hr, fun _ => Grows.refl _⟩; cases p <;> first | exact absurd (by decide) hp | apply Eq.refl)
    | (dsimp only))

theorem execChannelDisable_keeps (src : Source) (ch : Nat) (v : W64) (s : State) : KeepsX [.rw, .shadow, .w1c, .lsr] false s (execChannelDisable src ch v s) := by
  unfold execChannelDisable
  repeat' (first
    | with_reducible refine KeepsX.mainOnly ?_
    | with_reducible refine KeepsX.next ?_
    | with_reducible exact KeepsX.fault _ _ _ _
    | with_reducible exact KeepsS.refl _ _ _
    | with_reducible exact Keeps.refl _ _
    | split
    | (with_reducible apply Keeps.step (Dev.writeChanCtl_keeps ..); · decide)
    | with_reducible assumption
    | refine KeepsS.ofDev ?_
    | refine KeepsS.ofMem ?_
    | (refine ⟨fun p hp => ?_, fun hr => hr, fun _ => Grows.refl _⟩; cases p <;> first | exact absurd (by decide) hp | apply Eq.refl)
    | (dsimp only))

theorem execArmingComplete_keeps (ch : Nat) (s : State) : KeepsX [.merge, .crs, .msn, .pth, .lsr, .log] false s (execArmingComplete ch s) := by
  unfold execArmingComplete
  repeat' (first
    | with_reducible refine KeepsX.mainOnly ?_
    | with_reducible refine KeepsX.next ?_
    | with_reducible exact KeepsX.fault _ _ _ _
    | with_reducible exact KeepsS.refl _ _ _
    | with_reducible exact Keeps.refl _ _
    | split
    | (with_reducible apply Keeps.step (Dev.armingComplete_keeps ..); · decide)
    | with_reducible assumption
    | refine KeepsS.ofDev ?_
    | refine KeepsS.ofMem ?_
    | (refine ⟨fun p hp => ?_, fun hr => hr, fun _ => Grows.refl _⟩; cases p <;> first | exact absurd (by decide) hp | apply Eq.refl)
    | (dsimp only))

theorem execArmingTimeout_keeps (ch : Nat) (s : State) : KeepsX [.w1c, .merge, .freeCount, .lsr, .log] false s (execArmingTimeout ch s) := by
  unfold execArmingTimeout
  repeat' (first
    | with_reducible refine KeepsX.mainOnly ?_
    | with_reducible refine KeepsX.next ?_
    | with_reducible exact KeepsX.fault _ _ _ _
    | with_reducible exact KeepsS.refl _ _ _
    | with_reducible exact Keeps.refl _ _
    | split
    | (with_reducible apply Keeps.step (Dev.armingTimeout_keeps ..); · decide)
    | with_reducible assumption
    | refine KeepsS.ofDev ?_
    | refine KeepsS.ofMem ?_
    | (refine ⟨fun p hp => ?_, fun hr => hr, fun _ => Grows.refl _⟩; cases p <;> first | exact absurd (by decide) hp | apply Eq.refl)
    | (dsimp only))

theorem execAlarmQualified_keeps (ch : Nat) (level : Bool) (s : State) : KeepsX [.w1c, .merge, .freeCount, .lsr, .log] false s (execAlarmQualified ch level s) := by
  unfold execAlarmQualified
  repeat' (first
    | with_reducible refine KeepsX.mainOnly ?_
    | with_reducible refine KeepsX.next ?_
    | with_reducible exact KeepsX.fault _ _ _ _
    | with_reducible exact KeepsS.refl _ _ _
    | with_reducible exact Keeps.refl _ _
    | split
    | (with_reducible apply Keeps.step (Dev.alarmQualified_keeps ..); · decide)
    | with_reducible assumption
    | refine KeepsS.ofDev ?_
    | refine KeepsS.ofMem ?_
    | (refine ⟨fun p hp => ?_, fun hr => hr, fun _ => Grows.refl _⟩; cases p <;> first | exact absurd (by decide) hp | apply Eq.refl)
    | (dsimp only))

theorem execReadyQualified_keeps (ch : Nat) (level : Bool) (s : State) : KeepsX [.w1c, .merge, .freeCount, .lsr, .log] false s (execReadyQualified ch level s) := by
  unfold execReadyQualified
  repeat' (first
    | with_reducible refine KeepsX.mainOnly ?_
    | with_reducible refine KeepsX.next ?_
    | with_reducible exact KeepsX.fault _ _ _ _
    | with_reducible exact KeepsS.refl _ _ _
    | with_reducible exact Keeps.refl _ _
    | split
    | (with_reducible apply Keeps.step (Dev.readyQualified_keeps ..); · decide)
    | with_reducible assumption
    | refine KeepsS.ofDev ?_
    | refine KeepsS.ofMem ?_
    | (refine ⟨fun p hp => ?_, fun hr => hr, fun _ => Grows.refl _⟩; cases p <;> first | exact absurd (by decide) hp | apply Eq.refl)
    | (dsimp only))

theorem execPadReadbackMismatch_keeps (ch : Nat) (emit : Bool) (gate : Bool) (s : State) : KeepsX [.w1c, .merge, .freeCount, .lsr, .log] false s (execPadReadbackMismatch ch emit gate s) := by
  unfold execPadReadbackMismatch
  repeat' (first
    | with_reducible refine KeepsX.mainOnly ?_
    | with_reducible refine KeepsX.next ?_
    | with_reducible exact KeepsX.fault _ _ _ _
    | with_reducible exact KeepsS.refl _ _ _
    | with_reducible exact Keeps.refl _ _
    | split
    | (with_reducible apply Keeps.step (Dev.padMismatch_keeps ..); · decide)
    | with_reducible assumption
    | refine KeepsS.ofDev ?_
    | refine KeepsS.ofMem ?_
    | (refine ⟨fun p hp => ?_, fun hr => hr, fun _ => Grows.refl _⟩; cases p <;> first | exact absurd (by decide) hp | apply Eq.refl)
    | (dsimp only))

theorem execDacComplianceLoss_keeps (ch : Nat) (s : State) : KeepsX [.w1c, .merge, .freeCount, .lsr, .log] false s (execDacComplianceLoss ch s) := by
  unfold execDacComplianceLoss
  repeat' (first
    | with_reducible refine KeepsX.mainOnly ?_
    | with_reducible refine KeepsX.next ?_
    | with_reducible exact KeepsX.fault _ _ _ _
    | with_reducible exact KeepsS.refl _ _ _
    | with_reducible exact Keeps.refl _ _
    | split
    | (with_reducible apply Keeps.step (Dev.dacLoss_keeps ..); · decide)
    | with_reducible assumption
    | refine KeepsS.ofDev ?_
    | refine KeepsS.ofMem ?_
    | (refine ⟨fun p hp => ?_, fun hr => hr, fun _ => Grows.refl _⟩; cases p <;> first | exact absurd (by decide) hp | apply Eq.refl)
    | (dsimp only))

theorem execChannelFaultClear_keeps (src : Source) (ch : Nat) (v : W64) (s : State) : KeepsX [.rw, .shadow, .w1c] false s (execChannelFaultClear src ch v s) := by
  unfold execChannelFaultClear
  repeat' (first
    | with_reducible refine KeepsX.mainOnly ?_
    | with_reducible refine KeepsX.next ?_
    | with_reducible exact KeepsX.fault _ _ _ _
    | with_reducible exact KeepsS.refl _ _ _
    | with_reducible exact Keeps.refl _ _
    | split
    | (with_reducible apply Keeps.step (Dev.store_keeps ..); · decide)
    | with_reducible assumption
    | refine KeepsS.ofDev ?_
    | refine KeepsS.ofMem ?_
    | (refine ⟨fun p hp => ?_, fun hr => hr, fun _ => Grows.refl _⟩; cases p <;> first | exact absurd (by decide) hp | apply Eq.refl)
    | (dsimp only))

theorem execSafeInLow_keeps (s : State) : KeepsX [.w1c, .merge, .freeCount, .hst, .lsr, .mpm, .safe, .cal, .log] false s (execSafeInLow s) := by
  unfold execSafeInLow
  repeat' (first
    | with_reducible refine KeepsX.mainOnly ?_
    | with_reducible refine KeepsX.next ?_
    | with_reducible exact KeepsX.fault _ _ _ _
    | with_reducible exact KeepsS.refl _ _ _
    | with_reducible exact Keeps.refl _ _
    | split
    | (with_reducible apply Keeps.step (Dev.safeLow_keeps ..); · decide)
    | with_reducible assumption
    | refine KeepsS.ofDev ?_
    | refine KeepsS.ofMem ?_
    | (refine ⟨fun p hp => ?_, fun hr => hr, fun _ => Grows.refl _⟩; cases p <;> first | exact absurd (by decide) hp | apply Eq.refl)
    | (dsimp only))

theorem execSafeInQualified_keeps (s : State) : KeepsX [.merge, .safe, .log] false s (execSafeInQualified s) := by
  unfold execSafeInQualified
  repeat' (first
    | with_reducible refine KeepsX.mainOnly ?_
    | with_reducible refine KeepsX.next ?_
    | with_reducible exact KeepsX.fault _ _ _ _
    | with_reducible exact KeepsS.refl _ _ _
    | with_reducible exact Keeps.refl _ _
    | split
    | (with_reducible apply Keeps.step (Dev.safeClosed_keeps ..); · decide)
    | with_reducible assumption
    | refine KeepsS.ofDev ?_
    | refine KeepsS.ofMem ?_
    | (refine ⟨fun p hp => ?_, fun hr => hr, fun _ => Grows.refl _⟩; cases p <;> first | exact absurd (by decide) hp | apply Eq.refl)
    | (dsimp only))

theorem execHeartbeatBoundary_keeps (s : State) : KeepsX [.merge, .safe, .log] false s (execHeartbeatBoundary s) := by
  unfold execHeartbeatBoundary
  repeat' (first
    | with_reducible refine KeepsX.mainOnly ?_
    | with_reducible refine KeepsX.next ?_
    | with_reducible exact KeepsX.fault _ _ _ _
    | with_reducible exact KeepsS.refl _ _ _
    | with_reducible exact Keeps.refl _ _
    | split
    | (with_reducible apply Keeps.step (Dev.heartbeat_keeps ..); · decide)
    | with_reducible assumption
    | refine KeepsS.ofDev ?_
    | refine KeepsS.ofMem ?_
    | (refine ⟨fun p hp => ?_, fun hr => hr, fun _ => Grows.refl _⟩; cases p <;> first | exact absurd (by decide) hp | apply Eq.refl)
    | (dsimp only))

theorem execSafeKick_keeps (src : Source) (v : W64) (s : State) : KeepsX [.rw, .shadow, .w1c, .safe] false s (execSafeKick src v s) := by
  unfold execSafeKick
  repeat' (first
    | with_reducible refine KeepsX.mainOnly ?_
    | with_reducible refine KeepsX.next ?_
    | with_reducible exact KeepsX.fault _ _ _ _
    | with_reducible exact KeepsS.refl _ _ _
    | with_reducible exact Keeps.refl _ _
    | split
    | (with_reducible apply Keeps.step (Dev.writeSafe_keeps ..); · decide)
    | with_reducible assumption
    | refine KeepsS.ofDev ?_
    | refine KeepsS.ofMem ?_
    | (refine ⟨fun p hp => ?_, fun hr => hr, fun _ => Grows.refl _⟩; cases p <;> first | exact absurd (by decide) hp | apply Eq.refl)
    | (dsimp only))

theorem execKickTimeoutExpiry_keeps (s : State) : KeepsX [.w1c, .merge, .safe, .log] false s (execKickTimeoutExpiry s) := by
  unfold execKickTimeoutExpiry
  repeat' (first
    | with_reducible refine KeepsX.mainOnly ?_
    | with_reducible refine KeepsX.next ?_
    | with_reducible exact KeepsX.fault _ _ _ _
    | with_reducible exact KeepsS.refl _ _ _
    | with_reducible exact Keeps.refl _ _
    | split
    | (with_reducible apply Keeps.step (Dev.kickExpiry_keeps ..); · decide)
    | with_reducible assumption
    | refine KeepsS.ofDev ?_
    | refine KeepsS.ofMem ?_
    | (refine ⟨fun p hp => ?_, fun hr => hr, fun _ => Grows.refl _⟩; cases p <;> first | exact absurd (by decide) hp | apply Eq.refl)
    | (dsimp only))

theorem execBeaconReport_keeps (b : Nat) (s : State) : KeepsX [.lsr] false s (execBeaconReport b s) := by
  unfold execBeaconReport
  repeat' (first
    | with_reducible refine KeepsX.mainOnly ?_
    | with_reducible refine KeepsX.next ?_
    | with_reducible exact KeepsX.fault _ _ _ _
    | with_reducible exact KeepsS.refl _ _ _
    | with_reducible exact Keeps.refl _ _
    | split
    | (with_reducible apply Keeps.step (Dev.beaconReport_keeps ..); · decide)
    | with_reducible assumption
    | refine KeepsS.ofDev ?_
    | refine KeepsS.ofMem ?_
    | (refine ⟨fun p hp => ?_, fun hr => hr, fun _ => Grows.refl _⟩; cases p <;> first | exact absurd (by decide) hp | apply Eq.refl)
    | (dsimp only))

theorem execBeaconUnverifiedTimeout_keeps (ch : Nat) (s : State) : KeepsX [.merge, .freeCount, .lsr, .log] false s (execBeaconUnverifiedTimeout ch s) := by
  unfold execBeaconUnverifiedTimeout
  repeat' (first
    | with_reducible refine KeepsX.mainOnly ?_
    | with_reducible refine KeepsX.next ?_
    | with_reducible exact KeepsX.fault _ _ _ _
    | with_reducible exact KeepsS.refl _ _ _
    | with_reducible exact Keeps.refl _ _
    | split
    | (with_reducible apply Keeps.step (Dev.beaconTimeout_keeps ..); · decide)
    | with_reducible assumption
    | refine KeepsS.ofDev ?_
    | refine KeepsS.ofMem ?_
    | (refine ⟨fun p hp => ?_, fun hr => hr, fun _ => Grows.refl _⟩; cases p <;> first | exact absurd (by decide) hp | apply Eq.refl)
    | (dsimp only))

theorem execDacUpdate_keeps (ch : Nat) (s : State) : KeepsX [.cnt, .merge, .freeCount, .lsr, .mpm, .log] false s (execDacUpdate ch s) := by
  unfold execDacUpdate
  repeat' (first
    | with_reducible refine KeepsX.mainOnly ?_
    | with_reducible refine KeepsX.next ?_
    | with_reducible exact KeepsX.fault _ _ _ _
    | with_reducible exact KeepsS.refl _ _ _
    | with_reducible exact Keeps.refl _ _
    | split
    | (with_reducible apply Keeps.step (Dev.dacUpdate_keeps ..); · decide)
    | with_reducible assumption
    | refine KeepsS.ofDev ?_
    | refine KeepsS.ofMem ?_
    | (refine ⟨fun p hp => ?_, fun hr => hr, fun _ => Grows.refl _⟩; cases p <;> first | exact absurd (by decide) hp | apply Eq.refl)
    | (dsimp only))

theorem execMpmSample_keeps (ch : Nat) (second : Bool) (mp : BitVec 14) (br : BitVec 14) (late : Bool) (s : State) : KeepsX [.w1c, .cnt, .merge, .mpm, .log] false s (execMpmSample ch second mp br late s) := by
  unfold execMpmSample
  repeat' (first
    | with_reducible refine KeepsX.mainOnly ?_
    | with_reducible refine KeepsX.next ?_
    | with_reducible exact KeepsX.fault _ _ _ _
    | with_reducible exact KeepsS.refl _ _ _
    | with_reducible exact Keeps.refl _ _
    | split
    | (with_reducible apply Keeps.step (Dev.mpmSample_keeps ..); · decide)
    | with_reducible assumption
    | refine KeepsS.ofDev ?_
    | refine KeepsS.ofMem ?_
    | (refine ⟨fun p hp => ?_, fun hr => hr, fun _ => Grows.refl _⟩; cases p <;> first | exact absurd (by decide) hp | apply Eq.refl)
    | (dsimp only))

theorem execBrQualReached_keeps (ch : Nat) (s : State) : KeepsX [.cnt, .merge, .lsr, .mpm, .log] false s (execBrQualReached ch s) := by
  unfold execBrQualReached
  repeat' (first
    | with_reducible refine KeepsX.mainOnly ?_
    | with_reducible refine KeepsX.next ?_
    | with_reducible exact KeepsX.fault _ _ _ _
    | with_reducible exact KeepsS.refl _ _ _
    | with_reducible exact Keeps.refl _ _
    | split
    | (with_reducible apply Keeps.step (Dev.brTrip_keeps ..); · decide)
    | with_reducible assumption
    | refine KeepsS.ofDev ?_
    | refine KeepsS.ofMem ?_
    | (refine ⟨fun p hp => ?_, fun hr => hr, fun _ => Grows.refl _⟩; cases p <;> first | exact absurd (by decide) hp | apply Eq.refl)
    | (dsimp only))

theorem execLowBeatsReached_keeps (ch : Nat) (s : State) : KeepsX [.merge, .lsr, .mpm, .log] false s (execLowBeatsReached ch s) := by
  unfold execLowBeatsReached
  repeat' (first
    | with_reducible refine KeepsX.mainOnly ?_
    | with_reducible refine KeepsX.next ?_
    | with_reducible exact KeepsX.fault _ _ _ _
    | with_reducible exact KeepsS.refl _ _ _
    | with_reducible exact Keeps.refl _ _
    | split
    | (with_reducible apply Keeps.step (Dev.lowTrip_keeps ..); · decide)
    | with_reducible assumption
    | refine KeepsS.ofDev ?_
    | refine KeepsS.ofMem ?_
    | (refine ⟨fun p hp => ?_, fun hr => hr, fun _ => Grows.refl _⟩; cases p <;> first | exact absurd (by decide) hp | apply Eq.refl)
    | (dsimp only))

theorem execSatBeatsReached_keeps (ch : Nat) (s : State) : KeepsX [.merge, .mpm, .log] false s (execSatBeatsReached ch s) := by
  unfold execSatBeatsReached
  repeat' (first
    | with_reducible refine KeepsX.mainOnly ?_
    | with_reducible refine KeepsX.next ?_
    | with_reducible exact KeepsX.fault _ _ _ _
    | with_reducible exact KeepsS.refl _ _ _
    | with_reducible exact Keeps.refl _ _
    | split
    | (with_reducible apply Keeps.step (Dev.satTrip_keeps ..); · decide)
    | with_reducible assumption
    | refine KeepsS.ofDev ?_
    | refine KeepsS.ofMem ?_
    | (refine ⟨fun p hp => ?_, fun hr => hr, fun _ => Grows.refl _⟩; cases p <;> first | exact absurd (by decide) hp | apply Eq.refl)
    | (dsimp only))

theorem execVelocityTick_keeps (ax : Nat) (code : BitVec 24) (late : Bool) (s : State) : KeepsX [.w1c, .cnt, .merge, .srv, .log] false s (execVelocityTick ax code late s) := by
  unfold execVelocityTick
  repeat' (first
    | with_reducible refine KeepsX.mainOnly ?_
    | with_reducible refine KeepsX.next ?_
    | with_reducible exact KeepsX.fault _ _ _ _
    | with_reducible exact KeepsS.refl _ _ _
    | with_reducible exact Keeps.refl _ _
    | split
    | (with_reducible apply Keeps.step (Dev.velocityTick_keeps ..); · decide)
    | with_reducible assumption
    | refine KeepsS.ofDev ?_
    | refine KeepsS.ofMem ?_
    | (refine ⟨fun p hp => ?_, fun hr => hr, fun _ => Grows.refl _⟩; cases p <;> first | exact absurd (by decide) hp | apply Eq.refl)
    | (dsimp only))

theorem execPositionTick_keeps (ax : Nat) (code : BitVec 24) (late : Bool) (s : State) : KeepsX [.w1c, .cnt, .merge, .freeCount, .pth, .srv, .log] false s (execPositionTick ax code late s) := by
  unfold execPositionTick
  repeat' (first
    | with_reducible refine KeepsX.mainOnly ?_
    | with_reducible refine KeepsX.next ?_
    | with_reducible exact KeepsX.fault _ _ _ _
    | with_reducible exact KeepsS.refl _ _ _
    | with_reducible exact Keeps.refl _ _
    | split
    | (with_reducible apply Keeps.step (Dev.positionTick_keeps ..); · decide)
    | with_reducible assumption
    | refine KeepsS.ofDev ?_
    | refine KeepsS.ofMem ?_
    | (refine ⟨fun p hp => ?_, fun hr => hr, fun _ => Grows.refl _⟩; cases p <;> first | exact absurd (by decide) hp | apply Eq.refl)
    | (dsimp only))

theorem execCurrentDecision_keeps (ax : Nat) (sensed : BitVec 20) (hiHeld loHeld : Bool) (tripHeld : BitVec 2) (s : State) : KeepsX [.w1c, .merge, .lsr, .srv, .log] false s (execCurrentDecision ax sensed hiHeld loHeld tripHeld s) := by
  unfold execCurrentDecision
  repeat' (first
    | with_reducible refine KeepsX.mainOnly ?_
    | with_reducible refine KeepsX.next ?_
    | with_reducible exact KeepsX.fault _ _ _ _
    | with_reducible exact KeepsS.refl _ _ _
    | with_reducible exact Keeps.refl _ _
    | split
    | (with_reducible apply Keeps.step (Dev.currentDecision_keeps ..); · decide)
    | with_reducible assumption
    | refine KeepsS.ofDev ?_
    | refine KeepsS.ofMem ?_
    | (refine ⟨fun p hp => ?_, fun hr => hr, fun _ => Grows.refl _⟩; cases p <;> first | exact absurd (by decide) hp | apply Eq.refl)
    | (dsimp only))

theorem execPerrTicksReached_keeps (ax : Nat) (s : State) : KeepsX [.w1c, .merge, .lsr, .srv, .log] false s (execPerrTicksReached ax s) := by
  unfold execPerrTicksReached
  repeat' (first
    | with_reducible refine KeepsX.mainOnly ?_
    | with_reducible refine KeepsX.next ?_
    | with_reducible exact KeepsX.fault _ _ _ _
    | with_reducible exact KeepsS.refl _ _ _
    | with_reducible exact Keeps.refl _ _
    | split
    | (with_reducible apply Keeps.step (Dev.axisFault_keeps ..); · decide)
    | with_reducible assumption
    | refine KeepsS.ofDev ?_
    | refine KeepsS.ofMem ?_
    | (refine ⟨fun p hp => ?_, fun hr => hr, fun _ => Grows.refl _⟩; cases p <;> first | exact absurd (by decide) hp | apply Eq.refl)
    | (dsimp only))

theorem execStuckBeatsReached_keeps (ax : Nat) (s : State) : KeepsX [.w1c, .merge, .lsr, .srv, .log] false s (execStuckBeatsReached ax s) := by
  unfold execStuckBeatsReached
  repeat' (first
    | with_reducible refine KeepsX.mainOnly ?_
    | with_reducible refine KeepsX.next ?_
    | with_reducible exact KeepsX.fault _ _ _ _
    | with_reducible exact KeepsS.refl _ _ _
    | with_reducible exact Keeps.refl _ _
    | split
    | (with_reducible apply Keeps.step (Dev.axisFault_keeps ..); · decide)
    | with_reducible assumption
    | refine KeepsS.ofDev ?_
    | refine KeepsS.ofMem ?_
    | (refine ⟨fun p hp => ?_, fun hr => hr, fun _ => Grows.refl _⟩; cases p <;> first | exact absurd (by decide) hp | apply Eq.refl)
    | (dsimp only))

theorem execCurSenseCountReached_keeps (ax : Nat) (s : State) : KeepsX [.w1c, .merge, .lsr, .srv, .log] false s (execCurSenseCountReached ax s) := by
  unfold execCurSenseCountReached
  repeat' (first
    | with_reducible refine KeepsX.mainOnly ?_
    | with_reducible refine KeepsX.next ?_
    | with_reducible exact KeepsX.fault _ _ _ _
    | with_reducible exact KeepsS.refl _ _ _
    | with_reducible exact Keeps.refl _ _
    | split
    | (with_reducible apply Keeps.step (Dev.axisFault_keeps ..); · decide)
    | with_reducible assumption
    | refine KeepsS.ofDev ?_
    | refine KeepsS.ofMem ?_
    | (refine ⟨fun p hp => ?_, fun hr => hr, fun _ => Grows.refl _⟩; cases p <;> first | exact absurd (by decide) hp | apply Eq.refl)
    | (dsimp only))

theorem execPosQualReached_keeps (ax : Nat) (s : State) : KeepsX [.w1c, .merge, .lsr, .srv, .log] false s (execPosQualReached ax s) := by
  unfold execPosQualReached
  repeat' (first
    | with_reducible refine KeepsX.mainOnly ?_
    | with_reducible refine KeepsX.next ?_
    | with_reducible exact KeepsX.fault _ _ _ _
    | with_reducible exact KeepsS.refl _ _ _
    | with_reducible exact Keeps.refl _ _
    | split
    | (with_reducible apply Keeps.step (Dev.axisFault_keeps ..); · decide)
    | with_reducible assumption
    | refine KeepsS.ofDev ?_
    | refine KeepsS.ofMem ?_
    | (refine ⟨fun p hp => ?_, fun hr => hr, fun _ => Grows.refl _⟩; cases p <;> first | exact absurd (by decide) hp | apply Eq.refl)
    | (dsimp only))

theorem execGateReadbackMismatch_keeps (ax : Nat) (gates : BitVec 4) (s : State) : KeepsX [.w1c, .merge, .lsr, .srv, .log] false s (execGateReadbackMismatch ax gates s) := by
  unfold execGateReadbackMismatch
  repeat' (first
    | with_reducible refine KeepsX.mainOnly ?_
    | with_reducible refine KeepsX.next ?_
    | with_reducible exact KeepsX.fault _ _ _ _
    | with_reducible exact KeepsS.refl _ _ _
    | with_reducible exact Keeps.refl _ _
    | split
    | (with_reducible apply Keeps.step (Dev.updAxis_keeps ..); · decide)
    | (with_reducible apply Keeps.step (Dev.axisFault_keeps ..); · decide)
    | with_reducible assumption
    | refine KeepsS.ofDev ?_
    | refine KeepsS.ofMem ?_
    | (refine ⟨fun p hp => ?_, fun hr => hr, fun _ => Grows.refl _⟩; cases p <;> first | exact absurd (by decide) hp | apply Eq.refl)
    | (dsimp only))

theorem execAcquireTimeoutExpiry_keeps (ax : Nat) (s : State) : KeepsX [.w1c, .merge, .lsr, .srv, .log] false s (execAcquireTimeoutExpiry ax s) := by
  unfold execAcquireTimeoutExpiry
  repeat' (first
    | with_reducible refine KeepsX.mainOnly ?_
    | with_reducible refine KeepsX.next ?_
    | with_reducible exact KeepsX.fault _ _ _ _
    | with_reducible exact KeepsS.refl _ _ _
    | with_reducible exact Keeps.refl _ _
    | split
    | (with_reducible apply Keeps.step (Dev.axisFault_keeps ..); · decide)
    | with_reducible assumption
    | refine KeepsS.ofDev ?_
    | refine KeepsS.ofMem ?_
    | (refine ⟨fun p hp => ?_, fun hr => hr, fun _ => Grows.refl _⟩; cases p <;> first | exact absurd (by decide) hp | apply Eq.refl)
    | (dsimp only))

theorem execSrvCommitEffect_keeps (s : State) : KeepsX [.effect, .srvNext, .cnt, .merge, .crs, .srv, .log] false s (execSrvCommitEffect s) := by
  unfold execSrvCommitEffect
  repeat' (first
    | with_reducible refine KeepsX.mainOnly ?_
    | with_reducible refine KeepsX.next ?_
    | with_reducible exact KeepsX.fault _ _ _ _
    | with_reducible exact KeepsS.refl _ _ _
    | with_reducible exact Keeps.refl _ _
    | split
    | (with_reducible apply Keeps.step (Dev.srvEffect_keeps ..); · decide)
    | with_reducible assumption
    | refine KeepsS.ofDev ?_
    | refine KeepsS.ofMem ?_
    | (refine ⟨fun p hp => ?_, fun hr => hr, fun _ => Grows.refl _⟩; cases p <;> first | exact absurd (by decide) hp | apply Eq.refl)
    | (dsimp only))

theorem execAxisEnable_keeps (src : Source) (ax : Nat) (v : W64) (s : State) : KeepsX [.rw, .shadow, .w1c, .srv] false s (execAxisEnable src ax v s) := by
  unfold execAxisEnable
  repeat' (first
    | with_reducible refine KeepsX.mainOnly ?_
    | with_reducible refine KeepsX.next ?_
    | with_reducible exact KeepsX.fault _ _ _ _
    | with_reducible exact KeepsS.refl _ _ _
    | with_reducible exact Keeps.refl _ _
    | split
    | (with_reducible apply Keeps.step (Dev.writeAxisCtl_keeps ..); · decide)
    | with_reducible assumption
    | refine KeepsS.ofDev ?_
    | refine KeepsS.ofMem ?_
    | (refine ⟨fun p hp => ?_, fun hr => hr, fun _ => Grows.refl _⟩; cases p <;> first | exact absurd (by decide) hp | apply Eq.refl)
    | (dsimp only))

theorem execAxisDisable_keeps (src : Source) (ax : Nat) (v : W64) (s : State) : KeepsX [.rw, .shadow, .w1c, .srv] false s (execAxisDisable src ax v s) := by
  unfold execAxisDisable
  repeat' (first
    | with_reducible refine KeepsX.mainOnly ?_
    | with_reducible refine KeepsX.next ?_
    | with_reducible exact KeepsX.fault _ _ _ _
    | with_reducible exact KeepsS.refl _ _ _
    | with_reducible exact Keeps.refl _ _
    | split
    | (with_reducible apply Keeps.step (Dev.writeAxisCtl_keeps ..); · decide)
    | with_reducible assumption
    | refine KeepsS.ofDev ?_
    | refine KeepsS.ofMem ?_
    | (refine ⟨fun p hp => ?_, fun hr => hr, fun _ => Grows.refl _⟩; cases p <;> first | exact absurd (by decide) hp | apply Eq.refl)
    | (dsimp only))

theorem execAxisFaultClear_keeps (src : Source) (ax : Nat) (v : W64) (s : State) : KeepsX [.rw, .shadow, .w1c] false s (execAxisFaultClear src ax v s) := by
  unfold execAxisFaultClear
  repeat' (first
    | with_reducible refine KeepsX.mainOnly ?_
    | with_reducible refine KeepsX.next ?_
    | with_reducible exact KeepsX.fault _ _ _ _
    | with_reducible exact KeepsS.refl _ _ _
    | with_reducible exact Keeps.refl _ _
    | split
    | (with_reducible apply Keeps.step (Dev.store_keeps ..); · decide)
    | with_reducible assumption
    | refine KeepsS.ofDev ?_
    | refine KeepsS.ofMem ?_
    | (refine ⟨fun p hp => ?_, fun hr => hr, fun _ => Grows.refl _⟩; cases p <;> first | exact absurd (by decide) hp | apply Eq.refl)
    | (dsimp only))

theorem execCameraPortEnable_keeps (src : Source) (c : Nat) (v : W64) (s : State) : KeepsX [.rw, .shadow, .w1c, .cnt, .merge, .hst, .cam, .log] false s (execCameraPortEnable src c v s) := by
  unfold execCameraPortEnable
  repeat' (first
    | with_reducible refine KeepsX.mainOnly ?_
    | with_reducible refine KeepsX.next ?_
    | with_reducible exact KeepsX.fault _ _ _ _
    | with_reducible exact KeepsS.refl _ _ _
    | with_reducible exact Keeps.refl _ _
    | split
    | (with_reducible apply Keeps.step (Dev.writeCamCfg_keeps ..); · decide)
    | with_reducible assumption
    | refine KeepsS.ofDev ?_
    | refine KeepsS.ofMem ?_
    | (refine ⟨fun p hp => ?_, fun hr => hr, fun _ => Grows.refl _⟩; cases p <;> first | exact absurd (by decide) hp | apply Eq.refl)
    | (dsimp only))

theorem execCameraPortDisable_keeps (src : Source) (c : Nat) (v : W64) (s : State) : KeepsX [.rw, .shadow, .w1c, .cnt, .merge, .hst, .cam, .log] false s (execCameraPortDisable src c v s) := by
  unfold execCameraPortDisable
  repeat' (first
    | with_reducible refine KeepsX.mainOnly ?_
    | with_reducible refine KeepsX.next ?_
    | with_reducible exact KeepsX.fault _ _ _ _
    | with_reducible exact KeepsS.refl _ _ _
    | with_reducible exact Keeps.refl _ _
    | split
    | (with_reducible apply Keeps.step (Dev.writeCamCfg_keeps ..); · decide)
    | with_reducible assumption
    | refine KeepsS.ofDev ?_
    | refine KeepsS.ofMem ?_
    | (refine ⟨fun p hp => ?_, fun hr => hr, fun _ => Grows.refl _⟩; cases p <;> first | exact absurd (by decide) hp | apply Eq.refl)
    | (dsimp only))

theorem execFrameStart_keeps (c : Nat) (vc : Nat) (frameNo : Nat) (hdr : HdrEcc) (s : State) : KeepsX [.cnt, .merge, .hst, .cam, .log] false s (execFrameStart c vc frameNo hdr s) := by
  unfold execFrameStart
  repeat' (first
    | with_reducible refine KeepsX.mainOnly ?_
    | with_reducible refine KeepsX.next ?_
    | with_reducible exact KeepsX.fault _ _ _ _
    | with_reducible exact KeepsS.refl _ _ _
    | with_reducible exact Keeps.refl _ _
    | split
    | (with_reducible apply Keeps.step (Dev.frameStart_keeps ..); · decide)
    | with_reducible assumption
    | refine KeepsS.ofDev ?_
    | refine KeepsS.ofMem ?_
    | (refine ⟨fun p hp => ?_, fun hr => hr, fun _ => Grows.refl _⟩; cases p <;> first | exact absurd (by decide) hp | apply Eq.refl)
    | (dsimp only))

theorem execFrameEnd_keeps (c : Nat) (vc : Nat) (hdr : HdrEcc) (s : State) : KeepsX [.cnt, .merge, .hst, .cam, .log] false s (execFrameEnd c vc hdr s) := by
  unfold execFrameEnd
  repeat' (first
    | with_reducible refine KeepsX.mainOnly ?_
    | with_reducible refine KeepsX.next ?_
    | with_reducible exact KeepsX.fault _ _ _ _
    | with_reducible exact KeepsS.refl _ _ _
    | with_reducible exact Keeps.refl _ _
    | split
    | (with_reducible apply Keeps.step (Dev.frameEnd_keeps ..); · decide)
    | with_reducible assumption
    | refine KeepsS.ofDev ?_
    | refine KeepsS.ofMem ?_
    | (refine ⟨fun p hp => ?_, fun hr => hr, fun _ => Grows.refl _⟩; cases p <;> first | exact absurd (by decide) hp | apply Eq.refl)
    | (dsimp only))

theorem execLongPacket_keeps (c : Nat) (vc : Nat) (dt : Nat) (px : List Nat) (crcOk : Bool) (hdr : HdrEcc) (s : State) : KeepsX [.cnt, .merge, .cam, .log] false s (execLongPacket c vc dt px crcOk hdr s) := by
  unfold execLongPacket
  repeat' (first
    | with_reducible refine KeepsX.mainOnly ?_
    | with_reducible refine KeepsX.next ?_
    | with_reducible exact KeepsX.fault _ _ _ _
    | with_reducible exact KeepsS.refl _ _ _
    | with_reducible exact Keeps.refl _ _
    | split
    | (with_reducible apply Keeps.step (Dev.longPacket_keeps ..); · decide)
    | with_reducible assumption
    | refine KeepsS.ofDev ?_
    | refine KeepsS.ofMem ?_
    | (refine ⟨fun p hp => ?_, fun hr => hr, fun _ => Grows.refl _⟩; cases p <;> first | exact absurd (by decide) hp | apply Eq.refl)
    | (dsimp only))

theorem execDphySotError_keeps (c : Nat) (lanes : BitVec 4) (s : State) : KeepsX [.merge, .log] false s (execDphySotError c lanes s) := by
  unfold execDphySotError
  repeat' (first
    | with_reducible refine KeepsX.mainOnly ?_
    | with_reducible refine KeepsX.next ?_
    | with_reducible exact KeepsX.fault _ _ _ _
    | with_reducible exact KeepsS.refl _ _ _
    | with_reducible exact Keeps.refl _ _
    | split
    | (with_reducible apply Keeps.step (Dev.sotError_keeps ..); · decide)
    | with_reducible assumption
    | refine KeepsS.ofDev ?_
    | refine KeepsS.ofMem ?_
    | (refine ⟨fun p hp => ?_, fun hr => hr, fun _ => Grows.refl _⟩; cases p <;> first | exact absurd (by decide) hp | apply Eq.refl)
    | (dsimp only))

theorem execCamFrameTimeout_keeps (c : Nat) (s : State) : KeepsX [.cnt, .merge, .hst, .cam, .log] false s (execCamFrameTimeout c s) := by
  unfold execCamFrameTimeout
  repeat' (first
    | with_reducible refine KeepsX.mainOnly ?_
    | with_reducible refine KeepsX.next ?_
    | with_reducible exact KeepsX.fault _ _ _ _
    | with_reducible exact KeepsS.refl _ _ _
    | with_reducible exact Keeps.refl _ _
    | split
    | (with_reducible apply Keeps.step (Dev.frameTimeout_keeps ..); · decide)
    | with_reducible assumption
    | refine KeepsS.ofDev ?_
    | refine KeepsS.ofMem ?_
    | (refine ⟨fun p hp => ?_, fun hr => hr, fun _ => Grows.refl _⟩; cases p <;> first | exact absurd (by decide) hp | apply Eq.refl)
    | (dsimp only))

theorem execEngineLine_keeps (e : Nat) (ecc : EccRead) (s : State) : KeepsX [.w1c, .cnt, .merge, .out, .freeCount, .cam, .memc, .log] true s (execEngineLine e ecc s) := by
  unfold execEngineLine
  repeat' (first
    | with_reducible refine KeepsX.mainOnly ?_
    | with_reducible refine KeepsX.next ?_
    | with_reducible exact KeepsX.fault _ _ _ _
    | with_reducible exact KeepsS.refl _ _ _
    | with_reducible exact Keeps.refl _ _
    | split
    | (with_reducible apply Keeps.step (Dev.engineLine_keeps ..); · decide)
    | with_reducible assumption
    | refine KeepsS.ofDev ?_
    | refine KeepsS.ofMem ?_
    | (refine ⟨fun p hp => ?_, fun hr => hr, fun _ => Grows.refl _⟩; cases p <;> first | exact absurd (by decide) hp | apply Eq.refl)
    | (dsimp only))

theorem execOutputHoldTimeout_keeps (e : Nat) (s : State) : KeepsX [.w1c, .cnt, .merge, .cam, .log] false s (execOutputHoldTimeout e s) := by
  unfold execOutputHoldTimeout
  repeat' (first
    | with_reducible refine KeepsX.mainOnly ?_
    | with_reducible refine KeepsX.next ?_
    | with_reducible exact KeepsX.fault _ _ _ _
    | with_reducible exact KeepsS.refl _ _ _
    | with_reducible exact Keeps.refl _ _
    | split
    | (with_reducible apply Keeps.step (Dev.holdTimeout_keeps ..); · decide)
    | with_reducible assumption
    | refine KeepsS.ofDev ?_
    | refine KeepsS.ofMem ?_
    | (refine ⟨fun p hp => ?_, fun hr => hr, fun _ => Grows.refl _⟩; cases p <;> first | exact absurd (by decide) hp | apply Eq.refl)
    | (dsimp only))

theorem execFrameWriteout_keeps (c : Nat) (s : State) : KeepsX [.merge, .out, .freeCount, .hst, .cam, .log] true s (execFrameWriteout c s) := by
  unfold execFrameWriteout
  repeat' (first
    | with_reducible refine KeepsX.mainOnly ?_
    | with_reducible refine KeepsX.next ?_
    | with_reducible exact KeepsX.fault _ _ _ _
    | with_reducible exact KeepsS.refl _ _ _
    | with_reducible exact Keeps.refl _ _
    | split
    | (with_reducible apply Keeps.step (Dev.frameWriteout_keeps ..); · decide)
    | with_reducible assumption
    | refine KeepsS.ofDev ?_
    | refine KeepsS.ofMem ?_
    | (refine ⟨fun p hp => ?_, fun hr => hr, fun _ => Grows.refl _⟩; cases p <;> first | exact absurd (by decide) hp | apply Eq.refl)
    | (dsimp only))

theorem execCapArm_keeps (ring : Nat) (s : State) : KeepsX [.merge, .hst, .cam] false s (execCapArm ring s) := by
  unfold execCapArm
  repeat' (first
    | with_reducible refine KeepsX.mainOnly ?_
    | with_reducible refine KeepsX.next ?_
    | with_reducible exact KeepsX.fault _ _ _ _
    | with_reducible exact KeepsS.refl _ _ _
    | with_reducible exact Keeps.refl _ _
    | split
    | (with_reducible apply Keeps.step (Dev.capArm_keeps ..); · decide)
    | with_reducible assumption
    | refine KeepsS.ofDev ?_
    | refine KeepsS.ofMem ?_
    | (refine ⟨fun p hp => ?_, fun hr => hr, fun _ => Grows.refl _⟩; cases p <;> first | exact absurd (by decide) hp | apply Eq.refl)
    | (dsimp only))

theorem execCapStop_keeps (ring : Nat) (s : State) : KeepsX [.cnt, .merge, .hst, .cam, .log] false s (execCapStop ring s) := by
  unfold execCapStop
  repeat' (first
    | with_reducible refine KeepsX.mainOnly ?_
    | with_reducible refine KeepsX.next ?_
    | with_reducible exact KeepsX.fault _ _ _ _
    | with_reducible exact KeepsS.refl _ _ _
    | with_reducible exact Keeps.refl _ _
    | split
    | (with_reducible apply Keeps.step (Dev.capStop_keeps ..); · decide)
    | with_reducible assumption
    | refine KeepsS.ofDev ?_
    | refine KeepsS.ofMem ?_
    | (refine ⟨fun p hp => ?_, fun hr => hr, fun _ => Grows.refl _⟩; cases p <;> first | exact absurd (by decide) hp | apply Eq.refl)
    | (dsimp only))

theorem execTableLoad_keeps (ring : Nat) (rd : HostRead) (s : State) : KeepsX [.cnt, .merge, .out, .hst, .cam, .log] false s (execTableLoad ring rd s) := by
  unfold execTableLoad
  repeat' (first
    | with_reducible refine KeepsX.mainOnly ?_
    | with_reducible refine KeepsX.next ?_
    | with_reducible exact KeepsX.fault _ _ _ _
    | with_reducible exact KeepsS.refl _ _ _
    | with_reducible exact Keeps.refl _ _
    | split
    | (with_reducible apply Keeps.step (Dev.tableLoad_keeps ..); · decide)
    | with_reducible assumption
    | refine KeepsS.ofDev ?_
    | refine KeepsS.ofMem ?_
    | (refine ⟨fun p hp => ?_, fun hr => hr, fun _ => Grows.refl _⟩; cases p <;> first | exact absurd (by decide) hp | apply Eq.refl)
    | (dsimp only))

theorem execCompress_keeps (ring : Nat) (ctx : HostRead) (s : State) : KeepsX [.cnt, .merge, .out, .hst, .cdc, .memc, .log] false s (execCompress ring ctx s) := by
  unfold execCompress
  repeat' (first
    | with_reducible refine KeepsX.mainOnly ?_
    | with_reducible refine KeepsX.next ?_
    | with_reducible exact KeepsX.fault _ _ _ _
    | with_reducible exact KeepsS.refl _ _ _
    | with_reducible exact Keeps.refl _ _
    | split
    | (with_reducible apply Keeps.step (Dev.codecEntry_keeps ..); · decide)
    | with_reducible assumption
    | refine KeepsS.ofDev ?_
    | refine KeepsS.ofMem ?_
    | (refine ⟨fun p hp => ?_, fun hr => hr, fun _ => Grows.refl _⟩; cases p <;> first | exact absurd (by decide) hp | apply Eq.refl)
    | (dsimp only))

theorem execDecompress_keeps (ring : Nat) (ctx : HostRead) (s : State) : KeepsX [.cnt, .merge, .out, .hst, .cdc, .memc, .log] false s (execDecompress ring ctx s) := by
  unfold execDecompress
  repeat' (first
    | with_reducible refine KeepsX.mainOnly ?_
    | with_reducible refine KeepsX.next ?_
    | with_reducible exact KeepsX.fault _ _ _ _
    | with_reducible exact KeepsS.refl _ _ _
    | with_reducible exact Keeps.refl _ _
    | split
    | (with_reducible apply Keeps.step (Dev.codecEntry_keeps ..); · decide)
    | with_reducible assumption
    | refine KeepsS.ofDev ?_
    | refine KeepsS.ofMem ?_
    | (refine ⟨fun p hp => ?_, fun hr => hr, fun _ => Grows.refl _⟩; cases p <;> first | exact absurd (by decide) hp | apply Eq.refl)
    | (dsimp only))

theorem execCodecJobRun_keeps (s : State) : KeepsX [.out, .cdc] false s (execCodecJobRun s) := by
  unfold execCodecJobRun
  repeat' (first
    | with_reducible refine KeepsX.mainOnly ?_
    | with_reducible refine KeepsX.next ?_
    | with_reducible exact KeepsX.fault _ _ _ _
    | with_reducible exact KeepsS.refl _ _ _
    | with_reducible exact Keeps.refl _ _
    | split
    | (with_reducible apply Keeps.step (Dev.codecStart_keeps ..); · decide)
    | with_reducible assumption
    | refine KeepsS.ofDev ?_
    | refine KeepsS.ofMem ?_
    | (refine ⟨fun p hp => ?_, fun hr => hr, fun _ => Grows.refl _⟩; cases p <;> first | exact absurd (by decide) hp | apply Eq.refl)
    | (dsimp only))

theorem execCodecJobDone_keeps (input : HostRead) (busErr : Option Nat) (s : State) : KeepsX [.cnt, .merge, .out, .freeCount, .hst, .cdc, .memc, .log] true s (execCodecJobDone input busErr s) := by
  unfold execCodecJobDone
  repeat' (first
    | with_reducible refine KeepsX.mainOnly ?_
    | with_reducible refine KeepsX.next ?_
    | with_reducible exact KeepsX.fault _ _ _ _
    | with_reducible exact KeepsS.refl _ _ _
    | with_reducible exact Keeps.refl _ _
    | split
    | (with_reducible apply Keeps.step (Dev.codecEnd_keeps ..); · decide)
    | with_reducible assumption
    | refine KeepsS.ofDev ?_
    | refine KeepsS.ofMem ?_
    | (refine ⟨fun p hp => ?_, fun hr => hr, fun _ => Grows.refl _⟩; cases p <;> first | exact absurd (by decide) hp | apply Eq.refl)
    | (dsimp only))

theorem execCodecDisable_keeps (src : Source) (v : W64) (s : State) : KeepsX [.rw, .shadow, .w1c] false s (execCodecDisable src v s) := by
  unfold execCodecDisable
  repeat' (first
    | with_reducible refine KeepsX.mainOnly ?_
    | with_reducible refine KeepsX.next ?_
    | with_reducible exact KeepsX.fault _ _ _ _
    | with_reducible exact KeepsS.refl _ _ _
    | with_reducible exact Keeps.refl _ _
    | split
    | (with_reducible apply Keeps.step (Dev.store_keeps ..); · decide)
    | with_reducible assumption
    | refine KeepsS.ofDev ?_
    | refine KeepsS.ofMem ?_
    | (refine ⟨fun p hp => ?_, fun hr => hr, fun _ => Grows.refl _⟩; cases p <;> first | exact absurd (by decide) hp | apply Eq.refl)
    | (dsimp only))

theorem execCodecEnable_keeps (src : Source) (v : W64) (s : State) : KeepsX [.rw, .shadow, .w1c] false s (execCodecEnable src v s) := by
  unfold execCodecEnable
  repeat' (first
    | with_reducible refine KeepsX.mainOnly ?_
    | with_reducible refine KeepsX.next ?_
    | with_reducible exact KeepsX.fault _ _ _ _
    | with_reducible exact KeepsS.refl _ _ _
    | with_reducible exact Keeps.refl _ _
    | split
    | (with_reducible apply Keeps.step (Dev.store_keeps ..); · decide)
    | with_reducible assumption
    | refine KeepsS.ofDev ?_
    | refine KeepsS.ofMem ?_
    | (refine ⟨fun p hp => ?_, fun hr => hr, fun _ => Grows.refl _⟩; cases p <;> first | exact absurd (by decide) hp | apply Eq.refl)
    | (dsimp only))

theorem execDmaMove_keeps (ring : Nat) (s : State) : KeepsX [.cnt, .merge, .hst, .dma, .log] false s (execDmaMove ring s) := by
  unfold execDmaMove
  repeat' (first
    | with_reducible refine KeepsX.mainOnly ?_
    | with_reducible refine KeepsX.next ?_
    | with_reducible exact KeepsX.fault _ _ _ _
    | with_reducible exact KeepsS.refl _ _ _
    | with_reducible exact Keeps.refl _ _
    | split
    | (with_reducible apply Keeps.step (Dev.moveEntry_keeps ..); · decide)
    | with_reducible assumption
    | refine KeepsS.ofDev ?_
    | refine KeepsS.ofMem ?_
    | (refine ⟨fun p hp => ?_, fun hr => hr, fun _ => Grows.refl _⟩; cases p <;> first | exact absurd (by decide) hp | apply Eq.refl)
    | (dsimp only))

theorem execDmaEntryStart_keeps (c : Nat) (s : State) : KeepsX [.cnt, .merge, .out, .hst, .dma, .log] false s (execDmaEntryStart c s) := by
  unfold execDmaEntryStart
  repeat' (first
    | with_reducible refine KeepsX.mainOnly ?_
    | with_reducible refine KeepsX.next ?_
    | with_reducible exact KeepsX.fault _ _ _ _
    | with_reducible exact KeepsS.refl _ _ _
    | with_reducible exact Keeps.refl _ _
    | split
    | (with_reducible apply Keeps.step (Dev.moveStart_keeps ..); · decide)
    | with_reducible assumption
    | refine KeepsS.ofDev ?_
    | refine KeepsS.ofMem ?_
    | (refine ⟨fun p hp => ?_, fun hr => hr, fun _ => Grows.refl _⟩; cases p <;> first | exact absurd (by decide) hp | apply Eq.refl)
    | (dsimp only))

theorem execDmaBurstWritten_keeps (c : Nat) (rd : List Byte) (s : State) : KeepsX [.cnt, .merge, .out, .freeCount, .hst, .dma, .memc, .log] true s (execDmaBurstWritten c rd s) := by
  unfold execDmaBurstWritten
  repeat' (first
    | with_reducible refine KeepsX.mainOnly ?_
    | with_reducible refine KeepsX.next ?_
    | with_reducible exact KeepsX.fault _ _ _ _
    | with_reducible exact KeepsS.refl _ _ _
    | with_reducible exact Keeps.refl _ _
    | split
    | (with_reducible apply Keeps.step (Dev.burstWritten_keeps ..); · decide)
    | with_reducible assumption
    | refine KeepsS.ofDev ?_
    | refine KeepsS.ofMem ?_
    | (refine ⟨fun p hp => ?_, fun hr => hr, fun _ => Grows.refl _⟩; cases p <;> first | exact absurd (by decide) hp | apply Eq.refl)
    | (dsimp only))

theorem execDmaBusError_keeps (c : Nat) (addr : W64) (write : Bool) (s : State) : KeepsX [.cnt, .merge, .freeCount, .hst, .dma, .log] true s (execDmaBusError c addr write s) := by
  unfold execDmaBusError
  repeat' (first
    | with_reducible refine KeepsX.mainOnly ?_
    | with_reducible refine KeepsX.next ?_
    | with_reducible exact KeepsX.fault _ _ _ _
    | with_reducible exact KeepsS.refl _ _ _
    | with_reducible exact Keeps.refl _ _
    | split
    | (with_reducible apply Keeps.step (Dev.busError_keeps ..); · decide)
    | with_reducible assumption
    | refine KeepsS.ofDev ?_
    | refine KeepsS.ofMem ?_
    | (refine ⟨fun p hp => ?_, fun hr => hr, fun _ => Grows.refl _⟩; cases p <;> first | exact absurd (by decide) hp | apply Eq.refl)
    | (dsimp only))

theorem execDmaAbort_keeps (ring : Nat) (s : State) : KeepsX [.cnt, .merge, .freeCount, .hst, .dma, .log] false s (execDmaAbort ring s) := by
  unfold execDmaAbort
  repeat' (first
    | with_reducible refine KeepsX.mainOnly ?_
    | with_reducible refine KeepsX.next ?_
    | with_reducible exact KeepsX.fault _ _ _ _
    | with_reducible exact KeepsS.refl _ _ _
    | with_reducible exact Keeps.refl _ _
    | split
    | (with_reducible apply Keeps.step (Dev.moveAbort_keeps ..); · decide)
    | with_reducible assumption
    | refine KeepsS.ofDev ?_
    | refine KeepsS.ofMem ?_
    | (refine ⟨fun p hp => ?_, fun hr => hr, fun _ => Grows.refl _⟩; cases p <;> first | exact absurd (by decide) hp | apply Eq.refl)
    | (dsimp only))

theorem execDmaChannelDisable_keeps (src : Source) (c : Nat) (v : W64) (s : State) : KeepsX [.rw, .shadow, .w1c] false s (execDmaChannelDisable src c v s) := by
  unfold execDmaChannelDisable
  repeat' (first
    | with_reducible refine KeepsX.mainOnly ?_
    | with_reducible refine KeepsX.next ?_
    | with_reducible exact KeepsX.fault _ _ _ _
    | with_reducible exact KeepsS.refl _ _ _
    | with_reducible exact Keeps.refl _ _
    | split
    | (with_reducible apply Keeps.step (Dev.writeChanCfg_keeps ..); · decide)
    | with_reducible assumption
    | refine KeepsS.ofDev ?_
    | refine KeepsS.ofMem ?_
    | (refine ⟨fun p hp => ?_, fun hr => hr, fun _ => Grows.refl _⟩; cases p <;> first | exact absurd (by decide) hp | apply Eq.refl)
    | (dsimp only))

theorem execScrubRead_keeps (addr : Nat) (ecc : EccRead) (clash : Bool) (s : State) : KeepsX [.cnt, .merge, .memc, .log] true s (execScrubRead addr ecc clash s) := by
  unfold execScrubRead
  repeat' (first
    | with_reducible refine KeepsX.mainOnly ?_
    | with_reducible refine KeepsX.next ?_
    | with_reducible exact KeepsX.fault _ _ _ _
    | with_reducible exact KeepsS.refl _ _ _
    | with_reducible exact Keeps.refl _ _
    | split
    | (with_reducible apply Keeps.step (Dev.scrubRead_keeps ..); · decide)
    | with_reducible assumption
    | refine KeepsS.ofDev ?_
    | refine KeepsS.ofMem ?_
    | (refine ⟨fun p hp => ?_, fun hr => hr, fun _ => Grows.refl _⟩; cases p <;> first | exact absurd (by decide) hp | apply Eq.refl)
    | (dsimp only))

theorem execDramReadReturn_keeps (addr : Nat) (req : Nat) (ecc : EccRead) (s : State) : KeepsX [.cnt, .merge, .memc, .log] false s (execDramReadReturn addr req ecc s) := by
  unfold execDramReadReturn
  repeat' (first
    | with_reducible refine KeepsX.mainOnly ?_
    | with_reducible refine KeepsX.next ?_
    | with_reducible exact KeepsX.fault _ _ _ _
    | with_reducible exact KeepsS.refl _ _ _
    | with_reducible exact Keeps.refl _ _
    | split
    | (with_reducible apply Keeps.step (Dev.dramRead_keeps ..); · decide)
    | with_reducible assumption
    | refine KeepsS.ofDev ?_
    | refine KeepsS.ofMem ?_
    | (refine ⟨fun p hp => ?_, fun hr => hr, fun _ => Grows.refl _⟩; cases p <;> first | exact absurd (by decide) hp | apply Eq.refl)
    | (dsimp only))

theorem execDdrEnable_keeps (src : Source) (c : Nat) (v : W64) (s : State) : KeepsX [.rw, .shadow, .w1c] false s (execDdrEnable src c v s) := by
  unfold execDdrEnable
  repeat' (first
    | with_reducible refine KeepsX.mainOnly ?_
    | with_reducible refine KeepsX.next ?_
    | with_reducible exact KeepsX.fault _ _ _ _
    | with_reducible exact KeepsS.refl _ _ _
    | with_reducible exact Keeps.refl _ _
    | split
    | (with_reducible apply Keeps.step (Dev.writeDdrCfg_keeps ..); · decide)
    | with_reducible assumption
    | refine KeepsS.ofDev ?_
    | refine KeepsS.ofMem ?_
    | (refine ⟨fun p hp => ?_, fun hr => hr, fun _ => Grows.refl _⟩; cases p <;> first | exact absurd (by decide) hp | apply Eq.refl)
    | (dsimp only))

theorem execDdrInitDone_keeps (c : Nat) (bad : Option (Nat × Nat)) (s : State) : KeepsX [.merge, .freeCount, .memc, .log] true s (execDdrInitDone c bad s) := by
  unfold execDdrInitDone
  repeat' (first
    | with_reducible refine KeepsX.mainOnly ?_
    | with_reducible refine KeepsX.next ?_
    | with_reducible exact KeepsX.fault _ _ _ _
    | with_reducible exact KeepsS.refl _ _ _
    | with_reducible exact Keeps.refl _ _
    | split
    | (with_reducible apply Keeps.step (Dev.ddrInitDone_keeps ..); · decide)
    | with_reducible assumption
    | refine KeepsS.ofDev ?_
    | refine KeepsS.ofMem ?_
    | (refine ⟨fun p hp => ?_, fun hr => hr, fun _ => Grows.refl _⟩; cases p <;> first | exact absurd (by decide) hp | apply Eq.refl)
    | (dsimp only))

theorem execDdrDisable_keeps (src : Source) (c : Nat) (v : W64) (s : State) : KeepsX [.rw, .shadow, .w1c] false s (execDdrDisable src c v s) := by
  unfold execDdrDisable
  repeat' (first
    | with_reducible refine KeepsX.mainOnly ?_
    | with_reducible refine KeepsX.next ?_
    | with_reducible exact KeepsX.fault _ _ _ _
    | with_reducible exact KeepsS.refl _ _ _
    | with_reducible exact Keeps.refl _ _
    | split
    | (with_reducible apply Keeps.step (Dev.writeDdrCfg_keeps ..); · decide)
    | with_reducible assumption
    | refine KeepsS.ofDev ?_
    | refine KeepsS.ofMem ?_
    | (refine ⟨fun p hp => ?_, fun hr => hr, fun _ => Grows.refl _⟩; cases p <;> first | exact absurd (by decide) hp | apply Eq.refl)
    | (dsimp only))

theorem execDdrRefresh_keeps (c : Nat) (rank : Nat) (waiting : Bool) (s : State) : KeepsX [.memc] false s (execDdrRefresh c rank waiting s) := by
  unfold execDdrRefresh
  repeat' (first
    | with_reducible refine KeepsX.mainOnly ?_
    | with_reducible refine KeepsX.next ?_
    | with_reducible exact KeepsX.fault _ _ _ _
    | with_reducible exact KeepsS.refl _ _ _
    | with_reducible exact Keeps.refl _ _
    | split
    | (with_reducible apply Keeps.step (Dev.ddrRefresh_keeps ..); · decide)
    | with_reducible assumption
    | refine KeepsS.ofDev ?_
    | refine KeepsS.ofMem ?_
    | (refine ⟨fun p hp => ?_, fun hr => hr, fun _ => Grows.refl _⟩; cases p <;> first | exact absurd (by decide) hp | apply Eq.refl)
    | (dsimp only))

theorem execDdrMr4Poll_keeps (c : Nat) (doubled : Bool) (s : State) : KeepsX [.memc] false s (execDdrMr4Poll c doubled s) := by
  unfold execDdrMr4Poll
  repeat' (first
    | with_reducible refine KeepsX.mainOnly ?_
    | with_reducible refine KeepsX.next ?_
    | with_reducible exact KeepsX.fault _ _ _ _
    | with_reducible exact KeepsS.refl _ _ _
    | with_reducible exact Keeps.refl _ _
    | split
    | (with_reducible apply Keeps.step (Dev.updDdr_keeps ..); · decide)
    | with_reducible assumption
    | refine KeepsS.ofDev ?_
    | refine KeepsS.ofMem ?_
    | (refine ⟨fun p hp => ?_, fun hr => hr, fun _ => Grows.refl _⟩; cases p <;> first | exact absurd (by decide) hp | apply Eq.refl)
    | (dsimp only))

theorem execRowWindowEnd_keeps (s : State) : KeepsX [.cnt, .freeCount, .memc] false s (execRowWindowEnd s) := by
  unfold execRowWindowEnd
  repeat' (first
    | with_reducible refine KeepsX.mainOnly ?_
    | with_reducible refine KeepsX.next ?_
    | with_reducible exact KeepsX.fault _ _ _ _
    | with_reducible exact KeepsS.refl _ _ _
    | with_reducible exact Keeps.refl _ _
    | split
    | (with_reducible apply Keeps.step (Dev.rowWindowEnd_keeps ..); · decide)
    | with_reducible assumption
    | refine KeepsS.ofDev ?_
    | refine KeepsS.ofMem ?_
    | (refine ⟨fun p hp => ?_, fun hr => hr, fun _ => Grows.refl _⟩; cases p <;> first | exact absurd (by decide) hp | apply Eq.refl)
    | (dsimp only))

theorem execActLimitReached_keeps (c : Nat) (bank : Nat) (req : Nat) (s : State) : KeepsX [.merge, .freeCount, .memc, .log] false s (execActLimitReached c bank req s) := by
  unfold execActLimitReached
  repeat' (first
    | with_reducible refine KeepsX.mainOnly ?_
    | with_reducible refine KeepsX.next ?_
    | with_reducible exact KeepsX.fault _ _ _ _
    | with_reducible exact KeepsS.refl _ _ _
    | with_reducible exact Keeps.refl _ _
    | split
    | (with_reducible apply Keeps.step (Dev.actLimitReached_keeps ..); · decide)
    | with_reducible assumption
    | refine KeepsS.ofDev ?_
    | refine KeepsS.ofMem ?_
    | (refine ⟨fun p hp => ?_, fun hr => hr, fun _ => Grows.refl _⟩; cases p <;> first | exact absurd (by decide) hp | apply Eq.refl)
    | (dsimp only))

theorem execLaneTestStart_keeps (src : Source) (l : Nat) (v : W64) (s : State) : KeepsX [.rw, .shadow, .w1c, .lnk] false s (execLaneTestStart src l v s) := by
  unfold execLaneTestStart
  repeat' (first
    | with_reducible refine KeepsX.mainOnly ?_
    | with_reducible refine KeepsX.next ?_
    | with_reducible exact KeepsX.fault _ _ _ _
    | with_reducible exact KeepsS.refl _ _ _
    | with_reducible exact Keeps.refl _ _
    | split
    | (with_reducible apply Keeps.step (Dev.writeLaneTest_keeps ..); · decide)
    | with_reducible assumption
    | refine KeepsS.ofDev ?_
    | refine KeepsS.ofMem ?_
    | (refine ⟨fun p hp => ?_, fun hr => hr, fun _ => Grows.refl _⟩; cases p <;> first | exact absurd (by decide) hp | apply Eq.refl)
    | (dsimp only))

theorem execLaneTestStop_keeps (src : Source) (l : Nat) (v : W64) (bits : Nat) (errs : Nat) (s : State) : KeepsX [.rw, .shadow, .w1c, .lnk] false s (execLaneTestStop src l v bits errs s) := by
  unfold execLaneTestStop
  repeat' (first
    | with_reducible refine KeepsX.mainOnly ?_
    | with_reducible refine KeepsX.next ?_
    | with_reducible exact KeepsX.fault _ _ _ _
    | with_reducible exact KeepsS.refl _ _ _
    | with_reducible exact Keeps.refl _ _
    | split
    | (with_reducible apply Keeps.step (Dev.writeLaneTest_keeps ..); · decide)
    | (with_reducible apply Keeps.step (Dev.checkerCount_keeps ..); · decide)
    | with_reducible assumption
    | refine KeepsS.ofDev ?_
    | refine KeepsS.ofMem ?_
    | (refine ⟨fun p hp => ?_, fun hr => hr, fun _ => Grows.refl _⟩; cases p <;> first | exact absurd (by decide) hp | apply Eq.refl)
    | (dsimp only))

theorem execLaneInject_keeps (src : Source) (l : Nat) (v : W64) (s : State) : KeepsX [.rw, .shadow, .w1c, .lnk] false s (execLaneInject src l v s) := by
  unfold execLaneInject
  repeat' (first
    | with_reducible refine KeepsX.mainOnly ?_
    | with_reducible refine KeepsX.next ?_
    | with_reducible exact KeepsX.fault _ _ _ _
    | with_reducible exact KeepsS.refl _ _ _
    | with_reducible exact Keeps.refl _ _
    | split
    | (with_reducible apply Keeps.step (Dev.writeLaneTest_keeps ..); · decide)
    | with_reducible assumption
    | refine KeepsS.ofDev ?_
    | refine KeepsS.ofMem ?_
    | (refine ⟨fun p hp => ?_, fun hr => hr, fun _ => Grows.refl _⟩; cases p <;> first | exact absurd (by decide) hp | apply Eq.refl)
    | (dsimp only))

theorem execBlPortEnable_keeps (src : Source) (p : Nat) (v : W64) (s : State) : KeepsX [.rw, .shadow, .w1c] false s (execBlPortEnable src p v s) := by
  unfold execBlPortEnable
  repeat' (first
    | with_reducible refine KeepsX.mainOnly ?_
    | with_reducible refine KeepsX.next ?_
    | with_reducible exact KeepsX.fault _ _ _ _
    | with_reducible exact KeepsS.refl _ _ _
    | with_reducible exact Keeps.refl _ _
    | split
    | (with_reducible apply Keeps.step (Dev.writeBlCfg_keeps ..); · decide)
    | with_reducible assumption
    | refine KeepsS.ofDev ?_
    | refine KeepsS.ofMem ?_
    | (refine ⟨fun p hp => ?_, fun hr => hr, fun _ => Grows.refl _⟩; cases p <;> first | exact absurd (by decide) hp | apply Eq.refl)
    | (dsimp only))

theorem execBlPortDisable_keeps (src : Source) (p : Nat) (v : W64) (s : State) : KeepsX [.rw, .shadow, .w1c] false s (execBlPortDisable src p v s) := by
  unfold execBlPortDisable
  repeat' (first
    | with_reducible refine KeepsX.mainOnly ?_
    | with_reducible refine KeepsX.next ?_
    | with_reducible exact KeepsX.fault _ _ _ _
    | with_reducible exact KeepsS.refl _ _ _
    | with_reducible exact Keeps.refl _ _
    | split
    | (with_reducible apply Keeps.step (Dev.writeBlCfg_keeps ..); · decide)
    | with_reducible assumption
    | refine KeepsS.ofDev ?_
    | refine KeepsS.ofMem ?_
    | (refine ⟨fun p hp => ?_, fun hr => hr, fun _ => Grows.refl _⟩; cases p <;> first | exact absurd (by decide) hp | apply Eq.refl)
    | (dsimp only))

theorem execBlLaneLock_keeps (p : Nat) (s : State) : KeepsX [.lnk] false s (execBlLaneLock p s) := by
  unfold execBlLaneLock
  repeat' (first
    | with_reducible refine KeepsX.mainOnly ?_
    | with_reducible refine KeepsX.next ?_
    | with_reducible exact KeepsX.fault _ _ _ _
    | with_reducible exact KeepsS.refl _ _ _
    | with_reducible exact Keeps.refl _ _
    | split
    | (with_reducible apply Keeps.step (Dev.blLaneLock_keeps ..); · decide)
    | with_reducible assumption
    | refine KeepsS.ofDev ?_
    | refine KeepsS.ofMem ?_
    | (refine ⟨fun p hp => ?_, fun hr => hr, fun _ => Grows.refl _⟩; cases p <;> first | exact absurd (by decide) hp | apply Eq.refl)
    | (dsimp only))

theorem execBlAlignFound_keeps (p : Nat) (swapped : Bool) (s : State) : KeepsX [.lnk] false s (execBlAlignFound p swapped s) := by
  unfold execBlAlignFound
  repeat' (first
    | with_reducible refine KeepsX.mainOnly ?_
    | with_reducible refine KeepsX.next ?_
    | with_reducible exact KeepsX.fault _ _ _ _
    | with_reducible exact KeepsS.refl _ _ _
    | with_reducible exact Keeps.refl _ _
    | split
    | (with_reducible apply Keeps.step (Dev.updBl_keeps ..); · decide)
    | (with_reducible apply Keeps.step (Dev.blState_keeps ..); · decide)
    | with_reducible assumption
    | refine KeepsS.ofDev ?_
    | refine KeepsS.ofMem ?_
    | (refine ⟨fun p hp => ?_, fun hr => hr, fun _ => Grows.refl _⟩; cases p <;> first | exact absurd (by decide) hp | apply Eq.refl)
    | (dsimp only))

theorem execBlAlignTimeout_keeps (p : Nat) (s : State) : KeepsX [.lnk] false s (execBlAlignTimeout p s) := by
  unfold execBlAlignTimeout
  repeat' (first
    | with_reducible refine KeepsX.mainOnly ?_
    | with_reducible refine KeepsX.next ?_
    | with_reducible exact KeepsX.fault _ _ _ _
    | with_reducible exact KeepsS.refl _ _ _
    | with_reducible exact Keeps.refl _ _
    | split
    | (with_reducible apply Keeps.step (Dev.blState_keeps ..); · decide)
    | with_reducible assumption
    | refine KeepsS.ofDev ?_
    | refine KeepsS.ofMem ?_
    | (refine ⟨fun p hp => ?_, fun hr => hr, fun _ => Grows.refl _⟩; cases p <;> first | exact absurd (by decide) hp | apply Eq.refl)
    | (dsimp only))

theorem execBlHelloSend_keeps (p : Nat) (s : State) : KeepsX [.out, .lnk] false s (execBlHelloSend p s) := by
  unfold execBlHelloSend
  repeat' (first
    | with_reducible refine KeepsX.mainOnly ?_
    | with_reducible refine KeepsX.next ?_
    | with_reducible exact KeepsX.fault _ _ _ _
    | with_reducible exact KeepsS.refl _ _ _
    | with_reducible exact Keeps.refl _ _
    | split
    | (with_reducible apply Keeps.step (Dev.blHelloSend_keeps ..); · decide)
    | with_reducible assumption
    | refine KeepsS.ofDev ?_
    | refine KeepsS.ofMem ?_
    | (refine ⟨fun p hp => ?_, fun hr => hr, fun _ => Grows.refl _⟩; cases p <;> first | exact absurd (by decide) hp | apply Eq.refl)
    | (dsimp only))

theorem execBlHelloReceive_keeps (p : Nat) (w0 : W64) (w1 : W64) (s : State) : KeepsX [.cnt, .merge, .hst, .lnk, .crs, .tmb, .log] false s (execBlHelloReceive p w0 w1 s) := by
  unfold execBlHelloReceive
  repeat' (first
    | with_reducible refine KeepsX.mainOnly ?_
    | with_reducible refine KeepsX.next ?_
    | with_reducible exact KeepsX.fault _ _ _ _
    | with_reducible exact KeepsS.refl _ _ _
    | with_reducible exact Keeps.refl _ _
    | split
    | (with_reducible apply Keeps.step (Dev.blHello_keeps ..); · decide)
    | with_reducible assumption
    | refine KeepsS.ofDev ?_
    | refine KeepsS.ofMem ?_
    | (refine ⟨fun p hp => ?_, fun hr => hr, fun _ => Grows.refl _⟩; cases p <;> first | exact absurd (by decide) hp | apply Eq.refl)
    | (dsimp only))

theorem execBlHelloTimeout_keeps (p : Nat) (s : State) : KeepsX [.lnk] false s (execBlHelloTimeout p s) := by
  unfold execBlHelloTimeout
  repeat' (first
    | with_reducible refine KeepsX.mainOnly ?_
    | with_reducible refine KeepsX.next ?_
    | with_reducible exact KeepsX.fault _ _ _ _
    | with_reducible exact KeepsS.refl _ _ _
    | with_reducible exact Keeps.refl _ _
    | split
    | (with_reducible apply Keeps.step (Dev.blState_keeps ..); · decide)
    | with_reducible assumption
    | refine KeepsS.ofDev ?_
    | refine KeepsS.ofMem ?_
    | (refine ⟨fun p hp => ?_, fun hr => hr, fun _ => Grows.refl _⟩; cases p <;> first | exact absurd (by decide) hp | apply Eq.refl)
    | (dsimp only))

theorem execBlLinkLoss_keeps (p : Nat) (blockErrors : Nat) (s : State) : KeepsX [.cnt, .merge, .hst, .lnk, .crs, .tmb, .log] false s (execBlLinkLoss p blockErrors s) := by
  unfold execBlLinkLoss
  repeat' (first
    | with_reducible refine KeepsX.mainOnly ?_
    | with_reducible refine KeepsX.next ?_
    | with_reducible exact KeepsX.fault _ _ _ _
    | with_reducible exact KeepsS.refl _ _ _
    | with_reducible exact Keeps.refl _ _
    | split
    | (with_reducible apply Keeps.step (Dev.blLinkLoss_keeps ..); · decide)
    | with_reducible assumption
    | refine KeepsS.ofDev ?_
    | refine KeepsS.ofMem ?_
    | (refine ⟨fun p hp => ?_, fun hr => hr, fun _ => Grows.refl _⟩; cases p <;> first | exact absurd (by decide) hp | apply Eq.refl)
    | (dsimp only))

theorem execBlLinkctl_keeps (p : Nat) (w : W64) (s : State) : KeepsX [.cnt, .merge, .out, .hst, .lnk, .crs, .tmb, .log] false s (execBlLinkctl p w s) := by
  unfold execBlLinkctl
  repeat' (first
    | with_reducible refine KeepsX.mainOnly ?_
    | with_reducible refine KeepsX.next ?_
    | with_reducible exact KeepsX.fault _ _ _ _
    | with_reducible exact KeepsS.refl _ _ _
    | with_reducible exact Keeps.refl _ _
    | split
    | (with_reducible apply Keeps.step (Dev.blLinkctl_keeps ..); · decide)
    | with_reducible assumption
    | refine KeepsS.ofDev ?_
    | refine KeepsS.ofMem ?_
    | (refine ⟨fun p hp => ?_, fun hr => hr, fun _ => Grows.refl _⟩; cases p <;> first | exact absurd (by decide) hp | apply Eq.refl)
    | (dsimp only))

theorem execBlFrameReceive_keeps (p : Nat) (pairs : List (LaneBlock × LaneBlock)) (drift : Int) (s : State) : KeepsX [.cnt, .merge, .out, .lnk, .log] false s (execBlFrameReceive p pairs drift s) := by
  unfold execBlFrameReceive
  repeat' (first
    | with_reducible refine KeepsX.mainOnly ?_
    | with_reducible refine KeepsX.next ?_
    | with_reducible exact KeepsX.fault _ _ _ _
    | with_reducible exact KeepsS.refl _ _ _
    | with_reducible exact Keeps.refl _ _
    | split
    | (with_reducible apply Keeps.step (Dev.blPairs_keeps ..); · decide)
    | with_reducible assumption
    | refine KeepsS.ofDev ?_
    | refine KeepsS.ofMem ?_
    | (refine ⟨fun p hp => ?_, fun hr => hr, fun _ => Grows.refl _⟩; cases p <;> first | exact absurd (by decide) hp | apply Eq.refl)
    | (dsimp only))

theorem execTimeFrameSend_keeps (p : Nat) (inner : Int) (s : State) : KeepsX [.cnt, .out, .lnk] false s (execTimeFrameSend p inner s) := by
  unfold execTimeFrameSend
  repeat' (first
    | with_reducible refine KeepsX.mainOnly ?_
    | with_reducible refine KeepsX.next ?_
    | with_reducible exact KeepsX.fault _ _ _ _
    | with_reducible exact KeepsS.refl _ _ _
    | with_reducible exact Keeps.refl _ _
    | split
    | (with_reducible apply Keeps.step (Dev.timeSend_keeps ..); · decide)
    | with_reducible assumption
    | refine KeepsS.ofDev ?_
    | refine KeepsS.ofMem ?_
    | (refine ⟨fun p hp => ?_, fun hr => hr, fun _ => Grows.refl _⟩; cases p <;> first | exact absurd (by decide) hp | apply Eq.refl)
    | (dsimp only))

theorem execTimeFrameReceive_keeps (p : Nat) (words : List W64) (inner : Int) (good : Bool) (s : State) : KeepsX [.cnt, .merge, .lnk, .tmb, .log] false s (execTimeFrameReceive p words inner good s) := by
  unfold execTimeFrameReceive
  repeat' (first
    | with_reducible refine KeepsX.mainOnly ?_
    | with_reducible refine KeepsX.next ?_
    | with_reducible exact KeepsX.fault _ _ _ _
    | with_reducible exact KeepsS.refl _ _ _
    | with_reducible exact Keeps.refl _ _
    | split
    | (with_reducible apply Keeps.step (Dev.timeReceive_keeps ..); · decide)
    | with_reducible assumption
    | refine KeepsS.ofDev ?_
    | refine KeepsS.ofMem ?_
    | (refine ⟨fun p hp => ?_, fun hr => hr, fun _ => Grows.refl _⟩; cases p <;> first | exact absurd (by decide) hp | apply Eq.refl)
    | (dsimp only))

theorem execRootTimeout_keeps (s : State) : KeepsX [.merge, .lnk, .tmb, .log] false s (execRootTimeout s) := by
  unfold execRootTimeout
  repeat' (first
    | with_reducible refine KeepsX.mainOnly ?_
    | with_reducible refine KeepsX.next ?_
    | with_reducible exact KeepsX.fault _ _ _ _
    | with_reducible exact KeepsS.refl _ _ _
    | with_reducible exact Keeps.refl _ _
    | split
    | (with_reducible apply Keeps.step (Dev.settleRoot_keeps ..); · decide)
    | with_reducible assumption
    | refine KeepsS.ofDev ?_
    | refine KeepsS.ofMem ?_
    | (refine ⟨fun p hp => ?_, fun hr => hr, fun _ => Grows.refl _⟩; cases p <;> first | exact absurd (by decide) hp | apply Eq.refl)
    | (dsimp only))

theorem execBrickFrameReceive_keeps (s : State) : KeepsX [.cnt, .merge, .out, .lnk, .log] false s (execBrickFrameReceive s) := by
  unfold execBrickFrameReceive
  repeat' (first
    | with_reducible refine KeepsX.mainOnly ?_
    | with_reducible refine KeepsX.next ?_
    | with_reducible exact KeepsX.fault _ _ _ _
    | with_reducible exact KeepsS.refl _ _ _
    | with_reducible exact Keeps.refl _ _
    | split
    | (with_reducible apply Keeps.step (Dev.brickFrame_keeps ..); · decide)
    | with_reducible assumption
    | refine KeepsS.ofDev ?_
    | refine KeepsS.ofMem ?_
    | (refine ⟨fun p hp => ?_, fun hr => hr, fun _ => Grows.refl _⟩; cases p <;> first | exact absurd (by decide) hp | apply Eq.refl)
    | (dsimp only))

theorem execFedBrickStaging_keeps (dev : Nat) (ring : Nat) (s : State) : KeepsX [.cnt, .merge, .out, .freeCount, .hst, .lnk, .crs, .msn, .pth, .lsr, .log] true s (execFedBrickStaging dev ring s) := by
  unfold execFedBrickStaging
  repeat' (first
    | with_reducible refine KeepsX.mainOnly ?_
    | with_reducible refine KeepsX.next ?_
    | with_reducible exact KeepsX.fault _ _ _ _
    | with_reducible exact KeepsS.refl _ _ _
    | with_reducible exact Keeps.refl _ _
    | split
    | (with_reducible apply Keeps.step (Dev.fedStaging_keeps ..); · decide)
    | with_reducible assumption
    | refine KeepsS.ofDev ?_
    | refine KeepsS.ofMem ?_
    | (refine ⟨fun p hp => ?_, fun hr => hr, fun _ => Grows.refl _⟩; cases p <;> first | exact absurd (by decide) hp | apply Eq.refl)
    | (dsimp only))

theorem execCtrlEntryReceive_keeps (s : State) : KeepsX [.cnt, .merge, .out, .freeCount, .hst, .lnk, .crs, .msn, .pth, .lsr, .log] false s (execCtrlEntryReceive s) := by
  unfold execCtrlEntryReceive
  repeat' (first
    | with_reducible refine KeepsX.mainOnly ?_
    | with_reducible refine KeepsX.next ?_
    | with_reducible exact KeepsX.fault _ _ _ _
    | with_reducible exact KeepsS.refl _ _ _
    | with_reducible exact Keeps.refl _ _
    | split
    | (with_reducible apply Keeps.step (Dev.ctrlEntry_keeps ..); · decide)
    | with_reducible assumption
    | refine KeepsS.ofDev ?_
    | refine KeepsS.ofMem ?_
    | (refine ⟨fun p hp => ?_, fun hr => hr, fun _ => Grows.refl _⟩; cases p <;> first | exact absurd (by decide) hp | apply Eq.refl)
    | (dsimp only))

theorem execRemnantFrameReceive_keeps (s : State) : KeepsX [.cnt, .merge, .out, .hst, .lnk, .crs, .log] false s (execRemnantFrameReceive s) := by
  unfold execRemnantFrameReceive
  repeat' (first
    | with_reducible refine KeepsX.mainOnly ?_
    | with_reducible refine KeepsX.next ?_
    | with_reducible exact KeepsX.fault _ _ _ _
    | with_reducible exact KeepsS.refl _ _ _
    | with_reducible exact Keeps.refl _ _
    | split
    | (with_reducible apply Keeps.step (Dev.remnantFrame_keeps ..); · decide)
    | with_reducible assumption
    | refine KeepsS.ofDev ?_
    | refine KeepsS.ofMem ?_
    | (refine ⟨fun p hp => ?_, fun hr => hr, fun _ => Grows.refl _⟩; cases p <;> first | exact absurd (by decide) hp | apply Eq.refl)
    | (dsimp only))

theorem execFedResultReceive_keeps (s : State) : KeepsX [.cnt, .merge, .out, .hst, .lnk, .crs, .log] false s (execFedResultReceive s) := by
  unfold execFedResultReceive
  repeat' (first
    | with_reducible refine KeepsX.mainOnly ?_
    | with_reducible refine KeepsX.next ?_
    | with_reducible exact KeepsX.fault _ _ _ _
    | with_reducible exact KeepsS.refl _ _ _
    | with_reducible exact Keeps.refl _ _
    | split
    | (with_reducible apply Keeps.step (Dev.fedDone_keeps ..); · decide)
    | with_reducible assumption
    | refine KeepsS.ofDev ?_
    | refine KeepsS.ofMem ?_
    | (refine ⟨fun p hp => ?_, fun hr => hr, fun _ => Grows.refl _⟩; cases p <;> first | exact absurd (by decide) hp | apply Eq.refl)
    | (dsimp only))

theorem execForeignEventReceive_keeps (s : State) : KeepsX [.cnt, .out, .hst, .lnk] false s (execForeignEventReceive s) := by
  unfold execForeignEventReceive
  repeat' (first
    | with_reducible refine KeepsX.mainOnly ?_
    | with_reducible refine KeepsX.next ?_
    | with_reducible exact KeepsX.fault _ _ _ _
    | with_reducible exact KeepsS.refl _ _ _
    | with_reducible exact Keeps.refl _ _
    | split
    | (with_reducible apply Keeps.step (Dev.foreignEvent_keeps ..); · decide)
    | with_reducible assumption
    | refine KeepsS.ofDev ?_
    | refine KeepsS.ofMem ?_
    | (refine ⟨fun p hp => ?_, fun hr => hr, fun _ => Grows.refl _⟩; cases p <;> first | exact absurd (by decide) hp | apply Eq.refl)
    | (dsimp only))

theorem execFeedTimeoutExpiry_keeps (key : Nat) (s : State) : KeepsX [.merge, .hst, .lnk, .crs, .log] false s (execFeedTimeoutExpiry key s) := by
  unfold execFeedTimeoutExpiry
  repeat' (first
    | with_reducible refine KeepsX.mainOnly ?_
    | with_reducible refine KeepsX.next ?_
    | with_reducible exact KeepsX.fault _ _ _ _
    | with_reducible exact KeepsS.refl _ _ _
    | with_reducible exact Keeps.refl _ _
    | split
    | (with_reducible apply Keeps.step (Dev.feedTimeout_keeps ..); · decide)
    | with_reducible assumption
    | refine KeepsS.ofDev ?_
    | refine KeepsS.ofMem ?_
    | (refine ⟨fun p hp => ?_, fun hr => hr, fun _ => Grows.refl _⟩; cases p <;> first | exact absurd (by decide) hp | apply Eq.refl)
    | (dsimp only))

theorem execFedStreamClose_keeps (dev : Nat) (ring : Nat) (s : State) : KeepsX [.lnk] false s (execFedStreamClose dev ring s) := by
  unfold execFedStreamClose
  repeat' (first
    | with_reducible refine KeepsX.mainOnly ?_
    | with_reducible refine KeepsX.next ?_
    | with_reducible exact KeepsX.fault _ _ _ _
    | with_reducible exact KeepsS.refl _ _ _
    | with_reducible exact Keeps.refl _ _
    | split
    | (with_reducible apply Keeps.step (Dev.closeStream_keeps ..); · decide)
    | with_reducible assumption
    | refine KeepsS.ofDev ?_
    | refine KeepsS.ofMem ?_
    | (refine ⟨fun p hp => ?_, fun hr => hr, fun _ => Grows.refl _⟩; cases p <;> first | exact absurd (by decide) hp | apply Eq.refl)
    | (dsimp only))

theorem execEthLinkRise_keeps (e : Nat) (s : State) : KeepsX [.merge, .lnk, .log] false s (execEthLinkRise e s) := by
  unfold execEthLinkRise
  repeat' (first
    | with_reducible refine KeepsX.mainOnly ?_
    | with_reducible refine KeepsX.next ?_
    | with_reducible exact KeepsX.fault _ _ _ _
    | with_reducible exact KeepsS.refl _ _ _
    | with_reducible exact Keeps.refl _ _
    | split
    | (with_reducible apply Keeps.step (Dev.ethLink_keeps ..); · decide)
    | with_reducible assumption
    | refine KeepsS.ofDev ?_
    | refine KeepsS.ofMem ?_
    | (refine ⟨fun p hp => ?_, fun hr => hr, fun _ => Grows.refl _⟩; cases p <;> first | exact absurd (by decide) hp | apply Eq.refl)
    | (dsimp only))

theorem execEthLinkFall_keeps (e : Nat) (s : State) : KeepsX [.merge, .lnk, .log] false s (execEthLinkFall e s) := by
  unfold execEthLinkFall
  repeat' (first
    | with_reducible refine KeepsX.mainOnly ?_
    | with_reducible refine KeepsX.next ?_
    | with_reducible exact KeepsX.fault _ _ _ _
    | with_reducible exact KeepsS.refl _ _ _
    | with_reducible exact Keeps.refl _ _
    | split
    | (with_reducible apply Keeps.step (Dev.ethLink_keeps ..); · decide)
    | with_reducible assumption
    | refine KeepsS.ofDev ?_
    | refine KeepsS.ofMem ?_
    | (refine ⟨fun p hp => ?_, fun hr => hr, fun _ => Grows.refl _⟩; cases p <;> first | exact absurd (by decide) hp | apply Eq.refl)
    | (dsimp only))

theorem execTmbSetWrite_keeps (src : Source) (v : W64) (s : State) : KeepsX [.rw, .shadow, .w1c, .merge, .tmb, .log] false s (execTmbSetWrite src v s) := by
  unfold execTmbSetWrite
  repeat' (first
    | with_reducible refine KeepsX.mainOnly ?_
    | with_reducible refine KeepsX.next ?_
    | with_reducible exact KeepsX.fault _ _ _ _
    | with_reducible exact KeepsS.refl _ _ _
    | with_reducible exact Keeps.refl _ _
    | split
    | (with_reducible apply Keeps.step (Dev.writeTmbSet_keeps ..); · decide)
    | with_reducible assumption
    | refine KeepsS.ofDev ?_
    | refine KeepsS.ofMem ?_
    | (refine ⟨fun p hp => ?_, fun hr => hr, fun _ => Grows.refl _⟩; cases p <;> first | exact absurd (by decide) hp | apply Eq.refl)
    | (dsimp only))

theorem execTmbStepWrite_keeps (src : Source) (v : W64) (s : State) : KeepsX [.w1c, .merge, .tmb, .log] false s (execTmbStepWrite src v s) := by
  unfold execTmbStepWrite
  repeat' (first
    | with_reducible refine KeepsX.mainOnly ?_
    | with_reducible refine KeepsX.next ?_
    | with_reducible exact KeepsX.fault _ _ _ _
    | with_reducible exact KeepsS.refl _ _ _
    | with_reducible exact Keeps.refl _ _
    | split
    | (with_reducible apply Keeps.step (Dev.writeTmbStep_keeps ..); · decide)
    | with_reducible assumption
    | refine KeepsS.ofDev ?_
    | refine KeepsS.ofMem ?_
    | (refine ⟨fun p hp => ?_, fun hr => hr, fun _ => Grows.refl _⟩; cases p <;> first | exact absurd (by decide) hp | apply Eq.refl)
    | (dsimp only))

theorem execBeatStart_keeps (src : Source) (v : W64) (s : State) : KeepsX [.rw, .shadow, .w1c, .tmb] false s (execBeatStart src v s) := by
  unfold execBeatStart
  repeat' (first
    | with_reducible refine KeepsX.mainOnly ?_
    | with_reducible refine KeepsX.next ?_
    | with_reducible exact KeepsX.fault _ _ _ _
    | with_reducible exact KeepsS.refl _ _ _
    | with_reducible exact Keeps.refl _ _
    | split
    | (with_reducible apply Keeps.step (Dev.writeTmbCtl_keeps ..); · decide)
    | with_reducible assumption
    | refine KeepsS.ofDev ?_
    | refine KeepsS.ofMem ?_
    | (refine ⟨fun p hp => ?_, fun hr => hr, fun _ => Grows.refl _⟩; cases p <;> first | exact absurd (by decide) hp | apply Eq.refl)
    | (dsimp only))

theorem execBeatStartReached_keeps (s : State) : KeepsX [.merge, .tmb, .log] false s (execBeatStartReached s) := by
  unfold execBeatStartReached
  repeat' (first
    | with_reducible refine KeepsX.mainOnly ?_
    | with_reducible refine KeepsX.next ?_
    | with_reducible exact KeepsX.fault _ _ _ _
    | with_reducible exact KeepsS.refl _ _ _
    | with_reducible exact Keeps.refl _ _
    | split
    | (with_reducible apply Keeps.step (Dev.startReached_keeps ..); · decide)
    | with_reducible assumption
    | refine KeepsS.ofDev ?_
    | refine KeepsS.ofMem ?_
    | (refine ⟨fun p hp => ?_, fun hr => hr, fun _ => Grows.refl _⟩; cases p <;> first | exact absurd (by decide) hp | apply Eq.refl)
    | (dsimp only))

theorem execPtpMessageReceive_keeps (e : Nat) (m : PtpMsg) (ts : Int) (newState : Nat) (s : State) : KeepsX [.merge, .tmb, .log] false s (execPtpMessageReceive e m ts newState s) := by
  unfold execPtpMessageReceive
  repeat' (first
    | with_reducible refine KeepsX.mainOnly ?_
    | with_reducible refine KeepsX.next ?_
    | with_reducible exact KeepsX.fault _ _ _ _
    | with_reducible exact KeepsS.refl _ _ _
    | with_reducible exact Keeps.refl _ _
    | split
    | (with_reducible apply Keeps.step (Dev.ptpReceive_keeps ..); · decide)
    | with_reducible assumption
    | refine KeepsS.ofDev ?_
    | refine KeepsS.ofMem ?_
    | (refine ⟨fun p hp => ?_, fun hr => hr, fun _ => Grows.refl _⟩; cases p <;> first | exact absurd (by decide) hp | apply Eq.refl)
    | (dsimp only))

theorem execPtpMeasurement_keeps (e : Nat) (off : Int) (s : State) : KeepsX [.cnt, .merge, .tmb, .log] false s (execPtpMeasurement e off s) := by
  unfold execPtpMeasurement
  repeat' (first
    | with_reducible refine KeepsX.mainOnly ?_
    | with_reducible refine KeepsX.next ?_
    | with_reducible exact KeepsX.fault _ _ _ _
    | with_reducible exact KeepsS.refl _ _ _
    | with_reducible exact Keeps.refl _ _
    | split
    | (with_reducible apply Keeps.step (Dev.measure_keeps ..); · decide)
    | with_reducible assumption
    | refine KeepsS.ofDev ?_
    | refine KeepsS.ofMem ?_
    | (refine ⟨fun p hp => ?_, fun hr => hr, fun _ => Grows.refl _⟩; cases p <;> first | exact absurd (by decide) hp | apply Eq.refl)
    | (dsimp only))

theorem execSyncTimeout_keeps (e : Nat) (s : State) : KeepsX [.merge, .tmb, .log] false s (execSyncTimeout e s) := by
  unfold execSyncTimeout
  repeat' (first
    | with_reducible refine KeepsX.mainOnly ?_
    | with_reducible refine KeepsX.next ?_
    | with_reducible exact KeepsX.fault _ _ _ _
    | with_reducible exact KeepsS.refl _ _ _
    | with_reducible exact Keeps.refl _ _
    | split
    | (with_reducible apply Keeps.step (Dev.sourceLost_keeps ..); · decide)
    | with_reducible assumption
    | refine KeepsS.ofDev ?_
    | refine KeepsS.ofMem ?_
    | (refine ⟨fun p hp => ?_, fun hr => hr, fun _ => Grows.refl _⟩; cases p <;> first | exact absurd (by decide) hp | apply Eq.refl)
    | (dsimp only))

theorem execFreqUpdate_keeps (s : State) : KeepsX [.merge, .tmb, .log] false s (execFreqUpdate s) := by
  unfold execFreqUpdate
  repeat' (first
    | with_reducible refine KeepsX.mainOnly ?_
    | with_reducible refine KeepsX.next ?_
    | with_reducible exact KeepsX.fault _ _ _ _
    | with_reducible exact KeepsS.refl _ _ _
    | with_reducible exact Keeps.refl _ _
    | split
    | (with_reducible apply Keeps.step (Dev.freqUpdate_keeps ..); · decide)
    | with_reducible assumption
    | refine KeepsS.ofDev ?_
    | refine KeepsS.ofMem ?_
    | (refine ⟨fun p hp => ?_, fun hr => hr, fun _ => Grows.refl _⟩; cases p <;> first | exact absurd (by decide) hp | apply Eq.refl)
    | (dsimp only))

theorem execStatsEpoch_keeps (s : State) : KeepsX [.cnt, .rol, .rolBeat, .memc, .thm] false s (execStatsEpoch s) := by
  unfold execStatsEpoch
  repeat' (first
    | with_reducible refine KeepsX.mainOnly ?_
    | with_reducible refine KeepsX.next ?_
    | with_reducible exact KeepsX.fault _ _ _ _
    | with_reducible exact KeepsS.refl _ _ _
    | with_reducible exact Keeps.refl _ _
    | split
    | (with_reducible apply Keeps.step (Dev.statsEpoch_keeps ..); · decide)
    | with_reducible assumption
    | refine KeepsS.ofDev ?_
    | refine KeepsS.ofMem ?_
    | (refine ⟨fun p hp => ?_, fun hr => hr, fun _ => Grows.refl _⟩; cases p <;> first | exact absurd (by decide) hp | apply Eq.refl)
    | (dsimp only))

theorem execTcapEdge_keeps (i : Nat) (falling : Bool) (ns : W64) (frac : W16) (s : State) : KeepsX [.cnt, .merge, .tmb, .log] false s (execTcapEdge idx falling ns frac s) := by
  unfold execTcapEdge
  repeat' (first
    | with_reducible refine KeepsX.mainOnly ?_
    | with_reducible refine KeepsX.next ?_
    | with_reducible exact KeepsX.fault _ _ _ _
    | with_reducible exact KeepsS.refl _ _ _
    | with_reducible exact Keeps.refl _ _
    | split
    | (with_reducible apply Keeps.step (Dev.captureEdge_keeps ..); · decide)
    | with_reducible assumption
    | refine KeepsS.ofDev ?_
    | refine KeepsS.ofMem ?_
    | (refine ⟨fun p hp => ?_, fun hr => hr, fun _ => Grows.refl _⟩; cases p <;> first | exact absurd (by decide) hp | apply Eq.refl)
    | (dsimp only))

theorem execLaunchArm_keeps (src : Source) (sl : Nat) (v : W64) (s : State) : KeepsX [.rw, .shadow, .w1c, .merge, .tmb, .log] false s (execLaunchArm src sl v s) := by
  unfold execLaunchArm
  repeat' (first
    | with_reducible refine KeepsX.mainOnly ?_
    | with_reducible refine KeepsX.next ?_
    | with_reducible exact KeepsX.fault _ _ _ _
    | with_reducible exact KeepsS.refl _ _ _
    | with_reducible exact Keeps.refl _ _
    | split
    | (with_reducible apply Keeps.step (Dev.writeLaunchCtl_keeps ..); · decide)
    | with_reducible assumption
    | refine KeepsS.ofDev ?_
    | refine KeepsS.ofMem ?_
    | (refine ⟨fun p hp => ?_, fun hr => hr, fun _ => Grows.refl _⟩; cases p <;> first | exact absurd (by decide) hp | apply Eq.refl)
    | (dsimp only))

theorem execLaunchCancel_keeps (src : Source) (sl : Nat) (v : W64) (s : State) : KeepsX [.rw, .shadow, .w1c, .merge, .tmb, .log] false s (execLaunchCancel src sl v s) := by
  unfold execLaunchCancel
  repeat' (first
    | with_reducible refine KeepsX.mainOnly ?_
    | with_reducible refine KeepsX.next ?_
    | with_reducible exact KeepsX.fault _ _ _ _
    | with_reducible exact KeepsS.refl _ _ _
    | with_reducible exact Keeps.refl _ _
    | split
    | (with_reducible apply Keeps.step (Dev.writeLaunchCtl_keeps ..); · decide)
    | with_reducible assumption
    | refine KeepsS.ofDev ?_
    | refine KeepsS.ofMem ?_
    | (refine ⟨fun p hp => ?_, fun hr => hr, fun _ => Grows.refl _⟩; cases p <;> first | exact absurd (by decide) hp | apply Eq.refl)
    | (dsimp only))

theorem execLaunchWindow_keeps (sl : Nat) (s : State) : KeepsX [.rw, .rwAct, .merge, .tmb, .log] false s (execLaunchWindow sl s) := by
  unfold execLaunchWindow
  repeat' (first
    | with_reducible refine KeepsX.mainOnly ?_
    | with_reducible refine KeepsX.next ?_
    | with_reducible exact KeepsX.fault _ _ _ _
    | with_reducible exact KeepsS.refl _ _ _
    | with_reducible exact Keeps.refl _ _
    | split
    | (with_reducible apply Keeps.step (Dev.launchWindow_keeps ..); · decide)
    | with_reducible assumption
    | refine KeepsS.ofDev ?_
    | refine KeepsS.ofMem ?_
    | (refine ⟨fun p hp => ?_, fun hr => hr, fun _ => Grows.refl _⟩; cases p <;> first | exact absurd (by decide) hp | apply Eq.refl)
    | (dsimp only))

theorem execLaunchSend_keeps (sl : Nat) (ns : W64) (frac : W16) (s : State) : KeepsX [.rw, .rwAct, .cnt, .merge, .out, .lnk, .tmb, .log] false s (execLaunchSend sl ns frac s) := by
  unfold execLaunchSend
  repeat' (first
    | with_reducible refine KeepsX.mainOnly ?_
    | with_reducible refine KeepsX.next ?_
    | with_reducible exact KeepsX.fault _ _ _ _
    | with_reducible exact KeepsS.refl _ _ _
    | with_reducible exact Keeps.refl _ _
    | split
    | (with_reducible apply Keeps.step (Dev.launchSend_keeps ..); · decide)
    | with_reducible assumption
    | refine KeepsS.ofDev ?_
    | refine KeepsS.ofMem ?_
    | (refine ⟨fun p hp => ?_, fun hr => hr, fun _ => Grows.refl _⟩; cases p <;> first | exact absurd (by decide) hp | apply Eq.refl)
    | (dsimp only))

theorem execAxsMove_keeps (ring : Nat) (s : State) : KeepsX [.cnt, .merge, .hst, .axs, .log] false s (execAxsMove ring s) := by
  unfold execAxsMove
  repeat' (first
    | with_reducible refine KeepsX.mainOnly ?_
    | with_reducible refine KeepsX.next ?_
    | with_reducible exact KeepsX.fault _ _ _ _
    | with_reducible exact KeepsS.refl _ _ _
    | with_reducible exact Keeps.refl _ _
    | split
    | (with_reducible apply Keeps.step (Dev.axEntry_keeps ..); · decide)
    | with_reducible assumption
    | refine KeepsS.ofDev ?_
    | refine KeepsS.ofMem ?_
    | (refine ⟨fun p hp => ?_, fun hr => hr, fun _ => Grows.refl _⟩; cases p <;> first | exact absurd (by decide) hp | apply Eq.refl)
    | (dsimp only))

theorem execHome_keeps (ring : Nat) (s : State) : KeepsX [.cnt, .merge, .hst, .axs, .log] false s (execHome ring s) := by
  unfold execHome
  repeat' (first
    | with_reducible refine KeepsX.mainOnly ?_
    | with_reducible refine KeepsX.next ?_
    | with_reducible exact KeepsX.fault _ _ _ _
    | with_reducible exact KeepsS.refl _ _ _
    | with_reducible exact Keeps.refl _ _
    | split
    | (with_reducible apply Keeps.step (Dev.axEntry_keeps ..); · decide)
    | with_reducible assumption
    | refine KeepsS.ofDev ?_
    | refine KeepsS.ofMem ?_
    | (refine ⟨fun p hp => ?_, fun hr => hr, fun _ => Grows.refl _⟩; cases p <;> first | exact absurd (by decide) hp | apply Eq.refl)
    | (dsimp only))

theorem execStop_keeps (ring : Nat) (s : State) : KeepsX [.cnt, .merge, .hst, .axs, .log] false s (execStop ring s) := by
  unfold execStop
  repeat' (first
    | with_reducible refine KeepsX.mainOnly ?_
    | with_reducible refine KeepsX.next ?_
    | with_reducible exact KeepsX.fault _ _ _ _
    | with_reducible exact KeepsS.refl _ _ _
    | with_reducible exact Keeps.refl _ _
    | split
    | (with_reducible apply Keeps.step (Dev.axEntry_keeps ..); · decide)
    | with_reducible assumption
    | refine KeepsS.ofDev ?_
    | refine KeepsS.ofMem ?_
    | (refine ⟨fun p hp => ?_, fun hr => hr, fun _ => Grows.refl _⟩; cases p <;> first | exact absurd (by decide) hp | apply Eq.refl)
    | (dsimp only))

theorem execSetPos_keeps (ring : Nat) (s : State) : KeepsX [.cnt, .merge, .hst, .axs, .log] false s (execSetPos ring s) := by
  unfold execSetPos
  repeat' (first
    | with_reducible refine KeepsX.mainOnly ?_
    | with_reducible refine KeepsX.next ?_
    | with_reducible exact KeepsX.fault _ _ _ _
    | with_reducible exact KeepsS.refl _ _ _
    | with_reducible exact Keeps.refl _ _
    | split
    | (with_reducible apply Keeps.step (Dev.axEntry_keeps ..); · decide)
    | with_reducible assumption
    | refine KeepsS.ofDev ?_
    | refine KeepsS.ofMem ?_
    | (refine ⟨fun p hp => ?_, fun hr => hr, fun _ => Grows.refl _⟩; cases p <;> first | exact absurd (by decide) hp | apply Eq.refl)
    | (dsimp only))

theorem execAxsEntryResume_keeps (ring : Nat) (s : State) : KeepsX [.cnt, .merge, .hst, .axs, .log] false s (execAxsEntryResume ring s) := by
  unfold execAxsEntryResume
  repeat' (first
    | with_reducible refine KeepsX.mainOnly ?_
    | with_reducible refine KeepsX.next ?_
    | with_reducible exact KeepsX.fault _ _ _ _
    | with_reducible exact KeepsS.refl _ _ _
    | with_reducible exact Keeps.refl _ _
    | split
    | (with_reducible apply Keeps.step (Dev.axEntry_keeps ..); · decide)
    | with_reducible assumption
    | refine KeepsS.ofDev ?_
    | refine KeepsS.ofMem ?_
    | (refine ⟨fun p hp => ?_, fun hr => hr, fun _ => Grows.refl _⟩; cases p <;> first | exact absurd (by decide) hp | apply Eq.refl)
    | (dsimp only))

theorem execProfileTick_keeps (late : Bool) (s : State) : KeepsX [.w1c, .cnt, .merge, .hst, .axs, .log] false s (execProfileTick late s) := by
  unfold execProfileTick
  repeat' (first
    | with_reducible refine KeepsX.mainOnly ?_
    | with_reducible refine KeepsX.next ?_
    | with_reducible exact KeepsX.fault _ _ _ _
    | with_reducible exact KeepsS.refl _ _ _
    | with_reducible exact Keeps.refl _ _
    | split
    | (with_reducible apply Keeps.step (Dev.profileTick_keeps ..); · decide)
    | with_reducible assumption
    | refine KeepsS.ofDev ?_
    | refine KeepsS.ofMem ?_
    | (refine ⟨fun p hp => ?_, fun hr => hr, fun _ => Grows.refl _⟩; cases p <;> first | exact absurd (by decide) hp | apply Eq.refl)
    | (dsimp only))

theorem execLimitQualified_keeps (m : Nat) (plus : Bool) (level : Bool) (s : State) : KeepsX [.cnt, .merge, .axs, .log] false s (execLimitQualified m plus level s) := by
  unfold execLimitQualified
  repeat' (first
    | with_reducible refine KeepsX.mainOnly ?_
    | with_reducible refine KeepsX.next ?_
    | with_reducible exact KeepsX.fault _ _ _ _
    | with_reducible exact KeepsS.refl _ _ _
    | with_reducible exact Keeps.refl _ _
    | split
    | (with_reducible apply Keeps.step (Dev.limitQualified_keeps ..); · decide)
    | with_reducible assumption
    | refine KeepsS.ofDev ?_
    | refine KeepsS.ofMem ?_
    | (refine ⟨fun p hp => ?_, fun hr => hr, fun _ => Grows.refl _⟩; cases p <;> first | exact absurd (by decide) hp | apply Eq.refl)
    | (dsimp only))

theorem execHomeQualified_keeps (m : Nat) (level : Bool) (latch : W32) (s : State) : KeepsX [.axs] false s (execHomeQualified m level latch s) := by
  unfold execHomeQualified
  repeat' (first
    | with_reducible refine KeepsX.mainOnly ?_
    | with_reducible refine KeepsX.next ?_
    | with_reducible exact KeepsX.fault _ _ _ _
    | with_reducible exact KeepsS.refl _ _ _
    | with_reducible exact Keeps.refl _ _
    | split
    | (with_reducible apply Keeps.step (Dev.homeQualified_keeps ..); · decide)
    | with_reducible assumption
    | refine KeepsS.ofDev ?_
    | refine KeepsS.ofMem ?_
    | (refine ⟨fun p hp => ?_, fun hr => hr, fun _ => Grows.refl _⟩; cases p <;> first | exact absurd (by decide) hp | apply Eq.refl)
    | (dsimp only))

theorem execHomeInputDeassert_keeps (m : Nat) (s : State) : KeepsX [.axs] false s (execHomeInputDeassert m s) := by
  unfold execHomeInputDeassert
  repeat' (first
    | with_reducible refine KeepsX.mainOnly ?_
    | with_reducible refine KeepsX.next ?_
    | with_reducible exact KeepsX.fault _ _ _ _
    | with_reducible exact KeepsS.refl _ _ _
    | with_reducible exact Keeps.refl _ _
    | split
    | (with_reducible apply Keeps.step (Dev.homeDeassert_keeps ..); · decide)
    | with_reducible assumption
    | refine KeepsS.ofDev ?_
    | refine KeepsS.ofMem ?_
    | (refine ⟨fun p hp => ?_, fun hr => hr, fun _ => Grows.refl _⟩; cases p <;> first | exact absurd (by decide) hp | apply Eq.refl)
    | (dsimp only))

theorem execHomeMaxReached_keeps (m : Nat) (s : State) : KeepsX [.axs] false s (execHomeMaxReached m s) := by
  unfold execHomeMaxReached
  repeat' (first
    | with_reducible refine KeepsX.mainOnly ?_
    | with_reducible refine KeepsX.next ?_
    | with_reducible exact KeepsX.fault _ _ _ _
    | with_reducible exact KeepsS.refl _ _ _
    | with_reducible exact Keeps.refl _ _
    | split
    | (with_reducible apply Keeps.step (Dev.homeMax_keeps ..); · decide)
    | with_reducible assumption
    | refine KeepsS.ofDev ?_
    | refine KeepsS.ofMem ?_
    | (refine ⟨fun p hp => ?_, fun hr => hr, fun _ => Grows.refl _⟩; cases p <;> first | exact absurd (by decide) hp | apply Eq.refl)
    | (dsimp only))

theorem execStepperEnable_keeps (src : Source) (m : Nat) (v : W64) (s : State) : KeepsX [.rw, .shadow, .w1c] false s (execStepperEnable src m v s) := by
  unfold execStepperEnable
  repeat' (first
    | with_reducible refine KeepsX.mainOnly ?_
    | with_reducible refine KeepsX.next ?_
    | with_reducible exact KeepsX.fault _ _ _ _
    | with_reducible exact KeepsS.refl _ _ _
    | with_reducible exact Keeps.refl _ _
    | split
    | (with_reducible apply Keeps.step (Dev.writeAxCfg_keeps ..); · decide)
    | with_reducible assumption
    | refine KeepsS.ofDev ?_
    | refine KeepsS.ofMem ?_
    | (refine ⟨fun p hp => ?_, fun hr => hr, fun _ => Grows.refl _⟩; cases p <;> first | exact absurd (by decide) hp | apply Eq.refl)
    | (dsimp only))

theorem execStepperDisable_keeps (src : Source) (m : Nat) (v : W64) (s : State) : KeepsX [.rw, .shadow, .w1c] false s (execStepperDisable src m v s) := by
  unfold execStepperDisable
  repeat' (first
    | with_reducible refine KeepsX.mainOnly ?_
    | with_reducible refine KeepsX.next ?_
    | with_reducible exact KeepsX.fault _ _ _ _
    | with_reducible exact KeepsS.refl _ _ _
    | with_reducible exact Keeps.refl _ _
    | split
    | (with_reducible apply Keeps.step (Dev.writeAxCfg_keeps ..); · decide)
    | with_reducible assumption
    | refine KeepsS.ofDev ?_
    | refine KeepsS.ofMem ?_
    | (refine ⟨fun p hp => ?_, fun hr => hr, fun _ => Grows.refl _⟩; cases p <;> first | exact absurd (by decide) hp | apply Eq.refl)
    | (dsimp only))

theorem execLightSet_keeps (ring : Nat) (s : State) : KeepsX [.merge, .hst, .lgt] false s (execLightSet ring s) := by
  unfold execLightSet
  repeat' (first
    | with_reducible refine KeepsX.mainOnly ?_
    | with_reducible refine KeepsX.next ?_
    | with_reducible exact KeepsX.fault _ _ _ _
    | with_reducible exact KeepsS.refl _ _ _
    | with_reducible exact Keeps.refl _ _
    | split
    | (with_reducible apply Keeps.step (Dev.lightSet_keeps ..); · decide)
    | with_reducible assumption
    | refine KeepsS.ofDev ?_
    | refine KeepsS.ofMem ?_
    | (refine ⟨fun p hp => ?_, fun hr => hr, fun _ => Grows.refl _⟩; cases p <;> first | exact absurd (by decide) hp | apply Eq.refl)
    | (dsimp only))

theorem execLightLoad_keeps (ring : Nat) (rd : HostRead) (s : State) : KeepsX [.cnt, .merge, .out, .hst, .lgt, .log] false s (execLightLoad ring rd s) := by
  unfold execLightLoad
  repeat' (first
    | with_reducible refine KeepsX.mainOnly ?_
    | with_reducible refine KeepsX.next ?_
    | with_reducible exact KeepsX.fault _ _ _ _
    | with_reducible exact KeepsS.refl _ _ _
    | with_reducible exact Keeps.refl _ _
    | split
    | (with_reducible apply Keeps.step (Dev.lightLoad_keeps ..); · decide)
    | with_reducible assumption
    | refine KeepsS.ofDev ?_
    | refine KeepsS.ofMem ?_
    | (refine ⟨fun p hp => ?_, fun hr => hr, fun _ => Grows.refl _⟩; cases p <;> first | exact absurd (by decide) hp | apply Eq.refl)
    | (dsimp only))

theorem execLightGroupOff_keeps (ring : Nat) (s : State) : KeepsX [.merge, .hst, .lgt] false s (execLightGroupOff ring s) := by
  unfold execLightGroupOff
  repeat' (first
    | with_reducible refine KeepsX.mainOnly ?_
    | with_reducible refine KeepsX.next ?_
    | with_reducible exact KeepsX.fault _ _ _ _
    | with_reducible exact KeepsS.refl _ _ _
    | with_reducible exact Keeps.refl _ _
    | split
    | (with_reducible apply Keeps.step (Dev.lightGroupOff_keeps ..); · decide)
    | with_reducible assumption
    | refine KeepsS.ofDev ?_
    | refine KeepsS.ofMem ?_
    | (refine ⟨fun p hp => ?_, fun hr => hr, fun _ => Grows.refl _⟩; cases p <;> first | exact absurd (by decide) hp | apply Eq.refl)
    | (dsimp only))

theorem execLightFrame_keeps (tests : List SinkTest) (late : Bool) (s : State) : KeepsX [.w1c, .cnt, .merge, .lgt, .log] false s (execLightFrame tests late s) := by
  unfold execLightFrame
  repeat' (first
    | with_reducible refine KeepsX.mainOnly ?_
    | with_reducible refine KeepsX.next ?_
    | with_reducible exact KeepsX.fault _ _ _ _
    | with_reducible exact KeepsS.refl _ _ _
    | with_reducible exact Keeps.refl _ _
    | split
    | (with_reducible apply Keeps.step (Dev.lightFrame_keeps ..); · decide)
    | with_reducible assumption
    | refine KeepsS.ofDev ?_
    | refine KeepsS.ofMem ?_
    | (refine ⟨fun p hp => ?_, fun hr => hr, fun _ => Grows.refl _⟩; cases p <;> first | exact absurd (by decide) hp | apply Eq.refl)
    | (dsimp only))

theorem execBoostOutOfRange_keeps (beyond : Bool) (s : State) : KeepsX [.w1c, .merge, .log] false s (execBoostOutOfRange beyond s) := by
  unfold execBoostOutOfRange
  repeat' (first
    | with_reducible refine KeepsX.mainOnly ?_
    | with_reducible refine KeepsX.next ?_
    | with_reducible exact KeepsX.fault _ _ _ _
    | with_reducible exact KeepsS.refl _ _ _
    | with_reducible exact Keeps.refl _ _
    | split
    | (with_reducible apply Keeps.step (Dev.boostOut_keeps ..); · decide)
    | with_reducible assumption
    | refine KeepsS.ofDev ?_
    | refine KeepsS.ofMem ?_
    | (refine ⟨fun p hp => ?_, fun hr => hr, fun _ => Grows.refl _⟩; cases p <;> first | exact absurd (by decide) hp | apply Eq.refl)
    | (dsimp only))

theorem execBoostFaultClear_keeps (src : Source) (v : W64) (s : State) : KeepsX [.rw, .shadow, .w1c, .lgt] false s (execBoostFaultClear src v s) := by
  unfold execBoostFaultClear
  repeat' (first
    | with_reducible refine KeepsX.mainOnly ?_
    | with_reducible refine KeepsX.next ?_
    | with_reducible exact KeepsX.fault _ _ _ _
    | with_reducible exact KeepsS.refl _ _ _
    | with_reducible exact Keeps.refl _ _
    | split
    | (with_reducible apply Keeps.step (Dev.writeLgtStatus_keeps ..); · decide)
    | with_reducible assumption
    | refine KeepsS.ofDev ?_
    | refine KeepsS.ofMem ?_
    | (refine ⟨fun p hp => ?_, fun hr => hr, fun _ => Grows.refl _⟩; cases p <;> first | exact absurd (by decide) hp | apply Eq.refl)
    | (dsimp only))

theorem execNtcConversion_keeps (c : Nat) (r : Nat) (s : State) : KeepsX [.merge, .freeCount, .lgt, .log] false s (execNtcConversion c r s) := by
  unfold execNtcConversion
  repeat' (first
    | with_reducible refine KeepsX.mainOnly ?_
    | with_reducible refine KeepsX.next ?_
    | with_reducible exact KeepsX.fault _ _ _ _
    | with_reducible exact KeepsS.refl _ _ _
    | with_reducible exact Keeps.refl _ _
    | split
    | (with_reducible apply Keeps.step (Dev.ntcConversion_keeps ..); · decide)
    | with_reducible assumption
    | refine KeepsS.ofDev ?_
    | refine KeepsS.ofMem ?_
    | (refine ⟨fun p hp => ?_, fun hr => hr, fun _ => Grows.refl _⟩; cases p <;> first | exact absurd (by decide) hp | apply Eq.refl)
    | (dsimp only))

theorem execLightingEnable_keeps (src : Source) (v : W64) (s : State) : KeepsX [.rw, .shadow, .w1c] false s (execLightingEnable src v s) := by
  unfold execLightingEnable
  repeat' (first
    | with_reducible refine KeepsX.mainOnly ?_
    | with_reducible refine KeepsX.next ?_
    | with_reducible exact KeepsX.fault _ _ _ _
    | with_reducible exact KeepsS.refl _ _ _
    | with_reducible exact Keeps.refl _ _
    | split
    | (with_reducible apply Keeps.step (Dev.writeLgtCtl_keeps ..); · decide)
    | with_reducible assumption
    | refine KeepsS.ofDev ?_
    | refine KeepsS.ofMem ?_
    | (refine ⟨fun p hp => ?_, fun hr => hr, fun _ => Grows.refl _⟩; cases p <;> first | exact absurd (by decide) hp | apply Eq.refl)
    | (dsimp only))

theorem execLightingDisable_keeps (src : Source) (v : W64) (s : State) : KeepsX [.rw, .shadow, .w1c] false s (execLightingDisable src v s) := by
  unfold execLightingDisable
  repeat' (first
    | with_reducible refine KeepsX.mainOnly ?_
    | with_reducible refine KeepsX.next ?_
    | with_reducible exact KeepsX.fault _ _ _ _
    | with_reducible exact KeepsS.refl _ _ _
    | with_reducible exact Keeps.refl _ _
    | split
    | (with_reducible apply Keeps.step (Dev.writeLgtCtl_keeps ..); · decide)
    | with_reducible assumption
    | refine KeepsS.ofDev ?_
    | refine KeepsS.ofMem ?_
    | (refine ⟨fun p hp => ?_, fun hr => hr, fun _ => Grows.refl _⟩; cases p <;> first | exact absurd (by decide) hp | apply Eq.refl)
    | (dsimp only))

theorem execLightClear_keeps (src : Source) (i : Nat) (v : W64) (s : State) : KeepsX [.rw, .shadow, .w1c, .lgt] false s (execLightClear src idx v s) := by
  unfold execLightClear
  repeat' (first
    | with_reducible refine KeepsX.mainOnly ?_
    | with_reducible refine KeepsX.next ?_
    | with_reducible exact KeepsX.fault _ _ _ _
    | with_reducible exact KeepsS.refl _ _ _
    | with_reducible exact Keeps.refl _ _
    | split
    | (with_reducible apply Keeps.step (Dev.writeLgtCh_keeps ..); · decide)
    | with_reducible assumption
    | refine KeepsS.ofDev ?_
    | refine KeepsS.ofMem ?_
    | (refine ⟨fun p hp => ?_, fun hr => hr, fun _ => Grows.refl _⟩; cases p <;> first | exact absurd (by decide) hp | apply Eq.refl)
    | (dsimp only))

theorem execThermalSample_keeps (sn : Nat) (reading : Option Int) (s : State) : KeepsX [.rw, .rwAct, .shadow, .shadowAt, .effect, .srvNext, .w1c, .cnt, .rol, .rolBeat, .merge, .taken, .freeCount, .hst, .lnk, .crs, .msn, .pth, .lsr, .mpm, .srv, .safe, .cam, .cdc, .dma, .memc, .tmb, .axs, .lgt, .thm, .cal, .pwr, .log, .exporting] false s (execThermalSample sn reading s) := by
  unfold execThermalSample
  repeat' (first
    | with_reducible refine KeepsX.mainOnly ?_
    | with_reducible refine KeepsX.next ?_
    | with_reducible exact KeepsX.fault _ _ _ _
    | with_reducible exact KeepsS.refl _ _ _
    | with_reducible exact Keeps.refl _ _
    | split
    | (with_reducible apply Keeps.step (Dev.thermalSample_keeps ..); · decide)
    | with_reducible assumption
    | refine KeepsS.ofDev ?_
    | refine KeepsS.ofMem ?_
    | (refine ⟨fun p hp => ?_, fun hr => hr, fun _ => Grows.refl _⟩; cases p <;> first | exact absurd (by decide) hp | apply Eq.refl)
    | (dsimp only))

theorem execGraceExpiry_keeps (sn : Nat) (s : State) : KeepsX [.merge, .thm, .log] false s (execGraceExpiry sn s) := by
  unfold execGraceExpiry
  repeat' (first
    | with_reducible refine KeepsX.mainOnly ?_
    | with_reducible refine KeepsX.next ?_
    | with_reducible exact KeepsX.fault _ _ _ _
    | with_reducible exact KeepsS.refl _ _ _
    | with_reducible exact Keeps.refl _ _
    | split
    | (with_reducible apply Keeps.step (Dev.enforce_keeps ..); · decide)
    | with_reducible assumption
    | refine KeepsS.ofDev ?_
    | refine KeepsS.ofMem ?_
    | (refine ⟨fun p hp => ?_, fun hr => hr, fun _ => Grows.refl _⟩; cases p <;> first | exact absurd (by decide) hp | apply Eq.refl)
    | (dsimp only))

theorem execCalRun_keeps (ring : Nat) (table : HostRead) (s : State) : KeepsX [.cnt, .merge, .out, .hst, .cal, .log] false s (execCalRun ring table s) := by
  unfold execCalRun
  repeat' (first
    | with_reducible refine KeepsX.mainOnly ?_
    | with_reducible refine KeepsX.next ?_
    | with_reducible exact KeepsX.fault _ _ _ _
    | with_reducible exact KeepsS.refl _ _ _
    | with_reducible exact Keeps.refl _ _
    | split
    | (with_reducible apply Keeps.step (Dev.calRun_keeps ..); · decide)
    | with_reducible assumption
    | refine KeepsS.ofDev ?_
    | refine KeepsS.ofMem ?_
    | (refine ⟨fun p hp => ?_, fun hr => hr, fun _ => Grows.refl _⟩; cases p <;> first | exact absurd (by decide) hp | apply Eq.refl)
    | (dsimp only))

theorem execCalMeasurementStart_keeps (s : State) : KeepsX [.mpm, .cal] false s (execCalMeasurementStart s) := by
  unfold execCalMeasurementStart
  repeat' (first
    | with_reducible refine KeepsX.mainOnly ?_
    | with_reducible refine KeepsX.next ?_
    | with_reducible exact KeepsX.fault _ _ _ _
    | with_reducible exact KeepsS.refl _ _ _
    | with_reducible exact Keeps.refl _ _
    | split
    | (with_reducible apply Keeps.step (Dev.calStart_keeps ..); · decide)
    | with_reducible assumption
    | refine KeepsS.ofDev ?_
    | refine KeepsS.ofMem ?_
    | (refine ⟨fun p hp => ?_, fun hr => hr, fun _ => Grows.refl _⟩; cases p <;> first | exact absurd (by decide) hp | apply Eq.refl)
    | (dsimp only))

theorem execCalRunComplete_keeps (run1 : List CalPoint) (run2 : List CalPoint) (s : State) : KeepsX [.rw, .shadow, .w1c, .merge, .out, .hst, .lnk, .pth, .mpm, .cal, .log] false s (execCalRunComplete run1 run2 s) := by
  unfold execCalRunComplete
  repeat' (first
    | with_reducible refine KeepsX.mainOnly ?_
    | with_reducible refine KeepsX.next ?_
    | with_reducible exact KeepsX.fault _ _ _ _
    | with_reducible exact KeepsS.refl _ _ _
    | with_reducible exact Keeps.refl _ _
    | split
    | (with_reducible apply Keeps.step (Dev.calComplete_keeps ..); · decide)
    | with_reducible assumption
    | refine KeepsS.ofDev ?_
    | refine KeepsS.ofMem ?_
    | (refine ⟨fun p hp => ?_, fun hr => hr, fun _ => Grows.refl _⟩; cases p <;> first | exact absurd (by decide) hp | apply Eq.refl)
    | (dsimp only))

theorem execCalRecall_keeps (ring : Nat) (s : State) : KeepsX [.rw, .shadow, .w1c, .merge, .out, .hst, .lnk, .pth] false s (execCalRecall ring s) := by
  unfold execCalRecall
  repeat' (first
    | with_reducible refine KeepsX.mainOnly ?_
    | with_reducible refine KeepsX.next ?_
    | with_reducible exact KeepsX.fault _ _ _ _
    | with_reducible exact KeepsS.refl _ _ _
    | with_reducible exact Keeps.refl _ _
    | split
    | (with_reducible apply Keeps.step (Dev.calRecall_keeps ..); · decide)
    | with_reducible assumption
    | refine KeepsS.ofDev ?_
    | refine KeepsS.ofMem ?_
    | (refine ⟨fun p hp => ?_, fun hr => hr, fun _ => Grows.refl _⟩; cases p <;> first | exact absurd (by decide) hp | apply Eq.refl)
    | (dsimp only))

theorem execPmpIdent_keeps (h : PmpHdr) (s : State) : KeepsX [.out, .replies] false s (execPmpIdent h s) := by
  unfold execPmpIdent
  repeat' (first
    | with_reducible refine KeepsX.mainOnly ?_
    | with_reducible refine KeepsX.next ?_
    | with_reducible exact KeepsX.fault _ _ _ _
    | with_reducible exact KeepsS.refl _ _ _
    | with_reducible exact Keeps.refl _ _
    | split
    | (with_reducible apply Keeps.step (Dev.pmpIdent_keeps ..); · decide)
    | with_reducible refine Dev.pmp_keeps (by decide) (fun _ h => ?_) ?_
    | with_reducible assumption
    | refine KeepsS.ofDev ?_
    | refine KeepsS.ofMem ?_
    | (refine ⟨fun p hp => ?_, fun hr => hr, fun _ => Grows.refl _⟩; cases p <;> first | exact absurd (by decide) hp | apply Eq.refl)
    | (dsimp only))

theorem execRegRead_keeps (h : PmpHdr) (off : Nat) (s : State) : KeepsX [.rw, .shadow, .w1c, .cnt, .merge, .out, .freeCount, .hst, .lnk, .lsr, .srv, .safe, .cam, .tmb, .lgt, .thm, .log, .latches, .replies] false s (execRegRead h off s) := by
  unfold execRegRead
  repeat' (first
    | with_reducible refine KeepsX.mainOnly ?_
    | with_reducible refine KeepsX.next ?_
    | with_reducible exact KeepsX.fault _ _ _ _
    | with_reducible exact KeepsS.refl _ _ _
    | with_reducible exact Keeps.refl _ _
    | split
    | (with_reducible apply Keeps.step (Dev.pmpReg_keeps ..); · decide)
    | with_reducible refine Dev.pmp_keeps (by decide) (fun _ h => ?_) ?_
    | with_reducible assumption
    | refine KeepsS.ofDev ?_
    | refine KeepsS.ofMem ?_
    | (refine ⟨fun p hp => ?_, fun hr => hr, fun _ => Grows.refl _⟩; cases p <;> first | exact absurd (by decide) hp | apply Eq.refl)
    | (dsimp only))

theorem execRegWrite_keeps (h : PmpHdr) (off : Nat) (v : W32) (s : State) : KeepsX [.rw, .shadow, .w1c, .cnt, .merge, .out, .freeCount, .hst, .lnk, .lsr, .srv, .safe, .cam, .tmb, .lgt, .thm, .log, .latches, .replies] false s (execRegWrite h off v s) := by
  unfold execRegWrite
  repeat' (first
    | with_reducible refine KeepsX.mainOnly ?_
    | with_reducible refine KeepsX.next ?_
    | with_reducible exact KeepsX.fault _ _ _ _
    | with_reducible exact KeepsS.refl _ _ _
    | with_reducible exact Keeps.refl _ _
    | split
    | (with_reducible apply Keeps.step (Dev.pmpReg_keeps ..); · decide)
    | with_reducible refine Dev.pmp_keeps (by decide) (fun _ h => ?_) ?_
    | with_reducible assumption
    | refine KeepsS.ofDev ?_
    | refine KeepsS.ofMem ?_
    | (refine ⟨fun p hp => ?_, fun hr => hr, fun _ => Grows.refl _⟩; cases p <;> first | exact absurd (by decide) hp | apply Eq.refl)
    | (dsimp only))

theorem execLogRead_keeps (h : PmpHdr) (first : W32) (count : Nat) (s : State) : KeepsX [.out, .replies] false s (execLogRead h first count s) := by
  unfold execLogRead
  repeat' (first
    | with_reducible refine KeepsX.mainOnly ?_
    | with_reducible refine KeepsX.next ?_
    | with_reducible exact KeepsX.fault _ _ _ _
    | with_reducible exact KeepsS.refl _ _ _
    | with_reducible exact Keeps.refl _ _
    | split
    | (with_reducible apply Keeps.step (Dev.logRead_keeps ..); · decide)
    | with_reducible refine Dev.pmp_keeps (by decide) (fun _ h => ?_) ?_
    | with_reducible assumption
    | refine KeepsS.ofDev ?_
    | refine KeepsS.ofMem ?_
    | (refine ⟨fun p hp => ?_, fun hr => hr, fun _ => Grows.refl _⟩; cases p <;> first | exact absurd (by decide) hp | apply Eq.refl)
    | (dsimp only))

theorem execImgBegin_keeps (h : PmpHdr) (slot : Nat) (len : Nat) (sha : BitVec 384) (flashOk : Bool) (s : State) : KeepsX [.out, .replies, .slots] false s (execImgBegin h slot len sha flashOk s) := by
  unfold execImgBegin
  repeat' (first
    | with_reducible refine KeepsX.mainOnly ?_
    | with_reducible refine KeepsX.next ?_
    | with_reducible exact KeepsX.fault _ _ _ _
    | with_reducible exact KeepsS.refl _ _ _
    | with_reducible exact Keeps.refl _ _
    | split
    | (with_reducible apply Keeps.step (Dev.imgBegin_keeps ..); · decide)
    | with_reducible refine Dev.pmp_keeps (by decide) (fun _ h => ?_) ?_
    | with_reducible assumption
    | refine KeepsS.ofDev ?_
    | refine KeepsS.ofMem ?_
    | (refine ⟨fun p hp => ?_, fun hr => hr, fun _ => Grows.refl _⟩; cases p <;> first | exact absurd (by decide) hp | apply Eq.refl)
    | (dsimp only))

theorem execImgPiece_keeps (h : PmpHdr) (slot : Nat) (idx : Nat) (crc : W32) (data : List Byte) (flashOk : Bool) (s : State) : KeepsX [.merge, .out, .log, .replies, .slots] false s (execImgPiece h slot idx crc data flashOk s) := by
  unfold execImgPiece
  repeat' (first
    | with_reducible refine KeepsX.mainOnly ?_
    | with_reducible refine KeepsX.next ?_
    | with_reducible exact KeepsX.fault _ _ _ _
    | with_reducible exact KeepsS.refl _ _ _
    | with_reducible exact Keeps.refl _ _
    | split
    | (with_reducible apply Keeps.step (Dev.imgPiece_keeps ..); · decide)
    | with_reducible refine Dev.pmp_keeps (by decide) (fun _ h => ?_) ?_
    | with_reducible assumption
    | refine KeepsS.ofDev ?_
    | refine KeepsS.ofMem ?_
    | (refine ⟨fun p hp => ?_, fun hr => hr, fun _ => Grows.refl _⟩; cases p <;> first | exact absurd (by decide) hp | apply Eq.refl)
    | (dsimp only))

theorem execImgStatus_keeps (h : PmpHdr) (slot : Nat) (s : State) : KeepsX [.out, .replies] false s (execImgStatus h slot s) := by
  unfold execImgStatus
  repeat' (first
    | with_reducible refine KeepsX.mainOnly ?_
    | with_reducible refine KeepsX.next ?_
    | with_reducible exact KeepsX.fault _ _ _ _
    | with_reducible exact KeepsS.refl _ _ _
    | with_reducible exact Keeps.refl _ _
    | split
    | (with_reducible apply Keeps.step (Dev.imgStatus_keeps ..); · decide)
    | with_reducible refine Dev.pmp_keeps (by decide) (fun _ h => ?_) ?_
    | with_reducible assumption
    | refine KeepsS.ofDev ?_
    | refine KeepsS.ofMem ?_
    | (refine ⟨fun p hp => ?_, fun hr => hr, fun _ => Grows.refl _⟩; cases p <;> first | exact absurd (by decide) hp | apply Eq.refl)
    | (dsimp only))

theorem execImgActivate_keeps (h : PmpHdr) (slot : Nat) (s : State) : KeepsX [.out, .replies, .act] false s (execImgActivate h slot s) := by
  unfold execImgActivate
  repeat' (first
    | with_reducible refine KeepsX.mainOnly ?_
    | with_reducible refine KeepsX.next ?_
    | with_reducible exact KeepsX.fault _ _ _ _
    | with_reducible exact KeepsS.refl _ _ _
    | with_reducible exact Keeps.refl _ _
    | split
    | (with_reducible apply Keeps.step (Dev.imgActivate_keeps ..); · decide)
    | with_reducible refine Dev.pmp_keeps (by decide) (fun _ h => ?_) ?_
    | with_reducible assumption
    | refine KeepsS.ofDev ?_
    | refine KeepsS.ofMem ?_
    | (refine ⟨fun p hp => ?_, fun hr => hr, fun _ => Grows.refl _⟩; cases p <;> first | exact absurd (by decide) hp | apply Eq.refl)
    | (dsimp only))

theorem execFwHandover_keeps (s : State) : KeepsX [.merge, .log, .slots, .boot, .act, .settings] false s (execFwHandover s) := by
  unfold execFwHandover
  repeat' (first
    | with_reducible refine KeepsX.mainOnly ?_
    | with_reducible refine KeepsX.next ?_
    | with_reducible exact KeepsX.fault _ _ _ _
    | with_reducible exact KeepsS.refl _ _ _
    | with_reducible exact Keeps.refl _ _
    | split
    | (with_reducible apply Keeps.step (Dev.fwHandover_keeps ..); · decide)
    | with_reducible assumption
    | refine KeepsS.ofDev ?_
    | refine KeepsS.ofMem ?_
    | (refine ⟨fun p hp => ?_, fun hr => hr, fun _ => Grows.refl _⟩; cases p <;> first | exact absurd (by decide) hp | apply Eq.refl)
    | (dsimp only))

theorem execActivateTimeout_keeps (s : State) : KeepsX [.merge, .log, .act] false s (execActivateTimeout s) := by
  unfold execActivateTimeout
  repeat' (first
    | with_reducible refine KeepsX.mainOnly ?_
    | with_reducible refine KeepsX.next ?_
    | with_reducible exact KeepsX.fault _ _ _ _
    | with_reducible exact KeepsS.refl _ _ _
    | with_reducible exact Keeps.refl _ _
    | split
    | (with_reducible apply Keeps.step (Dev.activateTimeout_keeps ..); · decide)
    | with_reducible assumption
    | refine KeepsS.ofDev ?_
    | refine KeepsS.ofMem ?_
    | (refine ⟨fun p hp => ?_, fun hr => hr, fun _ => Grows.refl _⟩; cases p <;> first | exact absurd (by decide) hp | apply Eq.refl)
    | (dsimp only))

theorem execImgConfirm_keeps (h : PmpHdr) (flashOk : Bool) (s : State) : KeepsX [.out, .replies, .slots, .boot, .settings] false s (execImgConfirm h flashOk s) := by
  unfold execImgConfirm
  repeat' (first
    | with_reducible refine KeepsX.mainOnly ?_
    | with_reducible refine KeepsX.next ?_
    | with_reducible exact KeepsX.fault _ _ _ _
    | with_reducible exact KeepsS.refl _ _ _
    | with_reducible exact Keeps.refl _ _
    | split
    | (with_reducible apply Keeps.step (Dev.imgConfirm_keeps ..); · decide)
    | with_reducible refine Dev.pmp_keeps (by decide) (fun _ h => ?_) ?_
    | with_reducible assumption
    | refine KeepsS.ofDev ?_
    | refine KeepsS.ofMem ?_
    | (refine ⟨fun p hp => ?_, fun hr => hr, fun _ => Grows.refl _⟩; cases p <;> first | exact absurd (by decide) hp | apply Eq.refl)
    | (dsimp only))

theorem execImgRevert_keeps (h : PmpHdr) (flashOk : Bool) (s : State) : KeepsX [.out, .replies, .act] false s (execImgRevert h flashOk s) := by
  unfold execImgRevert
  repeat' (first
    | with_reducible refine KeepsX.mainOnly ?_
    | with_reducible refine KeepsX.next ?_
    | with_reducible exact KeepsX.fault _ _ _ _
    | with_reducible exact KeepsS.refl _ _ _
    | with_reducible exact Keeps.refl _ _
    | split
    | (with_reducible apply Keeps.step (Dev.imgRevert_keeps ..); · decide)
    | with_reducible refine Dev.pmp_keeps (by decide) (fun _ h => ?_) ?_
    | with_reducible assumption
    | refine KeepsS.ofDev ?_
    | refine KeepsS.ofMem ?_
    | (refine ⟨fun p hp => ?_, fun hr => hr, fun _ => Grows.refl _⟩; cases p <;> first | exact absurd (by decide) hp | apply Eq.refl)
    | (dsimp only))

theorem execPmpReset_keeps (h : PmpHdr) (k : W16) (s : State) : KeepsX [.out, .replies, .resetReq] false s (execPmpReset h k s) := by
  unfold execPmpReset
  repeat' (first
    | with_reducible refine KeepsX.mainOnly ?_
    | with_reducible refine KeepsX.next ?_
    | with_reducible exact KeepsX.fault _ _ _ _
    | with_reducible exact KeepsS.refl _ _ _
    | with_reducible exact Keeps.refl _ _
    | split
    | (with_reducible apply Keeps.step (Dev.answerPmp_keeps ..); · decide)
    | with_reducible refine Dev.pmp_keeps (by decide) (fun _ h => ?_) ?_
    | with_reducible assumption
    | refine KeepsS.ofDev ?_
    | refine KeepsS.ofMem ?_
    | (refine ⟨fun p hp => ?_, fun hr => hr, fun _ => Grows.refl _⟩; cases p <;> first | exact absurd (by decide) hp | apply Eq.refl)
    | (with_reducible apply Keeps.step (keeps_resetAt ..); · decide)
    | (dsimp only))

theorem execExport_keeps (h : PmpHdr) (addr : Nat) (len : Nat) (port : Nat) (dst : BitVec 128) (udp : W16) (s : State) : KeepsX [.out, .freeCount, .replies, .exporting] false s (execExport h addr len port dst udp s) := by
  unfold execExport
  repeat' (first
    | with_reducible refine KeepsX.mainOnly ?_
    | with_reducible refine KeepsX.next ?_
    | with_reducible exact KeepsX.fault _ _ _ _
    | with_reducible exact KeepsS.refl _ _ _
    | with_reducible exact Keeps.refl _ _
    | split
    | (with_reducible apply Keeps.step (Dev.exportStart_keeps ..); · decide)
    | with_reducible refine Dev.pmp_keeps (by decide) (fun _ h => ?_) ?_
    | with_reducible assumption
    | refine KeepsS.ofDev ?_
    | refine KeepsS.ofMem ?_
    | (refine ⟨fun p hp => ?_, fun hr => hr, fun _ => Grows.refl _⟩; cases p <;> first | exact absurd (by decide) hp | apply Eq.refl)
    | (dsimp only))

theorem execExportComplete_keeps (s : State) : KeepsX [.out, .replies, .exporting] false s (execExportComplete s) := by
  unfold execExportComplete
  repeat' (first
    | with_reducible refine KeepsX.mainOnly ?_
    | with_reducible refine KeepsX.next ?_
    | with_reducible exact KeepsX.fault _ _ _ _
    | with_reducible exact KeepsS.refl _ _ _
    | with_reducible exact Keeps.refl _ _
    | split
    | (with_reducible apply Keeps.step (Dev.exportDone_keeps ..); · decide)
    | with_reducible assumption
    | refine KeepsS.ofDev ?_
    | refine KeepsS.ofMem ?_
    | (refine ⟨fun p hp => ?_, fun hr => hr, fun _ => Grows.refl _⟩; cases p <;> first | exact absurd (by decide) hp | apply Eq.refl)
    | (dsimp only))

theorem execConfigGet_keeps (h : PmpHdr) (s : State) : KeepsX [.out, .replies] false s (execConfigGet h s) := by
  unfold execConfigGet
  repeat' (first
    | with_reducible refine KeepsX.mainOnly ?_
    | with_reducible refine KeepsX.next ?_
    | with_reducible exact KeepsX.fault _ _ _ _
    | with_reducible exact KeepsS.refl _ _ _
    | with_reducible exact Keeps.refl _ _
    | split
    | (with_reducible apply Keeps.step (Dev.configGet_keeps ..); · decide)
    | with_reducible refine Dev.pmp_keeps (by decide) (fun _ h => ?_) ?_
    | with_reducible assumption
    | refine KeepsS.ofDev ?_
    | refine KeepsS.ofMem ?_
    | (refine ⟨fun p hp => ?_, fun hr => hr, fun _ => Grows.refl _⟩; cases p <;> first | exact absurd (by decide) hp | apply Eq.refl)
    | (dsimp only))

theorem execConfigSet_keeps (h : PmpHdr) (settings : List Byte) (flashOk : Bool) (s : State) : KeepsX [.out, .replies, .settings] false s (execConfigSet h settings flashOk s) := by
  unfold execConfigSet
  repeat' (first
    | with_reducible refine KeepsX.mainOnly ?_
    | with_reducible refine KeepsX.next ?_
    | with_reducible exact KeepsX.fault _ _ _ _
    | with_reducible exact KeepsS.refl _ _ _
    | with_reducible exact Keeps.refl _ _
    | split
    | (with_reducible apply Keeps.step (Dev.configSet_keeps ..); · decide)
    | with_reducible refine Dev.pmp_keeps (by decide) (fun _ h => ?_) ?_
    | with_reducible assumption
    | refine KeepsS.ofDev ?_
    | refine KeepsS.ofMem ?_
    | (refine ⟨fun p hp => ?_, fun hr => hr, fun _ => Grows.refl _⟩; cases p <;> first | exact absurd (by decide) hp | apply Eq.refl)
    | (dsimp only))

theorem execSmbStatus_keeps (s : State) : KeepsX [.out] false s (execSmbStatus s) := by
  unfold execSmbStatus
  repeat' (first
    | with_reducible refine KeepsX.mainOnly ?_
    | with_reducible refine KeepsX.next ?_
    | with_reducible exact KeepsX.fault _ _ _ _
    | with_reducible exact KeepsS.refl _ _ _
    | with_reducible exact Keeps.refl _ _
    | split
    | (with_reducible apply Keeps.step (Dev.smbAnswer_keeps ..); · decide)
    | with_reducible assumption
    | refine KeepsS.ofDev ?_
    | refine KeepsS.ofMem ?_
    | (refine ⟨fun p hp => ?_, fun hr => hr, fun _ => Grows.refl _⟩; cases p <;> first | exact absurd (by decide) hp | apply Eq.refl)
    | (dsimp only))

theorem execSmbIdent_keeps (s : State) : KeepsX [.out] false s (execSmbIdent s) := by
  unfold execSmbIdent
  repeat' (first
    | with_reducible refine KeepsX.mainOnly ?_
    | with_reducible refine KeepsX.next ?_
    | with_reducible exact KeepsX.fault _ _ _ _
    | with_reducible exact KeepsS.refl _ _ _
    | with_reducible exact Keeps.refl _ _
    | split
    | (with_reducible apply Keeps.step (Dev.smbAnswer_keeps ..); · decide)
    | with_reducible assumption
    | refine KeepsS.ofDev ?_
    | refine KeepsS.ofMem ?_
    | (refine ⟨fun p hp => ?_, fun hr => hr, fun _ => Grows.refl _⟩; cases p <;> first | exact absurd (by decide) hp | apply Eq.refl)
    | (dsimp only))

theorem execSmbTemp_keeps (s : State) : KeepsX [.out] false s (execSmbTemp s) := by
  unfold execSmbTemp
  repeat' (first
    | with_reducible refine KeepsX.mainOnly ?_
    | with_reducible refine KeepsX.next ?_
    | with_reducible exact KeepsX.fault _ _ _ _
    | with_reducible exact KeepsS.refl _ _ _
    | with_reducible exact Keeps.refl _ _
    | split
    | (with_reducible apply Keeps.step (Dev.smbAnswer_keeps ..); · decide)
    | with_reducible assumption
    | refine KeepsS.ofDev ?_
    | refine KeepsS.ofMem ?_
    | (refine ⟨fun p hp => ?_, fun hr => hr, fun _ => Grows.refl _⟩; cases p <;> first | exact absurd (by decide) hp | apply Eq.refl)
    | (dsimp only))

theorem execSmbReset_keeps (v : Byte) (s : State) : KeepsX [.rw, .rwAct, .shadow, .shadowAt, .effect, .srvNext, .w1c, .cnt, .rol, .rolBeat, .merge, .taken, .hst, .lnk, .crs, .msn, .pth, .lsr, .mpm, .srv, .safe, .cam, .cdc, .dma, .memc, .tmb, .axs, .lgt, .thm, .cal, .pwr, .log, .latches, .replies, .exporting, .slots, .boot, .act, .settings, .resetReq] true s (execSmbReset v s) := by
  unfold execSmbReset
  refine KeepsX.next ?_
  split
  · exact ⟨Keeps.step (Dev.fullReset_keeps ..) (by decide) (Keeps.refl _ _), (nomatch ·), rfl⟩
  · exact KeepsS.refl _ _ _

theorem execSmbCause_keeps (s : State) : KeepsX [.out] false s (execSmbCause s) := by
  unfold execSmbCause
  repeat' (first
    | with_reducible refine KeepsX.mainOnly ?_
    | with_reducible refine KeepsX.next ?_
    | with_reducible exact KeepsX.fault _ _ _ _
    | with_reducible exact KeepsS.refl _ _ _
    | with_reducible exact Keeps.refl _ _
    | split
    | (with_reducible apply Keeps.step (Dev.smbAnswer_keeps ..); · decide)
    | with_reducible assumption
    | refine KeepsS.ofDev ?_
    | refine KeepsS.ofMem ?_
    | (refine ⟨fun p hp => ?_, fun hr => hr, fun _ => Grows.refl _⟩; cases p <;> first | exact absurd (by decide) hp | apply Eq.refl)
    | (dsimp only))

theorem execFullDeviceReset_keeps (cause : ResetCause) (s : State) : KeepsX [.rw, .rwAct, .shadow, .shadowAt, .effect, .srvNext, .w1c, .cnt, .rol, .rolBeat, .merge, .taken, .hst, .lnk, .crs, .msn, .pth, .lsr, .mpm, .srv, .safe, .cam, .cdc, .dma, .memc, .tmb, .axs, .lgt, .thm, .cal, .pwr, .log, .latches, .replies, .exporting, .slots, .boot, .act, .settings, .resetReq] true s (execFullDeviceReset cause s) := by
  unfold execFullDeviceReset
  dsimp only
  refine KeepsX.next ?_
  repeat' split
  all_goals first
    | exact KeepsS.refl _ _ _
    | exact ⟨Keeps.step (Dev.fullReset_keeps ..) (by decide) (Keeps.refl _ _), (nomatch ·), rfl⟩

theorem execResetNLow_keeps (ns : Nat) (s : State) : KeepsX [.rw, .rwAct, .shadow, .shadowAt, .effect, .srvNext, .w1c, .cnt, .rol, .rolBeat, .merge, .taken, .freeCount, .hst, .lnk, .crs, .msn, .pth, .lsr, .mpm, .srv, .safe, .cam, .cdc, .dma, .memc, .tmb, .axs, .lgt, .thm, .cal, .pwr, .log, .latches, .replies, .exporting, .slots, .boot, .act, .settings, .resetReq] true s (execResetNLow ns s) := by
  unfold execResetNLow
  have hf : ∀ d : Dev, Keeps [.pwr] d ({ d with pwr.resetN := false }) := fun d => keeps_pwr d _
  have h2 := Dev.free_keeps s.dev
  dsimp only
  refine KeepsX.next ?_
  repeat' split
  all_goals first
    | exact ⟨Keeps.step (Dev.fullReset_keeps ..) (by decide) (Keeps.step (hf _) (by decide) (Keeps.refl _ _)), (nomatch ·), rfl⟩
    | exact ⟨Keeps.step (Dev.fullReset_keeps ..) (by decide) (Keeps.step (hf _) (by decide) (Keeps.step h2 (by decide)
        (Keeps.refl _ _))), (nomatch ·), rfl⟩
    | exact ⟨Keeps.step h2 (by decide) (Keeps.refl _ _), fun _ => rfl, rfl⟩
    | exact KeepsS.refl _ _ _

theorem execResetSequenceComplete_keeps (s : State) : KeepsX [.safe, .pwr] false s (execResetSequenceComplete s) := by
  unfold execResetSequenceComplete
  repeat' (first
    | with_reducible refine KeepsX.mainOnly ?_
    | with_reducible refine KeepsX.next ?_
    | with_reducible exact KeepsX.fault _ _ _ _
    | with_reducible exact KeepsS.refl _ _ _
    | with_reducible exact Keeps.refl _ _
    | split
    | (with_reducible apply Keeps.step (Dev.sequenceDone_keeps ..); · decide)
    | with_reducible assumption
    | refine KeepsS.ofDev ?_
    | refine KeepsS.ofMem ?_
    | (refine ⟨fun p hp => ?_, fun hr => hr, fun _ => Grows.refl _⟩; cases p <;> first | exact absurd (by decide) hp | apply Eq.refl)
    | (dsimp only))

theorem execStandbyPowerGood_keeps (straps : BitVec 5) (s : State) : KeepsX [.rw, .rwAct, .shadow, .shadowAt, .effect, .srvNext, .w1c, .cnt, .rol, .rolBeat, .merge, .taken, .hst, .lnk, .crs, .msn, .pth, .lsr, .mpm, .srv, .safe, .cam, .cdc, .dma, .memc, .tmb, .axs, .lgt, .thm, .cal, .pwr, .log, .latches, .replies, .exporting, .slots, .boot, .act, .settings, .resetReq] true s (execStandbyPowerGood straps s) := by
  unfold execStandbyPowerGood
  refine KeepsX.next ?_
  split
  · exact KeepsS.refl _ _ _
  · exact KeepsS.ofMem (Keeps.step (Dev.fullReset_keeps ..) (by decide) (Keeps.step (Dev.standbyGood_keeps ..) (by decide) (Keeps.refl _ _)))

theorem execStandbyPowerLoss_keeps (s : State) : KeepsX [.rw, .rwAct, .shadow, .shadowAt, .effect, .srvNext, .w1c, .cnt, .rol, .rolBeat, .merge, .taken, .hst, .lnk, .crs, .msn, .pth, .lsr, .mpm, .srv, .safe, .cam, .cdc, .dma, .memc, .tmb, .axs, .lgt, .thm, .cal, .pwr, .log, .latches, .replies, .exporting, .boot, .act, .settings, .resetReq] true s (execStandbyPowerLoss s) := by
  unfold execStandbyPowerLoss
  repeat' (first
    | with_reducible refine KeepsX.mainOnly ?_
    | with_reducible refine KeepsX.next ?_
    | with_reducible exact KeepsX.fault _ _ _ _
    | with_reducible exact KeepsS.refl _ _ _
    | with_reducible exact Keeps.refl _ _
    | split
    | (with_reducible apply Keeps.step (Dev.standbyLost_keeps ..); · decide)
    | with_reducible assumption
    | refine KeepsS.ofDev ?_
    | refine KeepsS.ofMem ?_
    | (refine ⟨fun p hp => ?_, fun hr => hr, fun _ => Grows.refl _⟩; cases p <;> first | exact absurd (by decide) hp | apply Eq.refl)
    | (dsimp only))

theorem execMainPgRise_keeps (s : State) : KeepsX [.rw, .rwAct, .shadow, .shadowAt, .effect, .srvNext, .w1c, .cnt, .rol, .rolBeat, .merge, .taken, .hst, .lnk, .crs, .msn, .pth, .lsr, .mpm, .srv, .safe, .cam, .cdc, .dma, .memc, .tmb, .axs, .lgt, .thm, .cal, .pwr, .log, .latches, .replies, .exporting, .slots, .boot, .act, .settings, .resetReq] true s (execMainPgRise s) := by
  unfold execMainPgRise
  refine KeepsX.next ?_
  split
  · exact ⟨Keeps.step (Dev.fullReset_keeps ..) (by decide) (Keeps.step (keeps_pwr s.dev _) (by decide) (Keeps.refl _ _)), (nomatch ·), rfl⟩
  · exact KeepsS.refl _ _ _

theorem execMainPgFall_keeps (s : State) : KeepsX [.rw, .rwAct, .shadow, .shadowAt, .effect, .srvNext, .w1c, .cnt, .rol, .rolBeat, .merge, .taken, .hst, .lnk, .crs, .msn, .pth, .lsr, .mpm, .srv, .safe, .cam, .cdc, .dma, .memc, .tmb, .axs, .lgt, .thm, .cal, .pwr, .log, .exporting] true s (execMainPgFall s) := by
  unfold execMainPgFall
  refine KeepsX.next ?_
  split
  · exact ⟨Keeps.step (Dev.mainLost_keeps ..) (by decide) (Keeps.step (keeps_pwr s.dev _) (by decide) (Keeps.refl _ _)), (nomatch ·), rfl⟩
  · exact KeepsS.refl _ _ _

theorem execRef100Loss_keeps (ns : Nat) (s : State) : KeepsX [.rw, .rwAct, .shadow, .shadowAt, .effect, .srvNext, .w1c, .cnt, .rol, .rolBeat, .merge, .taken, .hst, .lnk, .crs, .msn, .pth, .lsr, .mpm, .srv, .safe, .cam, .cdc, .dma, .memc, .tmb, .axs, .lgt, .thm, .cal, .pwr, .log, .exporting] true s (execRef100Loss ns s) := by
  unfold execRef100Loss
  refine KeepsX.next ?_
  split
  · exact ⟨Keeps.step (Dev.mainLost_keeps ..) (by decide) (Keeps.step (keeps_pwr s.dev _) (by decide) (Keeps.refl _ _)), (nomatch ·), rfl⟩
  · exact KeepsS.refl _ _ _

theorem execPciePerstN_keeps (s : State) : KeepsX [.rw, .rwAct, .w1c, .cnt, .rol, .merge, .hst, .lnk, .crs, .msn, .log] false s (execPciePerstN s) := by
  unfold execPciePerstN
  repeat' (first
    | with_reducible refine KeepsX.mainOnly ?_
    | with_reducible refine KeepsX.next ?_
    | with_reducible exact KeepsX.fault _ _ _ _
    | with_reducible exact KeepsS.refl _ _ _
    | with_reducible exact Keeps.refl _ _
    | split
    | (with_reducible apply Keeps.step (Dev.perstLow_keeps ..); · decide)
    | with_reducible assumption
    | refine KeepsS.ofDev ?_
    | refine KeepsS.ofMem ?_
    | (refine ⟨fun p hp => ?_, fun hr => hr, fun _ => Grows.refl _⟩; cases p <;> first | exact absurd (by decide) hp | apply Eq.refl)
    | (dsimp only))

theorem execPcieConfigWrite_keeps (func : PcieControl) (msix : MsixControl) (s : State) : KeepsX [.out, .hst] false s (execPcieConfigWrite func msix s) := by
  unfold execPcieConfigWrite
  repeat' (first
    | with_reducible refine KeepsX.mainOnly ?_
    | with_reducible refine KeepsX.next ?_
    | with_reducible exact KeepsX.fault _ _ _ _
    | with_reducible exact KeepsS.refl _ _ _
    | with_reducible exact Keeps.refl _ _
    | split
    | (with_reducible apply Keeps.step (Dev.sendAllPending_keeps ..); · decide)
    | with_reducible assumption
    | refine KeepsS.ofDev ?_
    | refine KeepsS.ofMem ?_
    | (refine ⟨fun p hp => ?_, fun hr => hr, fun _ => Grows.refl _⟩; cases p <;> first | exact absurd (by decide) hp | apply Eq.refl)
    | (dsimp only))

theorem execPciePerstNRise_keeps (s : State) : KeepsX [.hst] false s (execPciePerstNRise s) := by
  unfold execPciePerstNRise
  repeat' (first
    | with_reducible refine KeepsX.mainOnly ?_
    | with_reducible refine KeepsX.next ?_
    | with_reducible exact KeepsX.fault _ _ _ _
    | with_reducible exact KeepsS.refl _ _ _
    | with_reducible exact Keeps.refl _ _
    | split
    | with_reducible assumption
    | refine KeepsS.ofDev ?_
    | refine KeepsS.ofMem ?_
    | (refine ⟨fun p hp => ?_, fun hr => hr, fun _ => Grows.refl _⟩; cases p <;> first | exact absurd (by decide) hp | apply Eq.refl)
    | (dsimp only))

theorem execResetNRise_keeps (s : State) : KeepsX [.pwr] false s (execResetNRise s) := by
  unfold execResetNRise
  repeat' (first
    | with_reducible refine KeepsX.mainOnly ?_
    | with_reducible refine KeepsX.next ?_
    | with_reducible exact KeepsX.fault _ _ _ _
    | with_reducible exact KeepsS.refl _ _ _
    | with_reducible exact Keeps.refl _ _
    | split
    | with_reducible assumption
    | refine KeepsS.ofDev ?_
    | refine KeepsS.ofMem ?_
    | (refine ⟨fun p hp => ?_, fun hr => hr, fun _ => Grows.refl _⟩; cases p <;> first | exact absurd (by decide) hp | apply Eq.refl)
    | (dsimp only))

theorem execRef100Return_keeps (s : State) : KeepsX [.rw, .rwAct, .shadow, .shadowAt, .effect, .srvNext, .w1c, .cnt, .rol, .rolBeat, .merge, .taken, .hst, .lnk, .crs, .msn, .pth, .lsr, .mpm, .srv, .safe, .cam, .cdc, .dma, .memc, .tmb, .axs, .lgt, .thm, .cal, .pwr, .log, .latches, .replies, .exporting, .slots, .boot, .act, .settings, .resetReq] true s (execRef100Return s) := by
  unfold execRef100Return
  refine KeepsX.next ?_
  split
  · exact ⟨Keeps.step (Dev.fullReset_keeps ..) (by decide) (Keeps.step (keeps_pwr s.dev _) (by decide) (Keeps.refl _ _)), (nomatch ·), rfl⟩
  · exact KeepsS.refl _ _ _

theorem execSmbAlertResponse_keeps (s : State) : KeepsX [.out] false s (execSmbAlertResponse s) := by
  unfold execSmbAlertResponse
  repeat' (first
    | with_reducible refine KeepsX.mainOnly ?_
    | with_reducible refine KeepsX.next ?_
    | with_reducible exact KeepsX.fault _ _ _ _
    | with_reducible exact KeepsS.refl _ _ _
    | with_reducible exact Keeps.refl _ _
    | split
    | (with_reducible apply Keeps.step (Dev.smbAnswer_keeps ..); · decide)
    | with_reducible assumption
    | refine KeepsS.ofDev ?_
    | refine KeepsS.ofMem ?_
    | (refine ⟨fun p hp => ?_, fun hr => hr, fun _ => Grows.refl _⟩; cases p <;> first | exact absurd (by decide) hp | apply Eq.refl)
    | (dsimp only))

theorem execCheckerLock_keeps (l : Nat) (s : State) : KeepsX [.lnk] false s (execCheckerLock l s) := by
  unfold execCheckerLock
  repeat' (first
    | with_reducible refine KeepsX.mainOnly ?_
    | with_reducible refine KeepsX.next ?_
    | with_reducible exact KeepsX.fault _ _ _ _
    | with_reducible exact KeepsS.refl _ _ _
    | with_reducible exact Keeps.refl _ _
    | split
    | (with_reducible apply Keeps.step (Dev.updLane_keeps ..); · decide)
    | with_reducible assumption
    | refine KeepsS.ofDev ?_
    | refine KeepsS.ofMem ?_
    | (refine ⟨fun p hp => ?_, fun hr => hr, fun _ => Grows.refl _⟩; cases p <;> first | exact absurd (by decide) hp | apply Eq.refl)
    | (dsimp only))

theorem execCheckerLockLoss_keeps (l : Nat) (bits : Nat) (errs : Nat) (s : State) : KeepsX [.lnk] false s (execCheckerLockLoss l bits errs s) := by
  unfold execCheckerLockLoss
  repeat' (first
    | with_reducible refine KeepsX.mainOnly ?_
    | with_reducible refine KeepsX.next ?_
    | with_reducible exact KeepsX.fault _ _ _ _
    | with_reducible exact KeepsS.refl _ _ _
    | with_reducible exact Keeps.refl _ _
    | split
    | (with_reducible apply Keeps.step (Dev.updLane_keeps ..); · decide)
    | (with_reducible apply Keeps.step (Dev.checkerCount_keeps ..); · decide)
    | with_reducible assumption
    | refine KeepsS.ofDev ?_
    | refine KeepsS.ofMem ?_
    | (refine ⟨fun p hp => ?_, fun hr => hr, fun _ => Grows.refl _⟩; cases p <;> first | exact absurd (by decide) hp | apply Eq.refl)
    | (dsimp only))

theorem execReadBackComplete_keeps (c : Nat) (s : State) : KeepsX [.cnt, .merge, .hst, .dma, .log] false s (execReadBackComplete c s) := by
  unfold execReadBackComplete
  repeat' (first
    | with_reducible refine KeepsX.mainOnly ?_
    | with_reducible refine KeepsX.next ?_
    | with_reducible exact KeepsX.fault _ _ _ _
    | with_reducible exact KeepsS.refl _ _ _
    | with_reducible exact Keeps.refl _ _
    | split
    | (with_reducible apply Keeps.step (Dev.readBackDone_keeps ..); · decide)
    | with_reducible assumption
    | refine KeepsS.ofDev ?_
    | refine KeepsS.ofMem ?_
    | (refine ⟨fun p hp => ?_, fun hr => hr, fun _ => Grows.refl _⟩; cases p <;> first | exact absurd (by decide) hp | apply Eq.refl)
    | (dsimp only))

theorem execFedBrickReadDone_keeps (key : Nat) (rd : HostRead) (s : State) : KeepsX [.cnt, .merge, .out, .hst, .lnk, .crs, .log] true s (execFedBrickReadDone key rd s) := by
  unfold execFedBrickReadDone
  repeat' (first
    | with_reducible refine KeepsX.mainOnly ?_
    | with_reducible refine KeepsX.next ?_
    | with_reducible exact KeepsX.fault _ _ _ _
    | with_reducible exact KeepsS.refl _ _ _
    | with_reducible exact Keeps.refl _ _
    | split
    | (with_reducible apply Keeps.step (Dev.fedRead_keeps ..); · decide)
    | with_reducible assumption
    | refine KeepsS.ofDev ?_
    | refine KeepsS.ofMem ?_
    | (refine ⟨fun p hp => ?_, fun hr => hr, fun _ => Grows.refl _⟩; cases p <;> first | exact absurd (by decide) hp | apply Eq.refl)
    | (dsimp only))

theorem execAnnounceReceiptTimeout_keeps (e : Nat) (newState : Nat) (s : State) : KeepsX [.merge, .tmb, .log] false s (execAnnounceReceiptTimeout e newState s) := by
  unfold execAnnounceReceiptTimeout
  repeat' (first
    | with_reducible refine KeepsX.mainOnly ?_
    | with_reducible refine KeepsX.next ?_
    | with_reducible exact KeepsX.fault _ _ _ _
    | with_reducible exact KeepsS.refl _ _ _
    | with_reducible exact Keeps.refl _ _
    | split
    | (with_reducible apply Keeps.step (Dev.ptpState_keeps ..); · decide)
    | with_reducible assumption
    | refine KeepsS.ofDev ?_
    | refine KeepsS.ofMem ?_
    | (refine ⟨fun p hp => ?_, fun hr => hr, fun _ => Grows.refl _⟩; cases p <;> first | exact absurd (by decide) hp | apply Eq.refl)
    | (dsimp only))

theorem execPtpMessageSend_keeps (e : Nat) (m : PtpMsg) (ts : Int) (s : State) : KeepsX [.out] false s (execPtpMessageSend e m ts s) := by
  unfold execPtpMessageSend
  repeat' (first
    | with_reducible refine KeepsX.mainOnly ?_
    | with_reducible refine KeepsX.next ?_
    | with_reducible exact KeepsX.fault _ _ _ _
    | with_reducible exact KeepsS.refl _ _ _
    | with_reducible exact Keeps.refl _ _
    | split
    | (with_reducible apply Keeps.step (Dev.ptpSend_keeps ..); · decide)
    | with_reducible assumption
    | refine KeepsS.ofDev ?_
    | refine KeepsS.ofMem ?_
    | (refine ⟨fun p hp => ?_, fun hr => hr, fun _ => Grows.refl _⟩; cases p <;> first | exact absurd (by decide) hp | apply Eq.refl)
    | (dsimp only))

end Sys2Proof.Machine
end

