-- ==== Sys2Proof/Laws/Regs.lean ====
section
/-!
SUPPORT. Register fields: what a read gives after a write of the same or of another field, and where a register's fields lie.
-/
namespace Sys2Proof.Machine

/-! ## Maps -/

/-- A write leaves every other key as it was, whatever an absent key reads as. -/
theorem Assoc.get_put_other {α : Type} [DecidableEq α] (q r : Nat) (v d e : α) (hne : r ≠ q) :
    ∀ m : AssocMap α, Assoc.get (Assoc.put m q v d) r e = Assoc.get m r e
  | [] => by by_cases hv : v = d <;> simp [Assoc.put, Assoc.get, hv, Ne.symm hne]
  | (k, w) :: t => by
    unfold Assoc.put
    split
    · split
      · rfl
      · simp [Assoc.get, Ne.symm hne]
    · split
      · rename_i _ hk
        subst hk
        split <;> simp [Assoc.get, Ne.symm hne]
      · simp [Assoc.get, Assoc.get_put_other q r v d e hne t]

theorem Assoc.get_above {α : Type} (q : Nat) (e : α) : ∀ m : AssocMap α, Assoc.above q m = true → Assoc.get m q e = e
  | [], _ => rfl
  | (k, w) :: t, h => by
    rw [Assoc.above_cons] at h
    have hk : k ≠ q := by have := h.1; simp only at this; omega
    simp [Assoc.get, hk, Assoc.get_above q e t h.2]

/-- A write is read back. -/
theorem Assoc.get_put_rise (q v d : Nat) : ∀ m : FieldMap, keysRise m = true → Assoc.get (Assoc.put m q v d) q d = v
  | [], _ => by by_cases hv : v = d <;> simp [Assoc.put, Assoc.get, hv]
  | (k, w) :: t, h => by
    simp only [keysRise, Bool.and_eq_true] at h
    unfold Assoc.put
    split
    · rename_i hlt
      split
      · rename_i hv
        rw [hv]
        exact Assoc.get_above q d _ (by rw [Assoc.above_cons]; exact ⟨hlt, Assoc.above_of_le (Nat.le_of_lt hlt) h.1⟩)
      · simp [Assoc.get]
    · split
      · rename_i _ hk
        subst hk
        split
        · rename_i hv; rw [hv]; exact Assoc.get_above _ _ t h.1
        · simp [Assoc.get]
      · rename_i _ hne
        simp [Assoc.get, Ne.symm hne, Assoc.get_put_rise q v d t h.2]

/-! ## Fields -/

theorem RegFile.wf_iff (r : RegFile) : r.wf = true ↔ keysRise r.rw = true ∧ keysRise r.rwAct = true ∧ keysRise r.shadow = true ∧
    keysRise r.shadowAt = true ∧ keysRise r.effect = true ∧ keysRise r.srvNext = true ∧ keysRise r.w1c = true ∧ keysRise r.cnt = true ∧ keysRise r.rol = true := by
  simp only [RegFile.wf, Bool.and_eq_true, and_assoc]

@[simp] theorem Field.fit_of (f : Field) (v : W64) : f.fit (f.of v) = f.of v := by
  unfold Field.fit Field.of wbits bitsOf Field.width
  exact Nat.mod_mod _ _

theorem Field.key_addr (f : Field) (i j : Nat) (h : f.lo < 64) : f.key i j / 64 = f.addr + i * f.s1 + j * f.s2 := by
  unfold Field.key; omega

theorem Dev.cur_setRw (d : Dev) (f : Field) (v i j : Nat) (h : d.regs.wf = true) : (d.setRw f v i j).cur f i j = f.fit v :=
  Assoc.get_put_rise _ _ _ _ ((RegFile.wf_iff _).mp h).1
theorem Dev.cur_setRw_other (d : Dev) (f g : Field) (v i j i' j' : Nat) (h : g.key i' j' ≠ f.key i j) :
    (d.setRw f v i j).cur g i' j' = d.cur g i' j' := Assoc.get_put_other _ _ _ _ _ h _
theorem Dev.shadow_setShadow (d : Dev) (f : Field) (v i j : Nat) (h : d.regs.wf = true) :
    (d.setShadow f v i j).shadow f i j = f.fit v := Assoc.get_put_rise _ _ _ _ ((RegFile.wf_iff _).mp h).2.2.1
theorem Dev.shadow_setShadow_other (d : Dev) (f g : Field) (v i j i' j' : Nat) (h : g.key i' j' ≠ f.key i j) :
    (d.setShadow f v i j).shadow g i' j' = d.shadow g i' j' := Assoc.get_put_other _ _ _ _ _ h _
theorem Dev.flag_setFlag (d : Dev) (f : Field) (v i j : Nat) (h : d.regs.wf = true) : (d.setFlag f v i j).flag f i j = f.fit v :=
  Assoc.get_put_rise _ _ _ _ ((RegFile.wf_iff _).mp h).2.2.2.2.2.2.1
theorem Dev.flag_setFlag_other (d : Dev) (f g : Field) (v i j i' j' : Nat) (h : g.key i' j' ≠ f.key i j) :
    (d.setFlag f v i j).flag g i' j' = d.flag g i' j' := Assoc.get_put_other _ _ _ _ _ h _
theorem Dev.count_setCount (d : Dev) (f : Field) (v i j : Nat) (h : d.regs.wf = true) :
    (d.setCount f v i j).count f i j = f.fit v := Assoc.get_put_rise _ _ _ _ ((RegFile.wf_iff _).mp h).2.2.2.2.2.2.2.1
theorem Dev.count_setCount_other (d : Dev) (f g : Field) (v i j i' j' : Nat) (h : g.key i' j' ≠ f.key i j) :
    (d.setCount f v i j).count g i' j' = d.count g i' j' := Assoc.get_put_other _ _ _ _ _ h _
theorem Dev.cur_setRwNow (d : Dev) (f : Field) (v i j : Nat) (h : d.regs.wf = true) : (d.setRwNow f v i j).cur f i j = f.fit v :=
  Assoc.get_put_rise _ _ _ _ ((RegFile.wf_iff _).mp h).1
theorem Dev.act_setRwNow (d : Dev) (f : Field) (v i j : Nat) (h : d.regs.wf = true) : (d.setRwNow f v i j).act f i j = f.fit v :=
  Assoc.get_put_rise _ _ _ _ ((RegFile.wf_iff _).mp h).2.1

/-! ## Finding a register -/

theorem RegDef.indices_some {r : RegDef} {off i j : Nat} (h : r.indices off = some (i, j)) :
    off = r.addr + i * r.s1 + j * r.s2 ∧ i < r.n1 ∧ j < r.n2 := by
  unfold RegDef.indices at h
  split at h
  · cases h
  · rename_i hlt
    dsimp only at h
    have h2 : (if r.s1 = 0 then 0 else (off - r.addr) / r.s1) * r.s1 ≤ off - r.addr := by
      split
      · omega
      · exact Nat.div_mul_le_self _ _
    generalize (if r.s1 = 0 then 0 else (off - r.addr) / r.s1) = i0 at h h2
    generalize (if r.s2 = 0 then 0 else (off - r.addr - i0 * r.s1) / r.s2) = j0 at h
    split at h
    · rename_i hc
      cases h
      exact ⟨by omega, hc.1, hc.2.1⟩
    · cases h

theorem findReg_some {off : Nat} {r : RegDef} {i j : Nat} :
    ∀ {l : List RegDef}, findReg l off = some (r, i, j) → r ∈ l ∧ r.indices off = some (i, j)
  | [], h => by cases h
  | x :: t, h => by
    unfold findReg at h
    split at h
    · rename_i a b hx
      cases h
      exact ⟨List.mem_cons_self, hx⟩
    · exact ⟨List.mem_cons_of_mem _ (findReg_some h).1, (findReg_some h).2⟩

/-- The offset of the register that a BAR0 offset names. -/
theorem regAt_off {off : Nat} {r : RegDef} {i j : Nat} (h : regAt off = some (r, i, j)) :
    off = r.addr + i * r.s1 + j * r.s2 ∧ i < r.n1 ∧ j < r.n2 := RegDef.indices_some (findReg_some h).2

/-! ## Storing a word (R6) -/

/-- Storing one field of a word. -/
def Dev.storeField (d : Dev) (v : W64) (i j : Nat) (f : Field) : Dev :=
  match f.acc with
  | .rw => d.setRw f (f.of v) i j
  | .rws => d.setShadow f (f.of v) i j
  | .w1c => d.setFlag f (d.flag f i j &&& (2 ^ f.width - 1 - f.of v)) i j
  | .ro | .wo | .rol => d

theorem Dev.store_eq (d : Dev) (r : RegDef) (v : W64) (i j : Nat) :
    d.store r v i j = r.fields.foldl (fun d f => d.storeField v i j f) d := rfl

theorem Dev.storeField_wf (d : Dev) (v : W64) (i j : Nat) (f : Field) (h : d.regs.wf = true) :
    (d.storeField v i j f).regs.wf = true := by
  unfold Dev.storeField
  split
  · exact (Dev.setRw_keeps ..).regs h
  · exact (Dev.setShadow_keeps ..).regs h
  · exact (Dev.setFlag_keeps ..).regs h
  all_goals exact h

/-- The keys of the three maps that a write may change are those of the field. -/
theorem Dev.storeField_other (d : Dev) (v : W64) (i j : Nat) (f : Field) (k e : Nat) (h : k ≠ f.key i j) :
    Assoc.get (d.storeField v i j f).regs.rw k e = Assoc.get d.regs.rw k e ∧
    Assoc.get (d.storeField v i j f).regs.shadow k e = Assoc.get d.regs.shadow k e ∧
    Assoc.get (d.storeField v i j f).regs.w1c k e = Assoc.get d.regs.w1c k e := by
  unfold Dev.storeField
  split
  · exact ⟨Assoc.get_put_other _ _ _ _ _ h _, rfl, rfl⟩
  · exact ⟨rfl, Assoc.get_put_other _ _ _ _ _ h _, rfl⟩
  · exact ⟨rfl, rfl, Assoc.get_put_other _ _ _ _ _ h _⟩
  all_goals exact ⟨rfl, rfl, rfl⟩

theorem Dev.storeFields_other (v : W64) (i j k e : Nat) : ∀ (fs : List Field) (d : Dev), (∀ f ∈ fs, k ≠ f.key i j) →
    let d' := fs.foldl (fun d f => d.storeField v i j f) d
    Assoc.get d'.regs.rw k e = Assoc.get d.regs.rw k e ∧ Assoc.get d'.regs.shadow k e = Assoc.get d.regs.shadow k e ∧
    Assoc.get d'.regs.w1c k e = Assoc.get d.regs.w1c k e
  | [], _, _ => ⟨rfl, rfl, rfl⟩
  | f :: t, d, h => by
    have h1 := Dev.storeField_other d v i j f k e (h f List.mem_cons_self)
    have h2 := Dev.storeFields_other v i j k e t (d.storeField v i j f) (fun g hg => h g (List.mem_cons_of_mem _ hg))
    exact ⟨h2.1.trans h1.1, h2.2.1.trans h1.2.1, h2.2.2.trans h1.2.2⟩

/-- A stored word leaves every other register as it was. -/
theorem Dev.store_other (d : Dev) (r : RegDef) (v : W64) (i j k e : Nat) (h : ∀ f ∈ r.fields, k ≠ f.key i j) :
    Assoc.get (d.store r v i j).regs.rw k e = Assoc.get d.regs.rw k e ∧
    Assoc.get (d.store r v i j).regs.shadow k e = Assoc.get d.regs.shadow k e ∧
    Assoc.get (d.store r v i j).regs.w1c k e = Assoc.get d.regs.w1c k e := Dev.storeFields_other v i j k e r.fields d h

/-- What a stored field holds. -/
def Dev.stored (d0 d : Dev) (v : W64) (i j : Nat) (f : Field) : Prop :=
  (f.acc = .rw → d.cur f i j = f.of v) ∧ (f.acc = .rws → d.shadow f i j = f.of v) ∧
  (f.acc = .w1c → d.flag f i j = d0.flag f i j &&& (2 ^ f.width - 1 - f.of v))

theorem Field.fit_mask (f : Field) (a : Nat) (v : W64) :
    f.fit (a &&& (2 ^ f.width - 1 - f.of v)) = a &&& (2 ^ f.width - 1 - f.of v) := by
  refine Nat.mod_eq_of_lt (Nat.lt_of_le_of_lt Nat.and_le_right ?_)
  have := Nat.two_pow_pos f.width
  omega

theorem Dev.storeField_stored (d : Dev) (v : W64) (i j : Nat) (f : Field) (h : d.regs.wf = true) :
    Dev.stored d (d.storeField v i j f) v i j f := by
  unfold Dev.storeField Dev.stored
  refine ⟨fun ha => ?_, fun ha => ?_, fun ha => ?_⟩ <;> simp only [ha]
  · rw [Dev.cur_setRw _ _ _ _ _ h, Field.fit_of]
  · rw [Dev.shadow_setShadow _ _ _ _ _ h, Field.fit_of]
  · rw [Dev.flag_setFlag _ _ _ _ _ h, Field.fit_mask]

theorem Dev.storeFields_stored (v : W64) (i j : Nat) : ∀ (fs : List Field) (d : Dev), d.regs.wf = true →
    (fs.map (fun f => f.key i j)).Nodup → ∀ f ∈ fs, Dev.stored d (fs.foldl (fun d f => d.storeField v i j f) d) v i j f
  | [], _, _, _, _, hf => by cases hf
  | g :: t, d, h, hn, f, hf => by
    rw [List.map_cons, List.nodup_cons] at hn
    rw [List.foldl_cons]
    rcases List.mem_cons.mp hf with rfl | hf
    · have ho : ∀ x ∈ t, f.key i j ≠ x.key i j := fun x hx he => hn.1 (he ▸ List.mem_map_of_mem hx)
      have h2 := Dev.storeFields_other v i j (f.key i j) (f.resetAt i) t (d.storeField v i j f) ho
      have h1 := Dev.storeField_stored d v i j f h
      exact ⟨fun ha => h2.1.trans (h1.1 ha), fun ha => h2.2.1.trans (h1.2.1 ha), fun ha => h2.2.2.trans (h1.2.2 ha)⟩
    · have h3 := Dev.storeFields_stored v i j t (d.storeField v i j g) (Dev.storeField_wf d v i j g h) hn.2 f hf
      refine ⟨h3.1, h3.2.1, fun ha => (h3.2.2 ha).trans ?_⟩
      have hk : f.key i j ≠ g.key i j := fun he => hn.1 (he ▸ List.mem_map_of_mem hf)
      have := (Dev.storeField_other d v i j g (f.key i j) (f.resetAt i) hk).2.2
      unfold Dev.flag
      rw [this]

/-- Every field of a stored word takes its part by its access code. -/
theorem Dev.store_stored (d : Dev) (r : RegDef) (v : W64) (i j : Nat) (h : d.regs.wf = true)
    (hn : (r.fields.map (fun f => f.key i j)).Nodup) : ∀ f ∈ r.fields, Dev.stored d (d.store r v i j) v i j f :=
  Dev.storeFields_stored v i j r.fields d h hn

/-! ## The layout of the register tables -/

/-- The numbers of a list, all different, as a Bool. -/
def allDistinct : List Nat → Bool
  | [] => true
  | x :: t => !t.contains x && allDistinct t

theorem nodup_of_allDistinct : ∀ l : List Nat, allDistinct l = true → l.Nodup
  | [], _ => List.nodup_nil
  | x :: t, h => by
    simp only [allDistinct, Bool.and_eq_true, Bool.not_eq_true', List.contains_eq_mem, decide_eq_false_iff_not] at h
    exact List.nodup_cons.mpr ⟨h.1, nodup_of_allDistinct t h.2⟩

/-- Every field of a register lies in it, at a place of its own. -/
def RegDef.ok (r : RegDef) : Bool :=
  r.fields.all (fun f => f.addr == r.addr && f.s1 == r.s1 && f.s2 == r.s2 && decide (f.lo < 64)) &&
    allDistinct (r.fields.map (fun f => f.lo))

theorem RegDef.ok_key {r : RegDef} (h : r.ok = true) (i j : Nat) : ∀ f ∈ r.fields,
    f.key i j = (r.addr + i * r.s1 + j * r.s2) * 64 + f.lo ∧ f.lo < 64 := by
  intro f hf
  simp only [RegDef.ok, Bool.and_eq_true, List.all_eq_true, beq_iff_eq, decide_eq_true_eq] at h
  obtain ⟨⟨⟨h1, h2⟩, h3⟩, h4⟩ := h.1 f hf
  exact ⟨by unfold Field.key; rw [h1, h2, h3], h4⟩

theorem RegDef.ok_nodup {r : RegDef} (h : r.ok = true) (i j : Nat) : (r.fields.map (fun f => f.key i j)).Nodup := by
  have hk := RegDef.ok_key h i j
  have hn : (r.fields.map (fun f => f.lo)).Nodup := by
    simp only [RegDef.ok, Bool.and_eq_true] at h
    exact nodup_of_allDistinct _ h.2
  generalize r.fields = fs at hk hn
  induction fs with
  | nil => exact List.nodup_nil
  | cons f t ih =>
    rw [List.map_cons, List.nodup_cons] at hn ⊢
    refine ⟨fun hm => ?_, ih (fun g hg => hk g (List.mem_cons_of_mem _ hg)) hn.2⟩
    obtain ⟨g, hg, he⟩ := List.mem_map.mp hm
    have h1 := hk f List.mem_cons_self
    have h2 := hk g (List.mem_cons_of_mem _ hg)
    exact hn.1 (List.mem_map.mpr ⟨g, hg, by have := h1.1; have := h2.1; omega⟩)

theorem RegDef.ok_addr {r : RegDef} (h : r.ok = true) (i j : Nat) : ∀ f ∈ r.fields,
    f.key i j / 64 = r.addr + i * r.s1 + j * r.s2 := by
  intro f hf
  obtain ⟨h1, h2⟩ := RegDef.ok_key h i j f hf
  omega

theorem regTable_ok (b : Nat) : (regTable b).all RegDef.ok = true := by
  match b with
  | 0 | 1 | 2 | 3 | 4 | 5 | 6 | 7 | 8 | 9 | 10 | 11 | 12 | 13 | 14 | 15 => decide
  | n + 16 => rfl

/-- The register that an offset names has its fields there, each at a place of its own. -/
theorem regAt_ok {off : Nat} {r : RegDef} {i j : Nat} (h : regAt off = some (r, i, j)) : r.ok = true :=
  List.all_eq_true.mp (regTable_ok _) r (findReg_some h).1

end Sys2Proof.Machine
end

