-- ==== Sys2Proof/Laws/State.lean ====
section
/-!
SUPPORT. What each named update of the device leaves as it was, one lemma per field, and what the queue's operations do.
-/
namespace Sys2Proof.Machine

@[simp] theorem State.reset_pending : State.reset.pending = [] := rfl
@[simp] theorem State.reset_mem : State.reset.mem = {} := rfl
@[simp] theorem State.withFetchWord_eq (s : State) (nbits w : Nat) : s.withFetchWord nbits w = s := rfl
theorem State.mainOnly_up (s t : State) (h : s.dev.mainUp = true) : s.mainOnly t = .next t := by simp [State.mainOnly, h]
theorem State.mainOnly_down (s t : State) (h : s.dev.mainUp = false) : s.mainOnly t = .next s := by simp [State.mainOnly, h]
@[simp] theorem at'_upd_same {α : Type} [Inhabited α] {n : Nat} (v : Vector α n) (i : Nat) (f : α → α) (h : i < n) :
    at' (upd v i f) i = f (at' v i) := by simp [at', upd, h]
@[simp] theorem at'_upd_ne {α : Type} [Inhabited α] {n : Nat} (v : Vector α n) (i j : Nat) (f : α → α) (h : j ≠ i) :
    at' (upd v i f) j = at' v j := by
  unfold at' upd
  by_cases hi : i < n <;> by_cases hj : j < n <;> simp [hi, hj, Ne.symm h]

/-! ### `Dev.updRing` -/

@[simp] theorem Dev.updRing_regs (d : Dev) (n : Nat) (f : Ring → Ring) : (d.updRing n f).regs = d.regs := rfl
@[simp] theorem Dev.updRing_ev (d : Dev) (n : Nat) (f : Ring → Ring) : (d.updRing n f).ev = d.ev := rfl
@[simp] theorem Dev.updRing_freeCount (d : Dev) (n : Nat) (f : Ring → Ring) : (d.updRing n f).freeCount = d.freeCount := rfl
@[simp] theorem Dev.updRing_lnk (d : Dev) (n : Nat) (f : Ring → Ring) : (d.updRing n f).lnk = d.lnk := rfl
@[simp] theorem Dev.updRing_crs (d : Dev) (n : Nat) (f : Ring → Ring) : (d.updRing n f).crs = d.crs := rfl
@[simp] theorem Dev.updRing_msn (d : Dev) (n : Nat) (f : Ring → Ring) : (d.updRing n f).msn = d.msn := rfl
@[simp] theorem Dev.updRing_pth (d : Dev) (n : Nat) (f : Ring → Ring) : (d.updRing n f).pth = d.pth := rfl
@[simp] theorem Dev.updRing_lsr (d : Dev) (n : Nat) (f : Ring → Ring) : (d.updRing n f).lsr = d.lsr := rfl
@[simp] theorem Dev.updRing_mpm (d : Dev) (n : Nat) (f : Ring → Ring) : (d.updRing n f).mpm = d.mpm := rfl
@[simp] theorem Dev.updRing_srv (d : Dev) (n : Nat) (f : Ring → Ring) : (d.updRing n f).srv = d.srv := rfl
@[simp] theorem Dev.updRing_safe (d : Dev) (n : Nat) (f : Ring → Ring) : (d.updRing n f).safe = d.safe := rfl
@[simp] theorem Dev.updRing_cam (d : Dev) (n : Nat) (f : Ring → Ring) : (d.updRing n f).cam = d.cam := rfl
@[simp] theorem Dev.updRing_cdc (d : Dev) (n : Nat) (f : Ring → Ring) : (d.updRing n f).cdc = d.cdc := rfl
@[simp] theorem Dev.updRing_dma (d : Dev) (n : Nat) (f : Ring → Ring) : (d.updRing n f).dma = d.dma := rfl
@[simp] theorem Dev.updRing_memc (d : Dev) (n : Nat) (f : Ring → Ring) : (d.updRing n f).memc = d.memc := rfl
@[simp] theorem Dev.updRing_tmb (d : Dev) (n : Nat) (f : Ring → Ring) : (d.updRing n f).tmb = d.tmb := rfl
@[simp] theorem Dev.updRing_axs (d : Dev) (n : Nat) (f : Ring → Ring) : (d.updRing n f).axs = d.axs := rfl
@[simp] theorem Dev.updRing_lgt (d : Dev) (n : Nat) (f : Ring → Ring) : (d.updRing n f).lgt = d.lgt := rfl
@[simp] theorem Dev.updRing_thm (d : Dev) (n : Nat) (f : Ring → Ring) : (d.updRing n f).thm = d.thm := rfl
@[simp] theorem Dev.updRing_cal (d : Dev) (n : Nat) (f : Ring → Ring) : (d.updRing n f).cal = d.cal := rfl
@[simp] theorem Dev.updRing_mgt (d : Dev) (n : Nat) (f : Ring → Ring) : (d.updRing n f).mgt = d.mgt := rfl
@[simp] theorem Dev.updRing_pwr (d : Dev) (n : Nat) (f : Ring → Ring) : (d.updRing n f).pwr = d.pwr := rfl

/-! ### `Dev.updBl` -/

@[simp] theorem Dev.updBl_regs (d : Dev) (p : Nat) (f : BlPort → BlPort) : (d.updBl p f).regs = d.regs := rfl
@[simp] theorem Dev.updBl_ev (d : Dev) (p : Nat) (f : BlPort → BlPort) : (d.updBl p f).ev = d.ev := rfl
@[simp] theorem Dev.updBl_freeCount (d : Dev) (p : Nat) (f : BlPort → BlPort) : (d.updBl p f).freeCount = d.freeCount := rfl
@[simp] theorem Dev.updBl_hst (d : Dev) (p : Nat) (f : BlPort → BlPort) : (d.updBl p f).hst = d.hst := rfl
@[simp] theorem Dev.updBl_crs (d : Dev) (p : Nat) (f : BlPort → BlPort) : (d.updBl p f).crs = d.crs := rfl
@[simp] theorem Dev.updBl_msn (d : Dev) (p : Nat) (f : BlPort → BlPort) : (d.updBl p f).msn = d.msn := rfl
@[simp] theorem Dev.updBl_pth (d : Dev) (p : Nat) (f : BlPort → BlPort) : (d.updBl p f).pth = d.pth := rfl
@[simp] theorem Dev.updBl_lsr (d : Dev) (p : Nat) (f : BlPort → BlPort) : (d.updBl p f).lsr = d.lsr := rfl
@[simp] theorem Dev.updBl_mpm (d : Dev) (p : Nat) (f : BlPort → BlPort) : (d.updBl p f).mpm = d.mpm := rfl
@[simp] theorem Dev.updBl_srv (d : Dev) (p : Nat) (f : BlPort → BlPort) : (d.updBl p f).srv = d.srv := rfl
@[simp] theorem Dev.updBl_safe (d : Dev) (p : Nat) (f : BlPort → BlPort) : (d.updBl p f).safe = d.safe := rfl
@[simp] theorem Dev.updBl_cam (d : Dev) (p : Nat) (f : BlPort → BlPort) : (d.updBl p f).cam = d.cam := rfl
@[simp] theorem Dev.updBl_cdc (d : Dev) (p : Nat) (f : BlPort → BlPort) : (d.updBl p f).cdc = d.cdc := rfl
@[simp] theorem Dev.updBl_dma (d : Dev) (p : Nat) (f : BlPort → BlPort) : (d.updBl p f).dma = d.dma := rfl
@[simp] theorem Dev.updBl_memc (d : Dev) (p : Nat) (f : BlPort → BlPort) : (d.updBl p f).memc = d.memc := rfl
@[simp] theorem Dev.updBl_tmb (d : Dev) (p : Nat) (f : BlPort → BlPort) : (d.updBl p f).tmb = d.tmb := rfl
@[simp] theorem Dev.updBl_axs (d : Dev) (p : Nat) (f : BlPort → BlPort) : (d.updBl p f).axs = d.axs := rfl
@[simp] theorem Dev.updBl_lgt (d : Dev) (p : Nat) (f : BlPort → BlPort) : (d.updBl p f).lgt = d.lgt := rfl
@[simp] theorem Dev.updBl_thm (d : Dev) (p : Nat) (f : BlPort → BlPort) : (d.updBl p f).thm = d.thm := rfl
@[simp] theorem Dev.updBl_cal (d : Dev) (p : Nat) (f : BlPort → BlPort) : (d.updBl p f).cal = d.cal := rfl
@[simp] theorem Dev.updBl_mgt (d : Dev) (p : Nat) (f : BlPort → BlPort) : (d.updBl p f).mgt = d.mgt := rfl
@[simp] theorem Dev.updBl_pwr (d : Dev) (p : Nat) (f : BlPort → BlPort) : (d.updBl p f).pwr = d.pwr := rfl

/-! ### `Dev.updVl` -/

@[simp] theorem Dev.updVl_regs (d : Dev) (p vl : Nat) (f : VLane → VLane) : (d.updVl p vl f).regs = d.regs := rfl
@[simp] theorem Dev.updVl_ev (d : Dev) (p vl : Nat) (f : VLane → VLane) : (d.updVl p vl f).ev = d.ev := rfl
@[simp] theorem Dev.updVl_freeCount (d : Dev) (p vl : Nat) (f : VLane → VLane) : (d.updVl p vl f).freeCount = d.freeCount := rfl
@[simp] theorem Dev.updVl_hst (d : Dev) (p vl : Nat) (f : VLane → VLane) : (d.updVl p vl f).hst = d.hst := rfl
@[simp] theorem Dev.updVl_crs (d : Dev) (p vl : Nat) (f : VLane → VLane) : (d.updVl p vl f).crs = d.crs := rfl
@[simp] theorem Dev.updVl_msn (d : Dev) (p vl : Nat) (f : VLane → VLane) : (d.updVl p vl f).msn = d.msn := rfl
@[simp] theorem Dev.updVl_pth (d : Dev) (p vl : Nat) (f : VLane → VLane) : (d.updVl p vl f).pth = d.pth := rfl
@[simp] theorem Dev.updVl_lsr (d : Dev) (p vl : Nat) (f : VLane → VLane) : (d.updVl p vl f).lsr = d.lsr := rfl
@[simp] theorem Dev.updVl_mpm (d : Dev) (p vl : Nat) (f : VLane → VLane) : (d.updVl p vl f).mpm = d.mpm := rfl
@[simp] theorem Dev.updVl_srv (d : Dev) (p vl : Nat) (f : VLane → VLane) : (d.updVl p vl f).srv = d.srv := rfl
@[simp] theorem Dev.updVl_safe (d : Dev) (p vl : Nat) (f : VLane → VLane) : (d.updVl p vl f).safe = d.safe := rfl
@[simp] theorem Dev.updVl_cam (d : Dev) (p vl : Nat) (f : VLane → VLane) : (d.updVl p vl f).cam = d.cam := rfl
@[simp] theorem Dev.updVl_cdc (d : Dev) (p vl : Nat) (f : VLane → VLane) : (d.updVl p vl f).cdc = d.cdc := rfl
@[simp] theorem Dev.updVl_dma (d : Dev) (p vl : Nat) (f : VLane → VLane) : (d.updVl p vl f).dma = d.dma := rfl
@[simp] theorem Dev.updVl_memc (d : Dev) (p vl : Nat) (f : VLane → VLane) : (d.updVl p vl f).memc = d.memc := rfl
@[simp] theorem Dev.updVl_tmb (d : Dev) (p vl : Nat) (f : VLane → VLane) : (d.updVl p vl f).tmb = d.tmb := rfl
@[simp] theorem Dev.updVl_axs (d : Dev) (p vl : Nat) (f : VLane → VLane) : (d.updVl p vl f).axs = d.axs := rfl
@[simp] theorem Dev.updVl_lgt (d : Dev) (p vl : Nat) (f : VLane → VLane) : (d.updVl p vl f).lgt = d.lgt := rfl
@[simp] theorem Dev.updVl_thm (d : Dev) (p vl : Nat) (f : VLane → VLane) : (d.updVl p vl f).thm = d.thm := rfl
@[simp] theorem Dev.updVl_cal (d : Dev) (p vl : Nat) (f : VLane → VLane) : (d.updVl p vl f).cal = d.cal := rfl
@[simp] theorem Dev.updVl_mgt (d : Dev) (p vl : Nat) (f : VLane → VLane) : (d.updVl p vl f).mgt = d.mgt := rfl
@[simp] theorem Dev.updVl_pwr (d : Dev) (p vl : Nat) (f : VLane → VLane) : (d.updVl p vl f).pwr = d.pwr := rfl

/-! ### `Dev.updLine` -/

@[simp] theorem Dev.updLine_regs (d : Dev) (p : Nat) (f : BlLine → BlLine) : (d.updLine p f).regs = d.regs := rfl
@[simp] theorem Dev.updLine_ev (d : Dev) (p : Nat) (f : BlLine → BlLine) : (d.updLine p f).ev = d.ev := rfl
@[simp] theorem Dev.updLine_freeCount (d : Dev) (p : Nat) (f : BlLine → BlLine) : (d.updLine p f).freeCount = d.freeCount := rfl
@[simp] theorem Dev.updLine_hst (d : Dev) (p : Nat) (f : BlLine → BlLine) : (d.updLine p f).hst = d.hst := rfl
@[simp] theorem Dev.updLine_crs (d : Dev) (p : Nat) (f : BlLine → BlLine) : (d.updLine p f).crs = d.crs := rfl
@[simp] theorem Dev.updLine_msn (d : Dev) (p : Nat) (f : BlLine → BlLine) : (d.updLine p f).msn = d.msn := rfl
@[simp] theorem Dev.updLine_pth (d : Dev) (p : Nat) (f : BlLine → BlLine) : (d.updLine p f).pth = d.pth := rfl
@[simp] theorem Dev.updLine_lsr (d : Dev) (p : Nat) (f : BlLine → BlLine) : (d.updLine p f).lsr = d.lsr := rfl
@[simp] theorem Dev.updLine_mpm (d : Dev) (p : Nat) (f : BlLine → BlLine) : (d.updLine p f).mpm = d.mpm := rfl
@[simp] theorem Dev.updLine_srv (d : Dev) (p : Nat) (f : BlLine → BlLine) : (d.updLine p f).srv = d.srv := rfl
@[simp] theorem Dev.updLine_safe (d : Dev) (p : Nat) (f : BlLine → BlLine) : (d.updLine p f).safe = d.safe := rfl
@[simp] theorem Dev.updLine_cam (d : Dev) (p : Nat) (f : BlLine → BlLine) : (d.updLine p f).cam = d.cam := rfl
@[simp] theorem Dev.updLine_cdc (d : Dev) (p : Nat) (f : BlLine → BlLine) : (d.updLine p f).cdc = d.cdc := rfl
@[simp] theorem Dev.updLine_dma (d : Dev) (p : Nat) (f : BlLine → BlLine) : (d.updLine p f).dma = d.dma := rfl
@[simp] theorem Dev.updLine_memc (d : Dev) (p : Nat) (f : BlLine → BlLine) : (d.updLine p f).memc = d.memc := rfl
@[simp] theorem Dev.updLine_tmb (d : Dev) (p : Nat) (f : BlLine → BlLine) : (d.updLine p f).tmb = d.tmb := rfl
@[simp] theorem Dev.updLine_axs (d : Dev) (p : Nat) (f : BlLine → BlLine) : (d.updLine p f).axs = d.axs := rfl
@[simp] theorem Dev.updLine_lgt (d : Dev) (p : Nat) (f : BlLine → BlLine) : (d.updLine p f).lgt = d.lgt := rfl
@[simp] theorem Dev.updLine_thm (d : Dev) (p : Nat) (f : BlLine → BlLine) : (d.updLine p f).thm = d.thm := rfl
@[simp] theorem Dev.updLine_cal (d : Dev) (p : Nat) (f : BlLine → BlLine) : (d.updLine p f).cal = d.cal := rfl
@[simp] theorem Dev.updLine_mgt (d : Dev) (p : Nat) (f : BlLine → BlLine) : (d.updLine p f).mgt = d.mgt := rfl
@[simp] theorem Dev.updLine_pwr (d : Dev) (p : Nat) (f : BlLine → BlLine) : (d.updLine p f).pwr = d.pwr := rfl

/-! ### `Dev.updLane` -/

@[simp] theorem Dev.updLane_regs (d : Dev) (l : Nat) (f : LaneState → LaneState) : (d.updLane l f).regs = d.regs := rfl
@[simp] theorem Dev.updLane_ev (d : Dev) (l : Nat) (f : LaneState → LaneState) : (d.updLane l f).ev = d.ev := rfl
@[simp] theorem Dev.updLane_freeCount (d : Dev) (l : Nat) (f : LaneState → LaneState) : (d.updLane l f).freeCount = d.freeCount := rfl
@[simp] theorem Dev.updLane_hst (d : Dev) (l : Nat) (f : LaneState → LaneState) : (d.updLane l f).hst = d.hst := rfl
@[simp] theorem Dev.updLane_crs (d : Dev) (l : Nat) (f : LaneState → LaneState) : (d.updLane l f).crs = d.crs := rfl
@[simp] theorem Dev.updLane_msn (d : Dev) (l : Nat) (f : LaneState → LaneState) : (d.updLane l f).msn = d.msn := rfl
@[simp] theorem Dev.updLane_pth (d : Dev) (l : Nat) (f : LaneState → LaneState) : (d.updLane l f).pth = d.pth := rfl
@[simp] theorem Dev.updLane_lsr (d : Dev) (l : Nat) (f : LaneState → LaneState) : (d.updLane l f).lsr = d.lsr := rfl
@[simp] theorem Dev.updLane_mpm (d : Dev) (l : Nat) (f : LaneState → LaneState) : (d.updLane l f).mpm = d.mpm := rfl
@[simp] theorem Dev.updLane_srv (d : Dev) (l : Nat) (f : LaneState → LaneState) : (d.updLane l f).srv = d.srv := rfl
@[simp] theorem Dev.updLane_safe (d : Dev) (l : Nat) (f : LaneState → LaneState) : (d.updLane l f).safe = d.safe := rfl
@[simp] theorem Dev.updLane_cam (d : Dev) (l : Nat) (f : LaneState → LaneState) : (d.updLane l f).cam = d.cam := rfl
@[simp] theorem Dev.updLane_cdc (d : Dev) (l : Nat) (f : LaneState → LaneState) : (d.updLane l f).cdc = d.cdc := rfl
@[simp] theorem Dev.updLane_dma (d : Dev) (l : Nat) (f : LaneState → LaneState) : (d.updLane l f).dma = d.dma := rfl
@[simp] theorem Dev.updLane_memc (d : Dev) (l : Nat) (f : LaneState → LaneState) : (d.updLane l f).memc = d.memc := rfl
@[simp] theorem Dev.updLane_tmb (d : Dev) (l : Nat) (f : LaneState → LaneState) : (d.updLane l f).tmb = d.tmb := rfl
@[simp] theorem Dev.updLane_axs (d : Dev) (l : Nat) (f : LaneState → LaneState) : (d.updLane l f).axs = d.axs := rfl
@[simp] theorem Dev.updLane_lgt (d : Dev) (l : Nat) (f : LaneState → LaneState) : (d.updLane l f).lgt = d.lgt := rfl
@[simp] theorem Dev.updLane_thm (d : Dev) (l : Nat) (f : LaneState → LaneState) : (d.updLane l f).thm = d.thm := rfl
@[simp] theorem Dev.updLane_cal (d : Dev) (l : Nat) (f : LaneState → LaneState) : (d.updLane l f).cal = d.cal := rfl
@[simp] theorem Dev.updLane_mgt (d : Dev) (l : Nat) (f : LaneState → LaneState) : (d.updLane l f).mgt = d.mgt := rfl
@[simp] theorem Dev.updLane_pwr (d : Dev) (l : Nat) (f : LaneState → LaneState) : (d.updLane l f).pwr = d.pwr := rfl

/-! ### `Dev.updStream` -/

@[simp] theorem Dev.updStream_regs (d : Dev) (dev ring : Nat) (f : FedStream → FedStream) : (d.updStream dev ring f).regs = d.regs := rfl
@[simp] theorem Dev.updStream_ev (d : Dev) (dev ring : Nat) (f : FedStream → FedStream) : (d.updStream dev ring f).ev = d.ev := rfl
@[simp] theorem Dev.updStream_freeCount (d : Dev) (dev ring : Nat) (f : FedStream → FedStream) : (d.updStream dev ring f).freeCount = d.freeCount := rfl
@[simp] theorem Dev.updStream_hst (d : Dev) (dev ring : Nat) (f : FedStream → FedStream) : (d.updStream dev ring f).hst = d.hst := rfl
@[simp] theorem Dev.updStream_crs (d : Dev) (dev ring : Nat) (f : FedStream → FedStream) : (d.updStream dev ring f).crs = d.crs := rfl
@[simp] theorem Dev.updStream_msn (d : Dev) (dev ring : Nat) (f : FedStream → FedStream) : (d.updStream dev ring f).msn = d.msn := rfl
@[simp] theorem Dev.updStream_pth (d : Dev) (dev ring : Nat) (f : FedStream → FedStream) : (d.updStream dev ring f).pth = d.pth := rfl
@[simp] theorem Dev.updStream_lsr (d : Dev) (dev ring : Nat) (f : FedStream → FedStream) : (d.updStream dev ring f).lsr = d.lsr := rfl
@[simp] theorem Dev.updStream_mpm (d : Dev) (dev ring : Nat) (f : FedStream → FedStream) : (d.updStream dev ring f).mpm = d.mpm := rfl
@[simp] theorem Dev.updStream_srv (d : Dev) (dev ring : Nat) (f : FedStream → FedStream) : (d.updStream dev ring f).srv = d.srv := rfl
@[simp] theorem Dev.updStream_safe (d : Dev) (dev ring : Nat) (f : FedStream → FedStream) : (d.updStream dev ring f).safe = d.safe := rfl
@[simp] theorem Dev.updStream_cam (d : Dev) (dev ring : Nat) (f : FedStream → FedStream) : (d.updStream dev ring f).cam = d.cam := rfl
@[simp] theorem Dev.updStream_cdc (d : Dev) (dev ring : Nat) (f : FedStream → FedStream) : (d.updStream dev ring f).cdc = d.cdc := rfl
@[simp] theorem Dev.updStream_dma (d : Dev) (dev ring : Nat) (f : FedStream → FedStream) : (d.updStream dev ring f).dma = d.dma := rfl
@[simp] theorem Dev.updStream_memc (d : Dev) (dev ring : Nat) (f : FedStream → FedStream) : (d.updStream dev ring f).memc = d.memc := rfl
@[simp] theorem Dev.updStream_tmb (d : Dev) (dev ring : Nat) (f : FedStream → FedStream) : (d.updStream dev ring f).tmb = d.tmb := rfl
@[simp] theorem Dev.updStream_axs (d : Dev) (dev ring : Nat) (f : FedStream → FedStream) : (d.updStream dev ring f).axs = d.axs := rfl
@[simp] theorem Dev.updStream_lgt (d : Dev) (dev ring : Nat) (f : FedStream → FedStream) : (d.updStream dev ring f).lgt = d.lgt := rfl
@[simp] theorem Dev.updStream_thm (d : Dev) (dev ring : Nat) (f : FedStream → FedStream) : (d.updStream dev ring f).thm = d.thm := rfl
@[simp] theorem Dev.updStream_cal (d : Dev) (dev ring : Nat) (f : FedStream → FedStream) : (d.updStream dev ring f).cal = d.cal := rfl
@[simp] theorem Dev.updStream_mgt (d : Dev) (dev ring : Nat) (f : FedStream → FedStream) : (d.updStream dev ring f).mgt = d.mgt := rfl
@[simp] theorem Dev.updStream_pwr (d : Dev) (dev ring : Nat) (f : FedStream → FedStream) : (d.updStream dev ring f).pwr = d.pwr := rfl

/-! ### `Dev.updBrick` -/

@[simp] theorem Dev.updBrick_regs (d : Dev) (k : Nat) (f : Brick → Brick) : (d.updBrick k f).regs = d.regs := rfl
@[simp] theorem Dev.updBrick_ev (d : Dev) (k : Nat) (f : Brick → Brick) : (d.updBrick k f).ev = d.ev := rfl
@[simp] theorem Dev.updBrick_freeCount (d : Dev) (k : Nat) (f : Brick → Brick) : (d.updBrick k f).freeCount = d.freeCount := rfl
@[simp] theorem Dev.updBrick_hst (d : Dev) (k : Nat) (f : Brick → Brick) : (d.updBrick k f).hst = d.hst := rfl
@[simp] theorem Dev.updBrick_lnk (d : Dev) (k : Nat) (f : Brick → Brick) : (d.updBrick k f).lnk = d.lnk := rfl
@[simp] theorem Dev.updBrick_msn (d : Dev) (k : Nat) (f : Brick → Brick) : (d.updBrick k f).msn = d.msn := rfl
@[simp] theorem Dev.updBrick_pth (d : Dev) (k : Nat) (f : Brick → Brick) : (d.updBrick k f).pth = d.pth := rfl
@[simp] theorem Dev.updBrick_lsr (d : Dev) (k : Nat) (f : Brick → Brick) : (d.updBrick k f).lsr = d.lsr := rfl
@[simp] theorem Dev.updBrick_mpm (d : Dev) (k : Nat) (f : Brick → Brick) : (d.updBrick k f).mpm = d.mpm := rfl
@[simp] theorem Dev.updBrick_srv (d : Dev) (k : Nat) (f : Brick → Brick) : (d.updBrick k f).srv = d.srv := rfl
@[simp] theorem Dev.updBrick_safe (d : Dev) (k : Nat) (f : Brick → Brick) : (d.updBrick k f).safe = d.safe := rfl
@[simp] theorem Dev.updBrick_cam (d : Dev) (k : Nat) (f : Brick → Brick) : (d.updBrick k f).cam = d.cam := rfl
@[simp] theorem Dev.updBrick_cdc (d : Dev) (k : Nat) (f : Brick → Brick) : (d.updBrick k f).cdc = d.cdc := rfl
@[simp] theorem Dev.updBrick_dma (d : Dev) (k : Nat) (f : Brick → Brick) : (d.updBrick k f).dma = d.dma := rfl
@[simp] theorem Dev.updBrick_memc (d : Dev) (k : Nat) (f : Brick → Brick) : (d.updBrick k f).memc = d.memc := rfl
@[simp] theorem Dev.updBrick_tmb (d : Dev) (k : Nat) (f : Brick → Brick) : (d.updBrick k f).tmb = d.tmb := rfl
@[simp] theorem Dev.updBrick_axs (d : Dev) (k : Nat) (f : Brick → Brick) : (d.updBrick k f).axs = d.axs := rfl
@[simp] theorem Dev.updBrick_lgt (d : Dev) (k : Nat) (f : Brick → Brick) : (d.updBrick k f).lgt = d.lgt := rfl
@[simp] theorem Dev.updBrick_thm (d : Dev) (k : Nat) (f : Brick → Brick) : (d.updBrick k f).thm = d.thm := rfl
@[simp] theorem Dev.updBrick_cal (d : Dev) (k : Nat) (f : Brick → Brick) : (d.updBrick k f).cal = d.cal := rfl
@[simp] theorem Dev.updBrick_mgt (d : Dev) (k : Nat) (f : Brick → Brick) : (d.updBrick k f).mgt = d.mgt := rfl
@[simp] theorem Dev.updBrick_pwr (d : Dev) (k : Nat) (f : Brick → Brick) : (d.updBrick k f).pwr = d.pwr := rfl

/-! ### `Dev.updChanCourse` -/

@[simp] theorem Dev.updChanCourse_regs (d : Dev) (n : Nat) (f : ChanCourse → ChanCourse) : (d.updChanCourse n f).regs = d.regs := rfl
@[simp] theorem Dev.updChanCourse_ev (d : Dev) (n : Nat) (f : ChanCourse → ChanCourse) : (d.updChanCourse n f).ev = d.ev := rfl
@[simp] theorem Dev.updChanCourse_freeCount (d : Dev) (n : Nat) (f : ChanCourse → ChanCourse) : (d.updChanCourse n f).freeCount = d.freeCount := rfl
@[simp] theorem Dev.updChanCourse_hst (d : Dev) (n : Nat) (f : ChanCourse → ChanCourse) : (d.updChanCourse n f).hst = d.hst := rfl
@[simp] theorem Dev.updChanCourse_lnk (d : Dev) (n : Nat) (f : ChanCourse → ChanCourse) : (d.updChanCourse n f).lnk = d.lnk := rfl
@[simp] theorem Dev.updChanCourse_msn (d : Dev) (n : Nat) (f : ChanCourse → ChanCourse) : (d.updChanCourse n f).msn = d.msn := rfl
@[simp] theorem Dev.updChanCourse_pth (d : Dev) (n : Nat) (f : ChanCourse → ChanCourse) : (d.updChanCourse n f).pth = d.pth := rfl
@[simp] theorem Dev.updChanCourse_lsr (d : Dev) (n : Nat) (f : ChanCourse → ChanCourse) : (d.updChanCourse n f).lsr = d.lsr := rfl
@[simp] theorem Dev.updChanCourse_mpm (d : Dev) (n : Nat) (f : ChanCourse → ChanCourse) : (d.updChanCourse n f).mpm = d.mpm := rfl
@[simp] theorem Dev.updChanCourse_srv (d : Dev) (n : Nat) (f : ChanCourse → ChanCourse) : (d.updChanCourse n f).srv = d.srv := rfl
@[simp] theorem Dev.updChanCourse_safe (d : Dev) (n : Nat) (f : ChanCourse → ChanCourse) : (d.updChanCourse n f).safe = d.safe := rfl
@[simp] theorem Dev.updChanCourse_cam (d : Dev) (n : Nat) (f : ChanCourse → ChanCourse) : (d.updChanCourse n f).cam = d.cam := rfl
@[simp] theorem Dev.updChanCourse_cdc (d : Dev) (n : Nat) (f : ChanCourse → ChanCourse) : (d.updChanCourse n f).cdc = d.cdc := rfl
@[simp] theorem Dev.updChanCourse_dma (d : Dev) (n : Nat) (f : ChanCourse → ChanCourse) : (d.updChanCourse n f).dma = d.dma := rfl
@[simp] theorem Dev.updChanCourse_memc (d : Dev) (n : Nat) (f : ChanCourse → ChanCourse) : (d.updChanCourse n f).memc = d.memc := rfl
@[simp] theorem Dev.updChanCourse_tmb (d : Dev) (n : Nat) (f : ChanCourse → ChanCourse) : (d.updChanCourse n f).tmb = d.tmb := rfl
@[simp] theorem Dev.updChanCourse_axs (d : Dev) (n : Nat) (f : ChanCourse → ChanCourse) : (d.updChanCourse n f).axs = d.axs := rfl
@[simp] theorem Dev.updChanCourse_lgt (d : Dev) (n : Nat) (f : ChanCourse → ChanCourse) : (d.updChanCourse n f).lgt = d.lgt := rfl
@[simp] theorem Dev.updChanCourse_thm (d : Dev) (n : Nat) (f : ChanCourse → ChanCourse) : (d.updChanCourse n f).thm = d.thm := rfl
@[simp] theorem Dev.updChanCourse_cal (d : Dev) (n : Nat) (f : ChanCourse → ChanCourse) : (d.updChanCourse n f).cal = d.cal := rfl
@[simp] theorem Dev.updChanCourse_mgt (d : Dev) (n : Nat) (f : ChanCourse → ChanCourse) : (d.updChanCourse n f).mgt = d.mgt := rfl
@[simp] theorem Dev.updChanCourse_pwr (d : Dev) (n : Nat) (f : ChanCourse → ChanCourse) : (d.updChanCourse n f).pwr = d.pwr := rfl

/-! ### `Dev.updLaser` -/

@[simp] theorem Dev.updLaser_regs (d : Dev) (n : Nat) (f : Laser → Laser) : (d.updLaser n f).regs = d.regs := rfl
@[simp] theorem Dev.updLaser_ev (d : Dev) (n : Nat) (f : Laser → Laser) : (d.updLaser n f).ev = d.ev := rfl
@[simp] theorem Dev.updLaser_freeCount (d : Dev) (n : Nat) (f : Laser → Laser) : (d.updLaser n f).freeCount = d.freeCount := rfl
@[simp] theorem Dev.updLaser_hst (d : Dev) (n : Nat) (f : Laser → Laser) : (d.updLaser n f).hst = d.hst := rfl
@[simp] theorem Dev.updLaser_lnk (d : Dev) (n : Nat) (f : Laser → Laser) : (d.updLaser n f).lnk = d.lnk := rfl
@[simp] theorem Dev.updLaser_crs (d : Dev) (n : Nat) (f : Laser → Laser) : (d.updLaser n f).crs = d.crs := rfl
@[simp] theorem Dev.updLaser_pth (d : Dev) (n : Nat) (f : Laser → Laser) : (d.updLaser n f).pth = d.pth := rfl
@[simp] theorem Dev.updLaser_lsr (d : Dev) (n : Nat) (f : Laser → Laser) : (d.updLaser n f).lsr = d.lsr := rfl
@[simp] theorem Dev.updLaser_mpm (d : Dev) (n : Nat) (f : Laser → Laser) : (d.updLaser n f).mpm = d.mpm := rfl
@[simp] theorem Dev.updLaser_srv (d : Dev) (n : Nat) (f : Laser → Laser) : (d.updLaser n f).srv = d.srv := rfl
@[simp] theorem Dev.updLaser_safe (d : Dev) (n : Nat) (f : Laser → Laser) : (d.updLaser n f).safe = d.safe := rfl
@[simp] theorem Dev.updLaser_cam (d : Dev) (n : Nat) (f : Laser → Laser) : (d.updLaser n f).cam = d.cam := rfl
@[simp] theorem Dev.updLaser_cdc (d : Dev) (n : Nat) (f : Laser → Laser) : (d.updLaser n f).cdc = d.cdc := rfl
@[simp] theorem Dev.updLaser_dma (d : Dev) (n : Nat) (f : Laser → Laser) : (d.updLaser n f).dma = d.dma := rfl
@[simp] theorem Dev.updLaser_memc (d : Dev) (n : Nat) (f : Laser → Laser) : (d.updLaser n f).memc = d.memc := rfl
@[simp] theorem Dev.updLaser_tmb (d : Dev) (n : Nat) (f : Laser → Laser) : (d.updLaser n f).tmb = d.tmb := rfl
@[simp] theorem Dev.updLaser_axs (d : Dev) (n : Nat) (f : Laser → Laser) : (d.updLaser n f).axs = d.axs := rfl
@[simp] theorem Dev.updLaser_lgt (d : Dev) (n : Nat) (f : Laser → Laser) : (d.updLaser n f).lgt = d.lgt := rfl
@[simp] theorem Dev.updLaser_thm (d : Dev) (n : Nat) (f : Laser → Laser) : (d.updLaser n f).thm = d.thm := rfl
@[simp] theorem Dev.updLaser_cal (d : Dev) (n : Nat) (f : Laser → Laser) : (d.updLaser n f).cal = d.cal := rfl
@[simp] theorem Dev.updLaser_mgt (d : Dev) (n : Nat) (f : Laser → Laser) : (d.updLaser n f).mgt = d.mgt := rfl
@[simp] theorem Dev.updLaser_pwr (d : Dev) (n : Nat) (f : Laser → Laser) : (d.updLaser n f).pwr = d.pwr := rfl

/-! ### `Dev.updPiste` -/

@[simp] theorem Dev.updPiste_regs (d : Dev) (n : Nat) (f : Piste → Piste) : (d.updPiste n f).regs = d.regs := rfl
@[simp] theorem Dev.updPiste_ev (d : Dev) (n : Nat) (f : Piste → Piste) : (d.updPiste n f).ev = d.ev := rfl
@[simp] theorem Dev.updPiste_freeCount (d : Dev) (n : Nat) (f : Piste → Piste) : (d.updPiste n f).freeCount = d.freeCount := rfl
@[simp] theorem Dev.updPiste_hst (d : Dev) (n : Nat) (f : Piste → Piste) : (d.updPiste n f).hst = d.hst := rfl
@[simp] theorem Dev.updPiste_lnk (d : Dev) (n : Nat) (f : Piste → Piste) : (d.updPiste n f).lnk = d.lnk := rfl
@[simp] theorem Dev.updPiste_crs (d : Dev) (n : Nat) (f : Piste → Piste) : (d.updPiste n f).crs = d.crs := rfl
@[simp] theorem Dev.updPiste_msn (d : Dev) (n : Nat) (f : Piste → Piste) : (d.updPiste n f).msn = d.msn := rfl
@[simp] theorem Dev.updPiste_lsr (d : Dev) (n : Nat) (f : Piste → Piste) : (d.updPiste n f).lsr = d.lsr := rfl
@[simp] theorem Dev.updPiste_mpm (d : Dev) (n : Nat) (f : Piste → Piste) : (d.updPiste n f).mpm = d.mpm := rfl
@[simp] theorem Dev.updPiste_srv (d : Dev) (n : Nat) (f : Piste → Piste) : (d.updPiste n f).srv = d.srv := rfl
@[simp] theorem Dev.updPiste_safe (d : Dev) (n : Nat) (f : Piste → Piste) : (d.updPiste n f).safe = d.safe := rfl
@[simp] theorem Dev.updPiste_cam (d : Dev) (n : Nat) (f : Piste → Piste) : (d.updPiste n f).cam = d.cam := rfl
@[simp] theorem Dev.updPiste_cdc (d : Dev) (n : Nat) (f : Piste → Piste) : (d.updPiste n f).cdc = d.cdc := rfl
@[simp] theorem Dev.updPiste_dma (d : Dev) (n : Nat) (f : Piste → Piste) : (d.updPiste n f).dma = d.dma := rfl
@[simp] theorem Dev.updPiste_memc (d : Dev) (n : Nat) (f : Piste → Piste) : (d.updPiste n f).memc = d.memc := rfl
@[simp] theorem Dev.updPiste_tmb (d : Dev) (n : Nat) (f : Piste → Piste) : (d.updPiste n f).tmb = d.tmb := rfl
@[simp] theorem Dev.updPiste_axs (d : Dev) (n : Nat) (f : Piste → Piste) : (d.updPiste n f).axs = d.axs := rfl
@[simp] theorem Dev.updPiste_lgt (d : Dev) (n : Nat) (f : Piste → Piste) : (d.updPiste n f).lgt = d.lgt := rfl
@[simp] theorem Dev.updPiste_thm (d : Dev) (n : Nat) (f : Piste → Piste) : (d.updPiste n f).thm = d.thm := rfl
@[simp] theorem Dev.updPiste_cal (d : Dev) (n : Nat) (f : Piste → Piste) : (d.updPiste n f).cal = d.cal := rfl
@[simp] theorem Dev.updPiste_mgt (d : Dev) (n : Nat) (f : Piste → Piste) : (d.updPiste n f).mgt = d.mgt := rfl
@[simp] theorem Dev.updPiste_pwr (d : Dev) (n : Nat) (f : Piste → Piste) : (d.updPiste n f).pwr = d.pwr := rfl

/-! ### `Dev.updChan` -/

@[simp] theorem Dev.updChan_regs (d : Dev) (n : Nat) (f : Chan → Chan) : (d.updChan n f).regs = d.regs := rfl
@[simp] theorem Dev.updChan_ev (d : Dev) (n : Nat) (f : Chan → Chan) : (d.updChan n f).ev = d.ev := rfl
@[simp] theorem Dev.updChan_freeCount (d : Dev) (n : Nat) (f : Chan → Chan) : (d.updChan n f).freeCount = d.freeCount := rfl
@[simp] theorem Dev.updChan_hst (d : Dev) (n : Nat) (f : Chan → Chan) : (d.updChan n f).hst = d.hst := rfl
@[simp] theorem Dev.updChan_lnk (d : Dev) (n : Nat) (f : Chan → Chan) : (d.updChan n f).lnk = d.lnk := rfl
@[simp] theorem Dev.updChan_crs (d : Dev) (n : Nat) (f : Chan → Chan) : (d.updChan n f).crs = d.crs := rfl
@[simp] theorem Dev.updChan_msn (d : Dev) (n : Nat) (f : Chan → Chan) : (d.updChan n f).msn = d.msn := rfl
@[simp] theorem Dev.updChan_pth (d : Dev) (n : Nat) (f : Chan → Chan) : (d.updChan n f).pth = d.pth := rfl
@[simp] theorem Dev.updChan_mpm (d : Dev) (n : Nat) (f : Chan → Chan) : (d.updChan n f).mpm = d.mpm := rfl
@[simp] theorem Dev.updChan_srv (d : Dev) (n : Nat) (f : Chan → Chan) : (d.updChan n f).srv = d.srv := rfl
@[simp] theorem Dev.updChan_safe (d : Dev) (n : Nat) (f : Chan → Chan) : (d.updChan n f).safe = d.safe := rfl
@[simp] theorem Dev.updChan_cam (d : Dev) (n : Nat) (f : Chan → Chan) : (d.updChan n f).cam = d.cam := rfl
@[simp] theorem Dev.updChan_cdc (d : Dev) (n : Nat) (f : Chan → Chan) : (d.updChan n f).cdc = d.cdc := rfl
@[simp] theorem Dev.updChan_dma (d : Dev) (n : Nat) (f : Chan → Chan) : (d.updChan n f).dma = d.dma := rfl
@[simp] theorem Dev.updChan_memc (d : Dev) (n : Nat) (f : Chan → Chan) : (d.updChan n f).memc = d.memc := rfl
@[simp] theorem Dev.updChan_tmb (d : Dev) (n : Nat) (f : Chan → Chan) : (d.updChan n f).tmb = d.tmb := rfl
@[simp] theorem Dev.updChan_axs (d : Dev) (n : Nat) (f : Chan → Chan) : (d.updChan n f).axs = d.axs := rfl
@[simp] theorem Dev.updChan_lgt (d : Dev) (n : Nat) (f : Chan → Chan) : (d.updChan n f).lgt = d.lgt := rfl
@[simp] theorem Dev.updChan_thm (d : Dev) (n : Nat) (f : Chan → Chan) : (d.updChan n f).thm = d.thm := rfl
@[simp] theorem Dev.updChan_cal (d : Dev) (n : Nat) (f : Chan → Chan) : (d.updChan n f).cal = d.cal := rfl
@[simp] theorem Dev.updChan_mgt (d : Dev) (n : Nat) (f : Chan → Chan) : (d.updChan n f).mgt = d.mgt := rfl
@[simp] theorem Dev.updChan_pwr (d : Dev) (n : Nat) (f : Chan → Chan) : (d.updChan n f).pwr = d.pwr := rfl

/-! ### `Dev.updMpm` -/

@[simp] theorem Dev.updMpm_regs (d : Dev) (n : Nat) (f : MpmChan → MpmChan) : (d.updMpm n f).regs = d.regs := rfl
@[simp] theorem Dev.updMpm_ev (d : Dev) (n : Nat) (f : MpmChan → MpmChan) : (d.updMpm n f).ev = d.ev := rfl
@[simp] theorem Dev.updMpm_freeCount (d : Dev) (n : Nat) (f : MpmChan → MpmChan) : (d.updMpm n f).freeCount = d.freeCount := rfl
@[simp] theorem Dev.updMpm_hst (d : Dev) (n : Nat) (f : MpmChan → MpmChan) : (d.updMpm n f).hst = d.hst := rfl
@[simp] theorem Dev.updMpm_lnk (d : Dev) (n : Nat) (f : MpmChan → MpmChan) : (d.updMpm n f).lnk = d.lnk := rfl
@[simp] theorem Dev.updMpm_crs (d : Dev) (n : Nat) (f : MpmChan → MpmChan) : (d.updMpm n f).crs = d.crs := rfl
@[simp] theorem Dev.updMpm_msn (d : Dev) (n : Nat) (f : MpmChan → MpmChan) : (d.updMpm n f).msn = d.msn := rfl
@[simp] theorem Dev.updMpm_pth (d : Dev) (n : Nat) (f : MpmChan → MpmChan) : (d.updMpm n f).pth = d.pth := rfl
@[simp] theorem Dev.updMpm_lsr (d : Dev) (n : Nat) (f : MpmChan → MpmChan) : (d.updMpm n f).lsr = d.lsr := rfl
@[simp] theorem Dev.updMpm_srv (d : Dev) (n : Nat) (f : MpmChan → MpmChan) : (d.updMpm n f).srv = d.srv := rfl
@[simp] theorem Dev.updMpm_safe (d : Dev) (n : Nat) (f : MpmChan → MpmChan) : (d.updMpm n f).safe = d.safe := rfl
@[simp] theorem Dev.updMpm_cam (d : Dev) (n : Nat) (f : MpmChan → MpmChan) : (d.updMpm n f).cam = d.cam := rfl
@[simp] theorem Dev.updMpm_cdc (d : Dev) (n : Nat) (f : MpmChan → MpmChan) : (d.updMpm n f).cdc = d.cdc := rfl
@[simp] theorem Dev.updMpm_dma (d : Dev) (n : Nat) (f : MpmChan → MpmChan) : (d.updMpm n f).dma = d.dma := rfl
@[simp] theorem Dev.updMpm_memc (d : Dev) (n : Nat) (f : MpmChan → MpmChan) : (d.updMpm n f).memc = d.memc := rfl
@[simp] theorem Dev.updMpm_tmb (d : Dev) (n : Nat) (f : MpmChan → MpmChan) : (d.updMpm n f).tmb = d.tmb := rfl
@[simp] theorem Dev.updMpm_axs (d : Dev) (n : Nat) (f : MpmChan → MpmChan) : (d.updMpm n f).axs = d.axs := rfl
@[simp] theorem Dev.updMpm_lgt (d : Dev) (n : Nat) (f : MpmChan → MpmChan) : (d.updMpm n f).lgt = d.lgt := rfl
@[simp] theorem Dev.updMpm_thm (d : Dev) (n : Nat) (f : MpmChan → MpmChan) : (d.updMpm n f).thm = d.thm := rfl
@[simp] theorem Dev.updMpm_cal (d : Dev) (n : Nat) (f : MpmChan → MpmChan) : (d.updMpm n f).cal = d.cal := rfl
@[simp] theorem Dev.updMpm_mgt (d : Dev) (n : Nat) (f : MpmChan → MpmChan) : (d.updMpm n f).mgt = d.mgt := rfl
@[simp] theorem Dev.updMpm_pwr (d : Dev) (n : Nat) (f : MpmChan → MpmChan) : (d.updMpm n f).pwr = d.pwr := rfl

/-! ### `Dev.updAxis` -/

@[simp] theorem Dev.updAxis_regs (d : Dev) (a : Nat) (f : Axis → Axis) : (d.updAxis a f).regs = d.regs := rfl
@[simp] theorem Dev.updAxis_ev (d : Dev) (a : Nat) (f : Axis → Axis) : (d.updAxis a f).ev = d.ev := rfl
@[simp] theorem Dev.updAxis_freeCount (d : Dev) (a : Nat) (f : Axis → Axis) : (d.updAxis a f).freeCount = d.freeCount := rfl
@[simp] theorem Dev.updAxis_hst (d : Dev) (a : Nat) (f : Axis → Axis) : (d.updAxis a f).hst = d.hst := rfl
@[simp] theorem Dev.updAxis_lnk (d : Dev) (a : Nat) (f : Axis → Axis) : (d.updAxis a f).lnk = d.lnk := rfl
@[simp] theorem Dev.updAxis_crs (d : Dev) (a : Nat) (f : Axis → Axis) : (d.updAxis a f).crs = d.crs := rfl
@[simp] theorem Dev.updAxis_msn (d : Dev) (a : Nat) (f : Axis → Axis) : (d.updAxis a f).msn = d.msn := rfl
@[simp] theorem Dev.updAxis_pth (d : Dev) (a : Nat) (f : Axis → Axis) : (d.updAxis a f).pth = d.pth := rfl
@[simp] theorem Dev.updAxis_lsr (d : Dev) (a : Nat) (f : Axis → Axis) : (d.updAxis a f).lsr = d.lsr := rfl
@[simp] theorem Dev.updAxis_mpm (d : Dev) (a : Nat) (f : Axis → Axis) : (d.updAxis a f).mpm = d.mpm := rfl
@[simp] theorem Dev.updAxis_safe (d : Dev) (a : Nat) (f : Axis → Axis) : (d.updAxis a f).safe = d.safe := rfl
@[simp] theorem Dev.updAxis_cam (d : Dev) (a : Nat) (f : Axis → Axis) : (d.updAxis a f).cam = d.cam := rfl
@[simp] theorem Dev.updAxis_cdc (d : Dev) (a : Nat) (f : Axis → Axis) : (d.updAxis a f).cdc = d.cdc := rfl
@[simp] theorem Dev.updAxis_dma (d : Dev) (a : Nat) (f : Axis → Axis) : (d.updAxis a f).dma = d.dma := rfl
@[simp] theorem Dev.updAxis_memc (d : Dev) (a : Nat) (f : Axis → Axis) : (d.updAxis a f).memc = d.memc := rfl
@[simp] theorem Dev.updAxis_tmb (d : Dev) (a : Nat) (f : Axis → Axis) : (d.updAxis a f).tmb = d.tmb := rfl
@[simp] theorem Dev.updAxis_axs (d : Dev) (a : Nat) (f : Axis → Axis) : (d.updAxis a f).axs = d.axs := rfl
@[simp] theorem Dev.updAxis_lgt (d : Dev) (a : Nat) (f : Axis → Axis) : (d.updAxis a f).lgt = d.lgt := rfl
@[simp] theorem Dev.updAxis_thm (d : Dev) (a : Nat) (f : Axis → Axis) : (d.updAxis a f).thm = d.thm := rfl
@[simp] theorem Dev.updAxis_cal (d : Dev) (a : Nat) (f : Axis → Axis) : (d.updAxis a f).cal = d.cal := rfl
@[simp] theorem Dev.updAxis_mgt (d : Dev) (a : Nat) (f : Axis → Axis) : (d.updAxis a f).mgt = d.mgt := rfl
@[simp] theorem Dev.updAxis_pwr (d : Dev) (a : Nat) (f : Axis → Axis) : (d.updAxis a f).pwr = d.pwr := rfl

/-! ### `Dev.updCport` -/

@[simp] theorem Dev.updCport_regs (d : Dev) (c : Nat) (f : CamPort → CamPort) : (d.updCport c f).regs = d.regs := rfl
@[simp] theorem Dev.updCport_ev (d : Dev) (c : Nat) (f : CamPort → CamPort) : (d.updCport c f).ev = d.ev := rfl
@[simp] theorem Dev.updCport_freeCount (d : Dev) (c : Nat) (f : CamPort → CamPort) : (d.updCport c f).freeCount = d.freeCount := rfl
@[simp] theorem Dev.updCport_hst (d : Dev) (c : Nat) (f : CamPort → CamPort) : (d.updCport c f).hst = d.hst := rfl
@[simp] theorem Dev.updCport_lnk (d : Dev) (c : Nat) (f : CamPort → CamPort) : (d.updCport c f).lnk = d.lnk := rfl
@[simp] theorem Dev.updCport_crs (d : Dev) (c : Nat) (f : CamPort → CamPort) : (d.updCport c f).crs = d.crs := rfl
@[simp] theorem Dev.updCport_msn (d : Dev) (c : Nat) (f : CamPort → CamPort) : (d.updCport c f).msn = d.msn := rfl
@[simp] theorem Dev.updCport_pth (d : Dev) (c : Nat) (f : CamPort → CamPort) : (d.updCport c f).pth = d.pth := rfl
@[simp] theorem Dev.updCport_lsr (d : Dev) (c : Nat) (f : CamPort → CamPort) : (d.updCport c f).lsr = d.lsr := rfl
@[simp] theorem Dev.updCport_mpm (d : Dev) (c : Nat) (f : CamPort → CamPort) : (d.updCport c f).mpm = d.mpm := rfl
@[simp] theorem Dev.updCport_srv (d : Dev) (c : Nat) (f : CamPort → CamPort) : (d.updCport c f).srv = d.srv := rfl
@[simp] theorem Dev.updCport_safe (d : Dev) (c : Nat) (f : CamPort → CamPort) : (d.updCport c f).safe = d.safe := rfl
@[simp] theorem Dev.updCport_cdc (d : Dev) (c : Nat) (f : CamPort → CamPort) : (d.updCport c f).cdc = d.cdc := rfl
@[simp] theorem Dev.updCport_dma (d : Dev) (c : Nat) (f : CamPort → CamPort) : (d.updCport c f).dma = d.dma := rfl
@[simp] theorem Dev.updCport_memc (d : Dev) (c : Nat) (f : CamPort → CamPort) : (d.updCport c f).memc = d.memc := rfl
@[simp] theorem Dev.updCport_tmb (d : Dev) (c : Nat) (f : CamPort → CamPort) : (d.updCport c f).tmb = d.tmb := rfl
@[simp] theorem Dev.updCport_axs (d : Dev) (c : Nat) (f : CamPort → CamPort) : (d.updCport c f).axs = d.axs := rfl
@[simp] theorem Dev.updCport_lgt (d : Dev) (c : Nat) (f : CamPort → CamPort) : (d.updCport c f).lgt = d.lgt := rfl
@[simp] theorem Dev.updCport_thm (d : Dev) (c : Nat) (f : CamPort → CamPort) : (d.updCport c f).thm = d.thm := rfl
@[simp] theorem Dev.updCport_cal (d : Dev) (c : Nat) (f : CamPort → CamPort) : (d.updCport c f).cal = d.cal := rfl
@[simp] theorem Dev.updCport_mgt (d : Dev) (c : Nat) (f : CamPort → CamPort) : (d.updCport c f).mgt = d.mgt := rfl
@[simp] theorem Dev.updCport_pwr (d : Dev) (c : Nat) (f : CamPort → CamPort) : (d.updCport c f).pwr = d.pwr := rfl

/-! ### `Dev.updEngine` -/

@[simp] theorem Dev.updEngine_regs (d : Dev) (e : Nat) (f : CamEngine → CamEngine) : (d.updEngine e f).regs = d.regs := rfl
@[simp] theorem Dev.updEngine_ev (d : Dev) (e : Nat) (f : CamEngine → CamEngine) : (d.updEngine e f).ev = d.ev := rfl
@[simp] theorem Dev.updEngine_freeCount (d : Dev) (e : Nat) (f : CamEngine → CamEngine) : (d.updEngine e f).freeCount = d.freeCount := rfl
@[simp] theorem Dev.updEngine_hst (d : Dev) (e : Nat) (f : CamEngine → CamEngine) : (d.updEngine e f).hst = d.hst := rfl
@[simp] theorem Dev.updEngine_lnk (d : Dev) (e : Nat) (f : CamEngine → CamEngine) : (d.updEngine e f).lnk = d.lnk := rfl
@[simp] theorem Dev.updEngine_crs (d : Dev) (e : Nat) (f : CamEngine → CamEngine) : (d.updEngine e f).crs = d.crs := rfl
@[simp] theorem Dev.updEngine_msn (d : Dev) (e : Nat) (f : CamEngine → CamEngine) : (d.updEngine e f).msn = d.msn := rfl
@[simp] theorem Dev.updEngine_pth (d : Dev) (e : Nat) (f : CamEngine → CamEngine) : (d.updEngine e f).pth = d.pth := rfl
@[simp] theorem Dev.updEngine_lsr (d : Dev) (e : Nat) (f : CamEngine → CamEngine) : (d.updEngine e f).lsr = d.lsr := rfl
@[simp] theorem Dev.updEngine_mpm (d : Dev) (e : Nat) (f : CamEngine → CamEngine) : (d.updEngine e f).mpm = d.mpm := rfl
@[simp] theorem Dev.updEngine_srv (d : Dev) (e : Nat) (f : CamEngine → CamEngine) : (d.updEngine e f).srv = d.srv := rfl
@[simp] theorem Dev.updEngine_safe (d : Dev) (e : Nat) (f : CamEngine → CamEngine) : (d.updEngine e f).safe = d.safe := rfl
@[simp] theorem Dev.updEngine_cdc (d : Dev) (e : Nat) (f : CamEngine → CamEngine) : (d.updEngine e f).cdc = d.cdc := rfl
@[simp] theorem Dev.updEngine_dma (d : Dev) (e : Nat) (f : CamEngine → CamEngine) : (d.updEngine e f).dma = d.dma := rfl
@[simp] theorem Dev.updEngine_memc (d : Dev) (e : Nat) (f : CamEngine → CamEngine) : (d.updEngine e f).memc = d.memc := rfl
@[simp] theorem Dev.updEngine_tmb (d : Dev) (e : Nat) (f : CamEngine → CamEngine) : (d.updEngine e f).tmb = d.tmb := rfl
@[simp] theorem Dev.updEngine_axs (d : Dev) (e : Nat) (f : CamEngine → CamEngine) : (d.updEngine e f).axs = d.axs := rfl
@[simp] theorem Dev.updEngine_lgt (d : Dev) (e : Nat) (f : CamEngine → CamEngine) : (d.updEngine e f).lgt = d.lgt := rfl
@[simp] theorem Dev.updEngine_thm (d : Dev) (e : Nat) (f : CamEngine → CamEngine) : (d.updEngine e f).thm = d.thm := rfl
@[simp] theorem Dev.updEngine_cal (d : Dev) (e : Nat) (f : CamEngine → CamEngine) : (d.updEngine e f).cal = d.cal := rfl
@[simp] theorem Dev.updEngine_mgt (d : Dev) (e : Nat) (f : CamEngine → CamEngine) : (d.updEngine e f).mgt = d.mgt := rfl
@[simp] theorem Dev.updEngine_pwr (d : Dev) (e : Nat) (f : CamEngine → CamEngine) : (d.updEngine e f).pwr = d.pwr := rfl

/-! ### `Dev.updMover` -/

@[simp] theorem Dev.updMover_regs (d : Dev) (c : Nat) (f : DmaChan → DmaChan) : (d.updMover c f).regs = d.regs := rfl
@[simp] theorem Dev.updMover_ev (d : Dev) (c : Nat) (f : DmaChan → DmaChan) : (d.updMover c f).ev = d.ev := rfl
@[simp] theorem Dev.updMover_freeCount (d : Dev) (c : Nat) (f : DmaChan → DmaChan) : (d.updMover c f).freeCount = d.freeCount := rfl
@[simp] theorem Dev.updMover_hst (d : Dev) (c : Nat) (f : DmaChan → DmaChan) : (d.updMover c f).hst = d.hst := rfl
@[simp] theorem Dev.updMover_lnk (d : Dev) (c : Nat) (f : DmaChan → DmaChan) : (d.updMover c f).lnk = d.lnk := rfl
@[simp] theorem Dev.updMover_crs (d : Dev) (c : Nat) (f : DmaChan → DmaChan) : (d.updMover c f).crs = d.crs := rfl
@[simp] theorem Dev.updMover_msn (d : Dev) (c : Nat) (f : DmaChan → DmaChan) : (d.updMover c f).msn = d.msn := rfl
@[simp] theorem Dev.updMover_pth (d : Dev) (c : Nat) (f : DmaChan → DmaChan) : (d.updMover c f).pth = d.pth := rfl
@[simp] theorem Dev.updMover_lsr (d : Dev) (c : Nat) (f : DmaChan → DmaChan) : (d.updMover c f).lsr = d.lsr := rfl
@[simp] theorem Dev.updMover_mpm (d : Dev) (c : Nat) (f : DmaChan → DmaChan) : (d.updMover c f).mpm = d.mpm := rfl
@[simp] theorem Dev.updMover_srv (d : Dev) (c : Nat) (f : DmaChan → DmaChan) : (d.updMover c f).srv = d.srv := rfl
@[simp] theorem Dev.updMover_safe (d : Dev) (c : Nat) (f : DmaChan → DmaChan) : (d.updMover c f).safe = d.safe := rfl
@[simp] theorem Dev.updMover_cam (d : Dev) (c : Nat) (f : DmaChan → DmaChan) : (d.updMover c f).cam = d.cam := rfl
@[simp] theorem Dev.updMover_cdc (d : Dev) (c : Nat) (f : DmaChan → DmaChan) : (d.updMover c f).cdc = d.cdc := rfl
@[simp] theorem Dev.updMover_memc (d : Dev) (c : Nat) (f : DmaChan → DmaChan) : (d.updMover c f).memc = d.memc := rfl
@[simp] theorem Dev.updMover_tmb (d : Dev) (c : Nat) (f : DmaChan → DmaChan) : (d.updMover c f).tmb = d.tmb := rfl
@[simp] theorem Dev.updMover_axs (d : Dev) (c : Nat) (f : DmaChan → DmaChan) : (d.updMover c f).axs = d.axs := rfl
@[simp] theorem Dev.updMover_lgt (d : Dev) (c : Nat) (f : DmaChan → DmaChan) : (d.updMover c f).lgt = d.lgt := rfl
@[simp] theorem Dev.updMover_thm (d : Dev) (c : Nat) (f : DmaChan → DmaChan) : (d.updMover c f).thm = d.thm := rfl
@[simp] theorem Dev.updMover_cal (d : Dev) (c : Nat) (f : DmaChan → DmaChan) : (d.updMover c f).cal = d.cal := rfl
@[simp] theorem Dev.updMover_mgt (d : Dev) (c : Nat) (f : DmaChan → DmaChan) : (d.updMover c f).mgt = d.mgt := rfl
@[simp] theorem Dev.updMover_pwr (d : Dev) (c : Nat) (f : DmaChan → DmaChan) : (d.updMover c f).pwr = d.pwr := rfl

/-! ### `Dev.updDdr` -/

@[simp] theorem Dev.updDdr_regs (d : Dev) (c : Nat) (f : Ddr → Ddr) : (d.updDdr c f).regs = d.regs := rfl
@[simp] theorem Dev.updDdr_ev (d : Dev) (c : Nat) (f : Ddr → Ddr) : (d.updDdr c f).ev = d.ev := rfl
@[simp] theorem Dev.updDdr_freeCount (d : Dev) (c : Nat) (f : Ddr → Ddr) : (d.updDdr c f).freeCount = d.freeCount := rfl
@[simp] theorem Dev.updDdr_hst (d : Dev) (c : Nat) (f : Ddr → Ddr) : (d.updDdr c f).hst = d.hst := rfl
@[simp] theorem Dev.updDdr_lnk (d : Dev) (c : Nat) (f : Ddr → Ddr) : (d.updDdr c f).lnk = d.lnk := rfl
@[simp] theorem Dev.updDdr_crs (d : Dev) (c : Nat) (f : Ddr → Ddr) : (d.updDdr c f).crs = d.crs := rfl
@[simp] theorem Dev.updDdr_msn (d : Dev) (c : Nat) (f : Ddr → Ddr) : (d.updDdr c f).msn = d.msn := rfl
@[simp] theorem Dev.updDdr_pth (d : Dev) (c : Nat) (f : Ddr → Ddr) : (d.updDdr c f).pth = d.pth := rfl
@[simp] theorem Dev.updDdr_lsr (d : Dev) (c : Nat) (f : Ddr → Ddr) : (d.updDdr c f).lsr = d.lsr := rfl
@[simp] theorem Dev.updDdr_mpm (d : Dev) (c : Nat) (f : Ddr → Ddr) : (d.updDdr c f).mpm = d.mpm := rfl
@[simp] theorem Dev.updDdr_srv (d : Dev) (c : Nat) (f : Ddr → Ddr) : (d.updDdr c f).srv = d.srv := rfl
@[simp] theorem Dev.updDdr_safe (d : Dev) (c : Nat) (f : Ddr → Ddr) : (d.updDdr c f).safe = d.safe := rfl
@[simp] theorem Dev.updDdr_cam (d : Dev) (c : Nat) (f : Ddr → Ddr) : (d.updDdr c f).cam = d.cam := rfl
@[simp] theorem Dev.updDdr_cdc (d : Dev) (c : Nat) (f : Ddr → Ddr) : (d.updDdr c f).cdc = d.cdc := rfl
@[simp] theorem Dev.updDdr_dma (d : Dev) (c : Nat) (f : Ddr → Ddr) : (d.updDdr c f).dma = d.dma := rfl
@[simp] theorem Dev.updDdr_tmb (d : Dev) (c : Nat) (f : Ddr → Ddr) : (d.updDdr c f).tmb = d.tmb := rfl
@[simp] theorem Dev.updDdr_axs (d : Dev) (c : Nat) (f : Ddr → Ddr) : (d.updDdr c f).axs = d.axs := rfl
@[simp] theorem Dev.updDdr_lgt (d : Dev) (c : Nat) (f : Ddr → Ddr) : (d.updDdr c f).lgt = d.lgt := rfl
@[simp] theorem Dev.updDdr_thm (d : Dev) (c : Nat) (f : Ddr → Ddr) : (d.updDdr c f).thm = d.thm := rfl
@[simp] theorem Dev.updDdr_cal (d : Dev) (c : Nat) (f : Ddr → Ddr) : (d.updDdr c f).cal = d.cal := rfl
@[simp] theorem Dev.updDdr_mgt (d : Dev) (c : Nat) (f : Ddr → Ddr) : (d.updDdr c f).mgt = d.mgt := rfl
@[simp] theorem Dev.updDdr_pwr (d : Dev) (c : Nat) (f : Ddr → Ddr) : (d.updDdr c f).pwr = d.pwr := rfl

/-! ### `Dev.updStepper` -/

@[simp] theorem Dev.updStepper_regs (d : Dev) (m : Nat) (f : AxsAxis → AxsAxis) : (d.updStepper m f).regs = d.regs := rfl
@[simp] theorem Dev.updStepper_ev (d : Dev) (m : Nat) (f : AxsAxis → AxsAxis) : (d.updStepper m f).ev = d.ev := rfl
@[simp] theorem Dev.updStepper_freeCount (d : Dev) (m : Nat) (f : AxsAxis → AxsAxis) : (d.updStepper m f).freeCount = d.freeCount := rfl
@[simp] theorem Dev.updStepper_hst (d : Dev) (m : Nat) (f : AxsAxis → AxsAxis) : (d.updStepper m f).hst = d.hst := rfl
@[simp] theorem Dev.updStepper_lnk (d : Dev) (m : Nat) (f : AxsAxis → AxsAxis) : (d.updStepper m f).lnk = d.lnk := rfl
@[simp] theorem Dev.updStepper_crs (d : Dev) (m : Nat) (f : AxsAxis → AxsAxis) : (d.updStepper m f).crs = d.crs := rfl
@[simp] theorem Dev.updStepper_msn (d : Dev) (m : Nat) (f : AxsAxis → AxsAxis) : (d.updStepper m f).msn = d.msn := rfl
@[simp] theorem Dev.updStepper_pth (d : Dev) (m : Nat) (f : AxsAxis → AxsAxis) : (d.updStepper m f).pth = d.pth := rfl
@[simp] theorem Dev.updStepper_lsr (d : Dev) (m : Nat) (f : AxsAxis → AxsAxis) : (d.updStepper m f).lsr = d.lsr := rfl
@[simp] theorem Dev.updStepper_mpm (d : Dev) (m : Nat) (f : AxsAxis → AxsAxis) : (d.updStepper m f).mpm = d.mpm := rfl
@[simp] theorem Dev.updStepper_srv (d : Dev) (m : Nat) (f : AxsAxis → AxsAxis) : (d.updStepper m f).srv = d.srv := rfl
@[simp] theorem Dev.updStepper_safe (d : Dev) (m : Nat) (f : AxsAxis → AxsAxis) : (d.updStepper m f).safe = d.safe := rfl
@[simp] theorem Dev.updStepper_cam (d : Dev) (m : Nat) (f : AxsAxis → AxsAxis) : (d.updStepper m f).cam = d.cam := rfl
@[simp] theorem Dev.updStepper_cdc (d : Dev) (m : Nat) (f : AxsAxis → AxsAxis) : (d.updStepper m f).cdc = d.cdc := rfl
@[simp] theorem Dev.updStepper_dma (d : Dev) (m : Nat) (f : AxsAxis → AxsAxis) : (d.updStepper m f).dma = d.dma := rfl
@[simp] theorem Dev.updStepper_memc (d : Dev) (m : Nat) (f : AxsAxis → AxsAxis) : (d.updStepper m f).memc = d.memc := rfl
@[simp] theorem Dev.updStepper_tmb (d : Dev) (m : Nat) (f : AxsAxis → AxsAxis) : (d.updStepper m f).tmb = d.tmb := rfl
@[simp] theorem Dev.updStepper_lgt (d : Dev) (m : Nat) (f : AxsAxis → AxsAxis) : (d.updStepper m f).lgt = d.lgt := rfl
@[simp] theorem Dev.updStepper_thm (d : Dev) (m : Nat) (f : AxsAxis → AxsAxis) : (d.updStepper m f).thm = d.thm := rfl
@[simp] theorem Dev.updStepper_cal (d : Dev) (m : Nat) (f : AxsAxis → AxsAxis) : (d.updStepper m f).cal = d.cal := rfl
@[simp] theorem Dev.updStepper_mgt (d : Dev) (m : Nat) (f : AxsAxis → AxsAxis) : (d.updStepper m f).mgt = d.mgt := rfl
@[simp] theorem Dev.updStepper_pwr (d : Dev) (m : Nat) (f : AxsAxis → AxsAxis) : (d.updStepper m f).pwr = d.pwr := rfl

/-! ### `Dev.updMoves` -/

@[simp] theorem Dev.updMoves_regs (d : Dev) (mask : Nat) (f : AxMove → AxMove) : (d.updMoves mask f).regs = d.regs := rfl
@[simp] theorem Dev.updMoves_ev (d : Dev) (mask : Nat) (f : AxMove → AxMove) : (d.updMoves mask f).ev = d.ev := rfl
@[simp] theorem Dev.updMoves_freeCount (d : Dev) (mask : Nat) (f : AxMove → AxMove) : (d.updMoves mask f).freeCount = d.freeCount := rfl
@[simp] theorem Dev.updMoves_hst (d : Dev) (mask : Nat) (f : AxMove → AxMove) : (d.updMoves mask f).hst = d.hst := rfl
@[simp] theorem Dev.updMoves_lnk (d : Dev) (mask : Nat) (f : AxMove → AxMove) : (d.updMoves mask f).lnk = d.lnk := rfl
@[simp] theorem Dev.updMoves_crs (d : Dev) (mask : Nat) (f : AxMove → AxMove) : (d.updMoves mask f).crs = d.crs := rfl
@[simp] theorem Dev.updMoves_msn (d : Dev) (mask : Nat) (f : AxMove → AxMove) : (d.updMoves mask f).msn = d.msn := rfl
@[simp] theorem Dev.updMoves_pth (d : Dev) (mask : Nat) (f : AxMove → AxMove) : (d.updMoves mask f).pth = d.pth := rfl
@[simp] theorem Dev.updMoves_lsr (d : Dev) (mask : Nat) (f : AxMove → AxMove) : (d.updMoves mask f).lsr = d.lsr := rfl
@[simp] theorem Dev.updMoves_mpm (d : Dev) (mask : Nat) (f : AxMove → AxMove) : (d.updMoves mask f).mpm = d.mpm := rfl
@[simp] theorem Dev.updMoves_srv (d : Dev) (mask : Nat) (f : AxMove → AxMove) : (d.updMoves mask f).srv = d.srv := rfl
@[simp] theorem Dev.updMoves_safe (d : Dev) (mask : Nat) (f : AxMove → AxMove) : (d.updMoves mask f).safe = d.safe := rfl
@[simp] theorem Dev.updMoves_cam (d : Dev) (mask : Nat) (f : AxMove → AxMove) : (d.updMoves mask f).cam = d.cam := rfl
@[simp] theorem Dev.updMoves_cdc (d : Dev) (mask : Nat) (f : AxMove → AxMove) : (d.updMoves mask f).cdc = d.cdc := rfl
@[simp] theorem Dev.updMoves_dma (d : Dev) (mask : Nat) (f : AxMove → AxMove) : (d.updMoves mask f).dma = d.dma := rfl
@[simp] theorem Dev.updMoves_memc (d : Dev) (mask : Nat) (f : AxMove → AxMove) : (d.updMoves mask f).memc = d.memc := rfl
@[simp] theorem Dev.updMoves_tmb (d : Dev) (mask : Nat) (f : AxMove → AxMove) : (d.updMoves mask f).tmb = d.tmb := rfl
@[simp] theorem Dev.updMoves_lgt (d : Dev) (mask : Nat) (f : AxMove → AxMove) : (d.updMoves mask f).lgt = d.lgt := rfl
@[simp] theorem Dev.updMoves_thm (d : Dev) (mask : Nat) (f : AxMove → AxMove) : (d.updMoves mask f).thm = d.thm := rfl
@[simp] theorem Dev.updMoves_cal (d : Dev) (mask : Nat) (f : AxMove → AxMove) : (d.updMoves mask f).cal = d.cal := rfl
@[simp] theorem Dev.updMoves_mgt (d : Dev) (mask : Nat) (f : AxMove → AxMove) : (d.updMoves mask f).mgt = d.mgt := rfl
@[simp] theorem Dev.updMoves_pwr (d : Dev) (mask : Nat) (f : AxMove → AxMove) : (d.updMoves mask f).pwr = d.pwr := rfl

/-! ### `Dev.updLight` -/

@[simp] theorem Dev.updLight_regs (d : Dev) (i : Nat) (f : LightCh → LightCh) : (d.updLight i f).regs = d.regs := rfl
@[simp] theorem Dev.updLight_ev (d : Dev) (i : Nat) (f : LightCh → LightCh) : (d.updLight i f).ev = d.ev := rfl
@[simp] theorem Dev.updLight_freeCount (d : Dev) (i : Nat) (f : LightCh → LightCh) : (d.updLight i f).freeCount = d.freeCount := rfl
@[simp] theorem Dev.updLight_hst (d : Dev) (i : Nat) (f : LightCh → LightCh) : (d.updLight i f).hst = d.hst := rfl
@[simp] theorem Dev.updLight_lnk (d : Dev) (i : Nat) (f : LightCh → LightCh) : (d.updLight i f).lnk = d.lnk := rfl
@[simp] theorem Dev.updLight_crs (d : Dev) (i : Nat) (f : LightCh → LightCh) : (d.updLight i f).crs = d.crs := rfl
@[simp] theorem Dev.updLight_msn (d : Dev) (i : Nat) (f : LightCh → LightCh) : (d.updLight i f).msn = d.msn := rfl
@[simp] theorem Dev.updLight_pth (d : Dev) (i : Nat) (f : LightCh → LightCh) : (d.updLight i f).pth = d.pth := rfl
@[simp] theorem Dev.updLight_lsr (d : Dev) (i : Nat) (f : LightCh → LightCh) : (d.updLight i f).lsr = d.lsr := rfl
@[simp] theorem Dev.updLight_mpm (d : Dev) (i : Nat) (f : LightCh → LightCh) : (d.updLight i f).mpm = d.mpm := rfl
@[simp] theorem Dev.updLight_srv (d : Dev) (i : Nat) (f : LightCh → LightCh) : (d.updLight i f).srv = d.srv := rfl
@[simp] theorem Dev.updLight_safe (d : Dev) (i : Nat) (f : LightCh → LightCh) : (d.updLight i f).safe = d.safe := rfl
@[simp] theorem Dev.updLight_cam (d : Dev) (i : Nat) (f : LightCh → LightCh) : (d.updLight i f).cam = d.cam := rfl
@[simp] theorem Dev.updLight_cdc (d : Dev) (i : Nat) (f : LightCh → LightCh) : (d.updLight i f).cdc = d.cdc := rfl
@[simp] theorem Dev.updLight_dma (d : Dev) (i : Nat) (f : LightCh → LightCh) : (d.updLight i f).dma = d.dma := rfl
@[simp] theorem Dev.updLight_memc (d : Dev) (i : Nat) (f : LightCh → LightCh) : (d.updLight i f).memc = d.memc := rfl
@[simp] theorem Dev.updLight_tmb (d : Dev) (i : Nat) (f : LightCh → LightCh) : (d.updLight i f).tmb = d.tmb := rfl
@[simp] theorem Dev.updLight_axs (d : Dev) (i : Nat) (f : LightCh → LightCh) : (d.updLight i f).axs = d.axs := rfl
@[simp] theorem Dev.updLight_thm (d : Dev) (i : Nat) (f : LightCh → LightCh) : (d.updLight i f).thm = d.thm := rfl
@[simp] theorem Dev.updLight_cal (d : Dev) (i : Nat) (f : LightCh → LightCh) : (d.updLight i f).cal = d.cal := rfl
@[simp] theorem Dev.updLight_mgt (d : Dev) (i : Nat) (f : LightCh → LightCh) : (d.updLight i f).mgt = d.mgt := rfl
@[simp] theorem Dev.updLight_pwr (d : Dev) (i : Nat) (f : LightCh → LightCh) : (d.updLight i f).pwr = d.pwr := rfl

/-! ### `Dev.updSens` -/

@[simp] theorem Dev.updSens_regs (d : Dev) (n : Nat) (f : Sensor → Sensor) : (d.updSens n f).regs = d.regs := rfl
@[simp] theorem Dev.updSens_ev (d : Dev) (n : Nat) (f : Sensor → Sensor) : (d.updSens n f).ev = d.ev := rfl
@[simp] theorem Dev.updSens_freeCount (d : Dev) (n : Nat) (f : Sensor → Sensor) : (d.updSens n f).freeCount = d.freeCount := rfl
@[simp] theorem Dev.updSens_hst (d : Dev) (n : Nat) (f : Sensor → Sensor) : (d.updSens n f).hst = d.hst := rfl
@[simp] theorem Dev.updSens_lnk (d : Dev) (n : Nat) (f : Sensor → Sensor) : (d.updSens n f).lnk = d.lnk := rfl
@[simp] theorem Dev.updSens_crs (d : Dev) (n : Nat) (f : Sensor → Sensor) : (d.updSens n f).crs = d.crs := rfl
@[simp] theorem Dev.updSens_msn (d : Dev) (n : Nat) (f : Sensor → Sensor) : (d.updSens n f).msn = d.msn := rfl
@[simp] theorem Dev.updSens_pth (d : Dev) (n : Nat) (f : Sensor → Sensor) : (d.updSens n f).pth = d.pth := rfl
@[simp] theorem Dev.updSens_lsr (d : Dev) (n : Nat) (f : Sensor → Sensor) : (d.updSens n f).lsr = d.lsr := rfl
@[simp] theorem Dev.updSens_mpm (d : Dev) (n : Nat) (f : Sensor → Sensor) : (d.updSens n f).mpm = d.mpm := rfl
@[simp] theorem Dev.updSens_srv (d : Dev) (n : Nat) (f : Sensor → Sensor) : (d.updSens n f).srv = d.srv := rfl
@[simp] theorem Dev.updSens_safe (d : Dev) (n : Nat) (f : Sensor → Sensor) : (d.updSens n f).safe = d.safe := rfl
@[simp] theorem Dev.updSens_cam (d : Dev) (n : Nat) (f : Sensor → Sensor) : (d.updSens n f).cam = d.cam := rfl
@[simp] theorem Dev.updSens_cdc (d : Dev) (n : Nat) (f : Sensor → Sensor) : (d.updSens n f).cdc = d.cdc := rfl
@[simp] theorem Dev.updSens_dma (d : Dev) (n : Nat) (f : Sensor → Sensor) : (d.updSens n f).dma = d.dma := rfl
@[simp] theorem Dev.updSens_memc (d : Dev) (n : Nat) (f : Sensor → Sensor) : (d.updSens n f).memc = d.memc := rfl
@[simp] theorem Dev.updSens_tmb (d : Dev) (n : Nat) (f : Sensor → Sensor) : (d.updSens n f).tmb = d.tmb := rfl
@[simp] theorem Dev.updSens_axs (d : Dev) (n : Nat) (f : Sensor → Sensor) : (d.updSens n f).axs = d.axs := rfl
@[simp] theorem Dev.updSens_lgt (d : Dev) (n : Nat) (f : Sensor → Sensor) : (d.updSens n f).lgt = d.lgt := rfl
@[simp] theorem Dev.updSens_cal (d : Dev) (n : Nat) (f : Sensor → Sensor) : (d.updSens n f).cal = d.cal := rfl
@[simp] theorem Dev.updSens_mgt (d : Dev) (n : Nat) (f : Sensor → Sensor) : (d.updSens n f).mgt = d.mgt := rfl
@[simp] theorem Dev.updSens_pwr (d : Dev) (n : Nat) (f : Sensor → Sensor) : (d.updSens n f).pwr = d.pwr := rfl

/-! ### `Dev.updSeam` -/

@[simp] theorem Dev.updSeam_regs (d : Dev) (s : Seam) (f : Seam → Seam) : (d.updSeam s f).regs = d.regs := rfl
@[simp] theorem Dev.updSeam_ev (d : Dev) (s : Seam) (f : Seam → Seam) : (d.updSeam s f).ev = d.ev := rfl
@[simp] theorem Dev.updSeam_freeCount (d : Dev) (s : Seam) (f : Seam → Seam) : (d.updSeam s f).freeCount = d.freeCount := rfl
@[simp] theorem Dev.updSeam_hst (d : Dev) (s : Seam) (f : Seam → Seam) : (d.updSeam s f).hst = d.hst := rfl
@[simp] theorem Dev.updSeam_lnk (d : Dev) (s : Seam) (f : Seam → Seam) : (d.updSeam s f).lnk = d.lnk := rfl
@[simp] theorem Dev.updSeam_crs (d : Dev) (s : Seam) (f : Seam → Seam) : (d.updSeam s f).crs = d.crs := rfl
@[simp] theorem Dev.updSeam_msn (d : Dev) (s : Seam) (f : Seam → Seam) : (d.updSeam s f).msn = d.msn := rfl
@[simp] theorem Dev.updSeam_lsr (d : Dev) (s : Seam) (f : Seam → Seam) : (d.updSeam s f).lsr = d.lsr := rfl
@[simp] theorem Dev.updSeam_mpm (d : Dev) (s : Seam) (f : Seam → Seam) : (d.updSeam s f).mpm = d.mpm := rfl
@[simp] theorem Dev.updSeam_srv (d : Dev) (s : Seam) (f : Seam → Seam) : (d.updSeam s f).srv = d.srv := rfl
@[simp] theorem Dev.updSeam_safe (d : Dev) (s : Seam) (f : Seam → Seam) : (d.updSeam s f).safe = d.safe := rfl
@[simp] theorem Dev.updSeam_cam (d : Dev) (s : Seam) (f : Seam → Seam) : (d.updSeam s f).cam = d.cam := rfl
@[simp] theorem Dev.updSeam_cdc (d : Dev) (s : Seam) (f : Seam → Seam) : (d.updSeam s f).cdc = d.cdc := rfl
@[simp] theorem Dev.updSeam_dma (d : Dev) (s : Seam) (f : Seam → Seam) : (d.updSeam s f).dma = d.dma := rfl
@[simp] theorem Dev.updSeam_memc (d : Dev) (s : Seam) (f : Seam → Seam) : (d.updSeam s f).memc = d.memc := rfl
@[simp] theorem Dev.updSeam_tmb (d : Dev) (s : Seam) (f : Seam → Seam) : (d.updSeam s f).tmb = d.tmb := rfl
@[simp] theorem Dev.updSeam_axs (d : Dev) (s : Seam) (f : Seam → Seam) : (d.updSeam s f).axs = d.axs := rfl
@[simp] theorem Dev.updSeam_lgt (d : Dev) (s : Seam) (f : Seam → Seam) : (d.updSeam s f).lgt = d.lgt := rfl
@[simp] theorem Dev.updSeam_thm (d : Dev) (s : Seam) (f : Seam → Seam) : (d.updSeam s f).thm = d.thm := rfl
@[simp] theorem Dev.updSeam_cal (d : Dev) (s : Seam) (f : Seam → Seam) : (d.updSeam s f).cal = d.cal := rfl
@[simp] theorem Dev.updSeam_mgt (d : Dev) (s : Seam) (f : Seam → Seam) : (d.updSeam s f).mgt = d.mgt := rfl
@[simp] theorem Dev.updSeam_pwr (d : Dev) (s : Seam) (f : Seam → Seam) : (d.updSeam s f).pwr = d.pwr := rfl

/-! ### `Dev.updCal` -/

@[simp] theorem Dev.updCal_regs (d : Dev) (kind : Nat) (f : CalCount → CalCount) : (d.updCal kind f).regs = d.regs := rfl
@[simp] theorem Dev.updCal_ev (d : Dev) (kind : Nat) (f : CalCount → CalCount) : (d.updCal kind f).ev = d.ev := rfl
@[simp] theorem Dev.updCal_freeCount (d : Dev) (kind : Nat) (f : CalCount → CalCount) : (d.updCal kind f).freeCount = d.freeCount := rfl
@[simp] theorem Dev.updCal_hst (d : Dev) (kind : Nat) (f : CalCount → CalCount) : (d.updCal kind f).hst = d.hst := rfl
@[simp] theorem Dev.updCal_lnk (d : Dev) (kind : Nat) (f : CalCount → CalCount) : (d.updCal kind f).lnk = d.lnk := rfl
@[simp] theorem Dev.updCal_crs (d : Dev) (kind : Nat) (f : CalCount → CalCount) : (d.updCal kind f).crs = d.crs := rfl
@[simp] theorem Dev.updCal_msn (d : Dev) (kind : Nat) (f : CalCount → CalCount) : (d.updCal kind f).msn = d.msn := rfl
@[simp] theorem Dev.updCal_pth (d : Dev) (kind : Nat) (f : CalCount → CalCount) : (d.updCal kind f).pth = d.pth := rfl
@[simp] theorem Dev.updCal_lsr (d : Dev) (kind : Nat) (f : CalCount → CalCount) : (d.updCal kind f).lsr = d.lsr := rfl
@[simp] theorem Dev.updCal_mpm (d : Dev) (kind : Nat) (f : CalCount → CalCount) : (d.updCal kind f).mpm = d.mpm := rfl
@[simp] theorem Dev.updCal_srv (d : Dev) (kind : Nat) (f : CalCount → CalCount) : (d.updCal kind f).srv = d.srv := rfl
@[simp] theorem Dev.updCal_safe (d : Dev) (kind : Nat) (f : CalCount → CalCount) : (d.updCal kind f).safe = d.safe := rfl
@[simp] theorem Dev.updCal_cam (d : Dev) (kind : Nat) (f : CalCount → CalCount) : (d.updCal kind f).cam = d.cam := rfl
@[simp] theorem Dev.updCal_cdc (d : Dev) (kind : Nat) (f : CalCount → CalCount) : (d.updCal kind f).cdc = d.cdc := rfl
@[simp] theorem Dev.updCal_dma (d : Dev) (kind : Nat) (f : CalCount → CalCount) : (d.updCal kind f).dma = d.dma := rfl
@[simp] theorem Dev.updCal_memc (d : Dev) (kind : Nat) (f : CalCount → CalCount) : (d.updCal kind f).memc = d.memc := rfl
@[simp] theorem Dev.updCal_tmb (d : Dev) (kind : Nat) (f : CalCount → CalCount) : (d.updCal kind f).tmb = d.tmb := rfl
@[simp] theorem Dev.updCal_axs (d : Dev) (kind : Nat) (f : CalCount → CalCount) : (d.updCal kind f).axs = d.axs := rfl
@[simp] theorem Dev.updCal_lgt (d : Dev) (kind : Nat) (f : CalCount → CalCount) : (d.updCal kind f).lgt = d.lgt := rfl
@[simp] theorem Dev.updCal_thm (d : Dev) (kind : Nat) (f : CalCount → CalCount) : (d.updCal kind f).thm = d.thm := rfl
@[simp] theorem Dev.updCal_mgt (d : Dev) (kind : Nat) (f : CalCount → CalCount) : (d.updCal kind f).mgt = d.mgt := rfl
@[simp] theorem Dev.updCal_pwr (d : Dev) (kind : Nat) (f : CalCount → CalCount) : (d.updCal kind f).pwr = d.pwr := rfl

/-! ### `Dev.updFw` -/

@[simp] theorem Dev.updFw_regs (d : Dev) (s : Nat) (f : FwSlot → FwSlot) : (d.updFw s f).regs = d.regs := rfl
@[simp] theorem Dev.updFw_ev (d : Dev) (s : Nat) (f : FwSlot → FwSlot) : (d.updFw s f).ev = d.ev := rfl
@[simp] theorem Dev.updFw_freeCount (d : Dev) (s : Nat) (f : FwSlot → FwSlot) : (d.updFw s f).freeCount = d.freeCount := rfl
@[simp] theorem Dev.updFw_hst (d : Dev) (s : Nat) (f : FwSlot → FwSlot) : (d.updFw s f).hst = d.hst := rfl
@[simp] theorem Dev.updFw_lnk (d : Dev) (s : Nat) (f : FwSlot → FwSlot) : (d.updFw s f).lnk = d.lnk := rfl
@[simp] theorem Dev.updFw_crs (d : Dev) (s : Nat) (f : FwSlot → FwSlot) : (d.updFw s f).crs = d.crs := rfl
@[simp] theorem Dev.updFw_msn (d : Dev) (s : Nat) (f : FwSlot → FwSlot) : (d.updFw s f).msn = d.msn := rfl
@[simp] theorem Dev.updFw_pth (d : Dev) (s : Nat) (f : FwSlot → FwSlot) : (d.updFw s f).pth = d.pth := rfl
@[simp] theorem Dev.updFw_lsr (d : Dev) (s : Nat) (f : FwSlot → FwSlot) : (d.updFw s f).lsr = d.lsr := rfl
@[simp] theorem Dev.updFw_mpm (d : Dev) (s : Nat) (f : FwSlot → FwSlot) : (d.updFw s f).mpm = d.mpm := rfl
@[simp] theorem Dev.updFw_srv (d : Dev) (s : Nat) (f : FwSlot → FwSlot) : (d.updFw s f).srv = d.srv := rfl
@[simp] theorem Dev.updFw_safe (d : Dev) (s : Nat) (f : FwSlot → FwSlot) : (d.updFw s f).safe = d.safe := rfl
@[simp] theorem Dev.updFw_cam (d : Dev) (s : Nat) (f : FwSlot → FwSlot) : (d.updFw s f).cam = d.cam := rfl
@[simp] theorem Dev.updFw_cdc (d : Dev) (s : Nat) (f : FwSlot → FwSlot) : (d.updFw s f).cdc = d.cdc := rfl
@[simp] theorem Dev.updFw_dma (d : Dev) (s : Nat) (f : FwSlot → FwSlot) : (d.updFw s f).dma = d.dma := rfl
@[simp] theorem Dev.updFw_memc (d : Dev) (s : Nat) (f : FwSlot → FwSlot) : (d.updFw s f).memc = d.memc := rfl
@[simp] theorem Dev.updFw_tmb (d : Dev) (s : Nat) (f : FwSlot → FwSlot) : (d.updFw s f).tmb = d.tmb := rfl
@[simp] theorem Dev.updFw_axs (d : Dev) (s : Nat) (f : FwSlot → FwSlot) : (d.updFw s f).axs = d.axs := rfl
@[simp] theorem Dev.updFw_lgt (d : Dev) (s : Nat) (f : FwSlot → FwSlot) : (d.updFw s f).lgt = d.lgt := rfl
@[simp] theorem Dev.updFw_thm (d : Dev) (s : Nat) (f : FwSlot → FwSlot) : (d.updFw s f).thm = d.thm := rfl
@[simp] theorem Dev.updFw_cal (d : Dev) (s : Nat) (f : FwSlot → FwSlot) : (d.updFw s f).cal = d.cal := rfl
@[simp] theorem Dev.updFw_pwr (d : Dev) (s : Nat) (f : FwSlot → FwSlot) : (d.updFw s f).pwr = d.pwr := rfl

/-! ### `Dev.emit` -/

@[simp] theorem Dev.emit_regs (d : Dev) (o : Out) : (d.emit o).regs = d.regs := rfl
@[simp] theorem Dev.emit_freeCount (d : Dev) (o : Out) : (d.emit o).freeCount = d.freeCount := rfl
@[simp] theorem Dev.emit_hst (d : Dev) (o : Out) : (d.emit o).hst = d.hst := rfl
@[simp] theorem Dev.emit_lnk (d : Dev) (o : Out) : (d.emit o).lnk = d.lnk := rfl
@[simp] theorem Dev.emit_crs (d : Dev) (o : Out) : (d.emit o).crs = d.crs := rfl
@[simp] theorem Dev.emit_msn (d : Dev) (o : Out) : (d.emit o).msn = d.msn := rfl
@[simp] theorem Dev.emit_pth (d : Dev) (o : Out) : (d.emit o).pth = d.pth := rfl
@[simp] theorem Dev.emit_lsr (d : Dev) (o : Out) : (d.emit o).lsr = d.lsr := rfl
@[simp] theorem Dev.emit_mpm (d : Dev) (o : Out) : (d.emit o).mpm = d.mpm := rfl
@[simp] theorem Dev.emit_srv (d : Dev) (o : Out) : (d.emit o).srv = d.srv := rfl
@[simp] theorem Dev.emit_safe (d : Dev) (o : Out) : (d.emit o).safe = d.safe := rfl
@[simp] theorem Dev.emit_cam (d : Dev) (o : Out) : (d.emit o).cam = d.cam := rfl
@[simp] theorem Dev.emit_cdc (d : Dev) (o : Out) : (d.emit o).cdc = d.cdc := rfl
@[simp] theorem Dev.emit_dma (d : Dev) (o : Out) : (d.emit o).dma = d.dma := rfl
@[simp] theorem Dev.emit_memc (d : Dev) (o : Out) : (d.emit o).memc = d.memc := rfl
@[simp] theorem Dev.emit_tmb (d : Dev) (o : Out) : (d.emit o).tmb = d.tmb := rfl
@[simp] theorem Dev.emit_axs (d : Dev) (o : Out) : (d.emit o).axs = d.axs := rfl
@[simp] theorem Dev.emit_lgt (d : Dev) (o : Out) : (d.emit o).lgt = d.lgt := rfl
@[simp] theorem Dev.emit_thm (d : Dev) (o : Out) : (d.emit o).thm = d.thm := rfl
@[simp] theorem Dev.emit_cal (d : Dev) (o : Out) : (d.emit o).cal = d.cal := rfl
@[simp] theorem Dev.emit_mgt (d : Dev) (o : Out) : (d.emit o).mgt = d.mgt := rfl
@[simp] theorem Dev.emit_pwr (d : Dev) (o : Out) : (d.emit o).pwr = d.pwr := rfl
@[simp] theorem Dev.emit_ev_merge (d : Dev) (o : Out) : (d.emit o).ev.merge = d.ev.merge := rfl

/-! ### `Dev.recordAt` -/

@[simp] theorem Dev.recordAt_regs (d : Dev) (b : Stamp) (src t detail : Nat) (p : List W64) : (d.recordAt b src t detail p).regs = d.regs := rfl
@[simp] theorem Dev.recordAt_freeCount (d : Dev) (b : Stamp) (src t detail : Nat) (p : List W64) : (d.recordAt b src t detail p).freeCount = d.freeCount := rfl
@[simp] theorem Dev.recordAt_hst (d : Dev) (b : Stamp) (src t detail : Nat) (p : List W64) : (d.recordAt b src t detail p).hst = d.hst := rfl
@[simp] theorem Dev.recordAt_lnk (d : Dev) (b : Stamp) (src t detail : Nat) (p : List W64) : (d.recordAt b src t detail p).lnk = d.lnk := rfl
@[simp] theorem Dev.recordAt_crs (d : Dev) (b : Stamp) (src t detail : Nat) (p : List W64) : (d.recordAt b src t detail p).crs = d.crs := rfl
@[simp] theorem Dev.recordAt_msn (d : Dev) (b : Stamp) (src t detail : Nat) (p : List W64) : (d.recordAt b src t detail p).msn = d.msn := rfl
@[simp] theorem Dev.recordAt_pth (d : Dev) (b : Stamp) (src t detail : Nat) (p : List W64) : (d.recordAt b src t detail p).pth = d.pth := rfl
@[simp] theorem Dev.recordAt_lsr (d : Dev) (b : Stamp) (src t detail : Nat) (p : List W64) : (d.recordAt b src t detail p).lsr = d.lsr := rfl
@[simp] theorem Dev.recordAt_mpm (d : Dev) (b : Stamp) (src t detail : Nat) (p : List W64) : (d.recordAt b src t detail p).mpm = d.mpm := rfl
@[simp] theorem Dev.recordAt_srv (d : Dev) (b : Stamp) (src t detail : Nat) (p : List W64) : (d.recordAt b src t detail p).srv = d.srv := rfl
@[simp] theorem Dev.recordAt_safe (d : Dev) (b : Stamp) (src t detail : Nat) (p : List W64) : (d.recordAt b src t detail p).safe = d.safe := rfl
@[simp] theorem Dev.recordAt_cam (d : Dev) (b : Stamp) (src t detail : Nat) (p : List W64) : (d.recordAt b src t detail p).cam = d.cam := rfl
@[simp] theorem Dev.recordAt_cdc (d : Dev) (b : Stamp) (src t detail : Nat) (p : List W64) : (d.recordAt b src t detail p).cdc = d.cdc := rfl
@[simp] theorem Dev.recordAt_dma (d : Dev) (b : Stamp) (src t detail : Nat) (p : List W64) : (d.recordAt b src t detail p).dma = d.dma := rfl
@[simp] theorem Dev.recordAt_memc (d : Dev) (b : Stamp) (src t detail : Nat) (p : List W64) : (d.recordAt b src t detail p).memc = d.memc := rfl
@[simp] theorem Dev.recordAt_tmb (d : Dev) (b : Stamp) (src t detail : Nat) (p : List W64) : (d.recordAt b src t detail p).tmb = d.tmb := rfl
@[simp] theorem Dev.recordAt_axs (d : Dev) (b : Stamp) (src t detail : Nat) (p : List W64) : (d.recordAt b src t detail p).axs = d.axs := rfl
@[simp] theorem Dev.recordAt_lgt (d : Dev) (b : Stamp) (src t detail : Nat) (p : List W64) : (d.recordAt b src t detail p).lgt = d.lgt := rfl
@[simp] theorem Dev.recordAt_thm (d : Dev) (b : Stamp) (src t detail : Nat) (p : List W64) : (d.recordAt b src t detail p).thm = d.thm := rfl
@[simp] theorem Dev.recordAt_cal (d : Dev) (b : Stamp) (src t detail : Nat) (p : List W64) : (d.recordAt b src t detail p).cal = d.cal := rfl
@[simp] theorem Dev.recordAt_mgt (d : Dev) (b : Stamp) (src t detail : Nat) (p : List W64) : (d.recordAt b src t detail p).mgt = d.mgt := rfl
@[simp] theorem Dev.recordAt_pwr (d : Dev) (b : Stamp) (src t detail : Nat) (p : List W64) : (d.recordAt b src t detail p).pwr = d.pwr := rfl
@[simp] theorem Dev.recordAt_ev_out (d : Dev) (b : Stamp) (src t detail : Nat) (p : List W64) : (d.recordAt b src t detail p).ev.out = d.ev.out := rfl

/-! ### `Dev.record` -/

@[simp] theorem Dev.record_regs (d : Dev) (src t detail : Nat) (p : List W64) : (d.record src t detail p).regs = d.regs := rfl
@[simp] theorem Dev.record_freeCount (d : Dev) (src t detail : Nat) (p : List W64) : (d.record src t detail p).freeCount = d.freeCount := rfl
@[simp] theorem Dev.record_hst (d : Dev) (src t detail : Nat) (p : List W64) : (d.record src t detail p).hst = d.hst := rfl
@[simp] theorem Dev.record_lnk (d : Dev) (src t detail : Nat) (p : List W64) : (d.record src t detail p).lnk = d.lnk := rfl
@[simp] theorem Dev.record_crs (d : Dev) (src t detail : Nat) (p : List W64) : (d.record src t detail p).crs = d.crs := rfl
@[simp] theorem Dev.record_msn (d : Dev) (src t detail : Nat) (p : List W64) : (d.record src t detail p).msn = d.msn := rfl
@[simp] theorem Dev.record_pth (d : Dev) (src t detail : Nat) (p : List W64) : (d.record src t detail p).pth = d.pth := rfl
@[simp] theorem Dev.record_lsr (d : Dev) (src t detail : Nat) (p : List W64) : (d.record src t detail p).lsr = d.lsr := rfl
@[simp] theorem Dev.record_mpm (d : Dev) (src t detail : Nat) (p : List W64) : (d.record src t detail p).mpm = d.mpm := rfl
@[simp] theorem Dev.record_srv (d : Dev) (src t detail : Nat) (p : List W64) : (d.record src t detail p).srv = d.srv := rfl
@[simp] theorem Dev.record_safe (d : Dev) (src t detail : Nat) (p : List W64) : (d.record src t detail p).safe = d.safe := rfl
@[simp] theorem Dev.record_cam (d : Dev) (src t detail : Nat) (p : List W64) : (d.record src t detail p).cam = d.cam := rfl
@[simp] theorem Dev.record_cdc (d : Dev) (src t detail : Nat) (p : List W64) : (d.record src t detail p).cdc = d.cdc := rfl
@[simp] theorem Dev.record_dma (d : Dev) (src t detail : Nat) (p : List W64) : (d.record src t detail p).dma = d.dma := rfl
@[simp] theorem Dev.record_memc (d : Dev) (src t detail : Nat) (p : List W64) : (d.record src t detail p).memc = d.memc := rfl
@[simp] theorem Dev.record_tmb (d : Dev) (src t detail : Nat) (p : List W64) : (d.record src t detail p).tmb = d.tmb := rfl
@[simp] theorem Dev.record_axs (d : Dev) (src t detail : Nat) (p : List W64) : (d.record src t detail p).axs = d.axs := rfl
@[simp] theorem Dev.record_lgt (d : Dev) (src t detail : Nat) (p : List W64) : (d.record src t detail p).lgt = d.lgt := rfl
@[simp] theorem Dev.record_thm (d : Dev) (src t detail : Nat) (p : List W64) : (d.record src t detail p).thm = d.thm := rfl
@[simp] theorem Dev.record_cal (d : Dev) (src t detail : Nat) (p : List W64) : (d.record src t detail p).cal = d.cal := rfl
@[simp] theorem Dev.record_mgt (d : Dev) (src t detail : Nat) (p : List W64) : (d.record src t detail p).mgt = d.mgt := rfl
@[simp] theorem Dev.record_pwr (d : Dev) (src t detail : Nat) (p : List W64) : (d.record src t detail p).pwr = d.pwr := rfl
@[simp] theorem Dev.record_ev_out (d : Dev) (src t detail : Nat) (p : List W64) : (d.record src t detail p).ev.out = d.ev.out := rfl

/-! ### `Dev.logEvent` -/

@[simp] theorem Dev.logEvent_regs (d : Dev) (x : Item) : (d.logEvent x).regs = d.regs := rfl
@[simp] theorem Dev.logEvent_ev (d : Dev) (x : Item) : (d.logEvent x).ev = d.ev := rfl
@[simp] theorem Dev.logEvent_freeCount (d : Dev) (x : Item) : (d.logEvent x).freeCount = d.freeCount := rfl
@[simp] theorem Dev.logEvent_hst (d : Dev) (x : Item) : (d.logEvent x).hst = d.hst := rfl
@[simp] theorem Dev.logEvent_lnk (d : Dev) (x : Item) : (d.logEvent x).lnk = d.lnk := rfl
@[simp] theorem Dev.logEvent_crs (d : Dev) (x : Item) : (d.logEvent x).crs = d.crs := rfl
@[simp] theorem Dev.logEvent_msn (d : Dev) (x : Item) : (d.logEvent x).msn = d.msn := rfl
@[simp] theorem Dev.logEvent_pth (d : Dev) (x : Item) : (d.logEvent x).pth = d.pth := rfl
@[simp] theorem Dev.logEvent_lsr (d : Dev) (x : Item) : (d.logEvent x).lsr = d.lsr := rfl
@[simp] theorem Dev.logEvent_mpm (d : Dev) (x : Item) : (d.logEvent x).mpm = d.mpm := rfl
@[simp] theorem Dev.logEvent_srv (d : Dev) (x : Item) : (d.logEvent x).srv = d.srv := rfl
@[simp] theorem Dev.logEvent_safe (d : Dev) (x : Item) : (d.logEvent x).safe = d.safe := rfl
@[simp] theorem Dev.logEvent_cam (d : Dev) (x : Item) : (d.logEvent x).cam = d.cam := rfl
@[simp] theorem Dev.logEvent_cdc (d : Dev) (x : Item) : (d.logEvent x).cdc = d.cdc := rfl
@[simp] theorem Dev.logEvent_dma (d : Dev) (x : Item) : (d.logEvent x).dma = d.dma := rfl
@[simp] theorem Dev.logEvent_memc (d : Dev) (x : Item) : (d.logEvent x).memc = d.memc := rfl
@[simp] theorem Dev.logEvent_tmb (d : Dev) (x : Item) : (d.logEvent x).tmb = d.tmb := rfl
@[simp] theorem Dev.logEvent_axs (d : Dev) (x : Item) : (d.logEvent x).axs = d.axs := rfl
@[simp] theorem Dev.logEvent_lgt (d : Dev) (x : Item) : (d.logEvent x).lgt = d.lgt := rfl
@[simp] theorem Dev.logEvent_thm (d : Dev) (x : Item) : (d.logEvent x).thm = d.thm := rfl
@[simp] theorem Dev.logEvent_cal (d : Dev) (x : Item) : (d.logEvent x).cal = d.cal := rfl
@[simp] theorem Dev.logEvent_pwr (d : Dev) (x : Item) : (d.logEvent x).pwr = d.pwr := rfl

/-! ### `Dev.passOn` -/

@[simp] theorem Dev.passOn_regs (d : Dev) (n : Nat) : (d.passOn n).regs = d.regs := rfl
@[simp] theorem Dev.passOn_ev (d : Dev) (n : Nat) : (d.passOn n).ev = d.ev := rfl
@[simp] theorem Dev.passOn_freeCount (d : Dev) (n : Nat) : (d.passOn n).freeCount = d.freeCount := rfl
@[simp] theorem Dev.passOn_lnk (d : Dev) (n : Nat) : (d.passOn n).lnk = d.lnk := rfl
@[simp] theorem Dev.passOn_crs (d : Dev) (n : Nat) : (d.passOn n).crs = d.crs := rfl
@[simp] theorem Dev.passOn_msn (d : Dev) (n : Nat) : (d.passOn n).msn = d.msn := rfl
@[simp] theorem Dev.passOn_pth (d : Dev) (n : Nat) : (d.passOn n).pth = d.pth := rfl
@[simp] theorem Dev.passOn_lsr (d : Dev) (n : Nat) : (d.passOn n).lsr = d.lsr := rfl
@[simp] theorem Dev.passOn_mpm (d : Dev) (n : Nat) : (d.passOn n).mpm = d.mpm := rfl
@[simp] theorem Dev.passOn_srv (d : Dev) (n : Nat) : (d.passOn n).srv = d.srv := rfl
@[simp] theorem Dev.passOn_safe (d : Dev) (n : Nat) : (d.passOn n).safe = d.safe := rfl
@[simp] theorem Dev.passOn_cam (d : Dev) (n : Nat) : (d.passOn n).cam = d.cam := rfl
@[simp] theorem Dev.passOn_cdc (d : Dev) (n : Nat) : (d.passOn n).cdc = d.cdc := rfl
@[simp] theorem Dev.passOn_dma (d : Dev) (n : Nat) : (d.passOn n).dma = d.dma := rfl
@[simp] theorem Dev.passOn_memc (d : Dev) (n : Nat) : (d.passOn n).memc = d.memc := rfl
@[simp] theorem Dev.passOn_tmb (d : Dev) (n : Nat) : (d.passOn n).tmb = d.tmb := rfl
@[simp] theorem Dev.passOn_axs (d : Dev) (n : Nat) : (d.passOn n).axs = d.axs := rfl
@[simp] theorem Dev.passOn_lgt (d : Dev) (n : Nat) : (d.passOn n).lgt = d.lgt := rfl
@[simp] theorem Dev.passOn_thm (d : Dev) (n : Nat) : (d.passOn n).thm = d.thm := rfl
@[simp] theorem Dev.passOn_cal (d : Dev) (n : Nat) : (d.passOn n).cal = d.cal := rfl
@[simp] theorem Dev.passOn_mgt (d : Dev) (n : Nat) : (d.passOn n).mgt = d.mgt := rfl
@[simp] theorem Dev.passOn_pwr (d : Dev) (n : Nat) : (d.passOn n).pwr = d.pwr := rfl

/-! ### `Dev.pop` -/

@[simp] theorem Dev.pop_regs (d : Dev) (n : Nat) : (d.pop n).regs = d.regs := rfl
@[simp] theorem Dev.pop_ev (d : Dev) (n : Nat) : (d.pop n).ev = d.ev := rfl
@[simp] theorem Dev.pop_freeCount (d : Dev) (n : Nat) : (d.pop n).freeCount = d.freeCount := rfl
@[simp] theorem Dev.pop_lnk (d : Dev) (n : Nat) : (d.pop n).lnk = d.lnk := rfl
@[simp] theorem Dev.pop_crs (d : Dev) (n : Nat) : (d.pop n).crs = d.crs := rfl
@[simp] theorem Dev.pop_msn (d : Dev) (n : Nat) : (d.pop n).msn = d.msn := rfl
@[simp] theorem Dev.pop_pth (d : Dev) (n : Nat) : (d.pop n).pth = d.pth := rfl
@[simp] theorem Dev.pop_lsr (d : Dev) (n : Nat) : (d.pop n).lsr = d.lsr := rfl
@[simp] theorem Dev.pop_mpm (d : Dev) (n : Nat) : (d.pop n).mpm = d.mpm := rfl
@[simp] theorem Dev.pop_srv (d : Dev) (n : Nat) : (d.pop n).srv = d.srv := rfl
@[simp] theorem Dev.pop_safe (d : Dev) (n : Nat) : (d.pop n).safe = d.safe := rfl
@[simp] theorem Dev.pop_cam (d : Dev) (n : Nat) : (d.pop n).cam = d.cam := rfl
@[simp] theorem Dev.pop_cdc (d : Dev) (n : Nat) : (d.pop n).cdc = d.cdc := rfl
@[simp] theorem Dev.pop_dma (d : Dev) (n : Nat) : (d.pop n).dma = d.dma := rfl
@[simp] theorem Dev.pop_memc (d : Dev) (n : Nat) : (d.pop n).memc = d.memc := rfl
@[simp] theorem Dev.pop_tmb (d : Dev) (n : Nat) : (d.pop n).tmb = d.tmb := rfl
@[simp] theorem Dev.pop_axs (d : Dev) (n : Nat) : (d.pop n).axs = d.axs := rfl
@[simp] theorem Dev.pop_lgt (d : Dev) (n : Nat) : (d.pop n).lgt = d.lgt := rfl
@[simp] theorem Dev.pop_thm (d : Dev) (n : Nat) : (d.pop n).thm = d.thm := rfl
@[simp] theorem Dev.pop_cal (d : Dev) (n : Nat) : (d.pop n).cal = d.cal := rfl
@[simp] theorem Dev.pop_mgt (d : Dev) (n : Nat) : (d.pop n).mgt = d.mgt := rfl
@[simp] theorem Dev.pop_pwr (d : Dev) (n : Nat) : (d.pop n).pwr = d.pwr := rfl

/-! ### `Dev.setRw` -/

@[simp] theorem Dev.setRw_ev (d : Dev) (f : Field) (v i j : Nat) : (d.setRw f v i j).ev = d.ev := rfl
@[simp] theorem Dev.setRw_freeCount (d : Dev) (f : Field) (v i j : Nat) : (d.setRw f v i j).freeCount = d.freeCount := rfl
@[simp] theorem Dev.setRw_hst (d : Dev) (f : Field) (v i j : Nat) : (d.setRw f v i j).hst = d.hst := rfl
@[simp] theorem Dev.setRw_lnk (d : Dev) (f : Field) (v i j : Nat) : (d.setRw f v i j).lnk = d.lnk := rfl
@[simp] theorem Dev.setRw_crs (d : Dev) (f : Field) (v i j : Nat) : (d.setRw f v i j).crs = d.crs := rfl
@[simp] theorem Dev.setRw_msn (d : Dev) (f : Field) (v i j : Nat) : (d.setRw f v i j).msn = d.msn := rfl
@[simp] theorem Dev.setRw_pth (d : Dev) (f : Field) (v i j : Nat) : (d.setRw f v i j).pth = d.pth := rfl
@[simp] theorem Dev.setRw_lsr (d : Dev) (f : Field) (v i j : Nat) : (d.setRw f v i j).lsr = d.lsr := rfl
@[simp] theorem Dev.setRw_mpm (d : Dev) (f : Field) (v i j : Nat) : (d.setRw f v i j).mpm = d.mpm := rfl
@[simp] theorem Dev.setRw_srv (d : Dev) (f : Field) (v i j : Nat) : (d.setRw f v i j).srv = d.srv := rfl
@[simp] theorem Dev.setRw_safe (d : Dev) (f : Field) (v i j : Nat) : (d.setRw f v i j).safe = d.safe := rfl
@[simp] theorem Dev.setRw_cam (d : Dev) (f : Field) (v i j : Nat) : (d.setRw f v i j).cam = d.cam := rfl
@[simp] theorem Dev.setRw_cdc (d : Dev) (f : Field) (v i j : Nat) : (d.setRw f v i j).cdc = d.cdc := rfl
@[simp] theorem Dev.setRw_dma (d : Dev) (f : Field) (v i j : Nat) : (d.setRw f v i j).dma = d.dma := rfl
@[simp] theorem Dev.setRw_memc (d : Dev) (f : Field) (v i j : Nat) : (d.setRw f v i j).memc = d.memc := rfl
@[simp] theorem Dev.setRw_tmb (d : Dev) (f : Field) (v i j : Nat) : (d.setRw f v i j).tmb = d.tmb := rfl
@[simp] theorem Dev.setRw_axs (d : Dev) (f : Field) (v i j : Nat) : (d.setRw f v i j).axs = d.axs := rfl
@[simp] theorem Dev.setRw_lgt (d : Dev) (f : Field) (v i j : Nat) : (d.setRw f v i j).lgt = d.lgt := rfl
@[simp] theorem Dev.setRw_thm (d : Dev) (f : Field) (v i j : Nat) : (d.setRw f v i j).thm = d.thm := rfl
@[simp] theorem Dev.setRw_cal (d : Dev) (f : Field) (v i j : Nat) : (d.setRw f v i j).cal = d.cal := rfl
@[simp] theorem Dev.setRw_mgt (d : Dev) (f : Field) (v i j : Nat) : (d.setRw f v i j).mgt = d.mgt := rfl
@[simp] theorem Dev.setRw_pwr (d : Dev) (f : Field) (v i j : Nat) : (d.setRw f v i j).pwr = d.pwr := rfl
@[simp] theorem Dev.setRw_rwAct (d : Dev) (f : Field) (v i j : Nat) : (d.setRw f v i j).regs.rwAct = d.regs.rwAct := rfl
@[simp] theorem Dev.setRw_shadow (d : Dev) (f : Field) (v i j : Nat) : (d.setRw f v i j).regs.shadow = d.regs.shadow := rfl
@[simp] theorem Dev.setRw_shadowAt (d : Dev) (f : Field) (v i j : Nat) : (d.setRw f v i j).regs.shadowAt = d.regs.shadowAt := rfl
@[simp] theorem Dev.setRw_effect (d : Dev) (f : Field) (v i j : Nat) : (d.setRw f v i j).regs.effect = d.regs.effect := rfl
@[simp] theorem Dev.setRw_srvNext (d : Dev) (f : Field) (v i j : Nat) : (d.setRw f v i j).regs.srvNext = d.regs.srvNext := rfl
@[simp] theorem Dev.setRw_w1c (d : Dev) (f : Field) (v i j : Nat) : (d.setRw f v i j).regs.w1c = d.regs.w1c := rfl
@[simp] theorem Dev.setRw_cnt (d : Dev) (f : Field) (v i j : Nat) : (d.setRw f v i j).regs.cnt = d.regs.cnt := rfl
@[simp] theorem Dev.setRw_rol (d : Dev) (f : Field) (v i j : Nat) : (d.setRw f v i j).regs.rol = d.regs.rol := rfl
@[simp] theorem Dev.setRw_rolBeat (d : Dev) (f : Field) (v i j : Nat) : (d.setRw f v i j).regs.rolBeat = d.regs.rolBeat := rfl

/-! ### `Dev.setRwNow` -/

@[simp] theorem Dev.setRwNow_ev (d : Dev) (f : Field) (v i j : Nat) : (d.setRwNow f v i j).ev = d.ev := rfl
@[simp] theorem Dev.setRwNow_freeCount (d : Dev) (f : Field) (v i j : Nat) : (d.setRwNow f v i j).freeCount = d.freeCount := rfl
@[simp] theorem Dev.setRwNow_hst (d : Dev) (f : Field) (v i j : Nat) : (d.setRwNow f v i j).hst = d.hst := rfl
@[simp] theorem Dev.setRwNow_lnk (d : Dev) (f : Field) (v i j : Nat) : (d.setRwNow f v i j).lnk = d.lnk := rfl
@[simp] theorem Dev.setRwNow_crs (d : Dev) (f : Field) (v i j : Nat) : (d.setRwNow f v i j).crs = d.crs := rfl
@[simp] theorem Dev.setRwNow_msn (d : Dev) (f : Field) (v i j : Nat) : (d.setRwNow f v i j).msn = d.msn := rfl
@[simp] theorem Dev.setRwNow_pth (d : Dev) (f : Field) (v i j : Nat) : (d.setRwNow f v i j).pth = d.pth := rfl
@[simp] theorem Dev.setRwNow_lsr (d : Dev) (f : Field) (v i j : Nat) : (d.setRwNow f v i j).lsr = d.lsr := rfl
@[simp] theorem Dev.setRwNow_mpm (d : Dev) (f : Field) (v i j : Nat) : (d.setRwNow f v i j).mpm = d.mpm := rfl
@[simp] theorem Dev.setRwNow_srv (d : Dev) (f : Field) (v i j : Nat) : (d.setRwNow f v i j).srv = d.srv := rfl
@[simp] theorem Dev.setRwNow_safe (d : Dev) (f : Field) (v i j : Nat) : (d.setRwNow f v i j).safe = d.safe := rfl
@[simp] theorem Dev.setRwNow_cam (d : Dev) (f : Field) (v i j : Nat) : (d.setRwNow f v i j).cam = d.cam := rfl
@[simp] theorem Dev.setRwNow_cdc (d : Dev) (f : Field) (v i j : Nat) : (d.setRwNow f v i j).cdc = d.cdc := rfl
@[simp] theorem Dev.setRwNow_dma (d : Dev) (f : Field) (v i j : Nat) : (d.setRwNow f v i j).dma = d.dma := rfl
@[simp] theorem Dev.setRwNow_memc (d : Dev) (f : Field) (v i j : Nat) : (d.setRwNow f v i j).memc = d.memc := rfl
@[simp] theorem Dev.setRwNow_tmb (d : Dev) (f : Field) (v i j : Nat) : (d.setRwNow f v i j).tmb = d.tmb := rfl
@[simp] theorem Dev.setRwNow_axs (d : Dev) (f : Field) (v i j : Nat) : (d.setRwNow f v i j).axs = d.axs := rfl
@[simp] theorem Dev.setRwNow_lgt (d : Dev) (f : Field) (v i j : Nat) : (d.setRwNow f v i j).lgt = d.lgt := rfl
@[simp] theorem Dev.setRwNow_thm (d : Dev) (f : Field) (v i j : Nat) : (d.setRwNow f v i j).thm = d.thm := rfl
@[simp] theorem Dev.setRwNow_cal (d : Dev) (f : Field) (v i j : Nat) : (d.setRwNow f v i j).cal = d.cal := rfl
@[simp] theorem Dev.setRwNow_mgt (d : Dev) (f : Field) (v i j : Nat) : (d.setRwNow f v i j).mgt = d.mgt := rfl
@[simp] theorem Dev.setRwNow_pwr (d : Dev) (f : Field) (v i j : Nat) : (d.setRwNow f v i j).pwr = d.pwr := rfl
@[simp] theorem Dev.setRwNow_shadow (d : Dev) (f : Field) (v i j : Nat) : (d.setRwNow f v i j).regs.shadow = d.regs.shadow := rfl
@[simp] theorem Dev.setRwNow_shadowAt (d : Dev) (f : Field) (v i j : Nat) : (d.setRwNow f v i j).regs.shadowAt = d.regs.shadowAt := rfl
@[simp] theorem Dev.setRwNow_effect (d : Dev) (f : Field) (v i j : Nat) : (d.setRwNow f v i j).regs.effect = d.regs.effect := rfl
@[simp] theorem Dev.setRwNow_srvNext (d : Dev) (f : Field) (v i j : Nat) : (d.setRwNow f v i j).regs.srvNext = d.regs.srvNext := rfl
@[simp] theorem Dev.setRwNow_w1c (d : Dev) (f : Field) (v i j : Nat) : (d.setRwNow f v i j).regs.w1c = d.regs.w1c := rfl
@[simp] theorem Dev.setRwNow_cnt (d : Dev) (f : Field) (v i j : Nat) : (d.setRwNow f v i j).regs.cnt = d.regs.cnt := rfl
@[simp] theorem Dev.setRwNow_rol (d : Dev) (f : Field) (v i j : Nat) : (d.setRwNow f v i j).regs.rol = d.regs.rol := rfl
@[simp] theorem Dev.setRwNow_rolBeat (d : Dev) (f : Field) (v i j : Nat) : (d.setRwNow f v i j).regs.rolBeat = d.regs.rolBeat := rfl

/-! ### `Dev.setShadow` -/

@[simp] theorem Dev.setShadow_ev (d : Dev) (f : Field) (v i j : Nat) : (d.setShadow f v i j).ev = d.ev := rfl
@[simp] theorem Dev.setShadow_freeCount (d : Dev) (f : Field) (v i j : Nat) : (d.setShadow f v i j).freeCount = d.freeCount := rfl
@[simp] theorem Dev.setShadow_hst (d : Dev) (f : Field) (v i j : Nat) : (d.setShadow f v i j).hst = d.hst := rfl
@[simp] theorem Dev.setShadow_lnk (d : Dev) (f : Field) (v i j : Nat) : (d.setShadow f v i j).lnk = d.lnk := rfl
@[simp] theorem Dev.setShadow_crs (d : Dev) (f : Field) (v i j : Nat) : (d.setShadow f v i j).crs = d.crs := rfl
@[simp] theorem Dev.setShadow_msn (d : Dev) (f : Field) (v i j : Nat) : (d.setShadow f v i j).msn = d.msn := rfl
@[simp] theorem Dev.setShadow_pth (d : Dev) (f : Field) (v i j : Nat) : (d.setShadow f v i j).pth = d.pth := rfl
@[simp] theorem Dev.setShadow_lsr (d : Dev) (f : Field) (v i j : Nat) : (d.setShadow f v i j).lsr = d.lsr := rfl
@[simp] theorem Dev.setShadow_mpm (d : Dev) (f : Field) (v i j : Nat) : (d.setShadow f v i j).mpm = d.mpm := rfl
@[simp] theorem Dev.setShadow_srv (d : Dev) (f : Field) (v i j : Nat) : (d.setShadow f v i j).srv = d.srv := rfl
@[simp] theorem Dev.setShadow_safe (d : Dev) (f : Field) (v i j : Nat) : (d.setShadow f v i j).safe = d.safe := rfl
@[simp] theorem Dev.setShadow_cam (d : Dev) (f : Field) (v i j : Nat) : (d.setShadow f v i j).cam = d.cam := rfl
@[simp] theorem Dev.setShadow_cdc (d : Dev) (f : Field) (v i j : Nat) : (d.setShadow f v i j).cdc = d.cdc := rfl
@[simp] theorem Dev.setShadow_dma (d : Dev) (f : Field) (v i j : Nat) : (d.setShadow f v i j).dma = d.dma := rfl
@[simp] theorem Dev.setShadow_memc (d : Dev) (f : Field) (v i j : Nat) : (d.setShadow f v i j).memc = d.memc := rfl
@[simp] theorem Dev.setShadow_tmb (d : Dev) (f : Field) (v i j : Nat) : (d.setShadow f v i j).tmb = d.tmb := rfl
@[simp] theorem Dev.setShadow_axs (d : Dev) (f : Field) (v i j : Nat) : (d.setShadow f v i j).axs = d.axs := rfl
@[simp] theorem Dev.setShadow_lgt (d : Dev) (f : Field) (v i j : Nat) : (d.setShadow f v i j).lgt = d.lgt := rfl
@[simp] theorem Dev.setShadow_thm (d : Dev) (f : Field) (v i j : Nat) : (d.setShadow f v i j).thm = d.thm := rfl
@[simp] theorem Dev.setShadow_cal (d : Dev) (f : Field) (v i j : Nat) : (d.setShadow f v i j).cal = d.cal := rfl
@[simp] theorem Dev.setShadow_mgt (d : Dev) (f : Field) (v i j : Nat) : (d.setShadow f v i j).mgt = d.mgt := rfl
@[simp] theorem Dev.setShadow_pwr (d : Dev) (f : Field) (v i j : Nat) : (d.setShadow f v i j).pwr = d.pwr := rfl
@[simp] theorem Dev.setShadow_rw (d : Dev) (f : Field) (v i j : Nat) : (d.setShadow f v i j).regs.rw = d.regs.rw := rfl
@[simp] theorem Dev.setShadow_rwAct (d : Dev) (f : Field) (v i j : Nat) : (d.setShadow f v i j).regs.rwAct = d.regs.rwAct := rfl
@[simp] theorem Dev.setShadow_shadowAt (d : Dev) (f : Field) (v i j : Nat) : (d.setShadow f v i j).regs.shadowAt = d.regs.shadowAt := rfl
@[simp] theorem Dev.setShadow_effect (d : Dev) (f : Field) (v i j : Nat) : (d.setShadow f v i j).regs.effect = d.regs.effect := rfl
@[simp] theorem Dev.setShadow_srvNext (d : Dev) (f : Field) (v i j : Nat) : (d.setShadow f v i j).regs.srvNext = d.regs.srvNext := rfl
@[simp] theorem Dev.setShadow_w1c (d : Dev) (f : Field) (v i j : Nat) : (d.setShadow f v i j).regs.w1c = d.regs.w1c := rfl
@[simp] theorem Dev.setShadow_cnt (d : Dev) (f : Field) (v i j : Nat) : (d.setShadow f v i j).regs.cnt = d.regs.cnt := rfl
@[simp] theorem Dev.setShadow_rol (d : Dev) (f : Field) (v i j : Nat) : (d.setShadow f v i j).regs.rol = d.regs.rol := rfl
@[simp] theorem Dev.setShadow_rolBeat (d : Dev) (f : Field) (v i j : Nat) : (d.setShadow f v i j).regs.rolBeat = d.regs.rolBeat := rfl

/-! ### `Dev.setFlag` -/

@[simp] theorem Dev.setFlag_ev (d : Dev) (f : Field) (v i j : Nat) : (d.setFlag f v i j).ev = d.ev := rfl
@[simp] theorem Dev.setFlag_freeCount (d : Dev) (f : Field) (v i j : Nat) : (d.setFlag f v i j).freeCount = d.freeCount := rfl
@[simp] theorem Dev.setFlag_hst (d : Dev) (f : Field) (v i j : Nat) : (d.setFlag f v i j).hst = d.hst := rfl
@[simp] theorem Dev.setFlag_lnk (d : Dev) (f : Field) (v i j : Nat) : (d.setFlag f v i j).lnk = d.lnk := rfl
@[simp] theorem Dev.setFlag_crs (d : Dev) (f : Field) (v i j : Nat) : (d.setFlag f v i j).crs = d.crs := rfl
@[simp] theorem Dev.setFlag_msn (d : Dev) (f : Field) (v i j : Nat) : (d.setFlag f v i j).msn = d.msn := rfl
@[simp] theorem Dev.setFlag_pth (d : Dev) (f : Field) (v i j : Nat) : (d.setFlag f v i j).pth = d.pth := rfl
@[simp] theorem Dev.setFlag_lsr (d : Dev) (f : Field) (v i j : Nat) : (d.setFlag f v i j).lsr = d.lsr := rfl
@[simp] theorem Dev.setFlag_mpm (d : Dev) (f : Field) (v i j : Nat) : (d.setFlag f v i j).mpm = d.mpm := rfl
@[simp] theorem Dev.setFlag_srv (d : Dev) (f : Field) (v i j : Nat) : (d.setFlag f v i j).srv = d.srv := rfl
@[simp] theorem Dev.setFlag_safe (d : Dev) (f : Field) (v i j : Nat) : (d.setFlag f v i j).safe = d.safe := rfl
@[simp] theorem Dev.setFlag_cam (d : Dev) (f : Field) (v i j : Nat) : (d.setFlag f v i j).cam = d.cam := rfl
@[simp] theorem Dev.setFlag_cdc (d : Dev) (f : Field) (v i j : Nat) : (d.setFlag f v i j).cdc = d.cdc := rfl
@[simp] theorem Dev.setFlag_dma (d : Dev) (f : Field) (v i j : Nat) : (d.setFlag f v i j).dma = d.dma := rfl
@[simp] theorem Dev.setFlag_memc (d : Dev) (f : Field) (v i j : Nat) : (d.setFlag f v i j).memc = d.memc := rfl
@[simp] theorem Dev.setFlag_tmb (d : Dev) (f : Field) (v i j : Nat) : (d.setFlag f v i j).tmb = d.tmb := rfl
@[simp] theorem Dev.setFlag_axs (d : Dev) (f : Field) (v i j : Nat) : (d.setFlag f v i j).axs = d.axs := rfl
@[simp] theorem Dev.setFlag_lgt (d : Dev) (f : Field) (v i j : Nat) : (d.setFlag f v i j).lgt = d.lgt := rfl
@[simp] theorem Dev.setFlag_thm (d : Dev) (f : Field) (v i j : Nat) : (d.setFlag f v i j).thm = d.thm := rfl
@[simp] theorem Dev.setFlag_cal (d : Dev) (f : Field) (v i j : Nat) : (d.setFlag f v i j).cal = d.cal := rfl
@[simp] theorem Dev.setFlag_mgt (d : Dev) (f : Field) (v i j : Nat) : (d.setFlag f v i j).mgt = d.mgt := rfl
@[simp] theorem Dev.setFlag_pwr (d : Dev) (f : Field) (v i j : Nat) : (d.setFlag f v i j).pwr = d.pwr := rfl
@[simp] theorem Dev.setFlag_rw (d : Dev) (f : Field) (v i j : Nat) : (d.setFlag f v i j).regs.rw = d.regs.rw := rfl
@[simp] theorem Dev.setFlag_rwAct (d : Dev) (f : Field) (v i j : Nat) : (d.setFlag f v i j).regs.rwAct = d.regs.rwAct := rfl
@[simp] theorem Dev.setFlag_shadow (d : Dev) (f : Field) (v i j : Nat) : (d.setFlag f v i j).regs.shadow = d.regs.shadow := rfl
@[simp] theorem Dev.setFlag_shadowAt (d : Dev) (f : Field) (v i j : Nat) : (d.setFlag f v i j).regs.shadowAt = d.regs.shadowAt := rfl
@[simp] theorem Dev.setFlag_effect (d : Dev) (f : Field) (v i j : Nat) : (d.setFlag f v i j).regs.effect = d.regs.effect := rfl
@[simp] theorem Dev.setFlag_srvNext (d : Dev) (f : Field) (v i j : Nat) : (d.setFlag f v i j).regs.srvNext = d.regs.srvNext := rfl
@[simp] theorem Dev.setFlag_cnt (d : Dev) (f : Field) (v i j : Nat) : (d.setFlag f v i j).regs.cnt = d.regs.cnt := rfl
@[simp] theorem Dev.setFlag_rol (d : Dev) (f : Field) (v i j : Nat) : (d.setFlag f v i j).regs.rol = d.regs.rol := rfl
@[simp] theorem Dev.setFlag_rolBeat (d : Dev) (f : Field) (v i j : Nat) : (d.setFlag f v i j).regs.rolBeat = d.regs.rolBeat := rfl

/-! ### `Dev.orFlag` -/

@[simp] theorem Dev.orFlag_ev (d : Dev) (f : Field) (v i j : Nat) : (d.orFlag f v i j).ev = d.ev := rfl
@[simp] theorem Dev.orFlag_freeCount (d : Dev) (f : Field) (v i j : Nat) : (d.orFlag f v i j).freeCount = d.freeCount := rfl
@[simp] theorem Dev.orFlag_hst (d : Dev) (f : Field) (v i j : Nat) : (d.orFlag f v i j).hst = d.hst := rfl
@[simp] theorem Dev.orFlag_lnk (d : Dev) (f : Field) (v i j : Nat) : (d.orFlag f v i j).lnk = d.lnk := rfl
@[simp] theorem Dev.orFlag_crs (d : Dev) (f : Field) (v i j : Nat) : (d.orFlag f v i j).crs = d.crs := rfl
@[simp] theorem Dev.orFlag_msn (d : Dev) (f : Field) (v i j : Nat) : (d.orFlag f v i j).msn = d.msn := rfl
@[simp] theorem Dev.orFlag_pth (d : Dev) (f : Field) (v i j : Nat) : (d.orFlag f v i j).pth = d.pth := rfl
@[simp] theorem Dev.orFlag_lsr (d : Dev) (f : Field) (v i j : Nat) : (d.orFlag f v i j).lsr = d.lsr := rfl
@[simp] theorem Dev.orFlag_mpm (d : Dev) (f : Field) (v i j : Nat) : (d.orFlag f v i j).mpm = d.mpm := rfl
@[simp] theorem Dev.orFlag_srv (d : Dev) (f : Field) (v i j : Nat) : (d.orFlag f v i j).srv = d.srv := rfl
@[simp] theorem Dev.orFlag_safe (d : Dev) (f : Field) (v i j : Nat) : (d.orFlag f v i j).safe = d.safe := rfl
@[simp] theorem Dev.orFlag_cam (d : Dev) (f : Field) (v i j : Nat) : (d.orFlag f v i j).cam = d.cam := rfl
@[simp] theorem Dev.orFlag_cdc (d : Dev) (f : Field) (v i j : Nat) : (d.orFlag f v i j).cdc = d.cdc := rfl
@[simp] theorem Dev.orFlag_dma (d : Dev) (f : Field) (v i j : Nat) : (d.orFlag f v i j).dma = d.dma := rfl
@[simp] theorem Dev.orFlag_memc (d : Dev) (f : Field) (v i j : Nat) : (d.orFlag f v i j).memc = d.memc := rfl
@[simp] theorem Dev.orFlag_tmb (d : Dev) (f : Field) (v i j : Nat) : (d.orFlag f v i j).tmb = d.tmb := rfl
@[simp] theorem Dev.orFlag_axs (d : Dev) (f : Field) (v i j : Nat) : (d.orFlag f v i j).axs = d.axs := rfl
@[simp] theorem Dev.orFlag_lgt (d : Dev) (f : Field) (v i j : Nat) : (d.orFlag f v i j).lgt = d.lgt := rfl
@[simp] theorem Dev.orFlag_thm (d : Dev) (f : Field) (v i j : Nat) : (d.orFlag f v i j).thm = d.thm := rfl
@[simp] theorem Dev.orFlag_cal (d : Dev) (f : Field) (v i j : Nat) : (d.orFlag f v i j).cal = d.cal := rfl
@[simp] theorem Dev.orFlag_mgt (d : Dev) (f : Field) (v i j : Nat) : (d.orFlag f v i j).mgt = d.mgt := rfl
@[simp] theorem Dev.orFlag_pwr (d : Dev) (f : Field) (v i j : Nat) : (d.orFlag f v i j).pwr = d.pwr := rfl
@[simp] theorem Dev.orFlag_rw (d : Dev) (f : Field) (v i j : Nat) : (d.orFlag f v i j).regs.rw = d.regs.rw := rfl
@[simp] theorem Dev.orFlag_rwAct (d : Dev) (f : Field) (v i j : Nat) : (d.orFlag f v i j).regs.rwAct = d.regs.rwAct := rfl
@[simp] theorem Dev.orFlag_shadow (d : Dev) (f : Field) (v i j : Nat) : (d.orFlag f v i j).regs.shadow = d.regs.shadow := rfl
@[simp] theorem Dev.orFlag_shadowAt (d : Dev) (f : Field) (v i j : Nat) : (d.orFlag f v i j).regs.shadowAt = d.regs.shadowAt := rfl
@[simp] theorem Dev.orFlag_effect (d : Dev) (f : Field) (v i j : Nat) : (d.orFlag f v i j).regs.effect = d.regs.effect := rfl
@[simp] theorem Dev.orFlag_srvNext (d : Dev) (f : Field) (v i j : Nat) : (d.orFlag f v i j).regs.srvNext = d.regs.srvNext := rfl
@[simp] theorem Dev.orFlag_cnt (d : Dev) (f : Field) (v i j : Nat) : (d.orFlag f v i j).regs.cnt = d.regs.cnt := rfl
@[simp] theorem Dev.orFlag_rol (d : Dev) (f : Field) (v i j : Nat) : (d.orFlag f v i j).regs.rol = d.regs.rol := rfl
@[simp] theorem Dev.orFlag_rolBeat (d : Dev) (f : Field) (v i j : Nat) : (d.orFlag f v i j).regs.rolBeat = d.regs.rolBeat := rfl

/-! ### `Dev.setCount` -/

@[simp] theorem Dev.setCount_ev (d : Dev) (f : Field) (v i j : Nat) : (d.setCount f v i j).ev = d.ev := rfl
@[simp] theorem Dev.setCount_freeCount (d : Dev) (f : Field) (v i j : Nat) : (d.setCount f v i j).freeCount = d.freeCount := rfl
@[simp] theorem Dev.setCount_hst (d : Dev) (f : Field) (v i j : Nat) : (d.setCount f v i j).hst = d.hst := rfl
@[simp] theorem Dev.setCount_lnk (d : Dev) (f : Field) (v i j : Nat) : (d.setCount f v i j).lnk = d.lnk := rfl
@[simp] theorem Dev.setCount_crs (d : Dev) (f : Field) (v i j : Nat) : (d.setCount f v i j).crs = d.crs := rfl
@[simp] theorem Dev.setCount_msn (d : Dev) (f : Field) (v i j : Nat) : (d.setCount f v i j).msn = d.msn := rfl
@[simp] theorem Dev.setCount_pth (d : Dev) (f : Field) (v i j : Nat) : (d.setCount f v i j).pth = d.pth := rfl
@[simp] theorem Dev.setCount_lsr (d : Dev) (f : Field) (v i j : Nat) : (d.setCount f v i j).lsr = d.lsr := rfl
@[simp] theorem Dev.setCount_mpm (d : Dev) (f : Field) (v i j : Nat) : (d.setCount f v i j).mpm = d.mpm := rfl
@[simp] theorem Dev.setCount_srv (d : Dev) (f : Field) (v i j : Nat) : (d.setCount f v i j).srv = d.srv := rfl
@[simp] theorem Dev.setCount_safe (d : Dev) (f : Field) (v i j : Nat) : (d.setCount f v i j).safe = d.safe := rfl
@[simp] theorem Dev.setCount_cam (d : Dev) (f : Field) (v i j : Nat) : (d.setCount f v i j).cam = d.cam := rfl
@[simp] theorem Dev.setCount_cdc (d : Dev) (f : Field) (v i j : Nat) : (d.setCount f v i j).cdc = d.cdc := rfl
@[simp] theorem Dev.setCount_dma (d : Dev) (f : Field) (v i j : Nat) : (d.setCount f v i j).dma = d.dma := rfl
@[simp] theorem Dev.setCount_memc (d : Dev) (f : Field) (v i j : Nat) : (d.setCount f v i j).memc = d.memc := rfl
@[simp] theorem Dev.setCount_tmb (d : Dev) (f : Field) (v i j : Nat) : (d.setCount f v i j).tmb = d.tmb := rfl
@[simp] theorem Dev.setCount_axs (d : Dev) (f : Field) (v i j : Nat) : (d.setCount f v i j).axs = d.axs := rfl
@[simp] theorem Dev.setCount_lgt (d : Dev) (f : Field) (v i j : Nat) : (d.setCount f v i j).lgt = d.lgt := rfl
@[simp] theorem Dev.setCount_thm (d : Dev) (f : Field) (v i j : Nat) : (d.setCount f v i j).thm = d.thm := rfl
@[simp] theorem Dev.setCount_cal (d : Dev) (f : Field) (v i j : Nat) : (d.setCount f v i j).cal = d.cal := rfl
@[simp] theorem Dev.setCount_mgt (d : Dev) (f : Field) (v i j : Nat) : (d.setCount f v i j).mgt = d.mgt := rfl
@[simp] theorem Dev.setCount_pwr (d : Dev) (f : Field) (v i j : Nat) : (d.setCount f v i j).pwr = d.pwr := rfl
@[simp] theorem Dev.setCount_rw (d : Dev) (f : Field) (v i j : Nat) : (d.setCount f v i j).regs.rw = d.regs.rw := rfl
@[simp] theorem Dev.setCount_rwAct (d : Dev) (f : Field) (v i j : Nat) : (d.setCount f v i j).regs.rwAct = d.regs.rwAct := rfl
@[simp] theorem Dev.setCount_shadow (d : Dev) (f : Field) (v i j : Nat) : (d.setCount f v i j).regs.shadow = d.regs.shadow := rfl
@[simp] theorem Dev.setCount_shadowAt (d : Dev) (f : Field) (v i j : Nat) : (d.setCount f v i j).regs.shadowAt = d.regs.shadowAt := rfl
@[simp] theorem Dev.setCount_effect (d : Dev) (f : Field) (v i j : Nat) : (d.setCount f v i j).regs.effect = d.regs.effect := rfl
@[simp] theorem Dev.setCount_srvNext (d : Dev) (f : Field) (v i j : Nat) : (d.setCount f v i j).regs.srvNext = d.regs.srvNext := rfl
@[simp] theorem Dev.setCount_w1c (d : Dev) (f : Field) (v i j : Nat) : (d.setCount f v i j).regs.w1c = d.regs.w1c := rfl
@[simp] theorem Dev.setCount_rol (d : Dev) (f : Field) (v i j : Nat) : (d.setCount f v i j).regs.rol = d.regs.rol := rfl
@[simp] theorem Dev.setCount_rolBeat (d : Dev) (f : Field) (v i j : Nat) : (d.setCount f v i j).regs.rolBeat = d.regs.rolBeat := rfl

/-! ### `Dev.bump` -/

@[simp] theorem Dev.bump_ev (d : Dev) (f : Field) (v i j : Nat) : (d.bump f v i j).ev = d.ev := rfl
@[simp] theorem Dev.bump_freeCount (d : Dev) (f : Field) (v i j : Nat) : (d.bump f v i j).freeCount = d.freeCount := rfl
@[simp] theorem Dev.bump_hst (d : Dev) (f : Field) (v i j : Nat) : (d.bump f v i j).hst = d.hst := rfl
@[simp] theorem Dev.bump_lnk (d : Dev) (f : Field) (v i j : Nat) : (d.bump f v i j).lnk = d.lnk := rfl
@[simp] theorem Dev.bump_crs (d : Dev) (f : Field) (v i j : Nat) : (d.bump f v i j).crs = d.crs := rfl
@[simp] theorem Dev.bump_msn (d : Dev) (f : Field) (v i j : Nat) : (d.bump f v i j).msn = d.msn := rfl
@[simp] theorem Dev.bump_pth (d : Dev) (f : Field) (v i j : Nat) : (d.bump f v i j).pth = d.pth := rfl
@[simp] theorem Dev.bump_lsr (d : Dev) (f : Field) (v i j : Nat) : (d.bump f v i j).lsr = d.lsr := rfl
@[simp] theorem Dev.bump_mpm (d : Dev) (f : Field) (v i j : Nat) : (d.bump f v i j).mpm = d.mpm := rfl
@[simp] theorem Dev.bump_srv (d : Dev) (f : Field) (v i j : Nat) : (d.bump f v i j).srv = d.srv := rfl
@[simp] theorem Dev.bump_safe (d : Dev) (f : Field) (v i j : Nat) : (d.bump f v i j).safe = d.safe := rfl
@[simp] theorem Dev.bump_cam (d : Dev) (f : Field) (v i j : Nat) : (d.bump f v i j).cam = d.cam := rfl
@[simp] theorem Dev.bump_cdc (d : Dev) (f : Field) (v i j : Nat) : (d.bump f v i j).cdc = d.cdc := rfl
@[simp] theorem Dev.bump_dma (d : Dev) (f : Field) (v i j : Nat) : (d.bump f v i j).dma = d.dma := rfl
@[simp] theorem Dev.bump_memc (d : Dev) (f : Field) (v i j : Nat) : (d.bump f v i j).memc = d.memc := rfl
@[simp] theorem Dev.bump_tmb (d : Dev) (f : Field) (v i j : Nat) : (d.bump f v i j).tmb = d.tmb := rfl
@[simp] theorem Dev.bump_axs (d : Dev) (f : Field) (v i j : Nat) : (d.bump f v i j).axs = d.axs := rfl
@[simp] theorem Dev.bump_lgt (d : Dev) (f : Field) (v i j : Nat) : (d.bump f v i j).lgt = d.lgt := rfl
@[simp] theorem Dev.bump_thm (d : Dev) (f : Field) (v i j : Nat) : (d.bump f v i j).thm = d.thm := rfl
@[simp] theorem Dev.bump_cal (d : Dev) (f : Field) (v i j : Nat) : (d.bump f v i j).cal = d.cal := rfl
@[simp] theorem Dev.bump_mgt (d : Dev) (f : Field) (v i j : Nat) : (d.bump f v i j).mgt = d.mgt := rfl
@[simp] theorem Dev.bump_pwr (d : Dev) (f : Field) (v i j : Nat) : (d.bump f v i j).pwr = d.pwr := rfl
@[simp] theorem Dev.bump_rw (d : Dev) (f : Field) (v i j : Nat) : (d.bump f v i j).regs.rw = d.regs.rw := rfl
@[simp] theorem Dev.bump_rwAct (d : Dev) (f : Field) (v i j : Nat) : (d.bump f v i j).regs.rwAct = d.regs.rwAct := rfl
@[simp] theorem Dev.bump_shadow (d : Dev) (f : Field) (v i j : Nat) : (d.bump f v i j).regs.shadow = d.regs.shadow := rfl
@[simp] theorem Dev.bump_shadowAt (d : Dev) (f : Field) (v i j : Nat) : (d.bump f v i j).regs.shadowAt = d.regs.shadowAt := rfl
@[simp] theorem Dev.bump_effect (d : Dev) (f : Field) (v i j : Nat) : (d.bump f v i j).regs.effect = d.regs.effect := rfl
@[simp] theorem Dev.bump_srvNext (d : Dev) (f : Field) (v i j : Nat) : (d.bump f v i j).regs.srvNext = d.regs.srvNext := rfl
@[simp] theorem Dev.bump_w1c (d : Dev) (f : Field) (v i j : Nat) : (d.bump f v i j).regs.w1c = d.regs.w1c := rfl
@[simp] theorem Dev.bump_rol (d : Dev) (f : Field) (v i j : Nat) : (d.bump f v i j).regs.rol = d.regs.rol := rfl
@[simp] theorem Dev.bump_rolBeat (d : Dev) (f : Field) (v i j : Nat) : (d.bump f v i j).regs.rolBeat = d.regs.rolBeat := rfl

/-! ### `Dev.peak` -/

@[simp] theorem Dev.peak_ev (d : Dev) (f : Field) (v i j : Nat) : (d.peak f v i j).ev = d.ev := rfl
@[simp] theorem Dev.peak_freeCount (d : Dev) (f : Field) (v i j : Nat) : (d.peak f v i j).freeCount = d.freeCount := rfl
@[simp] theorem Dev.peak_hst (d : Dev) (f : Field) (v i j : Nat) : (d.peak f v i j).hst = d.hst := rfl
@[simp] theorem Dev.peak_lnk (d : Dev) (f : Field) (v i j : Nat) : (d.peak f v i j).lnk = d.lnk := rfl
@[simp] theorem Dev.peak_crs (d : Dev) (f : Field) (v i j : Nat) : (d.peak f v i j).crs = d.crs := rfl
@[simp] theorem Dev.peak_msn (d : Dev) (f : Field) (v i j : Nat) : (d.peak f v i j).msn = d.msn := rfl
@[simp] theorem Dev.peak_pth (d : Dev) (f : Field) (v i j : Nat) : (d.peak f v i j).pth = d.pth := rfl
@[simp] theorem Dev.peak_lsr (d : Dev) (f : Field) (v i j : Nat) : (d.peak f v i j).lsr = d.lsr := rfl
@[simp] theorem Dev.peak_mpm (d : Dev) (f : Field) (v i j : Nat) : (d.peak f v i j).mpm = d.mpm := rfl
@[simp] theorem Dev.peak_srv (d : Dev) (f : Field) (v i j : Nat) : (d.peak f v i j).srv = d.srv := rfl
@[simp] theorem Dev.peak_safe (d : Dev) (f : Field) (v i j : Nat) : (d.peak f v i j).safe = d.safe := rfl
@[simp] theorem Dev.peak_cam (d : Dev) (f : Field) (v i j : Nat) : (d.peak f v i j).cam = d.cam := rfl
@[simp] theorem Dev.peak_cdc (d : Dev) (f : Field) (v i j : Nat) : (d.peak f v i j).cdc = d.cdc := rfl
@[simp] theorem Dev.peak_dma (d : Dev) (f : Field) (v i j : Nat) : (d.peak f v i j).dma = d.dma := rfl
@[simp] theorem Dev.peak_memc (d : Dev) (f : Field) (v i j : Nat) : (d.peak f v i j).memc = d.memc := rfl
@[simp] theorem Dev.peak_tmb (d : Dev) (f : Field) (v i j : Nat) : (d.peak f v i j).tmb = d.tmb := rfl
@[simp] theorem Dev.peak_axs (d : Dev) (f : Field) (v i j : Nat) : (d.peak f v i j).axs = d.axs := rfl
@[simp] theorem Dev.peak_lgt (d : Dev) (f : Field) (v i j : Nat) : (d.peak f v i j).lgt = d.lgt := rfl
@[simp] theorem Dev.peak_thm (d : Dev) (f : Field) (v i j : Nat) : (d.peak f v i j).thm = d.thm := rfl
@[simp] theorem Dev.peak_cal (d : Dev) (f : Field) (v i j : Nat) : (d.peak f v i j).cal = d.cal := rfl
@[simp] theorem Dev.peak_mgt (d : Dev) (f : Field) (v i j : Nat) : (d.peak f v i j).mgt = d.mgt := rfl
@[simp] theorem Dev.peak_pwr (d : Dev) (f : Field) (v i j : Nat) : (d.peak f v i j).pwr = d.pwr := rfl
@[simp] theorem Dev.peak_rw (d : Dev) (f : Field) (v i j : Nat) : (d.peak f v i j).regs.rw = d.regs.rw := rfl
@[simp] theorem Dev.peak_rwAct (d : Dev) (f : Field) (v i j : Nat) : (d.peak f v i j).regs.rwAct = d.regs.rwAct := rfl
@[simp] theorem Dev.peak_shadow (d : Dev) (f : Field) (v i j : Nat) : (d.peak f v i j).regs.shadow = d.regs.shadow := rfl
@[simp] theorem Dev.peak_shadowAt (d : Dev) (f : Field) (v i j : Nat) : (d.peak f v i j).regs.shadowAt = d.regs.shadowAt := rfl
@[simp] theorem Dev.peak_effect (d : Dev) (f : Field) (v i j : Nat) : (d.peak f v i j).regs.effect = d.regs.effect := rfl
@[simp] theorem Dev.peak_srvNext (d : Dev) (f : Field) (v i j : Nat) : (d.peak f v i j).regs.srvNext = d.regs.srvNext := rfl
@[simp] theorem Dev.peak_w1c (d : Dev) (f : Field) (v i j : Nat) : (d.peak f v i j).regs.w1c = d.regs.w1c := rfl
@[simp] theorem Dev.peak_rol (d : Dev) (f : Field) (v i j : Nat) : (d.peak f v i j).regs.rol = d.regs.rol := rfl
@[simp] theorem Dev.peak_rolBeat (d : Dev) (f : Field) (v i j : Nat) : (d.peak f v i j).regs.rolBeat = d.regs.rolBeat := rfl

end Sys2Proof.Machine
end

