-- ==== Sys2Proof/Laws/Spec.lean ====
section
/-!
SUPPORT. What the shared operations do: events and completions reach the merge and stay there, a management request that is taken acts,
and a queue's front entry is taken.
-/
namespace Sys2Proof.Machine

/-! ## Events and completions -/

theorem Dev.hasEvent_iff (d : Dev) (code detail : Nat) :
    d.hasEvent code detail = true ↔ ∃ x ∈ d.ev.merge, x.isEvent = true ∧ x.code = code ∧ x.detail = detail := by
  simp [Dev.hasEvent, List.any_eq_true, and_assoc]

theorem Dev.hasDone_iff (d : Dev) (e : Entry) (code : Nat) :
    d.hasDone e code = true ↔ ∃ x ∈ d.ev.merge, x.kind = .done e.ring e.idx e.tag ∧ x.code = code := by
  simp [Dev.hasDone, List.any_eq_true]

theorem Item.like.isEvent {x y : Item} (h : x.like y) : y.isEvent = x.isEvent := by unfold Item.isEvent; rw [h.kind]

theorem Grows.event_of {d d' : Dev} (h : Grows d.ev.merge d'.ev.merge) {code detail : Nat} (hc : code ≠ 0xC009)
    (he : d.hasEvent code detail = true) : d'.hasEvent code detail = true := by
  rw [Dev.hasEvent_iff] at *
  obtain ⟨x, hx, h1, h2, h3⟩ := he
  obtain ⟨y, hy, hl⟩ := h.all x hx
  exact ⟨y, hy, hl.isEvent.trans h1, hl.code.trans h2, (hl.detail (by rw [h2]; exact hc)).trans h3⟩
theorem Grows.done_of {d d' : Dev} (h : Grows d.ev.merge d'.ev.merge) {e : Entry} {code : Nat} (he : d.hasDone e code = true) :
    d'.hasDone e code = true := by
  rw [Dev.hasDone_iff] at *
  obtain ⟨x, hx, h1, h2⟩ := he
  obtain ⟨y, hy, hl⟩ := h.all x hx
  exact ⟨y, hy, hl.kind.trans h1, hl.code.trans h2⟩
/-- An event that waits goes on waiting, whatever a function whose frame does not take items from the merge does. -/
theorem Keeps.event {w : List Part} {d d' : Dev} (h : Keeps w d d') (hw : Part.taken ∉ w) {code detail : Nat} (hc : code ≠ 0xC009)
    (he : d.hasEvent code detail = true) : d'.hasEvent code detail = true := (h.adds hw).event_of hc he
/-- So does a DONE entry that waits. -/
theorem Keeps.done {w : List Part} {d d' : Dev} (h : Keeps w d d') (hw : Part.taken ∉ w) {e : Entry} {code : Nat}
    (he : d.hasDone e code = true) : d'.hasDone e code = true := (h.adds hw).done_of he

/-- A raised event stands in the merge while the main domain runs (R8, R53). -/
theorem Dev.raise_event (d : Dev) (src unit code detail : Nat) (p : List W64) (h : d.mainUp = true) (hc : code ≠ 0xC009) :
    (d.raise src unit code detail p).hasEvent code (detail % 2 ^ 32) = true := by
  unfold Dev.raise
  dsimp only
  rw [if_pos h, Dev.hasEvent_iff]
  obtain ⟨z, hz, hl⟩ := addEvent_like d.ev
    { kind := .event (src / 16), code, detail := detail % 2 ^ 32, payload := p, stamp := d.stamp src, unit } _ (.inl rfl)
  exact ⟨z, hz, hl.isEvent, hl.code, hl.detail hc⟩

theorem Dev.passOn_merge (d : Dev) (n : Nat) : (d.passOn n).ev.merge = d.ev.merge := (Dev.passOn_keeps d n).same .merge (by decide)

/-- A completion stands in the merge, but for a success that NO_DONE keeps out (R51, R53). -/
theorem Dev.complete_done (d : Dev) (e : Entry) (src code detail : Nat) (p : List W64) (h : code ≠ 0 ∨ e.noDone = false) :
    (d.complete e src code detail p).hasDone e code = true := by
  have hc : (code == 0 && e.noDone) = false := by rcases h with h | h <;> simp [h]
  unfold Dev.complete
  rw [hc, Dev.hasDone_iff]
  simp only [Bool.false_eq_true, if_false, Dev.passOn_merge, Dev.updRing]
  exact ⟨doneItem d e src code detail p, (mem_insertItem _ _ _).mpr (.inl rfl), rfl, rfl⟩

/-! ## Folds, power, raising -/

theorem forRange_inv {σ : Type} (P : σ → Prop) (n : Nat) (s : σ) (f : σ → Nat → σ) (h : P s) (hf : ∀ s i, P s → P (f s i)) :
    P (forRange n s f) := by
  unfold forRange
  generalize List.range n = l
  induction l generalizing s with
  | nil => exact h
  | cons x t ih => exact ih _ (hf _ _ h)
theorem foldl_inv {σ α : Type} (P : σ → Prop) (l : List α) (s : σ) (f : σ → α → σ) (h : P s) (hf : ∀ s i, P s → P (f s i)) :
    P (l.foldl f s) := by
  induction l generalizing s with
  | nil => exact h
  | cons x t ih => exact ih _ (hf _ _ h)

/-- Whether the main domain runs rests on PWR and THM alone. -/
theorem Keeps.mainUp {w : List Part} {d d' : Dev} (h : Keeps w d d') (h1 : Part.pwr ∉ w) (h2 : Part.thm ∉ w) : d'.mainUp = d.mainUp := by
  unfold Dev.mainUp Dev.mainOff; rw [h.same .pwr h1, h.same .thm h2]

/-- Raising an event changes only the merge and the log. -/
theorem Dev.raise_regs (d : Dev) (src unit code detail : Nat) (p : List W64) : (d.raise src unit code detail p).regs = d.regs := by
  unfold Dev.raise; dsimp only; split <;> rfl
@[simp] theorem Dev.raise_hst (d : Dev) (src unit code detail : Nat) (p : List W64) : (d.raise src unit code detail p).hst = d.hst :=
  (Dev.raise_keeps ..).same .hst (by decide)
@[simp] theorem Dev.raise_crs (d : Dev) (src unit code detail : Nat) (p : List W64) : (d.raise src unit code detail p).crs = d.crs :=
  (Dev.raise_keeps ..).same .crs (by decide)

theorem Assoc.get_filter (p : Nat → Bool) (k e : Nat) :
    ∀ m : FieldMap, Assoc.get (m.filter (fun x => p x.1)) k e = if p k then Assoc.get m k e else e
  | [] => by simp [Assoc.get]
  | (a, b) :: t => by
    rw [List.filter_cons]
    by_cases hp : p a = true
    · simp only [hp, if_true, Assoc.get]
      by_cases hk : a = k
      · subst hk; simp [hp]
      · simp [hk, Assoc.get_filter p k e t]
    · simp only [hp, Bool.false_eq_true, if_false, Assoc.get]
      rw [Assoc.get_filter p k e t]
      by_cases hk : a = k
      · subst hk; simp [hp]
      · simp [hk]

/-! ## Management requests -/

/-- A request that is taken acts (R528, R530). -/
theorem Dev.pmp_takes (d : Dev) (h : PmpHdr) (f : Dev → Dev) (ht : d.takes h = true) : d.pmp h f = f d := by
  unfold Dev.takes at ht
  simp only [Bool.and_eq_true, Bool.not_eq_true'] at ht
  obtain ⟨⟨⟨⟨⟨⟨⟨h1, h0⟩, h2⟩, h3⟩, h4⟩, h5⟩, h6⟩, h7⟩ := ht
  have hf : d.mgt.replies.find? (fun r => r.src == h.src && r.seq == h.seq) = none := by
    rw [List.find?_eq_none]
    intro r hr he
    have := List.any_eq_false.mp h2 r hr
    exact this he
  unfold Dev.pmp
  rw [h1, hf]
  simp only [h0, h3, h4, h5, h6, h7, bne, Bool.not_true, Bool.false_eq_true, if_false, Bool.or_false]

/-! ## Ring entries -/

/-- An entry at the front of its ring, with the calibration idle and no earlier entry of its class waiting, runs (R525). -/
theorem Dev.withCal_some (d : Dev) (n op : Nat) (f : Dev → Entry → Dev) (e : Entry) (h : d.front n 8 op = some e)
    (hb : d.calBusy = false) (hn : d.isNext 8 e = true) : d.withCal n op f = f d e := by unfold Dev.withCal; rw [h]; simp [hb, hn]
/-- A CAPTURE entry at the front of its ring, with no earlier entry for its port waiting, runs (R294). -/
theorem Dev.withCapture_some (d : Dev) (n op : Nat) (f : Dev → Entry → Nat → Dev) (e : Entry) (h : d.front n 7 op = some e)
    (hn : d.isNextPort e = true) : d.withCapture n op f = f d e (e.f 1 1 0) := by unfold Dev.withCapture; rw [h]; simp [hn]
/-- A course entry of a host ring at its front is taken and runs (R89); what it cannot do now leaves it there. -/
theorem Dev.courseOp_some (d : Dev) (n op : Nat) (f : Dev → Entry → Option Dev) (e : Entry) (h : d.front n 1 op = some e)
    (hf : d.ringFed n = false) : d.courseOp n op f = (f (d.pop n) e).getD d := by unfold Dev.courseOp; rw [h]; simp [hf]

end Sys2Proof.Machine
end

