-- ==== Sys2Proof/Certificates/Slice0/Obligations.lean ====
section
/-!
DEFINITION. The statements for the provers. Each says in its docstring which rules of spec/ it formalises; the hypotheses speak of the
state and the operands alone.
-/
open Sys2Proof Sys2Proof.Machine

/-! ## The block as a whole -/

/-- A step takes the command at the front of the queue and runs it on the state with the queue's rest (the row's form of a block: its
commands wait in a queue, first in, first out). -/
def Obligations.StepRunsTheFrontCommand : Prop :=
  ∀ (c : Instr) (rest : List Instr) (s : State), s.pending = c :: rest → step s = exec c { s with pending := rest }

/-- A step with a command waiting takes that command from the queue and no other, whatever the command; with none waiting, one FCLK cycle
passes (log entry 2) and the memories and the queue stand. -/
def Obligations.StepTakesOneCommand : Prop :=
  (∀ (c : Instr) (rest : List Instr) (s t : State), s.pending = c :: rest → step s = .next t → t.pending = rest) ∧
  (∀ (s : State), s.pending = [] → ∃ t, step s = .next t ∧ t.pending = [] ∧ t.mem = s.mem ∧
    t.dev.pwr.clock = (if s.dev.pwr.standby then s.dev.pwr.clock + cycleTime else s.dev.pwr.clock) ∧
    (s.dev.mainUp = false → t.dev.tmb = s.dev.tmb))

/-- Frames: a command changes no part of the device but those of its row, and the memories only if it is one of the rows that store
(Instr.writes, Instr.storesMem in Safety.lean); events and completions that wait in the merge go on waiting unless the row takes items
from the merge, and the register file keeps its canonical form. -/
def Obligations.CommandFrame : Prop :=
  ∀ (c : Instr) (s t : State), exec c s = .next t → KeepsS c.writes c.storesMem s t

/-- The invariant of the model: the memories list their bytes in rising order with no unlisted value among them, the register file holds
one entry at most for each field, and the island table one for each island. Every step keeps it, from every state that has it.
The model's choices in it: log entry 2. -/
def Obligations.StepKeepsTheInvariant : Prop :=
  ∀ (s t : State), s.mem.wf = true ∧ s.dev.regs.wf = true ∧ keysRise s.dev.pwr.isl = true → step s = .next t →
    t.mem.wf = true ∧ t.dev.regs.wf = true ∧ keysRise t.dev.pwr.isl = true

/-- The machine right after reset has the invariant of StepKeepsTheInvariant.
R540: what a full device reset leaves: domain time 0 and the beat generator stopped, every ring disabled, every MSI-X entry as at
reset, no course, every laser channel OFF, every axis OFF, no move, no light on, HOMED clear, every Beat Link port OFF, nothing waiting.
The model's choices in it: log entries 7, 9 and 11. -/
def Obligations.Reset : Prop :=
  (State.reset.mem.wf = true ∧ State.reset.dev.regs.wf = true ∧ keysRise State.reset.dev.pwr.isl = true) ∧
  (let d := State.reset.dev
  d.tmb.time = 0 ∧ d.tmb.run = false ∧ (∀ n, n < 64 → (d.ring n).st = .disabled) ∧ d.courseOpen = false ∧
    (∀ l, l < 16 → (d.chan l).st = .off) ∧ (∀ a, a < 48 → (d.axis a).st = .off) ∧ d.axs.moves = [] ∧
    (∀ m, m < 8 → (d.stepper m).homed = false) ∧ (∀ l, l < 96 → (d.light l).on = 0) ∧
    (∀ p, p < 10 → (d.bl p).st = .off) ∧ State.reset.mem = {} ∧ State.reset.pending = [])

/-- Every command completes, with a next state in its own frame, whatever the state and its operands; the register accesses do so at every
offset inside BAR0 that is aligned to their size (R16, R21, R213), and the accesses to the SRAM at every address inside it (R36, R364). No
command is refused, and a command faults only where it names a place that does not exist: a register offset outside BAR0 or not aligned, or
an address beyond the SRAM.
The model's choices in it: log entries 1 and 6.
R28, R555, R558: while the main domain is held in reset (no main power, no REF100, a latched shutdown, or a reset sequence that is not
complete), a command for a unit of that domain changes nothing.
The model's choices in it: log entry 5. -/
def Obligations.EveryCommandAnswers : Prop :=
  ((∀ (c : Instr) (s : State), c.registerAccess = false → c.sramAccess = false →
    ∃ t, exec c s = .next t ∧ KeepsS c.writes c.storesMem s t) ∧
  (∀ (s : State) (src : Source) (off : Nat) (v : W64) (w : W32), off < bar0Size → off % 8 = 0 →
    (∃ t, exec (.registerWrite src off v) s = .next t ∧ KeepsS (Instr.registerWrite src off v).writes false s t) ∧
    (∃ t, exec (.lowerHalfWrite src off w) s = .next t ∧ KeepsS (Instr.lowerHalfWrite src off w).writes false s t) ∧
    (∃ t, exec (.lowerHalfRead src off) s = .next t ∧ KeepsS (Instr.lowerHalfRead src off).writes false s t) ∧
    (∃ t, exec (.upperHalfWrite src (off + 4) w) s = .next t ∧ KeepsS (Instr.upperHalfWrite src (off + 4) w).writes false s t) ∧
    ∃ t, exec (.upperHalfRead src (off + 4)) s = .next t ∧ KeepsS (Instr.upperHalfRead src (off + 4)).writes false s t) ∧
  (∀ (s : State) (a : Nat) (bytes : List Byte) (ecc : EccRead) (clash : Bool), a + bytes.length ≤ sramSize → a < sramSize →
    (∃ t, exec (.bar2Write a bytes ecc) s = .next t ∧ KeepsS (Instr.bar2Write a bytes ecc).writes true s t) ∧
    (∃ t, exec (.bar2Read a ecc) s = .next t ∧ KeepsS (Instr.bar2Read a ecc).writes true s t) ∧
    ∃ t, exec (.scrubRead a ecc clash) s = .next t ∧ KeepsS (Instr.scrubRead a ecc clash).writes true s t) ∧
  (∀ (c : Instr) (s : State), (∀ r, exec c s ≠ .refused r) ∧
    (∀ f, exec c s = .fault f → (f = .noSuchRegister ∧ c.registerAccess = true) ∨ (f = .noSuchMemory ∧ c.sramAccess = true)))) ∧
  (∀ (c : Instr) (s t : State), s.dev.mainUp = false → c.standby = false → exec c s = .next t → t = s)

/-- R507: an event raised while main power is absent or the shutdown latch is set goes to the management log alone, behind what stands
there, with a stamp of all zeros; so the end of a sensor's grace does. -/
def Obligations.EventsWithoutMainPower : Prop :=
  let zero : Stamp := { beat := 0, cycle := 0, source := 0, sub := 0, device := 0, time := 0 }
  (∀ (d : Dev) (src unit code detail : Nat) (payload : List W64), (d.pwr.mainPg = false ∨ d.thm.latch = true) →
    ∃ x, (d.raise src unit code detail payload).mgt.log = (x :: d.mgt.log).take 32768 ∧
      (d.raise src unit code detail payload).ev = d.ev ∧ x.isEvent = true ∧ x.code = code ∧ x.detail = detail % 2 ^ 32 ∧
      x.payload = payload ∧ x.stamp = zero) ∧
  (∀ (s : State) (n : Nat), (s.dev.pwr.mainPg = false ∨ s.dev.thm.latch = true) → n < 24 → (s.dev.sensor n).st = .grace →
    s.dev.graceOver n = true → ∃ t x, exec (.graceExpiry n) s = .next t ∧ t.dev.mgt.log = (x :: s.dev.mgt.log).take 32768 ∧
      x.code = 0xF004 ∧ x.detail = n ∧ x.stamp = zero)

/-! ## Registers -/

/-- R6, R17, R21: a 64-bit write of a register, by the host or by the side-band, which writes it as two halves. It is stored:
every RW field takes its value, every RWS field takes it as shadow while the value in effect stands, every W1C bit written as 1 clears, and
no field of another register changes. One of a register whose block checks what is written (Reg.checked) may be refused instead, and then
changes nothing but the block's REFUSED flag. The registers whose write does more (Reg.acting) have commands of their own.
The model's choices in it: log entries 16 and 17.
R3, R7: a write at an offset that no chapter defines, or at an in-effect copy, is ignored, whoever writes; R28: so is one that does
not reach the block, the main domain being off; R16: an access outside BAR0, or one that is not aligned to its size, is no register
access, and the model stops by name.
The model's choices in it: log entry 6. -/
def Obligations.RegisterWrites : Prop :=
  (∀ (s : State) (src : Source) (off : Nat) (v : W64) (r : RegDef) (i j : Nat),
    s.dev.regs.wf = true → s.dev.cal.run = none → s.dev.reaches src off = true → off < bar0Size → off % 8 = 0 →
    r ∉ Reg.acting → regAt off = some (r, i, j) →
    ∃ t, exec (.registerWrite src off v) s = .next t ∧ KeepsS [.rw, .shadow, .w1c, .latches] false s t ∧
      (src = .host → KeepsS [.rw, .shadow, .w1c] false s t) ∧ at' t.dev.mgt.stage 1 = (if src = .host then at' s.dev.mgt.stage 1 else none) ∧
      ((∀ f ∈ r.fields,
        (f.acc = .rw → t.dev.cur f i j = f.of v) ∧
        (f.acc = .rws → t.dev.shadow f i j = f.of v ∧ t.dev.eff f i j = s.dev.eff f i j) ∧
        (f.acc = .w1c → t.dev.flag f i j = s.dev.flag f i j &&& (2 ^ f.width - 1 - f.of v))) ∧
      (∀ k d, k / 64 ≠ off → Assoc.get t.dev.regs.rw k d = Assoc.get s.dev.regs.rw k d ∧
        Assoc.get t.dev.regs.shadow k d = Assoc.get s.dev.regs.shadow k d ∧
        Assoc.get t.dev.regs.w1c k d = Assoc.get s.dev.regs.w1c k d) ∨
      (r ∈ Reg.checked ∧ t.dev.regs.rw = s.dev.regs.rw ∧ t.dev.regs.shadow = s.dev.regs.shadow ∧
        ∃ f, refusedBit (blockOf off) = some f ∧ t.dev.flag f = 1 ∧
          ∀ k d, k ≠ f.key 0 0 → Assoc.get t.dev.regs.w1c k d = Assoc.get s.dev.regs.w1c k d))) ∧
  ((∀ (s : State) (off : Nat) (v : W64), off < bar0Size → off % 8 = 0 → atMsix off = false →
    (isCopy off = true ∨ regAt off = none) → exec (.registerWrite .host off v) s = .next s ∧
    ∃ t, exec (.registerWrite .sideband off v) s = .next t ∧ KeepsS [.latches] false s t) ∧
  (∀ (s : State) (src : Source) (off : Nat) (v : W64), off < bar0Size → off % 8 = 0 → s.dev.reaches src off = false →
    exec (.registerWrite src off v) s = .next s) ∧
  (∀ (s : State) (src : Source) (off : Nat) (v : W64) (w : W32), bar0Size ≤ off ∨ off % 8 ≠ 0 →
    exec (.registerWrite src off v) s = .fault .noSuchRegister ∧ exec (.lowerHalfWrite src off w) s = .fault .noSuchRegister ∧
    exec (.lowerHalfRead src off) s = .fault .noSuchRegister) ∧
  (∀ (s : State) (src : Source) (off : Nat) (w : W32), bar0Size ≤ off ∨ off % 8 ≠ 4 →
    exec (.upperHalfWrite src off w) s = .fault .noSuchRegister ∧ exec (.upperHalfRead src off) s = .fault .noSuchRegister))

/-- R213: a lower-half write waits in its source's latch, and the upper-half write of the same register then lands both halves as one
64-bit write and empties the latch; with nothing staged the lower half stands, W1C bits counting as 0. A lower-half read returns the
lower half and keeps the upper, which the upper-half read of the same register then returns and forgets.
The model's choices in it: log entry 17.
R529, R530, R28: REG_READ answers OK with the value of a 32-bit half, or BLOCK_OFF with zeros while the register is off; REG_WRITE
answers OK and acts as a half write of the side-band does; an offset outside BAR0 is a bad argument.
The model's choices in it: log entry 18. -/
def Obligations.HalfRegisterAccesses : Prop :=
  ((∀ (s : State) (src : Source) (off : Nat) (v : W32), off < bar0Size → off % 8 = 0 → atMsix off = false →
    s.dev.reaches src off = true → ∃ t, exec (.lowerHalfWrite src off v) s = .next t ∧ KeepsS [.latches] false s t ∧
      at' t.dev.mgt.stage (srcIndex src) = some { off, v } ∧ t.dev.mgt.rdLatch = s.dev.mgt.rdLatch) ∧
  (∀ (s : State) (src : Source) (off : Nat) (v : W32), off < bar0Size → off % 8 = 0 → atMsix off = false → atMsix (off + 4) = false →
    s.dev.reaches src (off + 4) = true →
    let low := match at' s.dev.mgt.stage (srcIndex src) with
      | some l => if l.off = off then l.v else s.dev.presentLow off
      | none => s.dev.presentLow off
    ∃ t, exec (.upperHalfWrite src (off + 4) v) s = .next t ∧ at' t.dev.mgt.stage (srcIndex src) = none ∧
      exec (.registerWrite src off (v ++ low))
        { s with dev.mgt.stage := upd s.dev.mgt.stage (srcIndex src) (fun _ => none) } = .next t) ∧
  (∀ (s : State) (src : Source) (off : Nat) (r : RegDef) (i j : Nat), off < bar0Size → off % 8 = 0 → atMsix off = false →
    s.dev.reaches src off = true → regAt off = some (r, i, j) → readsFree r = false →
    ∃ t, exec (.lowerHalfRead src off) s = .next t ∧ KeepsS [.out, .latches] false s t ∧
      s.says t (.regValue src (((s.dev.regValue s.mem off 0).extractLsb' 0 32).zeroExtend 64)) ∧
      at' t.dev.mgt.rdLatch (srcIndex src) = some { off, v := (s.dev.regValue s.mem off 0).extractLsb' 32 32 }) ∧
  (∀ (s : State) (src : Source) (off : Nat) (v : W32), off < bar0Size → off % 8 = 0 → atMsix (off + 4) = false →
    s.dev.reaches src (off + 4) = true → at' s.dev.mgt.rdLatch (srcIndex src) = some { off, v } →
    ∃ t, exec (.upperHalfRead src (off + 4)) s = .next t ∧ KeepsS [.out, .latches] false s t ∧
      s.says t (.regValue src (v.zeroExtend 64)) ∧ at' t.dev.mgt.rdLatch (srcIndex src) = none)) ∧
  ((∀ (s : State) (h : PmpHdr) (off : Nat) (r : RegDef) (i j : Nat), s.dev.takes h = true → off < bar0Size → off % 8 = 0 →
    atMsix off = false → s.dev.blockOff off = false → regAt off = some (r, i, j) → readsFree r = false →
    ∃ t, exec (.regRead h off) s = .next t ∧ KeepsS [.out, .latches, .replies] false s t ∧
      s.says t (.pmp h.src h.seq 0 (leBytes 4 ((s.dev.regValue s.mem off 0).extractLsb' 0 32).toNat)) ∧
      at' t.dev.mgt.rdLatch 1 = some { off, v := (s.dev.regValue s.mem off 0).extractLsb' 32 32 }) ∧
  (∀ (s : State) (h : PmpHdr) (off : Nat) (v : W32), s.dev.takes h = true → off < bar0Size → off % 8 = 0 →
    atMsix off = false → s.dev.blockOff off = false →
    ∃ t, exec (.regWrite h off v) s = .next t ∧ KeepsS [.out, .latches, .replies] false s t ∧ s.says t (.pmp h.src h.seq 0 []) ∧
      at' t.dev.mgt.stage 1 = some { off, v }) ∧
  (∀ (s : State) (h : PmpHdr) (off : Nat) (v : W32), s.dev.takes h = true → off < bar0Size → off % 4 = 0 → s.dev.blockOff off = true →
    (∃ t, exec (.regRead h off) s = .next t ∧ KeepsS [.out, .replies] false s t ∧ s.says t (.pmp h.src h.seq 1 [0, 0, 0, 0])) ∧
    ∃ t, exec (.regWrite h off v) s = .next t ∧ KeepsS [.out, .replies] false s t ∧ s.says t (.pmp h.src h.seq 1 [])) ∧
  (∀ (s : State) (h : PmpHdr) (off : Nat) (v : W32), s.dev.takes h = true → bar0Size ≤ off →
    (∃ t, exec (.regRead h off) s = .next t ∧ KeepsS [.out, .replies] false s t ∧ s.says t (.pmp h.src h.seq 3 [])) ∧
    ∃ t, exec (.regWrite h off v) s = .next t ∧ KeepsS [.out, .replies] false s t ∧ s.says t (.pmp h.src h.seq 3 [])))

/-! ## Host interface -/

/-- R35, R37, R38, R60, R64, R69, R548: what the PCIe link and its resets leave of HST. A link that trains, at a speed and width that R35
allows, reports them, and one at any other does not come up; a link that falls is reported; a function-level reset puts every register of
HST back to its reset value, disables every ring, clears the MSI-X table, and touches no other block's registers; entries that a ring
already passed to their block stay there. A write of the configuration space shows in the bits that rule requests and MSI-X.
The model's choices in it: log entries 29, 30 and 112.
R44, R45, R49: the doorbell table is polled only in cycle 0 of a poll beat, once, while it is enabled and requests may be made; a poll
while a read is outstanding only counts a skip. A read that comes back with an error is reported. From one that succeeds, every active ring
takes the host's index if that lies within the ring's size of HST's own, and goes to the error state otherwise.
The model's choices in it: log entries 4 and 31. -/
def Obligations.HostLink : Prop :=
  ((∀ (s : State) (speed width : Nat), s.dev.mainUp = true → s.dev.hst.perst = false → (∀ l, l < 8 → s.dev.testing l = false) →
    speed ∈ [2, 3, 4] → width ∈ [1, 2, 4, 8] → ∃ t, exec (.pcieLinkUp speed width) s = .next t ∧ KeepsS [.merge, .out, .hst, .msn, .log] false s t ∧
      t.dev.hst.linkUp = true ∧ t.dev.hst.speed = speed ∧ t.dev.hst.width = width ∧ t.dev.hst.rings = s.dev.hst.rings) ∧
  (∀ (s : State) (speed width : Nat), (speed ∉ [2, 3, 4] ∨ width ∉ [1, 2, 4, 8]) → exec (.pcieLinkUp speed width) s = .next s) ∧
  (∀ (s : State), s.dev.mainUp = true → s.dev.hst.linkUp = true →
    ∃ t, exec .pcieLinkDown s = .next t ∧ t.dev.hst.linkUp = false ∧ t.dev.canRequest = false ∧ t.dev.hasEvent 0x100A 0 = true) ∧
  (∀ (s : State), s.dev.mainUp = true → s.dev.regs.wf = true →
    ∃ t, exec .functionLevelReset s = .next t ∧ t.dev.hst.linkUp = s.dev.hst.linkUp ∧ t.dev.flag Reg.HST_STATUS_FLR_SEEN = 1 ∧
      t.dev.hasEvent 0x100B 0 = true ∧ t.dev.hst.msix = Vector.replicate 256 {} ∧
      (∀ n, n < 64 → (t.dev.ring n).st = .disabled ∧ (t.dev.ring n).inQ = (s.dev.ring n).inQ) ∧
      (∀ k e, 0x100000 * 64 ≤ k → k < 0x200000 * 64 → Assoc.get t.dev.regs.rw k e = e) ∧
      (∀ k e, k < 0x100000 * 64 ∨ 0x200000 * 64 ≤ k → Assoc.get t.dev.regs.rw k e = Assoc.get s.dev.regs.rw k e)) ∧
  (∀ (s : State) (bme d3hot en mask : Bool), s.dev.mainUp = true → s.dev.hst.linkUp = true →
    ∃ t, exec (.pcieConfigWrite ⟨bme, d3hot⟩ ⟨en, mask⟩) s = .next t ∧ KeepsS [.out, .hst] false s t ∧ t.dev.hst.bme = bme ∧
      t.dev.hst.d3hot = d3hot ∧ t.dev.hst.msixEnable = en ∧ t.dev.hst.msixMask = mask ∧ t.dev.hst.rings = s.dev.hst.rings ∧ (t.dev.canRequest = true ↔ bme = true ∧ d3hot = false)) ∧
  (∀ (s : State), s.dev.mainUp = true →
    ∃ t, exec .pciePerstN s = .next t ∧ t.dev.hst.perst = true ∧ t.dev.hst.linkUp = false ∧
      ∀ n, n < 64 → (t.dev.ring n).st = .disabled) ∧
  (∀ (s : State), ∃ t, exec .pciePerstNRise s = .next t ∧ KeepsS [.hst] false s t ∧ t.dev.hst = { s.dev.hst with perst := false })) ∧
  ((∀ (s : State), s.dev.mainUp = true → s.dev.act Reg.HST_DB_BASE_EN = 1 → s.dev.canRequest = true → s.dev.tmb.cycle = 0 →
    s.dev.hst.polled ≠ s.dev.beatWide → s.dev.beatMultiple (2 ^ s.dev.act Reg.HST_CTL_POLL_LOG2) = true →
    (s.dev.hst.dbOut = false → ∃ t, exec .doorbellPoll s = .next t ∧ KeepsS [.out, .hst] false s t ∧
      t.dev.hst = { s.dev.hst with dbOut := true, polled := s.dev.beatWide } ∧
      s.says t (.hostRead (s.dev.act Reg.HST_DB_BASE_ADDR * 512) 512)) ∧
    (s.dev.hst.dbOut = true → s.dev.regs.wf = true → ∃ t, exec .doorbellPoll s = .next t ∧ KeepsS [.cnt, .hst] false s t ∧
      t.dev.hst = { s.dev.hst with polled := s.dev.beatWide } ∧ t.dev.count Reg.HST_DB_SKIPS_COUNT = (s.dev.count Reg.HST_DB_SKIPS_COUNT + 1) % 2 ^ 64)) ∧
  (∀ (s : State), s.dev.mainUp = true →
    (s.dev.act Reg.HST_DB_BASE_EN ≠ 1 ∨ s.dev.canRequest = false ∨ s.dev.tmb.cycle ≠ 0 ∨ s.dev.hst.polled = s.dev.beatWide ∨
      s.dev.beatMultiple (2 ^ s.dev.act Reg.HST_CTL_POLL_LOG2) = false) → exec .doorbellPoll s = .next s) ∧
  (∀ (s : State), s.dev.mainUp = true → s.dev.hst.dbOut = true → s.dev.regs.wf = true →
    ∃ t, exec (.doorbellReturn none) s = .next t ∧ KeepsS [.w1c, .merge, .hst, .log] false s t ∧
      t.dev.hst = { s.dev.hst with dbOut := false } ∧ t.dev.flag Reg.HST_STATUS_DB_FETCH_ERR = 1 ∧ t.dev.hasEvent 0x1007 0 = true) ∧
  (∀ (s : State) (table : List W32) (n : Nat), s.dev.mainUp = true → s.dev.hst.dbOut = true → n < 64 →
    (s.dev.ring n).st = .active →
    let v := (table.getD n 0).toNat
    let dist := if isSubmission (s.dev.ringClass n) then idxDiff v (s.dev.ring n).index else idxDiff (s.dev.ring n).index v
    ∃ t, exec (.doorbellReturn (some table)) s = .next t ∧ t.dev.hst.dbOut = false ∧
      (dist ≤ 2 ^ s.dev.ringLog2 n → (t.dev.ring n).st = .active ∧ (t.dev.ring n).host = v) ∧
      (2 ^ s.dev.ringLog2 n < dist → (t.dev.ring n).st = .error ∧ (t.dev.ring n).lastError = 0x1005 ∧
        t.dev.hasEvent 0x1005 n = true)))

/-- R20, R48, R50, R68: a write that sets ENABLE is stored, unless the ring's configuration is bad; then the ring stays as it is, REFUSED is
set and BAD_RING_CFG is recorded and reported. One that clears ENABLE of a submission ring is stored. At the next beat edge, which samples
ENABLE, a disabled ring that is enabled starts from index 0, and a ring that is no longer enabled is disabled and leaves its entries with
their block (what `Dev.ringEdge` does for each ring). No other ring changes.
The model's choices in it: log entries 15, 16 and 32.
R52, R46, R51: an entry that arrives counts, and the ring moves on to the next index. One that fails a check completes with the check's
code; one that passes them joins its block's queue where no fence holds it back. An entry whose fetch failed puts its ring into the error
state.
The model's choices in it: log entries 31 and 32. -/
def Obligations.RingsAndEntries : Prop :=
  ((∀ (s : State) (src : Source) (n : Nat) (v : W64), s.dev.mainUp = true → s.dev.regs.wf = true → n < 64 →
    s.dev.cur Reg.HST_RING_CFG_ENABLE n = 0 → Reg.HST_RING_CFG_ENABLE.of v = 1 →
    let c := Reg.HST_RING_CFG_CLASS.of v
    let k := Reg.HST_RING_CFG_LOG2_SIZE.of v
    let done := Reg.HST_RING_CFG_DONE_RING.of v
    let bad := ¬ ((1 ≤ c ∧ c ≤ 8) ∨ isCompletion c = true) ∨ k < 4 ∨ 16 < k ∨
      (s.dev.cur Reg.HST_RING_BASE_ADDR n * 64) % min 4096 (64 * 2 ^ k) ≠ 0 ∨
      ((1 ≤ c ∧ c ≤ 8) ∧ ¬ (s.dev.cur Reg.HST_RING_CFG_ENABLE done = 1 ∧ s.dev.cur Reg.HST_RING_CFG_CLASS done = clsDone)) ∨
      (Reg.HST_RING_CFG_FOREIGN.of v = 1 ∧ c ≠ clsEvent)
    ∃ t, exec (.ringEnable src n v) s = .next t ∧ KeepsS [.rw, .shadow, .w1c, .merge, .hst, .log] false s t ∧
      (∀ m, m < 64 → m ≠ n → t.dev.ring m = s.dev.ring m) ∧
      (bad → t.dev.regs.rw = s.dev.regs.rw ∧ t.dev.flag Reg.HST_STATUS_REFUSED = 1 ∧ (t.dev.ring n).st = (s.dev.ring n).st ∧
        (t.dev.ring n).lastError = 0x100C ∧ t.dev.hasEvent 0x100C n = true) ∧
      (¬ bad → KeepsS [.rw, .shadow, .w1c] false s t ∧
        ∀ f ∈ Reg.HST_RING_CFG.fields, f.acc = .rw → t.dev.cur f n = f.of v)) ∧
  (∀ (s : State) (src : Source) (n : Nat) (v : W64), s.dev.mainUp = true → s.dev.regs.wf = true → n < 64 →
    s.dev.cur Reg.HST_RING_CFG_ENABLE n = 1 → Reg.HST_RING_CFG_ENABLE.of v = 0 → isSubmission (s.dev.cur Reg.HST_RING_CFG_CLASS n) = true →
    (∀ f ∈ Reg.HST_RING_CFG.fields, f ≠ Reg.HST_RING_CFG_ENABLE → f.of v = s.dev.cur f n) →
    ∃ t, exec (.ringDisable src n v) s = .next t ∧ KeepsS [.rw, .shadow, .w1c] false s t ∧
      t.dev.cur Reg.HST_RING_CFG_ENABLE n = 0 ∧ t.dev.regs.rwAct = s.dev.regs.rwAct) ∧
  (∀ (d : Dev) (n : Nat), n < 64 →
    let t := d.ringEdge n
    Keeps [.hst] d t ∧ (∀ m, m < 64 → m ≠ n → t.ring m = d.ring m) ∧
    ((d.ring n).st = .disabled → d.act Reg.HST_RING_CFG_ENABLE n = 1 →
      (t.ring n).st = .active ∧ (t.ring n).index = 0 ∧ (t.ring n).host = 0 ∧ (t.ring n).holdQ = [] ∧ (t.ring n).inQ = (d.ring n).inQ) ∧
    (d.act Reg.HST_RING_CFG_ENABLE n = 0 → (t.ring n).st = .disabled ∧ (t.ring n).inQ = (d.ring n).inQ ∧
      (t.ring n).fenced = (d.ring n).fenced ∧ ((d.ring n).st ≠ .disabled → (t.ring n).holdQ = [])))) ∧
  ((∀ (s : State) (n : Nat) (words : List W64) (code : Nat), s.dev.mainUp = true → s.dev.regs.wf = true → n < 64 →
    0 < (s.dev.ring n).fetching → (s.dev.ring n).st = .active →
    s.dev.entryCheck (s.dev.ringClass n) { ring := n, idx := (s.dev.ring n).index, words } = some code → code ≠ 0 →
    ∃ t, exec (.entryArrival n (.ok words)) s = .next t ∧
      t.dev.hasDone { ring := n, idx := (s.dev.ring n).index, words } code = true ∧
      (t.dev.ring n).index = ((s.dev.ring n).index + 1) % 2 ^ 32 ∧ (t.dev.ring n).fetching = (s.dev.ring n).fetching - 1 ∧
      (t.dev.ring n).st = .active) ∧
  (∀ (s : State) (n : Nat) (words : List W64), s.dev.mainUp = true → n < 64 →
    0 < (s.dev.ring n).fetching → (s.dev.ring n).st = .active → (s.dev.ring n).fenced = [] →
    let e : Entry := { ring := n, idx := (s.dev.ring n).index, words }
    s.dev.entryCheck (s.dev.ringClass n) e = none → (e.fence = false ∨ (s.dev.ring n).passed = 0) →
    ∃ t, exec (.entryArrival n (.ok words)) s = .next t ∧
      (t.dev.ring n).inQ = (s.dev.ring n).inQ ++ [{ e with seq := s.dev.hst.passSeq, beat := s.dev.beatWide }] ∧
      (t.dev.ring n).passed = (s.dev.ring n).passed + 1 ∧ (t.dev.ring n).index = ((s.dev.ring n).index + 1) % 2 ^ 32 ∧
      ∀ m, m < 64 → m ≠ n → t.dev.ring m = s.dev.ring m) ∧
  (∀ (s : State) (n : Nat), s.dev.mainUp = true → n < 64 → 0 < (s.dev.ring n).fetching → (s.dev.ring n).st = .active →
    ∃ t, exec (.entryArrival n .fail) s = .next t ∧ (t.dev.ring n).st = .error ∧ (t.dev.ring n).lastError = 0x1006 ∧
      (t.dev.ring n).index = (s.dev.ring n).index ∧ t.dev.hasEvent 0x1006 n = true))

/-- R67: a route that names only enabled rings of the right class is stored; any other write of it is refused and changes no route.
The model's choices in it: log entry 16.
R53, R55, R57, R59: the first item of the merge, in stamp order, is taken from it, once the cycle of its stamp is over. Its ring's host memory first receives bytes 8 to 63
of the entry and then bytes 0 to 7, at the slot of HST's own index, which moves on. With no free slot the entry waits on chip, and an
event or a record that finds 32 waiting is lost. An event enters the management log in the same order.
The model's choices in it: log entries 4, 30, 34 and 112.
R60, R61: a moderation time that has run out signals the ring's vector, which is sent if neither it nor the function is masked, MSI-X is
enabled and requests may be made, and is pending otherwise; a write of a dword of the MSI-X table shows in that entry and in no other.
The model's choices in it: log entries 29, 30 and 34. -/
def Obligations.CompletionsAndSignals : Prop :=
  (∀ (s : State) (src : Source) (b : Nat) (v : W64), s.dev.mainUp = true → s.dev.regs.wf = true → b < 16 →
    let names := fun (n c : Nat) => s.dev.cur Reg.HST_RING_CFG_ENABLE n = 1 ∧ s.dev.cur Reg.HST_RING_CFG_CLASS n = c
    let good := (Reg.HST_EVT_ROUTE_EVT_EN.of v = 0 ∨ names (Reg.HST_EVT_ROUTE_EVT_RING.of v) clsEvent) ∧
      (Reg.HST_EVT_ROUTE_STAT_EN.of v = 0 ∨ names (Reg.HST_EVT_ROUTE_STAT_RING.of v) clsStat)
    ∃ t, exec (.routeWrite src b v) s = .next t ∧ KeepsS [.rw, .shadow, .w1c] false s t ∧
      (good → (∀ f ∈ Reg.HST_EVT_ROUTE.fields, f.acc = .rw → t.dev.cur f b = f.of v) ∧
        t.dev.flag Reg.HST_STATUS_REFUSED = s.dev.flag Reg.HST_STATUS_REFUSED) ∧
      (¬ good → t.dev.regs.rw = s.dev.regs.rw ∧ t.dev.flag Reg.HST_STATUS_REFUSED = 1)) ∧
  ((∀ (s : State) (x : Item) (rest : List Item) (n : Nat), s.dev.mainUp = true → n < 64 → s.dev.ev.merge = x :: rest →
    (x.stamp.beat ≠ s.dev.beat ∨ x.stamp.cycle ≠ min s.dev.tmb.cycle 127) → x.isEvent = false → s.dev.ringFor x = some n → (∀ m, m < 64 → (s.dev.ring m).holdQ = [] ∧ (s.dev.ring m).loss = none) →
    (s.dev.ring n).st = .active →
    (s.dev.canRequest = true → 0 < s.dev.ringFree n →
      let ws := entryWords (s.dev.ringLog2 n) (s.dev.ring n).index (if s.dev.ringClass n == clsStat then 0 else (s.dev.ring n).evSeq) x
      let a := s.dev.slotAddr n (s.dev.ring n).index
      ∃ t, exec .completionWrite s = .next t ∧ t.dev.ev.merge = rest ∧ t.dev.mgt.log = s.dev.mgt.log ∧
        (t.dev.ring n).index = ((s.dev.ring n).index + 1) % 2 ^ 32 ∧
        ∃ signal, t.dev.ev.out = signal ++ .hostWrite a (ws.take 1) :: .hostWrite (a + 8) (ws.drop 1) :: s.dev.ev.out) ∧
    (s.dev.ringFree n = 0 →
      ∃ t, exec .completionWrite s = .next t ∧ t.dev.ev.merge = rest ∧ (t.dev.ring n).holdQ = [x] ∧
        (t.dev.ring n).index = (s.dev.ring n).index)) ∧
  (∀ (s : State) (x : Item) (rest : List Item), s.dev.mainUp = true → s.dev.ev.merge = x :: rest →
    (x.stamp.beat ≠ s.dev.beat ∨ x.stamp.cycle ≠ min s.dev.tmb.cycle 127) → x.isEvent = true → s.dev.mgt.log.length < 32768 →
    ∃ t, exec .completionWrite s = .next t ∧ t.dev.mgt.log = x :: s.dev.mgt.log ∧
      t.dev.mgt.nextSeq = (s.dev.mgt.nextSeq + 1) % 2 ^ 32) ∧
  (∀ (s : State) (x : Item) (rest : List Item), s.dev.mainUp = true → s.dev.ev.merge = x :: rest → x.stamp.beat = s.dev.beat →
    x.stamp.cycle = min s.dev.tmb.cycle 127 → (∀ m, m < 64 → (s.dev.ring m).holdQ = [] ∧ (s.dev.ring m).loss = none) →
    exec .completionWrite s = .next s) ∧
  (∀ (s : State) (x : Item) (n : Nat), n < 64 → (s.dev.ring n).st = .active → (s.dev.ring n).holdQ.length = 32 →
    (s.dev.ring n).loss = none → (∀ r i g, x.kind ≠ .done r i g) →
    ((s.dev.deliver n x).ring n).holdQ = (s.dev.ring n).holdQ ∧
      ((s.dev.deliver n x).ring n).loss = some { count := 1, first := x.stamp, last := x.stamp })) ∧
  ((∀ (s : State) (n b : Nat), s.dev.mainUp = true → n < 64 → s.dev.act Reg.HST_RING_IRQ_IRQ_EN n = 1 →
    s.dev.act Reg.HST_RING_IRQ_MOD_BEATS n ≠ 0 → (s.dev.ring n).firstBeat = some b →
    (s.dev.act Reg.HST_RING_IRQ_MOD_BEATS n : Int) ≤ beatDiff s.dev.beat b →
    let vec := s.dev.act Reg.HST_RING_IRQ_VECTOR n
    let m := at' s.dev.hst.msix vec
    ∃ t, exec (.msixModTimer n) s = .next t ∧ KeepsS [.out, .hst] false s t ∧ (t.dev.ring n).unsignalled = 0 ∧
      (t.dev.ring n).firstBeat = none ∧
      (m.ctrl.getLsbD 0 = false ∧ s.dev.canRequest = true ∧ s.dev.hst.msixEnable = true ∧ s.dev.hst.msixMask = false →
        s.says t (.msix vec m.addr m.data)) ∧
      (m.ctrl.getLsbD 0 = true ∨ s.dev.canRequest = false ∨ s.dev.hst.msixEnable = false ∨ s.dev.hst.msixMask = true → vec < 256 →
        t.dev.ev.out = s.dev.ev.out ∧ (at' t.dev.hst.msix vec).pending = true)) ∧
  (∀ (s : State) (k : Nat) (v : W32), s.dev.mainUp = true → k < 1024 → (at' s.dev.hst.msix (k / 4)).pending = false →
    ∃ t, exec (.msixTableAccess (0x40000 + 4 * k) (.write32 v)) s = .next t ∧ KeepsS [.out, .hst] false s t ∧
      t.dev.msixDword k = (if k % 4 = 3 then v &&& 1 else v) ∧ ∀ j, j < 1024 → j ≠ k → t.dev.msixDword j = s.dev.msixDword j) ∧
  (∀ (s : State) (k : Nat), s.dev.mainUp = true → k < 1024 →
    ∃ t, exec (.msixTableAccess (0x40000 + 4 * k) .read32) s = .next t ∧ KeepsS [.out] false s t ∧
      s.says t (.regValue .host ((s.dev.msixDword k).zeroExtend 64))))

/-- R36, R364, R365, R366: BAR2 writes reach the SRAM only while they are allowed and no course is open; dropped ones are counted. A write
below the parameter banks changes its own bytes and no other. A BAR2 read returns the eight bytes of its word, or, of the words the units
work in, what they hold (a free value, log entry 73), and an error that the check bits show is counted and reported, as the scrubber's is.
The model's choices in it: log entries 73 and 109.
R373, R374: the ECC check of a DRAM read: a corrected word counts and is reported once in a stats epoch, an uncorrectable one counts and is
reported, both by the channel that holds the address; an address beyond the channels in service is an address error. No read changes the
memories.
The model's choices in it: log entries 12 and 84. -/
def Obligations.MemoryReads : Prop :=
  ((∀ (s : State) (a : Nat) (bytes : List Byte) (ecc : EccRead), s.dev.mainUp = true → s.mem.wf = true → a + bytes.length ≤ sramSize →
    s.dev.act Reg.HST_CTL_BAR2_WR_EN = 1 → s.dev.courseOpen = false →
    ∃ t, exec (.bar2Write a bytes ecc) s = .next t ∧ KeepsS [.cnt, .merge, .memc, .log] true s t ∧
      (ecc = .clean → (∀ w, s.mem.isPoisoned w = false) → t.dev = s.dev) ∧
      (∀ i, (h : i < bytes.length) → a + i < 0x2000000 ∨ 0x2080000 ≤ a + i → a + i < sramReserved →
        byteAt t.mem.sram (a + i) = bytes[i]) ∧
      (∀ b, b < a ∨ a + bytes.length ≤ b → b < 0x2000000 ∨ 0x2080000 ≤ b → byteAt t.mem.sram b = byteAt s.mem.sram b) ∧
      t.mem.dram = s.mem.dram) ∧
  (∀ (s : State) (a : Nat) (bytes : List Byte) (ecc : EccRead), s.dev.mainUp = true → s.dev.regs.wf = true →
    a + bytes.length ≤ sramSize → s.dev.act Reg.HST_CTL_BAR2_WR_EN = 0 ∨ s.dev.courseOpen = true →
    ∃ t, exec (.bar2Write a bytes ecc) s = .next t ∧ KeepsS [.cnt] false s t ∧
      t.dev.count Reg.HST_BAR2_DROPS_COUNT = (s.dev.count Reg.HST_BAR2_DROPS_COUNT + 1) % 2 ^ 64) ∧
  (∀ (s : State) (a : Nat) (ecc : EccRead), s.dev.mainUp = true → s.dev.regs.wf = true → a < sramReserved →
    let e := if s.mem.isPoisoned (a / 8 * 8) then .uncorrectable else ecc
    let bad := e == .uncorrectable
    ∃ t, exec (.bar2Read a ecc) s = .next t ∧ KeepsS [.cnt, .merge, .out, .freeCount, .memc, .log] true s t ∧
      t.mem.sram = s.mem.sram ∧ t.mem.dram = s.mem.dram ∧
      (sramWorking (a / 8 * 8) = false → s.says t (.bar2 (readBytes s.mem.sram (a / 8 * 8) 8) bad)) ∧
      (sramWorking (a / 8 * 8) = true → s.says t (.bar2 (leBytes 8 (Config.freeValue s.dev.freeCount)) bad)) ∧
      (e = .clean → t.mem = s.mem ∧ KeepsS [.out, .freeCount] false s t) ∧
      (e = .corrected → t.dev.count Reg.MEM_STAT_SRAM_CE_COUNT = (s.dev.count Reg.MEM_STAT_SRAM_CE_COUNT + 1) % 2 ^ 64 ∧
        (s.dev.memc.ceSram = false → t.dev.hasEvent 0xA001 0 = true)) ∧
      (e = .uncorrectable → t.mem.isPoisoned (a / 8 * 8) = true ∧ t.dev.hasEvent 0xA002 0 = true ∧
        t.dev.count Reg.MEM_STAT_SRAM_UE_COUNT = (s.dev.count Reg.MEM_STAT_SRAM_UE_COUNT + 1) % 2 ^ 64)) ∧
  (∀ (s : State) (a : Nat) (ecc : EccRead), s.dev.mainUp = true → sramReserved ≤ a → a < sramSize →
    ∃ t, exec (.bar2Read a ecc) s = .next t ∧ KeepsS [.out] false s t ∧ s.says t (.bar2 (List.replicate 8 0) false)) ∧
  (∀ (s : State) (a : Nat), s.dev.mainUp = true → s.dev.regs.wf = true → a < sramReserved →
    s.dev.act Reg.MEM_SRAM_CTL_SCRUB_PERIOD ≠ 0 → ∀ (ecc : EccRead) (clash : Bool),
    let e := if s.mem.isPoisoned (a / 8 * 8) then .uncorrectable else ecc
    ∃ t, exec (.scrubRead a ecc clash) s = .next t ∧ KeepsS [.cnt, .merge, .memc, .log] true s t ∧ t.mem.sram = s.mem.sram ∧
      t.mem.dram = s.mem.dram ∧ (clash = true ∨ e ≠ .uncorrectable → t.mem = s.mem) ∧ (e = .clean → t.dev = s.dev) ∧
      (e = .corrected → t.dev.count Reg.MEM_STAT_SRAM_CE_COUNT = (s.dev.count Reg.MEM_STAT_SRAM_CE_COUNT + 1) % 2 ^ 64) ∧
      (e = .uncorrectable → (clash = false → t.mem.isPoisoned (a / 8 * 8) = true) ∧ t.dev.hasEvent 0xA002 0 = true ∧
        t.dev.count Reg.MEM_STAT_SRAM_UE_COUNT = (s.dev.count Reg.MEM_STAT_SRAM_UE_COUNT + 1) % 2 ^ 64)) ∧
  (∀ (s : State) (a : Nat) (ecc : EccRead) (clash : Bool), a < sramSize → s.dev.act Reg.MEM_SRAM_CTL_SCRUB_PERIOD = 0 →
    exec (.scrubRead a ecc clash) s = .next s)) ∧
  (∀ (s : State) (a req : Nat), s.dev.mainUp = true → s.dev.regs.wf = true →
    let top := gib * (s.dev.ddrSize 0 + s.dev.ddrSize 1)
    let c := if s.dev.interleaved then bitsOf a 12 12 else if a < gib * s.dev.ddrSize 0 then 0 else 1
    (a < top →
      exec (.dramReadReturn a req .clean) s = .next s ∧
      (∃ t, exec (.dramReadReturn a req .corrected) s = .next t ∧ KeepsS [.cnt, .merge, .memc, .log] false s t ∧
        t.dev.count Reg.MEM_STAT_DRAM_CE_COUNT = (s.dev.count Reg.MEM_STAT_DRAM_CE_COUNT + 1) % 2 ^ 64 ∧ t.dev.memc.ceDram = true ∧
        (s.dev.memc.ceDram = false → t.dev.hasEvent 0xA003 c = true) ∧
        (s.dev.memc.ceDram = true → t.dev.ev.merge = s.dev.ev.merge)) ∧
      (∃ t, exec (.dramReadReturn a req .uncorrectable) s = .next t ∧ KeepsS [.cnt, .merge, .log] false s t ∧
        t.dev.count Reg.MEM_STAT_DRAM_UE_COUNT = (s.dev.count Reg.MEM_STAT_DRAM_UE_COUNT + 1) % 2 ^ 64 ∧
        t.dev.hasEvent 0xA004 c = true)) ∧
    (top ≤ a → ∀ ecc, ∃ t k, exec (.dramReadReturn a req ecc) s = .next t ∧ KeepsS [.merge, .log] false s t ∧ k < 2 ∧
      t.dev.hasEvent 0xA007 k = true))

/-! ## Power, reset and management -/

/-- R29, R30: an island that nothing keeps on and that has been idle for 64 beats stops its clocks, and after 1 s loses its power; one that
is kept on or not idle for that long stays as it is; with work waiting it comes back at a beat group boundary, 64 beats or more after the
work arrived. No other island changes.
The model's choices in it: log entries 27, 28 and 113.
R558: once RESET_N and the power are there and the sequence is complete, the main domain runs, unless a shutdown is latched (R506).
The model's choices in it: log entries 3 and 60.
R1, R527, R532, R533, R542, R552: what the SMBus target answers while the management processor serves; while it does not, nothing. The
identity record reads STEPPING as 0x00, the code of A0.
The model's choices in it: log entry 18. -/
def Obligations.IslandsAndSideBand : Prop :=
  ((∀ (s : State) (blk isl : Nat), s.dev.mainUp = true → isl < 64 →
    let k := 64 * blk + isl
    islands.contains k = true → s.dev.keepOn k = false → s.dev.hasWork k = false →
    (s.dev.island k = 0 → 64 ≤ s.dev.idleFor k → ∃ t, exec (.clockGateEntry blk isl) s = .next t ∧ KeepsS [.pwr] false s t ∧ t.dev.island k = 1 ∧
      ∀ j, j ≠ k → t.dev.island j = s.dev.island j) ∧
    (s.dev.island k ≠ 2 → 20000000 ≤ s.dev.idleFor k → ∃ t, exec (.islandOffEntry blk isl) s = .next t ∧ KeepsS [.pth, .pwr] false s t ∧ t.dev.island k = 2 ∧
      ∀ j, j ≠ k → t.dev.island j = s.dev.island j)) ∧
  (∀ (s : State) (blk isl : Nat), isl < 64 →
    (s.dev.keepOn (64 * blk + isl) = true ∨ s.dev.idleFor (64 * blk + isl) < 64 → exec (.clockGateEntry blk isl) s = .next s) ∧
    (s.dev.keepOn (64 * blk + isl) = true ∨ s.dev.idleFor (64 * blk + isl) < 20000000 → exec (.islandOffEntry blk isl) s = .next s)) ∧
  (∀ (s : State) (blk isl : Nat) (arrived : Int), s.dev.mainUp = true → isl < 64 → keysRise s.dev.pwr.isl = true →
    let k := 64 * blk + isl
    s.dev.island k = 2 → s.dev.tmb.cycle = 0 → s.dev.beatMultiple 64 = true → (k, arrived) ∈ s.dev.pwr.wake → arrived + 64 ≤ s.dev.beatWide →
    ∃ t, exec (.islandWake blk isl) s = .next t ∧ KeepsS [.pwr] false s t ∧ t.dev.island k = 0 ∧
      (∀ w ∈ t.dev.pwr.wake, w.1 ≠ k) ∧ ∀ j, j ≠ k → t.dev.island j = s.dev.island j)) ∧
  ((∀ (s : State), ∃ t, exec .resetNRise s = .next t ∧ KeepsS [.pwr] false s t ∧ t.dev.pwr = { s.dev.pwr with resetN := true }) ∧
  (∀ (s : State), s.dev.pwr.standby = true → s.dev.pwr.mainPg = true → s.dev.pwr.ref100 = true → s.dev.pwr.resetN = true →
    s.dev.pwr.seqDone = false → ∃ t, exec .resetSequenceComplete s = .next t ∧ KeepsS [.safe, .pwr] false s t ∧
      t.dev.pwr.seqDone = true ∧ t.dev.mainUp = !s.dev.thm.latch ∧ t.dev.mgtUp = true) ∧
  (∀ (s : State), s.dev.pwr.resetN = false → exec .resetSequenceComplete s = .next s)) ∧
  (∀ (s : State),
    (s.dev.mgtUp = true →
      (∃ t, exec .smbStatus s = .next t ∧ KeepsS [.out] false s t ∧ s.says t (.smbus [BitVec.ofNat 8 (bit (s.dev.pwr.mainPg && s.dev.pwr.ref100) +
        2 * bit s.dev.thm.latch + 4 * bit s.dev.tmb.run + 8 * bit s.dev.safe.hbRun +
        16 * (if s.dev.mgt.act.isSome then 2 else if s.dev.trialSlot.isSome then 1 else 0))])) ∧
      (∃ t, exec .smbIdent s = .next t ∧ KeepsS [.out] false s t ∧ s.says t (.smbus (leBytes 16 identity.toNat)) ∧
        identity.toNat / 2 ^ 32 % 256 = 0) ∧
      (∃ t, exec .smbTemp s = .next t ∧ KeepsS [.out] false s t ∧ s.says t (.smbus (leBytes 2 (unsigned 16 s.dev.dieMax)))) ∧
      (∃ t, exec .smbCause s = .next t ∧ KeepsS [.out] false s t ∧ s.says t (.smbus [BitVec.ofNat 8 s.dev.mgt.cause])) ∧
      (s.dev.smbAlert = true → ∃ t, exec .smbAlertResponse s = .next t ∧ KeepsS [.out] false s t ∧
        s.says t (.smbus [BitVec.ofNat 8 (2 * (0x58 + s.dev.pwr.straps.toNat % 8))])) ∧
      (s.dev.smbAlert = false → exec .smbAlertResponse s = .next s)) ∧
    (s.dev.mgtUp = false → ∀ c ∈ [Instr.smbStatus, .smbIdent, .smbTemp, .smbCause, .smbAlertResponse], exec c s = .next s))

/-- R539, R540, R542, R557: every way into a full device reset puts every register to its reset value, the memories to zero and domain time
to 0, drops the waiting work and every command's effect in flight, keeps the flash, the shutdown latch and the log, and enters FULL_RESET
with its cause and a stamp of zeros. RESET_N low for less than 200 ns does nothing; between 200 ns and 1 µs either may happen.
The model's choices in it: log entries 7, 10, 11 and 26.
R555, R556, R534: losing main power, or REF100 for more than 1 µs, holds the main domain in reset: its registers read their reset values
and its memories are lost, while THM's registers, the log and the flash stand. Losing standby power keeps the flash alone.
The model's choices in it: log entries 5 and 21. -/
def Obligations.ResetsAndPowerLoss : Prop :=
  (let reset := fun (s t : State) (cause : Nat) => t.dev.regs = ({} : Dev).regs ∧ t.mem = {} ∧ t.dev.tmb = ({} : Dev).tmb ∧
    t.dev.hst.rings = ({} : Dev).hst.rings ∧ t.dev.ev.merge = [] ∧ t.dev.mgt.replies = [] ∧ t.dev.thm.latch = s.dev.thm.latch ∧
    t.dev.cal.store = s.dev.cal.store ∧ t.dev.mgt.cause = cause ∧ t.dev.mgt.running = s.dev.mgt.confirmed ∧
    t.dev.mgt.confirmed = s.dev.mgt.confirmed ∧ t.dev.mainUp = false ∧ t.pending = s.pending ∧
    ∃ x ∈ t.dev.mgt.log, x.code = 0x0109 ∧ x.detail = cause ∧ x.stamp = default
  (∀ (s : State), s.dev.pwr.standby = true → ∃ t, exec (.fullDeviceReset .resetN) s = .next t ∧ reset s t 1) ∧
  (∀ (s : State) (due : Int), s.dev.pwr.standby = true → s.dev.mgt.resetAt = some due → due ≤ s.dev.pwr.clock →
    ∃ t, exec (.fullDeviceReset .pmp) s = .next t ∧ reset s t 2) ∧
  (∀ (s : State), s.dev.mgtUp = true → ∃ t, exec (.smbReset 0xA5) s = .next t ∧ reset s t 3) ∧
  (∀ (s : State) (v : Byte), v ≠ 0xA5 → exec (.smbReset v) s = .next s) ∧
  (∀ (s : State) (ns : Nat), s.dev.pwr.standby = true → 1000 ≤ ns →
    ∃ t, exec (.resetNLow ns) s = .next t ∧ reset s t 1 ∧ t.dev.pwr.resetN = false) ∧
  (∀ (s : State) (ns : Nat), ns < 200 → exec (.resetNLow ns) s = .next s) ∧
  (∀ (s : State) (ns : Nat), 200 ≤ ns → ns < 1000 →
    ∃ t, exec (.resetNLow ns) s = .next t ∧ (KeepsS [.freeCount] false s t ∨ reset s t 1)) ∧
  (∀ (s : State), s.dev.pwr.mainEn = true → s.dev.pwr.mainPg = false →
    ∃ t, exec .mainPgRise s = .next t ∧ reset s t 0 ∧ t.dev.pwr.mainPg = true) ∧
  (∀ (s : State), s.dev.pwr.standby = true → s.dev.pwr.ref100 = false →
    ∃ t, exec .ref100Return s = .next t ∧ reset s t 0 ∧ t.dev.pwr.ref100 = true) ∧
  (∀ (s : State) (straps : BitVec 5), s.dev.pwr.standby = false →
    ∃ t, exec (.standbyPowerGood straps) s = .next t ∧ reset s t 0 ∧ t.dev.pwr.standby = true ∧ t.dev.pwr.straps = straps ∧
      t.dev.pwr.mainEn = !straps.getLsbD 4)) ∧
  (let lost := fun (s t : State) => t.dev.mainUp = false ∧ t.mem = {} ∧ t.dev.ev.merge = [] ∧ t.dev.tmb = ({} : Dev).tmb ∧
    t.dev.crs = ({} : Dev).crs ∧ t.dev.lsr = ({} : Dev).lsr ∧ t.dev.mgt.slots = s.dev.mgt.slots ∧ t.dev.cal.store = s.dev.cal.store ∧
    t.pending = s.pending ∧
    (∀ k e, k < 0xF00000 * 64 → Assoc.get t.dev.regs.rw k e = e ∧ Assoc.get t.dev.regs.cnt k e = e ∧
      Assoc.get t.dev.regs.w1c k e = e) ∧
    (∀ k e, 0xF00000 * 64 ≤ k → Assoc.get t.dev.regs.rw k e = Assoc.get s.dev.regs.rw k e)
  (∀ (s : State), s.dev.pwr.mainPg = true → ∃ t, exec .mainPgFall s = .next t ∧ lost s t ∧ t.dev.pwr.mainPg = false ∧
    t.dev.pwr.mainEn = s.dev.pwr.mainEn) ∧
  (∀ (s : State) (ns : Nat), 1000 < ns → s.dev.pwr.standby = true → s.dev.pwr.ref100 = true →
    ∃ t, exec (.ref100Loss ns) s = .next t ∧ lost s t ∧ t.dev.pwr.ref100 = false) ∧
  (∀ (s : State) (ns : Nat), ns ≤ 1000 → exec (.ref100Loss ns) s = .next s) ∧
  (∀ (s : State), ∃ t, exec .standbyPowerLoss s = .next t ∧ t.dev.pwr.standby = false ∧ t.dev.mainUp = false ∧ t.dev.mgtUp = false ∧
    t.dev.pwr.mainEn = false ∧ t.mem = {} ∧ t.dev.regs = ({} : Dev).regs ∧ t.dev.mgt.log = [] ∧ t.dev.thm.latch = false ∧
    t.dev.mgt.slots = s.dev.mgt.slots ∧ t.dev.mgt.areas = s.dev.mgt.areas ∧ t.dev.cal.store = s.dev.cal.store))

/-- R528, R530, R537: a repeated request is answered with the kept reply and has no further effect; one with a bad magic, version, operation
or length is answered BAD_OP, and nothing else of the device changes; during a handover no request is served.
The model's choices in it: log entries 18, 19 and 123.
R529, R531, R533, R538: what IDENT, LOG_READ and CONFIG_GET answer, and that the reply is kept for its source. LOG_READ from the entry
`k` places back answers OK, with LOST at 0 and the entries from there upward; a COUNT outside 1 to 64 is a bad argument.
The model's choices in it: log entries 20 and 22. -/
def Obligations.ManagementReads : Prop :=
  (∀ (s : State) (h : PmpHdr) (off first slot len idx addr port : Nat) (v w32 crc : W32) (k udp : W16) (sha : BitVec 384)
    (dst : BitVec 128) (bytes : List Byte) (ok : Bool) (c : Instr), s.dev.mgtUp = true →
    c ∈ [.pmpIdent h, .regRead h off, .regWrite h off v, .logRead h w32 first, .imgBegin h slot len sha ok,
      .imgPiece h slot idx crc bytes ok, .imgStatus h slot, .imgActivate h slot, .imgConfirm h ok, .imgRevert h ok, .pmpReset h k,
      .export_ h addr len port dst udp, .configGet h, .configSet h bytes ok] →
    (s.dev.handingOver = true → exec c s = .next s) ∧ (s.dev.handingOver = false →
    (∀ r, s.dev.mgt.replies.find? (fun r => r.src == h.src && r.seq == h.seq) = some r →
      ∃ t, exec c s = .next t ∧ KeepsS [.out] false s t ∧ s.says t (.pmp r.src r.seq r.status r.data)) ∧
    (s.dev.mgt.replies.find? (fun r => r.src == h.src && r.seq == h.seq) = none →
      s.dev.mgt.exporting.any (fun x => x.src == h.src && x.seq == h.seq) = false →
      h.magicOk = false ∨ h.version ≠ 1 ∨ h.opOk = false ∨ h.lenOk = false →
      ∃ t, exec c s = .next t ∧ KeepsS [.out, .replies] false s t ∧ s.says t (.pmp h.src h.seq 2 []) ∧
        t.dev.mgt.replies.head? = some { src := h.src, seq := h.seq, status := 2, data := [] }))) ∧
  ((∀ (s : State) (h : PmpHdr), s.dev.takes h = true →
    let data := leBytes 16 identity.toNat ++ leBytes 1 s.dev.mgt.running ++ leBytes 4 (Config.imageVersion (s.dev.fw 0).image) ++
      leBytes 4 (Config.imageVersion (s.dev.fw 1).image)
    ∃ t, exec (.pmpIdent h) s = .next t ∧ KeepsS [.out, .replies] false s t ∧ s.says t (.pmp h.src h.seq 0 data) ∧
      t.dev.mgt.replies.head? = some { src := h.src, seq := h.seq, status := 0, data } ∧
      ∀ r ∈ t.dev.mgt.replies, r.src = h.src → r.seq = h.seq) ∧
  (∀ (s : State) (h : PmpHdr) (first : W32) (count k : Nat), s.dev.takes h = true → 1 ≤ count → count ≤ 64 →
    s.dev.mgt.nextSeq < 2 ^ 32 → k ≤ s.dev.mgt.log.length → k ≤ 32768 → first.toNat = (s.dev.mgt.nextSeq + 2 ^ 32 - k) % 2 ^ 32 →
    ∃ t, exec (.logRead h first count) s = .next t ∧ KeepsS [.out, .replies] false s t ∧
      s.says t (.pmp h.src h.seq 0
        ([0, 0, 0, 0] ++ (List.range (min count k)).flatMap (fun j => s.dev.logBytes (k - 1 - j))))) ∧
  (∀ (s : State) (h : PmpHdr) (first : W32) (count : Nat), s.dev.takes h = true → count < 1 ∨ 64 < count →
    ∃ t, exec (.logRead h first count) s = .next t ∧ KeepsS [.out, .replies] false s t ∧ s.says t (.pmp h.src h.seq 3 [])) ∧
  (∀ (s : State) (h : PmpHdr), s.dev.takes h = true →
    ∃ t, exec (.configGet h) s = .next t ∧ KeepsS [.out, .replies] false s t ∧
      s.says t (.pmp h.src h.seq 0 s.dev.settingsNow.bytes)))

/-- R530, R535: IMG_BEGIN opens a load session on a slot that neither runs nor must be kept; IMG_PIECE stores a piece whose CRC is right,
answers BAD_PIECE for one whose CRC is wrong, and with the last piece verifies the image and reports the slot VERIFIED or BAD; IMG_STATUS
shows the pieces held. The other slot does not change.
The model's choices in it: log entries 8 and 18.
R537: a VERIFIED slot is activated; at a beat group boundary the new image runs, in TRIAL, and is reported; a new core that is not ready
within 10 s is given up; IMG_CONFIRM makes the slot in TRIAL the CONFIRMED one; IMG_REVERT brings the CONFIRMED one back.
The model's choices in it: log entries 8 and 23. -/
def Obligations.Images : Prop :=
  ((∀ (s : State) (h : PmpHdr) (slot len : Nat) (sha : BitVec 384), s.dev.takes h = true → slot < 2 → 4096 ≤ len → len ≤ 16777216 →
    len % 4096 = 0 → s.dev.mgt.act = none → s.dev.windowOk = true → slot ≠ s.dev.mgt.running →
    (s.dev.trialSlot.isSome = true → slot ≠ s.dev.mgt.confirmed) →
    ¬ ((s.dev.fw slot).st = .loading ∧ (s.dev.fw slot).len = len ∧ (s.dev.fw slot).sha = sha) →
    ∃ t, exec (.imgBegin h slot len sha true) s = .next t ∧ KeepsS [.out, .replies, .slots] false s t ∧
      s.says t (.pmp h.src h.seq 0 [0, 0]) ∧ t.dev.fw slot = { st := .loading, len, sha } ∧
      t.dev.fw (1 - slot) = s.dev.fw (1 - slot)) ∧
  (∀ (s : State) (h : PmpHdr) (slot idx : Nat) (crc : W32) (data : List Byte), s.dev.takes h = true → slot < 2 →
    s.dev.mgt.act = none → s.dev.windowOk = true → (s.dev.fw slot).st = .loading → idx < (s.dev.fw slot).len / 4096 →
    (crc32 data = crc.toNat → (∀ p ∈ (s.dev.fw slot).pieces, p.1 ≠ idx) → data ≠ [] →
      (s.dev.fw slot).pieces.length + 1 < (s.dev.fw slot).len / 4096 →
      ∃ t, exec (.imgPiece h slot idx crc data true) s = .next t ∧ s.says t (.pmp h.src h.seq 0 []) ∧
        (idx, data) ∈ (t.dev.fw slot).pieces ∧ (t.dev.fw slot).st = .loading ∧ t.dev.fw (1 - slot) = s.dev.fw (1 - slot)) ∧
    (crc32 data ≠ crc.toNat → ∃ t, exec (.imgPiece h slot idx crc data true) s = .next t ∧ KeepsS [.out, .replies] false s t ∧
      s.says t (.pmp h.src h.seq 6 []))) ∧
  (∀ (d : Dev) (slot : Nat), slot < 2 →
    let x := d.fw slot
    let good := Config.sha384 x.image = x.sha ∧ Config.signatureOk x.image = true
    (((d.imgVerify slot).1.fw slot).st, (d.imgVerify slot).2) =
      (if ¬ good then (.bad, 9) else if Config.imageSvn x.image < Config.svnFloor then (.bad, 10) else (.verified, 0))) ∧
  (∀ (s : State) (h : PmpHdr) (slot : Nat), s.dev.takes h = true → slot < 2 → (s.dev.fw slot).st = .loading →
    ∃ t, exec (.imgStatus h slot) s = .next t ∧ KeepsS [.out, .replies] false s t ∧
      s.says t (.pmp h.src h.seq 0 (1#8 :: (List.range 512).map (fun b =>
        BitVec.ofNat 8 (bitset 8 (fun i => (s.dev.fw slot).pieces.any (fun p => p.1 == 8 * b + i)))))))) ∧
  ((∀ (s : State) (h : PmpHdr) (slot : Nat), s.dev.takes h = true → slot < 2 → s.dev.mgt.act = none → s.dev.cal.run = none →
    s.dev.mgt.exporting = none → s.dev.trialSlot = none → s.dev.windowOk = true → (s.dev.fw slot).st = .verified →
    ∃ t, exec (.imgActivate h slot) s = .next t ∧ KeepsS [.out, .replies, .act] false s t ∧ s.says t (.pmp h.src h.seq 0 []) ∧
      t.dev.mgt.act = some { slot, since := s.dev.pwr.clock }) ∧
  (∀ (s : State) (a : Activation), s.dev.mgt.act = some a → a.revert = false → a.slot < 2 → s.dev.mainUp = true → s.dev.tmb.cycle = 0 →
    s.dev.beatMultiple 64 = true →
    ∃ t, exec .fwHandover s = .next t ∧ t.dev.mgt.act = none ∧ t.dev.mgt.running = a.slot ∧
      t.dev.mgt.serveFrom = some (s.dev.beatWide + 64) ∧ (t.dev.fw a.slot).st = .trial ∧
      t.dev.fw (1 - a.slot) = s.dev.fw (1 - a.slot) ∧ t.dev.hasEvent 0x0104 a.slot = true) ∧
  (∀ (s : State) (a : Activation), s.dev.mgt.act = some a → s.dev.mainUp = true → a.slot < 2 →
    (a.since + 10000 * msUnit ≤ s.dev.pwr.clock → ∃ t, exec .activateTimeout s = .next t ∧ KeepsS [.merge, .act, .log] false s t ∧
      t.dev.mgt.act = none ∧ t.dev.hasEvent 0x0105 a.slot = true) ∧
    (s.dev.pwr.clock < a.since + 10000 * msUnit → exec .activateTimeout s = .next s)) ∧
  (∀ (s : State) (h : PmpHdr) (slot : Nat), s.dev.takes h = true → s.dev.mgt.act = none → s.dev.windowOk = true →
    s.dev.trialSlot = some slot → s.dev.mgt.confirmed < 2 →
    (∃ t, exec (.imgConfirm h true) s = .next t ∧ s.says t (.pmp h.src h.seq 0 []) ∧ t.dev.mgt.confirmed = slot ∧
      (t.dev.fw slot).st = .confirmed ∧ (slot ≠ s.dev.mgt.confirmed → (t.dev.fw s.dev.mgt.confirmed).st = .verified)) ∧
    (s.dev.cal.run = none → s.dev.mgt.exporting = none →
      ∃ t, exec (.imgRevert h true) s = .next t ∧ KeepsS [.out, .replies, .act] false s t ∧ s.says t (.pmp h.src h.seq 0 []) ∧
        t.dev.mgt.act = some { slot := s.dev.mgt.confirmed, since := s.dev.pwr.clock, revert := true })))

/-- R529, R538, R539: RESET with its key answers OK and asks for a reset 1 ms later, and without it answers BAD_ARG; CONFIG_SET writes a
record of the next generation into the area that is not in effect; EXPORT is one at a time, sends its range in datagrams of at most 8,192
bytes of data and answers when the last has left.
The model's choices in it: log entries 22 and 24. -/
def Obligations.ManagementActions : Prop :=
  (∀ (s : State) (h : PmpHdr) (k : W16), s.dev.takes h = true →
    (k = 0xD1E5 → ∃ t, exec (.pmpReset h k) s = .next t ∧ KeepsS [.out, .replies, .resetReq] false s t ∧
      s.says t (.pmp h.src h.seq 0 []) ∧ t.dev.mgt.resetAt = some (s.dev.pwr.clock + msUnit)) ∧
    (k ≠ 0xD1E5 → ∃ t, exec (.pmpReset h k) s = .next t ∧ KeepsS [.out, .replies] false s t ∧ s.says t (.pmp h.src h.seq 3 []))) ∧
  (∀ (s : State) (h : PmpHdr) (body : List Byte), s.dev.takes h = true → s.dev.mgt.act = none → s.dev.windowOk = true →
    s.dev.mgt.guarded = none → s.dev.mgt.area < 2 → s.dev.mgt.settings.isSome = true →
    let fmt := s.dev.formatOf s.dev.mgt.running
    let gen := (s.dev.settingsNow.gen + 1) % 256
    ∀ g : Byte, ∃ t, exec (.configSet h (leBytes 4 (crc32 body) ++ [0, g] ++ leBytes 2 fmt ++ body) true) s = .next t ∧
      KeepsS [.out, .replies, .settings] false s t ∧ s.says t (.pmp h.src h.seq 0 [BitVec.ofNat 8 gen]) ∧
      t.dev.mgt.settings = some { format := fmt, gen, body } ∧ t.dev.mgt.area = 1 - s.dev.mgt.area ∧
      at' t.dev.mgt.areas s.dev.mgt.area = at' s.dev.mgt.areas s.dev.mgt.area) ∧
  (∀ (s : State) (h : PmpHdr) (addr len port : Nat) (dst : BitVec 128) (udp : W16), s.dev.takes h = true →
    s.dev.mgt.exporting = none → port < 2 → s.dev.dramOk addr len = true →
    ∃ t, exec (.export_ h addr len port dst udp) s = .next t ∧ KeepsS [.freeCount, .exporting] false s t ∧
      ∃ x, t.dev.mgt.exporting = some x ∧ (x.src, x.seq, x.addr, x.len, x.port, x.dst, x.udp) = (h.src, h.seq, addr, len, port, dst, udp)) ∧
  (∀ (s : State) (h : PmpHdr) (x : Export) (addr len port : Nat) (dst : BitVec 128) (udp : W16), s.dev.takes h = true →
    s.dev.mgt.exporting = some x →
    ∃ t, exec (.export_ h addr len port dst udp) s = .next t ∧ KeepsS [.out, .replies] false s t ∧ s.says t (.pmp h.src h.seq 4 [])) ∧
  (∀ (s : State) (x : Export), s.dev.mgtUp = true → s.dev.mainUp = true → s.dev.mgt.exporting = some x →
    at' s.dev.lnk.ethUp x.port = true →
    ∃ t, exec .exportComplete s = .next t ∧ KeepsS [.out, .replies, .exporting] false s t ∧ t.dev.mgt.exporting = none ∧
      t.dev.ev.out = .pmp x.src x.seq 0 (leBytes 4 x.id) ::
        ((s.dev.exportData s.mem x).map (fun bs => Out.eth x.port bs)).reverse ++ s.dev.ev.out)

/-! ## Parameters and courses -/

/-- R78, R79, R80, R82, R367: PSET_WRITE stores a good set into the shadow bank, in both copies of it, and completes with success, at its
START_BEAT where it is scheduled; before it, and in a commit's own cycle, it waits; past it, it completes with SCHED_MISSED. A set with a
reserved bit or an out-of-range skew completes with PSET_BAD and stores nothing. PSET_LOAD asks for its sets and stores them all when they
arrive and every one is good.
The model's choices in it: log entries 33 and 112.
R79, R80, R81, R210, R211: a commit waits for its beat, the next one where none is given; at that beat's start the whole shadow bank is
copied over the active bank, in both copies, and every RWS field of the device but the axes' (which take theirs at the servo's own instant,
R271) takes the shadow value that stood as the beat began; if a set that a brick in progress names would become invalid, nothing is copied
and every commit due completes with PSET_IN_USE.
The model's choices in it: log entries 4 and 116. -/
def Obligations.ParameterSets : Prop :=
  ((∀ (s : State) (n : Nat) (e : Entry), s.dev.mainUp = true → s.mem.wf = true → n < 64 → s.dev.front n 2 1 = some e → e.ring = n →
    let ws := (List.range 4).map (fun i => e.w (i + 2))
    let a := psetShadow + 32 * e.f 1 11 0
    let b := psetShadowMirror + 32 * e.f 1 11 0
    (psetOk ws = false → ∃ t, exec (.psetWrite n) s = .next t ∧ t.dev.hasDone e 0x2115 = true ∧ t.mem = s.mem ∧ t.dev.crs = s.dev.crs) ∧
    (psetOk ws = true → (e.sched = true ∧ s.dev.beatAhead e.startBeat = true) ∨ s.dev.commitDue = true →
      exec (.psetWrite n) s = .next s) ∧
    (psetOk ws = true → e.sched = true → s.dev.beatAhead e.startBeat = false → s.dev.commitDue = false →
      ¬ (s.dev.beat = e.startBeat ∧ s.dev.tmb.cycle = 0) →
      ∃ t, exec (.psetWrite n) s = .next t ∧ t.dev.hasDone e 0x2113 = true ∧ t.mem = s.mem) ∧
    (psetOk ws = true → s.dev.commitDue = false →
      (e.sched = true → s.dev.beatAhead e.startBeat = false ∧ s.dev.beat = e.startBeat ∧ s.dev.tmb.cycle = 0) →
      ∃ t, exec (.psetWrite n) s = .next t ∧ (e.noDone = false → t.dev.hasDone e 0 = true) ∧ t.dev.crs = s.dev.crs ∧
        ((s.dev.ring n).fenced = [] → (t.dev.ring n).inQ = (s.dev.ring n).inQ.drop 1) ∧
        readBytes t.mem.sram a 32 = wordBytes ws ∧ readBytes t.mem.sram b 32 = wordBytes ws ∧ t.mem.dram = s.mem.dram ∧
        ∀ c, (c < a ∨ a + 32 ≤ c) → (c < b ∨ b + 32 ≤ c) → byteAt t.mem.sram c = byteAt s.mem.sram c)) ∧
  (∀ (s : State) (n : Nat) (e : Entry), s.dev.mainUp = true → s.dev.front n 2 2 = some e → s.dev.loading n = false →
    let first := e.f 2 12 0
    let count := e.f 2 28 16
    (0 < count → first + count ≤ 4096 → s.dev.canRequest = true →
      (e.sched = true → s.dev.beatAhead e.startBeat = false ∧ s.dev.beat = e.startBeat ∧ s.dev.tmb.cycle = 0) →
      ∃ t, exec (.psetLoad n) s = .next t ∧
      s.says t (.hostRead (e.w 1).toNat (32 * count)) ∧ t.dev.crs = { s.dev.crs with loads := s.dev.crs.loads ++ [e] } ∧
      t.dev.hst = s.dev.hst) ∧
    (count = 0 ∨ 4096 < first + count → ∃ t, exec (.psetLoad n) s = .next t ∧ t.dev.hasDone e 0x2116 = true ∧ t.dev.crs = s.dev.crs)) ∧
  (∀ (s : State) (n : Nat) (e : Entry) (bytes : List Byte), s.dev.mainUp = true → s.mem.wf = true → s.dev.commitDue = false →
    s.dev.crs.loads.find? (fun e => e.ring == n) = some e →
    let first := e.f 2 12 0
    let count := e.f 2 28 16
    first + count ≤ 4096 → bytes.length = 32 * count →
    ((∀ i, i < count → psetOk (leWords 4 ((bytes.drop (32 * i)).take 32)) = true) →
      ∃ t, exec (.psetLoadData n (.ok bytes)) s = .next t ∧ (e.noDone = false → t.dev.hasDone e 0 = true) ∧
        readBytes t.mem.sram (psetShadow + 32 * first) (32 * count) = bytes ∧
        readBytes t.mem.sram (psetShadowMirror + 32 * first) (32 * count) = bytes ∧ t.dev.loading n = false) ∧
    ((∃ i, i < count ∧ psetOk (leWords 4 ((bytes.drop (32 * i)).take 32)) = false) →
      ∃ t, exec (.psetLoadData n (.ok bytes)) s = .next t ∧ t.dev.hasDone e 0x2115 = true ∧ t.mem = s.mem) ∧
    (∀ got, ∃ t, exec (.psetLoadData n (.fail got)) s = .next t ∧ t.dev.hasDone e 0x1006 = true ∧ t.mem = s.mem))) ∧
  ((∀ (s : State) (n : Nat) (e : Entry), s.dev.mainUp = true → s.dev.front n 2 3 = some e →
    (∀ r ∈ s.dev.crs.commitReqs, r.2.ring ≠ n) → (e.sched = true → s.dev.beatAhead e.startBeat = true) →
    ∃ t, exec (.psetCommit n) s = .next t ∧ t.mem = s.mem ∧ t.dev.hst = s.dev.hst ∧
      t.dev.crs = { s.dev.crs with
        commitReqs := s.dev.crs.commitReqs ++ [(if e.sched then e.startBeat else (s.dev.beat + 1) % 2 ^ 32, e)] }) ∧
  (∀ (s : State) (n : Nat) (e : Entry), s.dev.mainUp = true → s.dev.front n 2 3 = some e →
    (∀ r ∈ s.dev.crs.commitReqs, r.2.ring ≠ n) → e.sched = true → s.dev.beatAhead e.startBeat = false →
    ∃ t, exec (.psetCommit n) s = .next t ∧ t.dev.hasDone e 0x2113 = true ∧ t.dev.crs = s.dev.crs) ∧
  (∀ (s : State), s.dev.mainUp = true → s.mem.wf = true → s.dev.regs.wf = true → s.dev.commitDue = true →
    let due := s.dev.crs.commitReqs.filter (fun r => !s.dev.beatAhead r.1)
    (s.dev.commitClash s.mem = none →
      ∃ t, exec .paramCommit s = .next t ∧ (∀ r ∈ due, r.2.noDone = false → t.dev.hasDone r.2 0 = true) ∧
        t.dev.crs.commitReqs = s.dev.crs.commitReqs.filter (fun r => s.dev.beatAhead r.1) ∧ t.dev.crs.lastCommit = s.dev.beat ∧
        (∀ i, i < 0x20000 → byteAt t.mem.sram (psetActive + i) = byteAt s.mem.sram (psetShadow + i) ∧
          byteAt t.mem.sram (psetActiveMirror + i) = byteAt s.mem.sram (psetShadow + i)) ∧
        (∀ a, (a < psetActive ∨ psetActive + 0x20000 ≤ a) → (a < psetActiveMirror ∨ psetActiveMirror + 0x20000 ≤ a) →
          byteAt t.mem.sram a = byteAt s.mem.sram a) ∧ t.mem.dram = s.mem.dram ∧
        (∀ k v, Assoc.get s.dev.regs.shadowAt k v < 2 ^ 64 → Assoc.get t.dev.regs.effect k v =
          if isSrvKey k then Assoc.get s.dev.regs.effect k v else Assoc.get s.dev.regs.shadowAt k v) ∧
        t.dev.crs.srvPending = true ∧ t.dev.regs.rw = s.dev.regs.rw ∧ t.dev.regs.shadow = s.dev.regs.shadow) ∧
    (∀ i, s.dev.commitClash s.mem = some i →
      ∃ t, exec .paramCommit s = .next t ∧ t.mem = s.mem ∧ (∀ r ∈ due, t.dev.hasDone r.2 0x2114 = true) ∧
        t.dev.crs.commitReqs = s.dev.crs.commitReqs.filter (fun r => s.dev.beatAhead r.1) ∧
        t.dev.regs.effect = s.dev.regs.effect)) ∧
  (∀ (s : State), s.dev.mainUp = true → s.dev.commitDue = false → exec .paramCommit s = .next s))

/-- R86, R87, R90, R99: a descriptor with a bad address or size completes with BAD_DESC and is counted as rejected; one that names the open
course takes staging pages, joins the bricks under check and asks for its bytes; one that names a course that has closed is rejected; one
that names a course still to open waits and changes nothing.
The model's choices in it: log entries 33 and 36.
R69, R87, R88, R93, R102, R104: the verdict on a brick whose bytes have landed in its pages. A check that fails rejects it with that
check's code and frees its pages; one that passes every check is counted and enters the brick table and the Mason's states: READY or
waiting for its beat once its dependencies are met, complete with DEP_FAILED where one has failed, waiting for them otherwise. A read that
failed completes its entry with FETCH_ERR.
The model's choices in it: log entries 112 and 115. -/
def Obligations.Bricks : Prop :=
  (∀ (s : State) (n : Nat) (e : Entry), s.dev.mainUp = true → s.dev.regs.wf = true → s.dev.front n 1 1 = some e → e.ring < 64 →
    s.dev.ringFed n = false →
    (descOk e = false → ∃ t, exec (.brick n) s = .next t ∧ t.dev.hasDone e 0x2101 = true ∧ t.dev.crs.bricks = s.dev.crs.bricks ∧
      t.dev.count Reg.MSN_STAT_REJECTED_COUNT = (s.dev.count Reg.MSN_STAT_REJECTED_COUNT + 1) % 2 ^ 64) ∧
    (descOk e = true → s.dev.courseCheck (e.f 2 63 32) = .ok → s.dev.tableRoom = false →
      ∃ t, exec (.brick n) s = .next t ∧ t.dev.hasDone e 0x210F = true ∧ t.dev.crs.bricks = s.dev.crs.bricks) ∧
    (descOk e = true → s.dev.crs.st = .open → e.f 2 63 32 = s.dev.crs.number → s.dev.tableRoom = true → s.dev.canRequest = true →
      ∃ t, exec (.brick n) s = .next t ∧ s.says t (.hostRead (e.w 1).toNat (e.f 2 31 0)) ∧
        t.dev.crs.taken = min (s.dev.crs.taken + 1) 0xFFFFFFFF ∧
        ∃ b, t.dev.crs.bricks = s.dev.crs.bricks ++ [b] ∧ b.key = e.ring * 2 ^ 32 + e.idx ∧ b.entry = e ∧ b.st = .checking ∧
          b.course = s.dev.crs.number ∧ b.bytes = e.f 2 31 0 ∧ ∀ p ∈ b.pages, p ∉ s.dev.crs.pagesUsed ∧ p ∈ t.dev.crs.pagesUsed) ∧
    (descOk e = true → s.dev.crs.st = .idle → s.dev.crs.lastValid = true → e.f 2 63 32 = s.dev.crs.number →
      ∃ t, exec (.brick n) s = .next t ∧ t.dev.hasDone e 0x210E = true ∧ t.dev.crs.bricks = s.dev.crs.bricks) ∧
    (descOk e = true → s.dev.crs.st = .idle → s.dev.crs.lastValid = false → exec (.brick n) s = .next s)) ∧
  (∀ (s : State) (k : Nat) (b : Brick), s.dev.mainUp = true → s.dev.regs.wf = true → s.dev.brick? k = some b →
    b.st = .checking → b.fedBy = none →
    (∀ bytes, bytes.length = b.bytes →
      (∀ code detail, s.dev.brickCheck s.mem b bytes = some (code, detail) → code ≠ 0 →
        ∃ t, exec (.brickVerdict k (.ok bytes)) s = .next t ∧ t.dev.hasDone b.entry code = true ∧ t.dev.brick? k = none ∧
          (∀ p ∈ b.pages, p ∉ t.dev.crs.pagesUsed) ∧ t.dev.crs.rejected = s.dev.crs.rejected + 1) ∧
      (s.dev.brickCheck s.mem b bytes = none →
        (∀ x ∈ s.dev.crs.bricks, x.st = .waitDep →
          (∃ i ∈ x.deps, s.dev.depState i = .open) ∧ ∀ i ∈ x.deps, s.dev.depState i ≠ .failed) →
        let h := headerBrick b (leWords 8 bytes)
        ∃ t, exec (.brickVerdict k (.ok bytes)) s = .next t ∧ t.mem = stageBytes s.mem b.pages bytes ∧
          t.dev.count Reg.MSN_STAT_ACCEPTED_COUNT = (s.dev.count Reg.MSN_STAT_ACCEPTED_COUNT + 1) % 2 ^ 64 ∧
          ((∃ i ∈ h.deps, s.dev.depState i = .failed) → t.dev.hasDone b.entry 0x2005 = true ∧ t.dev.brick? k = none) ∧
          ((∀ i ∈ h.deps, s.dev.depState i ≠ .failed) → Assoc.get t.dev.crs.table h.id 0 = 1 ∧
            ∃ b', t.dev.brick? k = some b' ∧
              (b'.id, b'.reach, b'.plume, b'.pset, b'.vcount, b'.pages) = (h.id, h.reach, h.plume, h.pset, h.vcount, b.pages) ∧
              b'.st = if h.deps.any (fun i => s.dev.depState i == .open) then .waitDep
                else if b.entry.sched && s.dev.beatAhead b.entry.startBeat then .waitBeat else .ready))) ∧
    (∀ got, ∃ t, exec (.brickVerdict k (.fail got)) s = .next t ∧ t.dev.hasDone b.entry 0x1006 = true ∧ t.dev.brick? k = none))

/-- R89, R90, R93: COURSE_BEGIN opens a course whose number is ahead of the last one, at the start of a beat (of its START_BEAT where it is
scheduled), with every counter at 0 and the enabled channels noted; with a number that is not ahead it completes with COURSE_ORDER, unless
RESTART allows it; past its START_BEAT it completes with SCHED_MISSED. COURSE_END of the open course puts it into CLOSING with its
BRICK_TOTAL; scheduled, or without that course, it is rejected. A COURSE_BEGIN that waited resumes in the same way.
The model's choices in it: log entries 104 and 112.
R89, R91, R92, R94, R97: an abort of the course that is open or closing drops every brick of it and every seam, at the first beat edge
after its acceptance; a closing course closes at
the start of a beat once every brick of it is resolved and BRICK_TOTAL is met, and an aborting one once every laser has stopped. Closing
writes the course record and answers COURSE_END.
The model's choices in it: log entries 37, 38 and 39. -/
def Obligations.Courses : Prop :=
  ((∀ (s : State) (n : Nat) (e : Entry), s.dev.mainUp = true → n < 64 → s.dev.front n 1 2 = some e → e.ring < 64 →
    s.dev.ringFed n = false → s.dev.tmb.run = true → s.dev.tmb.cycle = 0 → s.dev.crs.st = .idle →
    (s.dev.crs.lastValid = false ∨ 0 < beatDiff (e.f 1 63 32) s.dev.crs.number ∨ e.f 1 0 0 = 1) →
    (e.sched = true → s.dev.beatPassed e.startBeat = false ∧ s.dev.beatAhead e.startBeat = false) →
    ∀ c ∈ [Instr.courseBegin n, .courseWaitResume n], ∃ t, exec c s = .next t ∧ t.dev.crs.st = .open ∧
      t.dev.crs.number = e.f 1 63 32 ∧ t.dev.crs.openBeat = s.dev.beatWide ∧ (e.noDone = false → t.dev.hasDone e 0 = true) ∧
      (t.dev.crs.taken, t.dev.crs.total, t.dev.crs.completed, t.dev.crs.rejected, t.dev.crs.remnants, t.dev.crs.table) =
        (0, 0, 0, 0, 0, []) ∧
      ∀ l, l < 16 → ((at' t.dev.crs.chans l).enabled = true ↔ (s.dev.chan l).st = .enabled ∨ (s.dev.chan l).st = .hold)) ∧
  (∀ (s : State) (n : Nat) (e : Entry), s.dev.mainUp = true → s.dev.front n 1 2 = some e → e.ring < 64 → s.dev.ringFed n = false →
    s.dev.tmb.run = true → s.dev.tmb.cycle = 0 →
    ((s.dev.crs.st ≠ .idle ∨ (s.dev.crs.lastValid = true ∧ e.f 1 0 0 = 0)) → beatDiff (e.f 1 63 32) s.dev.crs.number ≤ 0 →
      ∃ t, exec (.courseBegin n) s = .next t ∧ t.dev.hasDone e 0x2110 = true ∧ t.dev.crs = s.dev.crs) ∧
    (0 < beatDiff (e.f 1 63 32) s.dev.crs.number → e.sched = true → s.dev.beatPassed e.startBeat = true →
      ∃ t, exec (.courseBegin n) s = .next t ∧ t.dev.hasDone e 0x2113 = true ∧ t.dev.crs = s.dev.crs) ∧
    (0 < beatDiff (e.f 1 63 32) s.dev.crs.number → s.dev.crs.st ≠ .idle → e.sched = false → exec (.courseBegin n) s = .next s)) ∧
  (∀ (s : State) (n : Nat) (e : Entry), s.dev.mainUp = true → s.dev.front n 1 3 = some e → e.ring < 64 → s.dev.ringFed n = false →
    s.dev.tmb.cycle = 0 →
    (e.sched = true → ∃ t, exec (.courseEnd n) s = .next t ∧ t.dev.hasDone e 0x2112 = true ∧ t.dev.crs = s.dev.crs) ∧
    (e.sched = false → s.dev.crs.st = .open → e.f 1 63 32 = s.dev.crs.number → ∃ t, exec (.courseEnd n) s = .next t ∧
      t.dev.crs = { s.dev.crs with st := .closing, total := e.f 1 31 0, endEntry := some e }) ∧
    (e.sched = false → s.dev.crs.st ≠ .open ∨ e.f 1 63 32 ≠ s.dev.crs.number → ∃ t, exec (.courseEnd n) s = .next t ∧
      t.dev.hasDone e 0x2111 = true ∧ t.dev.crs = s.dev.crs))) ∧
  (let record := fun (s t : State) (aborted : Bool) => ∃ x ∈ t.dev.ev.merge, x.kind = .stat 2 0x2010 ∧ x.detail = s.dev.crs.number % 2 ^ 32 ∧
    x.payload = [pack [(sat32 s.dev.crs.completed, 32), (sat32 s.dev.crs.rejected, 0)],
      pack [(sat32 s.dev.crs.remnants, 32), (sat32 s.dev.crs.unreachable, 0)], word (s.dev.beatWide - s.dev.crs.openBeat),
      pack [(sat32 s.dev.crs.commits, 32), (bit aborted, 0)]]
  (∀ (s : State) (n : Nat) (e : Entry), s.dev.mainUp = true → s.dev.front n 1 4 = some e → e.ring < 64 → s.dev.ringFed n = false →
    s.dev.tmb.cycle = 0 → e.beat < s.dev.beatWide →
    (e.sched = true → ∃ t, exec (.courseAbort n) s = .next t ∧ t.dev.hasDone e 0x2112 = true ∧ t.dev.crs = s.dev.crs) ∧
    (e.sched = false → s.dev.crs.st = .open ∨ s.dev.crs.st = .closing → e.f 1 63 32 = s.dev.crs.number → ∃ t, exec (.courseAbort n) s = .next t ∧
      t.dev.crs.st = .aborting ∧ t.dev.crs.abortEntry = some e ∧ t.dev.pth.seams = [] ∧
      ∀ b ∈ t.dev.crs.bricks, b.course ≠ s.dev.crs.number) ∧
    (e.sched = false → s.dev.crs.st = .idle ∨ s.dev.crs.st = .aborting ∨ e.f 1 63 32 ≠ s.dev.crs.number → ∃ t, exec (.courseAbort n) s = .next t ∧ t.dev.hasDone e 0x2111 = true ∧
      t.dev.crs = s.dev.crs)) ∧
  (∀ (s : State) (n : Nat) (e : Entry), s.dev.mainUp = true → s.dev.front n 1 4 = some e → s.dev.ringFed n = false →
    s.dev.tmb.cycle ≠ 0 ∨ s.dev.beatWide ≤ e.beat → exec (.courseAbort n) s = .next s) ∧
  (∀ (s : State), s.dev.mainUp = true → s.dev.crs.st = .closing → s.dev.tmb.cycle = 0 → s.dev.crs.total ≤ s.dev.crs.taken →
    (∀ b ∈ s.dev.crs.bricks, b.course ≠ s.dev.crs.number) →
    ∃ t, exec .courseClose s = .next t ∧ t.dev.crs.st = .idle ∧ t.dev.crs.lastValid = true ∧ t.dev.crs.number = s.dev.crs.number ∧
      t.dev.crs.table = [] ∧ t.dev.crs.total = 0 ∧ record s t false ∧
      ∀ e, s.dev.crs.endEntry = some e → e.ring < 64 → e.noDone = false → t.dev.hasDone e 0 = true) ∧
  (∀ (s : State), s.dev.mainUp = true → s.dev.crs.st = .closing →
    (s.dev.crs.taken < s.dev.crs.total ∨ ∃ b ∈ s.dev.crs.bricks, b.course = s.dev.crs.number) → exec .courseClose s = .next s) ∧
  (∀ (s : State), s.dev.mainUp = true → s.dev.crs.st = .aborting → s.dev.tmb.cycle = 0 →
    (∀ l, l < 16 → (s.dev.laser l).st ≠ .stopping) →
    ∃ t, exec .abortComplete s = .next t ∧ t.dev.crs.st = .idle ∧ t.dev.crs.lastValid = true ∧ t.dev.crs.total = 0 ∧
      record s t true ∧
      (∀ e, s.dev.crs.abortEntry = some e → e.ring < 64 → e.noDone = false → t.dev.hasDone e 0 = true) ∧
      (∀ e, s.dev.crs.endEntry = some e → e.ring < 64 → t.dev.hasDone e 0x2117 = true)))

/-! ## The Mason and the pistes -/

/-- R26, R103, R106, R107, R109, R121: the Mason selects once in a beat, after its cut: the brick it picks for the one free laser is assigned
to it, a laser it was not reached for in time gets none and is reported, and during a device hold nothing is assigned. Without urgent
bricks it picks, among the first SCAN_DEPTH ready bricks that reach the laser and pass the dispatch check, one that the fewest lasers reach;
an urgent brick that reaches the laser goes first. An assignment comes into force in cycle 0 of a later beat: it starts an idle laser and its
piste, whose first sample follows in 4 beats, and queues the brick on a running or held one.
The model's choices in it: log entries 4 and 43.
R102, R105, R108, R109, R119, R122: the time limits of the Mason. A brick whose START_BEAT is here becomes READY; one READY for
STARVE_LIMIT beats becomes urgent and is reported, while fewer than URGENT_MAX are; one unplaceable for UNPLACEABLE_WAIT beats completes
as unreachable; at a standstill every brick that waits for others completes with its lowest unmet dependency. HOST_HOLD is
stored, and at the next beat edge the device hold follows its causes, with a report as it begins and as it ends.
The model's choices in it: log entry 42. -/
def Obligations.MasonWork : Prop :=
  ((∀ (s : State) (n : Nat), s.dev.mainUp = true → n < 16 → s.dev.tmb.run = true → 64 ≤ s.dev.tmb.cycle →
    s.dev.msn.selBeat ≠ s.dev.beatWide → s.dev.pth.offers = [] →
    (s.dev.msn.cutHold = false → s.dev.freeOrder = [n] →
      (∀ b, s.dev.pickFor n = some b → ∃ t, exec (.masonSelection 0) s = .next t ∧ KeepsS [.crs, .msn] false s t ∧
        (t.dev.laser n).assigned = some b.key ∧ b.key ∉ t.dev.msn.ready ∧ (∃ b', t.dev.brick? b.key = some b' ∧ b'.st = .queued) ∧
        ∀ m, m < 16 → m ≠ n → t.dev.laser m = s.dev.laser m) ∧
      (s.dev.pickFor n = none → exec (.masonSelection 0) s = .next { s with dev := { s.dev with msn.selBeat := s.dev.beatWide } }) ∧
      (∀ u : W16, bitOf u.toNat n = true → ∃ t, exec (.masonSelection u) s = .next t ∧ t.dev.crs = s.dev.crs ∧
        t.dev.msn = { s.dev.msn with selBeat := s.dev.beatWide } ∧ t.dev.hasEvent 0x200A u.toNat = true)) ∧
    (s.dev.msn.cutHold = true →
      exec (.masonSelection 0) s = .next { s with dev := { s.dev with msn.selBeat := s.dev.beatWide } })) ∧
  (∀ (s : State) (u : W16), s.dev.mainUp = true → s.dev.tmb.run = false ∨ s.dev.tmb.cycle < 64 ∨ s.dev.msn.selBeat = s.dev.beatWide →
    exec (.masonSelection u) s = .next s) ∧
  (∀ (d : Dev) (n : Nat) (b : Brick), d.pickFor n = some b → b ∈ d.cutBricks ∧ bitOf b.reach n = true ∧
    ((∃ u ∈ d.cutBricks, u.urgent = true ∧ bitOf u.reach n = true) → b.urgent = true ∧ d.dispatchOk b n = true) ∧
    ((∀ u ∈ d.cutBricks, u.urgent = false) → b ∈ d.cutBricks.take (d.act Reg.MSN_FAIR_SCAN_DEPTH) ∧
      (d.on Reg.MSN_CTL_PLUME_MODE = false → d.dispatchOk b n = true) ∧
      ∀ c ∈ d.cutBricks.take (d.act Reg.MSN_FAIR_SCAN_DEPTH), bitOf c.reach n = true → d.dispatchOk c n = true →
        popCount (b.reach &&& d.lasersOn) ≤ popCount (c.reach &&& d.lasersOn))) ∧
  (∀ (s : State) (n k : Nat) (b : Brick), s.dev.mainUp = true → n < 16 → s.dev.tmb.cycle = 0 → s.dev.msn.selBeat < s.dev.beatWide →
    (s.dev.laser n).assigned = some k → s.dev.brick? k = some b →
    ((s.dev.laser n).st = .idle → ∃ t, exec (.assignmentInForce n) s = .next t ∧ KeepsS [.cnt, .crs, .msn, .pth] false s t ∧
      (t.dev.laser n).st = .running ∧ (t.dev.laser n).running = some k ∧ (t.dev.laser n).assigned = none ∧
      (t.dev.laser n).lastAssign = s.dev.beatWide ∧ (t.dev.piste n).st = .running ∧ (t.dev.piste n).startBeat = s.dev.beatWide + 4 ∧
      ((∀ x ∈ s.dev.pth.seams, x.receiver ≠ n) → ∃ b', t.dev.brick? k = some b' ∧ b'.st = .running ∧ b'.started = true)) ∧
    ((s.dev.laser n).st = .running ∨ (s.dev.laser n).st = .plumeHeld →
      ∃ t, exec (.assignmentInForce n) s = .next t ∧ KeepsS [.cnt, .crs, .msn, .pth] false s t ∧
      (t.dev.laser n).st = (s.dev.laser n).st ∧ (t.dev.laser n).running = (s.dev.laser n).running ∧ (t.dev.laser n).queued = some k ∧
      (t.dev.laser n).assigned = none ∧ ((t.dev.piste n).queued.map (·.key)) = some k)) ∧
  (∀ (s : State) (n : Nat), s.dev.mainUp = true → s.dev.tmb.cycle ≠ 0 ∨ s.dev.beatWide ≤ s.dev.msn.selBeat →
    exec (.assignmentInForce n) s = .next s)) ∧
  ((∀ (s : State) (k : Nat) (b : Brick), s.dev.mainUp = true → s.dev.brick? k = some b → b.st = .waitBeat →
    s.dev.beatAhead b.entry.startBeat = false →
    ∃ t, exec (.startBeatReached k) s = .next t ∧ KeepsS [.crs, .msn] false s t ∧ k ∈ t.dev.msn.ready ∧
      ∃ b', t.dev.brick? k = some b' ∧ b'.st = .ready ∧ b'.readyAt = s.dev.beatWide ∧ b'.urgent = false) ∧
  (∀ (s : State) (k : Nat) (b : Brick), s.dev.mainUp = true → s.dev.brick? k = some b → b.st = .waitBeat →
    s.dev.beatAhead b.entry.startBeat = true → exec (.startBeatReached k) s = .next s) ∧
  (∀ (s : State) (k : Nat) (b : Brick), s.dev.mainUp = true → s.dev.regs.wf = true → k ∈ s.dev.msn.ready →
    s.dev.brick? k = some b → b.urgent = false → (s.dev.act Reg.MSN_FAIR_STARVE_LIMIT : Int) ≤ s.dev.beatWide - b.readyAt →
    (s.dev.readyBricks.filter (·.urgent)).length < s.dev.act Reg.MSN_CTL_URGENT_MAX →
    (∀ c ∈ s.dev.readyBricks, c.urgent = false → b.readyAt ≤ c.readyAt) →
    ∃ t, exec (.starveLimitReached k) s = .next t ∧ (∃ b', t.dev.brick? k = some b' ∧ b'.urgent = true ∧ b'.st = b.st) ∧
      t.dev.count Reg.MSN_STAT_URGENT_COUNT = (s.dev.count Reg.MSN_STAT_URGENT_COUNT + 1) % 2 ^ 64 ∧
      t.dev.hasEvent 0x2007 ((s.dev.beatWide - b.readyAt).toNat % 2 ^ 32) = true) ∧
  (∀ (s : State) (k : Nat) (b : Brick) (since : Int), s.dev.mainUp = true → s.dev.brick? k = some b → b.st = .ready →
    b.unplaceable = some since → b.fedBy = none → (s.dev.act Reg.MSN_LIMITS_UNPLACEABLE_WAIT : Int) ≤ s.dev.beatWide - since →
    ∃ t, exec (.unplaceableTimeout k) s = .next t ∧ t.dev.hasDone b.entry 0x2004 = true ∧ t.dev.brick? k = none ∧
      t.dev.hasEvent 0x2004 (b.reach % 2 ^ 32) = true) ∧
  (∀ (s : State) (b : Brick), s.dev.mainUp = true → s.dev.atStandstill = true → b ∈ s.dev.crs.bricks → b.st = .waitDep → b.fedBy = none →
    ∃ t, exec .standstill s = .next t ∧ t.dev.hasDone b.entry 0x2006 = true ∧ ∀ x ∈ t.dev.crs.bricks, x.st ≠ .waitDep) ∧
  (∀ (s : State) (src : Source) (v : W64), s.dev.mainUp = true → s.dev.regs.wf = true →
    Reg.MSN_CTL_HOST_HOLD.of v ≠ s.dev.cur Reg.MSN_CTL_HOST_HOLD →
    ∃ t, exec (.hostHold src v) s = .next t ∧ KeepsS [.rw, .shadow, .w1c] false s t ∧
      (s.dev.msnOk Reg.MSN_CTL v = true → ∀ f ∈ Reg.MSN_CTL.fields, f.acc = .rw → t.dev.cur f = f.of v) ∧
      (s.dev.msnOk Reg.MSN_CTL v = false → t.dev.regs.rw = s.dev.regs.rw ∧ t.dev.flag Reg.MSN_STATUS_REFUSED = 1)) ∧
  (∀ (d : Dev), d.mainUp = true →
    let t := d.settleHold
    t.msn.holdCauses = d.act Reg.MSN_CTL_HOST_HOLD + 2 * bit d.msn.dieHold + 4 * bit (d.on Reg.HST_CTL_LINKDOWN_HOLD && !d.hst.linkUp) ∧
    (d.msn.holdCauses = 0 → t.msn.holdCauses ≠ 0 → t.hasEvent 0x2008 (t.msn.holdCauses * 65536 % 2 ^ 32) = true) ∧
    (d.msn.holdCauses ≠ 0 → t.msn.holdCauses = 0 → t.hasEvent 0x2009 (d.msn.holdCauses * 65536 % 2 ^ 32) = true)))

/-- R114, R115, R116, R121, R147: the guard, for the one laser that would emit in the coming beat. A sample that no zone holds passes; one
that the zone of another laser's slice holds, or that was not decided in time, is held: its laser goes to PLUME_HELD at the coming beat edge,
with a report that names both lasers and the slice's class. At a pass of the hold point, in cycle 0, a laser the guard cleared goes on, and
one it holds goes round again. A hold that lasts PLUME_HOLD_MAX beats ends in a stop, and the brick's rest is an urgent remnant.
The model's choices in it: log entries 4 and 42.
R112: a trail's open slice closes a window after it opened, and slices that are no longer live leave the trail.
The model's choices in it: log entry 4. -/
def Obligations.PlumeGuardAndTrails : Prop :=
  ((∀ (s : State) (n : Nat) (g : GuardPoint), s.dev.mainUp = true → n < 16 → s.dev.on Reg.MSN_CTL_GUARD_EN = true →
    (s.dev.laser n).st = .running → (∀ m, m < 16 → m ≠ n → (s.dev.laser m).st ≠ .running ∧ (s.dev.laser m).st ≠ .plumeHeld) →
    s.dev.guardPoint n (s.dev.tb + 80) = some g → s.dev.pth.seams = [] →
    (s.dev.heldBy g [] = none → ∃ t, exec (.plumeGuard 0) s = .next t ∧ KeepsS [.msn] false s t ∧
      t.dev.laser n = { s.dev.laser n with guardHold := false }) ∧
    (∀ m c, s.dev.heldBy g [] = some (m, c) → ∃ t h, exec (.plumeGuard 0) s = .next t ∧ (t.dev.laser n).st = .running ∧
      (t.dev.laser n).pendHold = some h ∧ (h.zone, h.cls, h.bid) = (m, c, g.bid) ∧ (t.dev.piste n).st = (s.dev.piste n).st ∧
      (t.dev.piste n).holdT = (s.dev.tb + 80) * cycUnit + (t.dev.piste n).holdDur) ∧
    (∀ u : W16, bitOf u.toNat n = true → ∃ t, exec (.plumeGuard u) s = .next t ∧ (t.dev.laser n).pendHold.isSome = true ∧
      t.dev.hasEvent 0x200B (2 ^ n) = true)) ∧
  (∀ (d : Dev) (n : Nat) (h : PlumePend), d.mainUp = true → n < 16 → (d.laser n).pendHold = some h → (d.laser n).st = .running →
    let t := d.takeHold n
    (t.laser n).st = .plumeHeld ∧ (t.laser n).pendHold = none ∧ (t.laser n).heldSince = d.beatWide ∧
      (t.laser n).running = (d.laser n).running ∧ (t.piste n).st = .holding ∧
      t.hasEvent 0x2001 ((n + h.zone * 16 + h.cls * 256) % 2 ^ 32) = true) ∧
  (∀ (s : State) (u : W16), s.dev.mainUp = true → s.dev.on Reg.MSN_CTL_GUARD_EN = false → s.dev.pth.seams = [] →
    exec (.plumeGuard u) s = .next s) ∧
  (∀ (s : State) (n : Nat), s.dev.mainUp = true → n < 16 → s.dev.regs.wf = true → (s.dev.piste n).st = .holding →
    s.dev.tmb.cycle = 0 → (s.dev.piste n).holdT ≤ s.dev.tb * cycUnit →
    ∃ t, exec (.holdPass n) s = .next t ∧ KeepsS [.cnt, .crs, .msn, .pth] false s t ∧
      t.dev.count Reg.PTH_STAT_HOLD_PASSES_COUNT = (s.dev.count Reg.PTH_STAT_HOLD_PASSES_COUNT + 1) % 2 ^ 64 ∧
      ((s.dev.laser n).guardHold = false → (t.dev.piste n).st = .running ∧ (t.dev.laser n).st = .running) ∧
      ((s.dev.laser n).guardHold = true → (t.dev.piste n).st = .holding ∧ (t.dev.laser n).st = (s.dev.laser n).st ∧
        (t.dev.laser n).guardHold = false ∧ (t.dev.piste n).holdT = (s.dev.piste n).holdT + (t.dev.piste n).holdDur)) ∧
  (∀ (s : State) (n k : Nat) (b : Brick), s.dev.mainUp = true → n < 16 → (s.dev.laser n).st = .plumeHeld → s.dev.tmb.cycle = 0 →
    s.dev.act Reg.MSN_LIMITS_PLUME_HOLD_MAX ≠ 0 →
    (s.dev.act Reg.MSN_LIMITS_PLUME_HOLD_MAX : Int) ≤ s.dev.beatWide - (s.dev.laser n).heldSince → (s.dev.laser n).running = some k →
    s.dev.brick? k = some b → (s.dev.laser n).queued ≠ some k → (s.dev.laser n).assigned ≠ some k →
    ∃ t, exec (.plumeHoldTimeout n) s = .next t ∧ (t.dev.laser n).st = .stopping ∧ (t.dev.laser n).after = .idle ∧
      (t.dev.laser n).running = none ∧ (t.dev.laser n).queued = none ∧ k ∈ t.dev.msn.timedOut ∧ t.dev.hasEvent 0x2002 n = true ∧
      ∃ b', t.dev.brick? k = some b' ∧ b'.resume.isSome = true ∧ b'.reach = b.reach)) ∧
  ((∀ (s : State) (n : Nat) (x : Slice) (rest : List Slice), s.dev.mainUp = true → n < 16 → (s.dev.laser n).sliceOpen = true →
    (s.dev.laser n).trail = x :: rest →
    (s.dev.window x.cls * 16 ≤ s.dev.beatWide - x.opened → ∃ t, exec (.trailSliceClose n) s = .next t ∧ KeepsS [.msn] false s t ∧
      t.dev.laser n = { s.dev.laser n with sliceOpen := false } ∧ ∀ m, m < 16 → m ≠ n → t.dev.laser m = s.dev.laser m) ∧
    (s.dev.beatWide - x.opened < s.dev.window x.cls * 16 → exec (.trailSliceClose n) s = .next s)) ∧
  (∀ (s : State) (n : Nat), s.dev.mainUp = true → n < 16 → ∃ t, exec (.trailSliceExpire n) s = .next t ∧ KeepsS [.msn] false s t ∧
    (∀ x, x ∈ (t.dev.laser n).trail ↔ ∃ i, (s.dev.laser n).trail[i]? = some x ∧
      (((s.dev.laser n).sliceOpen = true ∧ i = 0) ∨ s.dev.beatWide < x.last + s.dev.window x.cls * 256)) ∧
    ∀ m, m < 16 → m ≠ n → t.dev.laser m = s.dev.laser m))

/-- R102, R117, R118, R148, R151: a laser dropped while it runs a brick stops, and the brick's rest becomes a remnant that this laser does not
get again, marked as one in its header in the staging space, and due two beats after the decision; in its time the remnant is READY, or
completes as unreachable where no laser is left. A laser dropped with no brick goes where its channel's state leads it. A piste at rest for
TRACK_DELAY ends its stop at a beat edge. A brick whose last sample is issued completes with success at a beat edge; its laser goes on
with the brick queued behind it, or is idle.
The model's choices in it: log entries 38, 39, 40 and 41. -/
def Obligations.DropsAndBrickEnds : Prop :=
  (∀ (s : State) (n k : Nat) (b : Brick), s.dev.mainUp = true → s.mem.wf = true → n < 16 → (s.dev.chan n).drop = true →
    s.dev.tmb.cycle = 0 → (s.dev.chan n).dropBeat < s.dev.beatWide → (s.dev.laser n).st = .running ∨ (s.dev.laser n).st = .plumeHeld →
    (s.dev.laser n).handed = false → (s.dev.laser n).running = some k → s.dev.brick? k = some b → (s.dev.laser n).queued ≠ some k →
    (s.dev.laser n).assigned ≠ some k → (∀ x ∈ s.dev.pth.seams, x.receiver ≠ n ∧ x.donor ≠ n) →
    let reach := if bitOf b.reach n then b.reach - 2 ^ n else b.reach
    ∃ t, exec (.masonDrop n) s = .next t ∧ (t.dev.chan n).drop = false ∧ (t.dev.laser n).st = .stopping ∧
      (t.dev.laser n).running = none ∧ (t.dev.laser n).queued = none ∧ (k, (s.dev.chan n).dropBeat + 2) ∈ t.dev.msn.due ∧
      (∃ b', t.dev.brick? k = some b' ∧ b'.reach = reach ∧ b'.resume.isSome = true ∧ b'.remnants = b.remnants + 1) ∧
      t.dev.hasEvent 0x2003 ((n + reach * 65536) % 2 ^ 32) = true ∧
      (b.reach < 65536 → (∀ x ∈ s.dev.crs.bricks, x.key ≠ k → x.pages.headD 0 ≠ b.pages.headD 0) →
        wbits (memWord t.mem.sram (b.pages.headD 0 * 4096)) 15 0 = reach ∧
        wbits (memWord t.mem.sram (b.pages.headD 0 * 4096 + 16)) 1 1 = 1)) ∧
  (∀ (s : State) (n : Nat), s.dev.mainUp = true → n < 16 → (s.dev.chan n).drop = true → s.dev.tmb.cycle = 0 →
    (s.dev.chan n).dropBeat < s.dev.beatWide → (∀ x ∈ s.dev.pth.seams, x.receiver ≠ n ∧ x.donor ≠ n) →
    ((s.dev.laser n).st = .idle ∨ (s.dev.laser n).st = .chanHold → ∃ t, exec (.masonDrop n) s = .next t ∧
      (t.dev.chan n).drop = false ∧ (t.dev.laser n).st = s.dev.afterStop n ∧ (t.dev.laser n).queued = none ∧
      (t.dev.laser n).assigned = none) ∧
    ((s.dev.laser n).st = .stopping → ∃ t, exec (.masonDrop n) s = .next t ∧ (t.dev.chan n).drop = false ∧
      (t.dev.laser n).st = .stopping ∧ (t.dev.laser n).after = s.dev.afterStop n)) ∧
  (∀ (s : State) (n : Nat), s.dev.mainUp = true →
    (s.dev.chan n).drop = false ∨ s.dev.tmb.cycle ≠ 0 ∨ s.dev.beatWide ≤ (s.dev.chan n).dropBeat →
    ∃ t, exec (.masonDrop n) s = .next t ∧ t.dev = s.dev) ∧
  (∀ (s : State) (k : Nat) (due : Int) (b : Brick), s.dev.mainUp = true → (k, due) ∈ s.dev.msn.due →
    80 * due + 48 ≤ 80 * s.dev.beatWide + s.dev.tmb.cycle → s.dev.brick? k = some b →
    (b.reach ≠ 0 → ∃ t, exec (.remnantReady k) s = .next t ∧ k ∈ t.dev.msn.ready ∧ (∀ x ∈ t.dev.msn.due, x.1 ≠ k) ∧
      ∃ b', t.dev.brick? k = some b' ∧ b'.st = .ready ∧ (b'.urgent = true ↔ k ∈ s.dev.msn.timedOut)) ∧
    (b.reach = 0 → b.fedBy = none → ∃ t, exec (.remnantReady k) s = .next t ∧ t.dev.hasDone b.entry 0x2004 = true ∧
      t.dev.brick? k = none)) ∧
  (∀ (s : State) (k : Nat), s.dev.mainUp = true →
    (∀ x ∈ s.dev.msn.due, x.1 = k → 80 * s.dev.beatWide + s.dev.tmb.cycle < 80 * x.2 + 48) → exec (.remnantReady k) s = .next s) ∧
  (∀ (s : State) (n : Nat), s.dev.mainUp = true → n < 16 → (s.dev.piste n).st = .stopping → s.dev.tmb.cycle = 0 →
    (s.dev.piste n).stopEnd + s.dev.act Reg.PTH_TIMING_TRACK_DELAY n * cycUnit ≤ s.dev.refTime n → (s.dev.laser n).st = .stopping →
    let next := if (s.dev.laser n).after = .idle then LaserState.idle else s.dev.afterStop n
    ∃ t, exec (.stopSegmentDone n) s = .next t ∧ KeepsS [.crs, .msn, .pth] false s t ∧ (t.dev.laser n).st = next ∧
      t.dev.piste n = { s.dev.piste n with st := if next = .off then .off else .parked }) ∧
  (∀ (s : State) (n k : Nat) (e : Int) (b : Brick), s.dev.mainUp = true → n < 16 → (s.dev.laser n).st = .running →
    s.dev.tmb.cycle = 0 → (s.dev.piste n).brickEnd = some e → e ≤ (s.dev.piste n).lastT + 80 → (s.dev.laser n).handed = false →
    (s.dev.laser n).running = some k → s.dev.brick? k = some b → b.fedBy = none →
    ∃ t, exec (.brickEnd n) s = .next t ∧ (b.entry.noDone = false → t.dev.hasDone b.entry 0 = true) ∧ t.dev.brick? k = none ∧
      ((s.dev.laser n).queued = none → (t.dev.laser n).st = .idle ∧ (t.dev.laser n).running = none ∧
        (t.dev.piste n).st = .parked ∧ (t.dev.piste n).run = none) ∧
      (∀ q, (s.dev.laser n).queued = some q → (t.dev.laser n).st = .running ∧ (t.dev.laser n).running = some q ∧
        (t.dev.laser n).queued = none ∧ (t.dev.piste n).startBeat = s.dev.beatWide + 1)) ∧
  (∀ (s : State) (n : Nat), s.dev.mainUp = true →
    s.dev.tmb.cycle ≠ 0 ∨ (∀ e, (s.dev.piste n).brickEnd = some e → (s.dev.piste n).lastT + 80 < e) → exec (.brickEnd n) s = .next s)

/-- R131, R132, R139, R152, R154, R159: in each beat a piste, planned far enough ahead, issues the sample of its emission point for two beats
later: it emits in the window that the vectors of that beat give it, with their set-point, and in none otherwise; and the head moves to the
transform of the reference that leads it. A sample that comes late, a plan that runs out of vectors, or a grid node that is uncorrectable
faults the channel: it is reported, and no sample of the beat emits.
The model's choices in it: log entries 4, 45, 49, 50 and 117.
R157, R159, R171: a refill brings the next vectors of the brick that asked for them, 128 at most, to the piste's buffer, the running brick
ahead of the queued one; an uncorrectable word faults the channel and brings nothing. An offer is made, and counted, in cycle 0 of the beat
in which the candidate's entry lies SEAM_LEAD beats ahead; before that nothing happens, and a candidate that is nearer already is declined.
The model's choices in it: log entries 54 and 63. -/
def Obligations.PisteWork : Prop :=
  ((∀ (s : State) (n : Nat) (planned : List Planned), s.dev.mainUp = true → n < 16 → (s.dev.piste n).st ≠ .off →
    s.dev.pisteFaulted n = false → s.dev.pth.seams = [] → s.dev.calDrives n = false →
    let ahead := if (s.dev.piste n).st = .running ∨ (s.dev.piste n).st = .holding then
      s.dev.planUntil s.mem n (s.dev.refTime n) ((s.dev.tb + s.dev.lead n + 640) * cycUnit) 600 else (s.dev, false)
    let p := ahead.1.piste n
    let tr := (s.dev.tb + s.dev.lead n) * cycUnit
    let ref := p.pointAt tr
    (ahead.2 = true → (s.dev.tb + s.dev.lead n + 160) * cycUnit ≤ p.exit.t) → captureEntries s.mem s.dev.tb p.planned = (planned, none) →
    nodesPoisoned s.mem p.slot (toBu ref.1) (toBu ref.2) = false →
    ∃ t, exec (.pisteSampleIssue n .ok) s = .next t ∧
      (∃ x, (t.dev.chan n).pipe = (s.dev.chan n).pipe ++ [x] ∧ x.beat = s.dev.beatWide + 2 ∧
        (x.x, x.y) = (toBu (p.pointAt (s.dev.tb * cycUnit)).1, toBu (p.pointAt (s.dev.tb * cycUnit)).2) ∧
        (({ p with planned } : Piste).emission s.dev.tb = none → ¬ x.on < x.off) ∧
        ∀ on off q, ({ p with planned } : Piste).emission s.dev.tb = some (on, off, q) →
          (x.on, x.off, x.key, x.vec, x.s) = (on, off, q.key, q.v + 1, q.setpoint)) ∧
      (t.dev.piste n).head = (transform s.mem p.slot (toBu ref.1) (toBu ref.2) (p.focusAt tr)).1 ∧
      (t.dev.piste n).headOld = p.head ∧ (t.dev.piste n).refT = tr ∧ (t.dev.piste n).lastT = s.dev.tb ∧
      ∀ m, m < 16 → m ≠ n → t.dev.piste m = s.dev.piste m ∧ t.dev.chan m = s.dev.chan m) ∧
  (∀ (s : State) (n : Nat), s.dev.mainUp = true → n < 16 → (s.dev.piste n).st ≠ .off → s.dev.pisteFaulted n = false →
    (∃ t, exec (.pisteSampleIssue n .late) s = .next t ∧ t.dev.hasEvent 0x3001 n = true ∧ bitOf (t.dev.chan n).pend 6 = true ∧
      ∃ x, (t.dev.chan n).pipe = (s.dev.chan n).pipe ++ [x] ∧ ¬ x.on < x.off) ∧
    (∃ t, exec (.pisteSampleIssue n .gridEcc) s = .next t ∧
      t.dev.hasEvent 0x3004 ((n + (s.dev.piste n).slot * 16) % 2 ^ 32) = true ∧ bitOf (t.dev.chan n).pend 6 = true) ∧
    ((s.dev.piste n).st = .running → s.dev.pth.seams = [] →
      let ahead := s.dev.planUntil s.mem n (s.dev.refTime n) ((s.dev.tb + s.dev.lead n + 640) * cycUnit) 600
      ahead.2 = true → (ahead.1.piste n).exit.t < (s.dev.tb + s.dev.lead n + 160) * cycUnit →
      ∃ t, exec (.pisteSampleIssue n .ok) s = .next t ∧ t.dev.hasEvent 0x3002 n = true ∧ bitOf (t.dev.chan n).pend 6 = true)) ∧
  (∀ (s : State) (n : Nat) (ev : PisteIssue), s.dev.mainUp = true → (s.dev.piste n).st = .off →
    ∃ t, exec (.pisteSampleIssue n ev) s = .next t ∧ t.dev = s.dev)) ∧
  ((∀ (s : State) (n : Nat) (f : Feed) (b : Brick), s.dev.mainUp = true → n < 16 → f.refill = true → s.dev.brick? f.key = some b →
    s.mem.poisoned = [] →
    let k := min 128 (f.vcount - f.next)
    let f' := { f with buf := f.buf ++ (List.range k).map (fun i => b.vec s.mem (f.next + i)), next := f.next + k, refill := false }
    ((s.dev.piste n).run = some f → ∃ t, exec (.vectorRefillDone n .clean) s = .next t ∧ KeepsS [.pth] false s t ∧
      t.dev.piste n = { s.dev.piste n with run := some f' } ∧ ∀ m, m < 16 → m ≠ n → t.dev.piste m = s.dev.piste m) ∧
    ((∀ g, (s.dev.piste n).run = some g → g.refill = false) → (s.dev.piste n).queued = some f →
      ∃ t, exec (.vectorRefillDone n .clean) s = .next t ∧ KeepsS [.pth] false s t ∧
      t.dev.piste n = { s.dev.piste n with queued := some f' } ∧ ∀ m, m < 16 → m ≠ n → t.dev.piste m = s.dev.piste m) ∧
    ((s.dev.piste n).run = some f → 0 < k → ∃ t, exec (.vectorRefillDone n .uncorrectable) s = .next t ∧
      bitOf (t.dev.chan n).pend 6 = true ∧ (t.dev.piste n).run = some f ∧ t.dev.hasEvent 0xA002 0 = true ∧
      t.dev.hasEvent 0x3003 ((n + b.addr (64 + 16 * f.next) / 8 * 256) % 2 ^ 32) = true)) ∧
  (∀ (s : State) (n : Nat) (x : Seam), s.dev.mainUp = true → s.dev.regs.wf = true →
    (s.dev.piste n).st = .running ∨ (s.dev.piste n).st = .holding → s.dev.tmb.cycle = 0 →
    let lead := s.dev.act Reg.PTH_SEAM_CTL_SEAM_LEAD
    let ahead := (s.dev.planUntil s.mem n (s.dev.refTime n) (((s.dev.beatWide + lead + 1) * 80) * cycUnit) 1024).1
    ahead.nextCandidate n = some x →
    (s.dev.leadTo x.tIn = lead → ∃ t, exec (.seamOffer n) s = .next t ∧ KeepsS [.cnt, .pth] false s t ∧
      t.dev.pth.offers = ahead.pth.offers ++ [x] ∧ t.dev.pth.seams = ahead.pth.seams ∧
      t.dev.count Reg.PTH_STAT_SEAM_OFFERS_COUNT = (ahead.count Reg.PTH_STAT_SEAM_OFFERS_COUNT + 1) % 2 ^ 64) ∧
    (s.dev.leadTo x.tIn < lead → ∃ t, exec (.seamOffer n) s = .next t ∧ KeepsS [.cnt, .pth] false s t ∧
      t.dev.pth.offers = ahead.pth.offers ∧
      t.dev.count Reg.PTH_STAT_SEAM_DECLINED_COUNT = (ahead.count Reg.PTH_STAT_SEAM_DECLINED_COUNT + 1) % 2 ^ 64) ∧
    (lead < s.dev.leadTo x.tIn → exec (.seamOffer n) s = .next s)) ∧
  (∀ (s : State) (n : Nat), s.dev.mainUp = true →
    (((s.dev.piste n).st ≠ .running ∧ (s.dev.piste n).st ≠ .holding) ∨ s.dev.tmb.cycle ≠ 0) → exec (.seamOffer n) s = .next s))

/-- R155, R364: GRID_LOAD asks for the grid of a slot that nobody uses, and for a used slot completes with GRID_IN_USE; its bytes land in the
slot and nowhere else. GRID_SWAP of a good grid that fits the field and that no other channel uses waits for its beat, and then the channel
uses it, with a report; a bad grid is refused.
The model's choices in it: log entries 52, 53 and 102. -/
def Obligations.Grids : Prop :=
  (∀ (s : State) (n : Nat) (e : Entry), s.dev.mainUp = true → s.dev.front n 8 1 = some e → e.ring = n → s.dev.calBusy = false →
    s.dev.isNext 8 e = true → e.f 1 5 0 = 0 → e.f 2 4 0 ≤ 16 →
    (s.dev.slotUsed (e.f 2 4 0) = false → (e.sched = true → s.dev.beatAhead e.startBeat = false) →
      (e.f 2 8 8 = 0 → s.dev.canRequest = true) → ∃ t, exec (.gridLoad n) s = .next t ∧
      KeepsS [.out, .hst, .pth] false s t ∧ (e.f 2 8 8 = 0 → s.says t (.hostRead (e.w 1).toNat gridBytes)) ∧
      t.dev.pth.load = some { entry := e, slot := e.f 2 4 0 }) ∧
    (s.dev.slotUsed (e.f 2 4 0) = true → ∃ t, exec (.gridLoad n) s = .next t ∧ t.dev.hasDone e 0x3007 = true ∧ t.dev.pth = s.dev.pth)) ∧
  (∀ (s : State) (g : GridLoad) (bytes : List Byte), s.dev.mainUp = true → s.mem.wf = true → s.dev.pth.load = some g → g.slot ≤ 16 →
    bytes.length = gridBytes →
    let src := (g.entry.w 1).toNat
    (g.entry.f 2 8 8 ≠ 0 → s.dev.dramOk src gridBytes = true ∧ bytes = s.dev.dramGet s.mem src gridBytes) →
    ∃ t, exec (.gridLoadComplete (.ok bytes)) s = .next t ∧ (g.entry.noDone = false → t.dev.hasDone g.entry 0 = true) ∧
      t.dev.pth.load = none ∧ (∀ i, (h : i < bytes.length) → byteAt t.mem.sram (gridAddr g.slot + i) = bytes[i]) ∧
      (∀ a, a < gridAddr g.slot ∨ gridAddr g.slot + gridBytes ≤ a → byteAt t.mem.sram a = byteAt s.mem.sram a) ∧
      t.mem.dram = s.mem.dram) ∧
  (∀ (s : State) (n : Nat) (e : Entry), s.dev.mainUp = true → s.dev.front n 8 2 = some e → e.ring = n → s.dev.calBusy = false →
    s.dev.isNext 8 e = true → gridPoison s.mem (e.f 1 12 8) = none → e.f 1 12 8 ≤ 16 →
    let c := e.f 1 3 0
    let k := e.f 1 12 8
    (gridGood s.mem k = true → s.dev.fieldFits s.mem c k = true → (∀ j, j < 16 → j ≠ c → (s.dev.piste j).slot ≠ k) →
      ∃ t, exec (.gridSwap n .clean) s = .next t ∧ KeepsS [.hst, .pth] false s t ∧
        t.dev.piste c = { s.dev.piste c with swap := some (k, e) } ∧ ∀ j, j < 16 → j ≠ c → t.dev.piste j = s.dev.piste j) ∧
    (gridGood s.mem k = false → ∃ t, exec (.gridSwap n .clean) s = .next t ∧ t.dev.hasDone e 0x3005 = true ∧ t.dev.pth = s.dev.pth) ∧
    (gridGood s.mem k = true → s.dev.fieldFits s.mem c k = false →
      ∃ t, exec (.gridSwap n .clean) s = .next t ∧ t.dev.hasDone e 0x3006 = true ∧ t.dev.pth = s.dev.pth) ∧
    (gridGood s.mem k = true → s.dev.fieldFits s.mem c k = true → (∃ j, j < 16 ∧ j ≠ c ∧ (s.dev.piste j).slot = k) →
      ∃ t, exec (.gridSwap n .clean) s = .next t ∧ t.dev.hasDone e 0x3007 = true ∧ t.dev.pth = s.dev.pth)) ∧
  (∀ (s : State) (n k : Nat) (e : Entry), s.dev.mainUp = true → n < 16 → (s.dev.piste n).swap = some (k, e) → k ≤ 16 →
    (s.dev.piste n).slot < 32 → s.dev.tmb.cycle = 0 → s.dev.beatMultiple 16 = true →
    (e.sched = true → s.dev.beatAhead e.startBeat = false) → ((s.dev.piste n).st = .off ∨ (s.dev.piste n).st = .parked ∨ s.dev.headDark n = true) →
    ∃ t, exec (.gridSwapEffect n) s = .next t ∧ (t.dev.piste n).slot = k ∧ (t.dev.piste n).swap = none ∧
      (e.noDone = false → t.dev.hasDone e 0 = true) ∧ t.dev.hasEvent 0x3008 (n + k * 16 + (s.dev.piste n).slot * 512) = true) ∧
  (∀ (s : State) (n : Nat), s.dev.mainUp = true → s.dev.beatMultiple 16 = false ∨ s.dev.tmb.cycle ≠ 0 → exec (.gridSwapEffect n) s = .next s)

/-! ## Laser channels and the safety monitor -/

/-- R20, R193, R194, R196, R200: a write of LSR_CHAN_n_CTL that sets EN of a channel that is OFF is stored, unless a value is out of range or a
condition of R194 refuses it; one that clears EN is stored. At the next beat edge, which samples EN, a channel that is OFF begins to arm, or
stays OFF with EN 0 where SAFE_IN has opened meanwhile, and one whose EN is 0 is decided to go OFF and drops its work in flight.
The model's choices in it: log entries 16, 56 and 57.
R193, R195: at a beat edge a channel in ARMING whose conditions hold becomes ENABLED, which is reported, and its laser is the Mason's to
use; one that has waited ARM_TIMEOUT beats in vain faults; before that, nothing happens.
The model's choices in it: log entries 57 and 58.
R198: a write of 1s clears cause bits of a channel and changes nothing else; at a beat edge a faulted channel without cause bits and
without a cause that persists goes OFF, and a cause that persists sets its bit again.
The model's choices in it: log entries 16 and 56. -/
def Obligations.ChannelStates : Prop :=
  ((∀ (s : State) (src : Source) (n : Nat) (v : W64), s.dev.mainUp = true → s.dev.regs.wf = true → n < 16 →
    Reg.LSR_CHAN_CTL_EN.of v = 1 → s.dev.cur Reg.LSR_CHAN_CTL_EN n ≠ 1 →
    (chanCtlOk v = true → s.dev.chanEnableRefused s.mem n = false → s.dev.cal.run = none →
      ∃ t, exec (.channelEnable src n v) s = .next t ∧ KeepsS [.rw, .shadow, .w1c] false s t ∧
        ∀ f ∈ Reg.LSR_CHAN_CTL.fields, f.acc = .rw → t.dev.cur f n = f.of v) ∧
    ((chanCtlOk v = false ∨ s.dev.chanEnableRefused s.mem n = true) → ∃ t, exec (.channelEnable src n v) s = .next t ∧
      KeepsS [.w1c] false s t ∧ t.dev.flag Reg.LSR_STATUS_REFUSED = 1)) ∧
  (∀ (s : State) (src : Source) (n : Nat) (v : W64), s.dev.mainUp = true → s.dev.regs.wf = true → n < 16 → chanCtlOk v = true →
    Reg.LSR_CHAN_CTL_EN.of v = 0 → s.dev.cal.run = none →
    (s.dev.chan n).st = .off ∨ s.dev.changes Reg.LSR_CHAN_CTL [Reg.LSR_CHAN_CTL_EN] v n = false →
    ∃ t, exec (.channelDisable src n v) s = .next t ∧ KeepsS [.rw, .shadow, .w1c] false s t ∧
      ∀ f ∈ Reg.LSR_CHAN_CTL.fields, f.acc = .rw → t.dev.cur f n = f.of v) ∧
  (∀ (d : Dev) (n : Nat), d.regs.wf = true → n < 16 → (d.chan n).next = none →
    (d.act Reg.LSR_CHAN_CTL_EN n = 1 → (d.chan n).st = .off → d.safe.closed = true →
      ((d.chanEdge n).chan n).st = .arming ∧ ((d.chanEdge n).chan n).since = d.beatWide) ∧
    (d.act Reg.LSR_CHAN_CTL_EN n = 1 → (d.chan n).st = .off → d.safe.closed = false →
      ((d.chanEdge n).chan n).st = .off ∧ (d.chanEdge n).cur Reg.LSR_CHAN_CTL_EN n = 0) ∧
    (d.act Reg.LSR_CHAN_CTL_EN n = 0 → (d.chan n).active = true → (d.chan n).pend = 0 → d.leavesFor (d.chanEdge n) n .off))) ∧
  (∀ (s : State) (n : Nat), s.dev.mainUp = true → n < 16 → (s.dev.chan n).st = .arming → (s.dev.chan n).next = none →
    (s.dev.armed n = true → s.dev.tmb.cycle = 0 →
      ∃ t, exec (.armingComplete n) s = .next t ∧ KeepsS [.merge, .crs, .msn, .pth, .lsr, .log] false s t ∧
      (t.dev.chan n).st = .enabled ∧ t.dev.hasEvent 0x4007 n = true ∧
      (((s.dev.laser n).st = .off ∨ (s.dev.laser n).st = .chanHold) → (t.dev.laser n).st = .idle) ∧
      (t.dev.piste n).st ≠ .off ∧ ∀ m, m < 16 → m ≠ n → t.dev.chan m = s.dev.chan m ∧ t.dev.laser m = s.dev.laser m) ∧
    (s.dev.armed n = false ∨ s.dev.tmb.cycle ≠ 0 → exec (.armingComplete n) s = .next s) ∧
    (s.dev.armed n = false →
      let w := s.dev.act Reg.LSR_CHAN_ARM_ARM_TIMEOUT n
      (w ≠ 0 ∧ (w : Int) ≤ s.dev.beatWide - (s.dev.chan n).since → ∃ t, exec (.armingTimeout n) s = .next t ∧
        s.dev.faultsFor t.dev n 3 ∧
        t.dev.hasEvent 0x4003 (n + 16 * bit (!s.dev.readyOk n) + 32 * bit (!s.dev.beaconOk n)) = true) ∧
      ((w : Int) > s.dev.beatWide - (s.dev.chan n).since → exec (.armingTimeout n) s = .next s))) ∧
  ((∀ (s : State) (src : Source) (n : Nat) (v : W64), s.dev.mainUp = true → s.dev.regs.wf = true → n < 16 →
    ∃ t, exec (.channelFaultClear src n v) s = .next t ∧ KeepsS [.rw, .shadow, .w1c] false s t ∧
      t.dev.flag Reg.LSR_CHAN_FAULT_CAUSE n =
        s.dev.flag Reg.LSR_CHAN_FAULT_CAUSE n &&& (511 - Reg.LSR_CHAN_FAULT_CAUSE.of v) ∧
      ∀ m, m < 16 → m ≠ n → t.dev.flag Reg.LSR_CHAN_FAULT_CAUSE m = s.dev.flag Reg.LSR_CHAN_FAULT_CAUSE m) ∧
  (∀ (d : Dev) (n : Nat), n < 16 → (d.chan n).st = .fault →
    let pads := padWrong (d.chan n).emitPad (d.emitDriven n) || padWrong (d.chan n).gatePad (d.gateDriven n)
    (d.flag Reg.LSR_CHAN_FAULT_CAUSE n = 0 → d.safe.closed = true → d.alarmOn n = false → pads = false →
      ((d.settleFault n).chan n).st = .off) ∧
    (pads = true → ((d.settleFault n).chan n).st = .fault ∧
      bitOf ((d.settleFault n).flag Reg.LSR_CHAN_FAULT_CAUSE n) 4 = true) ∧
    (d.safe.closed = false → ((d.settleFault n).chan n).st = .fault ∧
      bitOf ((d.settleFault n).flag Reg.LSR_CHAN_FAULT_CAUSE n) 0 = true) ∧
    (d.alarmOn n = true → ((d.settleFault n).chan n).st = .fault ∧
      bitOf ((d.settleFault n).flag Reg.LSR_CHAN_FAULT_CAUSE n) 1 = true)))

/-- R187, R192, R197, R215: what LSR sees of a channel. An input's level counts once it may have stood for its qualification time; ALARM at
the level that ALARM_POL sets faults an active channel, READY away from its level an enabled one that requires it, a pad that reads back
wrong and a DAC out of compliance for 4 beats the same; each fault is reported, and drops the channel's work. A cause that another block
decided reaches the channel at the beat edge, and at the next one the channel is in FAULT with EN cleared. Other level changes are only
noted.
The model's choices in it: log entries 55, 56 and 58.
R196, R204, R205: LSR takes a beacon's report, and acts on it at the next beat edge. FAILED or OFF holds an enabled channel linked to it,
which is reported; OK ends the hold, and the channel arms again; UNVERIFIED begins the time that ends in a hold after UNVER_MAX ms. Channels
linked to no beacon or to another are left alone.
The model's choices in it: log entry 62. -/
def Obligations.ChannelInputs : Prop :=
  ((∀ (s : State) (n : Nat) (level : Bool), s.dev.mainUp = true → n < 16 →
    let alarmFor := s.dev.cycleNow - (s.dev.chan n).alarmAt
    let readyFor := s.dev.cycleNow - (s.dev.chan n).readyAt
    let alarmQual : Int := 80 * s.dev.act Reg.LSR_CHAN_CTL_ALARM_QUAL n
    let readyQual : Int := 80 * s.dev.act Reg.LSR_CHAN_CTL_READY_QUAL n
    let alarm := level != s.dev.on Reg.LSR_CHAN_CTL_ALARM_POL n
    let ready := level != s.dev.on Reg.LSR_CHAN_CTL_READY_POL n
    (level ≠ (s.dev.chan n).alarm → alarmQual ≤ alarmFor →
      (alarm = true → (s.dev.chan n).active = true → (s.dev.chan n).next = none → ∃ t, exec (.alarmQualified n level) s = .next t ∧
        s.dev.faultsFor t.dev n 1 ∧ t.dev.hasEvent 0x4001 n = true ∧ (t.dev.chan n).alarm = level) ∧
      (alarm = false → ∃ t, exec (.alarmQualified n level) s = .next t ∧ KeepsS [.lsr] false s t ∧
        t.dev.chan n = { s.dev.chan n with alarm := level, alarmAt := s.dev.cycleNow })) ∧
    (level ≠ (s.dev.chan n).ready → readyQual ≤ readyFor →
      (ready = false → (s.dev.chan n).st = .enabled → (s.dev.chan n).next = none → s.dev.on Reg.LSR_CHAN_CTL_READY_REQ n = true →
        ∃ t, exec (.readyQualified n level) s = .next t ∧ s.dev.faultsFor t.dev n 2 ∧ t.dev.hasEvent 0x4002 n = true ∧
          (t.dev.chan n).ready = level) ∧
      (ready = true → ∃ t, exec (.readyQualified n level) s = .next t ∧ KeepsS [.lsr] false s t ∧
        t.dev.chan n = { s.dev.chan n with ready := level, readyAt := s.dev.cycleNow })) ∧
    (level = (s.dev.chan n).alarm ∨ (0 ≤ alarmFor ∧ alarmFor < alarmQual) → exec (.alarmQualified n level) s = .next s) ∧
    (level = (s.dev.chan n).ready ∨ (0 ≤ readyFor ∧ readyFor < readyQual) → exec (.readyQualified n level) s = .next s)) ∧
  (∀ (s : State) (n : Nat), s.dev.mainUp = true → n < 16 →
    (∀ emit gate : Bool, (emit || gate) = true → (s.dev.chan n).active = true → (s.dev.chan n).next = none →
      ∃ t, exec (.padReadbackMismatch n emit gate) s = .next t ∧ s.dev.faultsFor t.dev n 4 ∧
        t.dev.hasEvent 0x4004 (n + 16 * bit emit + 32 * bit gate) = true ∧
        (emit = true → (t.dev.chan n).emitPad = some (!s.dev.emitDriven n)) ∧
        (gate = true → (t.dev.chan n).gatePad = some (!s.dev.gateDriven n))) ∧
    (∃ t, exec (.padReadbackMismatch n false false) s = .next t ∧ KeepsS [.lsr] false s t ∧
      t.dev.chan n = { s.dev.chan n with emitPad := none, gatePad := none }) ∧
    ((s.dev.chan n).active = true → (s.dev.chan n).next = none → 4 ≤ (s.dev.chan n).highRun →
      ∃ t, exec (.dacComplianceLoss n) s = .next t ∧ s.dev.faultsFor t.dev n 5 ∧ t.dev.hasEvent 0x4005 n = true) ∧
    ((s.dev.chan n).highRun < 4 → exec (.dacComplianceLoss n) s = .next s)) ∧
  (∀ (d : Dev) (n c : Nat), d.regs.wf = true → n < 16 → (c = 6 ∨ c = 7 ∨ c = 8) → (d.chan n).pend = 2 ^ c → (d.chan n).next = none →
    (d.chan n).active = true → d.faultsFor (d.chanEdge n) n c ∧ ((d.chanEdge n).chan n).pend = 0 ∧
      ((d.chanEdge n).chanEdge n).cur Reg.LSR_CHAN_CTL_EN n = 0 ∧ (((d.chanEdge n).chanEdge n).chan n).st = .fault)) ∧
  ((∀ (s : State) (b : Nat), s.dev.mainUp = true → b < 4 → ∃ t, exec (.beaconReport b) s = .next t ∧ KeepsS [.lsr] false s t ∧
    t.dev.lsr = { s.dev.lsr with reported := t.dev.lsr.reported } ∧ at' t.dev.lsr.reported b = some (at' s.dev.lgt.ch (24 + b)).st ∧
    ∀ c, c < 4 → c ≠ b → at' t.dev.lsr.reported c = at' s.dev.lsr.reported c) ∧
  (∀ (d : Dev) (b st : Nat), d.mainUp = true → b < 4 → at' d.lsr.reported b = some st →
    let t := d.beaconEdge b
    at' t.lsr.beacon b = st ∧ at' t.lsr.reported b = none ∧ (∀ c, c < 4 → c ≠ b → at' t.lsr.beacon c = at' d.lsr.beacon c) ∧
      ∀ n, n < 16 →
        ((d.beaconLinked n = false ∨ d.beaconOf n ≠ b) → t.chan n = d.chan n) ∧
        (d.beaconLinked n = true → d.beaconOf n = b → (d.chan n).next = none →
          ((st = 0 ∨ st = 2) → (d.chan n).st = .enabled → d.leavesFor t n .hold ∧ bitOf (t.chan n).hold 1 = true ∧
            t.hasEvent 0x4008 (n + b * 16 + st * 64) = true) ∧
          (st = 1 → (d.chan n).st = .hold → (d.chan n).hold = 2 → (t.chan n).st = .arming ∧
            (t.chan n).since = d.beatWide ∧ t.hasEvent 0x400A n = true) ∧
          (st = 3 → (d.chan n).st = .enabled → (d.chan n).unverSince = none →
            t.chan n = { d.chan n with unverSince := some d.beatWide }))) ∧
  (∀ (s : State) (n : Nat) (b0 : Int), s.dev.mainUp = true → n < 16 → (s.dev.chan n).unverSince = some b0 →
    s.dev.beaconLinked n = true → (s.dev.chan n).st = .enabled → (s.dev.chan n).next = none →
    (s.dev.tmb.cycle = 0 → (20000 * s.dev.act Reg.LSR_CHAN_BEACON_UNVER_MAX n : Int) ≤ s.dev.beatWide - b0 →
      ∃ t, exec (.beaconUnverifiedTimeout n) s = .next t ∧ s.dev.leavesFor t.dev n .hold ∧
        t.dev.hasEvent 0x4008 (n + s.dev.beaconOf n * 16 + 192) = true) ∧
    (s.dev.tmb.cycle ≠ 0 ∨ s.dev.beatWide - b0 < 20000 * s.dev.act Reg.LSR_CHAN_BEACON_UNVER_MAX n →
      exec (.beaconUnverifiedTimeout n) s = .next s)))

/-- R202: the heartbeat conditions, all of them. -/
def Obligations.HeartbeatConditions : Prop :=
  ∀ d : Dev, d.heartbeatFails d.thm.latch = 0 ↔
    d.act Reg.MGT_SAFE_CTL_READY_EN = 1 ∧ d.safe.closed = true ∧ d.tmb.run = true ∧
      (d.safe.expired = false ∨ d.act Reg.MGT_SAFE_CTL_KICK_TIMEOUT = 0) ∧ d.thm.latch = false ∧
      (d.act Reg.MGT_SAFE_CTL_FAULT_STOPS_READY ≠ 1 ∨ ∀ n, n < 16 → (d.chan n).st ≠ .fault)

/-- R199, R200: one low sample of SAFE_IN opens the chain at once and faults every active channel with SAFE_OPEN, whose pads are inactive
from that very cycle; a closed chain that opens is reported. A chain that has stood high for SAFE_QUAL beats is closed again, and enables
nothing of itself.
The model's choices in it: log entry 59.
R201, R203: at each boundary of 1,000 beats READY_OUT toggles if no condition failed at a beat edge since the last one and none fails
now, and keeps its level otherwise; a change between the two is reported. The key restarts the kick watchdog, any other value does
nothing, and KICK_TIMEOUT ms after the last key it expires, which is reported.
The model's choices in it: log entries 4 and 60. -/
def Obligations.SafetyMonitor : Prop :=
  ((∀ (s : State), s.dev.mainUp = true → ∃ t, exec .safeInLow s = .next t ∧ t.dev.safe.raw = false ∧ t.dev.safe.closed = false ∧
    t.dev.flag Reg.MGT_SAFE_STATUS_SAFE_OPENED = 1 ∧ (s.dev.safe.closed = true → t.dev.hasEvent 0x0201 0 = true) ∧
    ∀ n, n < 16 → (s.dev.chan n).active = true → (s.dev.chan n).next = none →
      s.dev.faultsFor t.dev n 0 ∧ (t.dev.chan n).offAt = s.dev.cycleNow ∧ t.dev.hasEvent 0x4006 n = true) ∧
  (∀ (s : State), s.dev.mainUp = true → s.dev.safe.closed = false →
    s.dev.safe.lowAt + 80 * s.dev.act Reg.MGT_SAFE_CTL_SAFE_QUAL ≤ s.dev.cycleNow → ∃ t, exec .safeInQualified s = .next t ∧
    KeepsS [.merge, .safe, .log] false s t ∧ t.dev.safe = { s.dev.safe with raw := true, closed := true } ∧
    t.dev.hasEvent 0x0202 0 = true) ∧
  (∀ (s : State), s.dev.mainUp = true → s.dev.safe.closed = true ∨ (s.dev.safe.lowAt ≤ s.dev.cycleNow ∧
    s.dev.cycleNow < s.dev.safe.lowAt + 80 * s.dev.act Reg.MGT_SAFE_CTL_SAFE_QUAL) → exec .safeInQualified s = .next s)) ∧
  ((∀ (s : State), s.dev.mainUp = true → s.dev.tmb.run = true → s.dev.beatWide % 1000 = 0 → s.dev.tmb.cycle = 0 →
    let now := s.dev.heartbeatFails s.dev.thm.latch
    let ok := s.dev.safe.lapsed = 0 ∧ now = 0
    ∃ t, exec .heartbeatBoundary s = .next t ∧ KeepsS [.merge, .safe, .log] false s t ∧ t.dev.safe.lapsed = now ∧
      (ok → t.dev.safe.readyOut = !s.dev.safe.readyOut ∧ t.dev.safe.hbRun = true ∧
        (s.dev.safe.hbRun = false → t.dev.hasEvent 0x0204 0 = true)) ∧
      (¬ ok → t.dev.safe.readyOut = s.dev.safe.readyOut ∧ t.dev.safe.hbRun = false ∧
        (s.dev.safe.hbRun = true → t.dev.hasEvent 0x0203 ((s.dev.safe.lapsed ||| now) % 2 ^ 32) = true))) ∧
  (∀ (s : State), s.dev.mainUp = true → (s.dev.tmb.run = false ∨ s.dev.beatWide % 1000 ≠ 0 ∨ s.dev.tmb.cycle ≠ 0) →
    exec .heartbeatBoundary s = .next s) ∧
  (∀ (s : State) (src : Source) (v : W64), s.dev.mainUp = true →
    (Reg.MGT_SAFE_KICK_KEY.of v = 0x5AFE → ∃ t, exec (.safeKick src v) s = .next t ∧ KeepsS [.safe] false s t ∧
      t.dev.safe = { s.dev.safe with kickAt := s.dev.pwr.clock, expired := false }) ∧
    (Reg.MGT_SAFE_KICK_KEY.of v ≠ 0x5AFE → exec (.safeKick src v) s = .next s)) ∧
  (∀ (s : State), s.dev.mainUp = true → s.dev.safe.expired = false →
    let w : Int := s.dev.act Reg.MGT_SAFE_CTL_KICK_TIMEOUT
    (w ≠ 0 ∧ w * msUnit ≤ s.dev.pwr.clock - s.dev.safe.kickAt → ∃ t, exec .kickTimeoutExpiry s = .next t ∧
      KeepsS [.w1c, .merge, .safe, .log] false s t ∧ t.dev.safe = { s.dev.safe with expired := true } ∧
      t.dev.flag Reg.MGT_SAFE_STATUS_KICK_EXPIRED = 1 ∧ t.dev.hasEvent 0x0205 0 = true) ∧
    (w = 0 ∨ s.dev.pwr.clock - s.dev.safe.kickAt < w * msUnit → exec .kickTimeoutExpiry s = .next s)))

/-! ## Melt-pool control -/

/-- R227, R228, R231, R239, R240, R242: the sample of cycle 0 is trimmed; it is a measurement of the DAC beat before, valid under the
conditions of R231 alone, with a reference of 1 at least; a sample over BR_LIMIT or over-range counts towards the back-reflection test, any
other starts the count anew. A late one raises MPM_OVERRUN, and its update is discarded. The sample of cycle 40 completes the measurement: it
makes it invalid where it is over-range, and a valid measurement below the limit of MP_LOW counts. Each is taken once in a beat.
The model's choices in it: log entries 4, 63, 64 and 118.
R197, R239, R240, R241: the back-reflection trip faults the channel from the next beat edge, MP_LOW is raised once a vector and faults
it only where LOW_FAULT asks for that, and MPM_SAT never does; before its count is full each does nothing.
The model's choices in it: log entry 118. -/
def Obligations.MeltPool : Prop :=
  (∀ (s : State) (n : Nat) (mp br : BitVec 14) (late : Bool), s.dev.mainUp = true → n < 16 →
    let c := s.dev.mpmCh n
    let ch := s.dev.chan n
    let m := clampI 0 65535 (divRound ((4 * (mp.toNat : Int) - s.dev.effS Reg.MPM_CHAN_TRIM_MP_OFFSET n) *
      (s.dev.eff Reg.MPM_CHAN_TRIM_MP_GAIN n : Int)) 32768)
    let v := clampI 0 65535 (divRound ((4 * (br.toNat : Int) - s.dev.effS Reg.MPM_CHAN_TRIM_BR_OFFSET n) *
      (s.dev.eff Reg.MPM_CHAN_TRIM_BR_GAIN n : Int)) 32768)
    let beyond := v > s.dev.act Reg.MPM_CHAN_LIMIT_BR_LIMIT n ∨ br = 0 ∨ br = 16383
    let range := mp = 0 ∨ mp = 16383
    (s.dev.tmb.cycle = 0 → (∀ x, c.meas.head? = some x → x.beat ≠ s.dev.beatWide) →
      ∃ t x, exec (.mpmSample n false mp br late) s = .next t ∧ KeepsS [.w1c, .cnt, .merge, .mpm, .log] false s t ∧
      (t.dev.mpmCh n).meas.head? = some x ∧ x.beat = s.dev.beatWide ∧ (x.m : Int) = m ∧ x.pv = ch.prev.pv ∧
      1 ≤ x.r ∧ x.late = late ∧ ((t.dev.mpmCh n).lastM : Int) = m ∧ ((t.dev.mpmCh n).lastBr : Int) = v ∧
      (x.valid = true ↔ ch.now.beat = s.dev.beatWide ∧ ch.prev.beat = s.dev.beatWide - 1 ∧ ch.prev.vec ≠ 0 ∧ ch.now.vec ≠ 0 ∧
        ch.prev.pv = ch.now.pv ∧ ch.prev.on = 0 ∧ ch.prev.off = 80 ∧ ch.now.on = 0 ∧ ch.now.off = 80 ∧ ch.prev.blend = 0 ∧
        ch.now.blend = 0 ∧ ch.prev.mpm = true ∧ ch.prev.hold = false ∧ c.ref.valid = true ∧ ¬ range ∧ c.out = false) ∧
      (c.out = false → beyond → (t.dev.mpmCh n).brRun = c.brRun + 1) ∧ (c.out = false → ¬ beyond → (t.dev.mpmCh n).brRun = 0) ∧
      (c.out = true → (t.dev.mpmCh n).brRun = c.brRun) ∧ (t.dev.mpmCh n).lowRun = c.lowRun ∧
      (late = true → t.dev.hasEvent 0x6001 n = true ∧ bitOf (t.dev.flag Reg.MGT_OVERRUN_SUMMARY_OVR) 6 = true) ∧
      (range → ch.now.beat = s.dev.beatWide → ch.now.vec ≠ 0 → c.rangeSaid = false → t.dev.hasEvent 0x6005 n = true) ∧
      ∀ k, k < 16 → k ≠ n → t.dev.mpmCh k = s.dev.mpmCh k) ∧
    (∀ x rest, s.dev.tmb.cycle = 40 → c.meas = x :: rest → x.beat = s.dev.beatWide → x.br.length < 2 →
      ∃ t y, exec (.mpmSample n true mp br late) s = .next t ∧ KeepsS [.cnt, .merge, .mpm, .log] false s t ∧
      (t.dev.mpmCh n).meas.head? = some y ∧ (y.beat, y.m, y.r, y.late) = (x.beat, x.m, x.r, x.late) ∧
      (y.valid = true ↔ x.valid = true ∧ ¬ range) ∧ y.br.length = x.br.length + 1 ∧
      ((t.dev.mpmCh n).lastBr : Int) = v ∧ (t.dev.mpmCh n).lastM = c.lastM ∧
      (t.dev.mpmCh n).lowRun = (if y.valid then if x.m * 256 < x.r * s.dev.act Reg.MPM_CHAN_CTL_LOW_RATIO n then c.lowRun + 1 else 0
        else c.lowRun) ∧
      (c.out = false → beyond → (t.dev.mpmCh n).brRun = c.brRun + 1) ∧ (c.out = false → ¬ beyond → (t.dev.mpmCh n).brRun = 0)) ∧
    (s.dev.tmb.cycle ≠ 0 ∨ (∃ x, c.meas.head? = some x ∧ x.beat = s.dev.beatWide) →
      exec (.mpmSample n false mp br late) s = .next s)) ∧
  (∀ (s : State) (n : Nat), s.dev.mainUp = true → n < 16 →
    let c := s.dev.mpmCh n
    (s.dev.act Reg.MPM_CHAN_CTL_BR_QUAL n ≤ c.brRun → c.out = false → ∃ t, exec (.brQualReached n) s = .next t ∧
      KeepsS [.cnt, .merge, .lsr, .mpm, .log] false s t ∧ t.dev.hasEvent 0x6002 ((n + c.lastBr * 65536) % 2 ^ 32) = true ∧
      bitOf (t.dev.chan n).pend 8 = true ∧ (t.dev.mpmCh n).brRun = 0) ∧
    ((c.brRun < s.dev.act Reg.MPM_CHAN_CTL_BR_QUAL n ∨ c.out = true) → exec (.brQualReached n) s = .next s) ∧
    (s.dev.act Reg.MPM_CHAN_CTL_LOW_RATIO n ≠ 0 → s.dev.act Reg.MPM_CHAN_CTL_LOW_BEATS n ≤ c.lowRun → c.lowSaid = false →
      c.out = false → ∃ t, exec (.lowBeatsReached n) s = .next t ∧ KeepsS [.merge, .lsr, .mpm, .log] false s t ∧
        t.dev.hasEvent 0x6003 ((n + c.lastM * 65536) % 2 ^ 32) = true ∧ (t.dev.mpmCh n).lowSaid = true ∧
        (s.dev.act Reg.MPM_CHAN_CTL_LOW_FAULT n = 1 → bitOf (t.dev.chan n).pend 8 = true) ∧
        (s.dev.act Reg.MPM_CHAN_CTL_LOW_FAULT n ≠ 1 → t.dev.lsr = s.dev.lsr)) ∧
    ((c.lowRun < s.dev.act Reg.MPM_CHAN_CTL_LOW_BEATS n ∨ c.lowSaid = true ∨ s.dev.act Reg.MPM_CHAN_CTL_LOW_RATIO n = 0) → exec (.lowBeatsReached n) s = .next s) ∧
    (s.dev.act Reg.MPM_CHAN_CTL_SAT_BEATS n ≤ c.satRun → c.satSaid = false → ∃ t, exec (.satBeatsReached n) s = .next t ∧
      KeepsS [.merge, .mpm, .log] false s t ∧ t.dev.hasEvent 0x6004 (n + 16 * bit c.satHi) = true ∧
      (t.dev.mpmCh n).satSaid = true) ∧
    ((c.satRun < s.dev.act Reg.MPM_CHAN_CTL_SAT_BEATS n ∨ c.satSaid = true) → exec (.satBeatsReached n) s = .next s))

/-- R189, R190, R197, R207: once in each DAC beat, in its cycle 0, the sample due in it reaches the DAC, scaled, and cut at DAC_MAX, which
counts; in a beat with nothing due the DAC carries IDLE_CODE while the pads are on, and 0 otherwise. Beats in a row at a code of 4,096 or
more are counted, up to 4.
The model's choices in it: log entries 4, 55 and 61.
R189, R234, R235, R236, R237, R238: in an ordinary emitting beat of a vector under the loop, the valid measurement of three beats ago
advances the compensator by one step, and the sample goes to the DAC multiplied by 1 plus the correction; in a beat held by MPM_HOLD or of a
donor in a blend the correction stays at y1, and nothing advances.
The model's choices in it: log entries 64 and 118. -/
def Obligations.DacAndCorrection : Prop :=
  ((∀ (s : State) (n : Nat), s.dev.mainUp = true → s.dev.regs.wf = true → n < 16 → s.dev.cal.run = none → s.dev.tmb.run = true →
    s.dev.tmb.cycle = 0 → (s.dev.chan n).now.beat ≠ s.dev.beatWide →
    let due := (s.dev.chan n).pipe.find? (fun x => x.beat == s.dev.beatWide)
    let high := fun (t : State) => (t.dev.chan n).highRun = if 4096 ≤ (t.dev.chan n).code then min 4 ((s.dev.chan n).highRun + 1) else 0
    (∀ x, due = some x → s.dev.safe.raw = true → s.dev.emits n = true → x.on < x.off → x.s ≤ 65535 →
      s.dev.act Reg.MPM_CHAN_CTL_LOOP_EN n = 0 →
      let code := (x.s * s.dev.eff Reg.LSR_CHAN_SCALE_GAIN n + 16384) / 32768
      let top := s.dev.eff Reg.LSR_CHAN_SCALE_DAC_MAX n
      ∃ t, exec (.dacUpdate n) s = .next t ∧ (t.dev.chan n).code = min code top ∧ (t.dev.chan n).now = x ∧
        (t.dev.chan n).prev = (s.dev.chan n).now ∧
        (t.dev.chan n).pipe = (s.dev.chan n).pipe.filter (fun y => y.beat > s.dev.beatWide) ∧ high t ∧
        (t.dev.mpmCh n).lastC = 0 ∧ (t.dev.mpmCh n).y1 = 0 ∧
        t.dev.count Reg.LSR_STAT_DAC_CLAMPS_COUNT = (s.dev.count Reg.LSR_STAT_DAC_CLAMPS_COUNT + bit (top < code)) % 2 ^ 64 ∧
        ∀ k, k < 16 → k ≠ n → t.dev.chan k = s.dev.chan k) ∧
    (due = none → ∃ t, exec (.dacUpdate n) s = .next t ∧ high t ∧
      (t.dev.chan n).code = (if s.dev.safe.raw && s.dev.padsOn n then s.dev.eff Reg.LSR_CHAN_SCALE_IDLE_CODE n else 0) ∧
      ¬ (t.dev.chan n).now.on < (t.dev.chan n).now.off)) ∧
  (∀ (s : State) (n : Nat), s.dev.mainUp = true →
    s.dev.tmb.run = false ∨ s.dev.tmb.cycle ≠ 0 ∨ (s.dev.chan n).now.beat = s.dev.beatWide → exec (.dacUpdate n) s = .next s)) ∧
  (∀ (s : State) (n : Nat) (x : Sample), s.dev.mainUp = true → n < 16 → s.dev.safe.raw = true → s.dev.cal.run = none →
    s.dev.tmb.run = true → s.dev.tmb.cycle = 0 → (s.dev.chan n).now.beat ≠ s.dev.beatWide →
    s.dev.emits n = true → (s.dev.chan n).st = .enabled → s.dev.act Reg.MPM_CHAN_CTL_LOOP_EN n ≠ 0 →
    (s.dev.chan n).pipe.find? (fun x => x.beat == s.dev.beatWide) = some x → x.on < x.off → x.vec ≠ 0 →
    let c := s.dev.mpmCh n
    let r := c.ref
    c.refOf = x.pv → c.zeroNext = false →
    let sends := fun (t : State) (k : Int) => (t.dev.mpmCh n).lastC = k ∧
      (t.dev.chan n).code = min (((clampI 0 65535 ((x.s : Int) * (32768 + k) / 32768)).toNat *
        s.dev.eff Reg.LSR_CHAN_SCALE_GAIN n + 16384) / 32768) (s.dev.eff Reg.LSR_CHAN_SCALE_DAC_MAX n)
    (∀ y, x.blend = 0 → x.hold = false → x.mpm = true → r.valid = true → (c.fresh && r.restart) = false → c.out = false →
      c.meas.find? (fun y => y.beat == x.beat - 3) = some y → y.valid = true → y.late = false → y.pv = x.pv → 1 ≤ y.r →
      let e0 := clampI (-32768) 32767 (divRound (((y.r : Int) - y.m) * 32768) y.r)
      let e := if e0.natAbs ≤ r.deadband then 0 else e0
      let u := clampI r.lo r.hi (divRound (r.b0 * e + r.b1 * c.e1 + r.b2 * c.e2 - r.a1 * c.y1 - r.a2 * c.y2) (2 ^ 28))
      let k := if r.slew = 0 then u else clampI (c.y1 - r.slew) (c.y1 + r.slew) u
      ∃ t, exec (.dacUpdate n) s = .next t ∧ (t.dev.mpmCh n).y1 = k ∧ (t.dev.mpmCh n).y2 = c.y1 ∧ (t.dev.mpmCh n).e1 = e ∧
        (t.dev.mpmCh n).e2 = c.e1 ∧ sends t k) ∧
    ((x.blend = 1 ∨ (x.blend = 0 ∧ x.hold = true)) → ∃ t, exec (.dacUpdate n) s = .next t ∧
      ((t.dev.mpmCh n).y1, (t.dev.mpmCh n).y2, (t.dev.mpmCh n).e1, (t.dev.mpmCh n).e2) = (c.y1, c.y2, c.e1, c.e2) ∧ sends t c.y1))

/-! ## Servo engine -/

/-- R24, R259, R260, R265, R266, R267, R268, R279, R280: at a velocity tick, once, the position is trimmed (unless the position tick of the
beat has taken the sample), the error is formed whatever the axis does, and the velocity loop of a live axis makes one step of its 3p3z form
to a new current reference; a late step is reported and leaves loop and reference as they were. In FAULT a condition that persists sets its
cause again. Between ticks nothing happens.
The model's choices in it: log entries 4, 63, 65 and 68.
R24, R265, R267, R269, R274, R275, R280: at a position tick, once, a closed axis makes one step of its position loop to a new velocity
reference with its feed-forward; a waiting one loads its bank, takes its own position for local reference and enters ACQUIRE; one in ACQUIRE
moves the local reference by ACQ_STEP at most towards the piste's, and is CLOSED, with a report, where the two meet. A step that does not
complete in time is reported and leaves a live axis in its state, with loop and reference as they were.
The model's choices in it: log entries 4, 63, 65 and 66. -/
def Obligations.ServoLoops : Prop :=
  ((∀ (s : State) (a : Nat) (code : BitVec 24), s.dev.mainUp = true → a < 48 → s.dev.tmb.run = true → s.dev.beatMultiple 4 = true →
    s.dev.tmb.cycle = 0 → (s.dev.axis a).velAt ≠ s.dev.beatWide →
    let x := s.dev.axis a
    let new := x.sampledAt ≠ s.dev.beatWide
    let p := if new then clampI (-2147483648) 2147483647 (divRound ((signed 24 code.toNat * 256 - s.dev.effS Reg.SRV_AXIS_TRIM_OFFSET a) *
      (s.dev.eff Reg.SRV_AXIS_TRIM_GAIN a : Int)) (2 ^ 30)) else x.pos
    let old := if new then x.pos else x.posOld
    let measured := fun (t : State) => (t.dev.axis a).pos = p ∧ (t.dev.axis a).posOld = old ∧ (t.dev.axis a).st = x.st ∧
      (t.dev.axis a).perr = clampI (-2147483648) 2147483647 (s.dev.loopRef a - p) ∧
      (t.dev.axis a).rangeRun = (if new then if code = 0x7FFFFF ∨ code = 0x800000 then x.rangeRun + 1 else 0 else x.rangeRun) ∧
      ∀ b, b < 48 → b ≠ a → t.dev.axis b = s.dev.axis b
    (x.st = .off → ∃ t, exec (.velocityTick a code false) s = .next t ∧ KeepsS [.srv] false s t ∧ measured t) ∧
    (x.st = .fault → ∃ t, exec (.velocityTick a code false) s = .next t ∧ KeepsS [.w1c, .srv] false s t ∧ measured t ∧
      (s.dev.act Reg.SRV_AXIS_CTL_POS_QUAL a ≤ (t.dev.axis a).rangeRun → bitOf (t.dev.flag Reg.SRV_AXIS_FAULT_CAUSE a) 4 = true)) ∧
    (x.live = true →
      let l := x.vl
      let lim : Int := s.dev.act Reg.SRV_AXIS_CUR_I_MAX a
      let e := clampI (-2147483648) 2147483647 (x.vref - (p - old))
      let sum := l.b0 * e + l.b1 * l.e1 + l.b2 * l.e2 + l.b3 * l.e3 - (l.a1 * l.acc1 + l.a2 * l.acc2 + l.a3 * l.acc3) / 2 ^ 24
      let acc := signed 64 (unsigned 64 sum)
      (∃ t, exec (.velocityTick a code false) s = .next t ∧ KeepsS [.cnt, .merge, .srv, .log] false s t ∧ measured t ∧
        (t.dev.axis a).iref = clampI (-lim) lim (divRound acc (2 ^ 24)) ∧ (t.dev.axis a).irefOld = x.iref ∧
        (t.dev.axis a).vl = { l with e3 := l.e2, e2 := l.e1, e1 := e, acc3 := l.acc2, acc2 := l.acc1, acc1 := acc } ∧
        (sum ≠ acc → t.dev.hasEvent 0x5008 (a + 64) = true) ∧ (t.dev.axis a).pl = x.pl) ∧
      (∃ t, exec (.velocityTick a code true) s = .next t ∧ measured t ∧ (t.dev.axis a).iref = x.iref ∧
        (t.dev.axis a).vl = l ∧ (t.dev.axis a).vref = x.vref ∧ t.dev.hasEvent 0x5009 a = true))) ∧
  (∀ (s : State) (a : Nat) (code : BitVec 24) (late : Bool), s.dev.mainUp = true →
    (s.dev.tmb.run = false ∨ s.dev.beatMultiple 4 = false ∨ s.dev.tmb.cycle ≠ 0 ∨ (s.dev.axis a).velAt = s.dev.beatWide) →
    exec (.velocityTick a code late) s = .next s)) ∧
  ((∀ (s : State) (a : Nat) (code : BitVec 24), s.dev.mainUp = true → a < 48 → s.dev.tmb.run = true → s.dev.beatMultiple 16 = true →
    s.dev.tmb.cycle = 0 → (s.dev.axis a).posAt ≠ s.dev.beatWide →
    let x := s.dev.axis a
    let p := if x.sampledAt = s.dev.beatWide then x.pos else s.dev.axisPos a code.toNat
    let r := (s.dev.holdHead s.mem (a / 3)).headRef a
    (x.st = .closed → x.waiting = false →
      let l := x.pl
      let lim : Int := s.dev.act Reg.SRV_AXIS_LOOP_VREF_MAX a
      let e := clampI (-2147483648) 2147483647 (r - p)
      let sum := l.b0 * e + l.b1 * l.e1 + l.b2 * l.e2 + l.b3 * l.e3 - (l.a1 * l.acc1 + l.a2 * l.acc2 + l.a3 * l.acc3) / 2 ^ 24
      let acc := signed 64 (unsigned 64 sum)
      let ff := divRound (s.dev.act Reg.SRV_AXIS_LOOP_VFF a * (r - x.rPrev)) (4 * 32768)
      ∃ t, exec (.positionTick a code false) s = .next t ∧ (t.dev.axis a).pos = p ∧ (t.dev.axis a).perr = e ∧
        (t.dev.axis a).vref = clampI (-lim) lim (clampI (-lim) lim (divRound acc (2 ^ 24)) + ff) ∧
        (t.dev.axis a).pl = { l with e3 := l.e2, e2 := l.e1, e1 := e, acc3 := l.acc2, acc2 := l.acc1, acc1 := acc } ∧
        (t.dev.axis a).rPrev = r ∧ (t.dev.axis a).st = .closed ∧ (sum ≠ acc → t.dev.hasEvent 0x5008 a = true) ∧
        ∀ b, b < 48 → b ≠ a → t.dev.axis b = s.dev.axis b) ∧
    (x.waiting = true → ∃ t, exec (.positionTick a code false) s = .next t ∧ (t.dev.axis a).st = .acquire ∧
      (t.dev.axis a).waiting = false ∧ (t.dev.axis a).localRef = p ∧ (t.dev.axis a).bank = s.dev.eff Reg.SRV_AXIS_BANK_BANK a ∧
      (t.dev.axis a).acqTicks = 0 ∧ (t.dev.axis a).wraps ≤ 1) ∧
    (x.st = .acquire → x.waiting = false → s.dev.hasRef a = true →
      let step : Int := s.dev.act Reg.SRV_AXIS_LOOP_ACQ_STEP a * 65536
      let loc := x.localRef + clampI (-step) step (r - x.localRef)
      ∃ t, exec (.positionTick a code false) s = .next t ∧ (t.dev.axis a).localRef = loc ∧
        (t.dev.axis a).acqTicks = x.acqTicks + 1 ∧
        (loc = r → (t.dev.axis a).st = .closed ∧ t.dev.hasEvent 0x500A a = true) ∧ (loc ≠ r → (t.dev.axis a).st = .acquire)) ∧
    (x.live = true → ∃ t, exec (.positionTick a code true) s = .next t ∧ (t.dev.axis a).st = x.st ∧ (t.dev.axis a).pl = x.pl ∧
      (t.dev.axis a).vref = x.vref ∧ (t.dev.axis a).iref = x.iref ∧ t.dev.hasEvent 0x5009 a = true)) ∧
  (∀ (s : State) (a : Nat) (code : BitVec 24) (late : Bool), s.dev.mainUp = true →
    (s.dev.tmb.run = false ∨ s.dev.beatMultiple 16 = false ∨ s.dev.tmb.cycle ≠ 0 ∨ (s.dev.axis a).posAt = s.dev.beatWide) →
    exec (.positionTick a code late) s = .next s))

/-- R257, R261, R262, R263, R264, R265, R277: the decision of cycle 76 for the next beat. The comparators hold the sensed current against the
thresholds of the reference that has been loaded (a reference of this beat's tick is loaded in the next); a failed sense input holds some
asserted. A trip faults the axis; both comparators give COAST; within MIN_DWELL the bridge keeps its state; then LO gives FWD, and HI gives
REV, or COAST under slow decay. The bridge takes the state at the next beat edge. An axis that is OFF or FAULT decides nothing, and the two
gates of a half-bridge are never on together.
The model's choices in it: log entries 66 and 68.
R275, R277, R278: each cause faults a live axis with a report once its count is full; its bridge is OFF and EN cleared from the next beat
edge, and its channel learns of cause 7. Before the count is full, nothing happens.
The model's choices in it: log entry 66. -/
def Obligations.ServoFaults : Prop :=
  ((∀ (s : State) (a : Nat) (sensed : BitVec 20) (hiHeld loHeld : Bool) (tripHeld : BitVec 2), s.dev.mainUp = true → a < 48 → s.dev.tmb.run = true →
    s.dev.tmb.cycle = 76 → (s.dev.axis a).live = true → (s.dev.axis a).decAt ≠ s.dev.beatWide →
    let x := s.dev.axis a
    let slow := s.dev.act Reg.SRV_AXIS_CTL_DECAY a = 1
    let i := if x.irefAt = s.dev.beatWide then x.irefOld else x.iref
    let h : Int := s.dev.act Reg.SRV_AXIS_CUR_HYST a
    let trip : Int := s.dev.act Reg.SRV_AXIS_CUR_I_TRIP a
    let dac := fun (v : Int) => 16 * (v / 4 * 4)
    let hi := decide (sensed.toInt > dac ((2 * i + h) / 2)) || hiHeld
    let lo := decide (sensed.toInt < dac ((2 * i - h) / 2)) || loHeld
    let tripHi := decide (sensed.toInt > dac trip) || tripHeld.getLsbD 0
    let tripLo := decide (sensed.toInt < dac (-trip)) || tripHeld.getLsbD 1
    ((tripHi || tripLo) = true → bitOf (s.dev.flag Reg.SRV_AXIS_FAULT_CAUSE a) 1 = false →
      ∃ t, exec (.currentDecision a sensed hiHeld loHeld tripHeld) s = .next t ∧ s.dev.axisFaultsFor t.dev a 1 0x5002 (a + bit tripHi * 64) ∧
        (t.dev.axis a).bridgeNext = some .off) ∧
    ((tripHi || tripLo) = false → ∃ t, exec (.currentDecision a sensed hiHeld loHeld tripHeld) s = .next t ∧ KeepsS [.srv] false s t ∧
      t.dev.axis a = { x with
        bridgeNext := some (if (hi && lo) = true then .coast
          else if x.dwell + 1 < s.dev.act Reg.SRV_AXIS_CTL_MIN_DWELL a then x.bridge
          else if lo = true then (if slow ∧ i < 0 then .coast else .fwd)
          else if hi = true then (if slow ∧ 0 ≤ i then .coast else .rev)
          else x.bridge)
        senseRun := if (hi && lo) = true then x.senseRun + 1 else 0
        stuckRun := if (lo = true ∧ x.bridge = .fwd) ∨ (hi = true ∧ x.bridge = .rev) then x.stuckRun + 1 else 0
        decAt := s.dev.beatWide } ∧
      ∀ b, b < 48 → b ≠ a → t.dev.axis b = s.dev.axis b)) ∧
  (∀ (s : State) (a : Nat) (sensed : BitVec 20) (hiHeld loHeld : Bool) (tripHeld : BitVec 2), s.dev.mainUp = true →
    (s.dev.axis a).live = false ∨ s.dev.tmb.run = false ∨ s.dev.tmb.cycle ≠ 76 ∨ (s.dev.axis a).decAt = s.dev.beatWide →
    exec (.currentDecision a sensed hiHeld loHeld tripHeld) s = .next s) ∧
  (∀ (d : Dev) (a : Nat), a < 48 → (d.axis a).live = true → (d.axis a).faulting = false → d.act Reg.SRV_AXIS_CTL_EN a = 1 →
    let x := d.axis a
    let b := x.bridgeNext.getD x.bridge
    (d.axisEdge a).axis a = { x with bridge := b, bridgeOld := if b = x.bridge then x.bridgeOld else x.bridge, bridgeNext := none,
                                     dwell := if b = x.bridge then min 15 (x.dwell + 1) else 0 }) ∧
  (∀ (d : Dev) (a : Nat), ¬ (bitOf (d.gateLevels a) 0 = true ∧ bitOf (d.gateLevels a) 1 = true) ∧
    ¬ (bitOf (d.gateLevels a) 2 = true ∧ bitOf (d.gateLevels a) 3 = true) ∧ ((d.axis a).live = false → d.gateLevels a = 0))) ∧
  ((∀ (s : State) (a : Nat), s.dev.mainUp = true → a < 48 → (s.dev.axis a).live = true →
    s.dev.flag Reg.SRV_AXIS_FAULT_CAUSE a = 0 →
    let x := s.dev.axis a
    (x.st = .closed → s.dev.act Reg.SRV_AXIS_PERR_PERR_TICKS a ≤ x.perrRun → ∃ t, exec (.perrTicksReached a) s = .next t ∧
      KeepsS [.w1c, .merge, .lsr, .srv, .log] false s t ∧ s.dev.axisFaultsFor t.dev a 0 0x5001 a) ∧
    (s.dev.act Reg.SRV_AXIS_CTL_STUCK_BEATS a ≤ x.stuckRun → ∃ t, exec (.stuckBeatsReached a) s = .next t ∧
      s.dev.axisFaultsFor t.dev a 2 0x5003 a) ∧
    (4 ≤ x.senseRun → ∃ t, exec (.curSenseCountReached a) s = .next t ∧ s.dev.axisFaultsFor t.dev a 3 0x5004 a) ∧
    (s.dev.act Reg.SRV_AXIS_CTL_POS_QUAL a ≤ x.rangeRun → ∃ t, exec (.posQualReached a) s = .next t ∧
      s.dev.axisFaultsFor t.dev a 4 0x5005 a) ∧
    (∀ gates : BitVec 4, gates ≠ 0 → ∃ t, exec (.gateReadbackMismatch a gates) s = .next t ∧
      s.dev.axisFaultsFor t.dev a 5 0x5006 (a + gates.toNat * 64) ∧ (t.dev.axis a).gateBad = gates.toNat) ∧
    (∃ t, exec (.gateReadbackMismatch a 0) s = .next t ∧ KeepsS [.srv] false s t ∧ 
      t.dev.axis a = { x with gateBad := 0, gateWas := s.dev.gateLevels a }) ∧
    (x.st = .acquire → ((s.dev.act Reg.SRV_AXIS_PERR_ACQ_TIMEOUT a ≠ 0 ∧ s.dev.act Reg.SRV_AXIS_PERR_ACQ_TIMEOUT a ≤ x.acqTicks) ∨
      s.dev.hasRef a = false) → ∃ t, exec (.acquireTimeoutExpiry a) s = .next t ∧
        s.dev.axisFaultsFor t.dev a 6 0x5007 (a + bit (!s.dev.hasRef a) * 64)) ∧
    (x.perrRun < s.dev.act Reg.SRV_AXIS_PERR_PERR_TICKS a → exec (.perrTicksReached a) s = .next s) ∧
    (x.stuckRun < s.dev.act Reg.SRV_AXIS_CTL_STUCK_BEATS a → exec (.stuckBeatsReached a) s = .next s) ∧
    (x.senseRun < 4 → exec (.curSenseCountReached a) s = .next s) ∧
    (x.rangeRun < s.dev.act Reg.SRV_AXIS_CTL_POS_QUAL a → exec (.posQualReached a) s = .next s)) ∧
  (∀ (d : Dev) (a : Nat), d.regs.wf = true → a < 48 → (d.axis a).faulting = true → ((d.axisEdge a).axis a).st = .fault ∧
    ((d.axisEdge a).axis a).bridge = .off ∧ (d.axisEdge a).cur Reg.SRV_AXIS_CTL_EN a = 0))

/-- R271, R272, R273: at a position tick with a commit captured, the captured fields of SRV take effect, no other block's do, and every live
axis whose bank is another or reads otherwise swaps to it with a report, or reports that it is not VALID and stays as it was.
The model's choices in it: log entries 65 and 67.
R20, R275, R276, R279: a write of SRV_AXIS_a_CTL that sets EN of an axis whose bank is VALID, or that clears EN of one whose channel is not
active, is stored; one that is refused changes nothing but the block's REFUSED bit. At the next beat edge, which samples EN, an axis that is
OFF begins to wait for its position tick, and a live one whose EN is 0 is OFF with its bridge. Written 1s clear cause bits, and a faulted
axis without bits and conditions goes OFF.
The model's choices in it: log entries 16, 66 and 69. -/
def Obligations.ServoSettings : Prop :=
  ((∀ (s : State), s.dev.mainUp = true → s.dev.crs.srvPending = true → s.dev.tmb.run = true → s.dev.beatMultiple 16 = true →
    s.dev.tmb.cycle = 0 → keysRise s.dev.regs.srvNext = true → (∀ p ∈ s.dev.regs.srvNext, isSrvKey p.1 = true ∧ p.2 < 2 ^ 64) →
    ∃ t, exec .srvCommitEffect s = .next t ∧ KeepsS [.effect, .srvNext, .cnt, .merge, .crs, .srv, .log] false s t ∧
      t.dev.crs.srvPending = false ∧ t.dev.regs.srvNext = [] ∧
      (∀ k v, isSrvKey k = true → Assoc.get t.dev.regs.effect k v = Assoc.get s.dev.regs.srvNext k v) ∧
      (∀ k v, isSrvKey k = false → Assoc.get t.dev.regs.effect k v = Assoc.get s.dev.regs.effect k v) ∧
      ∀ a, a < 48 →
        let x := s.dev.axis a
        let k := t.dev.eff Reg.SRV_AXIS_BANK_BANK a
        let due := x.swapDue = true ∨ x.bank ≠ k ∨ x.loaded ≠ t.dev.bankFields k
        (¬ (x.live = true ∧ due) → t.dev.axis a = x) ∧
        (x.live = true ∧ due → t.dev.bankValid k = true → (t.dev.axis a).bank = k ∧ (t.dev.axis a).loaded = t.dev.bankFields k ∧
          (t.dev.axis a).swapDue = false ∧ (t.dev.axis a).pl.b0 = t.dev.effS Reg.SRV_BANK_POS_B01_B0 k ∧
          (t.dev.axis a).vl.b0 = t.dev.effS Reg.SRV_BANK_VEL_B01_B0 k ∧
          (t.dev.eff Reg.SRV_BANK_CFG_MODE k = 0 → (t.dev.axis a).vl.acc1 = x.vl.acc1 ∧ (t.dev.axis a).vl.e1 = x.vl.e1) ∧
          (t.dev.eff Reg.SRV_BANK_CFG_MODE k = 1 →
            (t.dev.axis a).vl.acc1 = t.dev.effS Reg.SRV_BANK_VEL_PRE_PRE k ∧ (t.dev.axis a).vl.e1 = 0) ∧
          (t.dev.eff Reg.SRV_BANK_CFG_MODE k = 2 → (t.dev.axis a).vl.acc1 = 0 ∧ (t.dev.axis a).vl.e1 = 0) ∧
          t.dev.hasEvent 0x500B ((a + k * 128 + t.dev.eff Reg.SRV_BANK_CFG_MODE k * 4096) % 2 ^ 32) = true) ∧
        (x.live = true ∧ due → t.dev.bankValid k = false → t.dev.axis a = { x with swapDue := true } ∧
          t.dev.hasEvent 0x500C ((a + k * 128) % 2 ^ 32) = true)) ∧
  (∀ (s : State), s.dev.mainUp = true → (s.dev.crs.srvPending = false ∨ s.dev.beatMultiple 16 = false ∨ s.dev.tmb.cycle ≠ 0) →
    exec .srvCommitEffect s = .next s)) ∧
  ((∀ (s : State) (src : Source) (a : Nat) (v : W64), s.dev.mainUp = true → s.dev.regs.wf = true → a < 48 → s.dev.cal.run = none →
    let rangeOk := Reg.SRV_AXIS_CTL_STUCK_BEATS.of v ≠ 0 ∧ Reg.SRV_AXIS_CTL_POS_QUAL.of v ≠ 0 ∧ 4 ≤ Reg.SRV_AXIS_CTL_DEAD.of v ∧
      Reg.SRV_AXIS_CTL_DEAD.of v ≤ 40 ∧ Reg.SRV_AXIS_CTL_MIN_DWELL.of v ≠ 0
    let free := (s.dev.axis a).st = .off ∨ s.dev.changes Reg.SRV_AXIS_CTL [Reg.SRV_AXIS_CTL_EN] v a = false
    let valid := s.dev.bankValid (s.dev.eff Reg.SRV_AXIS_BANK_BANK a)
    let stored := fun (t : State) => KeepsS [.rw, .shadow, .w1c] false s t ∧
      ∀ f ∈ Reg.SRV_AXIS_CTL.fields, f.acc = .rw → t.dev.cur f a = f.of v
    let refused := fun (t : State) => KeepsS [.w1c] false s t ∧ t.dev.flag Reg.SRV_STATUS_REFUSED = 1
    (Reg.SRV_AXIS_CTL_EN.of v = 1 → s.dev.cur Reg.SRV_AXIS_CTL_EN a ≠ 1 →
      (rangeOk → free → (s.dev.axis a).st ≠ .fault → valid = true → s.dev.tmb.run = true →
        ∃ t, exec (.axisEnable src a v) s = .next t ∧ stored t) ∧
      (¬ rangeOk ∨ ¬ free ∨ (s.dev.axis a).st = .fault ∨ valid = false ∨ s.dev.tmb.run = false →
        ∃ t, exec (.axisEnable src a v) s = .next t ∧ refused t)) ∧
    (Reg.SRV_AXIS_CTL_EN.of v = 0 → s.dev.cur Reg.SRV_AXIS_CTL_EN a = 1 →
      (rangeOk → free → (s.dev.chan (a / 3)).active = false → ∃ t, exec (.axisDisable src a v) s = .next t ∧ stored t) ∧
      (¬ rangeOk ∨ ¬ free ∨ (s.dev.chan (a / 3)).active = true → ∃ t, exec (.axisDisable src a v) s = .next t ∧ refused t))) ∧
  (∀ (d : Dev) (a : Nat), a < 48 → (d.axis a).faulting = false →
    (d.act Reg.SRV_AXIS_CTL_EN a = 1 → (d.axis a).st = .off →
      ((d.axisEdge a).axis a).waiting = true ∧ ((d.axisEdge a).axis a).st = .off) ∧
    (d.act Reg.SRV_AXIS_CTL_EN a = 0 → (d.axis a).live = true →
      ((d.axisEdge a).axis a).st = .off ∧ ((d.axisEdge a).axis a).bridge = .off ∧ ((d.axisEdge a).axis a).waiting = false)) ∧
  (∀ (s : State) (src : Source) (a : Nat) (v : W64), s.dev.mainUp = true → s.dev.regs.wf = true → a < 48 →
    ∃ t, exec (.axisFaultClear src a v) s = .next t ∧ KeepsS [.rw, .shadow, .w1c] false s t ∧
      t.dev.flag Reg.SRV_AXIS_FAULT_CAUSE a = s.dev.flag Reg.SRV_AXIS_FAULT_CAUSE a &&& (127 - Reg.SRV_AXIS_FAULT_CAUSE.of v)) ∧
  (∀ (d : Dev) (a : Nat), a < 48 → (d.axis a).st = .fault → d.axisPersist a = 0 → d.flag Reg.SRV_AXIS_FAULT_CAUSE a = 0 →
    ((d.settleAxis a).axis a).st = .off))

/-! ## Cameras -/

/-- R292, R296, R318: a write that enables a port that is OFF is stored and makes it IDLE, one out of range is refused; a write that
disables it makes it OFF: an armed capture completes with CAPTURE_STOPPED, and an open frame is cut and completes it so once it is written.
The model's choices in it: log entries 15, 16 and 69.
R295, R296, R302, R308: Frame Start opens a frame on an armed port, closing an open one with NO_FE first, and is counted as unarmed on
an idle one; Frame End closes the frame, flags it FRAME_SHORT where lines are missing, and completes the capture with its last frame; with
none open it raises SYNC_ERR once. A frame that has run FRAME_TIMEOUT beats closes the same way. A port that is OFF takes nothing.
The model's choices in it: log entry 71. -/
def Obligations.CameraInput : Prop :=
  (∀ (s : State) (src : Source) (c : Nat) (v : W64), s.dev.mainUp = true → s.dev.regs.wf = true → c < 4 →
    (Reg.CAM_PORT_CFG_EN.of v = 1 → (s.dev.cport c).st = .off →
      (camCfgOk v = true → ∃ t, exec (.cameraPortEnable src c v) s = .next t ∧ KeepsS [.rw, .shadow, .w1c, .cam] false s t ∧
        (t.dev.cport c).st = .idle ∧ t.dev.cur Reg.CAM_PORT_CFG_EN c = 1 ∧
        t.dev.cur Reg.CAM_PORT_CFG_DT c = Reg.CAM_PORT_CFG_DT.of v) ∧
      (camCfgOk v = false → ∃ t, exec (.cameraPortEnable src c v) s = .next t ∧ KeepsS [.w1c] false s t ∧
        t.dev.flag Reg.CAM_STATUS_REFUSED = 1)) ∧
    (Reg.CAM_PORT_CFG_EN.of v = 0 → camCfgOk v = true → s.dev.changes Reg.CAM_PORT_CFG [Reg.CAM_PORT_CFG_EN] v c = false →
      ((s.dev.cport c).st = .idle → ∃ t, exec (.cameraPortDisable src c v) s = .next t ∧
        KeepsS [.rw, .shadow, .w1c, .cam] false s t ∧ (t.dev.cport c).st = .off ∧ t.dev.cur Reg.CAM_PORT_CFG_EN c = 0) ∧
      (∀ a, (s.dev.cport c).st = .armed → (s.dev.cport c).arm = some a → ∃ t, exec (.cameraPortDisable src c v) s = .next t ∧
        (t.dev.cport c).st = .off ∧ (t.dev.cport c).arm = none ∧ t.dev.hasDone a 0x7011 = true) ∧
      (∀ a f, (s.dev.cport c).st = .frame → (s.dev.cport c).arm = some a → (s.dev.cport c).frame = some f → bitOf f.flags 5 = false →
        ∃ t g w, exec (.cameraPortDisable src c v) s = .next t ∧ (t.dev.cport c).st = .off ∧ (t.dev.cport c).arm = none ∧
          (t.dev.cport c).frame = none ∧ (t.dev.cport c).closing = (s.dev.cport c).closing ++ [g] ∧ bitOf g.flags 5 = true ∧
          g.done = [(a, 0x7011, w)] ∧ t.dev.hasEvent 0x7006 c = true))) ∧
  ((∀ (s : State) (c no : Nat), s.dev.mainUp = true → s.dev.regs.wf = true → c < 4 →
    let p := s.dev.cport c
    let vc := s.dev.cur Reg.CAM_PORT_CFG_VC c
    (∀ a, p.st = .armed → p.arm = some a → p.frame = none → (a.sched = false ∨ p.seq ≠ 0 ∨ s.dev.beatAhead a.startBeat = false) →
      ∃ t f, exec (.frameStart c vc no .good) s = .next t ∧ KeepsS [.cam] false s t ∧ (t.dev.cport c).st = .frame ∧
        (t.dev.cport c).frame = some f ∧ f.seq = p.seq ∧ f.cap = p.capture ∧ f.arm = a ∧ f.frameNo = no ∧ f.flags = 0 ∧ f.received = 0 ∧ f.rows = [] ∧
        f.width = s.dev.cur Reg.CAM_PORT_GEOM_WIDTH c ∧ f.height = s.dev.cur Reg.CAM_PORT_GEOM_HEIGHT c ∧
        f.black = s.dev.eff Reg.CAM_PORT_LEVEL_BLACK c ∧ f.sof = s.dev.stamp (112 + c)) ∧
    (∀ a f, p.st = .frame → p.arm = some a → p.frame = some f → f.arm = a → a.f 1 63 48 = 0 → a.sched = false → bitOf f.flags 8 = false →
      ∃ t g f', exec (.frameStart c vc no .good) s = .next t ∧ t.dev.hasEvent 0x7009 c = true ∧
        (t.dev.cport c).closing = p.closing ++ [g] ∧ bitOf g.flags 8 = true ∧ g.seq = f.seq ∧ (t.dev.cport c).frame = some f' ∧
        f'.seq = (p.seq + 1) % 2 ^ 32 ∧ f'.frameNo = no) ∧
    (p.st = .idle → p.frame = none → ∃ t, exec (.frameStart c vc no .good) s = .next t ∧ KeepsS [.cnt, .cam] false s t ∧
      (t.dev.cport c).st = .idle ∧ (t.dev.cport c).frame = none ∧
      t.dev.count Reg.CAM_STAT_UNARMED_COUNT = (s.dev.count Reg.CAM_STAT_UNARMED_COUNT + 1) % 2 ^ 64) ∧
    (p.st = .off → ∀ v h, exec (.frameStart c v no h) s = .next s ∧ exec (.frameEnd c v h) s = .next s)) ∧
  (∀ (s : State) (c : Nat), s.dev.mainUp = true → c < 4 → (s.dev.cport c).st ≠ .off →
    let p := s.dev.cport c
    let vc := s.dev.cur Reg.CAM_PORT_CFG_VC c
    (∀ f, p.frame = some f → p.st = .frame →
      ∃ t g, exec (.frameEnd c vc .good) s = .next t ∧ (t.dev.cport c).frame = none ∧ (t.dev.cport c).closing = p.closing ++ [g] ∧
        g.seq = f.seq ∧ g.rows = f.rows ∧ g.close = s.dev.stamp (112 + c) ∧ (t.dev.cport c).closed = p.closed + 1 ∧
        (t.dev.cport c).seq = (p.seq + 1) % 2 ^ 32 ∧ (f.height ≤ f.received → g.flags = f.flags) ∧
        (f.received < f.height → bitOf f.flags 2 = false → bitOf g.flags 2 = true ∧
          t.dev.hasEvent 0x7003 ((c + f.received % 65536 * 65536) % 2 ^ 32) = true) ∧
        (f.arm.f 1 63 48 ≠ 0 ∧ f.arm.f 1 63 48 ≤ p.closed + 1 → (t.dev.cport c).st = .idle ∧ (t.dev.cport c).arm = none ∧
          (f.arm.noDone = false → t.dev.hasDone f.arm 0 = true)) ∧
        (f.arm.f 1 63 48 = 0 ∨ p.closed + 1 < f.arm.f 1 63 48 → (t.dev.cport c).st = .armed ∧ (t.dev.cport c).arm = p.arm)) ∧
    (p.frame = none → p.discard = false → p.syncSaid = false → ∃ t, exec (.frameEnd c vc .good) s = .next t ∧
      t.dev.hasEvent 0x700B c = true ∧ (t.dev.cport c).syncSaid = true ∧ (t.dev.cport c).st = p.st) ∧
    (∀ f, p.frame = some f → p.st = .frame → bitOf f.flags 9 = false →
      let w : Int := s.dev.cur Reg.CAM_PORT_GEOM_FRAME_TIMEOUT c
      (w ≠ 0 ∧ w ≤ s.dev.beatWide - f.since → ∃ t g, exec (.camFrameTimeout c) s = .next t ∧ t.dev.hasEvent 0x700A c = true ∧
        (t.dev.cport c).frame = none ∧ (t.dev.cport c).closing = p.closing ++ [g] ∧ bitOf g.flags 9 = true) ∧
      (w = 0 ∨ s.dev.beatWide - f.since < w → exec (.camFrameTimeout c) s = .next s))))

/-- R293, R294, R295, R299: a long packet of the open frame is a line of WIDTH pixels, aligned to 16 bits, made up with BLACK or cut, and
flagged so; a line beyond HEIGHT and one that finds the buffer full are dropped, and flagged. Packets of another channel or type only
count; a failed CRC still gives a line; a start-of-transmission error is reported.
The model's choices in it: log entry 71.
R297, R301, R302, R305, R306, R367: an engine takes the next line in turn, corrects it and writes it to its place in the slot; with no
defects and a flat shading grid a corrected pixel is the raw one less BLACK. While its writes cannot be issued the line is held, and after
64 beats, or with an uncorrectable working store, it is abandoned: CAM_OVERRUN, and the frame is flagged.
The model's choices in it: log entries 71 and 72. -/
def Obligations.CameraLines : Prop :=
  ((∀ (s : State) (c : Nat) (f : CamFrame) (px : List Nat), s.dev.mainUp = true → s.dev.regs.wf = true → c < 4 →
    (s.dev.cport c).st = .frame → (s.dev.cport c).frame = some f →
    let p := s.dev.cport c
    let vc := s.dev.cur Reg.CAM_PORT_CFG_VC c
    let dt := s.dev.cur Reg.CAM_PORT_CFG_DT c
    (∀ ok : Bool, f.received < f.height → p.buf.length < 8 → ∃ t g, exec (.longPacket c vc dt px ok .good) s = .next t ∧
      KeepsS [.cnt, .merge, .cam, .log] false s t ∧ (t.dev.cport c).frame = some g ∧ g.received = f.received + 1 ∧
      (t.dev.cport c).buf = p.buf ++ [{
        seq := f.seq, cap := f.cap, row := f.received, real := min px.length f.width,
        px := (px.take f.width).map (fun x => x % 2 ^ f.bits * 2 ^ (16 - f.bits)) ++ List.replicate (f.width - px.length) f.black }] ∧
      (px.length < f.width → bitOf f.flags 0 = false → bitOf g.flags 0 = true ∧
        t.dev.hasEvent 0x7001 ((c + px.length % 65536 * 65536) % 2 ^ 32) = true) ∧
      (f.width < px.length → bitOf f.flags 1 = false → bitOf g.flags 1 = true ∧
        t.dev.hasEvent 0x7002 ((c + px.length % 65536 * 65536) % 2 ^ 32) = true) ∧
      (ok = false → bitOf f.flags 6 = false → bitOf g.flags 6 = true ∧ t.dev.hasEvent 0x7007 c = true) ∧
      (ok = true → px.length = f.width → g.flags = f.flags)) ∧
    (f.received < f.height → 8 ≤ p.buf.length → bitOf f.flags 4 = false → ∃ t g, exec (.longPacket c vc dt px true .good) s = .next t ∧
      (t.dev.cport c).buf = p.buf ∧ (t.dev.cport c).frame = some g ∧ bitOf g.flags 4 = true ∧ g.received = f.received + 1 ∧
      t.dev.hasEvent 0x7005 c = true) ∧
    (f.height ≤ f.received → bitOf f.flags 3 = false → ∃ t g, exec (.longPacket c vc dt px true .good) s = .next t ∧
      (t.dev.cport c).buf = p.buf ∧ (t.dev.cport c).frame = some g ∧ bitOf g.flags 3 = true ∧ g.received = f.received + 1 ∧
      t.dev.hasEvent 0x7004 ((c + (f.received + 1) % 65536 * 65536) % 2 ^ 32) = true) ∧
    (∀ v y, v ≠ vc ∨ y ≠ dt → ∃ t, exec (.longPacket c v y px true .good) s = .next t ∧ KeepsS [.cnt] false s t)) ∧
  (∀ (s : State) (c : Nat) (lanes : BitVec 4), s.dev.mainUp = true → c < 4 → (s.dev.cport c).st ≠ .off →
    ∃ t, exec (.dphySotError c lanes) s = .next t ∧ KeepsS [.merge, .log] false s t ∧
      t.dev.hasEvent 0x700C (c + lanes.toNat * 16) = true)) ∧
  ((∀ (s : State) (e c cl k : Nat) (l : CamLine) (rest : List CamLine) (f : CamFrame), s.dev.mainUp = true → e < 2 → c < 4 →
    (s.dev.engine e).held = none → s.dev.nextPort e = some (c, cl, k) → (s.dev.cport c).buf = l :: rest →
    s.dev.frameOf c l = some f →
    (s.dev.canWriteOut f = true → ∃ t g r, exec (.engineLine e .clean) s = .next t ∧ (t.dev.cport c).buf = rest ∧
      (t.dev.engine e).held = none ∧ t.dev.frameOf c l = some g ∧ g.rows = f.rows ++ [r] ∧ r.row = l.row ∧ r.raw = l.px ∧
      r.real = l.real ∧ g.flags = f.flags ∧
      (f.defects = [] → l.px.length = f.width → 2 ≤ f.width → 2 ≤ f.height → l.row < f.height → (∀ i, i < 1089 → f.shading[i]? = some 0x4000) →
        r.val = l.px.map (fun v => min 65535 (v - f.black))) ∧
      (f.toDram = false → f.arm.f 1 39 36 = 1 → s.says t (.hostBytes
        ((f.arm.w 2).toNat + f.seq % max 1 (f.arm.f 1 47 40) * ((2 * f.width * f.height + 64 + 4095) / 4096 * 4096) + l.row * (2 * f.width))
        (l.px.flatMap (fun v => leBytes 2 (v / 2 ^ (16 - f.bits))))))) ∧
    (s.dev.canWriteOut f = false → f.hasOut 0 = true → ∃ t, exec (.engineLine e .clean) s = .next t ∧ (t.dev.cport c).buf = rest ∧
      (t.dev.engine e).held = some (c, l, s.dev.beatWide) ∧ t.dev.frameOf c l = some f) ∧
    (∃ t g, exec (.engineLine e .uncorrectable) s = .next t ∧ t.mem = s.mem ∧ (t.dev.cport c).buf = rest ∧
      t.dev.hasEvent 0x700D e = true ∧ bitOf (t.dev.flag Reg.MGT_OVERRUN_SUMMARY_OVR) 7 = true ∧ t.dev.frameOf c l = some g ∧
      g.rows = f.rows ∧ bitOf g.flags 4 = true ∧ bitOf g.flags 10 = true)) ∧
  (∀ (s : State) (e c : Nat) (l : CamLine) (b0 : Int) (f : CamFrame), s.dev.mainUp = true → e < 2 → c < 4 →
    (s.dev.engine e).held = some (c, l, b0) → s.dev.frameOf c l = some f →
    (64 ≤ s.dev.beatWide - b0 → ∃ t g, exec (.outputHoldTimeout e) s = .next t ∧ (t.dev.engine e).held = none ∧
      t.dev.hasEvent 0x700D e = true ∧ t.dev.frameOf c l = some g ∧ g.rows = f.rows ∧ bitOf g.flags 4 = true ∧
      bitOf g.flags 10 = true) ∧
    (s.dev.beatWide - b0 < 64 → exec (.outputHoldTimeout e) s = .next s) ∧
    (s.dev.canWriteOut f = false → ∀ ecc, exec (.engineLine e ecc) s = .next s)) ∧
  (∀ (s : State) (e : Nat) (ecc : EccRead), s.dev.mainUp = true → (s.dev.engine e).held = none → s.dev.nextPort e = none →
    exec (.engineLine e ecc) s = .next s))

/-- R307, R309, R310, R316: a closed frame all of whose lines are processed is written out with its trailers, its FRAME record is issued,
and then the entries that wait for it complete.
The model's choices in it: log entry 72.
R313, R314, R315, R316: CAP_ARM arms an idle port, and completes with the code of the first check that fails otherwise; CAP_STOP stops
an armed port or cuts its open frame, and finds nothing to stop on any other; TABLE_LOAD replaces a table of a port that neither captures
nor is armed, or changes nothing.
The model's choices in it: log entry 72. -/
def Obligations.CameraOutput : Prop :=
  ((∀ (s : State) (c : Nat) (f : CamFrame) (rest : List CamFrame), s.dev.mainUp = true → c < 4 → (s.dev.cport c).closing = f :: rest →
    (∀ l ∈ (s.dev.cport c).buf, l.ofFrame f = false) →
    (∀ e, e < 2 → ∀ q l b, (s.dev.engine e).held = some (q, l, b) → ¬ (q = c ∧ l.ofFrame f = true)) →
    (f.arm.f 1 39 36 = 0 ∨ s.dev.canWriteOut f = true) →
    let present := if bitOf f.flags 5 then min f.received f.height else f.height
    ∃ t, exec (.frameWriteout c) s = .next t ∧ (t.dev.cport c).closing = rest ∧ (f.toDram = false → t.mem = s.mem) ∧
      (∃ x ∈ t.dev.ev.merge, x.kind = .stat 7 0x7010 ∧
        x.detail = (f.flags * 65536 + f.seq % max 1 (f.arm.f 1 47 40) * 256 + c) % 2 ^ 32 ∧
        x.payload = [pack [(f.seq, 32), (present, 0)], BitVec.ofNat 64 f.sof.time, pack [(f.bid % 2 ^ 48, 16), (f.frameNo % 65536, 0)],
          pack [(unsigned 32 f.ex, 32), (unsigned 32 f.ey, 0)]]) ∧
      (f.arm.f 1 35 35 = 1 → ∃ x ∈ t.dev.ev.merge, x.kind = .stat 7 0x7011 ∧ x.detail = (f.seq % 65536 * 65536 + c) % 2 ^ 32) ∧
      (∀ o, o < 4 → f.hasOut o = true → f.toDram = false → bitOf f.flags 5 = false →
        Out.hostBytes (f.slotAt o + f.outBytes o) (wordBytes (f.trailer c f.height (crc32 (f.allBytes o)))) ∈ t.dev.ev.out) ∧
      (∀ x ∈ f.done, (x.2.1 ≠ 0 ∨ x.1.noDone = false) → t.dev.hasDone x.1 x.2.1 = true)) ∧
  (∀ (s : State) (c : Nat), s.dev.mainUp = true → (s.dev.cport c).closing = [] → exec (.frameWriteout c) s = .next s)) ∧
  ((∀ (s : State) (n : Nat) (e : Entry), s.dev.mainUp = true → s.dev.front n 7 1 = some e → s.dev.isNextPort e = true →
    let c := e.f 1 1 0
    let p := s.dev.cport c
    (p.st = .idle → s.dev.armBad e c = false → ∃ t, exec (.capArm n) s = .next t ∧ KeepsS [.hst, .cam] false s t ∧
      t.dev.cport c = { p with st := .armed, arm := some e, seq := 0, closed := 0, flagged := 0,
                                  capture := p.capture + 1 } ∧
      ∀ k, k < 4 → k ≠ c → t.dev.cport k = s.dev.cport k) ∧
    (p.st = .off → ∃ t, exec (.capArm n) s = .next t ∧ t.dev.hasDone e 0x7013 = true ∧ t.dev.cam = s.dev.cam) ∧
    ((p.st = .armed ∨ p.st = .frame) → ∃ t, exec (.capArm n) s = .next t ∧ t.dev.hasDone e 0x700E = true ∧ t.dev.cam = s.dev.cam) ∧
    (p.st = .idle → s.dev.armBad e c = true → ∃ t, exec (.capArm n) s = .next t ∧ t.dev.hasDone e 0x700F = true ∧
      t.dev.cam = s.dev.cam)) ∧
  (∀ (s : State) (n : Nat) (e : Entry), s.dev.mainUp = true → s.dev.front n 7 2 = some e → s.dev.isNextPort e = true →
    let c := e.f 1 1 0
    let p := s.dev.cport c
    ((e.sched = false ∨ s.dev.beatAhead e.startBeat = false) →
      (∀ a, p.st = .armed → p.arm = some a → ∃ t, exec (.capStop n) s = .next t ∧ (t.dev.cport c).st = .idle ∧
        (t.dev.cport c).arm = none ∧ t.dev.hasDone a 0x7011 = true ∧ (e.noDone = false → t.dev.hasDone e 0 = true)) ∧
      (∀ a f, p.st = .frame → p.arm = some a → p.frame = some f → bitOf f.flags 5 = false → ∃ t g w, exec (.capStop n) s = .next t ∧
        (t.dev.cport c).st = .idle ∧ (t.dev.cport c).arm = none ∧ (t.dev.cport c).frame = none ∧
        (t.dev.cport c).closing = p.closing ++ [g] ∧ bitOf g.flags 5 = true ∧ g.done = [(a, 0x7011, w), (e, 0, 0)] ∧
        t.dev.hasEvent 0x7006 c = true) ∧
      ((p.st = .idle ∨ p.st = .off) → ∃ t, exec (.capStop n) s = .next t ∧ t.dev.hasDone e 0x7012 = true ∧ t.dev.cam = s.dev.cam)) ∧
    (e.sched = true → s.dev.beatAhead e.startBeat = true → exec (.capStop n) s = .next s)) ∧
  (∀ (s : State) (n : Nat) (e : Entry) (rd : HostRead), s.dev.mainUp = true → s.dev.front n 7 3 = some e → s.dev.isNextPort e = true →
    let c := e.f 1 1 0
    let p := s.dev.cport c
    (e.sched = true ∨ e.f 2 2 0 ≠ 0 → ∃ t, exec (.tableLoad n rd) s = .next t ∧ t.dev.hasDone e 0x700F = true ∧ t.dev.cam = s.dev.cam) ∧
    (e.sched = false → e.f 2 2 0 = 0 →
    ((p.st = .armed ∨ p.st = .frame) → ∃ t, exec (.tableLoad n rd) s = .next t ∧ t.dev.hasDone e 0x700E = true ∧ t.dev.cam = s.dev.cam) ∧
    ((p.st = .idle ∨ p.st = .off) → e.f 1 9 8 = 3 → ∃ t, exec (.tableLoad n rd) s = .next t ∧ t.dev.hasDone e 0x7010 = true ∧
      t.dev.cam = s.dev.cam) ∧
    (∀ bs : List Byte, (p.st = .idle ∨ p.st = .off) → s.dev.canRequest = true → e.f 1 9 8 = 2 → e.f 3 31 0 = 1024 → bs.length = 1024 →
      ∃ t, exec (.tableLoad n (.ok bs)) s = .next t ∧ (e.noDone = false → t.dev.hasDone e 0 = true) ∧
        t.dev.cport c = { p with lut := bs.map (·.toNat) } ∧ s.says t (.hostRead (e.w 2).toNat 1024)) ∧
    (∀ bs : List Byte, (p.st = .idle ∨ p.st = .off) → s.dev.canRequest = true → e.f 1 9 8 = 1 → e.f 3 31 0 = 2178 →
      ∃ t, exec (.tableLoad n (.ok bs)) s = .next t ∧ (e.noDone = false → t.dev.hasDone e 0 = true) ∧
        t.dev.cport c = { p with shading := (List.range 1089).map (fun i => leNat ((bs.drop (2 * i)).take 2)) }) ∧
    (∀ bs : List Byte, (p.st = .idle ∨ p.st = .off) → s.dev.canRequest = true → e.f 1 9 8 = 0 → 0 < e.f 3 31 0 → e.f 3 31 0 ≤ 4096 →
      e.f 3 31 0 % 4 = 0 →
      let ds := defectList (e.f 3 31 0) bs
      let good := ascending ds = true ∧ ∀ x ∈ ds, x.1 < s.dev.cur Reg.CAM_PORT_GEOM_HEIGHT c ∧ x.2 < s.dev.cur Reg.CAM_PORT_GEOM_WIDTH c
      (good → ∃ t, exec (.tableLoad n (.ok bs)) s = .next t ∧ (e.noDone = false → t.dev.hasDone e 0 = true) ∧
        t.dev.cport c = { p with defects := ds }) ∧
      (¬ good → ∃ t, exec (.tableLoad n (.ok bs)) s = .next t ∧ t.dev.hasDone e 0x7010 = true ∧ t.dev.cam = s.dev.cam)) ∧
    (∀ got, (p.st = .idle ∨ p.st = .off) → s.dev.canRequest = true → e.f 1 9 8 = 2 → e.f 3 31 0 = 1024 →
      ∃ t, exec (.tableLoad n (.fail got)) s = .next t ∧ t.dev.hasDone e 0x1006 = true ∧ t.dev.cam = s.dev.cam))))

/-! ## Codec and block moves -/

/-- R330, R331, R338: a codec entry that passes its checks joins the queue, unless that is full, when it waits; one that fails completes with
the code of the first failing check, and its input is not read; with the codec disabled it completes CDC_DISABLED.
The model's choices in it: log entries 76 and 78.
R20, R331, R338: the next job starts once none runs and its beat has come, and reads its input. Writes of EN are stored; at the beat edge
that finds it cleared every queued job completes CDC_DISABLED and the running one is left to come to its stop.
The model's choices in it: log entries 77 and 78. -/
def Obligations.CodecQueue : Prop :=
  (∀ (s : State) (n op : Nat) (e : Entry) (ctx : HostRead) (c : Instr), s.dev.mainUp = true →
    ((op = 1 ∧ c = .compress n ctx) ∨ (op = 2 ∧ c = .decompress n ctx)) → s.dev.front n 5 op = some e → s.dev.isNext 5 e = true →
    let on := s.dev.act Reg.CDC_CTL_EN ≠ 0
    (on → s.dev.cdc.queue.length < 8 → codecDescBad e = false → e.f 6 54 54 = 0 → ∃ t, exec c s = .next t ∧
      KeepsS [.hst, .cdc] false s t ∧ t.dev.cdc.job = s.dev.cdc.job ∧ t.dev.cdc.contexts = s.dev.cdc.contexts ∧
      t.dev.cdc.queue = s.dev.cdc.queue ++ [{ entry := e, stream := newStream e }]) ∧
    (on → s.dev.cdc.queue.length < 8 → codecDescBad e = true → ∃ t, exec c s = .next t ∧ t.dev.hasDone e 0x8004 = true ∧
      t.dev.cdc = s.dev.cdc ∧ t.dev.ev.out = s.dev.ev.out) ∧
    (on → s.dev.cdc.queue.length < 8 → codecDescBad e = false → e.f 6 54 54 = 1 → e.f 6 55 55 = 0 → s.dev.canRequest = true →
      (∀ bs, ctx = .ok bs → s.dev.readContext e (bs.take 65536) = none → ∃ t, exec c s = .next t ∧ t.dev.hasDone e 0x8005 = true ∧
        t.dev.cdc = s.dev.cdc) ∧
      (∀ bs x, ctx = .ok bs → s.dev.readContext e (bs.take 65536) = some x → ∃ t, exec c s = .next t ∧
        t.dev.cdc.queue = s.dev.cdc.queue ++ [{ entry := e, stream := x }] ∧ s.says t (.hostRead (e.w 4).toNat 65536)) ∧
      (∀ got, ctx = .fail got → ∃ t, exec c s = .next t ∧ t.dev.hasDone e 0x8010 = true ∧ t.dev.cdc = s.dev.cdc)) ∧
    (on → 8 ≤ s.dev.cdc.queue.length → exec c s = .next s) ∧
    (¬ on → ∃ t, exec c s = .next t ∧ t.dev.hasDone e 0x8003 = true ∧ t.dev.cdc = s.dev.cdc)) ∧
  ((∀ (s : State) (j : CodecJob) (rest : List CodecJob), s.dev.mainUp = true → s.dev.cdc.job = none → s.dev.cdc.queue = j :: rest →
    ((j.entry.sched = false ∨ s.dev.beatAhead j.entry.startBeat = false) → j.entry.f 6 57 57 = 0 → s.dev.canRequest = true →
      j.entry.f 3 63 32 ≠ 0 → ∃ t, exec .codecJobRun s = .next t ∧ KeepsS [.out, .cdc] false s t ∧ t.dev.cdc.job = some j ∧
        t.dev.cdc.queue = rest ∧ s.says t (.hostRead (j.entry.w 1).toNat (j.entry.f 3 63 32))) ∧
    ((j.entry.sched = false ∨ s.dev.beatAhead j.entry.startBeat = false) → j.entry.f 6 57 57 = 1 → ∃ t,
      exec .codecJobRun s = .next t ∧ KeepsS [.cdc] false s t ∧ t.dev.cdc.job = some j ∧ t.dev.cdc.queue = rest) ∧
    (j.entry.sched = true → s.dev.beatAhead j.entry.startBeat = true → exec .codecJobRun s = .next s)) ∧
  (∀ (s : State), s.dev.mainUp = true → (s.dev.cdc.job.isSome = true ∨ s.dev.cdc.queue = []) → exec .codecJobRun s = .next s) ∧
  (∀ (s : State) (src : Source) (v : W64), s.dev.mainUp = true → s.dev.regs.wf = true →
    (Reg.CDC_CTL_EN.of v = 0 → ∃ t, exec (.codecDisable src v) s = .next t ∧
      KeepsS [.rw, .shadow, .w1c] false s t ∧ t.dev.cur Reg.CDC_CTL_EN = 0) ∧
    (Reg.CDC_CTL_EN.of v = 1 → ∃ t, exec (.codecEnable src v) s = .next t ∧ KeepsS [.rw, .shadow, .w1c] false s t ∧
      t.dev.cur Reg.CDC_CTL_EN = 1)) ∧
  (∀ (was : RegFile) (d : Dev), d.turnsOff was Reg.CDC_CTL_EN = true →
    let t := d.codecEdge was
    t.cdc.queue = [] ∧ (∀ j ∈ d.cdc.queue, t.hasDone j.entry 0x8003 = true) ∧
      (∀ j, d.cdc.job = some j → ∃ k, t.cdc.job = some { j with stop := some k }) ∧ (d.cdc.job = none → t.cdc.job = none)))

/-- R324, R325, R326, R328, R332, R336: a COMPRESS job over up to 65,535 bytes of host memory that ends its bare stream completes with
success, no longer than the stored form, and reports one segment, the bytes consumed and written, and the check values; a DECOMPRESS job over
a bare stream of one stored block writes out the bytes that the block holds.
The model's choices in it: log entries 74 and 75. -/
def Obligations.CodecJobs : Prop :=
  (∀ (s : State) (j : CodecJob) (src : List Byte), s.dev.mainUp = true → s.dev.cdc.job = some j → j.stop = none →
    let e := j.entry
    e.opcode = 1 → j.stream = newStream e → s.dev.canRequest = true → e.noDone = false → e.w 4 = 0 → e.f 6 59 58 = 0 → e.f 6 57 56 = 0 →
    e.f 6 53 53 = 1 → src.length = e.f 3 63 32 → src.length ≤ 65535 → src.length + 5 ≤ e.f 3 31 0 →
    ∃ t bs, exec (.codecJobDone (.ok src) none) s = .next t ∧ t.mem = s.mem ∧ t.dev.cdc.job = none ∧
      s.says t (.hostBytes (e.w 2).toNat bs) ∧ bs.length ≤ src.length + 5 ∧
      ∃ x ∈ t.dev.ev.merge, x.kind = .done e.ring e.idx e.tag ∧ x.code = 0 ∧ x.detail = 1 ∧
        x.payload = [pack [(src.length, 32), (bs.length, 0)], pack [(crc32 src, 32), (adlerOn 1 src, 0)],
          BitVec.ofNat 64 src.length, 0]) ∧
  (∀ (s : State) (j : CodecJob) (data : List Byte), s.dev.mainUp = true → s.dev.cdc.job = some j → j.stop = none →
    let e := j.entry
    let src := (1 : Byte) :: (leBytes 2 data.length ++ leBytes 2 (65535 - data.length) ++ data)
    e.opcode = 2 → j.stream = newStream e → s.dev.canRequest = true → e.noDone = false → e.w 4 = 0 → e.f 6 59 58 = 0 → e.f 6 57 56 = 0 →
    e.f 6 51 51 = 0 → data ≠ [] → data.length ≤ 65535 → e.f 3 63 32 = src.length → data.length ≤ e.f 3 31 0 →
    ∃ t, exec (.codecJobDone (.ok src) none) s = .next t ∧ t.mem = s.mem ∧ t.dev.cdc.job = none ∧
      s.says t (.hostBytes (e.w 2).toNat data) ∧
      ∃ x ∈ t.dev.ev.merge, x.kind = .done e.ring e.idx e.tag ∧ x.code = 0 ∧ x.detail = 1 ∧
        x.payload = [pack [(src.length, 32), (data.length, 0)], pack [(crc32 data, 32), (adlerOn 1 data, 0)],
          BitVec.ofNat 64 data.length, 0]) ∧
  (∀ (s : State) (rd : HostRead) (b : Option Nat), s.dev.mainUp = true → s.dev.cdc.job = none → exec (.codecJobDone rd b) s = .next s)

/-- R343, R344, R349: a MOVE that passes the checks of R349 joins the queue of its channel, unless that is full, when it waits; one that
fails completes with the number of its first failing check, or DMA_OFF where its channel is off, and moves nothing. An idle channel takes
the first entry of its queue.
The model's choices in it: log entry 81.
R351, R353, R354: on its first bus error a MOVE ends BAD, with a report and the elements done before, and no byte outside the burst's
destination changes; a read-back that completes ends its MOVE with success.
The model's choices in it: log entries 80 and 124. -/
def Obligations.Moves : Prop :=
  ((∀ (s : State) (n : Nat) (e : Entry) (rest : List Entry), s.dev.mainUp = true → n < 64 → s.dev.movesOf n = e :: rest → e.ring = n →
    (∀ m, m < 64 → ∀ x ∈ s.dev.movesOf m, e.seq ≤ x.seq) → s.dev.island 576 ≠ 2 →
    let c := moveChan e
    let on := s.dev.act Reg.DMA_CHAN_CFG_EN c = 1
    (on → moveCheck e = 0 → (s.dev.mover c).queue.length < 4 → ∃ t, exec (.dmaMove n) s = .next t ∧ KeepsS [.hst, .dma] false s t ∧
      t.dev.mover c = { s.dev.mover c with queue := (s.dev.mover c).queue ++ [e] } ∧
      (∀ k, k < 32 → k ≠ c → t.dev.mover k = s.dev.mover k) ∧ e ∉ (t.dev.ring n).inQ) ∧
    (on → moveCheck e = 0 → 4 ≤ (s.dev.mover c).queue.length → exec (.dmaMove n) s = .next s) ∧
    ((on ∨ moveCheck e = 1) → moveCheck e ≠ 0 → ∃ t, exec (.dmaMove n) s = .next t ∧ t.mem = s.mem ∧ t.dev.dma = s.dev.dma ∧
      ∃ x ∈ t.dev.ev.merge, x.kind = .done e.ring e.idx e.tag ∧ x.code = 0x9004 ∧ x.detail = c + 256 * moveCheck e) ∧
    (¬ on → moveCheck e ≠ 1 → ∃ t, exec (.dmaMove n) s = .next t ∧ t.mem = s.mem ∧ t.dev.dma = s.dev.dma ∧
      t.dev.hasDone e 0x9005 = true)) ∧
  (∀ (s : State) (c : Nat) (e : Entry) (rest : List Entry), s.dev.mainUp = true → c < 32 → (s.dev.mover c).run = none →
    (s.dev.mover c).queue = e :: rest → moveCount e ≠ 0 →
    let ready := s.dev.act Reg.DMA_CHAN_CFG_EN c = 1 ∧ (e.sched = false ∨ s.dev.beatAhead e.startBeat = false)
    (ready → moveSrc e ≠ 0 → ∃ t, exec (.dmaEntryStart c) s = .next t ∧ KeepsS [.dma] false s t ∧
      t.dev.mover c = { run := some { entry := e }, queue := rest, done := 0, count := moveCount e }) ∧
    (ready → moveSrc e = 0 → moveMode e = 0 → s.dev.canRequest = true → ∃ t, exec (.dmaEntryStart c) s = .next t ∧
      t.dev.mover c = { run := some { entry := e }, queue := rest, done := 0, count := moveCount e } ∧
      s.says t (.hostRead (e.w 1).toNat (min (moveCount e) (4096 / moveSize e) * moveSize e))) ∧
    (¬ ready ∨ (moveSrc e = 0 ∧ s.dev.canRequest = false) → exec (.dmaEntryStart c) s = .next s)) ∧
  (∀ (s : State) (c : Nat), s.dev.mainUp = true → ((s.dev.mover c).run.isSome = true ∨ (s.dev.mover c).queue = []) →
    exec (.dmaEntryStart c) s = .next s)) ∧
  ((∀ (s : State) (c : Nat) (r : DmaRun) (addr : W64) (w : Bool), s.dev.mainUp = true → c < 32 → (s.dev.mover c).run = some r →
    r.abort = none → r.flush = none →
    ∃ t, exec (.dmaBusError c addr w) s = .next t ∧ (t.dev.mover c).run = none ∧ (t.dev.mover c).queue = (s.dev.mover c).queue ∧
      t.dev.hasEvent 0x9001 c = true ∧
      (∃ x ∈ t.dev.ev.merge, x.kind = .done r.entry.ring r.entry.idx r.entry.tag ∧ x.code = 0x9001 ∧
        x.payload.head? = some (pack [(r.done, 32), (moveCount r.entry - r.done, 0)])) ∧
      ((moveDst r.entry = 0 ∨ r.readBack = true) → t.mem = s.mem) ∧
      (moveDst r.entry = 2 → t.mem.dram = s.mem.dram ∧
        ∀ p, (∀ q ∈ moveWrites r.entry r.done (burstLen r.entry r.done), p < q.1 ∨ q.1 + q.2 ≤ p) →
          byteAt t.mem.sram p = byteAt s.mem.sram p)) ∧
  (∀ (s : State) (c : Nat) (addr : W64) (w : Bool), s.dev.mainUp = true → (s.dev.mover c).run = none →
    exec (.dmaBusError c addr w) s = .next s) ∧
  (∀ (s : State) (c : Nat) (r : DmaRun), s.dev.mainUp = true → c < 32 → (s.dev.mover c).run = some r →
    (r.readBack = true → r.abort = none → r.flush = none → r.entry.noDone = false → ∃ t, exec (.readBackComplete c) s = .next t ∧
      KeepsS [.cnt, .merge, .hst, .dma, .log] false s t ∧ (t.dev.mover c).run = none ∧ t.dev.hasDone r.entry 0 = true) ∧
    (r.readBack = false → exec (.readBackComplete c) s = .next s)))

/-- R348, R350, R352: a MOVE within the SRAM whose whole work is one burst lands every byte, bit or element where its mode says, changes no
other byte, and completes with success, every element done.
The model's choices in it: log entry 81.
R20, R355, R357: an abort of a channel that runs nothing completes NOT_RUNNING; of a running MOVE it ends it DMA_ABORTED before itself, at once
or after the 4 bursts at most that are being written; FLUSH completes the channel's queue. A write that clears EN is stored; at the beat edge that
finds it cleared the channel aborts its running MOVE and completes its queue DMA_DISABLED.
The model's choices in it: log entries 79, 81 and 124. -/
def Obligations.MoveBursts : Prop :=
  (∀ (s : State) (c : Nat) (e : Entry) (rd : List Byte), s.dev.mainUp = true → s.mem.wf = true → c < 32 →
    (s.dev.mover c).run = some { entry := e } → e.noDone = false → moveSrc e = 2 → moveDst e = 2 → moveCheck e = 0 → 1 ≤ moveCount e →
    (if moveMode e = 0 then moveCount e ≤ 4096 / moveSize e else moveCount e ≤ 512) →
    s.mem.poisonIn (moveReads e 0 (moveCount e)) = none →
    let a := (e.w 1).toNat
    let b := (e.w 2).toNat
    let z := moveSize e
    let n := moveCount e
    let streams := moveStreams e
    ∃ t, exec (.dmaBurstWritten c rd) s = .next t ∧ (t.dev.mover c).run = none ∧ t.mem.dram = s.mem.dram ∧ t.mem.wf = true ∧
      (∃ x ∈ t.dev.ev.merge, x.kind = .done e.ring e.idx e.tag ∧ x.code = 0 ∧ x.detail = c ∧
        x.payload.head? = some (pack [(n, 32), (0, 0)])) ∧
      (∀ p, (∀ r ∈ moveWrites e 0 n, p < r.1 ∨ r.1 + r.2 ≤ p) → byteAt t.mem.sram p = byteAt s.mem.sram p) ∧
      (moveMode e = 0 → ∀ i, i < n * z → byteAt t.mem.sram (b + i) = byteAt s.mem.sram (a + i)) ∧
      (moveMode e = 1 → ∀ k i, k < movePlanes e → i < n →
        bitOf (byteAt t.mem.sram (b + k * moveStride e + i / 8)).toNat (i % 8) =
          bitOf (leNat (readBytes s.mem.sram (a + i * z) z)) (moveFirstBit e + k)) ∧
      (moveMode e = 2 → ∀ i q, i < n → q < 8 * z →
        bitOf (leNat (readBytes t.mem.sram (b + i * z) z)) q =
          (decide (moveFirstBit e ≤ q ∧ q < moveFirstBit e + movePlanes e) &&
            bitOf (byteAt s.mem.sram (a + (q - moveFirstBit e) * moveStride e + i / 8)).toNat (i % 8))) ∧
      (moveMode e = 3 → ∀ j k q, j < n → k < streams → q < z →
        byteAt t.mem.sram (b + (j * streams + k) * z + q) = byteAt s.mem.sram (a + k * moveStride e + j * z + q)) ∧
      (moveMode e = 4 → ∀ j k q, j < n → k < streams → q < z →
        byteAt t.mem.sram (b + k * moveStride e + j * z + q) = byteAt s.mem.sram (a + (j * streams + k) * z + q))) ∧
  ((∀ (s : State) (n : Nat) (e : Entry), s.dev.mainUp = true → n < 64 →
    (s.dev.ring n).inQ.find? (fun e => e.cls == 6 && e.opcode == 2 && !(e.sched && s.dev.beatAhead e.startBeat)) = some e →
    s.dev.island 576 ≠ 2 →
    let c := e.f 1 4 0
    ((s.dev.mover c).run = none → ∃ t, exec (.dmaAbort n) s = .next t ∧ t.dev.hasDone e 0x9007 = true ∧
      (e.f 1 8 8 = 1 → (t.dev.mover c).queue = [] ∧ ∀ x ∈ (s.dev.mover c).queue, t.dev.hasDone x 0x9006 = true) ∧
      (e.f 1 8 8 = 0 → (t.dev.mover c).queue = (s.dev.mover c).queue)) ∧
    (∀ r, (s.dev.mover c).run = some r → r.readBack = false → r.aborting = none →
      ∃ t, exec (.dmaAbort n) s = .next t ∧
        (((t.dev.mover c).run = none ∧ t.dev.hasDone r.entry 0x9002 = true ∧ (e.noDone = false → t.dev.hasDone e 0 = true)) ∨
          ∃ k, 1 ≤ k ∧ k ≤ 4 ∧ (t.dev.mover c).run = some { r with
            abort := some e, flush := if e.f 1 8 8 = 1 then some 0x9006 else none, aborting := some k }))) ∧
  (∀ (s : State) (src : Source) (c : Nat) (v : W64), s.dev.mainUp = true → s.dev.regs.wf = true → c < 32 →
    s.dev.cur Reg.DMA_CHAN_CFG_EN c = 1 → Reg.DMA_CHAN_CFG_EN.of v = 0 →
    (1 ≤ Reg.DMA_CHAN_CFG_WEIGHT.of v ∧ Reg.DMA_CHAN_CFG_WEIGHT.of v ≤ 8 → ∃ t, exec (.dmaChannelDisable src c v) s = .next t ∧
      KeepsS [.rw, .shadow, .w1c] false s t ∧ t.dev.cur Reg.DMA_CHAN_CFG_EN c = 0) ∧
    (Reg.DMA_CHAN_CFG_WEIGHT.of v < 1 ∨ 8 < Reg.DMA_CHAN_CFG_WEIGHT.of v → ∃ t, exec (.dmaChannelDisable src c v) s = .next t ∧
      KeepsS [.w1c] false s t ∧ t.dev.flag Reg.DMA_CHAN_STATUS_REFUSED c = 1)) ∧
  (∀ (was : RegFile) (d : Dev) (c : Nat), c < 32 → d.turnsOff was Reg.DMA_CHAN_CFG_EN c = true →
    let t := d.moverEdge was c
    (t.mover c).queue = [] ∧ (∀ x ∈ (d.mover c).queue, t.hasDone x 0x9003 = true) ∧
      (∀ k, k < 32 → k ≠ c → t.mover k = d.mover k) ∧ ((d.mover c).run = none → (t.mover c).run = none) ∧
      ∀ r, (d.mover c).run = some r → r.readBack = false → r.aborting = none →
        ((t.mover c).run = none ∧ t.hasDone r.entry 0x9002 = true) ∨
          ∃ k, 1 ≤ k ∧ k ≤ 4 ∧ (t.mover c).run = some { r with aborting := some k }))

/-- R20, R375, R376: writes of MEM_DDR_c_CFG that set EN with a legal configuration, or clear it while no unit uses the channel, are stored;
others are refused. At the beat edge that samples EN a channel begins INIT, or goes out of service and keeps its contents. At the end of INIT
the channel is UP, or DOWN with a report of the first failing rank and lane.
The model's choices in it: log entries 82 and 84.
R378, R379, R382: a refresh due while requests wait is postponed, four times at most, and otherwise clears what was postponed; MR4 says
whether the interval halves; a requester that reaches ACT_LIMIT on a bank is throttled there to the end of the window, which is reported
once for it in the window; at a window's end nothing is throttled and the ROW values in force are those written.
The model's choices in it: log entries 83 and 122. -/
def Obligations.DramControl : Prop :=
  ((∀ (s : State) (src : Source) (c : Nat) (v : W64), s.dev.mainUp = true → s.dev.regs.wf = true → c < 2 →
    (s.dev.cur Reg.MEM_DDR_CFG_EN c = 0 → Reg.MEM_DDR_CFG_EN.of v = 1 →
      (ddrCfgOk v = true → ∃ t, exec (.ddrEnable src c v) s = .next t ∧ KeepsS [.rw, .shadow, .w1c] false s t ∧
        ∀ f ∈ Reg.MEM_DDR_CFG.fields, f.acc = .rw → t.dev.cur f c = f.of v) ∧
      (ddrCfgOk v = false → ∃ t, exec (.ddrEnable src c v) s = .next t ∧ KeepsS [.w1c] false s t ∧
        t.dev.flag Reg.MEM_STATUS_REFUSED = 1)) ∧
    (s.dev.cur Reg.MEM_DDR_CFG_EN c = 1 → Reg.MEM_DDR_CFG_EN.of v = 0 →
      (s.dev.changes Reg.MEM_DDR_CFG [Reg.MEM_DDR_CFG_EN] v c = false → s.dev.ddrInUse c = false →
        ∃ t, exec (.ddrDisable src c v) s = .next t ∧ KeepsS [.rw, .shadow, .w1c] false s t ∧
        t.dev.cur Reg.MEM_DDR_CFG_EN c = 0) ∧
      (s.dev.changes Reg.MEM_DDR_CFG [Reg.MEM_DDR_CFG_EN] v c = true ∨ s.dev.ddrInUse c = true →
        ∃ t, exec (.ddrDisable src c v) s = .next t ∧ KeepsS [.w1c] false s t ∧ t.dev.flag Reg.MEM_STATUS_REFUSED = 1))) ∧
  (∀ (d : Dev) (c : Nat), c < 2 →
    let t := d.ddrEdge c
    (∀ k, k < 2 → k ≠ c → t.ddr k = d.ddr k) ∧
    (d.act Reg.MEM_DDR_CFG_EN c = 1 → t.ddr c = if (d.ddr c).st = .off then { d.ddr c with st := .init } else d.ddr c) ∧
    (d.act Reg.MEM_DDR_CFG_EN c = 0 → (t.ddr c).st = .off ∧ ((d.ddr c).st = .up → (t.ddr c).kept = true) ∧ t.ddrSize c = 0 ∧
      ((d.ddr c).st ≠ .off → (t.ddr c).throttled = []))) ∧
  (∀ (s : State) (c : Nat), s.dev.mainUp = true → c < 2 → (s.dev.ddr c).st = .init →
    (∃ t, exec (.ddrInitDone c none) s = .next t ∧ t.mem.sram = s.mem.sram ∧ t.mem.poisoned = s.mem.poisoned ∧
      (t.dev.ddr c).st = .up ∧ t.dev.ev.merge = s.dev.ev.merge) ∧
    (∀ r l, r < 2 → l < 5 → ∃ t, exec (.ddrInitDone c (some (r, l))) s = .next t ∧ t.mem.sram = s.mem.sram ∧
      (t.dev.ddr c).st = .down ∧ t.dev.hasEvent 0xA005 (c + 2 * r + 4 * l) = true)) ∧
  (∀ (s : State) (c : Nat) (b : Option (Nat × Nat)), s.dev.mainUp = true → (s.dev.ddr c).st ≠ .init →
    exec (.ddrInitDone c b) s = .next s)) ∧
  ((∀ (s : State) (c : Nat), s.dev.mainUp = true → c < 2 → (s.dev.ddr c).st = .up →
    (∀ (k : Nat) (w : Bool), k < 2 → k ≤ s.dev.cur Reg.MEM_DDR_CFG_RANKS c → ∃ t, exec (.ddrRefresh c k w) s = .next t ∧
      KeepsS [.memc] false s t ∧ at' (t.dev.ddr c).postponed k =
        (if w = true ∧ at' (s.dev.ddr c).postponed k < 4 then at' (s.dev.ddr c).postponed k + 1 else 0) ∧
      ∀ j, j < 2 → j ≠ k → at' (t.dev.ddr c).postponed j = at' (s.dev.ddr c).postponed j) ∧
    (∀ b : Bool, ∃ t, exec (.ddrMr4Poll c b) s = .next t ∧ KeepsS [.memc] false s t ∧
      t.dev.ddr c = { s.dev.ddr c with doubled := b }) ∧
    (∀ bank req, at' s.dev.memc.actLimit c ≠ 0 → req < 6 → bank < 256 → (bank, req) ∉ (s.dev.ddr c).throttled →
      ∃ t, exec (.actLimitReached c bank req) s = .next t ∧ (t.dev.ddr c).throttled = (bank, req) :: (s.dev.ddr c).throttled ∧
        ((∀ k, k < 2 → req ∉ (s.dev.ddr k).reported) → t.dev.hasEvent 0xA006 (c + 256 * bank) = true ∧
          req ∈ (t.dev.ddr c).reported) ∧
        ((∃ k, k < 2 ∧ req ∈ (s.dev.ddr k).reported) → t.dev.ev = s.dev.ev))) ∧
  (∀ (s : State) (c bank req : Nat), s.dev.mainUp = true →
    ((s.dev.ddr c).st ≠ .up ∨ at' s.dev.memc.actLimit c = 0 ∨ (bank, req) ∈ (s.dev.ddr c).throttled) →
    exec (.actLimitReached c bank req) s = .next s) ∧
  (∀ (s : State), s.dev.mainUp = true → s.dev.beatWide / 640000 ≠ s.dev.memc.window → ∃ t, exec .rowWindowEnd s = .next t ∧
    KeepsS [.cnt, .freeCount, .memc] false s t ∧ t.dev.memc.window = s.dev.beatWide / 640000 ∧ ∀ c, c < 2 → (t.dev.ddr c).throttled = [] ∧ (t.dev.ddr c).reported = [] ∧
      (t.dev.ddr c).st = (s.dev.ddr c).st ∧ at' t.dev.memc.actLimit c = s.dev.cur Reg.MEM_DDR_ROW_ACT_LIMIT c ∧
      at' t.dev.memc.gap c = s.dev.cur Reg.MEM_DDR_ROW_THROTTLE_GAP c) ∧
  (∀ (s : State), s.dev.mainUp = true → s.dev.beatWide / 640000 = s.dev.memc.window → exec .rowWindowEnd s = .next s))

/-! ## Lanes and Beat Link -/

/-- R389, R390, R391, R392: a write that makes PATTERN or LOOP of an idle lane non-zero starts a test there, its counters at 0, where R392
allows one, and is refused elsewhere; the checker locks, counts while it is locked, saturating at 48 bits, and loses its lock beyond 1,024
errors; INJECT inverts one bit more; a write that clears both ends the test. No other lane changes.
The model's choices in it: log entry 89.
R20, R424, R426: the link of an enabled Ethernet port comes up and goes down, each reported once; of a disabled port none comes up, and the
link of a port goes at the beat edge that finds EN cleared.
The model's choices in it: log entry 119. -/
def Obligations.LanesAndEthernet : Prop :=
  ((∀ (s : State) (src : Source) (l : Nat) (v : W64), s.dev.mainUp = true → s.dev.regs.wf = true → l < 32 →
    let on := Reg.LNK_LANE_TEST_PATTERN.of v ≠ 0 ∨ Reg.LNK_LANE_TEST_LOOP.of v ≠ 0
    let ok := Reg.LNK_LANE_TEST_PATTERN.of v ≤ 4 ∧ Reg.LNK_LANE_TEST_RATE.of v ≤ 8
    let x := s.dev.lane l
    (on → ok → s.dev.testing l = false → s.dev.testAllowed src l = true → ∃ t, exec (.laneTestStart src l v) s = .next t ∧
      KeepsS [.rw, .shadow, .w1c, .lnk] false s t ∧ t.dev.testing l = true ∧
      t.dev.cur Reg.LNK_LANE_TEST_PATTERN l = Reg.LNK_LANE_TEST_PATTERN.of v ∧
      t.dev.lane l = { x with chk := false, errors := 0, bits := 0, injected := Reg.LNK_LANE_TEST_INJECT.of v } ∧
      ∀ m, m < 32 → m ≠ l → t.dev.lane m = s.dev.lane m ∧ t.dev.testing m = s.dev.testing m) ∧
    (on → s.dev.testing l = false → (¬ ok ∨ s.dev.testAllowed src l = false) → ∃ t, exec (.laneTestStart src l v) s = .next t ∧
      KeepsS [.w1c] false s t ∧ t.dev.flag Reg.LNK_STATUS_REFUSED = 1) ∧
    (on → ok → s.dev.testing l = true → Reg.LNK_LANE_TEST_INJECT.of v = 1 → ∃ t, exec (.laneInject src l v) s = .next t ∧
      KeepsS [.rw, .shadow, .w1c, .lnk] false s t ∧ t.dev.lane l = { x with injected := x.injected + 1 }) ∧
    (Reg.LNK_LANE_TEST_INJECT.of v = 0 → exec (.laneInject src l v) s = .next s) ∧
    (∀ bits errs : Nat,
      (¬ on → ok → s.dev.testing l = true → ∃ t, exec (.laneTestStop src l v bits errs) s = .next t ∧
        KeepsS [.rw, .shadow, .w1c, .lnk] false s t ∧ t.dev.testing l = false ∧ (t.dev.lane l).chk = false ∧
        (x.chk = true → (t.dev.lane l).bits = min (x.bits + bits) (2 ^ 48 - 1) ∧
          (t.dev.lane l).errors = min (x.errors + errs) (2 ^ 48 - 1)) ∧
        (x.chk = false → t.dev.lane l = x)) ∧
      (s.dev.testing l = true → 1024 < errs → x.chk = true → ∃ t, exec (.checkerLockLoss l bits errs) s = .next t ∧
        KeepsS [.lnk] false s t ∧ t.dev.lane l = { x with chk := false, bits := min (x.bits + bits) (2 ^ 48 - 1),
                                                             errors := min (x.errors + errs) (2 ^ 48 - 1) }) ∧
      (errs ≤ 1024 → exec (.checkerLockLoss l bits errs) s = .next s)) ∧
    (s.dev.testing l = true → ∃ t, exec (.checkerLock l) s = .next t ∧ KeepsS [.lnk] false s t ∧
      t.dev.lane l = { x with chk := true, cdr := true }) ∧
    (s.dev.testing l = false → exec (.checkerLock l) s = .next s))) ∧
  ((∀ (s : State) (e : Nat), s.dev.mainUp = true → e < 2 →
    (s.dev.act Reg.LNK_ETH_CFG_EN e = 1 → at' s.dev.lnk.ethUp e = false → ∃ t, exec (.ethLinkRise e) s = .next t ∧
      KeepsS [.merge, .lnk, .log] false s t ∧ at' t.dev.lnk.ethUp e = true ∧ t.dev.hasEvent 0xB00F e = true ∧
      at' t.dev.lnk.ethUp (1 - e) = at' s.dev.lnk.ethUp (1 - e)) ∧
    ((s.dev.act Reg.LNK_ETH_CFG_EN e ≠ 1 ∨ at' s.dev.lnk.ethUp e = true) → exec (.ethLinkRise e) s = .next s) ∧
    (at' s.dev.lnk.ethUp e = true → ∃ t, exec (.ethLinkFall e) s = .next t ∧ KeepsS [.merge, .lnk, .log] false s t ∧
      at' t.dev.lnk.ethUp e = false ∧ t.dev.hasEvent 0xB010 e = true ∧
      at' t.dev.lnk.ethUp (1 - e) = at' s.dev.lnk.ethUp (1 - e)) ∧
    (at' s.dev.lnk.ethUp e = false → exec (.ethLinkFall e) s = .next s)) ∧
  (∀ (d : Dev) (e : Nat), e < 2 →
    (d.act Reg.LNK_ETH_CFG_EN e = 1 → d.ethEdge e = d) ∧
    (d.act Reg.LNK_ETH_CFG_EN e ≠ 1 → at' (d.ethEdge e).lnk.ethUp e = false ∧
      (at' d.lnk.ethUp e = true → (d.ethEdge e).hasEvent 0xB010 e = true))))

/-- R20, R404: a write that sets EN of a port that is OFF is stored, unless RETRY_MAX is 0, a lane of it is under test, or the extended port is
not there; so is one that clears EN. At the beat edge that samples EN a port begins its training, or goes OFF from any state. Block lock leads
from TRAINING to ALIGNING, and the alignment to HELLO, each with its limit of time; in HELLO and ISOLATED the port says HELLO at its period.
The model's choices in it: log entry 85.
R404, R405, R406: a peer's HELLO of the own domain and another number brings the port UP with its credits at 0; one of another domain
or of the own number isolates it; each is reported. The loss of block lock, or 64 block errors in 1 ms, takes an UP port back to TRAINING
with BL_DOWN; fewer errors are counted alone. A block that is no HELLO changes nothing.
The model's choices in it: log entries 85 and 119. -/
def Obligations.BeatLinkPorts : Prop :=
  ((∀ (s : State) (src : Source) (p : Nat) (v : W64), s.dev.mainUp = true → s.dev.regs.wf = true → p < 10 →
    (Reg.LNK_BL_CFG_EN.of v = 1 → (s.dev.bl p).st = .off →
      (Reg.LNK_BL_CFG_RETRY_MAX.of v ≠ 0 → (p < 8 ∨ s.dev.cur Reg.LNK_DEV_EXT_PORTS ≠ 0) → (blLanes p).any s.dev.testing = false →
        s.dev.skewRuns p = false → ∃ t, exec (.blPortEnable src p v) s = .next t ∧ KeepsS [.rw, .shadow, .w1c] false s t ∧
          ∀ f ∈ Reg.LNK_BL_CFG.fields, f.acc = .rw → t.dev.cur f p = f.of v) ∧
      ((Reg.LNK_BL_CFG_RETRY_MAX.of v = 0 ∨ (8 ≤ p ∧ s.dev.cur Reg.LNK_DEV_EXT_PORTS = 0) ∨ (blLanes p).any s.dev.testing = true) →
        ∃ t, exec (.blPortEnable src p v) s = .next t ∧ KeepsS [.w1c] false s t ∧ t.dev.flag Reg.LNK_STATUS_REFUSED = 1)) ∧
    (Reg.LNK_BL_CFG_EN.of v = 0 → Reg.LNK_BL_CFG_RETRY_MAX.of v ≠ 0 →
      ((s.dev.bl p).st = .off ∨ s.dev.changes Reg.LNK_BL_CFG [Reg.LNK_BL_CFG_EN] v p = false) →
      ∃ t, exec (.blPortDisable src p v) s = .next t ∧ KeepsS [.rw, .shadow, .w1c] false s t ∧
        ∀ f ∈ Reg.LNK_BL_CFG.fields, f.acc = .rw → t.dev.cur f p = f.of v)) ∧
  (∀ (d : Dev) (p : Nat), p < 10 →
    let t := d.blEdge p
    (d.act Reg.LNK_BL_CFG_EN p = 1 → (d.bl p).st = .off → (t.bl p).st = .training ∧ (t.bl p).since = d.pwr.clock) ∧
    (d.act Reg.LNK_BL_CFG_EN p = 1 → (d.bl p).st ≠ .off → t = d) ∧
    (d.act Reg.LNK_BL_CFG_EN p ≠ 1 → (t.bl p).st = .off ∧
      ((d.bl p).st ≠ .off → ∀ l ∈ blLanes p, (t.lane l).cdr = false) ∧
      ((d.bl p).st = .up → t.hasEvent 0xB002 (p + 64) = true ∧ (t.bl p).vl = Vector.replicate 2 {}))) ∧
  (∀ (s : State) (p : Nat) (sw : Bool), s.dev.mainUp = true → p < 10 →
    let b := s.dev.bl p
    (b.st = .training → ∃ t, exec (.blLaneLock p) s = .next t ∧ KeepsS [.lnk] false s t ∧ (t.dev.bl p).st = .aligning ∧
      ∀ l ∈ blLanes p, (t.dev.lane l).cdr = true) ∧
    (b.st ≠ .training → exec (.blLaneLock p) s = .next s) ∧
    (b.st = .aligning → ∃ t, exec (.blAlignFound p sw) s = .next t ∧ KeepsS [.lnk] false s t ∧
      t.dev.bl p = { b with swapped := sw, st := .hello, since := s.dev.pwr.clock, helloAt := none }) ∧
    (b.st ≠ .aligning → exec (.blAlignFound p sw) s = .next s) ∧
    (b.st = .aligning → 10 * msUnit ≤ s.dev.pwr.clock - b.since → ∃ t, exec (.blAlignTimeout p) s = .next t ∧
      KeepsS [.lnk] false s t ∧ t.dev.bl p = { b with st := .training, since := s.dev.pwr.clock, helloAt := none }) ∧
    ((b.st ≠ .aligning ∨ s.dev.pwr.clock - b.since < 10 * msUnit) → exec (.blAlignTimeout p) s = .next s) ∧
    (b.st = .hello → 100 * msUnit ≤ s.dev.pwr.clock - b.since → ∃ t, exec (.blHelloTimeout p) s = .next t ∧
      KeepsS [.lnk] false s t ∧ t.dev.bl p = { b with st := .training, since := s.dev.pwr.clock, helloAt := none }) ∧
    ((b.st ≠ .hello ∨ s.dev.pwr.clock - b.since < 100 * msUnit) → exec (.blHelloTimeout p) s = .next s) ∧
    (((b.st = .hello ∧ ∀ a, b.helloAt = some a → 1 * msUnit ≤ s.dev.pwr.clock - a) ∨
        (b.st = .isolated ∧ ∀ a, b.helloAt = some a → 100 * msUnit ≤ s.dev.pwr.clock - a)) →
      ∃ t, exec (.blHelloSend p) s = .next t ∧ KeepsS [.out, .lnk] false s t ∧
        t.dev.bl p = { b with helloAt := some s.dev.pwr.clock } ∧
        s.says t (.blWord p [pack [(1, 56), (s.dev.act Reg.LNK_DEV_DOMAIN, 40), (p, 32), (s.dev.id, 0)], 0])) ∧
    (b.st ≠ .hello → b.st ≠ .isolated → exec (.blHelloSend p) s = .next s))) ∧
  ((∀ (s : State) (p : Nat) (w0 w1 : W64), s.dev.mainUp = true → p < 10 →
    let b := s.dev.bl p
    let dom := wbits w0 55 40
    let dev := wbits w0 9 0
    let mine := dom = s.dev.act Reg.LNK_DEV_DOMAIN
    (wbits w0 63 56 ≠ 1 → exec (.blHelloReceive p w0 w1) s = .next s) ∧
    ((b.st = .off ∨ b.st = .training ∨ b.st = .aligning) → exec (.blHelloReceive p w0 w1) s = .next s) ∧
    (wbits w0 63 56 = 1 → (b.st = .hello ∨ b.st = .isolated) → mine → dev ≠ s.dev.id →
      ∃ t, exec (.blHelloReceive p w0 w1) s = .next t ∧ KeepsS [.merge, .lnk, .log] false s t ∧ (t.dev.bl p).st = .up ∧
        (t.dev.bl p).vl = Vector.replicate 2 {} ∧ (t.dev.bl p).peerDev = dev ∧ (t.dev.bl p).peerPort = wbits w0 35 32 ∧
        t.dev.hasEvent 0xB001 (p + dev * 65536) = true) ∧
    (wbits w0 63 56 = 1 → b.st = .hello → ¬ mine → ∃ t, exec (.blHelloReceive p w0 w1) s = .next t ∧
      KeepsS [.merge, .lnk, .log] false s t ∧ (t.dev.bl p).st = .isolated ∧ t.dev.hasEvent 0xB005 (p + dom * 65536) = true) ∧
    (wbits w0 63 56 = 1 → b.st = .hello → mine → dev = s.dev.id → ∃ t, exec (.blHelloReceive p w0 w1) s = .next t ∧
      KeepsS [.merge, .lnk, .log] false s t ∧ (t.dev.bl p).st = .isolated ∧ t.dev.hasEvent 0xB004 p = true) ∧
    (wbits w0 63 56 = 1 → b.st = .up → (dom ≠ b.peerDomain ∨ dev ≠ b.peerDev) →
      ∃ t, exec (.blHelloReceive p w0 w1) s = .next t ∧ (t.dev.bl p).st = .hello) ∧
    (b.st = .up → dom = b.peerDomain → dev = b.peerDev → exec (.blHelloReceive p w0 w1) s = .next s)) ∧
  (∀ (s : State) (p errs : Nat), s.dev.mainUp = true → p < 10 → (s.dev.bl p).st = .up →
    (errs = 0 → ∃ t, exec (.blLinkLoss p errs) s = .next t ∧ (t.dev.bl p).st = .training ∧
      (t.dev.bl p).vl = Vector.replicate 2 {} ∧ t.dev.hasEvent 0xB002 (p + 16) = true) ∧
    (64 ≤ errs → ∃ t, exec (.blLinkLoss p errs) s = .next t ∧ (t.dev.bl p).st = .training ∧
      (t.dev.bl p).vl = Vector.replicate 2 {} ∧ t.dev.hasEvent 0xB002 (p + 32) = true) ∧
    (0 < errs → errs < 64 → ∃ t, exec (.blLinkLoss p errs) s = .next t ∧ KeepsS [.cnt] false s t)))

/-- R395, R402: a LINKCTL block with a good CRC-8 acknowledges the frames of each virtual lane up to its ACK and gives its credit; with NAK
the frames that stay are sent again in order, and RETRY_MAX NAKs of one ACK in a row take the link down. A block of another type or with a
bad CRC-8 is ignored.
The model's choices in it: log entry 85.
R394, R396, R397, R398, R402, R405, R407: a frame that arrives whole and carries the expected SEQ is taken and acknowledged; one that does
not asks for a resend of its virtual lane. A frame for this device waits for its unit. Any other goes out, one hop more, on the port that
LNK_ROUTE names, unless it has made 16 hops, or that port is not UP or is the one it came by. Pairs that end no frame only move the line on. A
lane descrambles what it scrambled, a frame is read back from its blocks, and ALIGN and SKIP pairs come as often as they must.
The model's choices in it: log entries 85, 119 and 120. -/
def Obligations.LinkFrames : Prop :=
  (∀ (s : State) (p : Nat) (w : W64), s.dev.mainUp = true → p < 10 → (s.dev.bl p).st = .up → s.dev.lnk.exports = [] →
    (∀ l, l < 2 → (at' (s.dev.bl p).vl l).queue = []) →
    let v0 := at' (s.dev.bl p).vl 0
    let v1 := at' (s.dev.bl p).vl 1
    let rest := (splitAck (wbits w 55 44) v0.retry).2
    let n := if v0.naks ≠ 0 ∧ v0.nakAck = wbits w 55 44 then v0.naks + 1 else 1
    ((wbits w 63 56 ≠ 0x2D ∨ crc8 w.toNat ≠ wbits w 7 0) → exec (.blLinkctl p w) s = .next s) ∧
    (wbits w 63 56 = 0x2D → crc8 w.toNat = wbits w 7 0 →
      (wbits w 15 14 = 0 → ∃ t, exec (.blLinkctl p w) s = .next t ∧ KeepsS [.lnk, .crs] false s t ∧ (t.dev.bl p).st = .up ∧
        at' (t.dev.bl p).vl 0 = { v0 with retry := rest, credit := wbits w 31 24, naks := 0, nakAck := wbits w 55 44 } ∧
        at' (t.dev.bl p).vl 1 = { v1 with retry := (splitAck (wbits w 43 32) v1.retry).2, credit := wbits w 23 16, naks := 0,
                                          nakAck := wbits w 43 32 }) ∧
      (wbits w 15 14 = 2 → n < s.dev.act Reg.LNK_BL_CFG_RETRY_MAX p → ∃ t, exec (.blLinkctl p w) s = .next t ∧
        KeepsS [.cnt, .out, .lnk, .crs] false s t ∧ (t.dev.bl p).st = .up ∧
        t.dev.ev.out = (rest.map (Out.blFrame p)).reverse ++ s.dev.ev.out ∧
        (at' (t.dev.bl p).vl 0).retry = rest ∧ (at' (t.dev.bl p).vl 0).naks = n) ∧
      (wbits w 15 14 = 2 → s.dev.act Reg.LNK_BL_CFG_RETRY_MAX p ≤ n → ∃ t, exec (.blLinkctl p w) s = .next t ∧
        (t.dev.bl p).st = .training ∧ t.dev.hasEvent 0xB003 p = true ∧ t.dev.hasEvent 0xB002 (p + 48) = true))) ∧
  ((∀ (s : State) (p : Nat) (pairs : List (LaneBlock × LaneBlock)) (drift : Int), s.dev.mainUp = true →
    let heard := s.dev.hearPairs p pairs drift
    let line := fun (t : State) => at' t.dev.lnk.lines p
    let c := Instr.blFrameReceive p pairs drift
    (s.dev.blUp p = false → exec c s = .next s) ∧
    (s.dev.blUp p = true → heard.2.1 = [] → ∃ t, exec c s = .next t ∧ KeepsS [.cnt, .lnk] false s t ∧ line t = heard.1 ∧
      t.dev.lnk.ports = s.dev.lnk.ports ∧ t.dev.lnk.arrived = s.dev.lnk.arrived) ∧
    (∀ f good, s.dev.blUp p = true → heard.2.1 = [(f, good)] → f.ftype ≠ 4 →
      (f.ftype = 5 → wbits (f.words.getD 0 0) 63 56 ≠ 1) →
      let vl := frameVl f
      let v := at' (s.dev.bl p).vl vl
      let out := s.dev.routeOf f.dst
      ((good = false ∨ f.seq ≠ v.expect) → ∃ t w, exec c s = .next t ∧ KeepsS [.cnt, .out, .lnk] false s t ∧
        t.dev.lnk.ports = s.dev.lnk.ports ∧ s.says t (.blWord p [w]) ∧ wbits w (15 - vl) (15 - vl) = 1) ∧
      (good = true → f.seq = v.expect →
        (f.dst = s.dev.id → ∃ t w, exec c s = .next t ∧ KeepsS [.cnt, .out, .lnk] false s t ∧
          t.dev.lnk.arrived = s.dev.lnk.arrived ++ [(some p, f)] ∧ s.says t (.blWord p [w]) ∧
          at' (t.dev.bl p).vl vl = { v with expect := (v.expect + 1) % 4096 }) ∧
        (f.dst ≠ s.dev.id → f.hops = 16 → ∃ t w, exec c s = .next t ∧
          KeepsS [.cnt, .merge, .out, .lnk, .log] false s t ∧ t.dev.hasEvent 0xB006 f.ftype = true ∧ s.says t (.blWord p [w]) ∧
          t.dev.lnk.arrived = s.dev.lnk.arrived ∧ (at' (t.dev.bl p).vl vl).freed = (v.freed + 1) % 256) ∧
        (f.dst ≠ s.dev.id → f.hops ≠ 16 → (s.dev.blUp out = false ∨ out = p) → ∃ t w,
          exec c s = .next t ∧ KeepsS [.cnt, .merge, .out, .lnk, .log] false s t ∧
          t.dev.hasEvent 0xB007 f.ftype = true ∧ s.says t (.blWord p [w]) ∧ t.dev.lnk.arrived = s.dev.lnk.arrived) ∧
        (f.dst ≠ s.dev.id → f.hops ≠ 16 → s.dev.blUp out = true → out ≠ p → s.dev.launchClear out f = true →
          (∀ l, l < 2 → (at' (s.dev.bl out).vl l).queue = []) →
          let o := at' (s.dev.bl out).vl vl
          (o.started + 256 - o.credit) % 256 < vlSlots vl → ∃ t w, exec c s = .next t ∧
            KeepsS [.cnt, .out, .lnk] false s t ∧
            t.dev.ev.out = .blWord p [w] :: .blFrame out { f with hops := f.hops + 1, seq := o.next } :: s.dev.ev.out ∧
            (at' (t.dev.bl out).vl vl).retry = o.retry ++ [{ f with hops := f.hops + 1, seq := o.next }])))) ∧
  (∀ (st : BitVec 58) (b : BlBlock),
    let l := b.onLane st
    l.1.sync = (if b.control then 2 else 1) ∧ readBlock st l.1 = (some b, l.2) ∧
    (∀ k, k < 64 →
      let before := fun n => if n ≤ k then l.1.payload.getLsbD (k - n) else st.getLsbD (n - k - 1)
      l.1.payload.getLsbD k = (b.word.getLsbD k != (before 39 != before 58))) ∧
    ∀ sync : BitVec 2, (sync = 0 ∨ sync = 3) → (readBlock st { l.1 with sync }).1 = none) ∧
  (∀ f : Frame, f.ftype < 16 → f.hops < 32 → f.dst < 1024 → f.src < 1024 → f.seq < 4096 → f.words.length < 16384 →
    frameOfBlocks (frameBlocks f) = (f, true) ∧ (frameBlocks f).length = f.words.length + 2 ∧
      wbits (frameStart f).word 51 51 = frameVl f) ∧
  (∀ (x : BlLine) (p : Nat),
    let y := x.nextPair p
    y.2.2.pairs = x.pairs + 1 ∧
    (x.pairs % 16384 = 0 → p < 10 → y.1.type = some 0x4B ∧ y.2.1.type = some 0x4B ∧ wbits y.1.word 55 52 = p ∧
      wbits y.2.1.word 55 52 = p ∧ wbits y.1.word 48 48 = 0 ∧ wbits y.2.1.word 48 48 = 1) ∧
    (let often := fun (z : BlLine) => z.sinceSkip ≤ 2046 ∨ (z.sinceSkip = 2047 ∧ z.pairs % 16384 = 1)
     often x → often y.2.2) ∧
    (y.2.2.sinceSkip = 0 → y.1 = skipBlock ∧ y.2.1 = skipBlock) ∧
    (y.2.2.sinceSkip ≠ 0 → y.2.2.sinceSkip = x.sinceSkip + 1)))

/-- R409, R410, R411: an UP port sends its TIME frame at its period, with the time of its own sending. A good TIME frame is kept for the
echo and for the choice of the upstream, and one that echoes an own frame gives the offset and the delay of R410; a root that hears of
another root reports it. When no port has a fresh root left, the loss is reported and the time source lost; a root found again is reported.
The model's choices in it: log entries 86 and 87. -/
def Obligations.TimeTransfer : Prop :=
  (∀ (s : State) (p : Nat) (inner : Int), s.dev.mainUp = true → p < 10 →
    let b := s.dev.bl p
    let due := s.dev.beatMultiple (64 * max 1 (s.dev.act Reg.LNK_TIME_CTL_TIME_PERIOD))
    (b.st = .up → due = true → ∃ t f, exec (.timeFrameSend p inner) s = .next t ∧ KeepsS [.cnt, .out, .lnk] false s t ∧
      s.says t (.blFrame p f) ∧ f.ftype = 4 ∧ f.dst = b.peerDev ∧ f.src = s.dev.id ∧ f.words.length = 5 ∧
      f.words.getD 0 0 = word ((inner + signed 32 (s.dev.act Reg.LNK_BL_ASYM_TX_LAT p)) / 65536) ∧
      t.dev.bl p = { b with tseq := (b.tseq + 1) % 256 }) ∧
    ((b.st ≠ .up ∨ due = false) → exec (.timeFrameSend p inner) s = .next s)) ∧
  (∀ (s : State) (p : Nat) (ws : List W64) (inner : Int), s.dev.mainUp = true → p < 10 → (s.dev.bl p).st = .up →
    let w := fun i => ws.getD i 0
    let t := fun (i hi : Nat) => (((w i).toNat * 65536 + wbits (w 3) hi (hi - 15) : Nat) : Int)
    let t4 := inner - signed 32 (s.dev.act Reg.LNK_BL_ASYM_RX_LAT p)
    exec (.timeFrameReceive p ws inner false) s = .next s ∧
    (s.dev.isRoot = true → wbits (w 4) 17 16 ≠ 2 → wbits (w 4) 9 0 ≠ s.dev.id → ∃ u,
      exec (.timeFrameReceive p ws inner true) s = .next u ∧ KeepsS [.merge, .log] false s u ∧
      u.dev.hasEvent 0xB00D (wbits (w 4) 9 0) = true) ∧
    (s.dev.isRoot = false → ∃ u, exec (.timeFrameReceive p ws inner true) s = .next u ∧
      (u.dev.bl p).echo = some { tseq := wbits (w 4) 63 56, tx := t 0 63, rx := t4 } ∧
      (u.dev.bl p).heard = some { root := wbits (w 4) 9 0, hops := wbits (w 4) 14 10, state := wbits (w 4) 17 16,
                                  upDev := wbits (w 4) 47 38, beat := s.dev.beatWide } ∧
      (wbits (w 4) 15 15 = 1 →
        (u.dev.bl p).offset = (timeDiff16 (t 2 31) (t 1 47) - timeDiff16 t4 (t 0 63)) / 2 ∧
        (u.dev.bl p).delay = (timeDiff16 t4 (t 0 63) + timeDiff16 (t 2 31) (t 1 47)) / 2) ∧
      (wbits (w 4) 15 15 = 0 → (u.dev.bl p).offset = (s.dev.bl p).offset ∧ (u.dev.bl p).delay = (s.dev.bl p).delay))) ∧
  (∀ (s : State), s.dev.mainUp = true → s.dev.isRoot = false →
    (s.dev.upstreamOf = none → s.dev.lnk.upstream = 15 → exec .rootTimeout s = .next s) ∧
    (s.dev.upstreamOf = none → s.dev.lnk.upstream < 10 → ∃ t, exec .rootTimeout s = .next t ∧
      KeepsS [.merge, .lnk, .tmb, .log] false s t ∧ t.dev.lnk.upstream = 15 ∧ t.dev.lnk.timeState = 2 ∧
      t.dev.hasEvent 0xB00B s.dev.lnk.upstream = true ∧ t.dev.hasEvent 0xC004 2 = true ∧ t.dev.tmb.freeRun = true ∧
      t.dev.tmb.locked = false) ∧
    (∀ p h, s.dev.upstreamOf = some (p, h) → ∃ t, exec .rootTimeout s = .next t ∧ KeepsS [.merge, .lnk, .log] false s t ∧
      t.dev.lnk.upstream = p ∧ t.dev.lnk.root = h.root ∧ t.dev.lnk.rootHops = h.hops + 1 ∧ t.dev.lnk.lostSaid = false ∧
      (s.dev.lnk.lostSaid = true → t.dev.hasEvent 0xB00C (p + (h.hops + 1) * 1024) = true)))

/-- R90, R369, R414: frames for this device. A BRICK frame joins its feeder's stream in INDEX order, and opens one while fewer than 64 are
open; beyond, it is reported. The first frame of a stream that is not staged moves into free staging pages, or waits for them. A course
entry joins its stream in the same way and begins its course when its turn has come. A stream without an entry closes 1 s after its last
frame.
The model's choices in it: log entry 88. -/
def Obligations.FedStreams : Prop :=
  (∀ (s : State) (p : Option Nat) (f : Frame) (rest : List (Option Nat × Frame)), s.dev.mainUp = true →
    s.dev.lnk.arrived = (p, f) :: rest → f.ftype = 1 →
    let r := frameRing f
    let x : FedIn := { frame := f, port := some (p.getD 15) }
    (∀ st, s.dev.stream? f.src r = some st → ∃ t, exec .brickFrameReceive s = .next t ∧ KeepsS [.lnk] false s t ∧
      t.dev.lnk.arrived = rest ∧
      t.dev.stream? f.src r = some { st with q := insertFed x st.q, last := s.dev.pwr.clock }) ∧
    (s.dev.stream? f.src r = none → s.dev.lnk.streams.length < 64 → ∃ t, exec .brickFrameReceive s = .next t ∧
      KeepsS [.lnk] false s t ∧ t.dev.lnk.arrived = rest ∧
      t.dev.lnk.streams = s.dev.lnk.streams ++ [{ dev := f.src, ring := r, q := [x], last := s.dev.pwr.clock }]) ∧
    (s.dev.stream? f.src r = none → 64 ≤ s.dev.lnk.streams.length → ∃ t, exec .brickFrameReceive s = .next t ∧
      t.dev.hasEvent 0xB00A r = true ∧ t.dev.lnk.streams = s.dev.lnk.streams)) ∧
  (∀ (s : State), s.dev.mainUp = true → (∀ x ∈ s.dev.lnk.arrived, x.2.ftype ≠ 1) → exec .brickFrameReceive s = .next s) ∧
  (∀ (s : State) (dev ring : Nat) (st : FedStream) (y : FedIn), s.dev.mainUp = true → s.dev.stream? dev ring = some st →
    st.q.head? = some y → y.port.isSome = true → y.frame.ftype = 1 →
    let bytes := wordBytes (y.frame.words.drop 3)
    let n := pagesFor bytes.length
    (s.dev.pagesFree < n → exec (.fedBrickStaging dev ring) s = .next s) ∧
    (n ≤ s.dev.pagesFree → s.dev.courseCheck ((fedEntryOf y.frame).f 2 63 32) = .waits →
      let pages := takePages s.dev.crs.pagesUsed n
      ∃ t, exec (.fedBrickStaging dev ring) s = .next t ∧ t.mem = stageBytes s.mem pages bytes ∧
        t.dev.crs.pagesUsed = s.dev.crs.pagesUsed ++ pages ∧
        (t.dev.stream? dev ring).bind (fun x => x.q.head?) = some { y with port := none, pages := pages })) ∧
  (∀ (s : State) (p : Option Nat) (f : Frame) (rest : List (Option Nat × Frame)), s.dev.mainUp = true →
    s.dev.lnk.arrived = (p, f) :: rest → f.ftype = 5 → frameSub f = 2 → s.dev.stream? f.src (frameRing f) = none →
    s.dev.lnk.streams.length < 64 →
    let e := fedEntryOf f
    (s.dev.island 128 = 2 → ∃ t, exec .ctrlEntryReceive s = .next t ∧ t.dev.lnk.arrived = rest ∧
      t.dev.lnk.streams = s.dev.lnk.streams ++ [{ dev := f.src, ring := frameRing f, q := [{ frame := f }],
                                                   last := s.dev.pwr.clock }]) ∧
    (s.dev.island 128 ≠ 2 → e.opcode = 2 → s.dev.tmb.run = true → s.dev.tmb.cycle = 0 → s.dev.crs.st = .idle → e.sched = false →
      (s.dev.crs.lastValid = false ∨ 0 < beatDiff (e.f 1 63 32) s.dev.crs.number) → ∃ t, exec .ctrlEntryReceive s = .next t ∧
        t.dev.crs.st = .open ∧ t.dev.crs.number = e.f 1 63 32 ∧
        (t.dev.stream? f.src (frameRing f)).map (fun x => x.q) = some [])) ∧
  (∀ (s : State) (dev ring : Nat) (st : FedStream), s.dev.mainUp = true → s.dev.stream? dev ring = some st →
    let busy := st.q ≠ [] ∨ ∃ b ∈ s.dev.crs.bricks, b.entry.ring = virtualRing dev ring
    ((busy ∨ s.dev.pwr.clock - st.last < 1000000000 * nsUnit) → exec (.fedStreamClose dev ring) s = .next s) ∧
    (¬ busy → s.dev.crs.endEntry = none → s.dev.crs.abortEntry = none → 1000000000 * nsUnit ≤ s.dev.pwr.clock - st.last →
      ∃ t, exec (.fedStreamClose dev ring) s = .next t ∧ KeepsS [.lnk] false s t ∧ t.dev.stream? dev ring = none))

/-- R56, R407, R412, R413, R416: the feeder. A fed brick that is whole in its pages goes out as a BRICK frame to its device; one that has no
route fails NO_ROUTE and one whose read failed a fetch error. A result or a remnant resolves its entry, whose DONE entry is written as it
came; one for no entry is reported and counted. An entry that waits longer than FEED_TIMEOUT is lost, which is reported. An event from
another device is written to the FOREIGN ring, or dropped where none is active.
The model's choices in it: log entry 88. -/
def Obligations.FeedUnit : Prop :=
  let lands := fun (s t : State) (n : Nat) (x : Item) =>
    let ws := entryWords (s.dev.ringLog2 n) (s.dev.ring n).index (if s.dev.ringClass n = clsStat then 0 else (s.dev.ring n).evSeq) x
    .hostWrite (s.dev.slotAddr n (s.dev.ring n).index) (ws.take 1) ∈ t.dev.ev.out ∧
      .hostWrite (s.dev.slotAddr n (s.dev.ring n).index + 8) (ws.drop 1) ∈ t.dev.ev.out
  let open' := fun (s : State) (n : Nat) => n < 64 ∧ (s.dev.ring n).st = .active ∧ (s.dev.ring n).loss = none ∧
    (s.dev.ring n).holdQ = [] ∧ s.dev.canRequest = true ∧ 0 < s.dev.ringFree n
  (∀ (s : State) (key : Nat) (x : FedEntry) (bs : List Byte), s.dev.mainUp = true →
    s.dev.lnk.fed.find? (fun x => x.entry.key == key) = some x → x.sent = false → x.entry.opcode = 1 → x.entry.ring < 64 →
    (∀ y ∈ s.dev.lnk.fed, y.entry.ring = x.entry.ring → y.sent = false → y = x) → x.dev ≠ s.dev.id →
    let out := s.dev.routeOf x.dev
    let body := bs.take (x.entry.f 2 31 0)
    (s.dev.blUp out = true → (∀ l, l < 2 → (at' (s.dev.bl out).vl l).queue = []) →
      (let v := at' (s.dev.bl out).vl 1; (v.started + 256 - v.credit) % 256 < 2) → (∀ sl, sl < 8 → at' s.dev.tmb.launchReady sl = false) →
      ∃ t g, exec (.fedBrickReadDone key (.ok bs)) s = .next t ∧ t.mem = stageBytes s.mem x.pages body ∧
        s.says t (.blFrame out g) ∧ g.ftype = 1 ∧ g.dst = x.dev ∧ g.src = s.dev.id ∧ g.hops = 1 ∧
        g.words = streamWord 0 x.entry.ring x.entry.idx :: x.entry.w 0 :: x.entry.w 2 :: leWords (body.length / 8) body ∧
        t.dev.fedEntry? x.entry.ring x.entry.idx ≠ none) ∧
    (s.dev.blUp out = false → ∃ t, exec (.fedBrickReadDone key (.ok bs)) s = .next t ∧ t.dev.hasDone x.entry 0xB007 = true ∧
      t.dev.hasEvent 0xB007 1 = true ∧ t.dev.fedEntry? x.entry.ring x.entry.idx = none) ∧
    (∃ t, exec (.fedBrickReadDone key (.fail bs)) s = .next t ∧ t.dev.hasDone x.entry 0x1006 = true ∧
      t.dev.fedEntry? x.entry.ring x.entry.idx = none)) ∧
  (∀ (s : State) (p : Option Nat) (f : Frame) (rest : List (Option Nat × Frame)), s.dev.mainUp = true →
    s.dev.lnk.arrived = (p, f) :: rest →
    let w := fun i => f.words.getD i 0
    let r := frameRing f
    let res := f.ftype = 3 ∧ frameSub f = 1
    let c := if res then Instr.fedResultReceive else .remnantFrameReceive
    let code := if res then wbits (w 1) 31 16 else 0x2004
    let detail := if res then wbits (w 2) 31 0 else wbits (w 9) 31 0
    let stamp := if res then stampOf (w 3) (w 4) else stampOf (w 10) (w 11)
    let payload := if res then [w 5, w 6, w 7, w 8] else [w 12, w 13, w 14, pack [(wbits (w 8) 31 0, 32), (wbits (w 15) 31 0, 0)]]
    (res ∨ f.ftype = 2) →
    (s.dev.fedEntry? r (frameIdx f) = none → ∃ t, exec c s = .next t ∧ t.dev.hasEvent 0xB009 r = true ∧ t.dev.lnk.arrived = rest ∧
      t.dev.lnk.fed = s.dev.lnk.fed) ∧
    (∀ x, s.dev.fedEntry? r (frameIdx f) = some x → ∃ t, exec c s = .next t ∧ t.dev.lnk.arrived = rest ∧
      t.dev.fedEntry? r (frameIdx f) = none ∧
      let it : Item := { kind := .done r x.entry.idx x.entry.tag, code, detail, payload, stamp }
      ∀ n, s.dev.ringFor it = some n → (code ≠ 0 ∨ x.entry.noDone = false) → open' s n → lands s t n it)) ∧
  (∀ (s : State) (key : Nat) (x : FedEntry), s.dev.mainUp = true →
    s.dev.lnk.fed.find? (fun x => x.entry.key == key) = some x → x.entry.ring < 64 →
    let T : Int := s.dev.act Reg.LNK_FEED_CTL_FEED_TIMEOUT
    let expired := x.sent = true ∧ T ≠ 0 ∧ T * 1000000000 * nsUnit ≤ s.dev.pwr.clock - x.since
    (expired → ∃ t, exec (.feedTimeoutExpiry key) s = .next t ∧ KeepsS [.merge, .hst, .lnk, .crs, .log] false s t ∧
      t.dev.hasEvent 0xB008 x.entry.ring = true ∧ t.dev.hasDone x.entry 0xB008 = true ∧
      t.dev.fedEntry? x.entry.ring x.entry.idx = none) ∧
    (¬ expired → exec (.feedTimeoutExpiry key) s = .next s)) ∧
  (∀ (s : State) (p : Option Nat) (f : Frame) (rest : List (Option Nat × Frame)), s.dev.mainUp = true →
    s.dev.lnk.arrived = (p, f) :: rest → f.ftype = 3 → frameSub f = 2 →
    let w := fun i => f.words.getD (i + 1) 0
    let n := s.dev.act Reg.HST_FOREIGN_ROUTE_EVT_RING
    (s.dev.act Reg.HST_FOREIGN_ROUTE_EVT_EN = 1 → open' s n → ∃ t, exec .foreignEventReceive s = .next t ∧
      t.dev.lnk.arrived = rest ∧ (t.dev.ring n).index = ((s.dev.ring n).index + 1) % 2 ^ 32 ∧
      lands s t n { kind := .foreignEvent, code := wbits (w 0) 31 16, detail := wbits (w 1) 31 0, payload := [w 4, w 5, w 6, w 7],
                    stamp := stampOf (w 2) (w 3) }) ∧
    ((s.dev.act Reg.HST_FOREIGN_ROUTE_EVT_EN ≠ 1 ∨ (s.dev.ring n).st = .disabled) → ∃ t, exec .foreignEventReceive s = .next t ∧
      KeepsS [.out, .lnk] false s t ∧ t.dev.lnk.arrived = rest))

/-! ## Timebase -/

/-- R427, R428, R431, R432, R438, R549: domain time goes on by TMB_INCR in each cycle, and a beat edge falls in the cycle that reaches a multiple of
50 ns. TMB_SET replaces it, and with it the cycle, while the generator is STOPPED. TMB_STEP adds to it while STOPPED and to STEP_REMAIN while RUNNING, and is
refused while a source is in use. BEAT_START arms a start at TMB_START_TIME or is refused; a change of time that passes it cancels it; when
time reaches it the counter is exactly TMB_START_TIME, in cycle 0, and the generator runs. From a beat edge on CLK10_OUT is high in even
beats, and PPS_OUT for the first 100 ms of a second whose start it has seen, each while enabled.
The model's choices in it: log entries 35, 91 and 121.
R24, R443: the first selected edge of an input in a beat is captured and reported; each further one is counted, and reported once with
its count; an edge that is not selected does nothing. At a stats epoch every latched counter takes its value and counts again from 0.
The model's choices in it: log entries 35, 104 and 121. -/
def Obligations.DomainTime : Prop :=
  ((∀ (s : State), s.pending = [] → s.dev.mainUp = true → ∃ t, step s = .next t ∧
    let now := s.dev.tmb.time + (s.dev.act Reg.TMB_INCR_INCR : Int)
    t.dev.tmb.time = now ∧
    t.dev.tmb.cycle = if now / (50 * nsUnit) ≠ s.dev.tmb.time / (50 * nsUnit) then 0 else s.dev.tmb.cycle + 1) ∧
  (∀ (s : State) (src : Source) (v : W64), s.dev.mainUp = true →
    (s.dev.tmb.run = false → ∃ t, exec (.tmbSetWrite src v) s = .next t ∧ KeepsS [.rw, .shadow, .w1c, .merge, .tmb, .log] false s t ∧
      t.dev.tmb.time = (v.toNat : Int) * nsUnit ∧ t.dev.ns = v.toNat ∧
      t.dev.tmb.cycle = v.toNat % 50 * 2 ^ 32 / s.dev.act Reg.TMB_INCR_INCR ∧
      (∀ st, s.dev.tmb.startAt = some st → (0 ≤ timeDiff v.toNat st → t.dev.tmb.startAt = none ∧ t.dev.hasEvent 0xC00D 0 = true) ∧
        (timeDiff v.toNat st < 0 → t.dev.tmb.startAt = some st))) ∧
    (s.dev.tmb.run = true → ∃ t, exec (.tmbSetWrite src v) s = .next t ∧ KeepsS [.w1c] false s t ∧
      t.dev.flag Reg.TMB_STATUS_REFUSED = 1) ∧
    (s.dev.timeSource.1 = 0 → s.dev.tmb.run = false → ∃ t, exec (.tmbStepWrite src v) s = .next t ∧
      KeepsS [.merge, .tmb, .log] false s t ∧ t.dev.tmb.time = s.dev.tmb.time + v.toInt * nsUnit ∧
      t.dev.tmb.cycle = (t.dev.tmb.time % (50 * nsUnit)).toNat / s.dev.act Reg.TMB_INCR_INCR ∧
      (s.dev.tmb.startAt = none → t.dev.ev.merge = s.dev.ev.merge) ∧
      ∀ st, s.dev.tmb.startAt = some st → 0 ≤ timeDiff t.dev.ns st → t.dev.tmb.startAt = none ∧ t.dev.hasEvent 0xC00D 0 = true) ∧
    (s.dev.timeSource.1 = 0 → s.dev.tmb.run = true → ∃ t, exec (.tmbStepWrite src v) s = .next t ∧ KeepsS [.tmb] false s t ∧
      t.dev.tmb.time = s.dev.tmb.time ∧ t.dev.tmb.stepRemain = s.dev.stepNow + v.toInt * 2 ^ 40 ∧
      t.dev.tmb.stepAt = s.dev.tmb.time) ∧
    (s.dev.timeSource.1 ≠ 0 → ∃ t, exec (.tmbStepWrite src v) s = .next t ∧ KeepsS [.w1c] false s t ∧
      t.dev.flag Reg.TMB_STATUS_REFUSED = 1) ∧
    (let st := s.dev.cur Reg.TMB_START_TIME_START_TIME
      let ppm := Reg.TMB_CTL_SLEW_PPM.of v
      let ok := s.dev.tmb.run = false ∧ s.dev.cur Reg.TMB_INCR_INCR = 0xA0000000 ∧ st % 3200 = 0 ∧ 3200 ≤ timeDiff st s.dev.ns ∧
        s.dev.tmb.startAt = none
      (Reg.TMB_CTL_BEAT_START.of v = 1 → 1 ≤ ppm → ppm ≤ 100 → ok → ∃ t, exec (.beatStart src v) s = .next t ∧
        KeepsS [.rw, .shadow, .w1c, .tmb] false s t ∧ t.dev.tmb = { s.dev.tmb with startAt := some st }) ∧
      (Reg.TMB_CTL_BEAT_START.of v = 1 → ¬ ok → ∃ t, exec (.beatStart src v) s = .next t ∧ KeepsS [.w1c] false s t ∧
        t.dev.flag Reg.TMB_STATUS_REFUSED = 1) ∧
      (Reg.TMB_CTL_BEAT_START.of v = 0 → exec (.beatStart src v) s = .next s))) ∧
  (∀ (s : State), s.dev.mainUp = true →
    (∀ st, s.dev.tmb.startAt = some st → 0 ≤ timeDiff s.dev.ns st → ∃ t, exec .beatStartReached s = .next t ∧
      KeepsS [.merge, .tmb, .log] false s t ∧ t.dev.tmb.run = true ∧ t.dev.tmb.cycle = 0 ∧ t.dev.tmb.startAt = none ∧
      t.dev.ns = st % 2 ^ 64 ∧ t.dev.tmb.time % nsUnit = 0 ∧ t.dev.hasEvent 0xC001 0 = true) ∧
    ((∀ st, s.dev.tmb.startAt = some st → timeDiff s.dev.ns st < 0) → exec .beatStartReached s = .next s)) ∧
  (∀ d : Dev,
    let t := d.clockOutputs
    (t.tmb.clk10 = true ↔ d.act Reg.MGT_GPIO_CLK10_EN = 1 ∧ d.beatWide % 2 = 0) ∧
    (d.act Reg.MGT_GPIO_PPS_EN ≠ 1 → t.tmb.pps = false) ∧
    (d.act Reg.MGT_GPIO_PPS_EN = 1 → (d.beatWide % 20000000 = 0 → t.tmb.pps = true) ∧
      (d.beatWide % 20000000 ≠ 0 → d.beatWide % 20000000 < 2000000 → t.tmb.pps = d.tmb.pps) ∧
      (2000000 ≤ d.beatWide % 20000000 → t.tmb.pps = false)))) ∧
  ((∀ (s : State) (i : Nat) (falling : Bool) (ns : W64) (frac : W16), s.dev.mainUp = true → i < 8 →
    let selected := bitOf (s.dev.act { Reg.TMB_CAP_CTL_EDGE0 with hi := 2 * i + 1, lo := 2 * i }) (bit falling)
    let c := at' s.dev.tmb.caps i
    (selected = false → exec (.tcapEdge i falling ns frac) s = .next s) ∧
    (selected = true → c.beat ≠ some s.dev.beat → ∃ t, exec (.tcapEdge i falling ns frac) s = .next t ∧
      KeepsS [.cnt, .merge, .tmb, .log] false s t ∧
      at' t.dev.tmb.caps i = { ns := ns.toNat % 2 ^ 48, frac := frac.toNat, beat := some s.dev.beat, missed := 0 } ∧
      (∃ x ∈ t.dev.ev.merge, x.code = 0xC008 ∧ x.detail = i + 8 * bit falling ∧ x.payload = [ns, pack [(frac.toNat, 48)]]) ∧
      ∀ j, j < 8 → j ≠ i → at' t.dev.tmb.caps j = at' s.dev.tmb.caps j) ∧
    (selected = true → c.beat = some s.dev.beat → ∃ t, exec (.tcapEdge i falling ns frac) s = .next t ∧
      KeepsS [.cnt, .merge, .tmb, .log] false s t ∧ at' t.dev.tmb.caps i = { c with missed := c.missed + 1 } ∧
      (c.missed = 0 → t.dev.hasEvent 0xC009 (i + 65536) = true))) ∧
  (∀ (s : State), s.dev.mainUp = true →
    let due := s.dev.tmb.cycle = 0 ∧ s.dev.beatWide % (20000 * (s.dev.act Reg.TMB_EPOCH_EPOCH_MS : Int)) = 0
    (¬ due → exec .statsEpoch s = .next s) ∧
    (due → ∃ t, exec .statsEpoch s = .next t ∧ KeepsS [.cnt, .rol, .rolBeat, .memc, .thm] false s t ∧
      (s.dev.regs.rolBeat ≠ s.dev.beatWide → t.dev.regs.rol = s.dev.regs.cnt ∧ ∀ f i j, t.dev.count f i j = 0) ∧
      (s.dev.regs.rolBeat = s.dev.beatWide → t.dev.regs = s.dev.regs))))

/-- R429, R433, R434, R435, R437, R438, R440: PTP on a port that runs it keeps the time of a Sync and takes the port state that the command
carries, which is reported; off, it takes and sends nothing. A measurement of the root's SLAVE port steps a STOPPED device that is
more than 1,000 ns away; otherwise, after the first, it sets the integral and proportional terms, and it counts to the lock tests. A slave
port that hears no Sync for three intervals is a lost source. At a beat group boundary FREQ is the sum of the terms and of the slew that
removes the step.
The model's choices in it: log entry 90. -/
def Obligations.ClockServo : Prop :=
  (∀ (s : State) (e : Nat) (m : PtpMsg) (ts : Int) (st : Nat), s.dev.mainUp = true → e < 2 →
    let p := at' s.dev.tmb.ports e
    let allowed := s.dev.isRoot = true ∨ (st ≠ 8 ∧ st ≠ 9)
    (s.dev.ptpOn e = false → exec (.ptpMessageReceive e m ts st) s = .next s ∧ exec (.announceReceiptTimeout e st) s = .next s ∧
      exec (.ptpMessageSend e m ts) s = .next s) ∧
    (s.dev.ptpOn e = true →
      (∃ t, exec (.ptpMessageSend e m ts) s = .next t ∧ KeepsS [.out] false s t ∧
        (m.kind ≠ 11 → s.says t (.ptp e m (if m.kind < 8 then ts + signed 64 (s.dev.act Reg.TMB_PTP_ASYM_ASYM e) else ts))) ∧
        (m.kind = 11 → t.dev.ev.out = .announce e (if s.dev.timeLocked then s.dev.act Reg.TMB_PTP_CFG_CLASS_LOCKED
            else s.dev.act Reg.TMB_PTP_CFG_CLASS_FREE) (s.dev.act Reg.TMB_PTP_CFG_PRIORITY1) (s.dev.act Reg.TMB_PTP_CFG_PRIORITY2)
          (s.dev.act Reg.TMB_PTP_CFG_DOMAIN_NUMBER) :: .ptp e m ts :: s.dev.ev.out)) ∧
      (m.kind < 8 → ∃ t, exec (.ptpMessageReceive e m ts st) s = .next t ∧
        (at' t.dev.tmb.ports e).stamp = ts + signed 64 (s.dev.act Reg.TMB_PTP_ASYM_ASYM e)) ∧
      (m.kind = 0 → ∃ t, exec (.ptpMessageReceive e m ts st) s = .next t ∧ KeepsS [.merge, .tmb, .log] false s t ∧
        (at' t.dev.tmb.ports e).lastSync = some s.dev.tmb.time) ∧
      (8 ≤ m.kind → st = p.state → exec (.ptpMessageReceive e m ts st) s = .next s) ∧
      (allowed → st ≠ p.state → ∀ c ∈ [Instr.ptpMessageReceive e m ts st, .announceReceiptTimeout e st], ∃ t, exec c s = .next t ∧
        KeepsS [.merge, .tmb, .log] false s t ∧ (at' t.dev.tmb.ports e).state = st ∧
        t.dev.hasEvent 0xC007 (e + 16 * (st % 16)) = true ∧
        (s.dev.timeSource = (1, e) → t.dev.tmb.freeRun = true ∧ t.dev.hasEvent 0xC004 1 = true)))) ∧
  (∀ (s : State) (e : Nat) (off : Int), s.dev.mainUp = true → s.dev.isRoot = true → s.dev.slavePort = some e →
    let b := s.dev.tmb
    let far := 1000 * 65536 < off.natAbs
    let lim : Int := s.dev.act Reg.TMB_SERVO_LOCK_NS
    ∃ t, exec (.ptpMeasurement e off) s = .next t ∧ KeepsS [.cnt, .merge, .tmb, .log] false s t ∧ t.dev.tmb.offset = off ∧
      t.dev.tmb.freeRun = false ∧
      t.dev.tmb.time = (if b.run = false ∧ far then b.time + off * 65536 else b.time) ∧
      (b.measured = none → t.dev.tmb.integ = b.integ ∧ t.dev.tmb.prop = b.prop) ∧
      (∀ m, b.measured = some m → m.source = 1 → m.port = e → b.freeRun = false → m.time < b.time → (b.run = true ∨ ¬ far) →
        t.dev.tmb.integ = clampI (-freqMax) freqMax
          (b.integ + ((s.dev.act Reg.TMB_SERVO_KI : Int) * off * 2 ^ 40).tdiv (b.time - m.time)) ∧
        t.dev.tmb.prop = ((s.dev.act Reg.TMB_SERVO_KP : Int) * off * 2 ^ 40).tdiv (b.time - m.time)) ∧
      (b.run = true → far → b.farRaised = false → t.dev.hasEvent 0xC005
        (unsigned 32 (clampI (-2147483648) 2147483647 (off.tdiv 65536))) = true) ∧
      (b.good = 15 → b.locked = false → (off.natAbs : Int) ≤ lim → t.dev.tmb.locked = true ∧ t.dev.hasEvent 0xC002 0 = true) ∧
      (b.bad = 3 → b.locked = true → 4 * lim < off.natAbs → t.dev.tmb.locked = false ∧ t.dev.hasEvent 0xC003 0 = true)) ∧
  (∀ (s : State) (e : Nat), s.dev.mainUp = true →
    let p := at' s.dev.tmb.ports e
    let expired := s.dev.timeSource = (1, e) ∧ ∀ t0, p.lastSync = some t0 → s.dev.syncLimit ≤ s.dev.tmb.time - t0
    (expired → ∃ t, exec (.syncTimeout e) s = .next t ∧ KeepsS [.merge, .tmb, .log] false s t ∧ t.dev.tmb.freeRun = true ∧
      t.dev.tmb.prop = 0 ∧ t.dev.tmb.integ = s.dev.tmb.integ ∧ t.dev.tmb.locked = false ∧ t.dev.hasEvent 0xC004 1 = true) ∧
    (¬ expired → exec (.syncTimeout e) s = .next s) ∧
    (s.dev.slavePort ≠ some e → ∀ off, exec (.ptpMeasurement e off) s = .next s)) ∧
  (∀ (s : State), s.dev.mainUp = true →
    let b := s.dev.tmb
    let full := ppmUnits (s.dev.act Reg.TMB_CTL_SLEW_PPM)
    let due := s.dev.beatMultiple 64 = true ∧ s.dev.tmb.cycle = 0 ∧ b.freqBeat ≠ s.dev.beatWide
    (¬ due → exec .freqUpdate s = .next s) ∧
    (due → ∃ t, exec .freqUpdate s = .next t ∧ KeepsS [.merge, .tmb, .log] false s t ∧
      t.dev.tmb.freq = clampI (-freqMax) freqMax (b.integ + b.prop + t.dev.tmb.slew) ∧ t.dev.tmb.freqBeat = s.dev.beatWide ∧
      (b.stepLast = true → t.dev.tmb.stepRemain = 0 ∧ t.dev.tmb.slew = 0 ∧ t.dev.tmb.stepLast = false ∧
        t.dev.hasEvent 0xC006 0 = true) ∧
      (b.stepLast = false → t.dev.tmb.stepRemain = s.dev.stepNow ∧
        (s.dev.stepNow = 0 → t.dev.tmb.slew = 0) ∧
        (s.dev.stepNow ≠ 0 → (s.dev.stepNow.natAbs : Int) < full * 3200 →
          t.dev.tmb.slew = s.dev.stepNow.tdiv 3200 ∧ t.dev.tmb.stepLast = true) ∧
        (s.dev.stepNow ≠ 0 → full * 3200 ≤ s.dev.stepNow.natAbs →
          t.dev.tmb.slew = s.dev.stepNow.sign * full ∧ t.dev.tmb.stepLast = false))))

/-- R444, R445, R452: ARM is taken for a time at least 10 µs ahead that no other armed slot of the port is within 4 µs of, and is refused
otherwise, with the event for a time too near and for a clash; clearing ARM cancels. From 4 µs before its time the port is made
ready, or the launch fails; at its time the frame leaves, its actual time is reported and ARM clears.
The model's choices in it: log entries 92 and 121. -/
def Obligations.Launches : Prop :=
  (∀ (s : State) (src : Source) (sl : Nat) (v : W64), s.dev.mainUp = true → s.dev.regs.wf = true → sl < 8 →
    let len := Reg.TMB_LAUNCH_CTL_LENGTH.of v
    let port := Reg.TMB_LAUNCH_CTL_PORT.of v
    let ok := 60 ≤ len ∧ len ≤ 1536 ∧ port ≤ 11
    let T := s.dev.launchTime sl
    let clash := ∃ o, o < 8 ∧ o ≠ sl ∧ s.dev.launchArmed o = true ∧ s.dev.cur Reg.TMB_LAUNCH_CTL_PORT o = port ∧
      (timeDiff (s.dev.launchTime o) T).natAbs ≤ 4000
    (Reg.TMB_LAUNCH_CTL_ARM.of v = 1 →
      (ok → s.dev.launchArmed sl = false → 10000 ≤ timeDiff T s.dev.ns → ¬ clash → ∃ t, exec (.launchArm src sl v) s = .next t ∧
        KeepsS [.rw, .shadow, .w1c, .tmb] false s t ∧ t.dev.launchArmed sl = true ∧
        t.dev.cur Reg.TMB_LAUNCH_CTL_PORT sl = port ∧ at' t.dev.tmb.launchReady sl = false ∧
        ∀ o, o < 8 → o ≠ sl → t.dev.launchArmed o = s.dev.launchArmed o) ∧
      ((¬ ok ∨ s.dev.launchArmed sl = true) → ∃ t, exec (.launchArm src sl v) s = .next t ∧ KeepsS [.w1c] false s t ∧
        t.dev.flag Reg.TMB_STATUS_REFUSED = 1) ∧
      (ok → s.dev.launchArmed sl = false → timeDiff T s.dev.ns < 10000 → ∃ t, exec (.launchArm src sl v) s = .next t ∧
        KeepsS [.w1c, .merge, .log] false s t ∧ t.dev.flag Reg.TMB_STATUS_REFUSED = 1 ∧ t.dev.hasEvent 0xC00B sl = true) ∧
      (ok → s.dev.launchArmed sl = false → 10000 ≤ timeDiff T s.dev.ns → clash → ∃ t, exec (.launchArm src sl v) s = .next t ∧
        KeepsS [.w1c, .merge, .log] false s t ∧ t.dev.flag Reg.TMB_STATUS_REFUSED = 1 ∧ t.dev.hasEvent 0xC00C (sl + 32) = true)) ∧
    (Reg.TMB_LAUNCH_CTL_ARM.of v = 0 →
      (ok → s.dev.launchArmed sl = true → ∃ t, exec (.launchCancel src sl v) s = .next t ∧
        KeepsS [.rw, .shadow, .w1c, .tmb] false s t ∧ t.dev.launchArmed sl = false) ∧
      (s.dev.launchArmed sl = false → exec (.launchCancel src sl v) s = .next s))) ∧
  (∀ (s : State) (sl : Nat), s.dev.mainUp = true → s.dev.regs.wf = true → s.dev.launchArmed sl = true →
    let p := s.dev.cur Reg.TMB_LAUNCH_CTL_PORT sl
    let T := s.dev.launchTime sl
    let fails := fun (c : Instr) => ∃ t, exec c s = .next t ∧ KeepsS [.rw, .rwAct, .merge, .tmb, .log] false s t ∧
      t.dev.launchArmed sl = false ∧ t.dev.hasEvent 0xC00C (sl + 16) = true
    (at' s.dev.tmb.launchReady sl = false →
      (4000 < timeDiff T s.dev.ns → exec (.launchWindow sl) s = .next s) ∧
      (timeDiff T s.dev.ns ≤ 4000 → s.dev.launchPortOk p = true → ∃ t, exec (.launchWindow sl) s = .next t ∧ KeepsS [.tmb] false s t ∧
        at' t.dev.tmb.launchReady sl = true ∧ t.dev.tmb.time = s.dev.tmb.time) ∧
      (timeDiff T s.dev.ns ≤ 4000 → s.dev.launchPortOk p = false → fails (.launchWindow sl)) ∧
      ∀ ns frac, exec (.launchSend sl ns frac) s = .next s) ∧
    (at' s.dev.tmb.launchReady sl = true → ∀ (ns : W64) (frac : W16),
      ((1 < timeDiff T s.dev.ns ∨ s.dev.launchOnTime sl ns.toNat frac.toNat = false) →
        exec (.launchSend sl ns frac) s = .next s) ∧
      (timeDiff T s.dev.ns ≤ 1 → s.dev.launchOnTime sl ns.toNat frac.toNat = true →
        (s.dev.launchPortOk p = false → fails (.launchSend sl ns frac)) ∧
        (s.dev.launchPortOk p = true → (p < 10 → (∀ l, l < 2 → (at' (s.dev.bl p).vl l).queue = []) ∧
            ∀ o, o < 8 → o ≠ sl → at' s.dev.tmb.launchReady o = false) →
          ∃ t o, exec (.launchSend sl ns frac) s = .next t ∧ s.says t o ∧ t.dev.launchArmed sl = false ∧
            t.dev.hasEvent 0xC00A sl = true ∧
            (10 ≤ p → o = .eth (p - 10) ((wordBytes ((List.range 192).map (s.dev.launchWord sl))).take
              (s.dev.cur Reg.TMB_LAUNCH_CTL_LENGTH sl))) ∧
            (p < 10 → ∃ f, o = .blFrame p f ∧ f.ftype = 3 ∧ f.src = s.dev.id ∧ f.dst = s.dev.cur Reg.TMB_LAUNCH_CTL_DST sl ∧
              f.words = (List.range 9).map (s.dev.launchWord sl))))))

/-! ## Stepper axes -/

/-- R461, R462, R464: an entry acts at its profile tick and not before. It needs at least one axis, a HOME exactly one, and every axis
enabled; a MOVE needs its axes homed or allowed unhomed, and none towards an asserted limit; the first check that fails gives the code.
SET_POS sets the positions of resting axes and makes them homed; STOP on resting axes is complete at once, and on moving ones slows their
moves with the deceleration it names.
The model's choices in it: log entry 94.
R20, R470, R472, R475: a write that sets EN of an axis needs a running beat and a configuration in range, and is refused otherwise; one that
clears EN is stored. At the beat edge that samples EN the axis is enabled, or goes OFF where it rests; a moving one is stopped first.
The model's choices in it: log entries 16 and 93. -/
def Obligations.AxisEntries : Prop :=
  (∀ (s : State) (n op : Nat) (e : Entry) (c : Instr), s.dev.mainUp = true → s.dev.front n 3 op = some e →
    ((op = 1 ∧ c = .axsMove n) ∨ (op = 2 ∧ c = .home n) ∨ (op = 3 ∧ c = .stop n) ∨ (op = 4 ∧ c = .setPos n)) →
    let axes := axesOf (axMask e)
    let late := s.dev.axs.late
    let ends := fun (code : Nat) => ∃ t, exec c s = .next t ∧ (code ≠ 0 ∨ e.noDone = false → t.dev.hasDone e code = true) ∧
      t.dev.axs = s.dev.axPlan.axs
    let ready := axes ≠ [] ∧ (op = 2 → axes.length = 1) ∧ ∀ m ∈ axes, (s.dev.stepper m).on = true
    let towards := ∃ m ∈ axes, (s.dev.limOn m true = true ∧ (s.dev.stepper m).p < s.dev.moveTarget e m) ∨
      (s.dev.limOn m false = true ∧ s.dev.moveTarget e m < (s.dev.stepper m).p)
    let unhomed := ∃ m ∈ axes, (s.dev.stepper m).homed = false ∧ s.dev.act Reg.AXS_AXIS_CFG_ALLOW_UNHOMED m = 0
    let idle := s.dev.axBusy (axMask e) = false ∧ ∀ w ∈ s.dev.axs.waiting, ∀ m ∈ axes, bitOf (axMask w) m = false
    (s.dev.axDue e = false → exec c s = .next s) ∧
    (s.dev.axDue e = true →
      ((axes = [] ∨ (op = 2 ∧ axes.length ≠ 1)) → ends 0xD00A) ∧
      (axes ≠ [] → (op = 2 → axes.length = 1) → (∃ m ∈ axes, (s.dev.stepper m).on = false) → ends 0xD00B) ∧
      (ready →
        (op = 1 → axReplace e = false → s.dev.axBusy (axMask e) = false → unhomed → ends 0xD00C) ∧
        (op = 1 → axReplace e = false → s.dev.axBusy (axMask e) = false → ¬ unhomed → towards → ends 0xD00D) ∧
        (op = 4 → ¬ idle → ends 0xD00E) ∧
        (op = 4 → idle → ∃ t, exec c s = .next t ∧ (e.noDone = false → t.dev.hasDone e 0 = true) ∧
          t.dev.axs.moves = s.dev.axPlan.axs.moves ∧ ∀ m, m < 8 →
            (m ∈ axes → t.dev.stepper m = { s.dev.stepper m with p := axValue e m * ustep, pNext := axValue e m * ustep,
                                                                 pos := axValue e m, goal := axValue e m, homed := true }) ∧
            (m ∉ axes → t.dev.stepper m = s.dev.axPlan.stepper m)) ∧
        (op = 3 → s.dev.axBusy (axMask e) = false → ends 0) ∧
        (op = 3 → s.dev.axBusy (axMask e) = true → ∃ t, exec c s = .next t ∧ t.dev.axs.stops = s.dev.axs.stops ++ [e] ∧
          (∀ m, m < 8 → t.dev.stepper m = { s.dev.stepper m with pNext := (t.dev.stepper m).pNext }) ∧
          ∀ x ∈ s.dev.axs.moves,
            (axes.any (bitOf x.mask) = true → x.cause = 0 →
              ({ x with decel := max x.decel (if axEmerg e = true then x.edec else x.dec), cause := 0xD008,
                        causeTick := s.dev.axs.tick } : AxMove).replan late ∈ t.dev.axs.moves) ∧
            (axes.any (bitOf x.mask) = false → x.replan late ∈ t.dev.axs.moves))))) ∧
  ((∀ (s : State) (src : Source) (m : Nat) (v : W64), s.dev.mainUp = true → s.dev.regs.wf = true → m < 8 →
    let a := s.dev.stepper m
    let stored := fun (c : Instr) => ∃ t, exec c s = .next t ∧ KeepsS [.rw, .shadow, .w1c] false s t ∧
      ∀ f ∈ Reg.AXS_AXIS_CFG.fields, f.acc = .rw → t.dev.cur f m = f.of v
    let refused := fun (c : Instr) => ∃ t, exec c s = .next t ∧ KeepsS [.w1c] false s t ∧ t.dev.flag Reg.AXS_STATUS_REFUSED = 1
    let changed := s.dev.changes Reg.AXS_AXIS_CFG [Reg.AXS_AXIS_CFG_EN] v m = true
    (Reg.AXS_AXIS_CFG_EN.of v = 1 → s.dev.cur Reg.AXS_AXIS_CFG_EN m = 0 →
      (axCfgOk v = true → a.on = false → s.dev.tmb.run = true → stored (.stepperEnable src m v)) ∧
      ((axCfgOk v = false ∨ (a.on = false ∧ s.dev.tmb.run = false) ∨ (a.on = true ∧ changed)) → refused (.stepperEnable src m v))) ∧
    (Reg.AXS_AXIS_CFG_EN.of v = 0 → s.dev.cur Reg.AXS_AXIS_CFG_EN m = 1 →
      (axCfgOk v = true → (a.on = false ∨ ¬ changed) → stored (.stepperDisable src m v)) ∧
      ((axCfgOk v = false ∨ (a.on = true ∧ changed)) → refused (.stepperDisable src m v)))) ∧
  (∀ (was : RegFile) (d : Dev) (m : Nat), m < 8 →
    let t := Dev.stepperEdge was d m
    (d.act Reg.AXS_AXIS_CFG_EN m = 1 → d.tmb.run = true → t.stepper m = { d.stepper m with on := true } ∧ t.axs.moves = d.axs.moves) ∧
    (d.act Reg.AXS_AXIS_CFG_EN m ≠ 1 → d.moveOn m = none → t.stepper m = { d.stepper m with on := false } ∧
      t.axs.moves = d.axs.moves) ∧
    (∀ x, (d.stepper m).on = true → d.turnsOff was Reg.AXS_AXIS_CFG_EN m = true → d.moveOn m = some x → x.cause = 0 →
      t.axs.ax = d.axs.ax ∧
      { x with decel := max x.decel x.dec, cause := 0xD009, causeTick := d.axs.tick } ∈ t.axs.moves)))

/-- R457, R458, R459, R460, R463, R466, R468: a MOVE of resting axes that passes its checks plans one move, led by the axis with the longest
way, from rest, by its profile, and the planner fixes where its axes are at the next tick; while an axis of it moves it waits. A HOME plans a
seek in its direction, off the switch first where HOME is asserted. A REPLACE of one axis's own move, with its new end still in reach, takes
over its speed, and the move it replaces is superseded. Steps keep STEP_W of each level and DIR_GAP from every change of DIR.
The model's choices in it: log entries 93 and 94.
R456, R457, R464, R471, R472: at each profile tick the moves and their axes reach what the planner fixed at the last, and the planner fixes
the next; one that has come to its end completes with its cause, or with success. A tick that the planner missed keeps the speed and is
reported. A move never passes its end, and never speeds up faster than its profile allows.
The model's choices in it: log entry 93. -/
def Obligations.AxisMoves : Prop :=
  ((∀ (s : State) (n : Nat) (e : Entry), s.dev.mainUp = true → s.dev.front n 3 1 = some e → s.dev.axDue e = true →
    let axes := axesOf (axMask e)
    let k := axProfile e
    let late := s.dev.axs.late
    axes ≠ [] → (∀ m ∈ axes, (s.dev.stepper m).on = true) → axReplace e = false →
    (s.dev.axBusy (axMask e) = true → ∀ c ∈ [Instr.axsMove n, .axsEntryResume n], exec c s = .next { s with dev := s.dev.axPlan }) ∧
    (s.dev.axBusy (axMask e) = false → s.dev.axCheck34 e = none → (∀ m ∈ axes, s.dev.act Reg.AXS_AXIS_CFG_VLIM_EN m ≠ 1) →
      (∃ m ∈ axes, s.dev.moveTarget e m ≠ (s.dev.stepper m).p) → ∀ c ∈ [Instr.axsMove n, .axsEntryResume n], ∃ (t : State) (x : AxMove), exec c s = .next t ∧
        x.replan late ∈ t.dev.axs.moves ∧ (∀ y ∈ s.dev.axs.moves, y.replan late ∈ t.dev.axs.moves) ∧
        (∀ m, m < 8 → t.dev.stepper m = { s.dev.stepper m with pNext := (t.dev.stepper m).pNext } ∧
          (m ∈ axes → (t.dev.stepper m).pNext = (x.advance late).place m)) ∧
        x.entry = some e ∧ x.mask = axMask e ∧ x.home = none ∧ x.v = 0 ∧ x.s = 0 ∧ x.soft = false ∧ x.len = x.full ∧ 0 < x.full ∧
        (at' x.dist x.lead).natAbs = x.full ∧ x.lead ∈ axes ∧
        x.vmax = s.dev.eff Reg.AXS_PROF0_VMAX k * 5000000 ∧ x.acc = s.dev.eff Reg.AXS_PROF0_ACC k * 25 ∧
        x.dec = s.dev.eff Reg.AXS_PROF1_DEC k * 25 ∧ x.edec = s.dev.eff Reg.AXS_PROF1_EDEC k * 25 ∧
        ∀ m, m < 8 → at' x.start m = (s.dev.stepper m).p ∧ (at' x.dist m).natAbs ≤ x.full ∧
          (m ∈ axes → at' x.dist m = s.dev.moveTarget e m - (s.dev.stepper m).p) ∧ (m ∉ axes → at' x.dist m = 0))) ∧
  (∀ (s : State) (n m : Nat) (e : Entry), s.dev.mainUp = true → s.dev.front n 3 2 = some e → s.dev.axDue e = true →
    axesOf (axMask e) = [m] → (s.dev.stepper m).on = true → s.dev.axBusy (axMask e) = false → s.dev.axCheck34 e = none →
    ∀ c ∈ [Instr.home n, .axsEntryResume n], ∃ (t : State) (x : AxMove), exec c s = .next t ∧
      t.dev.axs.moves = s.dev.axPlan.axs.moves ++ [x.replan s.dev.axs.late] ∧
      (∀ k, k < 8 → t.dev.stepper k = { s.dev.stepper k with pNext := (t.dev.stepper k).pNext }) ∧
      x.entry = some e ∧ x.lead = m ∧ x.v = 0 ∧ x.s = 0 ∧
      x.home = some { phase := if s.dev.homeOn m = true then .away else .seek, plus := axHdir e, homePos := axValue e m }) ∧
  (∀ (s : State) (n m : Nat) (e o : Entry) (x : AxMove), s.dev.mainUp = true → s.dev.front n 3 1 = some e → s.dev.axDue e = true →
    axesOf (axMask e) = [m] → (s.dev.stepper m).on = true → axReplace e = true → s.dev.axs.moves = [x] → x.mask = axMask e →
    x.entry = some o → x.home = none → x.decel = 0 → s.dev.axs.waiting = [] → s.dev.axCheck34 e = none →
    let y := s.dev.planMove e
    let ahead := (at' x.dist x.lead < 0 ↔ at' y.dist y.lead < 0) ∧ 0 < y.len ∧ x.v * x.v ≤ y.len * y.dec
    (ahead → ∃ t, exec (.axsMove n) s = .next t ∧ t.dev.hasDone o 0xD007 = true ∧
      t.dev.axs.moves = [({ y with v := x.v } : AxMove).replan s.dev.axs.late] ∧ t.dev.axs.waiting = []) ∧
    (¬ ahead → ∃ t, exec (.axsMove n) s = .next t ∧ t.dev.hasDone o 0xD007 = true ∧ t.dev.axs.waiting = [e] ∧
      ∃ z, t.dev.axs.moves = [z] ∧ z.entry = none ∧ z.decel = x.dec ∧ z.v = x.v ∧ z.s = x.s)) ∧
  (∀ (d : Dev) (m : Nat), m < 8 →
    let a := d.stepper m
    let w : Int := d.act Reg.AXS_AXIS_CFG_STEP_W m
    let gap : Int := d.act Reg.AXS_AXIS_CFG_DIR_GAP m
    let turned := (d.axTurn m).stepper m
    let stepped := (d.axStep m).stepper m
    (turned.dir ≠ a.dir → turned.dirAt = some d.cycleNow ∧ ∀ t, a.stepAt = some t → t ≤ d.cycleNow → t + w + gap ≤ d.cycleNow) ∧
    (stepped.pos ≠ a.pos → stepped.pos = (if a.dir then a.pos + 1 else a.pos - 1) ∧ stepped.stepAt = some d.cycleNow ∧
      (∀ t, a.dirAt = some t → t ≤ d.cycleNow → t + gap ≤ d.cycleNow) ∧
      ∀ t, a.stepAt = some t → t ≤ d.cycleNow → t + 2 * w ≤ d.cycleNow) ∧
    (∀ t, a.stepAt = some t → t ≤ d.cycleNow → ((d.axPins m).1 = true ↔ d.cycleNow < t + w)))) ∧
  ((∀ (s : State) (late : Bool), s.dev.mainUp = true →
    (s.dev.tmb.run = false ∨ s.dev.tmb.cycle ≠ 0 ∨ s.dev.beatMultiple 100 = false ∨ s.dev.axs.tick = s.dev.beatWide) →
    exec (.profileTick late) s = .next s) ∧
  (∀ (s : State) (x : AxMove) (e : Entry) (late : Bool), s.dev.mainUp = true → s.dev.tmb.run = true → s.dev.tmb.cycle = 0 →
    s.dev.beatMultiple 100 = true → s.dev.axs.tick ≠ s.dev.beatWide → s.dev.axs.moves = [x] → s.dev.axs.stops = [] →
    s.dev.axs.waiting = [] → x.home = none → x.entry = some e → x.mask < 256 →
    let x' := x.reach
    let code := if x.cause ≠ 0 then x.cause else if x.soft = true then 0xD001 else 0
    ∃ t, exec (.profileTick late) s = .next t ∧ t.dev.axs.tick = s.dev.beatWide ∧ t.dev.axs.late = late ∧
      (∀ m, m < 8 → (t.dev.stepper m).p = (s.dev.stepper m).pNext ∧ (t.dev.stepper m).pos = (s.dev.stepper m).pos ∧
        (t.dev.stepper m).pNext = if x'.resting = false ∧ m ∈ axesOf x.mask then (x'.advance late).place m
          else (s.dev.stepper m).pNext) ∧
      (late = true → t.dev.hasEvent 0xD00F x.mask = true) ∧
      (x'.resting = false → t.dev.axs.moves = [x'.replan late]) ∧
      (x'.resting = true → t.dev.axs.moves = [] ∧ (code ≠ 0 ∨ e.noDone = false → t.dev.hasDone e code = true))) ∧
  (∀ (x : AxMove), x.home = none → x.s ≤ x.len →
    (∀ late, x.s ≤ (x.advance late).s ∧ (x.advance late).s ≤ x.len ∧ (x.advance true).v ≤ x.v) ∧
    (x.decel = 0 → (x.advance false).v ≤ max (x.v - x.dec) (min (x.v + x.acc) x.vmax)) ∧
    (x.decel ≠ 0 → (x.advance false).v ≤ x.v - x.decel)))

/-- R467, R468, R469: an input's level counts once it may have stood for its qualification time. A limit input that is qualified asserted
stops the move of its enabled axis at the emergency deceleration and takes its HOMED away, and is reported; one that deasserts is only noted.
HOME qualified in a seek latches the position and slows the axis; in the way off the switch it is the loss of HOME that does. HOME lost before
rest, or HOME_MAX passed in the seek, stops the homing with its own code.
The model's choices in it: log entries 93 and 94. -/
def Obligations.AxisInputs : Prop :=
  (∀ (s : State) (m : Nat) (plus level : Bool), s.dev.mainUp = true → m < 8 →
    let a := s.dev.stepper m
    let now := s.dev.cycleNow
    let held := s.dev.heldTicks (if plus then a.limPAt else a.limNAt) (s.dev.act Reg.AXS_AXIS_CFG_LIM_QUAL m)
    let noted := if plus then { a with limP := level, limPAt := now } else { a with limN := level, limNAt := now }
    let asserted := level ≠ s.dev.on Reg.AXS_AXIS_CFG_LIM_POL m
    ((s.dev.tmb.run = false ∨ (if plus then a.limP else a.limN) = level ∨ held = false) →
      exec (.limitQualified m plus level) s = .next s) ∧
    (s.dev.tmb.run = true → (if plus then a.limP else a.limN) ≠ level → held = true →
      ((¬ asserted ∨ a.on = false) → ∃ t, exec (.limitQualified m plus level) s = .next t ∧ KeepsS [.axs] false s t ∧
        t.dev.stepper m = noted ∧ t.dev.axs.moves = s.dev.axs.moves) ∧
      (asserted → a.on = true → s.dev.moveOn m = none → ∃ t, exec (.limitQualified m plus level) s = .next t ∧
        t.dev.stepper m = noted ∧ t.dev.hasEvent 0xD002 (2 ^ m) = true ∧ t.dev.axs.moves = s.dev.axs.moves) ∧
      (∀ x, asserted → a.on = true → s.dev.moveOn m = some x → x.mask < 256 → x.cause = 0 →
        ∃ t, exec (.limitQualified m plus level) s = .next t ∧ t.dev.stepper m = { noted with homed := false } ∧
          t.dev.hasEvent 0xD002 x.mask = true ∧
          { x with decel := max x.decel x.edec, cause := if x.home.isSome then 0xD004 else 0xD002, causeTick := s.dev.axs.tick }
            ∈ t.dev.axs.moves))) ∧
  (∀ (s : State) (m : Nat) (level : Bool) (latch : W32), s.dev.mainUp = true → m < 8 →
    let a := s.dev.stepper m
    let held := s.dev.heldTicks a.homeAt (s.dev.act Reg.AXS_AXIS_CFG_HOME_QUAL m)
    let noted := { a with homeIn := level, homeAt := s.dev.cycleNow }
    let asserted := level ≠ s.dev.on Reg.AXS_AXIS_CFG_HOME_POL m
    ((s.dev.tmb.run = false ∨ a.homeIn = level ∨ held = false) → exec (.homeQualified m level latch) s = .next s) ∧
    (s.dev.tmb.run = true → a.homeIn ≠ level → held = true →
      (s.dev.moveOn m = none → ∃ t, exec (.homeQualified m level latch) s = .next t ∧ KeepsS [.axs] false s t ∧
        t.dev.stepper m = noted ∧ t.dev.axs.moves = s.dev.axs.moves) ∧
      (∀ x h, s.dev.moveOn m = some x → x.home = some h → x.decel = 0 →
        (asserted → h.phase = .seek → ∃ t, exec (.homeQualified m level latch) s = .next t ∧ KeepsS [.axs] false s t ∧
          t.dev.stepper m = { noted with latch := latch.toInt } ∧
          { x with decel := x.dec, home := some { h with phase := .seekStop } } ∈ t.dev.axs.moves) ∧
        (¬ asserted → h.phase = .away → ∃ t, exec (.homeQualified m level latch) s = .next t ∧ KeepsS [.axs] false s t ∧
          t.dev.stepper m = noted ∧
          { x with decel := x.dec, home := some { h with phase := .awayStop } } ∈ t.dev.axs.moves)))) ∧
  (∀ (s : State) (m : Nat), s.dev.mainUp = true → m < 8 →
    let lim := s.dev.act Reg.AXS_AXIS_HOME_HOME_MAX m
    ((∀ x ∈ s.dev.axs.moves, bitOf x.mask m = true → x.home = none) →
      exec (.homeInputDeassert m) s = .next s ∧ exec (.homeMaxReached m) s = .next s) ∧
    (∀ x h, s.dev.moveOn m = some x → x.home = some h → x.cause = 0 →
      (h.phase = .seekStop → ∃ t, exec (.homeInputDeassert m) s = .next t ∧ KeepsS [.axs] false s t ∧ t.dev.axs.ax = s.dev.axs.ax ∧
        { x with decel := max x.decel x.dec, cause := 0xD003, causeTick := s.dev.axs.tick } ∈ t.dev.axs.moves) ∧
      (h.phase = .seek → x.decel = 0 → lim ≠ 0 → lim * 2000000000000 ≤ x.s → ∃ t, exec (.homeMaxReached m) s = .next t ∧
        KeepsS [.axs] false s t ∧ t.dev.axs.ax = s.dev.axs.ax ∧
        { x with decel := x.dec, cause := 0xD005, causeTick := s.dev.axs.tick } ∈ t.dev.axs.moves)) ∧
    ((∀ x ∈ s.dev.axs.moves, bitOf x.mask m = true → x.s < lim * 2000000000000) → exec (.homeMaxReached m) s = .next s))

/-- R471: of the stop causes that fall on one move the largest deceleration governs; the move keeps its first cause, or of one tick the
first in the rule's ranking, and completes with its code. -/
def Obligations.StopCauses : Prop :=
  let ranking := [0xD002, 0xD004, 0xD008, 0xD009, 0xD007]
  (∀ (x : AxMove) (tick : Int) (code rate : Nat),
    let y := x.stop tick code rate
    y.decel = max x.decel rate ∧ (x.cause = 0 → y.cause = code ∧ y.causeTick = tick) ∧
      (x.cause ≠ 0 → x.causeTick ≠ tick → y.cause = x.cause ∧ y.causeTick = x.causeTick)) ∧
  (∀ (x : AxMove) (rate i j : Nat), i < j → j < 5 →
    (x.cause = ranking.getD i 0 → (x.stop x.causeTick (ranking.getD j 0) rate).cause = ranking.getD i 0) ∧
    (x.cause = ranking.getD j 0 → (x.stop x.causeTick (ranking.getD i 0) rate).cause = ranking.getD i 0)) ∧
  (∀ (d : Dev) (x : AxMove) (e : Entry), x.entry = some e → x.cause ≠ 0 → (d.moveRests x).hasDone e x.cause = true)

/-! ## Lighting, thermal sensors and calibration -/

/-- R482: at the boundary where it acts, LIGHT_SET sets the duties of its channels, LIGHT_LOAD those of every channel from host memory, and
LIGHT_GROUP_OFF those of the strings and cells of its groups to 0; every other duty stands. Channels that do not exist, a misaligned address
or a duty for an unused index make BAD_LIGHT and change nothing; a read that fails is a fetch error. Off its boundary an entry waits.
The model's choices in it: log entry 96.
R20, R483, R484, R490, R491, R493, R496: writes of EN are stored, and the boost starts at VMAX at the beat edge that finds EN set; a write
out of range or that moves the frame while lit is refused. An output out of its range latches BOOST_FAULT, which is reported, and a 1 written to it
clears the latch and restarts the boost. CLEAR takes a FAILED channel back to OFF, and its group is lit again when none of it is FAILED.
The model's choices in it: log entries 16 and 96. -/
def Obligations.LightingControl : Prop :=
  (∀ (s : State) (n : Nat) (e : Entry), s.dev.mainUp = true →
    (s.dev.lightNext n 1 = none → exec (.lightSet n) s = .next s) ∧
    (s.dev.lightNext n 2 = none → ∀ rd, exec (.lightLoad n rd) s = .next s) ∧
    (s.dev.lightNext n 3 = none → exec (.lightGroupOff n) s = .next s) ∧
    (s.dev.lightNext n 1 = some e →
      let first := e.f 1 6 0
      let count := e.f 1 12 8
      let good := 1 ≤ count ∧ count ≤ 24 ∧ ∀ k, k < count → lightUsed (first + k) = true
      (¬ good → ∃ t, exec (.lightSet n) s = .next t ∧ t.dev.hasDone e 0xE009 = true ∧ t.dev.lgt = s.dev.lgt) ∧
      (good → ∃ t, exec (.lightSet n) s = .next t ∧ KeepsS [.merge, .hst, .lgt] false s t ∧
        (e.noDone = false → t.dev.hasDone e 0 = true) ∧
        (∀ k, k < count → (t.dev.light (first + k)).duty = e.f (2 + k / 4) (16 * (k % 4) + 15) (16 * (k % 4))) ∧
        ∀ i, i < 96 → (i < first ∨ first + count ≤ i) → t.dev.light i = s.dev.light i)) ∧
    (s.dev.lightNext n 2 = some e →
      let a := (e.w 1).toNat
      let v := fun (bs : List Byte) (i : Nat) => leNat ((bs.drop (2 * i)).take 2)
      (∀ rd, a % 64 ≠ 0 → ∃ t, exec (.lightLoad n rd) s = .next t ∧ t.dev.hasDone e 0xE009 = true ∧ t.dev.lgt = s.dev.lgt) ∧
      (∀ rd, a % 64 = 0 → s.dev.canRequest = false → exec (.lightLoad n rd) s = .next s) ∧
      (∀ bs, a % 64 = 0 → s.dev.canRequest = true → (∀ i, i < 96 → lightUsed i = false → v bs i = 0) →
        ∃ t, exec (.lightLoad n (.ok bs)) s = .next t ∧ s.says t (.hostRead a 192) ∧ (e.noDone = false → t.dev.hasDone e 0 = true) ∧
          ∀ i, i < 96 → t.dev.light i = if lightUsed i = true then { s.dev.light i with duty := v bs i } else s.dev.light i) ∧
      (∀ bs, a % 64 = 0 → s.dev.canRequest = true → (∃ i, i < 96 ∧ lightUsed i = false ∧ v bs i ≠ 0) →
        ∃ t, exec (.lightLoad n (.ok bs)) s = .next t ∧ t.dev.hasDone e 0xE009 = true ∧ t.dev.lgt = s.dev.lgt) ∧
      (∀ got, a % 64 = 0 → s.dev.canRequest = true → ∃ t, exec (.lightLoad n (.fail got)) s = .next t ∧
        t.dev.hasDone e 0x1006 = true ∧ t.dev.lgt = s.dev.lgt)) ∧
    (s.dev.lightNext n 3 = some e → ∃ t, exec (.lightGroupOff n) s = .next t ∧
      KeepsS [.merge, .hst, .lgt] false s t ∧ (e.noDone = false → t.dev.hasDone e 0 = true) ∧
      ∀ i, i < 96 →
        ((lightUsed i = true ∧ isBeacon i = false ∧ bitOf (e.f 1 7 0) (s.dev.act Reg.LGT_CH_GROUP i) = true) →
          t.dev.light i = { s.dev.light i with duty := 0 }) ∧
        (¬ (lightUsed i = true ∧ isBeacon i = false ∧ bitOf (e.f 1 7 0) (s.dev.act Reg.LGT_CH_GROUP i) = true) →
          t.dev.light i = s.dev.light i))) ∧
  ((∀ (s : State) (src : Source) (v : W64), s.dev.mainUp = true → s.dev.regs.wf = true →
    let en := s.dev.cur Reg.LGT_CTL_EN
    let moved := s.dev.cur Reg.LGT_CTL_FRAME_LOG2 ≠ Reg.LGT_CTL_FRAME_LOG2.of v ∨
      s.dev.cur Reg.LGT_CTL_PRE_CYC ≠ Reg.LGT_CTL_PRE_CYC.of v
    (Reg.LGT_CTL_EN.of v = 1 → en = 0 →
      (lgtCtlOk v = true → ∃ t, exec (.lightingEnable src v) s = .next t ∧ KeepsS [.rw, .shadow, .w1c] false s t ∧
        ∀ f ∈ Reg.LGT_CTL.fields, f.acc = .rw → t.dev.cur f = f.of v) ∧
      (lgtCtlOk v = false → ∃ t, exec (.lightingEnable src v) s = .next t ∧ KeepsS [.w1c] false s t ∧
        t.dev.flag Reg.LGT_STATUS_REFUSED = 1)) ∧
    (Reg.LGT_CTL_EN.of v = 0 → en = 1 →
      (lgtCtlOk v = true → ¬ moved → ∃ t, exec (.lightingDisable src v) s = .next t ∧ KeepsS [.rw, .shadow, .w1c] false s t ∧
        t.dev.cur Reg.LGT_CTL_EN = 0) ∧
      ((lgtCtlOk v = false ∨ moved) → ∃ t, exec (.lightingDisable src v) s = .next t ∧ KeepsS [.w1c] false s t ∧
        t.dev.flag Reg.LGT_STATUS_REFUSED = 1)) ∧
    (Reg.LGT_STATUS_BOOST_FAULT.of v = 1 → ∃ t, exec (.boostFaultClear src v) s = .next t ∧
      KeepsS [.rw, .shadow, .w1c, .lgt] false s t ∧ t.dev.boostFault = false ∧
      t.dev.lgt = if s.dev.boostFault = true then
          { s.dev.lgt with vset := s.dev.act Reg.LGT_BOOST_VMAX, boostAt := s.dev.beatWide, litRun := 0, highRun := 0 }
        else s.dev.lgt)) ∧
  (∀ (was : RegFile) (d : Dev),
    (d.turnsOn was Reg.LGT_CTL_EN = true → (d.lightEdge was).lgt =
      { d.lgt with vset := d.act Reg.LGT_BOOST_VMAX, boostAt := d.beatWide, litRun := 0, highRun := 0 }) ∧
    (d.turnsOn was Reg.LGT_CTL_EN = false → d.lightEdge was = d)) ∧
  (∀ (s : State) (beyond : Bool), s.dev.mainUp = true →
    let hit := s.dev.on Reg.LGT_CTL_EN = true ∧ s.dev.boostFault = false ∧
      (if beyond = true then 4 ≤ s.dev.beatWide - s.dev.lgt.boostAt else s.dev.lgt.litRun = 16)
    (hit → ∃ t, exec (.boostOutOfRange beyond) s = .next t ∧ KeepsS [.w1c, .merge, .log] false s t ∧
      t.dev.boostFault = true ∧ t.dev.hasEvent 0xE006 0 = true) ∧
    (¬ hit → exec (.boostOutOfRange beyond) s = .next s)) ∧
  (∀ (s : State) (src : Source) (i : Nat) (v : W64), s.dev.mainUp = true → i < 96 → lightUsed i = true →
    Reg.LGT_CH_CLEAR.of v = 1 →
    let x := s.dev.light i
    let j := s.dev.act Reg.LGT_CH_GROUP i
    (x.on ≠ 0 → s.dev.changes Reg.LGT_CH [] v i = true → ∃ t, exec (.lightClear src i v) s = .next t ∧ KeepsS [.w1c] false s t ∧
      t.dev.flag Reg.LGT_STATUS_REFUSED = 1) ∧
    ((x.on = 0 ∨ s.dev.changes Reg.LGT_CH [] v i = false) →
      (x.st ≠ 2 → ∃ t, exec (.lightClear src i v) s = .next t ∧ KeepsS [.rw, .shadow, .w1c] false s t) ∧
      (x.st = 2 → ∃ t, exec (.lightClear src i v) s = .next t ∧ KeepsS [.rw, .shadow, .w1c, .lgt] false s t ∧
        t.dev.light i = { x with st := 0, cause := 0, fails := 0, passAt := none } ∧
        (∀ k, k < 96 → k ≠ i → t.dev.light k = s.dev.light k) ∧
        (isBeacon i = false → (∀ k, k < 96 → k ≠ i → lightUsed k = true → isBeacon k = false →
            s.dev.act Reg.LGT_CH_GROUP k = j → (s.dev.light k).st ≠ 2) → bitOf t.dev.lgt.groupOff j = false)))))

/-- R480, R481, R485, R486, R487, R490, R491, R492, R499: at a frame boundary, and nowhere else, a frame is counted and each channel takes its
ON time: its duty times its window, and 0 where it is dark; a late frame is reported. A diagnosis whose current is too low fails
the channel OPEN once FAIL_QUAL of them came in a row, which is reported, for a beacon twice. An NTC input gives its temperature and gain,
and one out of range gain 1 and one report, once in 16 frames. In a line slot's pre-charge every row is open, the row before discharged and
the columns are held; then its row alone is closed.
The model's choices in it: log entries 95, 96 and 122. -/
def Obligations.LightFrames : Prop :=
  (∀ (s : State) (tests : List SinkTest) (late : Bool), s.dev.mainUp = true →
    (s.dev.frameDue = false → exec (.lightFrame tests late) s = .next s) ∧
    (s.dev.frameDue = true → ∃ t, exec (.lightFrame tests late) s = .next t ∧ t.dev.lgt.count = s.dev.lgt.count + 1 ∧
      t.dev.lgt.lit = s.dev.on Reg.LGT_CTL_EN ∧
      t.dev.lgt.frame = s.dev.beatWide ∧ (late = true → t.dev.hasEvent 0xE00A 0 = true) ∧
      (s.dev.on Reg.LGT_CTL_EN = false → ∀ i, i < 96 → (t.dev.light i).on = 0))) ∧
  (∀ (s : State) (i : Nat), s.dev.mainUp = true → s.dev.frameDue = true → i < 96 → lightUsed i = true → isBeacon i = false →
    s.dev.on Reg.LGT_CTL_EN = true → (s.dev.light i).st ≠ 2 → s.dev.lightDown i = false → s.dev.on Reg.LGT_CTL_STRETCH_EN = false →
    (s.dev.light i).left = 0 → s.dev.on Reg.LGT_CH_COMP_EN i = false →
    ∃ t, exec (.lightFrame [] false) s = .next t ∧
      (t.dev.light i).on = min ((s.dev.light i).duty * s.dev.lightWindow i / 65536) (s.dev.lightWindow i)) ∧
  (∀ (s : State) (i : Nat) (x : SinkTest), s.dev.mainUp = true → s.dev.frameDue = true → i < 96 → lightUsed i = true → x.ch = i →
    (s.dev.light i).tested = true → (s.dev.light i).st ≠ 2 → x.current < 250 * s.dev.act Reg.LGT_CH_I_SET i →
    s.dev.act Reg.LGT_CTL_FAIL_QUAL ≤ (s.dev.light i).fails + 1 → ∃ t, exec (.lightFrame [x] false) s = .next t ∧
      (t.dev.light i).st = 2 ∧ (t.dev.light i).cause = 1 ∧ (t.dev.light i).on = 0 ∧ t.dev.hasEvent 0xE001 i = true ∧
      (isBeacon i = true → t.dev.hasEvent 0xE005 i = true) ∧
      (isBeacon i = false → bitOf (s.dev.act Reg.LGT_CTL_GROUP_FAIL_OFF) (s.dev.act Reg.LGT_CH_GROUP i) = true →
        bitOf s.dev.lgt.groupOff (s.dev.act Reg.LGT_CH_GROUP i) = false → t.dev.hasEvent 0xE008 i = true)) ∧
  (∀ (s : State) (c r : Nat), s.dev.mainUp = true → c < 4 →
    let frame := s.dev.beatWide / 2 ^ s.dev.act Reg.LGT_CTL_FRAME_LOG2
    let due := s.dev.tmb.run = true ∧ s.dev.frameNumber % 16 = 0 ∧ s.dev.frameDue = false ∧ at' s.dev.lgt.ntcAt c ≠ frame
    (¬ due → exec (.ntcConversion c r) s = .next s) ∧
    (due →
      ((r < 100 ∨ 1000000 < r) → ∃ t, exec (.ntcConversion c r) s = .next t ∧ KeepsS [.merge, .lgt, .log] false s t ∧
        at' t.dev.lgt.gain c = 2 ^ 32 ∧ bitOf t.dev.lgt.ntcBad c = true ∧
        (bitOf s.dev.lgt.ntcBad c = false → t.dev.hasEvent 0xE007 c = true)) ∧
      (100 ≤ r → r ≤ 1000000 → ∃ t T, exec (.ntcConversion c r) s = .next t ∧ KeepsS [.freeCount, .lgt] false s t ∧
        at' t.dev.lgt.temp c = T ∧ at' t.dev.lgt.gain c = s.dev.ntcGain c T ∧ bitOf t.dev.lgt.ntcBad c = false ∧
        ∀ T', ntcTemp r (10 * s.dev.eff Reg.LGT_NTC_R26 c) (s.dev.eff Reg.LGT_NTC_BETA c) = some T' → T = T'))) ∧
  (∀ (d : Dev), d.matrixRuns = true →
    (d.preCharge = true → (∀ r, d.rowClosed r = false) ∧
      d.columnHeld = some (d.lgt.vset - d.act Reg.LGT_CTL_PRE_OFS) ∧
      ∀ r, r < 8 → d.lineSlot < 8 → (d.rowGrounded r = true ↔ r = if d.lineSlot = 0 then 7 else d.lineSlot - 1)) ∧
    (d.preCharge = false → d.columnHeld = none ∧ ∀ r, (d.rowClosed r = true ↔ r = d.lineSlot) ∧ d.rowGrounded r = false))

/-- R500, R501, R502, R505, R512: what a sample of a sensor that is due does, by its state: warning, throttle request with its grace, enforcement, release
below a threshold less the hysteresis, and the fault of a reading out of range, each reported. A reading at SHUT with SHUT_EN latches the
shutdown: the main domain is held in reset, and the log has the event. The end of the grace enforces the throttle. A thermistor's reading
follows from its resistance.
The model's choices in it: log entries 95, 97 and 98. -/
def Obligations.ThermalSamples : Prop :=
  (∀ (s : State) (n : Nat) (r : Option Int), (24 ≤ n ∨ (s.dev.sensor n).st = .off ∨ s.dev.pwr.standby = false ∨ s.dev.sampleDue n = false) →
    exec (.thermalSample n r) s = .next s) ∧
  (∀ (s : State) (n : Nat) (raw : Option Int) (T : Int), n < 24 → s.dev.mainUp = true → s.dev.pwr.standby = true →
    s.dev.sampleDue n = true → (s.dev.sensor n).fault = false → (s.dev.sensorTemp n raw).1 = some T →
    (16 ≤ n ∨ (-640 ≤ T ∧ T ≤ 2400)) →
    let x := s.dev.sensor n
    let warn := s.dev.thresh Reg.THM_SENS_THRESH_WARN n
    let throt := s.dev.thresh Reg.THM_SENS_THRESH_THROT n
    let shut := s.dev.thresh Reg.THM_SENS_THRESH_SHUT n
    let hyst : Int := s.dev.cur Reg.THM_SENS_THRESH_HYST n
    let stop := shut ≤ T ∧ s.dev.cur Reg.THM_SENS_CFG_SHUT_EN n = 1
    let goes := fun (st : SensState) (code detail : Nat) => ∃ t, exec (.thermalSample n raw) s = .next t ∧
      KeepsS [.cnt, .merge, .freeCount, .thm, .log] false s t ∧ (t.dev.sensor n).st = st ∧ (t.dev.sensor n).temp = T ∧
      t.dev.hasEvent code detail = true
    (x.st ≠ .off → stop → s.dev.ev.merge = [] → s.dev.cal.run = none → ∃ t, exec (.thermalSample n raw) s = .next t ∧
      t.dev.thm.latch = true ∧ t.dev.mainUp = false ∧ t.mem = s.mem ∧ ∃ y ∈ t.dev.mgt.log, y.code = 0xF006 ∧ y.detail = n) ∧
    (¬ stop →
      ((x.st = .normal ∨ x.st = .warn) → throt ≤ T → s.dev.cur Reg.THM_CTL_GRACE_MS ≠ 0 → goes .grace 0xF003 n) ∧
      ((x.st = .normal ∨ x.st = .warn) → throt ≤ T → s.dev.cur Reg.THM_CTL_GRACE_MS = 0 → goes .enforced 0xF004 n) ∧
      (x.st = .normal → warn ≤ T → T < throt → goes .warn 0xF001 n) ∧
      (x.st = .normal → T < warn → T < throt → ∃ t, exec (.thermalSample n raw) s = .next t ∧ KeepsS [.cnt, .freeCount, .thm] false s t ∧
        (t.dev.sensor n).st = .normal ∧ (t.dev.sensor n).temp = T) ∧
      (x.st = .warn → T < warn - hyst → T < throt → goes .normal 0xF002 n) ∧
      (x.st = .grace → T < throt - hyst → goes (if T < warn - hyst then .normal else .warn) 0xF005 n) ∧
      (x.st = .enforced → T < throt - hyst → goes (if T < warn - hyst then .normal else .warn) 0xF005 (n + 256)))) ∧
  (∀ (s : State) (n : Nat) (r : Option Int), n < 16 → s.dev.mainUp = true → s.dev.pwr.standby = true → s.dev.sampleDue n = true →
    (s.dev.sensor n).st = .normal → (s.dev.sensor n).fault = false → (∀ T, (s.dev.sensorTemp n r).1 = some T → T < -640 ∨ 2400 < T) → ∃ t, exec (.thermalSample n r) s = .next t ∧
      (t.dev.sensor n).fault = true ∧ (t.dev.sensor n).temp = (s.dev.sensor n).temp ∧ t.dev.hasEvent 0xF007 n = true ∧
      (s.dev.cur Reg.THM_SENS_CFG_FAULT_THROT n ≠ 1 → (t.dev.sensor n).st = .normal) ∧
      (s.dev.cur Reg.THM_SENS_CFG_FAULT_THROT n = 1 → s.dev.cur Reg.THM_CTL_GRACE_MS ≠ 0 →
        (t.dev.sensor n).st = .grace ∧ t.dev.hasEvent 0xF003 n = true)) ∧
  (∀ (s : State) (n : Nat), s.dev.mainUp = true → n < 24 →
    let x := s.dev.sensor n
    let expired := x.st = .grace ∧ (s.dev.cur Reg.THM_CTL_GRACE_MS : Int) * 1000000 * nsUnit ≤ s.dev.pwr.clock - x.graceAt
    (expired → ∃ t, exec (.graceExpiry n) s = .next t ∧ KeepsS [.merge, .thm, .log] false s t ∧
      t.dev.sensor n = { x with st := .enforced } ∧ t.dev.hasEvent 0xF004 n = true) ∧
    (¬ expired → exec (.graceExpiry n) s = .next s)) ∧
  (∀ (d : Dev) (n : Nat) (raw : Option Int),
    let c := d.fastSensor n
    ((16 ≤ n ∨ d.cur Reg.THM_SENS_CFG_TYPE n ≠ 2) → d.sensorTemp n raw = (raw, d)) ∧
    (∀ r T, n < 16 → d.cur Reg.THM_SENS_CFG_TYPE n = 2 → raw = some r →
      ntcTemp r.toNat (10 * d.cur Reg.THM_SENS_CFG_R26 n) (d.cur Reg.THM_SENS_CFG_BETA n) = some T →
      d.sensorTemp n raw = (some ((T + 2 ^ 27) / 2 ^ 28), d)) ∧
    ((d.sensor n).sampledAt = none → d.sampleDue n = true) ∧
    (∀ t, (d.sensor n).sampledAt = some t →
      (d.sampleDue n = true ↔ (if c then 5 else 100) * 1000000 * nsUnit ≤ d.pwr.clock - t)))

/-- R515, R516, R519, R520: a CAL_RUN that is next at an idle unit is accepted when its body is good and the needs of its kind are met, its
fiducial table read and in the field where it has one; otherwise it completes BAD_CAL or with the needs that are unmet. Its first run starts
at a beat group boundary once the work of its channels has ended, and the second when the first is over.
The model's choices in it: log entries 44, 99 and 122.
R517, R518, R521, R522, R523: when the second run is over, values that differ beyond TOL make CAL_DISAGREE with the first of them,
reported, and nothing is applied; values that agree are accepted and counted, written to host memory where RESULT names an
address, and stored on request, which the temperature window may refuse. CAL_RECALL returns the stored result of its kind and unit.
The model's choices in it: log entries 100 and 101. -/
def Obligations.Calibration : Prop :=
  ((∀ (s : State) (n : Nat) (e : Entry), s.dev.mainUp = true → s.dev.front n 8 3 = some e → e.ring = n → n < 64 →
    let kind := e.f 1 3 0
    let unit := e.f 1 15 8
    let marks := e.f 4 31 16
    let unmet := s.dev.calUnmet kind unit + (if s.dev.tmb.run = true then 0 else 2 ^ 31)
    let due := e.sched = false ∨ s.dev.beatAhead e.startBeat = false
    (∀ rd, (s.dev.calBusy = true ∨ s.dev.isNext 8 e = false) → exec (.calRun n rd) s = .next s) ∧
    (s.dev.calBusy = false → s.dev.isNext 8 e = true →
      (∀ rd, calBodyBad e = true → ∃ t, exec (.calRun n rd) s = .next t ∧ KeepsS [.merge, .hst] false s t ∧
        t.dev.hasDone e 0x0304 = true) ∧
      (∀ rd, calBodyBad e = false → ¬ due → exec (.calRun n rd) s = .next s) ∧
      (∀ rd, calBodyBad e = false → due → kind ≠ 4 → kind ≠ 6 →
        (unmet = 0 → ∃ t, exec (.calRun n rd) s = .next t ∧ KeepsS [.hst, .cal] false s t ∧
          t.dev.cal.run = some { entry := e, kind, unit, since := s.dev.beatWide }) ∧
        (unmet ≠ 0 → ∃ t, exec (.calRun n rd) s = .next t ∧ KeepsS [.merge, .hst] false s t ∧ t.dev.hasDone e 0x0303 = true)) ∧
      (calBodyBad e = false → due → (kind = 4 ∨ kind = 6) →
        (∀ rd, s.dev.canRequest = false → exec (.calRun n rd) s = .next s) ∧
        (s.dev.canRequest = true → ∀ bs,
          let table := tableMarks bs marks
          let inside := ∀ c ∈ s.dev.calFields kind unit, ∀ p ∈ table, s.dev.markInField c p = true
          (inside → unmet = 0 → ∃ t, exec (.calRun n (.ok bs)) s = .next t ∧ KeepsS [.out, .hst, .cal] false s t ∧
            s.says t (.hostRead (e.w 3).toNat (8 * marks)) ∧
            t.dev.cal.run = some { entry := e, kind, unit, since := s.dev.beatWide, table }) ∧
          (¬ inside → ∃ t, exec (.calRun n (.ok bs)) s = .next t ∧ t.dev.hasDone e 0x0304 = true ∧ t.dev.cal = s.dev.cal) ∧
          (∃ t, exec (.calRun n (.fail bs)) s = .next t ∧ t.dev.hasDone e 0x1006 = true ∧ t.dev.cal = s.dev.cal))))) ∧
  (∀ (s : State), s.dev.mainUp = true →
    (s.dev.cal.run = none → exec .calMeasurementStart s = .next s) ∧
    (∀ r, s.dev.cal.run = some r →
      (r.phase = .draining →
        let starts := s.dev.tmb.run = true ∧ s.dev.tmb.cycle = 0 ∧ s.dev.beatMultiple 64 = true ∧ s.dev.calUnmet r.kind r.unit = 0 ∧ s.dev.calDrained = true
        (starts → ∃ t, exec .calMeasurementStart s = .next t ∧ KeepsS [.mpm, .cal] false s t ∧
          t.dev.cal.run = some { r with phase := .run1, since := s.dev.beatWide } ∧ (r.kind ≠ 1 → t.dev.mpm = s.dev.mpm)) ∧
        (¬ starts → exec .calMeasurementStart s = .next s)) ∧
      (r.phase = .run1 →
        (calHalf r.kind ≤ s.dev.beatWide - r.since → ∃ t, exec .calMeasurementStart s = .next t ∧ KeepsS [.cal] false s t ∧
          t.dev.cal.run = some { r with phase := .run2, since := r.since + calHalf r.kind }) ∧
        (s.dev.beatWide - r.since < calHalf r.kind → exec .calMeasurementStart s = .next s))))) ∧
  ((∀ (s : State) (r : CalRun) (r1 r2 : List CalPoint), s.dev.mainUp = true → s.dev.cal.run = some r →
    let e := r.entry
    let marks := r.table.length
    let n := calCount r.kind marks
    let tol := s.dev.act Reg.MGT_CAL_TOL_TOL (r.kind - 1)
    let diff := fun i => calDiff r.kind (r1.getD i default) (r2.getD i default)
    let ready := r.phase = .run2 ∧ s.dev.tmb.cycle = 0 ∧ calHalf r.kind ≤ s.dev.beatWide - r.since ∧ (e.w 2 = 0 ∨ s.dev.canRequest = true)
    let c := at' s.dev.cal.counts r.kind
    let ws := s.dev.calRecord r.kind r.unit marks r1 r2
    (¬ ready → exec (.calRunComplete r1 r2) s = .next s) ∧
    (ready → r.kind < 8 → marks ≤ 289 →
      (∀ i, i < n → tol < diff i → (∀ k, k < i → diff k ≤ tol) → ∃ t, exec (.calRunComplete r1 r2) s = .next t ∧
        t.dev.hasDone e 0x0301 = true ∧ t.dev.hasEvent 0x0301 i = true ∧ t.dev.cal.run = none ∧ t.dev.cal.store = s.dev.cal.store ∧
        t.dev.regs.shadow = s.dev.regs.shadow ∧ t.dev.regs.rw = s.dev.regs.rw ∧ t.dev.ev.out = s.dev.ev.out ∧
        at' t.dev.cal.counts r.kind = { c with rejected := min (c.rejected + 1) 0xFFFFFFFF }) ∧
      ((∀ k, k < n → diff k ≤ tol) → r.kind ≠ 6 → e.f 1 16 16 = 0 → ∃ t, exec (.calRunComplete r1 r2) s = .next t ∧
        t.dev.cal.run = none ∧ t.dev.regs.shadow = s.dev.regs.shadow ∧ t.dev.regs.rw = s.dev.regs.rw ∧
        at' t.dev.cal.counts r.kind = { c with accepted := min (c.accepted + 1) 0xFFFFFFFF, last := s.dev.ns } ∧
        t.dev.ev.out = (if e.w 2 = 0 then s.dev.ev.out else .hostWrite (e.w 2).toNat ws :: s.dev.ev.out) ∧
        (e.f 1 17 17 = 0 → t.dev.cal.store = s.dev.cal.store ∧ (e.noDone = false → t.dev.hasDone e 0 = true)) ∧
        (e.f 1 17 17 = 1 → s.dev.windowOk = false → t.dev.cal.store = s.dev.cal.store ∧ t.dev.hasDone e 0x0305 = true) ∧
        (e.f 1 17 17 = 1 → s.dev.windowOk = true → (e.noDone = false → t.dev.hasDone e 0 = true) ∧
          t.dev.cal.store.find? (fun x => x.kind == r.kind && x.unit == r.unit) =
            some { kind := r.kind, unit := r.unit, words := ws })))) ∧
  (∀ (s : State) (r1 r2 : List CalPoint), s.dev.mainUp = true → s.dev.cal.run = none →
    exec (.calRunComplete r1 r2) s = .next s) ∧
  (∀ (s : State) (n : Nat) (e : Entry), s.dev.mainUp = true → s.dev.front n 8 4 = some e → e.ring = n → n < 64 →
    s.dev.calBusy = false → s.dev.isNext 8 e = true →
    let kind := e.f 1 3 0
    let unit := e.f 1 15 8
    let held := s.dev.cal.store.find? (fun x => x.kind == kind && x.unit == unit)
    let bad := e.sched = true ∨ calUnitOk kind unit = false ∨ e.f 2 5 0 ≠ 0
    (bad → ∃ t, exec (.calRecall n) s = .next t ∧ KeepsS [.merge, .hst] false s t ∧ t.dev.hasDone e 0x0304 = true) ∧
    (¬ bad → held = none → ∃ t, exec (.calRecall n) s = .next t ∧ KeepsS [.merge, .hst] false s t ∧
      t.dev.hasDone e 0x0306 = true) ∧
    (∀ x, ¬ bad → held = some x → (e.w 2 = 0 ∨ s.dev.canRequest = true) → e.f 1 16 16 = 0 →
      ∃ t, exec (.calRecall n) s = .next t ∧ KeepsS [.merge, .out, .hst] false s t ∧ (e.noDone = false → t.dev.hasDone e 0 = true) ∧
        t.dev.ev.out = (if e.w 2 = 0 then s.dev.ev.out else .hostWrite (e.w 2).toNat x.words :: s.dev.ev.out))))
end

