-- ==== Sys2Proof/Laws/MemCmd.lean ====
section
/-!
SUPPORT. Every operation that stores to the memories keeps their canonical form, command by command.
-/
namespace Sys2Proof.Machine
set_option linter.all false

theorem foldl_fst_wf {α : Type} (f : Mem × Dev → α → Mem × Dev) (hf : ∀ s x, s.1.wf = true → (f s x).1.wf = true) :
    ∀ (l : List α) (s : Mem × Dev), s.1.wf = true → (l.foldl f s).1.wf = true
  | [], _, h => h
  | x :: t, s, h => foldl_fst_wf f hf t (f s x) (hf s x h)

theorem foldl_wf {α : Type} (f : Mem → α → Mem) (hf : ∀ m x, m.wf = true → (f m x).wf = true) :
    ∀ (l : List α) (m : Mem), m.wf = true → (l.foldl f m).wf = true
  | [], _, h => h
  | x :: t, m, h => foldl_wf f hf t (f m x) (hf m x h)

theorem Mem.wf_bar2Write (d : Dev) {m : Mem} (a : Nat) (bs : List Byte) (ecc : EccRead) (h : m.wf = true) :
    (d.bar2Write m a bs ecc).1.wf = true := by
  unfold Dev.bar2Write
  split
  · exact Mem.wf_putMapped _ _ (Mem.wf_readPartials _ _ _ _ h)
  · exact h

theorem Mem.wf_bar2Read (d : Dev) {m : Mem} (a : Nat) (ecc : EccRead) (h : m.wf = true) : (d.bar2Read m a ecc).1.wf = true := by
  unfold Dev.bar2Read
  dsimp only
  split
  · split <;> exact Mem.wf_readSram d 160 1 (a / 8 * 8) ecc h
  · exact h

theorem Mem.wf_scrubRead (d : Dev) {m : Mem} (a : Nat) (ecc : EccRead) (clash : Bool) (h : m.wf = true) :
    (d.scrubRead m a ecc clash).1.wf = true := by
  unfold Dev.scrubRead
  dsimp only
  repeat' split
  all_goals first | exact h | exact Mem.wf_readSram _ _ _ _ _ h | exact Mem.wf_poison _ (Mem.wf_readSram _ _ _ _ _ h)

theorem Mem.wf_ddrPattern (d : Dev) {m : Mem} (c : Nat) (h : m.wf = true) : (d.ddrPattern m c).1.wf = true := by
  unfold Dev.ddrPattern
  exact foldl_fst_wf _ (fun s _ hs => Mem.wf_putDram _ _ hs) _ _ h

theorem Mem.wf_ddrInitDone (d : Dev) {m : Mem} (c : Nat) (bad : Option (Nat × Nat)) (h : m.wf = true) :
    (d.ddrInitDone m c bad).1.wf = true := by
  unfold Dev.ddrInitDone
  dsimp only
  repeat' split
  all_goals first | exact h | exact Mem.wf_ddrPattern _ _ h

theorem Mem.wf_psetWrite (d : Dev) {m : Mem} (n : Nat) (h : m.wf = true) : (d.psetWrite m n).1.wf = true := by
  unfold Dev.psetWrite
  dsimp only
  repeat' split
  all_goals first | exact h | exact Mem.wf_putMapped _ _ h

theorem Mem.wf_psetLoadData (d : Dev) {m : Mem} (n : Nat) (rd : HostRead) (h : m.wf = true) :
    (d.psetLoadData m n rd).1.wf = true := by
  unfold Dev.psetLoadData
  dsimp only
  repeat' split
  all_goals first | exact h | exact Mem.wf_putMapped _ _ h

theorem Mem.wf_paramCommit (d : Dev) {m : Mem} (h : m.wf = true) : (d.paramCommit m).1.wf = true := by
  unfold Dev.paramCommit
  dsimp only
  repeat' split
  all_goals first | exact h | exact Mem.wf_commitBank h

theorem Mem.wf_brickVerdict (d : Dev) {m : Mem} (k : Nat) (rd : HostRead) (h : m.wf = true) :
    (d.brickVerdict m k rd).1.wf = true := by
  unfold Dev.brickVerdict
  dsimp only
  repeat' split
  all_goals first | exact h | exact Mem.wf_stageBytes _ _ _ h

theorem Mem.wf_remnantHeader {m : Mem} (b : Brick) (r : Resume) (h : m.wf = true) : (m.remnantHeader b r).wf = true := by
  unfold Mem.remnantHeader
  extract_lets a w keep
  exact foldl_wf _ (fun _ _ hm => Mem.wf_putSram _ _ hm) _ _ h

theorem Mem.wf_withRemnants {m : Mem} (old new : Dev) (h : m.wf = true) : (m.withRemnants old new).wf = true := by
  unfold Mem.withRemnants
  refine foldl_wf _ (fun m b hm => ?_) _ _ h
  repeat' split
  all_goals with_reducible first | exact hm | exact Mem.wf_remnantHeader _ _ hm

theorem Mem.wf_fedStaging (d : Dev) {m : Mem} (dev ring : Nat) (h : m.wf = true) : (d.fedStaging m dev ring).1.wf = true := by
  unfold Dev.fedStaging
  dsimp only
  repeat' split
  all_goals first | exact h | exact Mem.wf_stageBytes _ _ _ h

theorem Mem.wf_fedRead (d : Dev) {m : Mem} (key : Nat) (rd : HostRead) (h : m.wf = true) : (d.fedRead m key rd).1.wf = true := by
  unfold Dev.fedRead
  dsimp only
  repeat' split
  all_goals first | exact h | exact Mem.wf_stageBytes _ _ _ h

theorem Mem.wf_gridLoadComplete (d : Dev) {m : Mem} (rd : HostRead) (h : m.wf = true) : (d.gridLoadComplete m rd).1.wf = true := by
  unfold Dev.gridLoadComplete
  dsimp only
  repeat' split
  all_goals first | exact h | exact Mem.wf_putMapped _ _ h | exact Mem.wf_clearValid _ (Mem.wf_putMapped _ _ h)

theorem Mem.wf_writeOut (d : Dev) {m : Mem} (f : CamFrame) (a : Nat) (bs : List Byte) (h : m.wf = true) :
    (d.writeOut m f a bs).1.wf = true := by
  unfold Dev.writeOut
  repeat' split
  all_goals first | exact h | exact Mem.wf_dramPut _ _ _ h

theorem Mem.wf_writeRow (d : Dev) {m : Mem} (f : CamFrame) (row : Nat) (raw val : List Nat) (h : m.wf = true) :
    (d.writeRow m f row raw val).1.wf = true := by
  unfold Dev.writeRow
  refine foldl_fst_wf _ (fun s o hs => ?_) _ _ h
  split
  · exact Mem.wf_writeOut _ _ _ _ hs
  · exact hs

theorem Mem.wf_finishLine (d : Dev) {m : Mem} (e c : Nat) (l : CamLine) (h : m.wf = true) : (d.finishLine m e c l).1.wf = true := by
  unfold Dev.finishLine
  dsimp only
  repeat' split
  all_goals first | exact h | exact Mem.wf_writeRow _ _ _ _ _ h

theorem Mem.wf_engineLine (d : Dev) {m : Mem} (e : Nat) (ecc : EccRead) (h : m.wf = true) : (d.engineLine m e ecc).1.wf = true := by
  unfold Dev.engineLine
  dsimp only
  repeat' split
  all_goals first | exact h | exact Mem.wf_finishLine _ _ _ _ h

theorem Mem.wf_writeFrame (d : Dev) {m : Mem} (c : Nat) (f : CamFrame) (h : m.wf = true) : (d.writeFrame m c f).1.wf = true := by
  unfold Dev.writeFrame
  dsimp only
  refine foldl_fst_wf _ (fun s o hs => ?_) _ _ ?_
  · split
    · exact hs
    · exact Mem.wf_writeOut _ _ _ _ hs
  · have h1 := foldl_fst_wf (fun (s : Mem × Dev) r => s.2.writeRow s.1 f r f.padRaw (List.replicate f.width 0))
      (fun s r hs => Mem.wf_writeRow s.2 f r _ _ hs)
    split
    · exact foldl_fst_wf _ (fun s b hs => Mem.wf_writeOut _ _ _ _ hs) _ _ (h1 _ _ h)
    · exact h1 _ _ h

theorem Mem.wf_frameWriteout (d : Dev) {m : Mem} (c : Nat) (h : m.wf = true) : (d.frameWriteout m c).1.wf = true := by
  unfold Dev.frameWriteout
  dsimp only
  repeat' split
  all_goals first | exact h | exact Mem.wf_writeFrame _ _ _ h

theorem Mem.wf_codecWrite (d : Dev) {m : Mem} (space a : Nat) (bs : List Byte) (h : m.wf = true) :
    (d.codecWrite m space a bs).1.wf = true := by
  unfold Dev.codecWrite
  repeat' split
  all_goals first | exact h | exact Mem.wf_dramPut _ _ _ h

theorem Mem.wf_saveContext (d : Dev) {m : Mem} (e : Entry) (r : CodecResult) (h : m.wf = true) :
    (d.saveContext m e r).1.wf = true := by
  unfold Dev.saveContext
  dsimp only
  repeat' split
  all_goals first | exact h | exact Mem.wf_codecWrite _ _ _ _ h

theorem Mem.wf_codecEnd (d : Dev) {m : Mem} (input : HostRead) (busErr : Option Nat) (h : m.wf = true) :
    (d.codecEnd m input busErr).1.wf = true := by
  unfold Dev.codecEnd
  dsimp only
  split
  · exact h
  · split
    · exact h
    · exact Mem.wf_saveContext _ _ _ (Mem.wf_codecWrite _ _ _ _ h)

theorem Mem.wf_spoil (d : Dev) {m : Mem} (space : Nat) (rs : List (Nat × Nat)) (h : m.wf = true) : (d.spoil m space rs).1.wf = true := by
  unfold Dev.spoil
  split
  · exact h
  · refine foldl_fst_wf _ (fun s r hs => foldl_fst_wf _ (fun s i hs => ?_) _ _ hs) _ _ h
    dsimp only
    repeat' split
    all_goals first | exact hs | exact Mem.wf_dramPut _ _ _ hs | exact Mem.wf_putSram _ _ hs

theorem Mem.wf_moveBad (d : Dev) {m : Mem} (c : Nat) (r : DmaRun) (addr side : Nat) (h : m.wf = true) :
    (d.moveBad m c r addr side).1.wf = true := by
  unfold Dev.moveBad
  dsimp only
  split
  · exact h
  · exact Mem.wf_spoil _ _ _ h

theorem Mem.wf_burstWritten (d : Dev) {m : Mem} (c : Nat) (rd : List Byte) (h : m.wf = true) : (d.burstWritten m c rd).1.wf = true := by
  unfold Dev.burstWritten
  dsimp only
  repeat' split
  all_goals first | exact h | exact Mem.wf_moveBad _ _ _ _ _ h | exact Mem.wf_burstWrite _ _ _ _ _ h

theorem Mem.wf_busError (d : Dev) {m : Mem} (c addr side : Nat) (h : m.wf = true) : (d.busError m c addr side).1.wf = true := by
  unfold Dev.busError
  split
  · exact Mem.wf_moveBad _ _ _ _ _ h
  · exact h

end Sys2Proof.Machine
end

