-- ==== Sys2Proof/WellFormed.lean ====
section
/-!
DEFINITION. Which commands are well formed: every operand lies in the range of what it names. The model's meanings are total; an
ill-formed command names a unit, a place or a field that the XM16 does not have.
-/
namespace Sys2Proof

/-- Why a command is ill formed. -/
inductive Bad where
  /-- an offset outside the window, or misaligned for the access (R3, R17) -/
  | offset
  /-- a block number of 16 or more (R1) -/
  | block
  /-- an island number of 64 or more -/
  | island
  /-- a link speed other than 5, 8 or 16 GT/s (R35) -/
  | pcieSpeed
  /-- a link width other than 1, 2, 4 or 8 lanes (R35) -/
  | pcieWidth
  /-- an address outside the SRAM (R364) -/
  | sramAddress
  /-- a doorbell table that has not 64 entries (R43) -/
  | doorbellTable
  /-- a ring number of 64 or more (R39) -/
  | ring
  /-- a ring entry that has not eight words (R51) -/
  | entryWords
  /-- a laser channel of 16 or more -/
  | channel
  /-- a beacon of 4 or more -/
  | beacon
  /-- a scan axis of 48 or more -/
  | axis
  /-- a camera port of 4 or more -/
  | camera
  /-- a CSI-2 virtual channel of 4 or more -/
  | virtualChannel
  /-- a frame number of more than 16 bits -/
  | frameNumber
  /-- a CSI-2 data type of 64 or more -/
  | dataType
  /-- a pixel of more than 16 bits -/
  | pixels
  /-- a pipeline engine of 2 or more -/
  | engine
  /-- a DMA channel of 32 or more -/
  | dmaChannel
  /-- a DRAM address of more than 64 bits -/
  | dramAddress
  /-- a requester that no block has -/
  | requester
  /-- a DDR channel of 2 or more -/
  | ddrChannel
  /-- a rank of 2 or more -/
  | rank
  /-- a DRAM bank beyond those of the ranks -/
  | bank
  /-- a lane of 32 or more -/
  | lane
  /-- a Beat Link port of 10 or more -/
  | linkPort
  /-- a device number of more than 10 bits (R398) -/
  | device
  /-- an Ethernet port of 2 or more -/
  | ethernet
  /-- a PTP header field wider than its place -/
  | ptpMessage
  /-- a PTP portState of more than 4 bits -/
  | portState
  /-- a capture input of 8 or more -/
  | capture
  /-- a launch slot of 8 or more -/
  | launchSlot
  /-- a stepper axis of 8 or more -/
  | stepper
  /-- a diagnosed sink of 96 or more -/
  | sinkTests
  /-- an NTC input of 4 or more -/
  | thermistor
  /-- a resistance of more than 32 bits, in Ω (R485) -/
  | conversion
  /-- a lighting channel of 96 or more -/
  | light
  /-- a temperature sensor of 24 or more -/
  | sensor
  /-- a PMP header field wider than its place (R529) -/
  | requestHeader
  /-- a COUNT argument of more than 16 bits -/
  | logCount
  /-- a SLOT argument of more than 8 bits -/
  | imageSlot
  /-- a length of more than 32 bits -/
  | length
  /-- a piece index of more than 16 bits -/
  | piece
  /-- an image piece of more than 4 KiB (R535) -/
  | pieceBytes
  /-- a PORT argument of more than 8 bits -/
  | exportPort
  /-- a settings record of more than 4 KiB -/
  | settingsBytes
  deriving DecidableEq, Repr

/-- The bytes of an access to the MSI-X area (R60). -/
def msixBytes (acc : MsixAccess) : Nat := match acc with | .write32 _ | .read32 => 4 | .write64 _ | .read64 => 8

/-- The fields of a PMP header fit their places (R529): an 8-bit source and version, a 32-bit sequence number. -/
def PmpHdr.wf (h : PmpHdr) : Bool := decide (h.src < 256) && decide (h.version < 256) && decide (h.seq < 4294967296)

/-- The fields of a PTP message fit their places: a 4-bit message type, a 16-bit sequence number. -/
def PtpMsg.wf (m : PtpMsg) : Bool := decide (m.kind < 16) && decide (m.seq < 65536)

/-- The checks of a command's operands, in the order of the operands, each with the name of what it refuses. -/
def Instr.checks : Instr → List (Bool × Bad)
  | .registerWrite _ off _ => [(off % 8 = 0 && off < 16777216, .offset)]
  | .lowerHalfWrite _ off _ => [(off % 8 = 0 && off < 16777216, .offset)]
  | .upperHalfWrite _ off _ => [(off % 8 = 4 && off < 16777216, .offset)]
  | .lowerHalfRead _ off => [(off % 8 = 0 && off < 16777216, .offset)]
  | .upperHalfRead _ off => [(off % 8 = 4 && off < 16777216, .offset)]
  | .clockGateEntry blk isl => [(blk < 16, .block), (isl < 64, .island)]
  | .islandOffEntry blk isl => [(blk < 16, .block), (isl < 64, .island)]
  | .islandWake blk isl => [(blk < 16, .block), (isl < 64, .island)]
  | .pcieLinkUp speed width => [([2, 3, 4].contains speed, .pcieSpeed), ([1, 2, 4, 8].contains width, .pcieWidth)]
  | .pcieLinkDown => []
  | .functionLevelReset => []
  | .bar2Write addr _ _ => [(addr < 67108864, .sramAddress)]
  | .bar2Read addr _ => [(addr < 67108864, .sramAddress)]
  | .doorbellPoll => []
  | .doorbellReturn table => [((match table with | some t => t.length == 64 | none => true), .doorbellTable)]
  | .entryArrival ring rd => [(ring < 64, .ring), ((match rd with | .ok ws => ws.length == 8 | _ => true), .entryWords)]
  | .ringEnable _ ring _ => [(ring < 64, .ring)]
  | .ringDisable _ ring _ => [(ring < 64, .ring)]
  | .routeWrite _ blk _ => [(blk < 16, .block)]
  | .completionWrite => []
  | .msixModTimer ring => [(ring < 64, .ring)]
  | .msixTableAccess off acc => [(off % msixBytes acc = 0 && 0x40000 ≤ off && off < 0x41020, .offset)]
  | .psetWrite ring => [(ring < 64, .ring)]
  | .psetLoad ring => [(ring < 64, .ring)]
  | .psetLoadData ring _ => [(ring < 64, .ring)]
  | .psetCommit ring => [(ring < 64, .ring)]
  | .paramCommit => []
  | .brick ring => [(ring < 64, .ring)]
  | .brickVerdict _ _ => []
  | .courseBegin ring => [(ring < 64, .ring)]
  | .courseEnd ring => [(ring < 64, .ring)]
  | .courseAbort ring => [(ring < 64, .ring)]
  | .courseClose => []
  | .abortComplete => []
  | .courseWaitResume ring => [(ring < 64, .ring)]
  | .startBeatReached _ => []
  | .unplaceableTimeout _ => []
  | .standstill => []
  | .starveLimitReached _ => []
  | .hostHold _ _ => []
  | .masonSelection _ => []
  | .assignmentInForce ch => [(ch < 16, .channel)]
  | .plumeGuard _ => []
  | .trailSliceClose ch => [(ch < 16, .channel)]
  | .trailSliceExpire ch => [(ch < 16, .channel)]
  | .holdPass ch => [(ch < 16, .channel)]
  | .plumeHoldTimeout ch => [(ch < 16, .channel)]
  | .masonDrop ch => [(ch < 16, .channel)]
  | .remnantReady _ => []
  | .stopSegmentDone ch => [(ch < 16, .channel)]
  | .brickEnd ch => [(ch < 16, .channel)]
  | .pisteSampleIssue ch _ => [(ch < 16, .channel)]
  | .vectorRefillDone ch _ => [(ch < 16, .channel)]
  | .gridLoad ring => [(ring < 64, .ring)]
  | .gridLoadComplete _ => []
  | .gridSwap ring _ => [(ring < 64, .ring)]
  | .gridSwapEffect ch => [(ch < 16, .channel)]
  | .seamOffer ch => [(ch < 16, .channel)]
  | .channelEnable _ ch _ => [(ch < 16, .channel)]
  | .channelDisable _ ch _ => [(ch < 16, .channel)]
  | .armingComplete ch => [(ch < 16, .channel)]
  | .armingTimeout ch => [(ch < 16, .channel)]
  | .alarmQualified ch _ => [(ch < 16, .channel)]
  | .readyQualified ch _ => [(ch < 16, .channel)]
  | .padReadbackMismatch ch _ _ => [(ch < 16, .channel)]
  | .dacComplianceLoss ch => [(ch < 16, .channel)]
  | .channelFaultClear _ ch _ => [(ch < 16, .channel)]
  | .safeInLow => []
  | .safeInQualified => []
  | .heartbeatBoundary => []
  | .safeKick _ _ => []
  | .kickTimeoutExpiry => []
  | .beaconReport b => [(b < 4, .beacon)]
  | .beaconUnverifiedTimeout ch => [(ch < 16, .channel)]
  | .dacUpdate ch => [(ch < 16, .channel)]
  | .mpmSample ch _ _ _ _ => [(ch < 16, .channel)]
  | .brQualReached ch => [(ch < 16, .channel)]
  | .lowBeatsReached ch => [(ch < 16, .channel)]
  | .satBeatsReached ch => [(ch < 16, .channel)]
  | .velocityTick ax _ _ => [(ax < 48, .axis)]
  | .positionTick ax _ _ => [(ax < 48, .axis)]
  | .currentDecision ax _ _ _ _ => [(ax < 48, .axis)]
  | .perrTicksReached ax => [(ax < 48, .axis)]
  | .stuckBeatsReached ax => [(ax < 48, .axis)]
  | .curSenseCountReached ax => [(ax < 48, .axis)]
  | .posQualReached ax => [(ax < 48, .axis)]
  | .gateReadbackMismatch ax _ => [(ax < 48, .axis)]
  | .acquireTimeoutExpiry ax => [(ax < 48, .axis)]
  | .srvCommitEffect => []
  | .axisEnable _ ax _ => [(ax < 48, .axis)]
  | .axisDisable _ ax _ => [(ax < 48, .axis)]
  | .axisFaultClear _ ax _ => [(ax < 48, .axis)]
  | .cameraPortEnable _ c _ => [(c < 4, .camera)]
  | .cameraPortDisable _ c _ => [(c < 4, .camera)]
  | .frameStart c vc frameNo _ => [(c < 4, .camera), (vc < 4, .virtualChannel), (frameNo < 65536, .frameNumber)]
  | .frameEnd c vc _ => [(c < 4, .camera), (vc < 4, .virtualChannel)]
  | .longPacket c vc dt px _ _ => [(c < 4, .camera), (vc < 4, .virtualChannel), (dt < 64, .dataType), (px.all (fun p => p < 65536), .pixels)]
  | .dphySotError c _ => [(c < 4, .camera)]
  | .camFrameTimeout c => [(c < 4, .camera)]
  | .engineLine e _ => [(e < 2, .engine)]
  | .outputHoldTimeout e => [(e < 2, .engine)]
  | .frameWriteout c => [(c < 4, .camera)]
  | .capArm ring => [(ring < 64, .ring)]
  | .capStop ring => [(ring < 64, .ring)]
  | .tableLoad ring _ => [(ring < 64, .ring)]
  | .compress ring _ => [(ring < 64, .ring)]
  | .decompress ring _ => [(ring < 64, .ring)]
  | .codecJobRun => []
  | .codecJobDone _ _ => []
  | .codecDisable _ _ => []
  | .codecEnable _ _ => []
  | .dmaMove ring => [(ring < 64, .ring)]
  | .dmaEntryStart c => [(c < 32, .dmaChannel)]
  | .dmaBurstWritten c _ => [(c < 32, .dmaChannel)]
  | .dmaBusError c _ _ => [(c < 32, .dmaChannel)]
  | .dmaAbort ring => [(ring < 64, .ring)]
  | .dmaChannelDisable _ c _ => [(c < 32, .dmaChannel)]
  | .scrubRead addr _ _ => [(addr < 67108864, .sramAddress)]
  | .dramReadReturn addr req _ => [(addr < 18446744073709551616, .dramAddress), (req < 256, .requester)]
  | .ddrEnable _ c _ => [(c < 2, .ddrChannel)]
  | .ddrInitDone c _ => [(c < 2, .ddrChannel)]
  | .ddrDisable _ c _ => [(c < 2, .ddrChannel)]
  | .ddrRefresh c rank _ => [(c < 2, .ddrChannel), (rank < 2, .rank)]
  | .ddrMr4Poll c _ => [(c < 2, .ddrChannel)]
  | .rowWindowEnd => []
  | .actLimitReached c bank req => [(c < 2, .ddrChannel), (bank < 256, .bank), (req < 6, .requester)]
  | .laneTestStart _ l _ => [(l < 32, .lane)]
  | .laneTestStop _ l _ _ _ => [(l < 32, .lane)]
  | .laneInject _ l _ => [(l < 32, .lane)]
  | .blPortEnable _ p _ => [(p < 10, .linkPort)]
  | .blPortDisable _ p _ => [(p < 10, .linkPort)]
  | .blLaneLock p => [(p < 10, .linkPort)]
  | .blAlignFound p _ => [(p < 10, .linkPort)]
  | .blAlignTimeout p => [(p < 10, .linkPort)]
  | .blHelloSend p => [(p < 10, .linkPort)]
  | .blHelloReceive p _ _ => [(p < 10, .linkPort)]
  | .blHelloTimeout p => [(p < 10, .linkPort)]
  | .blLinkLoss p _ => [(p < 10, .linkPort)]
  | .blLinkctl p _ => [(p < 10, .linkPort)]
  | .blFrameReceive p _ _ => [(p < 10, .linkPort)]
  | .timeFrameSend p _ => [(p < 10, .linkPort)]
  | .timeFrameReceive p _ _ _ => [(p < 10, .linkPort)]
  | .rootTimeout => []
  | .brickFrameReceive => []
  | .fedBrickStaging dev ring => [(dev < 1024, .device), (ring < 64, .ring)]
  | .ctrlEntryReceive => []
  | .remnantFrameReceive => []
  | .fedResultReceive => []
  | .foreignEventReceive => []
  | .feedTimeoutExpiry _ => []
  | .fedStreamClose dev ring => [(dev < 1024, .device), (ring < 64, .ring)]
  | .ethLinkRise e => [(e < 2, .ethernet)]
  | .ethLinkFall e => [(e < 2, .ethernet)]
  | .tmbSetWrite _ _ => []
  | .tmbStepWrite _ _ => []
  | .beatStart _ _ => []
  | .beatStartReached => []
  | .ptpMessageReceive e m _ newState => [(e < 2, .ethernet), (m.wf, .ptpMessage), (newState < 16, .portState)]
  | .ptpMeasurement e _ => [(e < 2, .ethernet)]
  | .syncTimeout e => [(e < 2, .ethernet)]
  | .freqUpdate => []
  | .statsEpoch => []
  | .tcapEdge i _ _ _ => [(i < 8, .capture)]
  | .launchArm _ sl _ => [(sl < 8, .launchSlot)]
  | .launchCancel _ sl _ => [(sl < 8, .launchSlot)]
  | .launchWindow sl => [(sl < 8, .launchSlot)]
  | .launchSend sl _ _ => [(sl < 8, .launchSlot)]
  | .axsMove ring => [(ring < 64, .ring)]
  | .home ring => [(ring < 64, .ring)]
  | .stop ring => [(ring < 64, .ring)]
  | .setPos ring => [(ring < 64, .ring)]
  | .axsEntryResume ring => [(ring < 64, .ring)]
  | .profileTick _ => []
  | .limitQualified m _ _ => [(m < 8, .stepper)]
  | .homeQualified m _ _ => [(m < 8, .stepper)]
  | .homeInputDeassert m => [(m < 8, .stepper)]
  | .homeMaxReached m => [(m < 8, .stepper)]
  | .stepperEnable _ m _ => [(m < 8, .stepper)]
  | .stepperDisable _ m _ => [(m < 8, .stepper)]
  | .lightSet ring => [(ring < 64, .ring)]
  | .lightLoad ring _ => [(ring < 64, .ring)]
  | .lightGroupOff ring => [(ring < 64, .ring)]
  | .lightFrame tests _ => [(tests.all (fun t => t.ch < 96), .sinkTests)]
  | .boostOutOfRange _ => []
  | .boostFaultClear _ _ => []
  | .ntcConversion c r => [(c < 4, .thermistor), (r < 4294967296, .conversion)]
  | .lightingEnable _ _ => []
  | .lightingDisable _ _ => []
  | .lightClear _ i _ => [(i < 96, .light)]
  | .thermalSample sn _ => [(sn < 24, .sensor)]
  | .graceExpiry sn => [(sn < 24, .sensor)]
  | .calRun ring _ => [(ring < 64, .ring)]
  | .calMeasurementStart => []
  | .calRunComplete _ _ => []
  | .calRecall ring => [(ring < 64, .ring)]
  | .pmpIdent h => [(h.wf, .requestHeader)]
  | .regRead h off => [(h.wf, .requestHeader), (off % 4 = 0 && off < 4294967296, .offset)]
  | .regWrite h off _ => [(h.wf, .requestHeader), (off % 4 = 0 && off < 4294967296, .offset)]
  | .logRead h _ count => [(h.wf, .requestHeader), (count < 65536, .logCount)]
  | .imgBegin h slot len _ _ => [(h.wf, .requestHeader), (slot < 256, .imageSlot), (len < 4294967296, .length)]
  | .imgPiece h slot idx _ data _ => [(h.wf, .requestHeader), (slot < 256, .imageSlot), (idx < 65536, .piece), (data.length ≤ 4096, .pieceBytes)]
  | .imgStatus h slot => [(h.wf, .requestHeader), (slot < 256, .imageSlot)]
  | .imgActivate h slot => [(h.wf, .requestHeader), (slot < 256, .imageSlot)]
  | .fwHandover => []
  | .activateTimeout => []
  | .imgConfirm h _ => [(h.wf, .requestHeader)]
  | .imgRevert h _ => [(h.wf, .requestHeader)]
  | .pmpReset h _ => [(h.wf, .requestHeader)]
  | .export_ h addr len port _ _ => [(h.wf, .requestHeader), (addr < 18446744073709551616, .dramAddress), (len < 4294967296, .length), (port < 256, .exportPort)]
  | .exportComplete => []
  | .configGet h => [(h.wf, .requestHeader)]
  | .configSet h settings _ => [(h.wf, .requestHeader), (settings.length ≤ 4096, .settingsBytes)]
  | .smbStatus => []
  | .smbIdent => []
  | .smbTemp => []
  | .smbReset _ => []
  | .smbCause => []
  | .fullDeviceReset _ => []
  | .resetNLow _ => []
  | .resetSequenceComplete => []
  | .standbyPowerGood _ => []
  | .standbyPowerLoss => []
  | .mainPgRise => []
  | .mainPgFall => []
  | .ref100Loss _ => []
  | .pciePerstN => []
  | .pcieConfigWrite _ _ => []
  | .pciePerstNRise => []
  | .resetNRise => []
  | .ref100Return => []
  | .smbAlertResponse => []
  | .checkerLock l => [(l < 32, .lane)]
  | .checkerLockLoss l _ _ => [(l < 32, .lane)]
  | .readBackComplete c => [(c < 32, .dmaChannel)]
  | .fedBrickReadDone _ _ => []
  | .announceReceiptTimeout e newState => [(e < 2, .ethernet), (newState < 16, .portState)]
  | .ptpMessageSend e m _ => [(e < 2, .ethernet), (m.wf, .ptpMessage)]

/-- The first check that a command fails. -/
def Instr.bad (i : Instr) : Option Bad := (i.checks.find? (fun c => !c.1)).map (·.2)

/-- Every operand lies in its range. -/
def Instr.wf (i : Instr) : Bool := i.bad.isNone

end Sys2Proof
end

