-- ==== Sys2Proof/Laws/PerInstr.lean ====
section
/-!
SUPPORT. What holds of every command as syntax, one lemma per command: no two operands are refused under one name, and the parts that
its frame leaves open are each named once.
-/
namespace Sys2Proof.Laws.Shape

/-- The reasons for which the command may be ill formed are distinct, and so are the parts of the device that it may change. -/
def Statement (i : Instr) : Prop := (i.checks.map Prod.snd).Nodup ∧ i.writes.Nodup

theorem registerWrite (src : Source) (off : Nat) (v : W64) : Statement (.registerWrite src off v) := ⟨of_decide_eq_true rfl, of_decide_eq_true rfl⟩
theorem lowerHalfWrite (src : Source) (off : Nat) (v : W32) : Statement (.lowerHalfWrite src off v) := ⟨of_decide_eq_true rfl, of_decide_eq_true rfl⟩
theorem upperHalfWrite (src : Source) (off : Nat) (v : W32) : Statement (.upperHalfWrite src off v) := ⟨of_decide_eq_true rfl, of_decide_eq_true rfl⟩
theorem lowerHalfRead (src : Source) (off : Nat) : Statement (.lowerHalfRead src off) := ⟨of_decide_eq_true rfl, of_decide_eq_true rfl⟩
theorem upperHalfRead (src : Source) (off : Nat) : Statement (.upperHalfRead src off) := ⟨of_decide_eq_true rfl, of_decide_eq_true rfl⟩
theorem clockGateEntry (blk : Nat) (isl : Nat) : Statement (.clockGateEntry blk isl) := ⟨of_decide_eq_true rfl, of_decide_eq_true rfl⟩
theorem islandOffEntry (blk : Nat) (isl : Nat) : Statement (.islandOffEntry blk isl) := ⟨of_decide_eq_true rfl, of_decide_eq_true rfl⟩
theorem islandWake (blk : Nat) (isl : Nat) : Statement (.islandWake blk isl) := ⟨of_decide_eq_true rfl, of_decide_eq_true rfl⟩
theorem pcieLinkUp (speed : Nat) (width : Nat) : Statement (.pcieLinkUp speed width) := ⟨of_decide_eq_true rfl, of_decide_eq_true rfl⟩
theorem pcieLinkDown : Statement .pcieLinkDown := ⟨of_decide_eq_true rfl, of_decide_eq_true rfl⟩
theorem functionLevelReset : Statement .functionLevelReset := ⟨of_decide_eq_true rfl, of_decide_eq_true rfl⟩
theorem bar2Write (addr : Nat) (bytes : List Byte) (ecc : EccRead) : Statement (.bar2Write addr bytes ecc) := ⟨of_decide_eq_true rfl, of_decide_eq_true rfl⟩
theorem bar2Read (addr : Nat) (ecc : EccRead) : Statement (.bar2Read addr ecc) := ⟨of_decide_eq_true rfl, of_decide_eq_true rfl⟩
theorem doorbellPoll : Statement .doorbellPoll := ⟨of_decide_eq_true rfl, of_decide_eq_true rfl⟩
theorem doorbellReturn (table : Option (List W32)) : Statement (.doorbellReturn table) := ⟨of_decide_eq_true rfl, of_decide_eq_true rfl⟩
theorem entryArrival (ring : Nat) (rd : EntryRead) : Statement (.entryArrival ring rd) := ⟨of_decide_eq_true rfl, of_decide_eq_true rfl⟩
theorem ringEnable (src : Source) (ring : Nat) (v : W64) : Statement (.ringEnable src ring v) := ⟨of_decide_eq_true rfl, of_decide_eq_true rfl⟩
theorem ringDisable (src : Source) (ring : Nat) (v : W64) : Statement (.ringDisable src ring v) := ⟨of_decide_eq_true rfl, of_decide_eq_true rfl⟩
theorem routeWrite (src : Source) (blk : Nat) (v : W64) : Statement (.routeWrite src blk v) := ⟨of_decide_eq_true rfl, of_decide_eq_true rfl⟩
theorem completionWrite : Statement .completionWrite := ⟨of_decide_eq_true rfl, of_decide_eq_true rfl⟩
theorem msixModTimer (ring : Nat) : Statement (.msixModTimer ring) := ⟨of_decide_eq_true rfl, of_decide_eq_true rfl⟩
theorem msixTableAccess (off : Nat) (acc : MsixAccess) : Statement (.msixTableAccess off acc) := ⟨of_decide_eq_true rfl, of_decide_eq_true rfl⟩
theorem psetWrite (ring : Nat) : Statement (.psetWrite ring) := ⟨of_decide_eq_true rfl, of_decide_eq_true rfl⟩
theorem psetLoad (ring : Nat) : Statement (.psetLoad ring) := ⟨of_decide_eq_true rfl, of_decide_eq_true rfl⟩
theorem psetLoadData (ring : Nat) (rd : HostRead) : Statement (.psetLoadData ring rd) := ⟨of_decide_eq_true rfl, of_decide_eq_true rfl⟩
theorem psetCommit (ring : Nat) : Statement (.psetCommit ring) := ⟨of_decide_eq_true rfl, of_decide_eq_true rfl⟩
theorem paramCommit : Statement .paramCommit := ⟨of_decide_eq_true rfl, of_decide_eq_true rfl⟩
theorem brick (ring : Nat) : Statement (.brick ring) := ⟨of_decide_eq_true rfl, of_decide_eq_true rfl⟩
theorem brickVerdict (key : Nat) (rd : HostRead) : Statement (.brickVerdict key rd) := ⟨of_decide_eq_true rfl, of_decide_eq_true rfl⟩
theorem courseBegin (ring : Nat) : Statement (.courseBegin ring) := ⟨of_decide_eq_true rfl, of_decide_eq_true rfl⟩
theorem courseEnd (ring : Nat) : Statement (.courseEnd ring) := ⟨of_decide_eq_true rfl, of_decide_eq_true rfl⟩
theorem courseAbort (ring : Nat) : Statement (.courseAbort ring) := ⟨of_decide_eq_true rfl, of_decide_eq_true rfl⟩
theorem courseClose : Statement .courseClose := ⟨of_decide_eq_true rfl, of_decide_eq_true rfl⟩
theorem abortComplete : Statement .abortComplete := ⟨of_decide_eq_true rfl, of_decide_eq_true rfl⟩
theorem courseWaitResume (ring : Nat) : Statement (.courseWaitResume ring) := ⟨of_decide_eq_true rfl, of_decide_eq_true rfl⟩
theorem startBeatReached (key : Nat) : Statement (.startBeatReached key) := ⟨of_decide_eq_true rfl, of_decide_eq_true rfl⟩
theorem unplaceableTimeout (key : Nat) : Statement (.unplaceableTimeout key) := ⟨of_decide_eq_true rfl, of_decide_eq_true rfl⟩
theorem standstill : Statement .standstill := ⟨of_decide_eq_true rfl, of_decide_eq_true rfl⟩
theorem starveLimitReached (key : Nat) : Statement (.starveLimitReached key) := ⟨of_decide_eq_true rfl, of_decide_eq_true rfl⟩
theorem hostHold (src : Source) (v : W64) : Statement (.hostHold src v) := ⟨of_decide_eq_true rfl, of_decide_eq_true rfl⟩
theorem masonSelection (unserved : W16) : Statement (.masonSelection unserved) := ⟨of_decide_eq_true rfl, of_decide_eq_true rfl⟩
theorem assignmentInForce (ch : Nat) : Statement (.assignmentInForce ch) := ⟨of_decide_eq_true rfl, of_decide_eq_true rfl⟩
theorem plumeGuard (undecided : W16) : Statement (.plumeGuard undecided) := ⟨of_decide_eq_true rfl, of_decide_eq_true rfl⟩
theorem trailSliceClose (ch : Nat) : Statement (.trailSliceClose ch) := ⟨of_decide_eq_true rfl, of_decide_eq_true rfl⟩
theorem trailSliceExpire (ch : Nat) : Statement (.trailSliceExpire ch) := ⟨of_decide_eq_true rfl, of_decide_eq_true rfl⟩
theorem holdPass (ch : Nat) : Statement (.holdPass ch) := ⟨of_decide_eq_true rfl, of_decide_eq_true rfl⟩
theorem plumeHoldTimeout (ch : Nat) : Statement (.plumeHoldTimeout ch) := ⟨of_decide_eq_true rfl, of_decide_eq_true rfl⟩
theorem masonDrop (ch : Nat) : Statement (.masonDrop ch) := ⟨of_decide_eq_true rfl, of_decide_eq_true rfl⟩
theorem remnantReady (key : Nat) : Statement (.remnantReady key) := ⟨of_decide_eq_true rfl, of_decide_eq_true rfl⟩
theorem stopSegmentDone (ch : Nat) : Statement (.stopSegmentDone ch) := ⟨of_decide_eq_true rfl, of_decide_eq_true rfl⟩
theorem brickEnd (ch : Nat) : Statement (.brickEnd ch) := ⟨of_decide_eq_true rfl, of_decide_eq_true rfl⟩
theorem pisteSampleIssue (ch : Nat) (ev : PisteIssue) : Statement (.pisteSampleIssue ch ev) := ⟨of_decide_eq_true rfl, of_decide_eq_true rfl⟩
theorem vectorRefillDone (ch : Nat) (ecc : EccRead) : Statement (.vectorRefillDone ch ecc) := ⟨of_decide_eq_true rfl, of_decide_eq_true rfl⟩
theorem gridLoad (ring : Nat) : Statement (.gridLoad ring) := ⟨of_decide_eq_true rfl, of_decide_eq_true rfl⟩
theorem gridLoadComplete (rd : HostRead) : Statement (.gridLoadComplete rd) := ⟨of_decide_eq_true rfl, of_decide_eq_true rfl⟩
theorem gridSwap (ring : Nat) (ecc : EccRead) : Statement (.gridSwap ring ecc) := ⟨of_decide_eq_true rfl, of_decide_eq_true rfl⟩
theorem gridSwapEffect (ch : Nat) : Statement (.gridSwapEffect ch) := ⟨of_decide_eq_true rfl, of_decide_eq_true rfl⟩
theorem seamOffer (ch : Nat) : Statement (.seamOffer ch) := ⟨of_decide_eq_true rfl, of_decide_eq_true rfl⟩
theorem channelEnable (src : Source) (ch : Nat) (v : W64) : Statement (.channelEnable src ch v) := ⟨of_decide_eq_true rfl, of_decide_eq_true rfl⟩
theorem channelDisable (src : Source) (ch : Nat) (v : W64) : Statement (.channelDisable src ch v) := ⟨of_decide_eq_true rfl, of_decide_eq_true rfl⟩
theorem armingComplete (ch : Nat) : Statement (.armingComplete ch) := ⟨of_decide_eq_true rfl, of_decide_eq_true rfl⟩
theorem armingTimeout (ch : Nat) : Statement (.armingTimeout ch) := ⟨of_decide_eq_true rfl, of_decide_eq_true rfl⟩
theorem alarmQualified (ch : Nat) (level : Bool) : Statement (.alarmQualified ch level) := ⟨of_decide_eq_true rfl, of_decide_eq_true rfl⟩
theorem readyQualified (ch : Nat) (level : Bool) : Statement (.readyQualified ch level) := ⟨of_decide_eq_true rfl, of_decide_eq_true rfl⟩
theorem padReadbackMismatch (ch : Nat) (emit : Bool) (gate : Bool) : Statement (.padReadbackMismatch ch emit gate) := ⟨of_decide_eq_true rfl, of_decide_eq_true rfl⟩
theorem dacComplianceLoss (ch : Nat) : Statement (.dacComplianceLoss ch) := ⟨of_decide_eq_true rfl, of_decide_eq_true rfl⟩
theorem channelFaultClear (src : Source) (ch : Nat) (v : W64) : Statement (.channelFaultClear src ch v) := ⟨of_decide_eq_true rfl, of_decide_eq_true rfl⟩
theorem safeInLow : Statement .safeInLow := ⟨of_decide_eq_true rfl, of_decide_eq_true rfl⟩
theorem safeInQualified : Statement .safeInQualified := ⟨of_decide_eq_true rfl, of_decide_eq_true rfl⟩
theorem heartbeatBoundary : Statement .heartbeatBoundary := ⟨of_decide_eq_true rfl, of_decide_eq_true rfl⟩
theorem safeKick (src : Source) (v : W64) : Statement (.safeKick src v) := ⟨of_decide_eq_true rfl, of_decide_eq_true rfl⟩
theorem kickTimeoutExpiry : Statement .kickTimeoutExpiry := ⟨of_decide_eq_true rfl, of_decide_eq_true rfl⟩
theorem beaconReport (b : Nat) : Statement (.beaconReport b) := ⟨of_decide_eq_true rfl, of_decide_eq_true rfl⟩
theorem beaconUnverifiedTimeout (ch : Nat) : Statement (.beaconUnverifiedTimeout ch) := ⟨of_decide_eq_true rfl, of_decide_eq_true rfl⟩
theorem dacUpdate (ch : Nat) : Statement (.dacUpdate ch) := ⟨of_decide_eq_true rfl, of_decide_eq_true rfl⟩
theorem mpmSample (ch : Nat) (second : Bool) (mp : BitVec 14) (br : BitVec 14) (late : Bool) : Statement (.mpmSample ch second mp br late) := ⟨of_decide_eq_true rfl, of_decide_eq_true rfl⟩
theorem brQualReached (ch : Nat) : Statement (.brQualReached ch) := ⟨of_decide_eq_true rfl, of_decide_eq_true rfl⟩
theorem lowBeatsReached (ch : Nat) : Statement (.lowBeatsReached ch) := ⟨of_decide_eq_true rfl, of_decide_eq_true rfl⟩
theorem satBeatsReached (ch : Nat) : Statement (.satBeatsReached ch) := ⟨of_decide_eq_true rfl, of_decide_eq_true rfl⟩
theorem velocityTick (ax : Nat) (code : BitVec 24) (late : Bool) : Statement (.velocityTick ax code late) := ⟨of_decide_eq_true rfl, of_decide_eq_true rfl⟩
theorem positionTick (ax : Nat) (code : BitVec 24) (late : Bool) : Statement (.positionTick ax code late) := ⟨of_decide_eq_true rfl, of_decide_eq_true rfl⟩
theorem currentDecision (ax : Nat) (sensed : BitVec 20) (hiHeld : Bool) (loHeld : Bool) (tripHeld : BitVec 2) : Statement (.currentDecision ax sensed hiHeld loHeld tripHeld) := ⟨of_decide_eq_true rfl, of_decide_eq_true rfl⟩
theorem perrTicksReached (ax : Nat) : Statement (.perrTicksReached ax) := ⟨of_decide_eq_true rfl, of_decide_eq_true rfl⟩
theorem stuckBeatsReached (ax : Nat) : Statement (.stuckBeatsReached ax) := ⟨of_decide_eq_true rfl, of_decide_eq_true rfl⟩
theorem curSenseCountReached (ax : Nat) : Statement (.curSenseCountReached ax) := ⟨of_decide_eq_true rfl, of_decide_eq_true rfl⟩
theorem posQualReached (ax : Nat) : Statement (.posQualReached ax) := ⟨of_decide_eq_true rfl, of_decide_eq_true rfl⟩
theorem gateReadbackMismatch (ax : Nat) (gates : BitVec 4) : Statement (.gateReadbackMismatch ax gates) := ⟨of_decide_eq_true rfl, of_decide_eq_true rfl⟩
theorem acquireTimeoutExpiry (ax : Nat) : Statement (.acquireTimeoutExpiry ax) := ⟨of_decide_eq_true rfl, of_decide_eq_true rfl⟩
theorem srvCommitEffect : Statement .srvCommitEffect := ⟨of_decide_eq_true rfl, of_decide_eq_true rfl⟩
theorem axisEnable (src : Source) (ax : Nat) (v : W64) : Statement (.axisEnable src ax v) := ⟨of_decide_eq_true rfl, of_decide_eq_true rfl⟩
theorem axisDisable (src : Source) (ax : Nat) (v : W64) : Statement (.axisDisable src ax v) := ⟨of_decide_eq_true rfl, of_decide_eq_true rfl⟩
theorem axisFaultClear (src : Source) (ax : Nat) (v : W64) : Statement (.axisFaultClear src ax v) := ⟨of_decide_eq_true rfl, of_decide_eq_true rfl⟩
theorem cameraPortEnable (src : Source) (c : Nat) (v : W64) : Statement (.cameraPortEnable src c v) := ⟨of_decide_eq_true rfl, of_decide_eq_true rfl⟩
theorem cameraPortDisable (src : Source) (c : Nat) (v : W64) : Statement (.cameraPortDisable src c v) := ⟨of_decide_eq_true rfl, of_decide_eq_true rfl⟩
theorem frameStart (c : Nat) (vc : Nat) (frameNo : Nat) (hdr : HdrEcc) : Statement (.frameStart c vc frameNo hdr) := ⟨of_decide_eq_true rfl, of_decide_eq_true rfl⟩
theorem frameEnd (c : Nat) (vc : Nat) (hdr : HdrEcc) : Statement (.frameEnd c vc hdr) := ⟨of_decide_eq_true rfl, of_decide_eq_true rfl⟩
theorem longPacket (c : Nat) (vc : Nat) (dt : Nat) (px : List Nat) (crcOk : Bool) (hdr : HdrEcc) : Statement (.longPacket c vc dt px crcOk hdr) := ⟨of_decide_eq_true rfl, of_decide_eq_true rfl⟩
theorem dphySotError (c : Nat) (lanes : BitVec 4) : Statement (.dphySotError c lanes) := ⟨of_decide_eq_true rfl, of_decide_eq_true rfl⟩
theorem camFrameTimeout (c : Nat) : Statement (.camFrameTimeout c) := ⟨of_decide_eq_true rfl, of_decide_eq_true rfl⟩
theorem engineLine (e : Nat) (ecc : EccRead) : Statement (.engineLine e ecc) := ⟨of_decide_eq_true rfl, of_decide_eq_true rfl⟩
theorem outputHoldTimeout (e : Nat) : Statement (.outputHoldTimeout e) := ⟨of_decide_eq_true rfl, of_decide_eq_true rfl⟩
theorem frameWriteout (c : Nat) : Statement (.frameWriteout c) := ⟨of_decide_eq_true rfl, of_decide_eq_true rfl⟩
theorem capArm (ring : Nat) : Statement (.capArm ring) := ⟨of_decide_eq_true rfl, of_decide_eq_true rfl⟩
theorem capStop (ring : Nat) : Statement (.capStop ring) := ⟨of_decide_eq_true rfl, of_decide_eq_true rfl⟩
theorem tableLoad (ring : Nat) (rd : HostRead) : Statement (.tableLoad ring rd) := ⟨of_decide_eq_true rfl, of_decide_eq_true rfl⟩
theorem compress (ring : Nat) (ctx : HostRead) : Statement (.compress ring ctx) := ⟨of_decide_eq_true rfl, of_decide_eq_true rfl⟩
theorem decompress (ring : Nat) (ctx : HostRead) : Statement (.decompress ring ctx) := ⟨of_decide_eq_true rfl, of_decide_eq_true rfl⟩
theorem codecJobRun : Statement .codecJobRun := ⟨of_decide_eq_true rfl, of_decide_eq_true rfl⟩
theorem codecJobDone (input : HostRead) (busErr : Option Nat) : Statement (.codecJobDone input busErr) := ⟨of_decide_eq_true rfl, of_decide_eq_true rfl⟩
theorem codecDisable (src : Source) (v : W64) : Statement (.codecDisable src v) := ⟨of_decide_eq_true rfl, of_decide_eq_true rfl⟩
theorem codecEnable (src : Source) (v : W64) : Statement (.codecEnable src v) := ⟨of_decide_eq_true rfl, of_decide_eq_true rfl⟩
theorem dmaMove (ring : Nat) : Statement (.dmaMove ring) := ⟨of_decide_eq_true rfl, of_decide_eq_true rfl⟩
theorem dmaEntryStart (c : Nat) : Statement (.dmaEntryStart c) := ⟨of_decide_eq_true rfl, of_decide_eq_true rfl⟩
theorem dmaBurstWritten (c : Nat) (rd : List Byte) : Statement (.dmaBurstWritten c rd) := ⟨of_decide_eq_true rfl, of_decide_eq_true rfl⟩
theorem dmaBusError (c : Nat) (addr : W64) (write : Bool) : Statement (.dmaBusError c addr write) := ⟨of_decide_eq_true rfl, of_decide_eq_true rfl⟩
theorem dmaAbort (ring : Nat) : Statement (.dmaAbort ring) := ⟨of_decide_eq_true rfl, of_decide_eq_true rfl⟩
theorem dmaChannelDisable (src : Source) (c : Nat) (v : W64) : Statement (.dmaChannelDisable src c v) := ⟨of_decide_eq_true rfl, of_decide_eq_true rfl⟩
theorem scrubRead (addr : Nat) (ecc : EccRead) (clash : Bool) : Statement (.scrubRead addr ecc clash) := ⟨of_decide_eq_true rfl, of_decide_eq_true rfl⟩
theorem dramReadReturn (addr : Nat) (req : Nat) (ecc : EccRead) : Statement (.dramReadReturn addr req ecc) := ⟨of_decide_eq_true rfl, of_decide_eq_true rfl⟩
theorem ddrEnable (src : Source) (c : Nat) (v : W64) : Statement (.ddrEnable src c v) := ⟨of_decide_eq_true rfl, of_decide_eq_true rfl⟩
theorem ddrInitDone (c : Nat) (bad : Option (Nat × Nat)) : Statement (.ddrInitDone c bad) := ⟨of_decide_eq_true rfl, of_decide_eq_true rfl⟩
theorem ddrDisable (src : Source) (c : Nat) (v : W64) : Statement (.ddrDisable src c v) := ⟨of_decide_eq_true rfl, of_decide_eq_true rfl⟩
theorem ddrRefresh (c : Nat) (rank : Nat) (waiting : Bool) : Statement (.ddrRefresh c rank waiting) := ⟨of_decide_eq_true rfl, of_decide_eq_true rfl⟩
theorem ddrMr4Poll (c : Nat) (doubled : Bool) : Statement (.ddrMr4Poll c doubled) := ⟨of_decide_eq_true rfl, of_decide_eq_true rfl⟩
theorem rowWindowEnd : Statement .rowWindowEnd := ⟨of_decide_eq_true rfl, of_decide_eq_true rfl⟩
theorem actLimitReached (c : Nat) (bank : Nat) (req : Nat) : Statement (.actLimitReached c bank req) := ⟨of_decide_eq_true rfl, of_decide_eq_true rfl⟩
theorem laneTestStart (src : Source) (l : Nat) (v : W64) : Statement (.laneTestStart src l v) := ⟨of_decide_eq_true rfl, of_decide_eq_true rfl⟩
theorem laneTestStop (src : Source) (l : Nat) (v : W64) (bits : Nat) (errs : Nat) : Statement (.laneTestStop src l v bits errs) := ⟨of_decide_eq_true rfl, of_decide_eq_true rfl⟩
theorem laneInject (src : Source) (l : Nat) (v : W64) : Statement (.laneInject src l v) := ⟨of_decide_eq_true rfl, of_decide_eq_true rfl⟩
theorem blPortEnable (src : Source) (p : Nat) (v : W64) : Statement (.blPortEnable src p v) := ⟨of_decide_eq_true rfl, of_decide_eq_true rfl⟩
theorem blPortDisable (src : Source) (p : Nat) (v : W64) : Statement (.blPortDisable src p v) := ⟨of_decide_eq_true rfl, of_decide_eq_true rfl⟩
theorem blLaneLock (p : Nat) : Statement (.blLaneLock p) := ⟨of_decide_eq_true rfl, of_decide_eq_true rfl⟩
theorem blAlignFound (p : Nat) (swapped : Bool) : Statement (.blAlignFound p swapped) := ⟨of_decide_eq_true rfl, of_decide_eq_true rfl⟩
theorem blAlignTimeout (p : Nat) : Statement (.blAlignTimeout p) := ⟨of_decide_eq_true rfl, of_decide_eq_true rfl⟩
theorem blHelloSend (p : Nat) : Statement (.blHelloSend p) := ⟨of_decide_eq_true rfl, of_decide_eq_true rfl⟩
theorem blHelloReceive (p : Nat) (w0 : W64) (w1 : W64) : Statement (.blHelloReceive p w0 w1) := ⟨of_decide_eq_true rfl, of_decide_eq_true rfl⟩
theorem blHelloTimeout (p : Nat) : Statement (.blHelloTimeout p) := ⟨of_decide_eq_true rfl, of_decide_eq_true rfl⟩
theorem blLinkLoss (p : Nat) (blockErrors : Nat) : Statement (.blLinkLoss p blockErrors) := ⟨of_decide_eq_true rfl, of_decide_eq_true rfl⟩
theorem blLinkctl (p : Nat) (w : W64) : Statement (.blLinkctl p w) := ⟨of_decide_eq_true rfl, of_decide_eq_true rfl⟩
theorem blFrameReceive (p : Nat) (pairs : List (LaneBlock × LaneBlock)) (drift : Int) : Statement (.blFrameReceive p pairs drift) := ⟨of_decide_eq_true rfl, of_decide_eq_true rfl⟩
theorem timeFrameSend (p : Nat) (inner : Int) : Statement (.timeFrameSend p inner) := ⟨of_decide_eq_true rfl, of_decide_eq_true rfl⟩
theorem timeFrameReceive (p : Nat) (words : List W64) (inner : Int) (good : Bool) : Statement (.timeFrameReceive p words inner good) := ⟨of_decide_eq_true rfl, of_decide_eq_true rfl⟩
theorem rootTimeout : Statement .rootTimeout := ⟨of_decide_eq_true rfl, of_decide_eq_true rfl⟩
theorem brickFrameReceive : Statement .brickFrameReceive := ⟨of_decide_eq_true rfl, of_decide_eq_true rfl⟩
theorem fedBrickStaging (dev : Nat) (ring : Nat) : Statement (.fedBrickStaging dev ring) := ⟨of_decide_eq_true rfl, of_decide_eq_true rfl⟩
theorem ctrlEntryReceive : Statement .ctrlEntryReceive := ⟨of_decide_eq_true rfl, of_decide_eq_true rfl⟩
theorem remnantFrameReceive : Statement .remnantFrameReceive := ⟨of_decide_eq_true rfl, of_decide_eq_true rfl⟩
theorem fedResultReceive : Statement .fedResultReceive := ⟨of_decide_eq_true rfl, of_decide_eq_true rfl⟩
theorem foreignEventReceive : Statement .foreignEventReceive := ⟨of_decide_eq_true rfl, of_decide_eq_true rfl⟩
theorem feedTimeoutExpiry (key : Nat) : Statement (.feedTimeoutExpiry key) := ⟨of_decide_eq_true rfl, of_decide_eq_true rfl⟩
theorem fedStreamClose (dev : Nat) (ring : Nat) : Statement (.fedStreamClose dev ring) := ⟨of_decide_eq_true rfl, of_decide_eq_true rfl⟩
theorem ethLinkRise (e : Nat) : Statement (.ethLinkRise e) := ⟨of_decide_eq_true rfl, of_decide_eq_true rfl⟩
theorem ethLinkFall (e : Nat) : Statement (.ethLinkFall e) := ⟨of_decide_eq_true rfl, of_decide_eq_true rfl⟩
theorem tmbSetWrite (src : Source) (v : W64) : Statement (.tmbSetWrite src v) := ⟨of_decide_eq_true rfl, of_decide_eq_true rfl⟩
theorem tmbStepWrite (src : Source) (v : W64) : Statement (.tmbStepWrite src v) := ⟨of_decide_eq_true rfl, of_decide_eq_true rfl⟩
theorem beatStart (src : Source) (v : W64) : Statement (.beatStart src v) := ⟨of_decide_eq_true rfl, of_decide_eq_true rfl⟩
theorem beatStartReached : Statement .beatStartReached := ⟨of_decide_eq_true rfl, of_decide_eq_true rfl⟩
theorem ptpMessageReceive (e : Nat) (m : PtpMsg) (ts : Int) (newState : Nat) : Statement (.ptpMessageReceive e m ts newState) := ⟨of_decide_eq_true rfl, of_decide_eq_true rfl⟩
theorem ptpMeasurement (e : Nat) (off : Int) : Statement (.ptpMeasurement e off) := ⟨of_decide_eq_true rfl, of_decide_eq_true rfl⟩
theorem syncTimeout (e : Nat) : Statement (.syncTimeout e) := ⟨of_decide_eq_true rfl, of_decide_eq_true rfl⟩
theorem freqUpdate : Statement .freqUpdate := ⟨of_decide_eq_true rfl, of_decide_eq_true rfl⟩
theorem statsEpoch : Statement .statsEpoch := ⟨of_decide_eq_true rfl, of_decide_eq_true rfl⟩
theorem tcapEdge (i : Nat) (falling : Bool) (ns : W64) (frac : W16) : Statement (.tcapEdge i falling ns frac) := ⟨of_decide_eq_true rfl, of_decide_eq_true rfl⟩
theorem launchArm (src : Source) (sl : Nat) (v : W64) : Statement (.launchArm src sl v) := ⟨of_decide_eq_true rfl, of_decide_eq_true rfl⟩
theorem launchCancel (src : Source) (sl : Nat) (v : W64) : Statement (.launchCancel src sl v) := ⟨of_decide_eq_true rfl, of_decide_eq_true rfl⟩
theorem launchWindow (sl : Nat) : Statement (.launchWindow sl) := ⟨of_decide_eq_true rfl, of_decide_eq_true rfl⟩
theorem launchSend (sl : Nat) (ns : W64) (frac : W16) : Statement (.launchSend sl ns frac) := ⟨of_decide_eq_true rfl, of_decide_eq_true rfl⟩
theorem axsMove (ring : Nat) : Statement (.axsMove ring) := ⟨of_decide_eq_true rfl, of_decide_eq_true rfl⟩
theorem home (ring : Nat) : Statement (.home ring) := ⟨of_decide_eq_true rfl, of_decide_eq_true rfl⟩
theorem stop (ring : Nat) : Statement (.stop ring) := ⟨of_decide_eq_true rfl, of_decide_eq_true rfl⟩
theorem setPos (ring : Nat) : Statement (.setPos ring) := ⟨of_decide_eq_true rfl, of_decide_eq_true rfl⟩
theorem axsEntryResume (ring : Nat) : Statement (.axsEntryResume ring) := ⟨of_decide_eq_true rfl, of_decide_eq_true rfl⟩
theorem profileTick (late : Bool) : Statement (.profileTick late) := ⟨of_decide_eq_true rfl, of_decide_eq_true rfl⟩
theorem limitQualified (m : Nat) (plus : Bool) (level : Bool) : Statement (.limitQualified m plus level) := ⟨of_decide_eq_true rfl, of_decide_eq_true rfl⟩
theorem homeQualified (m : Nat) (level : Bool) (latch : W32) : Statement (.homeQualified m level latch) := ⟨of_decide_eq_true rfl, of_decide_eq_true rfl⟩
theorem homeInputDeassert (m : Nat) : Statement (.homeInputDeassert m) := ⟨of_decide_eq_true rfl, of_decide_eq_true rfl⟩
theorem homeMaxReached (m : Nat) : Statement (.homeMaxReached m) := ⟨of_decide_eq_true rfl, of_decide_eq_true rfl⟩
theorem stepperEnable (src : Source) (m : Nat) (v : W64) : Statement (.stepperEnable src m v) := ⟨of_decide_eq_true rfl, of_decide_eq_true rfl⟩
theorem stepperDisable (src : Source) (m : Nat) (v : W64) : Statement (.stepperDisable src m v) := ⟨of_decide_eq_true rfl, of_decide_eq_true rfl⟩
theorem lightSet (ring : Nat) : Statement (.lightSet ring) := ⟨of_decide_eq_true rfl, of_decide_eq_true rfl⟩
theorem lightLoad (ring : Nat) (rd : HostRead) : Statement (.lightLoad ring rd) := ⟨of_decide_eq_true rfl, of_decide_eq_true rfl⟩
theorem lightGroupOff (ring : Nat) : Statement (.lightGroupOff ring) := ⟨of_decide_eq_true rfl, of_decide_eq_true rfl⟩
theorem lightFrame (tests : List SinkTest) (late : Bool) : Statement (.lightFrame tests late) := ⟨of_decide_eq_true rfl, of_decide_eq_true rfl⟩
theorem boostOutOfRange (beyond : Bool) : Statement (.boostOutOfRange beyond) := ⟨of_decide_eq_true rfl, of_decide_eq_true rfl⟩
theorem boostFaultClear (src : Source) (v : W64) : Statement (.boostFaultClear src v) := ⟨of_decide_eq_true rfl, of_decide_eq_true rfl⟩
theorem ntcConversion (c : Nat) (r : Nat) : Statement (.ntcConversion c r) := ⟨of_decide_eq_true rfl, of_decide_eq_true rfl⟩
theorem lightingEnable (src : Source) (v : W64) : Statement (.lightingEnable src v) := ⟨of_decide_eq_true rfl, of_decide_eq_true rfl⟩
theorem lightingDisable (src : Source) (v : W64) : Statement (.lightingDisable src v) := ⟨of_decide_eq_true rfl, of_decide_eq_true rfl⟩
theorem lightClear (src : Source) (i : Nat) (v : W64) : Statement (.lightClear src i v) := ⟨of_decide_eq_true rfl, of_decide_eq_true rfl⟩
theorem thermalSample (sn : Nat) (reading : Option Int) : Statement (.thermalSample sn reading) := ⟨of_decide_eq_true rfl, of_decide_eq_true rfl⟩
theorem graceExpiry (sn : Nat) : Statement (.graceExpiry sn) := ⟨of_decide_eq_true rfl, of_decide_eq_true rfl⟩
theorem calRun (ring : Nat) (table : HostRead) : Statement (.calRun ring table) := ⟨of_decide_eq_true rfl, of_decide_eq_true rfl⟩
theorem calMeasurementStart : Statement .calMeasurementStart := ⟨of_decide_eq_true rfl, of_decide_eq_true rfl⟩
theorem calRunComplete (run1 : List CalPoint) (run2 : List CalPoint) : Statement (.calRunComplete run1 run2) := ⟨of_decide_eq_true rfl, of_decide_eq_true rfl⟩
theorem calRecall (ring : Nat) : Statement (.calRecall ring) := ⟨of_decide_eq_true rfl, of_decide_eq_true rfl⟩
theorem pmpIdent (h : PmpHdr) : Statement (.pmpIdent h) := ⟨of_decide_eq_true rfl, of_decide_eq_true rfl⟩
theorem regRead (h : PmpHdr) (off : Nat) : Statement (.regRead h off) := ⟨of_decide_eq_true rfl, of_decide_eq_true rfl⟩
theorem regWrite (h : PmpHdr) (off : Nat) (v : W32) : Statement (.regWrite h off v) := ⟨of_decide_eq_true rfl, of_decide_eq_true rfl⟩
theorem logRead (h : PmpHdr) (first : W32) (count : Nat) : Statement (.logRead h first count) := ⟨of_decide_eq_true rfl, of_decide_eq_true rfl⟩
theorem imgBegin (h : PmpHdr) (slot : Nat) (len : Nat) (sha : BitVec 384) (flashOk : Bool) : Statement (.imgBegin h slot len sha flashOk) := ⟨of_decide_eq_true rfl, of_decide_eq_true rfl⟩
theorem imgPiece (h : PmpHdr) (slot : Nat) (idx : Nat) (crc : W32) (data : List Byte) (flashOk : Bool) : Statement (.imgPiece h slot idx crc data flashOk) := ⟨of_decide_eq_true rfl, of_decide_eq_true rfl⟩
theorem imgStatus (h : PmpHdr) (slot : Nat) : Statement (.imgStatus h slot) := ⟨of_decide_eq_true rfl, of_decide_eq_true rfl⟩
theorem imgActivate (h : PmpHdr) (slot : Nat) : Statement (.imgActivate h slot) := ⟨of_decide_eq_true rfl, of_decide_eq_true rfl⟩
theorem fwHandover : Statement .fwHandover := ⟨of_decide_eq_true rfl, of_decide_eq_true rfl⟩
theorem activateTimeout : Statement .activateTimeout := ⟨of_decide_eq_true rfl, of_decide_eq_true rfl⟩
theorem imgConfirm (h : PmpHdr) (flashOk : Bool) : Statement (.imgConfirm h flashOk) := ⟨of_decide_eq_true rfl, of_decide_eq_true rfl⟩
theorem imgRevert (h : PmpHdr) (flashOk : Bool) : Statement (.imgRevert h flashOk) := ⟨of_decide_eq_true rfl, of_decide_eq_true rfl⟩
theorem pmpReset (h : PmpHdr) (k : W16) : Statement (.pmpReset h k) := ⟨of_decide_eq_true rfl, of_decide_eq_true rfl⟩
theorem export_ (h : PmpHdr) (addr : Nat) (len : Nat) (port : Nat) (dst : BitVec 128) (udp : W16) : Statement (.export_ h addr len port dst udp) := ⟨of_decide_eq_true rfl, of_decide_eq_true rfl⟩
theorem exportComplete : Statement .exportComplete := ⟨of_decide_eq_true rfl, of_decide_eq_true rfl⟩
theorem configGet (h : PmpHdr) : Statement (.configGet h) := ⟨of_decide_eq_true rfl, of_decide_eq_true rfl⟩
theorem configSet (h : PmpHdr) (settings : List Byte) (flashOk : Bool) : Statement (.configSet h settings flashOk) := ⟨of_decide_eq_true rfl, of_decide_eq_true rfl⟩
theorem smbStatus : Statement .smbStatus := ⟨of_decide_eq_true rfl, of_decide_eq_true rfl⟩
theorem smbIdent : Statement .smbIdent := ⟨of_decide_eq_true rfl, of_decide_eq_true rfl⟩
theorem smbTemp : Statement .smbTemp := ⟨of_decide_eq_true rfl, of_decide_eq_true rfl⟩
theorem smbReset (v : Byte) : Statement (.smbReset v) := ⟨of_decide_eq_true rfl, of_decide_eq_true rfl⟩
theorem smbCause : Statement .smbCause := ⟨of_decide_eq_true rfl, of_decide_eq_true rfl⟩
theorem fullDeviceReset (cause : ResetCause) : Statement (.fullDeviceReset cause) := ⟨of_decide_eq_true rfl, of_decide_eq_true rfl⟩
theorem resetNLow (ns : Nat) : Statement (.resetNLow ns) := ⟨of_decide_eq_true rfl, of_decide_eq_true rfl⟩
theorem resetSequenceComplete : Statement .resetSequenceComplete := ⟨of_decide_eq_true rfl, of_decide_eq_true rfl⟩
theorem standbyPowerGood (straps : BitVec 5) : Statement (.standbyPowerGood straps) := ⟨of_decide_eq_true rfl, of_decide_eq_true rfl⟩
theorem standbyPowerLoss : Statement .standbyPowerLoss := ⟨of_decide_eq_true rfl, of_decide_eq_true rfl⟩
theorem mainPgRise : Statement .mainPgRise := ⟨of_decide_eq_true rfl, of_decide_eq_true rfl⟩
theorem mainPgFall : Statement .mainPgFall := ⟨of_decide_eq_true rfl, of_decide_eq_true rfl⟩
theorem ref100Loss (ns : Nat) : Statement (.ref100Loss ns) := ⟨of_decide_eq_true rfl, of_decide_eq_true rfl⟩
theorem pciePerstN : Statement .pciePerstN := ⟨of_decide_eq_true rfl, of_decide_eq_true rfl⟩
theorem pcieConfigWrite (func : PcieControl) (msix : MsixControl) : Statement (.pcieConfigWrite func msix) := ⟨of_decide_eq_true rfl, of_decide_eq_true rfl⟩
theorem pciePerstNRise : Statement .pciePerstNRise := ⟨of_decide_eq_true rfl, of_decide_eq_true rfl⟩
theorem resetNRise : Statement .resetNRise := ⟨of_decide_eq_true rfl, of_decide_eq_true rfl⟩
theorem ref100Return : Statement .ref100Return := ⟨of_decide_eq_true rfl, of_decide_eq_true rfl⟩
theorem smbAlertResponse : Statement .smbAlertResponse := ⟨of_decide_eq_true rfl, of_decide_eq_true rfl⟩
theorem checkerLock (l : Nat) : Statement (.checkerLock l) := ⟨of_decide_eq_true rfl, of_decide_eq_true rfl⟩
theorem checkerLockLoss (l : Nat) (bits : Nat) (errs : Nat) : Statement (.checkerLockLoss l bits errs) := ⟨of_decide_eq_true rfl, of_decide_eq_true rfl⟩
theorem readBackComplete (c : Nat) : Statement (.readBackComplete c) := ⟨of_decide_eq_true rfl, of_decide_eq_true rfl⟩
theorem fedBrickReadDone (key : Nat) (rd : HostRead) : Statement (.fedBrickReadDone key rd) := ⟨of_decide_eq_true rfl, of_decide_eq_true rfl⟩
theorem announceReceiptTimeout (e : Nat) (newState : Nat) : Statement (.announceReceiptTimeout e newState) := ⟨of_decide_eq_true rfl, of_decide_eq_true rfl⟩
theorem ptpMessageSend (e : Nat) (m : PtpMsg) (ts : Int) : Statement (.ptpMessageSend e m ts) := ⟨of_decide_eq_true rfl, of_decide_eq_true rfl⟩

end Sys2Proof.Laws.Shape
end

