-- ==== Sys2Proof/Tests/Slice0.lean ====
section
/-!
SUPPORT. Tests: ill-formed commands are refused, worked examples of the spec come out as the spec gives them, and for every obligation
with hypotheses the theorem live_<its name> shows, clause by clause, states and operands that meet them all.
-/

set_option linter.all false
-- One theorem at a time: a kernel evaluation waits for every declaration before it.
set_option Elab.async false

namespace Sys2Proof.Tests
open Sys2Proof Sys2Proof.Machine

/-! ## States -/

/-- A state of the machine after reset with its device changed. -/
def w (f : Dev → Dev) : State := { State.reset with dev := f State.reset.dev }
def s0 : State := State.reset
/-- An enabled ring of class `c` with 2^`k` entries. -/
def withRing (n c k : Nat) (d : Dev) : Dev :=
  (((d.setRwNow Reg.HST_RING_CFG_ENABLE 1 n).setRwNow Reg.HST_RING_CFG_CLASS c n).setRwNow Reg.HST_RING_CFG_LOG2_SIZE k n).updRing n
    (fun r => { r with st := .active })
/-- Word 0 of an entry: operation, class and other bits. -/
def w0 (op cls rest : Nat) : W64 := BitVec.ofNat 64 (op * 2 ^ 56 + cls * 2 ^ 52 + rest)
/-- An entry at the front of ring 1's input queue. -/
def entryWith (op cls rest : Nat) (body : List W64) : Entry := { ring := 1, idx := 0, words := w0 op cls rest :: body }
def hdr : PmpHdr := { src := 5, magicOk := true, version := 1, opOk := true, lenOk := true, seq := 9 }
def linked (d : Dev) : Dev := { d with hst.linkUp := true, hst.bme := true }
def running (d : Dev) : Dev := { d with tmb.run := true }
def off : State := w (fun d => { d with pwr.mainPg := false })
def queued : State := { s0 with pending := [.pciePerstNRise] }
def staged : State := w (fun d => { d with mgt.stage := upd d.mgt.stage 0 (fun _ => some { off := 0x100000, v := 7 }) })
def readKept : State := w (fun d => { d with mgt.rdLatch := upd d.mgt.rdLatch 0 (fun _ => some { off := 0x100000, v := 7 }) })
def linkUp : State := w linked
def polls : State := w (fun d => (linked d).setRwNow Reg.HST_DB_BASE_EN 1 0)
def pollOut : State := w (fun d => { ((linked d).setRwNow Reg.HST_DB_BASE_EN 1 0) with hst.dbOut := true })
def polled : State := w (fun d => { withRing 1 2 4 d with hst.dbOut := true })
def doneReady : State := w (withRing 0 9 4)
def ringOn : State := w (fun d => withRing 1 2 4 (withRing 0 9 4 d))
def fetched : State := w (fun d => (withRing 1 2 4 (withRing 0 9 4 d)).updRing 1 (fun r => { r with fetching := 1 }))
def cfgSub : W64 := 0x0000000001000402
def cfgBad : W64 := 0x0000000001000302
def cfgOff : W64 := 0x0000000000000402
def item (c : Nat) (k : ItemKind) : Item := { kind := k, code := c, stamp := { beat := 2 ^ 32 - 1, cycle := 79, source := 0, sub := 0, device := 0, time := 0 } }
def doneWaits : State := w (fun d => { linked (withRing 1 2 4 (withRing 0 9 4 d)) with ev.merge := [item 0 (.done 1 0 0)] })
def doneFull : State := w (fun d => { (withRing 1 2 4 (withRing 0 9 4 d)).updRing 0 (fun r => { r with index := 16 }) with
  ev.merge := [item 0 (.done 1 0 0)] })
def eventWaits : State := w (fun d => { d with ev.merge := [item 0x100A (.event 1)] })
def heldRing : State := w (fun d => (withRing 2 10 4 d).updRing 2 (fun r => { r with holdQ := List.replicate 32 (item 1 (.event 1)) }))
def moderated : State := w (fun d => (((linked d).setRwNow Reg.HST_RING_IRQ_IRQ_EN 1 3).setRwNow Reg.HST_RING_IRQ_MOD_BEATS 1 3).updRing 3
  (fun r => { r with firstBeat := some (2 ^ 32 - 1) }))
def unmasked : State := { moderated with dev.hst.msix := Vector.replicate 256 { ctrl := 0 } }
def bar2On : State := w (fun d => d.setRwNow Reg.HST_CTL_BAR2_WR_EN 1 0)
def scrubs : State := w (fun d => d.setRwNow Reg.MEM_SRAM_CTL_SCRUB_PERIOD 7 0)
def linkKeeps : State := linkUp
def waking : State := w (fun d => { d with pwr.isl := [(128, 2)], pwr.wake := [(128, -64)] })
def resetDue : State := w (fun d => { d with mgt.resetAt := some 0 })
def mainLow : State := off
def refGone : State := w (fun d => { d with pwr.ref100 := false })
def standbyGone : State := w (fun d => { d with pwr.standby := false })
def sequencing : State := w (fun d => { d with pwr.seqDone := false })
def heldReset : State := w (fun d => { d with pwr.resetN := false })
def latched : State := w (fun d => { d with thm.latch := true })
def ringAsked : State := w (fun d => d.setRwNow Reg.HST_RING_CFG_ENABLE 1 1)
def ringDropped : State := w (fun d => d.updRing 1 (fun r => { r with st := .active, holdQ := [item 2 (.event 1)] }))
def itemNow : Item := { item 0x100A (.event 1) with stamp := s0.dev.stamp 16 }
def eventToday : State := w (fun d => { d with ev.merge := [itemNow] })
def reading : State := w (fun d => { (d.setRwNow Reg.MEM_DDR_CFG_DENSITY 1 0).setRwNow Reg.MEM_DDR_CFG_EN 1 0 with
  memc.ddr := upd d.memc.ddr 0 (fun c => { c with st := .up }) })
def idle : State := w (fun d => { d with pwr.idle := [(128, 64)] })
def idleLong : State := w (fun d => { d with pwr.idle := [(128, 20000000)] })
def scrubOff : State := w (fun d => d.setRwNow Reg.MEM_SRAM_CTL_SCRUB_PERIOD 0 0)
def inGrace (n : Nat) : State := w (fun d => { d with pwr.mainPg := false, pwr.clock := 2 ^ 80, thm.sens := upd d.thm.sens n (fun c => { c with st := .grace }) })
def badHdr : PmpHdr := { hdr with magicOk := false }
def replied : State := w (fun d => { d with mgt.replies := [{ src := 5, seq := 9, status := 0, data := [1] }] })
/-- Every on-die sensor has been read, at 40 °C. -/
def cool (d : Dev) : Dev := { d with thm.sens := d.thm.sens.map (fun x => { x with read := true, temp := 640 }) }
def cooled : State := w cool
def loading : State := w (fun d => (cool d).updFw 1 (fun _ => { st := .loading, len := 8192, sha := 0 }))
def verified1 : State := w (fun d => (cool d).updFw 1 (fun _ => { st := .verified }))
def activating : State := w (fun d => { d with mgt.act := some { slot := 1, since := 0 } })
def activated : State := w (fun d => { d with mgt.act := some { slot := 1, since := -42949672960000000000 } })
def trial : State := w (fun d => (cool d).updFw 1 (fun _ => { st := .trial }))
def configured : State := w (fun d => { cool d with mgt.settings := some { format := 0, gen := 255, body := [] } })
def dramUp : State := w (fun d => ((d.setRwNow Reg.MEM_DDR_CFG_EN 1 0).updDdr 0 (fun x => { x with st := .up })))
def anExport : Export := { src := 5, seq := 8, id := 0, addr := 0, len := 16, port := 0, dst := 0, udp := 0 }
def exports : State := w (fun d => { d with mgt.exporting := some anExport, lnk.ethUp := Vector.replicate 2 true })
def inRing (e : Entry) (d : Dev) : Dev := (d.setRwNow Reg.HST_RING_CFG_ENABLE 1 1).updRing 1 (fun r => { r with st := .active, inQ := [e], passed := 1 })
def psetGood : Entry := entryWith 1 2 0 [0xFFF, 0x1000, 0, 0, 0]
def psetBad : Entry := entryWith 1 2 0 [0, 0, 0, 1, 0]
def psetLoads : Entry := entryWith 2 2 0 [0x1000, 0x10FFF]
def psetEmpty : Entry := entryWith 2 2 0 [0x1000, 0x20FFF]
def loadAsked : State := w (fun d => { d with crs.loads := [psetLoads] })
def goodSet : List Byte := List.replicate 32 0
def badSet : List Byte := List.replicate 31 0 ++ [1]
def commitNow : Entry := entryWith 3 2 0 []
def commitAt (b : Nat) : Entry := entryWith 3 2 (2 ^ 51 + b) []
def commitDue : State := w (fun d => { d with crs.commitReqs := [(0, commitNow)] })
def usedSet : Brick := { key := 0, entry := commitNow, psets := [7], st := .ready }
def clashes : State := w (fun d => { d with crs.commitReqs := [(0, commitNow)], crs.bricks := [usedSet] })
def descGood (n : Nat) : Entry := entryWith 1 1 0 [0x1000, BitVec.ofNat 64 (n * 2 ^ 32 + 80)]
def descBad : Entry := entryWith 1 1 0 [0x1001, 80]
def courseSeven (st : CourseState) (d : Dev) : Dev := { linked d with crs.st := st, crs.number := 7, crs.lastValid := true }
/-- A header of one vector, and a brick of it. -/
def header (w6 w7 : W64) : List W64 := [0x0000000000010001, 0x0000000700000001, 0, 0, 0, 0, w6, w7]
def jumpVec : List W64 := [0, 0x2000000000000000]
def under (bytes : Nat) : Brick := { key := 0x100000000, entry := descGood 7, course := 7, bytes, pages := [3] }
def checks : State := w (fun d => { courseSeven .open d with crs.bricks := [under 80], crs.pagesUsed := [3] })
def brickBytes (crc : Nat) : List Byte := wordBytes (header 0 (BitVec.ofNat 64 (crc * 2 ^ 32)) ++ jumpVec)
def validSet : State := { checks with mem.sram := (checks.mem.putSram (psetActive + 7) [0x80]).sram }
def beginSeven : Entry := entryWith 2 1 0 [0x0000000700000000]
def endSeven : Entry := entryWith 3 1 0 [0x0000000700000005]
def abortSeven : Entry := entryWith 4 1 0 [0x0000000700000000]
def onRing (e : Entry) (f : Dev → Dev) : State := w (fun d => inRing e (running (f d)))
def handing : State := w (fun d => { d with mgt.serveFrom := some 1 })
def psetAt (b : Nat) : Entry := entryWith 1 2 (2 ^ 51 + b) [0xFFF, 0x1000, 0, 0, 0]
/-- Set 7 is valid in the active bank, and a brick in progress names it. -/
def clashes7 : State :=
  let s := w (fun d => { d with crs.commitReqs := [(0, commitNow)], crs.bricks := [usedSet] })
  { s with mem.sram := (s.mem.putSram (psetActive + 32 * 7) [1]).sram }
/-- A brick table with no room left. -/
def fullTable : AssocMap Nat := (List.range 1048576).map (fun i => (i, 1))
def tableFull (e : Entry) : State := onRing e (fun d => { courseSeven .open d with crs.table := fullTable })
def beginLate : Entry := entryWith 2 1 (2 ^ 51) [0x0000000800000000]
def beginEight : Entry := entryWith 2 1 0 [0x0000000800000000]
def endLate : Entry := entryWith 3 1 (2 ^ 51) [0x0000000700000005]
def abortLate : Entry := entryWith 4 1 (2 ^ 51) [0x0000000700000000]
def later (s : State) : State := { s with dev.tmb.time := 2 * 50 * 4294967296 }
def withEff (f : Field) (v : Nat) (i : Nat) (d : Dev) : Dev :=
  { d with regs.effect := Assoc.put d.regs.effect (f.key i 0) (f.fit v) (f.resetAt i) }
def brick5 : Brick := { key := 5, entry := descGood 7, course := 7, id := 5, reach := 1, st := .ready, vcount := 1, pages := [3] }
def withBrick (b : Brick) (d : Dev) : Dev := { running d with crs.bricks := [b] }
def laser0 (l : Laser) (d : Dev) : Dev := { d with msn.lasers := upd d.msn.lasers 0 (fun _ => l) }
def piste0 (p : Piste) (d : Dev) : Dev := { d with pth.p := upd d.pth.p 0 (fun _ => p) }
def chan0 (c : Chan) (d : Dev) : Dev := { d with lsr.ch := upd d.lsr.ch 0 (fun _ => c) }
def atCut (d : Dev) : Dev := { d with msn.ready := [5], msn.cutReady := [5], msn.cutFree := 1, tmb.cycle := 64 }
def free0 : State := w (fun d => atCut (laser0 { st := .idle } (withBrick brick5 d)))
def freeNone : State := w (fun d => atCut (laser0 { st := .idle } (withBrick { brick5 with reach := 2 } d)))
def held : State := w (fun d => { running d with msn.cutHold := true, tmb.cycle := 79 })
def urgent5 : Brick := { brick5 with urgent := true }
def freeUrgent : State := w (fun d => atCut (laser0 { st := .idle } (withBrick urgent5 d)))
def assigned (st : LaserState) : State := w (fun d => laser0 { st, assigned := some 5 } (withBrick brick5 d))
def waitsBeat (b : Nat) : State :=
  w (withBrick { brick5 with st := .waitBeat, entry := { brick5.entry with words := [w0 1 1 (2 ^ 51 + b)] } })
def waitsBrick (b : Nat) : Brick := { brick5 with st := .waitBeat, entry := { brick5.entry with words := [w0 1 1 (2 ^ 51 + b)] } }
def oldBrick : Brick := { brick5 with readyAt := -1000000000 }
def starved : State := w (fun d => { withBrick oldBrick d with msn.ready := [5] })
def strayBrick : Brick := { brick5 with unplaceable := some (-100000000000) }
def stray : State := w (fun d => { withBrick strayBrick d with msn.ready := [5] })
def depBrick : Brick := { brick5 with st := .waitDep, deps := [9] }
def stuck : State := w (fun d => { withBrick depBrick d with crs.st := .closing, crs.number := 7 })
def ctlWord : W64 := s0.dev.regValue s0.mem 0x200000 0
def holdWord : W64 := ctlWord ||| BitVec.ofNat 64 (2 ^ Reg.MSN_CTL_HOST_HOLD.lo)
def hostHeld : State := w (fun d => { (linked d).setRwNow Reg.MSN_CTL_HOST_HOLD 1 0 with msn.holdCauses := 1 })
/-- A vector of brick 5 that emits through the coming beats, and the piste that marks it. -/
def lit : Planned := { key := 5, op := 1, on := 0, off := 1000, t1 := 4294967296000, len := 65536, ex := 1 }
def marking : Piste := { st := .running, planned := [lit], run := some { key := 5, vcount := 1, next := 1 }, slot := 0 }
def guarded (f : Dev → Dev) : State := w (fun d => f (piste0 marking (laser0 { st := .running, running := some 5 } (withBrick brick5 d))))
def plumeOf1 (d : Dev) : Dev :=
  withEff Reg.MSN_PLUME_VICTIM 1 0 { d with msn.lasers := upd d.msn.lasers 1 (fun l => { l with
    sliceOpen := true, trail := [{ u0 := -1, u1 := 1, v0 := -1, v1 := 1, cls := 0, bid := 9, opened := 0, last := 0 }] }) }
def clearOf1 : State := guarded (fun d => d)
def heldBy1 : State := guarded plumeOf1
def point0 : GuardPoint := { laser := 0, bid := 5, cls := 0, u := 0, v := 0 }
def noGuard : State := w (fun d => d.setRwNow Reg.MSN_CTL_GUARD_EN 0 0)
def passing (held : Bool) : State := w (fun d => piste0 { marking with st := .holding, holdT := 0, holdDur := 343597383680 }
  (laser0 { st := .plumeHeld, running := some 5, guardHold := held } (withBrick brick5 d)))
def tooLong : State := w (fun d => (piste0 { marking with st := .holding } (laser0 { st := .plumeHeld, running := some 5, heldSince := -1000000000 }
  (withBrick brick5 d))).setRwNow Reg.MSN_LIMITS_PLUME_HOLD_MAX 1 0)
def aSlice (o : Int) : Slice := { u0 := 0, u1 := 1, v0 := 0, v1 := 1, cls := 0, bid := 9, opened := o, last := o }
def trailOpen (o : Int) : State := w (laser0 { st := .running, trail := [aSlice o], sliceOpen := true })
def dropped : State := w (fun d => piste0 marking (chan0 { drop := true, dropBeat := -1, offAt := 0 }
  (laser0 { st := .running, running := some 5 } (withBrick brick5 d))))
def remnantDue (b : Brick) (at_ : Int) : State := w (fun d => { withBrick b d with msn.due := [(5, at_)] })
def brick0 : Brick := { brick5 with reach := 0 }
def lateRemnant : State := w (fun d => { withBrick brick5 d with msn.due := [(5, 0)], tmb.cycle := 48 })
def lostRemnant : State := w (fun d => { withBrick { brick5 with reach := 0 } d with msn.due := [(5, 0)], tmb.cycle := 48 })
def stopped : State := w (fun d => piste0 { st := .stopping } (laser0 { st := .stopping } (running d)))
def ending : State := w (fun d => piste0 { marking with lastT := 920 } (laser0 { st := .running, running := some 5 } (withBrick brick5 d)))
def parked0 : State := w (fun d => piste0 { st := .parked, slot := 0 } (running d))
def refills : State := w (fun d => piste0 { st := .running, run := some { key := 5, vcount := 1, refill := true } } (withBrick brick5 d))
def seamVec0 : Planned := { key := 5, op := 1, sx := -1000000, ex := 1000000, len := 131072000000, t1 := 24481313587200, on := 0, off := 5700 }
def zone0 (d : Dev) : Dev :=
  (((((((((d.setRwNow Reg.PTH_SEAM_CTL_EN 1 0).setRwNow Reg.PTH_SEAM_CTL_SEAM_LEAD 32 0).setRwNow Reg.PTH_SEAM_CFG_EN 1 0).setRwNow Reg.PTH_SEAM_CFG_CH_LO 0 0).setRwNow
    Reg.PTH_SEAM_CFG_CH_HI 1 0).setRwNow Reg.PTH_SEAM_CFG_K 2 0).setRwNow Reg.PTH_SEAM_LINE_HALF 100000 0).setRwNow
    Reg.PTH_SEAM_SPAN_LO 4293967296 0).setRwNow Reg.PTH_SEAM_SPAN_HI 1000000 0).setRwNow Reg.PTH_SEAM_BLEND_BLEND 65535 0
def offering : State := w (fun d => { piste0 { marking with planned := [seamVec0] } (zone0 (withBrick { brick5 with reach := 3, seamEn := true } d)) with
  lsr.ch := upd d.lsr.ch 1 (fun c => { c with st := .enabled }) })
def offered (s : State) : Dev :=
  (s.dev.planUntil s.mem 0 (s.dev.refTime 0) (((s.dev.beatWide + s.dev.act Reg.PTH_SEAM_CTL_SEAM_LEAD + 1) * 80) * cycUnit) 1024).1
def gridLoads (k : Nat) : Entry := entryWith 1 8 0 [0x40, BitVec.ofNat 64 k]
def gridSwaps : Entry := entryWith 2 8 0 [0x1000]
def loadingGrid : State := w (fun d => { d with pth.load := some { entry := gridLoads 16, slot := 16 } })
def swapping : State := w (fun d => { piste0 { st := .parked, slot := 3, swap := some (16, gridSwaps) } (running d) with tmb.cycle := 0 })
def offBeat : State := w (fun d => { running d with tmb.time := 214748364800 })
def askedHold : State := w (fun d => (linked d).setRwNow Reg.MSN_CTL_HOST_HOLD 1 0)
def heldNoMore : State := w (fun d => { linked d with msn.holdCauses := 1 })
def pend1 : PlumePend := { zone := 1, cls := 0, bid := 5, x := 0, y := 0 }
def pends : State := guarded (fun d => laser0 { st := .running, running := some 5, pendHold := some pend1 } (piste0 { marking with st := .holding } d))
def droppedAt (st : LaserState) : State := w (fun d => chan0 { drop := true, dropBeat := -1, offAt := 0 } (laser0 { st } (running d)))
def endingQueued : State := w (fun d => piste0 { marking with lastT := 920, queued := some { key := 6, vcount := 1 } }
  (laser0 { st := .running, running := some 5, queued := some 6 } { withBrick brick5 d with crs.bricks := [brick5, { brick5 with key := 6, id := 6, st := .queued, pages := [4] }] }))
def gridWords (crc : Nat) : List W64 := [0xFFF00000FFF00000, 0x0010000000000000, 16, BitVec.ofNat 64 (crc * 2 ^ 32), 0, 2 ^ 63, 0, 0]
/-- Slot `k` with that header over a grid of zeros. -/
def gridOf (k c : Nat) : Mem := ({} : Mem).putSram (gridAddr k) (wordBytes (gridWords c))
def goodGrid (k : Nat) : Mem := gridOf k (crc32 (List.replicate 532512 0))
def starves : State := w (fun d => piste0 { marking with planned := [], run := some { key := 5, vcount := 300, next := 128, refill := true } }
  (laser0 { st := .running, running := some 5 } (withBrick { brick5 with vcount := 300 } d)))
def refillsQ : State := w (fun d => piste0 { st := .running, queued := some { key := 5, vcount := 300, next := 200, refill := true } } (withBrick brick5 d))
def offeringAt (lead : Nat) : State := { offering with dev := offering.dev.setRwNow Reg.PTH_SEAM_CTL_SEAM_LEAD lead 0 }
def fits (d : Dev) : Dev :=
  ((((d.setRwNow Reg.PTH_FIELD_X_MIN 0 0).setRwNow Reg.PTH_FIELD_X_MAX 0 0).setRwNow Reg.PTH_FIELD_Y_MIN 0 0).setRwNow Reg.PTH_FIELD_Y_MAX 0 0).setRwNow
    Reg.PTH_DYN_VMAX_JUMP 1 0
def swaps (f : Dev → Dev) : State := { w (fun d => f (inRing gridSwaps d)) with mem := goodGrid 16 }
def usedSlot (d : Dev) : Dev := { d with pth.p := upd d.pth.p 1 (fun p => { p with slot := 16 }) }
def closedChain (d : Dev) : Dev := { running d with safe.closed := true, safe.raw := true }
def setChan (c : Chan) (d : Dev) : Dev := { d with lsr.ch := upd d.lsr.ch 0 (fun _ => c) }
def axesClosed (d : Dev) : Dev := { d with srv.ax := Vector.replicate 48 { st := .closed } }
/-- Every condition of R194 for channel 0 holds. -/
def mayEnable : State := { w (fun d => axesClosed (withEff Reg.LSR_CHAN_SCALE_FULL_SCALE_W 1000 0 (piste0 { slot := 16 } (closedChain (fits d))))) with mem := gridOf 16 0 }
def ctlOn : W64 := s0.dev.regValue s0.mem 0x401000 0 ||| BitVec.ofNat 64 (2 ^ Reg.LSR_CHAN_CTL_EN.lo)
def ctlOff : W64 := ctlOn ^^^ BitVec.ofNat 64 (2 ^ Reg.LSR_CHAN_CTL_EN.lo)
def enAct (d : Dev) : Dev := d.setRwNow Reg.LSR_CHAN_CTL_EN 1 0
def armsNow : State := w (fun d => enAct (closedChain d))
def opened : State := w (fun d => enAct (running d))
def chanIs (c : Chan) : State := w (fun d => setChan c (closedChain d))
def chanOn (c : Chan) : State := w (fun d => enAct (setChan c (closedChain d)))
def arming : Chan := { st := .arming, since := -100000000, ready := true }
def notReady : State := w (fun d => (setChan { arming with ready := false } (closedChain d)).setRwNow Reg.LSR_CHAN_CTL_READY_REQ 1 0)
def notReadyYet : State := w (fun d => (setChan { arming with ready := false, since := 0 } (closedChain d)).setRwNow Reg.LSR_CHAN_CTL_READY_REQ 1 0)
def enabled : Chan := { st := .enabled, ready := true, alarmAt := -1000000000, readyAt := -1000000000 }
def alarmed : Chan := { enabled with alarm := true }
def readyReq (s : State) : State := { s with dev := s.dev.setRwNow Reg.LSR_CHAN_CTL_READY_REQ 1 0 }
def pended (c : Nat) : State := chanOn { enabled with pend := 2 ^ c }
def beacon2 (d : Dev) : Dev := (d.setRwNow Reg.LSR_CHAN_BEACON_BEACON_EN 1 0).setRwNow Reg.LSR_CHAN_BEACON_BEACON 2 0
def reportOf (st : Nat) (c : Chan) : State := w (fun d => setChan c (beacon2 (closedChain { d with lsr.reported := upd d.lsr.reported 2 (fun _ => some st) })))
def unverified (b0 : Int) : State := w (fun d => setChan { enabled with unverSince := some b0 } (beacon2 (closedChain d)))
def faulted : Chan := { st := .fault }
def causes (v : Nat) (d : Dev) : Dev := { d with regs.w1c := Assoc.put d.regs.w1c (Reg.LSR_CHAN_FAULT_CAUSE.key 0 0) v 0 }
def beats (n : Nat) (s : State) : State := { s with dev.tmb.time := n * 50 * 4294967296 }
def mpmIs (c : MpmChan) (d : Dev) : Dev := { d with mpm.ch := upd d.mpm.ch 0 (fun _ => c) }
/-- A sample of a whole emitting beat of vector 0 of brick 5. -/
def emitting (b : Int) : Sample := { beat := b, s := 20000, nom := 20000, on := 0, off := 80, mpm := true, kind := 1, brick := 5, key := 5, vec := 1, pv := some (5, 1, 0) }
def loopRef : LoopRef := { valid := true, level := 10000, lo := -8192, hi := 8192, b0 := 268435456, b1 := 0, b2 := 0, a1 := 0, a2 := 0 }
/-- Channel 0 of a safe device in an emitting beat, with its melt-pool channel. -/
def melts (c : Chan) (m : MpmChan) (f : Dev → Dev) : State := w (fun d => f (mpmIs m (setChan c (withEff Reg.LSR_CHAN_SCALE_GAIN 32768 0
  (withEff Reg.LSR_CHAN_SCALE_DAC_MAX 60000 0 (closedChain d))))))
def lastTwo : Chan := { enabled with now := emitting 0, prev := emitting (-1) }
def measured (c : MpmChan) : State := melts lastTwo { c with ref := loopRef } (fun d => withEff Reg.MPM_CHAN_TRIM_MP_GAIN 32768 0 d)
def meas0 : Meas := { beat := 0, pv := some (5, 1, 0), m := 10000, r := 10000, valid := true, br := [0] }
def secondHalf (m : Meas) : State := melts lastTwo { ref := loopRef, meas := [m] } (fun d => { d with tmb.cycle := 40 })
def due (x : Sample) : Chan := { enabled with pipe := [x], highRun := 3 }
def loopOn (d : Dev) : Dev := d.setRwNow Reg.MPM_CHAN_CTL_LOOP_EN 1 0
def meas3 : Meas := { beat := -3, pv := some (5, 1, 0), m := 9000, r := 10000, valid := true, br := [0, 0] }
def inLoop : MpmChan := { ref := loopRef, refOf := some (5, 1, 0), meas := [meas3], y1 := 100 }
def heldBeat : Sample := { emitting 0 with hold := true }
def counted : MpmChan := { brRun := 100000, lowRun := 100000, satRun := 100000 }
def axisIs (x : Axis) (d : Dev) : Dev := { running d with srv.ax := upd d.srv.ax 1 (fun _ => x) }
def loop1 : Loop := { b0 := 16777216, b1 := 100, a1 := 3, acc1 := 55, e1 := 2 }
def closedAx : Axis := { st := .closed, pl := loop1, vl := loop1, pos := 500, posOld := 400, vref := 700, iref := 12, bridge := .fwd, dwell := 15 }
def servo (x : Axis) : State := w (axisIs x)
def servoEn (x : Axis) : State := w (fun d => (axisIs x d).setRwNow Reg.SRV_AXIS_CTL_EN 1 1)
def overflowing : Axis := { closedAx with pl := { loop1 with acc1 := 2 ^ 62, a1 := -2 ^ 30 }, vl := { loop1 with acc1 := 2 ^ 62, a1 := -2 ^ 30 } }
def at76 (f : Dev → Dev) : State := w (fun d => f { axisIs closedAx d with tmb.cycle := 76 })
def slot0 (d : Dev) : Dev := { d with pth.p := upd d.pth.p 0 (fun p => { p with slot := 0 }) }
def acquires (l : Int) : State := w (fun d => slot0 (axisIs { closedAx with st := .acquire, localRef := l } d))
def brokenAx : Axis := { closedAx with perrRun := 100000, stuckRun := 100000, senseRun := 4, rangeRun := 100000 }
def bankOk (k : Nat) (d : Dev) : Dev := withEff Reg.SRV_BANK_CFG_VALID 1 k d
def committed (nxt : AssocMap Nat) (f : Dev → Dev) : State := w (fun d => f { axisIs closedAx d with crs.srvPending := true, regs.srvNext := nxt })
def swapsTo (mode : Nat) : AssocMap Nat :=
  Assoc.put (Assoc.put (Assoc.put [] (Reg.SRV_AXIS_BANK_BANK.key 1 0) 2 0) (Reg.SRV_BANK_CFG_VALID.key 2 0) 1 0) (Reg.SRV_BANK_CFG_MODE.key 2 0) mode 0
def axCtl (en : Nat) : W64 := BitVec.ofNat 64 ((s0.dev.regValue s0.mem 0x501040 0).toNat / 2 * 2 + en)
def axOn (f : Dev → Dev) : State := w (fun d => f (bankOk 0 (running d)))
def camWord (en : Nat) : W64 := BitVec.ofNat 64 ((s0.dev.regValue s0.mem 0x701000 0).toNat / 2 * 2 + en)
def capOf (frames outs rest : Nat) : Entry := entryWith 1 7 0 [BitVec.ofNat 64 (frames * 2 ^ 48 + 4 * 2 ^ 40 + outs * 2 ^ 36 + rest), 0x10000, 0, 0, 0]
def aFrame (a : Entry) : CamFrame := { seq := 0, arm := a, sof := default, width := 4, height := 2, bits := 10, black := 3, shading := List.replicate 1089 0x4000 }
def camera (p : CamPort) : State := w (fun d => { (linked ((d.setRwNow Reg.CAM_PORT_GEOM_WIDTH 4 1).setRwNow Reg.CAM_PORT_GEOM_HEIGHT 2 1)) with cam.port := upd d.cam.port 1 (fun _ => p) })
def inFrame (f : CamFrame) : CamPort := { st := .frame, arm := some f.arm, frame := some f, capture := 0 }
def aLine (r : Nat) : CamLine := { seq := 0, row := r, px := [64, 128, 192, 256], real := 4 }
def timing (n : Nat) (s : State) : State := { s with dev := s.dev.setRwNow Reg.CAM_PORT_GEOM_FRAME_TIMEOUT n 1 }
def camEntry (op : Nat) (ws : List W64) : Entry := { entryWith op 7 0 ws with seq := 0 }
def camAsks (e : Entry) (p : CamPort) : State := { camera p with dev := inRing e (camera p).dev }
def bigArm : Entry := capOf 1 1 1
def engineLine (a : Entry) : CamPort := { inFrame { aFrame a with received := 2 } with buf := [aLine 1] }
def unlinked (s : State) : State := { s with dev.hst.bme := false }
def heldLine (b : Int) (link : Bool) : State :=
  let s := camera (inFrame { aFrame bigArm with received := 2 })
  { s with dev.hst.bme := link, dev.cam.eng := upd s.dev.cam.eng 0 (fun e => { e with held := some (1, aLine 1, b) }) }
def stopEntry : Entry := camEntry 2 [1]
def stopLater : Entry := { stopEntry with words := [w0 2 7 (2 ^ 51 + 5), 1] }
def tableEntry (kind len fmt : Nat) : Entry := camEntry 3 [BitVec.ofNat 64 (1 + kind * 256), BitVec.ofNat 64 (0x10000 + fmt), BitVec.ofNat 64 len]
def cdcOn (d : Dev) : Dev := (linked d).setRwNow Reg.CDC_CTL_EN 1 0
/-- Word 6 of a codec entry. -/
def packs (op src dst n1 n2 w6 : Nat) : Entry :=
  entryWith op 5 0 [BitVec.ofNat 64 src, BitVec.ofNat 64 dst, BitVec.ofNat 64 (n1 * 2 ^ 32 + n2), 0, 0, BitVec.ofNat 64 w6]
def lvl : Nat := 2 ^ 60
def compress1 : Entry := packs 1 0x10000 0x20000 4 100 (lvl + 2 ^ 53)
def expand1 : Entry := packs 2 0x10000 0x20000 7 100 0
def badPack : Entry := packs 1 0x10000 0x10000 4 100 lvl
def resumed : Entry := { packs 1 0x10000 0x20000 4 100 (lvl + 2 ^ 54) with words := [w0 1 5 0, 0x10000, 0x20000, BitVec.ofNat 64 (4 * 2 ^ 32 + 100), 0x100000, 0, BitVec.ofNat 64 (lvl + 2 ^ 54)] }
def codecAsks (e : Entry) (f : Dev → Dev) : State := w (fun d => inRing e (f (cdcOn d)))
def jobOf (e : Entry) : CodecJob := { entry := e, stream := newStream e }
def jobRuns (e : Entry) : State := w (fun d => { cdcOn d with cdc.job := some (jobOf e) })
def queuedJob (e : Entry) (f : Dev → Dev) : State := w (fun d => f { cdcOn d with cdc.queue := [jobOf e] })
def kept1 : Entry := { compress1 with words := [w0 1 5 (2 ^ 51 + 5), 0x10000, 0x20000, BitVec.ofNat 64 (4 * 2 ^ 32 + 100), 0, 0, BitVec.ofNat 64 lvl] }
def fromDram : Entry := packs 1 0x10000 0x20000 4 100 (lvl + 2 ^ 57 + 2 ^ 53)
def codecOff : Dev := { s0.dev.setRwNow Reg.CDC_CTL_EN 0 0 with cdc.queue := [jobOf compress1], cdc.job := some (jobOf expand1) }
def wasOn : RegFile := (cdcOn s0.dev).regs
def moveOf (mode sz src dst ch streams fbit planes count stride a b : Nat) : Entry :=
  entryWith 1 6 0 [BitVec.ofNat 64 a, BitVec.ofNat 64 b, BitVec.ofNat 64 (count * 2 ^ 32 + stride),
    BitVec.ofNat 64 (mode * 2 ^ 60 + sz * 2 ^ 58 + src * 2 ^ 56 + dst * 2 ^ 54 + ch * 2 ^ 49 + (streams - 1) * 2 ^ 44 + fbit * 2 ^ 38 + (planes - 1) * 2 ^ 32)]
def dmaA : Nat := 0x3000000
def copy1 : Entry := moveOf 0 2 2 2 31 1 0 1 4 0 dmaA (dmaA + 0x1000)
def copyHost : Entry := moveOf 0 2 0 2 31 1 0 1 4 0 dmaA (dmaA + 0x1000)
def plane1 : Entry := moveOf 1 0 2 2 31 1 2 3 64 8 dmaA (dmaA + 0x1000)
def plane2 : Entry := moveOf 2 0 2 2 31 1 2 3 64 8 dmaA (dmaA + 0x1000)
def split1 : Entry := moveOf 4 1 2 2 31 3 0 1 5 16 dmaA (dmaA + 0x1000)
def merge1 : Entry := moveOf 3 1 2 2 31 3 0 1 5 16 dmaA (dmaA + 0x1000)
def badMove : Entry := moveOf 5 0 2 2 31 1 0 1 4 0 0 0
def dmaIs (c : Nat) (x : DmaChan) (d : Dev) : Dev :=
  { (linked d).setRwNow Reg.DMA_CHAN_CFG_EN 1 c with dma.ch := upd d.dma.ch c (fun _ => x) }
def moving (c : Nat) (x : DmaChan) : State := w (dmaIs c x)
def movesAsk (e : Entry) (x : DmaChan) : State := w (fun d => inRing e (dmaIs 31 x d))
def runs (e : Entry) : DmaChan := { run := some { entry := e } }
def mixed (s : State) : State := { s with mem.sram := (s.mem.putSram dmaA (List.replicate 64 0xA5)).sram }
def abortOf (flush : Nat) : Entry := entryWith 2 6 0 [BitVec.ofNat 64 (31 + 256 * flush)]
def readsBack : DmaRun := { entry := copy1, readBack := true }
def ddrWord (en rate : Nat) : W64 := BitVec.ofNat 64 (en * 2 ^ Reg.MEM_DDR_CFG_EN.lo + rate * 2 ^ Reg.MEM_DDR_CFG_RATE.lo)
def ddrIs (st : DdrState) (x : Ddr) (d : Dev) : Dev := { d with memc.ddr := upd d.memc.ddr 0 (fun _ => { x with st }) }
def ddrSt (st : DdrState) : State := w (ddrIs st {})
def ddrOn (f : Dev → Dev) : State := w (fun d => f (d.setRwNow Reg.MEM_DDR_CFG_EN 1 0))
def keptStream : CodecStream := { level := 1 }
def contextOf (x : CodecStream) : List Byte := wordBytes (contextHeader x 0) ++ contextBody 0
def remembers (e : Entry) : State := codecAsks e (fun d => { d with cdc.contexts := [(0, keptStream)] })
def changed : W64 := ddrWord 0 3200
def ddrNow : W64 := BitVec.ofNat 64 ((ddrOn (fun d => d)).dev.regValue {} 0xA01000 0).toNat
def portUses (d : Dev) : Dev := { d with dma.ch := upd d.dma.ch 31 (fun _ => runs (moveOf 0 2 1 2 31 1 0 1 4 0 0 dmaA)), memc.ddr := upd d.memc.ddr 0 (fun _ => { st := .up }) }
def stored1 : List Byte := (1 : Byte) :: (leBytes 2 2 ++ leBytes 2 65533 ++ [9, 8])
def dmaOff (x : DmaChan) : Dev := { s0.dev.setRwNow Reg.DMA_CHAN_CFG_EN 0 31 with dma.ch := upd s0.dev.dma.ch 31 (fun _ => x) }
def testWord (pattern loop rate inject : Nat) : W64 := BitVec.ofNat 64 (rate * 4096 + inject * 65536 + loop * 16 + pattern)
def testingLane (x : LaneState) : State := w (fun d => { d.setRwNow Reg.LNK_LANE_TEST_PATTERN 1 8 with lnk.lanes := upd d.lnk.lanes 8 (fun _ => x) })
def portIs (p : Nat) (b : BlPort) (d : Dev) : Dev := { d with lnk.ports := upd d.lnk.ports p (fun _ => b) }
def port0 (b : BlPort) : State := w (portIs 0 b)
def later100 (s : State) : State := { s with dev.pwr.clock := 100 * msUnit }
def ethOn (f : Dev → Dev) : State := w (fun d => f (d.setRwNow Reg.LNK_ETH_CFG_EN 1 0))
def ethUp0 (d : Dev) : Dev := { d with lnk.ethUp := upd d.lnk.ethUp 0 (fun _ => true) }
def blCfg (en retry : Nat) : W64 := BitVec.ofNat 64 (retry * 2 ^ 24 + en)
def upPort : BlPort := { st := .up, peerDev := 2, peerDomain := 0 }
def helloWord (dom port dev : Nat) : W64 := pack [(1, 56), (dom, 40), (port, 32), (dev, 0)]
def device1 (d : Dev) : Dev := d.setRwNow Reg.LNK_DEV_DEVICE 1 0
def peers (b : BlPort) : State := w (fun d => device1 (portIs 0 b d))
def withCrc (x : Nat) : W64 := BitVec.ofNat 64 (x + crc8 x)
def control (flags ack0 ack1 cr0 cr1 : Nat) : W64 := withCrc (0x2D * 2 ^ 56 + ack0 * 2 ^ 44 + ack1 * 2 ^ 32 + cr0 * 2 ^ 24 + cr1 * 2 ^ 16 + flags * 2 ^ 14)
def sentFrame (seq : Nat) : Frame := { ftype := 2, hops := 0, dst := 2, src := 1, seq, words := [7] }
def retrying (naks : Nat) : BlPort := { upPort with vl := upd upPort.vl 0 (fun v => { v with retry := [sentFrame 4, sentFrame 5], naks, nakAck := 4 }) }
/-- The lane blocks that carry block pairs, from scrambler states of zeros. -/
def onLanes (s0 s1 : BitVec 58) : List (BlBlock × BlBlock) → List (LaneBlock × LaneBlock)
  | [] => []
  | (a, b) :: t => ((a.onLane s0).1, (b.onLane s1).1) :: onLanes (a.onLane s0).2 (b.onLane s1).2 t
def pairUp : List BlBlock → List (BlBlock × BlBlock)
  | a :: b :: t => (a, b) :: pairUp t
  | [a] => [(a, idleBlock)]
  | [] => []
def onAir (f : Frame) : List (LaneBlock × LaneBlock) := onLanes 0 0 ((skipBlock, skipBlock) :: pairUp (frameBlocks f))
def toUs (seq : Nat) : Frame := { ftype := 3, hops := 2, dst := 1, src := 2, seq, words := [0x0102030405060708] }
def onward (hops : Nat) : Frame := { ftype := 3, hops, dst := 5, src := 2, seq := 0, words := [0x0102030405060708] }
def routed (d : Dev) : Dev := portIs 3 upPort (d.setRwNow Reg.LNK_ROUTE_P5 3 0)
def relays : State := w (fun d => device1 (portIs 0 upPort (routed d)))
def aLine0 : BlLine := { pairs := 16384, sinceSkip := 17 }
def arrived (f : Frame) (g : Dev → Dev) : State := w (fun d => g { device1 (linked d) with lnk.arrived := [(some 0, f)] })
/-- A BRICK frame of 80 bytes for course 7 from device 2, ring 3. -/
def brickFrame (idx : Nat) : Frame :=
  { ftype := 1, hops := 1, dst := 1, src := 2, seq := 0, words := streamWord 0 3 idx :: w0 1 1 0 :: BitVec.ofNat 64 (7 * 2 ^ 32) :: List.replicate 10 0 }
def fed1 (port : Option Nat) : FedIn := { frame := brickFrame 1, port }
def stream1 (q : List FedIn) (last : Int) : FedStream := { dev := 2, ring := 3, q, last }
def streaming (q : List FedIn) (last : Int) (d : Dev) : Dev := { d with lnk.streams := [stream1 q last] }
def fullStreams (d : Dev) : Dev := { d with lnk.streams := (List.range 64).map (fun i => { dev := 9, ring := i }) }
def ctrlFrame (sub : Nat) : Frame :=
  { ftype := 5, hops := 1, dst := 1, src := 2, seq := 0, words := streamWord sub 3 1 :: w0 2 1 0 :: 0x0000000700000000 :: List.replicate 6 0 }
def noPages (d : Dev) : Dev := { d with crs.pagesUsed := List.range 8192 }
def fedOut (sent : Bool) (since : Int) : FedEntry := { entry := { descGood 7 with seq := 0 }, dev := 2, pages := [9], sent, since }
def feeding (x : FedEntry) (d : Dev) : Dev := withRing 1 1 4 (withRing 0 9 4 (device1 (linked { d with lnk.fed := [x] })))
def feedsOn (sent : Bool) (since : Int) : State := w (fun d => portIs 3 upPort ((feeding (fedOut sent since) d).setRwNow Reg.LNK_ROUTE_P2 3 0))
def feedsOff (sent : Bool) (since : Int) : State := w (feeding (fedOut sent since))
def resultFrame (idx : Nat) : Frame := { ftype := 3, hops := 1, dst := 1, src := 2, seq := 0, words := streamWord 1 1 idx :: List.replicate 8 0 }
def remnantFrame (idx : Nat) : Frame := { ftype := 2, hops := 1, dst := 1, src := 2, seq := 0, words := streamWord 0 1 idx :: List.replicate 15 0 }
def foreignFrame : Frame := { ftype := 3, hops := 1, dst := 1, src := 2, seq := 0, words := List.cons (streamWord 2 0 0) (List.replicate 8 5) }
def foreignRing (d : Dev) : Dev := withRing 4 10 4 (((linked d).setRwNow Reg.HST_FOREIGN_ROUTE_EVT_EN 1 0).setRwNow Reg.HST_FOREIGN_ROUTE_EVT_RING 4 0)
def timeWords (root echo : Nat) : List W64 := [1000, 2000, 3000, 0, BitVec.ofNat 64 (echo * 2 ^ 15 + root)]
def rootSays : Heard := { root := 9, hops := 3, state := 0, upDev := 7, beat := 0 }
def at7 (f : Dev → Dev) : State := w (fun d => f { d with tmb.time := 7 * 50 * 4294967296 })
def startsAt (n : Nat) (d : Dev) : Dev := { d with tmb.startAt := some n }
def startTime (n : Nat) (d : Dev) : Dev := d.setRwNow Reg.TMB_START_TIME_START_TIME n 0
def beatStartWord (ppm : Nat) : W64 := BitVec.ofNat 64 (ppm * 65536 + 1)
def slaved (d : Dev) : Dev := portIs 3 upPort { d with lnk.upstream := 3 }
def clocked (b : Int) (pps : Bool) : Dev := { ((s0.dev.setRwNow Reg.MGT_GPIO_PPS_EN 1 0).setRwNow Reg.MGT_GPIO_CLK10_EN 1 0) with tmb.pps := pps, tmb.time := b * 50 * 4294967296 }
def captures (c : Capture) : State := w (fun d => { d.setRwNow { Reg.TMB_CAP_CTL_EDGE0 with hi := 5, lo := 4 } 1 0 with tmb.caps := upd d.tmb.caps 2 (fun _ => c) })
def ptpRuns (d : Dev) : Dev := (d.setRwNow Reg.TMB_PTP_CFG_EN 1 0).setRwNow Reg.TMB_PTP_CFG_PORTS 1 0
def ptpAt (st : Nat) (d : Dev) : Dev := { ptpRuns (d.setRwNow Reg.LNK_DEV_ROOT 1 0) with tmb.ports := upd d.tmb.ports 0 (fun _ => { state := st }) }
def slave0 (f : Dev → Dev) : State := w (fun d => f (ptpAt 9 { d with tmb.time := 10000000000 * 4294967296 }))
def msg (k : Nat) : PtpMsg := { kind := k, seq := 0, t := 0, corr := 0 }
def before0 : Measured := { source := 1, port := 0, time := 0 }
def launchCtl (arm port len : Nat) : W64 := BitVec.ofNat 64 (arm + port * 16 + len * 65536)
def slotAt (sl arm port t : Nat) (d : Dev) : Dev :=
  ((d.setRwNow Reg.TMB_LAUNCH_CTL_ARM arm sl).setRwNow Reg.TMB_LAUNCH_CTL_PORT port sl).setRwNow Reg.TMB_LAUNCH_TIME_TIME t sl
def slotReady (sl : Nat) (d : Dev) : Dev := { d with tmb.launchReady := upd d.tmb.launchReady sl (fun _ => true) }
def axEntry (op mask prof flags : Nat) (v0 v1 : Nat) (rest : Nat) : Entry :=
  entryWith op 3 rest [BitVec.ofNat 64 (mask + prof * 256 + flags * 65536), 0, 0, BitVec.ofNat 64 (v0 * 2 ^ 32 + v1), 0, 0, 0]
def axesOn (f : AxsAxis → AxsAxis) (d : Dev) : Dev := { running d with axs.ax := d.axs.ax.map (fun a => f { a with on := true }) }
def atTick (d : Dev) : Dev := { d with tmb.time := 100 * 50 * 4294967296, axs.tick := 100 }
def tickNext (d : Dev) : Dev := { running d with tmb.time := 100 * 50 * 4294967296 }
def axAsks (e : Entry) (f : Dev → Dev) : State := w (fun d => inRing e (atTick (f d)))
def homedAx (a : AxsAxis) : AxsAxis := { a with homed := true }
def freeAxes (d : Dev) : Dev := axesOn homedAx d
def aMove (mask : Nat) : AxMove :=
  { entry := some (axEntry 1 mask 0 0 9 0 0), mask, lead := 0, dist := upd (Vector.replicate 8 0) 0 (fun _ => 20000000000000), full := 20000000000000, len := 20000000000000,
    v := 1000, s := 100, ns := 3000, nv := 1500, vmax := 320000000000, acc := 16000000, dec := 16000000, edec := 80000000 }
def moves (x : AxMove) (d : Dev) : Dev := { d with axs.moves := [x] }
def homing (p : HomePhase) : AxMove := { aMove 1 with home := some { phase := p, plus := true }, v := 500, s := 2 * 10 ^ 13 }
def longMove (m : AxMove) : AxMove := { m with entry := some (axEntry 1 1 0 0 900 0 0), full := 1800000000000000, len := 1800000000000000, dist := upd (Vector.replicate 8 0) 0 (fun _ => 1800000000000000) }
def axCfg (en : Nat) (m : Nat) : W64 := BitVec.ofNat 64 ((s0.dev.regValue s0.mem (0xD01000 + 64 * m) 0).toNat / 2 * 2 + en)
def stepAx (a : AxsAxis) : Dev := { (s0.dev) with axs.ax := upd s0.dev.axs.ax 2 (fun _ => a), tmb.time := 100 * 50 * 4294967296 }
def inputAx (a : AxsAxis) (f : Dev → Dev) : State := w (fun d => f { running d with axs.ax := upd d.axs.ax 2 (fun _ => a), tmb.time := 100000 * 50 * 4294967296 })
def on2 : AxMove := { aMove 4 with lead := 2, dist := upd (Vector.replicate 8 0) 2 (fun _ => 20000000000000) }
def home2 (p : HomePhase) : AxMove := { on2 with home := some { phase := p, plus := true }, v := 500, s := 2 * 10 ^ 13 }
def enWas (m : Nat) : RegFile := (s0.dev.setRwNow Reg.AXS_AXIS_CFG_EN 1 m).regs
def litEntry (op rest : Nat) (ws : List W64) : Entry := entryWith op 4 rest ws
def lights (e : Entry) (f : Dev → Dev) : State := w (fun d => inRing e { running (linked (f d)) with tmb.time := 1024 * 50 * 4294967296 })
def lightSet (first count : Nat) : Entry := litEntry 1 0 [BitVec.ofNat 64 (first + count * 256), 0x0004000300020001, 0x5]
def lightLoad (a : Nat) : Entry := litEntry 2 0 [BitVec.ofNat 64 a]
def groupOff (m : Nat) : Entry := litEntry 3 0 [BitVec.ofNat 64 m]
def duties (unused : Nat) : List Byte := (List.range 192).map (fun i => if i = 56 then BitVec.ofNat 8 unused else if i / 2 < 28 || 32 ≤ i / 2 then 3 else 0)
def lit1 (x : LightCh) (i : Nat) (d : Dev) : Dev := { d with lgt.ch := upd d.lgt.ch i (fun _ => x) }
def lgtOn (d : Dev) : Dev := running (d.setRwNow Reg.LGT_CTL_EN 1 0)
def lgtCtl (en pre : Nat) : W64 := BitVec.ofNat 64 (((s0.dev.regValue s0.mem 0xE00000 0).toNat / 2 * 2 + en) % 2 ^ 32 + pre * 2 ^ 32)
def lgtCh (i : Nat) (d : Dev) : W64 := (d.regValue {} (0xE01000 + 8 * i) 0) ||| 2
def sink (i c : Nat) : SinkTest := { ch := i, current := c, head := 500, nearLo := false, nearHi := false }
def matrixAt (cyc : Nat) : Dev := { running s0.dev with lgt.lit := true, tmb.cycle := cyc }
def sensorIs (n : Nat) (x : Sensor) (d : Dev) : Dev := { d with thm.sens := upd d.thm.sens n (fun _ => x) }
def sensed (n : Nat) (st : SensState) : State := w (sensorIs n { st })
def noGrace (n : Nat) (st : SensState) : State := w (fun d => (sensorIs n { st } d).setRwNow Reg.THM_CTL_GRACE_MS 0 0)
def clockAt (t : Int) (s : State) : State := { s with dev.pwr.clock := t }
def calEntry (op kind unit w3 marks rest : Nat) (w2 : W64) : Entry :=
  entryWith op 8 rest [BitVec.ofNat 64 (kind + unit * 256), w2, BitVec.ofNat 64 w3, BitVec.ofNat 64 (marks * 65536 + bit (decide (marks ≠ 0)) * 7)]
def calAsks (e : Entry) (f : Dev → Dev) : State := w (fun d => inRing e (running (f d)))
def run2 : Entry := calEntry 3 2 0 0 0 0 0
def runs1 (kind : Nat) (p : CalPhase) (w1 : Nat) (w2 : W64) : CalRun := { entry := { run2 with words := [w0 3 8 0, BitVec.ofNat 64 (kind + w1), w2, 0] }, kind, unit := 0, phase := p }
def calIs (r : CalRun) (d : Dev) : Dev := { running d with cal.run := some r }
def calAt (b : Int) (r : CalRun) (f : Dev → Dev) : State := w (fun d => f { calIs r d with tmb.time := b * 50 * 4294967296 })
def allChans (st : ChanState) (d : Dev) : Dev := { d with lsr.ch := d.lsr.ch.map (fun c => { c with st }) }
def calPts (v : Int) : List CalPoint := List.replicate 16 { x := v, y := v, v := v }
def recorded : CalRecord := { kind := 2, unit := 0, words := [5] }

/-! ## Well-formedness -/

/-- One ill-formed command for each check, and the check that refuses it. -/
def illFormed : List (Instr × Bad) :=
  [(.registerWrite .host 4 0, .offset), (.clockGateEntry 16 0, .block), (.islandWake 0 64, .island), (.pcieLinkUp 1 4, .pcieSpeed),
   (.pcieLinkUp 3 3, .pcieWidth), (.bar2Read 67108864 default, .sramAddress), (.doorbellReturn (some []), .doorbellTable),
   (.brick 64, .ring), (.entryArrival 0 (.ok []), .entryWords), (.holdPass 16, .channel), (.beaconReport 4, .beacon),
   (.posQualReached 48, .axis), (.camFrameTimeout 4, .camera), (.frameStart 0 4 0 default, .virtualChannel),
   (.frameStart 0 0 65536 default, .frameNumber), (.longPacket 0 0 64 [] default default, .dataType),
   (.longPacket 0 0 0 [65536] default default, .pixels), (.outputHoldTimeout 2, .engine), (.dmaEntryStart 32, .dmaChannel),
   (.dramReadReturn (2 ^ 64) 0 default, .dramAddress), (.dramReadReturn 0 256 default, .requester), (.ddrMr4Poll 2 default, .ddrChannel),
   (.ddrRefresh 0 2 default, .rank), (.actLimitReached 0 256 0, .bank), (.checkerLock 32, .lane), (.blLaneLock 10, .linkPort),
   (.fedStreamClose 1024 0, .device), (.ethLinkRise 2, .ethernet),
   (.ptpMessageSend 0 { kind := 16, seq := 0, t := 0, corr := 0 } 0, .ptpMessage), (.announceReceiptTimeout 0 16, .portState),
   (.tcapEdge 8 false 0 0, .capture), (.launchWindow 8, .launchSlot), (.homeMaxReached 8, .stepper),
   (.lightFrame [{ ch := 96, current := 0, head := 0, nearLo := false, nearHi := false }] false, .sinkTests),
   (.ntcConversion 4 0, .thermistor), (.ntcConversion 0 (2 ^ 32), .conversion), (.lightClear .host 96 0, .light),
   (.graceExpiry 24, .sensor), (.configGet { hdr with version := 256 }, .requestHeader), (.logRead hdr default 65536, .logCount),
   (.imgStatus hdr 256, .imageSlot), (.imgBegin hdr 0 (2 ^ 32) default default, .length),
   (.imgPiece hdr 0 65536 default [] default, .piece), (.imgPiece hdr 0 0 default (List.replicate 4097 0) default, .pieceBytes),
   (.export_ hdr 0 0 256 default default, .exportPort), (.configSet hdr (List.replicate 4097 0) default, .settingsBytes)]

theorem test_ill_formed_refused : illFormed.all (fun p => p.1.bad == some p.2) = true := by decide +kernel

/-! ## The worked examples of the spec -/

/-- 09_servo_engine.md, ticks 11 and 12 with bank 6 kept: the accumulator stands at 33,200 with the output at the clamp, then at 20,400. -/
def bank6 (acc e : Int) : Loop := { b0 := 0x840000, b1 := -0x800000, a1 := -0x1000000, acc1 := acc * 2 ^ 24, e1 := e }
theorem test_loop_at_the_clamp : ((bank6 84000 128000).step 25600 30000).1.acc1 = 33200 * 2 ^ 24 ∧
    ((bank6 84000 128000).step 25600 30000).2.1 = 30000 := by decide +kernel
theorem test_loop_leaves_the_clamp : ((bank6 33200 25600).step 0 30000).2.1 = 20400 := by decide +kernel

/-- 08_meltpool_loop.md, the dimming pool: r is 17,500, and the first and fifth measurement make e 3,277 and 3,129, y 164 and 812. -/
def pool : LoopRef :=
  { loopRef with level := 20000, lo := -4915, hi := 4915, b0 := 0xCCCCCD, b1 := 0, b2 := 0, a1 := -0x10000000 }
theorem test_pool_error : mpmError pool 15750 17500 = 3277 ∧ mpmError pool 15829 17500 = 3129 := by decide +kernel
theorem test_pool_correction : (({ y1 := 0 } : MpmChan).step pool 3277).y1 = 164 ∧ (({ y1 := 656 } : MpmChan).step pool 3129).y1 = 812 := by
  decide +kernel
theorem test_pool_set_point : corrected 39321 164 = 39517 := by decide

/-- 03_build_data.md, vector 1 of the brick for course 412: a MARK with speed entry 3, PMOD +51 and FOCUS +8. -/
def mark412 : Vec := { v := 1, w0 := 0x003A980000138800, w1 := 0x1030330008000000 }
theorem test_vector_fields : mark412.op = 1 ∧ mark412.speed = 3 ∧ mark412.pmod = 51 ∧ mark412.focus = 8 ∧ mark412.x = 3840000 ∧
    mark412.y = 1280000 := by decide

/-- 17_lighting.md, the dim string S3: 3,200 cycles in frame 1,027, and 761 in the next. -/
def dim (beat : Int) (x : LightCh) : State :=
  w (fun d => { lit1 x 3 (lgtOn d) with tmb.time := beat * 50 * 4294967296 })
def dimAfter (beat : Int) (x : LightCh) : LightCh := ((dim beat x).dev.lightOn 3).light 3
theorem test_dim_string_stretched : (dimAfter 1051648 { duty := 640 }).on = 3200 := by decide +kernel
theorem test_dim_string_repays : (dimAfter 1052672 (dimAfter 1051648 { duty := 640 })).on = 761 := by decide +kernel

/-! ## Values too long to evaluate -/

theorem gridOf_word (k c i : Nat) (h : i < 8) : slotWord (gridOf k c) k i = (gridWords c).getD i 0 := by
  have hl : 8 * i + 8 ≤ (wordBytes (gridWords c)).length := by simp [gridWords]; omega
  unfold slotWord memWord gridOf Mem.putSram
  simp only []
  rw [readBytes_writeBytes _ _ _ _ _ (by decide) hl]
  simpa using word_of_wordBytes (gridWords c) [] i (by simpa [gridWords] using h)
theorem crcBits_lt : ∀ n c, c < 2 ^ 32 → crcBits n c < 2 ^ 32
  | 0, c, h => by simpa [crcBits] using h
  | n + 1, c, h => by
    rw [crcBits]
    apply crcBits_lt n
    split
    · exact Nat.xor_lt_two_pow (by omega) (by omega)
    · omega
theorem crcLoop_lt : ∀ (bs : List Byte) c, c < 2 ^ 32 → crcLoop bs c < 2 ^ 32
  | [], c, h => h
  | b :: t, c, h => crcLoop_lt t _ (crcBits_lt _ _ (Nat.xor_lt_two_pow h (by have := b.isLt; omega)))
theorem crc32_lt (bs : List Byte) : crc32 bs < 2 ^ 32 := Nat.xor_lt_two_pow (crcLoop_lt _ _ (by omega)) (by omega)
theorem gridOf_good (k c : Nat) (hc : c = crc32 (List.replicate 532512 0)) : gridGood (gridOf k c) k = true := by
  have hl : c < 2 ^ 32 := hc ▸ crc32_lt _
  have hr : readBytes (gridOf k c).sram (gridAddr k + 64) 532512 = List.replicate 532512 0 := by
    rw [gridOf, Mem.putSram]
    simp only []
    rw [readBytes_out _ _ _ _ _ (by simp [gridWords])]
    show List.map (fun _ => (0 : Byte)) (List.range 532512) = _
    rw [List.map_const', List.length_range]
  have hx : wbits ((gridWords c).getD 3 0) 63 32 = c := by
    simp only [gridWords, wbits, bitsOf, List.getD_cons_succ, List.getD_cons_zero, BitVec.toNat_ofNat]
    omega
  unfold gridGood
  rw [hr, ← hc]
  simp only [slotPitch, slotZ0, slotZ1, slotOx, slotOy, gridOf_word, Nat.reduceLT, hx]
  have h0 : wbits ((gridWords c).getD 3 0) 31 0 = 0 := by
    simp only [gridWords, wbits, bitsOf, List.getD_cons_succ, List.getD_cons_zero, BitVec.toNat_ofNat]
    omega
  rw [h0]
  simp [gridWords, wbits, bitsOf, signed]
  all_goals decide +kernel
theorem gridOf_fits (d : Dev) (n k c c' : Nat) : d.fieldFits (gridOf k c) n k = d.fieldFits (gridOf k c') n k := by
  simp only [Dev.fieldFits, slotPitch, slotOx, slotOy, gridOf_word, Nat.reduceLT]
  have h0 : (gridWords c).getD 0 0 = (gridWords c').getD 0 0 := by simp [gridWords]
  have h1 : (gridWords c).getD 1 0 = (gridWords c').getD 1 0 := by simp [gridWords]
  rw [h0, h1]
theorem packed_high (c : Nat) (h : c < 2 ^ 32) : wbits (pack [(c, 32)]) 63 32 = c := by
  simp only [pack, wbits, bitsOf, BitVec.toNat_ofNat, List.foldl_cons, List.foldl_nil, Nat.zero_add]
  omega
theorem contextHeader_length : (wordBytes (contextHeader keptStream 0)).length = 64 := by rw [wordBytes_length]; all_goals rfl
theorem contextOf_take : (contextOf keptStream).take 65536 = contextOf keptStream :=
  List.take_of_length_le (by
    rw [contextOf, List.length_append, contextHeader_length, contextBody, List.length_map, List.length_range]; all_goals decide)
theorem contextOf_body : ((contextOf keptStream).drop 64).take 65472 = contextBody 0 := by
  rw [contextOf, List.drop_left' contextHeader_length]
  exact List.take_of_length_le (by rw [contextBody, List.length_map, List.length_range]; all_goals decide)
theorem contextOf_word (i : Nat) (h : i < 8) :
    BitVec.ofNat 64 (leNat (((contextOf keptStream).drop (8 * i)).take 8)) = (contextHeader keptStream 0).getD i 0 :=
  word_of_wordBytes _ _ i (by simpa [contextHeader] using h)
theorem context_reads (d : Dev) (h : d.cdc.contexts = [(0, keptStream)]) :
    d.readContext resumed ((contextOf keptStream).take 65536) = some keptStream := by
  have h0 : (contextHeader keptStream 0).getD 0 0 = 0x0001410000000001#64 := by decide +kernel
  have h3 : (contextHeader keptStream 0).getD 3 0 = pack [(crc32 (contextBody 0), 32)] := by
    simp only [contextHeader, List.getD_cons_succ, List.getD_cons_zero]
  have hg : (wbits 0x0001410000000001#64 63 48 == 1 && wbits 0x0001410000000001#64 47 46 == (if resumed.opcode == 2 then 2 else 1) &&
      wbits 0x0001410000000001#64 45 44 == resumed.f 6 59 58 && wbits 0x0001410000000001#64 43 40 == resumed.f 6 63 60 &&
      wbits 0x0001410000000001#64 0 0 == 1) = true := by decide +kernel
  rw [contextOf_take]
  unfold Dev.readContext
  simp only [contextOf_body, contextOf_word 0 (by decide), contextOf_word 3 (by decide), h0, h3, packed_high _ (crc32_lt _), h]
  simpa [and_assoc] using hg
theorem fullTable_length : fullTable.length = 1048576 := by rw [fullTable, List.length_map, List.length_range]
theorem tableFull_room (e : Entry) : (tableFull e).dev.tableRoom = false := by
  have h : (tableFull e).dev.crs.table = fullTable := by
    simp only [tableFull, onRing, w, inRing, Dev.updRing, Dev.setRwNow, courseSeven, running, linked]
  unfold Dev.tableRoom
  rw [h, fullTable_length]
  exact decide_eq_false (by omega)

/-! ## The hypotheses of the obligations can be met -/

theorem live_StepTakesOneCommand_next : ∃ (c : Instr) (rest : List Instr) (s t : State), s.pending = c :: rest ∧ step s = .next t :=
  ⟨.pciePerstNRise, [], queued, _, rfl, rfl⟩
theorem live_CommandFrame : ∃ (c : Instr) (s t : State), exec c s = .next t := ⟨.pciePerstNRise, s0, _, rfl⟩
theorem live_StepKeepsTheInvariant : ∃ (s t : State),
    (s.mem.wf = true ∧ s.dev.regs.wf = true ∧ keysRise s.dev.pwr.isl = true) ∧ step s = .next t :=
  ⟨queued, _, by decide +kernel, rfl⟩
theorem live_EveryCommandAnswers_fault : ∃ (c : Instr) (s : State), exec c s = .fault .noSuchRegister ∧ c.registerAccess = true :=
  ⟨.registerWrite .host bar0Size 0, s0, rfl, rfl⟩
theorem live_EveryCommandAnswers_reset : ∃ (c : Instr) (s t : State), s.dev.mainUp = false ∧ c.standby = false ∧ exec c s = .next t :=
  ⟨.beatStart .host 0, off, _, rfl, rfl, rfl⟩
theorem live_StepRunsTheFrontCommand : ∃ (c : Instr) (rest : List Instr) (s : State), s.pending = c :: rest :=
  ⟨Instr.pciePerstNRise, [], queued, by decide +kernel⟩
theorem live_StepTakesOneCommand : ∃ (s : State), s.pending = [] :=
  ⟨s0, by decide +kernel⟩
theorem live_EveryCommandAnswers :
    (∃ (c : Instr), c.registerAccess = false ∧ c.sramAccess = false) ∧
    (∃ (off : Nat), off < bar0Size ∧ off % 8 = 0) ∧
    (∃ (a : Nat) (bytes : List Byte), a + bytes.length ≤ sramSize ∧ a < sramSize) :=
  ⟨⟨Instr.pciePerstNRise, by decide +kernel⟩,
    ⟨0xFFFFF8, by decide +kernel⟩,
    ⟨0x3FFFFFE, [1, 2], by decide +kernel⟩⟩
theorem live_EventsWithoutMainPower :
    (∃ (d : Dev), (d.pwr.mainPg = false ∨ d.thm.latch = true)) ∧
    (∃ (s : State) (n : Nat), (s.dev.pwr.mainPg = false ∨ s.dev.thm.latch = true) ∧ n < 24 ∧ (s.dev.sensor n).st = SensState.grace ∧ s.dev.graceOver n
      = true) :=
  ⟨⟨off.dev, by decide +kernel⟩,
    ⟨(inGrace 23), 23, by decide +kernel⟩⟩
theorem live_RegisterWrites :
    (∃ (s : State) (src : Source) (off : Nat) (r : RegDef) (i : Nat) (j : Nat), s.dev.regs.wf = true ∧ s.dev.cal.run = none ∧ s.dev.reaches src off =
      true ∧ off < bar0Size ∧ off % 8 = 0 ∧ ¬r ∈ Reg.acting ∧ regAt off = some (r, i, j)) ∧
    (∃ (off : Nat), off < bar0Size ∧ off % 8 = 0 ∧ atMsix off = false ∧ (isCopy off = true ∨ regAt off = none)) ∧
    (∃ (s : State) (src : Source) (off : Nat), off < bar0Size ∧ off % 8 = 0 ∧ s.dev.reaches src off = false) ∧
    (∃ (off : Nat), (bar0Size ≤ off ∨ off % 8 ≠ 0)) ∧
    (∃ (off : Nat), (bar0Size ≤ off ∨ off % 8 ≠ 4)) :=
  ⟨⟨s0, Source.host, 0x108, Reg.MGT_OVERRUN_SUMMARY, 0, 0, by decide +kernel⟩,
    ⟨0x680000, by decide +kernel⟩,
    ⟨off, Source.host, 0x100000, by decide +kernel⟩,
    ⟨0x1000000, by decide +kernel⟩,
    ⟨0x1000004, by decide +kernel⟩⟩
theorem live_HalfRegisterAccesses :
    (∃ (s : State) (src : Source) (off : Nat), off < bar0Size ∧ off % 8 = 0 ∧ atMsix off = false ∧ s.dev.reaches src off = true) ∧
    (∃ (s : State) (src : Source) (off : Nat), off < bar0Size ∧ off % 8 = 0 ∧ atMsix off = false ∧ atMsix (off + 4) = false ∧ s.dev.reaches src (off +
      4) = true) ∧
    (∃ (s : State) (src : Source) (off : Nat) (r : RegDef) (i : Nat) (j : Nat), off < bar0Size ∧ off % 8 = 0 ∧ atMsix off = false ∧ s.dev.reaches src
      off = true ∧ regAt off = some (r, i, j) ∧ readsFree r = false) ∧
    (∃ (s : State) (src : Source) (off : Nat) (v : W32), off < bar0Size ∧ off % 8 = 0 ∧ atMsix (off + 4) = false ∧ s.dev.reaches src (off + 4) = true
      ∧ at' s.dev.mgt.rdLatch (srcIndex src) = some { off := off, v := v }) ∧
    (∃ (s : State) (h : PmpHdr) (off : Nat) (r : RegDef) (i : Nat) (j : Nat), s.dev.takes h = true ∧ off < bar0Size ∧ off % 8 = 0 ∧ atMsix off = false
      ∧ s.dev.blockOff off = false ∧ regAt off = some (r, i, j) ∧ readsFree r = false) ∧
    (∃ (s : State) (h : PmpHdr) (off : Nat), s.dev.takes h = true ∧ off < bar0Size ∧ off % 8 = 0 ∧ atMsix off = false ∧ s.dev.blockOff off = false) ∧
    (∃ (s : State) (h : PmpHdr) (off : Nat), s.dev.takes h = true ∧ off < bar0Size ∧ off % 4 = 0 ∧ s.dev.blockOff off = true) ∧
    (∃ (s : State) (h : PmpHdr) (off : Nat), s.dev.takes h = true ∧ bar0Size ≤ off) :=
  ⟨⟨s0, Source.host, 0x100000, by decide +kernel⟩,
    ⟨staged, Source.host, 0x100000, by decide +kernel⟩,
    ⟨s0, Source.host, 0x100000, Reg.HST_CTL, 0, 0, by decide +kernel⟩,
    ⟨readKept, Source.host, 0x100000, 7, by decide +kernel⟩,
    ⟨s0, hdr, 0x100000, Reg.HST_CTL, 0, 0, by decide +kernel⟩,
    ⟨s0, hdr, 0x100000, by decide +kernel⟩,
    ⟨off, hdr, 0x100004, by decide +kernel⟩,
    ⟨s0, hdr, 0x1000000, by decide +kernel⟩⟩
theorem live_HostLink :
    (∃ (s : State) (speed : Nat) (width : Nat), s.dev.mainUp = true ∧ s.dev.hst.perst = false ∧ (∀ (l : Nat), l < 8 → s.dev.testing l = false) ∧ speed
      ∈ [2, 3, 4] ∧ width ∈ [1, 2, 4, 8]) ∧
    (∃ (speed : Nat) (width : Nat), (¬speed ∈ [2, 3, 4] ∨ ¬width ∈ [1, 2, 4, 8])) ∧
    (∃ (s : State), s.dev.mainUp = true ∧ s.dev.hst.linkUp = true) ∧
    (∃ (s : State), s.dev.mainUp = true ∧ s.dev.regs.wf = true) ∧
    (∃ (s : State), s.dev.mainUp = true ∧ s.dev.hst.linkUp = true) ∧
    (∃ (s : State), s.dev.mainUp = true) ∧
    (∃ (s : State), s.dev.mainUp = true ∧ s.dev.act Reg.HST_DB_BASE_EN = 1 ∧ s.dev.canRequest = true ∧ s.dev.tmb.cycle = 0 ∧ s.dev.hst.polled ≠
      s.dev.beatWide ∧ s.dev.beatMultiple (2 ^ s.dev.act Reg.HST_CTL_POLL_LOG2) = true ∧ s.dev.hst.dbOut = false) ∧
    (∃ (s : State), s.dev.mainUp = true ∧ s.dev.act Reg.HST_DB_BASE_EN = 1 ∧ s.dev.canRequest = true ∧ s.dev.tmb.cycle = 0 ∧ s.dev.hst.polled ≠
      s.dev.beatWide ∧ s.dev.beatMultiple (2 ^ s.dev.act Reg.HST_CTL_POLL_LOG2) = true ∧ s.dev.hst.dbOut = true ∧ s.dev.regs.wf = true) ∧
    (∃ (s : State), s.dev.mainUp = true ∧ (s.dev.act Reg.HST_DB_BASE_EN ≠ 1 ∨ s.dev.canRequest = false ∨ s.dev.tmb.cycle ≠ 0 ∨ s.dev.hst.polled =
      s.dev.beatWide ∨ s.dev.beatMultiple (2 ^ s.dev.act Reg.HST_CTL_POLL_LOG2) = false)) ∧
    (∃ (s : State), s.dev.mainUp = true ∧ s.dev.hst.dbOut = true ∧ s.dev.regs.wf = true) ∧
    (∃ (s : State) (n : Nat), s.dev.mainUp = true ∧ s.dev.hst.dbOut = true ∧ n < 64 ∧ (s.dev.ring n).st = RingState.active) :=
  ⟨⟨s0, 4, 8, by decide +kernel⟩,
    ⟨1, 8, by decide +kernel⟩,
    ⟨linkUp, by decide +kernel⟩,
    ⟨linkUp, by decide +kernel⟩,
    ⟨linkUp, by decide +kernel⟩,
    ⟨linkUp, by decide +kernel⟩,
    ⟨polls, by decide +kernel⟩,
    ⟨pollOut, by decide +kernel⟩,
    ⟨s0, by decide +kernel⟩,
    ⟨polled, by decide +kernel⟩,
    ⟨polled, 1, by decide +kernel⟩⟩
theorem live_RingsAndEntries :
    (∃ (s : State) (n : Nat) (v : W64), s.dev.mainUp = true ∧ s.dev.regs.wf = true ∧ n < 64 ∧ s.dev.cur Reg.HST_RING_CFG_ENABLE n = 0 ∧
      Reg.HST_RING_CFG_ENABLE.of v = 1) ∧
    (∃ (s : State) (n : Nat) (v : W64), s.dev.mainUp = true ∧ s.dev.regs.wf = true ∧ n < 64 ∧ s.dev.cur Reg.HST_RING_CFG_ENABLE n = 1 ∧
      Reg.HST_RING_CFG_ENABLE.of v = 0 ∧ isSubmission (s.dev.cur Reg.HST_RING_CFG_CLASS n) = true ∧ (∀ (f : Field), f ∈ Reg.HST_RING_CFG.fields →
      f ≠ Reg.HST_RING_CFG_ENABLE → f.of v = s.dev.cur f n)) ∧
    (∃ (d : Dev) (n : Nat), n < 64 ∧ (d.ring n).st = RingState.disabled ∧ d.act Reg.HST_RING_CFG_ENABLE n = 1) ∧
    (∃ (d : Dev) (n : Nat), n < 64 ∧ d.act Reg.HST_RING_CFG_ENABLE n = 0 ∧ (d.ring n).st ≠ RingState.disabled) ∧
    (∃ (s : State) (n : Nat) (words : List W64) (code : Nat), s.dev.mainUp = true ∧ s.dev.regs.wf = true ∧ n < 64 ∧ 0 < (s.dev.ring n).fetching ∧
      (s.dev.ring n).st = RingState.active ∧ s.dev.entryCheck (s.dev.ringClass n) ({ ring := n, idx := (s.dev.ring n).index, words := words } :
      Entry) = some code ∧ code ≠ 0) ∧
    (∃ (s : State) (n : Nat) (words : List W64), s.dev.mainUp = true ∧ n < 64 ∧ 0 < (s.dev.ring n).fetching ∧ (s.dev.ring n).st = RingState.active ∧
      (s.dev.ring n).fenced = [] ∧ s.dev.entryCheck (s.dev.ringClass n) ({ ring := n, idx := (s.dev.ring n).index, words := words } : Entry) =
      none ∧ (({ ring := n, idx := (s.dev.ring n).index, words := words } : Entry).fence = false ∨ (s.dev.ring n).passed = 0)) ∧
    (∃ (s : State) (n : Nat), s.dev.mainUp = true ∧ n < 64 ∧ 0 < (s.dev.ring n).fetching ∧ (s.dev.ring n).st = RingState.active) :=
  ⟨⟨doneReady, 1, cfgSub, by decide +kernel⟩,
    ⟨ringOn, 1, cfgOff, by decide +kernel⟩,
    ⟨ringAsked.dev, 1, by decide +kernel⟩,
    ⟨ringDropped.dev, 1, by decide +kernel⟩,
    ⟨fetched, 1, [w0 1 3 0], 0x1001, by decide +kernel⟩,
    ⟨fetched, 1, [w0 1 2 0], by decide +kernel⟩,
    ⟨fetched, 1, by decide +kernel⟩⟩
theorem live_CompletionsAndSignals :
    (∃ (s : State) (b : Nat), s.dev.mainUp = true ∧ s.dev.regs.wf = true ∧ b < 16) ∧
    (∃ (s : State) (x : Item) (rest : List Item) (n : Nat), s.dev.mainUp = true ∧ n < 64 ∧ s.dev.ev.merge = x :: rest ∧ (x.stamp.beat ≠ s.dev.beat ∨
      x.stamp.cycle ≠ min s.dev.tmb.cycle 127) ∧ x.isEvent = false ∧ s.dev.ringFor x = some n ∧ (∀ (m : Nat), m < 64 → (s.dev.ring m).holdQ = [] ∧
      (s.dev.ring m).loss = none) ∧ (s.dev.ring n).st = RingState.active ∧ s.dev.canRequest = true ∧ 0 < s.dev.ringFree n) ∧
    (∃ (s : State) (x : Item) (rest : List Item) (n : Nat), s.dev.mainUp = true ∧ n < 64 ∧ s.dev.ev.merge = x :: rest ∧ (x.stamp.beat ≠ s.dev.beat ∨
      x.stamp.cycle ≠ min s.dev.tmb.cycle 127) ∧ x.isEvent = false ∧ s.dev.ringFor x = some n ∧ (∀ (m : Nat), m < 64 → (s.dev.ring m).holdQ = [] ∧
      (s.dev.ring m).loss = none) ∧ (s.dev.ring n).st = RingState.active ∧ s.dev.ringFree n = 0) ∧
    (∃ (s : State) (x : Item) (rest : List Item), s.dev.mainUp = true ∧ s.dev.ev.merge = x :: rest ∧ (x.stamp.beat ≠ s.dev.beat ∨ x.stamp.cycle ≠ min
      s.dev.tmb.cycle 127) ∧ x.isEvent = true ∧ s.dev.mgt.log.length < 32768) ∧
    (∃ (s : State) (x : Item) (rest : List Item), s.dev.mainUp = true ∧ s.dev.ev.merge = x :: rest ∧ x.stamp.beat = s.dev.beat ∧ x.stamp.cycle = min
      s.dev.tmb.cycle 127 ∧ (∀ (m : Nat), m < 64 → (s.dev.ring m).holdQ = [] ∧ (s.dev.ring m).loss = none)) ∧
    (∃ (s : State) (x : Item) (n : Nat), n < 64 ∧ (s.dev.ring n).st = RingState.active ∧ (s.dev.ring n).holdQ.length = 32 ∧ (s.dev.ring n).loss = none
      ∧ (∀ (r i g : Nat), x.kind ≠ ItemKind.done r i g)) ∧
    (∃ (s : State) (n : Nat) (b : Nat), s.dev.mainUp = true ∧ n < 64 ∧ s.dev.act Reg.HST_RING_IRQ_IRQ_EN n = 1 ∧ s.dev.act Reg.HST_RING_IRQ_MOD_BEATS
      n ≠ 0 ∧ (s.dev.ring n).firstBeat = some b ∧ ↑(s.dev.act Reg.HST_RING_IRQ_MOD_BEATS n) ≤ beatDiff s.dev.beat b) ∧
    (∃ (s : State) (k : Nat), s.dev.mainUp = true ∧ k < 1024 ∧ (at' s.dev.hst.msix (k / 4)).pending = false) ∧
    (∃ (s : State) (k : Nat), s.dev.mainUp = true ∧ k < 1024) :=
  ⟨⟨ringOn, 15, by decide +kernel⟩,
    ⟨doneWaits, (item 0 (.done 1 0 0)), [], 0, by decide +kernel⟩,
    ⟨doneFull, (item 0 (.done 1 0 0)), [], 0, by decide +kernel⟩,
    ⟨eventWaits, (item 0x100A (.event 1)), [], by decide +kernel⟩,
    ⟨eventToday, itemNow, [], by decide +kernel⟩,
    ⟨heldRing, (item 2 (.event 1)), 2, ⟨by decide +kernel, by decide +kernel, by decide +kernel, by decide +kernel, by intro r i g h; cases h⟩⟩,
    ⟨moderated, 3, (2 ^ 32 - 1), by decide +kernel⟩,
    ⟨s0, 1023, by decide +kernel⟩,
    ⟨s0, 1023, by decide +kernel⟩⟩
theorem live_MemoryReads :
    (∃ (s : State) (a : Nat) (bytes : List Byte), s.dev.mainUp = true ∧ s.mem.wf = true ∧ a + bytes.length ≤ sramSize ∧ s.dev.act
      Reg.HST_CTL_BAR2_WR_EN = 1 ∧ s.dev.courseOpen = false) ∧
    (∃ (s : State) (a : Nat) (bytes : List Byte), s.dev.mainUp = true ∧ s.dev.regs.wf = true ∧ a + bytes.length ≤ sramSize ∧ (s.dev.act
      Reg.HST_CTL_BAR2_WR_EN = 0 ∨ s.dev.courseOpen = true)) ∧
    (∃ (s : State) (a : Nat), s.dev.mainUp = true ∧ s.dev.regs.wf = true ∧ a < sramReserved) ∧
    (∃ (s : State) (a : Nat), s.dev.mainUp = true ∧ sramReserved ≤ a ∧ a < sramSize) ∧
    (∃ (s : State) (a : Nat), s.dev.mainUp = true ∧ s.dev.regs.wf = true ∧ a < sramReserved ∧ s.dev.act Reg.MEM_SRAM_CTL_SCRUB_PERIOD ≠ 0) ∧
    (∃ (s : State) (a : Nat), a < sramSize ∧ s.dev.act Reg.MEM_SRAM_CTL_SCRUB_PERIOD = 0) ∧
    (∃ (s : State) (a : Nat), s.dev.mainUp = true ∧ s.dev.regs.wf = true ∧ a < gib * (s.dev.ddrSize 0 + s.dev.ddrSize 1)) ∧
    (∃ (s : State) (a : Nat), s.dev.mainUp = true ∧ s.dev.regs.wf = true ∧ gib * (s.dev.ddrSize 0 + s.dev.ddrSize 1) ≤ a) :=
  ⟨⟨bar2On, 0x1FFFFFE, [1, 2], by decide +kernel⟩,
    ⟨s0, 0x3FFFFFE, [1, 2], by decide +kernel⟩,
    ⟨s0, 8, by decide +kernel⟩,
    ⟨s0, 0x3FFFFFF, by decide +kernel⟩,
    ⟨scrubs, 8, by decide +kernel⟩,
    ⟨scrubOff, 8, by decide +kernel⟩,
    ⟨reading, 0x100, by decide +kernel⟩,
    ⟨s0, 0x100, by decide +kernel⟩⟩
theorem live_IslandsAndSideBand :
    (∃ (s : State) (blk : Nat) (isl : Nat), s.dev.mainUp = true ∧ isl < 64 ∧ islands.contains (64 * blk + isl) = true ∧ s.dev.keepOn (64 * blk + isl)
      = false ∧ s.dev.hasWork (64 * blk + isl) = false ∧ s.dev.island (64 * blk + isl) = 0 ∧ 64 ≤ s.dev.idleFor (64 * blk + isl)) ∧
    (∃ (s : State) (blk : Nat) (isl : Nat), s.dev.mainUp = true ∧ isl < 64 ∧ islands.contains (64 * blk + isl) = true ∧ s.dev.keepOn (64 * blk + isl)
      = false ∧ s.dev.hasWork (64 * blk + isl) = false ∧ s.dev.island (64 * blk + isl) ≠ 2 ∧ 20000000 ≤ s.dev.idleFor (64 * blk + isl)) ∧
    (∃ (s : State) (blk : Nat) (isl : Nat), isl < 64 ∧ (s.dev.keepOn (64 * blk + isl) = true ∨ s.dev.idleFor (64 * blk + isl) < 64) ∧ (s.dev.keepOn
      (64 * blk + isl) = true ∨ s.dev.idleFor (64 * blk + isl) < 20000000)) ∧
    (∃ (s : State) (blk : Nat) (isl : Nat) (arrived : Int), s.dev.mainUp = true ∧ isl < 64 ∧ keysRise s.dev.pwr.isl = true ∧ s.dev.island (64 * blk +
      isl) = 2 ∧ s.dev.tmb.cycle = 0 ∧ s.dev.beatMultiple 64 = true ∧ (64 * blk + isl, arrived) ∈ s.dev.pwr.wake ∧ arrived + 64 ≤ s.dev.beatWide) ∧
    (∃ (s : State), s.dev.pwr.standby = true ∧ s.dev.pwr.mainPg = true ∧ s.dev.pwr.ref100 = true ∧ s.dev.pwr.resetN = true ∧ s.dev.pwr.seqDone =
      false) ∧
    (∃ (s : State), s.dev.pwr.resetN = false) ∧
    (∃ (s : State), s.dev.mgtUp = true ∧ s.dev.smbAlert = false) ∧
    (∃ (s : State), s.dev.mgtUp = true ∧ s.dev.smbAlert = true) ∧
    (∃ (s : State), s.dev.mgtUp = false) :=
  ⟨⟨idle, 2, 0, by decide +kernel⟩,
    ⟨idleLong, 2, 0, by decide +kernel⟩,
    ⟨linkUp, 1, 0, by decide +kernel⟩,
    ⟨waking, 2, 0, (-64), by decide +kernel⟩,
    ⟨sequencing, by decide +kernel⟩,
    ⟨heldReset, by decide +kernel⟩,
    ⟨s0, by decide +kernel⟩,
    ⟨latched, by decide +kernel⟩,
    ⟨standbyGone, by decide +kernel⟩⟩
theorem live_ResetsAndPowerLoss :
    (∃ (s : State), s.dev.pwr.standby = true) ∧
    (∃ (s : State) (due : Int), s.dev.pwr.standby = true ∧ s.dev.mgt.resetAt = some due ∧ due ≤ s.dev.pwr.clock) ∧
    (∃ (s : State), s.dev.mgtUp = true) ∧
    (∃ (v : Byte), v ≠ 165) ∧
    (∃ (s : State) (ns : Nat), s.dev.pwr.standby = true ∧ 1000 ≤ ns) ∧
    (∃ (ns : Nat), ns < 200) ∧
    (∃ (ns : Nat), 200 ≤ ns ∧ ns < 1000) ∧
    (∃ (s : State), s.dev.pwr.mainEn = true ∧ s.dev.pwr.mainPg = false) ∧
    (∃ (s : State), s.dev.pwr.standby = true ∧ s.dev.pwr.ref100 = false) ∧
    (∃ (s : State), s.dev.pwr.standby = false) ∧
    (∃ (s : State), s.dev.pwr.mainPg = true) ∧
    (∃ (s : State) (ns : Nat), 1000 < ns ∧ s.dev.pwr.standby = true ∧ s.dev.pwr.ref100 = true) ∧
    (∃ (ns : Nat), ns ≤ 1000) :=
  ⟨⟨s0, by decide +kernel⟩,
    ⟨resetDue, 0, by decide +kernel⟩,
    ⟨s0, by decide +kernel⟩,
    ⟨0xA4, by decide +kernel⟩,
    ⟨s0, 1000, by decide +kernel⟩,
    ⟨199, by decide +kernel⟩,
    ⟨200, by decide +kernel⟩,
    ⟨off, by decide +kernel⟩,
    ⟨refGone, by decide +kernel⟩,
    ⟨standbyGone, by decide +kernel⟩,
    ⟨s0, by decide +kernel⟩,
    ⟨s0, 1001, by decide +kernel⟩,
    ⟨1000, by decide +kernel⟩⟩
theorem live_ManagementReads :
    (∃ (s : State) (h : PmpHdr) (off : Nat) (first : Nat) (slot : Nat) (len : Nat) (idx : Nat) (addr : Nat) (port : Nat) (v : W32) (w32 : W32) (crc :
      W32) (k : W16) (udp : W16) (sha : BitVec 384) (dst : BitVec 128) (bytes : List Byte) (ok : Bool) (c : Instr), s.dev.mgtUp = true ∧ c ∈
      [Instr.pmpIdent h, Instr.regRead h off, Instr.regWrite h off v, Instr.logRead h w32 first, Instr.imgBegin h slot len sha ok, Instr.imgPiece
      h slot idx crc bytes ok, Instr.imgStatus h slot, Instr.imgActivate h slot, Instr.imgConfirm h ok, Instr.imgRevert h ok, Instr.pmpReset h k,
      Instr.export_ h addr len port dst udp, Instr.configGet h, Instr.configSet h bytes ok] ∧ s.dev.handingOver = false) ∧
    (∃ (s : State) (h : PmpHdr) (off : Nat) (first : Nat) (slot : Nat) (len : Nat) (idx : Nat) (addr : Nat) (port : Nat) (v : W32) (w32 : W32) (crc :
      W32) (k : W16) (udp : W16) (sha : BitVec 384) (dst : BitVec 128) (bytes : List Byte) (ok : Bool) (c : Instr), s.dev.mgtUp = true ∧ c ∈
      [Instr.pmpIdent h, Instr.regRead h off, Instr.regWrite h off v, Instr.logRead h w32 first, Instr.imgBegin h slot len sha ok, Instr.imgPiece
      h slot idx crc bytes ok, Instr.imgStatus h slot, Instr.imgActivate h slot, Instr.imgConfirm h ok, Instr.imgRevert h ok, Instr.pmpReset h k,
      Instr.export_ h addr len port dst udp, Instr.configGet h, Instr.configSet h bytes ok] ∧ s.dev.handingOver = false ∧ (List.find? (fun r =>
      r.src == h.src && r.seq == h.seq) s.dev.mgt.replies = none) ∧ (Option.any (fun x => x.src == h.src && x.seq == h.seq) s.dev.mgt.exporting =
      false) ∧ (h.magicOk = false ∨ h.version ≠ 1 ∨ h.opOk = false ∨ h.lenOk = false)) ∧
    (∃ (s : State) (h : PmpHdr), s.dev.takes h = true) ∧
    (∃ (s : State) (h : PmpHdr) (first : W32) (count : Nat) (k : Nat), s.dev.takes h = true ∧ 1 ≤ count ∧ count ≤ 64 ∧ s.dev.mgt.nextSeq < 2 ^ 32 ∧ k
      ≤ s.dev.mgt.log.length ∧ k ≤ 32768 ∧ BitVec.toNat first = (s.dev.mgt.nextSeq + 2 ^ 32 - k) % 2 ^ 32) ∧
    (∃ (s : State) (h : PmpHdr) (count : Nat), s.dev.takes h = true ∧ (count < 1 ∨ 64 < count)) ∧
    (∃ (s : State) (h : PmpHdr), s.dev.takes h = true) ∧
    (∃ (s : State) (h : PmpHdr) (off : Nat) (first : Nat) (slot : Nat) (len : Nat) (idx : Nat) (addr : Nat) (port : Nat) (v : W32) (w32 : W32) (crc :
      W32) (k : W16) (udp : W16) (sha : BitVec 384) (dst : BitVec 128) (bytes : List Byte) (ok : Bool) (c : Instr), s.dev.mgtUp = true ∧ c ∈
      [Instr.pmpIdent h, Instr.regRead h off, Instr.regWrite h off v, Instr.logRead h w32 first, Instr.imgBegin h slot len sha ok, Instr.imgPiece
      h slot idx crc bytes ok, Instr.imgStatus h slot, Instr.imgActivate h slot, Instr.imgConfirm h ok, Instr.imgRevert h ok, Instr.pmpReset h k,
      Instr.export_ h addr len port dst udp, Instr.configGet h, Instr.configSet h bytes ok] ∧ s.dev.handingOver = true) :=
  ⟨⟨replied, hdr, 0, 0, 0, 0, 0, 0, 0, 0, 0, 0, 0, 0, 0, 0, [], true, (Instr.pmpIdent hdr), by decide +kernel⟩,
    ⟨s0, badHdr, 0, 0, 0, 0, 0, 0, 0, 0, 0, 0, 0, 0, 0, 0, [], true, (Instr.configGet badHdr), by decide +kernel⟩,
    ⟨s0, hdr, by decide +kernel⟩,
    ⟨s0, hdr, 0, 64, 2, by decide +kernel⟩,
    ⟨s0, hdr, 0, by decide +kernel⟩,
    ⟨s0, hdr, by decide +kernel⟩,
    ⟨handing, hdr, 0, 0, 0, 0, 0, 0, 0, 0, 0, 0, 0, 0, 0, 0, [], true, (Instr.pmpIdent hdr), by decide +kernel⟩⟩
theorem live_Images :
    (∃ (s : State) (h : PmpHdr) (slot : Nat) (len : Nat) (sha : BitVec 384), s.dev.takes h = true ∧ slot < 2 ∧ 4096 ≤ len ∧ len ≤ 16777216 ∧ len %
      4096 = 0 ∧ s.dev.mgt.act = none ∧ s.dev.windowOk = true ∧ slot ≠ s.dev.mgt.running ∧ (s.dev.trialSlot.isSome = true → slot ≠
      s.dev.mgt.confirmed) ∧ (¬((s.dev.fw slot).st = SlotState.loading ∧ (s.dev.fw slot).len = len ∧ (s.dev.fw slot).sha = sha))) ∧
    (∃ (s : State) (h : PmpHdr) (slot : Nat) (idx : Nat) (crc : W32) (data : List Byte), s.dev.takes h = true ∧ slot < 2 ∧ s.dev.mgt.act = none ∧
      s.dev.windowOk = true ∧ (s.dev.fw slot).st = SlotState.loading ∧ idx < (s.dev.fw slot).len / 4096 ∧ crc32 data = BitVec.toNat crc ∧ (∀ (p :
      Nat × List Byte), p ∈ (s.dev.fw slot).pieces → p.fst ≠ idx) ∧ data ≠ [] ∧ List.length (s.dev.fw slot).pieces + 1 < (s.dev.fw slot).len /
      4096) ∧
    (∃ (s : State) (h : PmpHdr) (slot : Nat) (idx : Nat) (crc : W32) (data : List Byte), s.dev.takes h = true ∧ slot < 2 ∧ s.dev.mgt.act = none ∧
      s.dev.windowOk = true ∧ (s.dev.fw slot).st = SlotState.loading ∧ idx < (s.dev.fw slot).len / 4096 ∧ crc32 data ≠ BitVec.toNat crc) ∧
    (∃ (slot : Nat), slot < 2) ∧
    (∃ (s : State) (h : PmpHdr) (slot : Nat), s.dev.takes h = true ∧ slot < 2 ∧ (s.dev.fw slot).st = SlotState.loading) ∧
    (∃ (s : State) (h : PmpHdr) (slot : Nat), s.dev.takes h = true ∧ slot < 2 ∧ s.dev.mgt.act = none ∧ s.dev.cal.run = none ∧ s.dev.mgt.exporting =
      none ∧ s.dev.trialSlot = none ∧ s.dev.windowOk = true ∧ (s.dev.fw slot).st = SlotState.verified) ∧
    (∃ (s : State) (a : Activation), s.dev.mgt.act = some a ∧ a.revert = false ∧ a.slot < 2 ∧ s.dev.mainUp = true ∧ s.dev.tmb.cycle = 0 ∧
      s.dev.beatMultiple 64 = true) ∧
    (∃ (s : State) (a : Activation), s.dev.mgt.act = some a ∧ s.dev.mainUp = true ∧ a.slot < 2 ∧ s.dev.pwr.clock < a.since + 10000 * msUnit) ∧
    (∃ (s : State) (a : Activation), s.dev.mgt.act = some a ∧ s.dev.mainUp = true ∧ a.slot < 2 ∧ a.since + 10000 * msUnit ≤ s.dev.pwr.clock) ∧
    (∃ (s : State) (h : PmpHdr) (slot : Nat), s.dev.takes h = true ∧ s.dev.mgt.act = none ∧ s.dev.windowOk = true ∧ s.dev.trialSlot = some slot ∧
      s.dev.mgt.confirmed < 2 ∧ s.dev.cal.run = none ∧ s.dev.mgt.exporting = none) :=
  ⟨⟨cooled, hdr, 1, 4096, 7, by decide +kernel⟩,
    ⟨loading, hdr, 1, 1, (BitVec.ofNat 32 (crc32 [1, 2])), [1, 2], by decide +kernel⟩,
    ⟨loading, hdr, 1, 1, 0, [1, 2], by decide +kernel⟩,
    ⟨1, by decide +kernel⟩,
    ⟨loading, hdr, 1, by decide +kernel⟩,
    ⟨verified1, hdr, 1, by decide +kernel⟩,
    ⟨activating, { slot := 1, since := 0 }, by decide +kernel⟩,
    ⟨activating, { slot := 1, since := 0 }, by decide +kernel⟩,
    ⟨activated, { slot := 1, since := -42949672960000000000 }, by decide +kernel⟩,
    ⟨trial, hdr, 1, by decide +kernel⟩⟩
theorem live_ManagementActions :
    (∃ (s : State) (h : PmpHdr) (k : W16), s.dev.takes h = true ∧ k = 53733) ∧
    (∃ (s : State) (h : PmpHdr) (k : W16), s.dev.takes h = true ∧ k ≠ 53733) ∧
    (∃ (s : State) (h : PmpHdr), s.dev.takes h = true ∧ s.dev.mgt.act = none ∧ s.dev.windowOk = true ∧ s.dev.mgt.guarded = none ∧ s.dev.mgt.area < 2 ∧
      s.dev.mgt.settings.isSome = true) ∧
    (∃ (s : State) (h : PmpHdr) (addr : Nat) (len : Nat) (port : Nat), s.dev.takes h = true ∧ s.dev.mgt.exporting = none ∧ port < 2 ∧ s.dev.dramOk
      addr len = true) ∧
    (∃ (s : State) (h : PmpHdr) (x : Export), s.dev.takes h = true ∧ s.dev.mgt.exporting = some x) ∧
    (∃ (s : State) (x : Export), s.dev.mgtUp = true ∧ s.dev.mainUp = true ∧ s.dev.mgt.exporting = some x ∧ at' s.dev.lnk.ethUp x.port = true) :=
  ⟨⟨s0, hdr, 0xD1E5, by decide +kernel⟩,
    ⟨s0, hdr, 0xD1E4, by decide +kernel⟩,
    ⟨configured, hdr, by decide +kernel⟩,
    ⟨dramUp, hdr, 0, 16, 1, by decide +kernel⟩,
    ⟨exports, hdr, anExport, by decide +kernel⟩,
    ⟨exports, anExport, by decide +kernel⟩⟩
theorem live_ParameterSets :
    (∃ (s : State) (n : Nat) (e : Entry), s.dev.mainUp = true ∧ s.mem.wf = true ∧ n < 64 ∧ s.dev.front n 2 1 = some e ∧ e.ring = n ∧ (psetOk (List.map
      (fun i => e.w (i + 2)) (List.range 4)) = true) ∧ s.dev.commitDue = false ∧ (e.sched = true → s.dev.beatAhead e.startBeat = false ∧
      s.dev.beat = e.startBeat ∧ s.dev.tmb.cycle = 0)) ∧
    (∃ (s : State) (n : Nat) (e : Entry), s.dev.mainUp = true ∧ s.mem.wf = true ∧ n < 64 ∧ s.dev.front n 2 1 = some e ∧ e.ring = n ∧ (psetOk (List.map
      (fun i => e.w (i + 2)) (List.range 4)) = false)) ∧
    (∃ (s : State) (n : Nat) (e : Entry), s.dev.mainUp = true ∧ s.dev.front n 2 2 = some e ∧ s.dev.loading n = false ∧ 0 < e.f 2 28 16 ∧ e.f 2 12 0 +
      e.f 2 28 16 ≤ 4096 ∧ s.dev.canRequest = true ∧ (e.sched = true → s.dev.beatAhead e.startBeat = false ∧ s.dev.beat = e.startBeat ∧
      s.dev.tmb.cycle = 0)) ∧
    (∃ (s : State) (n : Nat) (e : Entry), s.dev.mainUp = true ∧ s.dev.front n 2 2 = some e ∧ s.dev.loading n = false ∧ (e.f 2 28 16 = 0 ∨ 4096 < e.f 2
      12 0 + e.f 2 28 16)) ∧
    (∃ (s : State) (n : Nat) (e : Entry) (bytes : List Byte), s.dev.mainUp = true ∧ s.mem.wf = true ∧ s.dev.commitDue = false ∧ (List.find? (fun e =>
      e.ring == n) s.dev.crs.loads = some e) ∧ e.f 2 12 0 + e.f 2 28 16 ≤ 4096 ∧ bytes.length = 32 * e.f 2 28 16 ∧ (∀ (i : Nat), i < e.f 2 28 16 →
      psetOk (leWords 4 (List.take 32 (List.drop (32 * i) bytes))) = true)) ∧
    (∃ (s : State) (n : Nat) (e : Entry) (bytes : List Byte), s.dev.mainUp = true ∧ s.mem.wf = true ∧ s.dev.commitDue = false ∧ (List.find? (fun e =>
      e.ring == n) s.dev.crs.loads = some e) ∧ e.f 2 12 0 + e.f 2 28 16 ≤ 4096 ∧ bytes.length = 32 * e.f 2 28 16 ∧ (∃ i, i < e.f 2 28 16 ∧ psetOk
      (leWords 4 (List.take 32 (List.drop (32 * i) bytes))) = false)) ∧
    (∃ (s : State) (n : Nat) (e : Entry), s.dev.mainUp = true ∧ s.dev.front n 2 3 = some e ∧ (∀ (r : Nat × Entry), r ∈ s.dev.crs.commitReqs →
      r.snd.ring ≠ n) ∧ (e.sched = true → s.dev.beatAhead e.startBeat = true)) ∧
    (∃ (s : State) (n : Nat) (e : Entry), s.dev.mainUp = true ∧ s.dev.front n 2 3 = some e ∧ (∀ (r : Nat × Entry), r ∈ s.dev.crs.commitReqs →
      r.snd.ring ≠ n) ∧ e.sched = true ∧ s.dev.beatAhead e.startBeat = false) ∧
    (∃ (s : State), s.dev.mainUp = true ∧ s.mem.wf = true ∧ s.dev.regs.wf = true ∧ s.dev.commitDue = true ∧ s.dev.commitClash s.mem = none) ∧
    (∃ (s : State) (i : Nat), s.dev.mainUp = true ∧ s.mem.wf = true ∧ s.dev.regs.wf = true ∧ s.dev.commitDue = true ∧ s.dev.commitClash s.mem = some
      i) ∧
    (∃ (s : State) (n : Nat) (e : Entry), s.dev.mainUp = true ∧ s.mem.wf = true ∧ n < 64 ∧ s.dev.front n 2 1 = some e ∧ e.ring = n ∧ (psetOk (List.map
      (fun i => e.w (i + 2)) (List.range 4)) = true) ∧ (e.sched = true ∧ s.dev.beatAhead e.startBeat = true ∨ s.dev.commitDue = true)) ∧
    (∃ (s : State) (n : Nat) (e : Entry), s.dev.mainUp = true ∧ s.mem.wf = true ∧ n < 64 ∧ s.dev.front n 2 1 = some e ∧ e.ring = n ∧ (psetOk (List.map
      (fun i => e.w (i + 2)) (List.range 4)) = true) ∧ e.sched = true ∧ s.dev.beatAhead e.startBeat = false ∧ s.dev.commitDue = false ∧
      (¬(s.dev.beat = e.startBeat ∧ s.dev.tmb.cycle = 0))) ∧
    (∃ (s : State), s.dev.mainUp = true ∧ s.dev.commitDue = false) :=
  ⟨⟨(w (inRing psetGood)), 1, psetGood, by decide +kernel⟩,
    ⟨(w (inRing psetBad)), 1, psetBad, by decide +kernel⟩,
    ⟨(w (fun d => inRing psetLoads (linked d))), 1, psetLoads, by decide +kernel⟩,
    ⟨(w (inRing psetEmpty)), 1, psetEmpty, by decide +kernel⟩,
    ⟨loadAsked, 1, psetLoads, goodSet, by decide +kernel⟩,
    ⟨loadAsked, 1, psetLoads, badSet, by decide +kernel⟩,
    ⟨(w (inRing commitNow)), 1, commitNow, by decide +kernel⟩,
    ⟨(w (inRing (commitAt 0))), 1, (commitAt 0), by decide +kernel⟩,
    ⟨commitDue, by decide +kernel⟩,
    ⟨clashes7, 7, by decide +kernel⟩,
    ⟨(w (inRing (psetAt 1))), 1, (psetAt 1), by decide +kernel⟩,
    ⟨(later (w (inRing (psetAt 1)))), 1, (psetAt 1), by decide +kernel⟩,
    ⟨s0, by decide +kernel⟩⟩
theorem live_Bricks :
    (∃ (s : State) (n : Nat) (e : Entry), s.dev.mainUp = true ∧ s.dev.regs.wf = true ∧ s.dev.front n 1 1 = some e ∧ e.ring < 64 ∧ s.dev.ringFed n =
      false ∧ descOk e = false) ∧
    (∃ (s : State) (n : Nat) (e : Entry), s.dev.mainUp = true ∧ s.dev.regs.wf = true ∧ s.dev.front n 1 1 = some e ∧ e.ring < 64 ∧ s.dev.ringFed n =
      false ∧ descOk e = true ∧ s.dev.crs.st = CourseState.open ∧ e.f 2 63 32 = s.dev.crs.number ∧ s.dev.tableRoom = true ∧ s.dev.canRequest =
      true) ∧
    (∃ (s : State) (n : Nat) (e : Entry), s.dev.mainUp = true ∧ s.dev.regs.wf = true ∧ s.dev.front n 1 1 = some e ∧ e.ring < 64 ∧ s.dev.ringFed n =
      false ∧ descOk e = true ∧ s.dev.crs.st = CourseState.idle ∧ s.dev.crs.lastValid = true ∧ e.f 2 63 32 = s.dev.crs.number) ∧
    (∃ (s : State) (n : Nat) (e : Entry), s.dev.mainUp = true ∧ s.dev.regs.wf = true ∧ s.dev.front n 1 1 = some e ∧ e.ring < 64 ∧ s.dev.ringFed n =
      false ∧ descOk e = true ∧ s.dev.crs.st = CourseState.idle ∧ s.dev.crs.lastValid = false) ∧
    (∃ (s : State) (k : Nat) (b : Brick) (bytes : List Byte), s.dev.mainUp = true ∧ s.dev.regs.wf = true ∧ s.dev.brick? k = some b ∧ b.st =
      BrickState.checking ∧ b.fedBy = none ∧ bytes.length = b.bytes) ∧
    (∃ (s : State) (k : Nat) (b : Brick), s.dev.mainUp = true ∧ s.dev.regs.wf = true ∧ s.dev.brick? k = some b ∧ b.st = BrickState.checking ∧ b.fedBy
      = none) ∧
    (∃ (s : State) (k : Nat) (b : Brick) (bytes : List Byte), s.dev.mainUp = true ∧ s.dev.regs.wf = true ∧ s.dev.brick? k = some b ∧ b.st =
      BrickState.checking ∧ b.fedBy = none ∧ bytes.length = b.bytes ∧ s.dev.brickCheck s.mem b bytes = none ∧ (∀ (x : Brick), x ∈ s.dev.crs.bricks
      → x.st = BrickState.waitDep → (∃ i, i ∈ x.deps ∧ s.dev.depState i = DepState.open) ∧ ∀ (i : Nat), i ∈ x.deps → s.dev.depState i ≠
      DepState.failed)) ∧
    (∃ (s : State) (n : Nat) (e : Entry), s.dev.mainUp = true ∧ s.dev.regs.wf = true ∧ s.dev.front n 1 1 = some e ∧ e.ring < 64 ∧ s.dev.ringFed n =
      false ∧ descOk e = true ∧ s.dev.courseCheck (e.f 2 63 32) = CourseCheck.ok ∧ s.dev.tableRoom = false) :=
  ⟨⟨(w (inRing descBad)), 1, descBad, by decide +kernel⟩,
    ⟨(onRing (descGood 7) (courseSeven .open)), 1, (descGood 7), by decide +kernel⟩,
    ⟨(onRing (descGood 7) (courseSeven .idle)), 1, (descGood 7), by decide +kernel⟩,
    ⟨(w (inRing (descGood 7))), 1, (descGood 7), by decide +kernel⟩,
    ⟨checks, 0x100000000, (under 80), (brickBytes 0), by decide +kernel⟩,
    ⟨checks, 0x100000000, (under 80), by decide +kernel⟩,
    ⟨validSet, 0x100000000, (under 80), (brickBytes (crc32 (wordBytes jumpVec))), by decide +kernel⟩,
    ⟨(tableFull (descGood 7)), 1, (descGood 7), ⟨by decide +kernel, by decide +kernel, by decide +kernel, by decide +kernel, by decide +kernel,
      by decide +kernel, by decide +kernel, tableFull_room _⟩⟩⟩
theorem live_Courses :
    (∃ (s : State) (n : Nat) (e : Entry), s.dev.mainUp = true ∧ n < 64 ∧ s.dev.front n 1 2 = some e ∧ e.ring < 64 ∧ s.dev.ringFed n = false ∧
      s.dev.tmb.run = true ∧ s.dev.tmb.cycle = 0 ∧ s.dev.crs.st = CourseState.idle ∧ (s.dev.crs.lastValid = false ∨ 0 < beatDiff (e.f 1 63 32)
      s.dev.crs.number ∨ e.f 1 0 0 = 1) ∧ (e.sched = true → s.dev.beatPassed e.startBeat = false ∧ s.dev.beatAhead e.startBeat = false)) ∧
    (∃ (s : State) (n : Nat) (e : Entry), s.dev.mainUp = true ∧ s.dev.front n 1 2 = some e ∧ e.ring < 64 ∧ s.dev.ringFed n = false ∧ s.dev.tmb.run =
      true ∧ s.dev.tmb.cycle = 0 ∧ (s.dev.crs.st ≠ CourseState.idle ∨ s.dev.crs.lastValid = true ∧ e.f 1 0 0 = 0) ∧ beatDiff (e.f 1 63 32)
      s.dev.crs.number ≤ 0) ∧
    (∃ (s : State) (n : Nat) (e : Entry), s.dev.mainUp = true ∧ s.dev.front n 1 3 = some e ∧ e.ring < 64 ∧ s.dev.ringFed n = false ∧ s.dev.tmb.cycle =
      0 ∧ e.sched = false ∧ s.dev.crs.st = CourseState.open ∧ e.f 1 63 32 = s.dev.crs.number) ∧
    (∃ (s : State) (n : Nat) (e : Entry), s.dev.mainUp = true ∧ s.dev.front n 1 3 = some e ∧ e.ring < 64 ∧ s.dev.ringFed n = false ∧ s.dev.tmb.cycle =
      0 ∧ e.sched = false ∧ (s.dev.crs.st ≠ CourseState.open ∨ e.f 1 63 32 ≠ s.dev.crs.number)) ∧
    (∃ (s : State) (n : Nat) (e : Entry), s.dev.mainUp = true ∧ s.dev.front n 1 2 = some e ∧ e.ring < 64 ∧ s.dev.ringFed n = false ∧ s.dev.tmb.run =
      true ∧ s.dev.tmb.cycle = 0 ∧ 0 < beatDiff (e.f 1 63 32) s.dev.crs.number ∧ e.sched = true ∧ s.dev.beatPassed e.startBeat = true) ∧
    (∃ (s : State) (n : Nat) (e : Entry), s.dev.mainUp = true ∧ s.dev.front n 1 2 = some e ∧ e.ring < 64 ∧ s.dev.ringFed n = false ∧ s.dev.tmb.run =
      true ∧ s.dev.tmb.cycle = 0 ∧ 0 < beatDiff (e.f 1 63 32) s.dev.crs.number ∧ s.dev.crs.st ≠ CourseState.idle ∧ e.sched = false) ∧
    (∃ (s : State) (n : Nat) (e : Entry), s.dev.mainUp = true ∧ s.dev.front n 1 3 = some e ∧ e.ring < 64 ∧ s.dev.ringFed n = false ∧ s.dev.tmb.cycle =
      0 ∧ e.sched = true) ∧
    (∃ (s : State) (n : Nat) (e : Entry), s.dev.mainUp = true ∧ s.dev.front n 1 4 = some e ∧ e.ring < 64 ∧ s.dev.ringFed n = false ∧ s.dev.tmb.cycle =
      0 ∧ e.beat < s.dev.beatWide ∧ e.sched = false ∧ (s.dev.crs.st = CourseState.open ∨ s.dev.crs.st = CourseState.closing) ∧ e.f 1 63 32 =
      s.dev.crs.number) ∧
    (∃ (s : State) (n : Nat) (e : Entry), s.dev.mainUp = true ∧ s.dev.front n 1 4 = some e ∧ e.ring < 64 ∧ s.dev.ringFed n = false ∧ s.dev.tmb.cycle =
      0 ∧ e.beat < s.dev.beatWide ∧ e.sched = false ∧ (s.dev.crs.st = CourseState.idle ∨ s.dev.crs.st = CourseState.aborting ∨ e.f 1 63 32 ≠
      s.dev.crs.number)) ∧
    (∃ (s : State) (n : Nat) (e : Entry), s.dev.mainUp = true ∧ s.dev.front n 1 4 = some e ∧ e.ring < 64 ∧ s.dev.ringFed n = false ∧ s.dev.tmb.cycle =
      0 ∧ e.beat < s.dev.beatWide ∧ e.sched = true) ∧
    (∃ (s : State) (n : Nat) (e : Entry), s.dev.mainUp = true ∧ s.dev.front n 1 4 = some e ∧ s.dev.ringFed n = false ∧ (s.dev.tmb.cycle ≠ 0 ∨
      s.dev.beatWide ≤ e.beat)) ∧
    (∃ (s : State), s.dev.mainUp = true ∧ s.dev.crs.st = CourseState.closing ∧ s.dev.tmb.cycle = 0 ∧ s.dev.crs.total ≤ s.dev.crs.taken ∧ (∀ (b :
      Brick), b ∈ s.dev.crs.bricks → b.course ≠ s.dev.crs.number)) ∧
    (∃ (s : State), s.dev.mainUp = true ∧ s.dev.crs.st = CourseState.closing ∧ (s.dev.crs.taken < s.dev.crs.total ∨ ∃ b, b ∈ s.dev.crs.bricks ∧
      b.course = s.dev.crs.number)) ∧
    (∃ (s : State), s.dev.mainUp = true ∧ s.dev.crs.st = CourseState.aborting ∧ s.dev.tmb.cycle = 0 ∧ (∀ (l : Nat), l < 16 → (s.dev.laser l).st ≠
      LaserState.stopping)) :=
  ⟨⟨(onRing beginSeven (fun d => d)), 1, beginSeven, by decide +kernel⟩,
    ⟨(onRing beginSeven (courseSeven .open)), 1, beginSeven, by decide +kernel⟩,
    ⟨(onRing endSeven (courseSeven .open)), 1, endSeven, by decide +kernel⟩,
    ⟨(onRing endSeven (courseSeven .idle)), 1, endSeven, by decide +kernel⟩,
    ⟨(later (onRing beginLate (courseSeven .open))), 1, beginLate, by decide +kernel⟩,
    ⟨(onRing beginEight (courseSeven .open)), 1, beginEight, by decide +kernel⟩,
    ⟨(onRing endLate (courseSeven .open)), 1, endLate, by decide +kernel⟩,
    ⟨(later (onRing abortSeven (courseSeven .open))), 1, abortSeven, by decide +kernel⟩,
    ⟨(later (onRing abortSeven (courseSeven .idle))), 1, abortSeven, by decide +kernel⟩,
    ⟨(later (onRing abortLate (courseSeven .idle))), 1, abortLate, by decide +kernel⟩,
    ⟨(onRing abortSeven (courseSeven .open)), 1, abortSeven, by decide +kernel⟩,
    ⟨(w (courseSeven .closing)), by decide +kernel⟩,
    ⟨(w (fun d => { courseSeven .closing d with crs.total := 1 })), by decide +kernel⟩,
    ⟨(w (courseSeven .aborting)), by decide +kernel⟩⟩
theorem live_MasonWork :
    (∃ (s : State) (k : Nat) (b : Brick), s.dev.mainUp = true ∧ s.dev.brick? k = some b ∧ b.st = BrickState.waitBeat ∧ s.dev.beatAhead
      b.entry.startBeat = false) ∧
    (∃ (s : State) (k : Nat) (b : Brick), s.dev.mainUp = true ∧ s.dev.brick? k = some b ∧ b.st = BrickState.waitBeat ∧ s.dev.beatAhead
      b.entry.startBeat = true) ∧
    (∃ (s : State) (k : Nat) (b : Brick), s.dev.mainUp = true ∧ s.dev.regs.wf = true ∧ k ∈ s.dev.msn.ready ∧ s.dev.brick? k = some b ∧ b.urgent =
      false ∧ ↑(s.dev.act Reg.MSN_FAIR_STARVE_LIMIT) ≤ s.dev.beatWide - b.readyAt ∧ ((List.filter (fun x => x.urgent) s.dev.readyBricks).length <
      s.dev.act Reg.MSN_CTL_URGENT_MAX) ∧ (∀ (c : Brick), c ∈ s.dev.readyBricks → c.urgent = false → b.readyAt ≤ c.readyAt)) ∧
    (∃ (s : State) (k : Nat) (b : Brick) (since : Int), s.dev.mainUp = true ∧ s.dev.brick? k = some b ∧ b.st = BrickState.ready ∧ b.unplaceable = some
      since ∧ b.fedBy = none ∧ ↑(s.dev.act Reg.MSN_LIMITS_UNPLACEABLE_WAIT) ≤ s.dev.beatWide - since) ∧
    (∃ (s : State) (b : Brick), s.dev.mainUp = true ∧ s.dev.atStandstill = true ∧ b ∈ s.dev.crs.bricks ∧ b.st = BrickState.waitDep ∧ b.fedBy = none) ∧
    (∃ (s : State) (n : Nat) (b : Brick), s.dev.mainUp = true ∧ n < 16 ∧ s.dev.tmb.run = true ∧ 64 ≤ s.dev.tmb.cycle ∧ s.dev.msn.selBeat ≠
      s.dev.beatWide ∧ s.dev.pth.offers = [] ∧ s.dev.msn.cutHold = false ∧ s.dev.freeOrder = [n] ∧ s.dev.pickFor n = some b) ∧
    (∃ (s : State) (n : Nat) (u : W16), s.dev.mainUp = true ∧ n < 16 ∧ s.dev.tmb.run = true ∧ 64 ≤ s.dev.tmb.cycle ∧ s.dev.msn.selBeat ≠
      s.dev.beatWide ∧ s.dev.pth.offers = [] ∧ s.dev.msn.cutHold = false ∧ s.dev.freeOrder = [n] ∧ bitOf (BitVec.toNat u) n = true) ∧
    (∃ (s : State) (n : Nat), s.dev.mainUp = true ∧ n < 16 ∧ s.dev.tmb.run = true ∧ 64 ≤ s.dev.tmb.cycle ∧ s.dev.msn.selBeat ≠ s.dev.beatWide ∧
      s.dev.pth.offers = [] ∧ s.dev.msn.cutHold = false ∧ s.dev.freeOrder = [n] ∧ s.dev.pickFor n = none) ∧
    (∃ (s : State) (n : Nat), s.dev.mainUp = true ∧ n < 16 ∧ s.dev.tmb.run = true ∧ 64 ≤ s.dev.tmb.cycle ∧ s.dev.msn.selBeat ≠ s.dev.beatWide ∧
      s.dev.pth.offers = [] ∧ s.dev.msn.cutHold = true) ∧
    (∃ (s : State), s.dev.mainUp = true ∧ (s.dev.tmb.run = false ∨ s.dev.tmb.cycle < 64 ∨ s.dev.msn.selBeat = s.dev.beatWide)) ∧
    (∃ (d : Dev) (n : Nat) (b : Brick), d.pickFor n = some b ∧ (∀ (u : Brick), u ∈ d.cutBricks → u.urgent = false) ∧ d.on Reg.MSN_CTL_PLUME_MODE =
      false) ∧
    (∃ (d : Dev) (n : Nat) (b : Brick), d.pickFor n = some b ∧ (∃ u, u ∈ d.cutBricks ∧ u.urgent = true ∧ bitOf u.reach n = true)) ∧
    (∃ (s : State) (n : Nat) (k : Nat) (b : Brick), s.dev.mainUp = true ∧ n < 16 ∧ s.dev.tmb.cycle = 0 ∧ s.dev.msn.selBeat < s.dev.beatWide ∧
      (s.dev.laser n).assigned = some k ∧ s.dev.brick? k = some b ∧ (s.dev.laser n).st = LaserState.idle) ∧
    (∃ (s : State) (n : Nat) (k : Nat) (b : Brick), s.dev.mainUp = true ∧ n < 16 ∧ s.dev.tmb.cycle = 0 ∧ s.dev.msn.selBeat < s.dev.beatWide ∧
      (s.dev.laser n).assigned = some k ∧ s.dev.brick? k = some b ∧ ((s.dev.laser n).st = LaserState.running ∨ (s.dev.laser n).st =
      LaserState.plumeHeld)) ∧
    (∃ (s : State), s.dev.mainUp = true ∧ (s.dev.tmb.cycle ≠ 0 ∨ s.dev.beatWide ≤ s.dev.msn.selBeat)) ∧
    (∃ (s : State) (v : W64), s.dev.mainUp = true ∧ s.dev.regs.wf = true ∧ Reg.MSN_CTL_HOST_HOLD.of v ≠ s.dev.cur Reg.MSN_CTL_HOST_HOLD) ∧
    (∃ (d : Dev), d.mainUp = true ∧ d.msn.holdCauses = 0 ∧ d.settleHold.msn.holdCauses ≠ 0) ∧
    (∃ (d : Dev), d.mainUp = true ∧ d.msn.holdCauses ≠ 0 ∧ d.settleHold.msn.holdCauses = 0) :=
  ⟨⟨(waitsBeat 0), 5, (waitsBrick 0), by decide +kernel⟩,
    ⟨(waitsBeat 1), 5, (waitsBrick 1), by decide +kernel⟩,
    ⟨starved, 5, oldBrick, by decide +kernel⟩,
    ⟨stray, 5, strayBrick, (-100000000000), by decide +kernel⟩,
    ⟨stuck, depBrick, by decide +kernel⟩,
    ⟨free0, 0, brick5, by decide +kernel⟩,
    ⟨free0, 0, (1 : W16), by decide +kernel⟩,
    ⟨freeNone, 0, by decide +kernel⟩,
    ⟨held, 0, by decide +kernel⟩,
    ⟨s0, by decide +kernel⟩,
    ⟨free0.dev, 0, brick5, by decide +kernel⟩,
    ⟨freeUrgent.dev, 0, urgent5, by decide +kernel⟩,
    ⟨(assigned .idle), 0, 5, brick5, by decide +kernel⟩,
    ⟨(assigned .running), 0, 5, brick5, by decide +kernel⟩,
    ⟨held, by decide +kernel⟩,
    ⟨s0, holdWord, by decide +kernel⟩,
    ⟨askedHold.dev, by decide +kernel⟩,
    ⟨heldNoMore.dev, by decide +kernel⟩⟩
theorem live_PlumeGuardAndTrails :
    (∃ (s : State) (n : Nat) (g : GuardPoint), s.dev.mainUp = true ∧ n < 16 ∧ s.dev.on Reg.MSN_CTL_GUARD_EN = true ∧ (s.dev.laser n).st =
      LaserState.running ∧ (∀ (m : Nat), m < 16 → m ≠ n → (s.dev.laser m).st ≠ LaserState.running ∧ (s.dev.laser m).st ≠ LaserState.plumeHeld) ∧
      s.dev.guardPoint n (s.dev.tb + 80) = some g ∧ s.dev.pth.seams = [] ∧ s.dev.heldBy g [] = none) ∧
    (∃ (s : State) (n : Nat) (x : Slice) (rest : List Slice), s.dev.mainUp = true ∧ n < 16 ∧ (s.dev.laser n).sliceOpen = true ∧ (s.dev.laser n).trail
      = x :: rest ∧ s.dev.window x.cls * 16 ≤ s.dev.beatWide - x.opened) ∧
    (∃ (s : State) (n : Nat) (x : Slice) (rest : List Slice), s.dev.mainUp = true ∧ n < 16 ∧ (s.dev.laser n).sliceOpen = true ∧ (s.dev.laser n).trail
      = x :: rest ∧ s.dev.beatWide - x.opened < s.dev.window x.cls * 16) ∧
    (∃ (s : State) (n : Nat), s.dev.mainUp = true ∧ n < 16) ∧
    (∃ (d : Dev) (n : Nat) (h : PlumePend), d.mainUp = true ∧ n < 16 ∧ (d.laser n).pendHold = some h ∧ (d.laser n).st = LaserState.running) ∧
    (∃ (s : State), s.dev.mainUp = true ∧ s.dev.on Reg.MSN_CTL_GUARD_EN = false ∧ s.dev.pth.seams = []) ∧
    (∃ (s : State) (n : Nat), s.dev.mainUp = true ∧ n < 16 ∧ s.dev.regs.wf = true ∧ (s.dev.piste n).st = PisteState.holding ∧ s.dev.tmb.cycle = 0 ∧
      (s.dev.piste n).holdT ≤ s.dev.tb * cycUnit) ∧
    (∃ (s : State) (n : Nat) (k : Nat) (b : Brick), s.dev.mainUp = true ∧ n < 16 ∧ (s.dev.laser n).st = LaserState.plumeHeld ∧ s.dev.tmb.cycle = 0 ∧
      s.dev.act Reg.MSN_LIMITS_PLUME_HOLD_MAX ≠ 0 ∧ ↑(s.dev.act Reg.MSN_LIMITS_PLUME_HOLD_MAX) ≤ s.dev.beatWide - (s.dev.laser n).heldSince ∧
      (s.dev.laser n).running = some k ∧ s.dev.brick? k = some b ∧ (s.dev.laser n).queued ≠ some k ∧ (s.dev.laser n).assigned ≠ some k) :=
  ⟨⟨clearOf1, 0, point0, by decide +kernel⟩,
    ⟨(trailOpen (-1000000)), 0, (aSlice (-1000000)), [], by decide +kernel⟩,
    ⟨(trailOpen 1), 0, (aSlice 1), [], by decide +kernel⟩,
    ⟨(trailOpen 0), 0, by decide +kernel⟩,
    ⟨pends.dev, 0, pend1, by decide +kernel⟩,
    ⟨noGuard, by decide +kernel⟩,
    ⟨(passing false), 0, by decide +kernel⟩,
    ⟨tooLong, 0, 5, brick5, by decide +kernel⟩⟩
theorem live_PisteWork :
    (∃ (s : State) (n : Nat), s.dev.mainUp = true ∧ n < 16 ∧ (s.dev.piste n).st ≠ PisteState.off ∧ s.dev.pisteFaulted n = false) ∧
    (∃ (s : State) (n : Nat), s.dev.mainUp = true ∧ (s.dev.piste n).st = PisteState.off) ∧
    (∃ (s : State) (n : Nat) (f : Feed) (b : Brick), s.dev.mainUp = true ∧ n < 16 ∧ f.refill = true ∧ s.dev.brick? f.key = some b ∧ s.mem.poisoned =
      [] ∧ (s.dev.piste n).run = some f ∧ 0 < min 128 (f.vcount - f.next)) ∧
    (∃ (s : State) (n : Nat) (x : Seam), s.dev.mainUp = true ∧ s.dev.regs.wf = true ∧ ((s.dev.piste n).st = PisteState.running ∨ (s.dev.piste n).st =
      PisteState.holding) ∧ s.dev.tmb.cycle = 0 ∧ (s.dev.planUntil s.mem n (s.dev.refTime n) ((s.dev.beatWide + ↑(s.dev.act
      Reg.PTH_SEAM_CTL_SEAM_LEAD) + 1) * 80 * cycUnit) 1024).fst.nextCandidate n = some x ∧ s.dev.leadTo x.tIn = ↑(s.dev.act
      Reg.PTH_SEAM_CTL_SEAM_LEAD)) ∧
    (∃ (s : State) (n : Nat), s.dev.mainUp = true ∧ ((s.dev.piste n).st ≠ PisteState.running ∧ (s.dev.piste n).st ≠ PisteState.holding ∨
      s.dev.tmb.cycle ≠ 0)) ∧
    (∃ (s : State) (n : Nat), s.dev.mainUp = true ∧ n < 16 ∧ (s.dev.piste n).st ≠ PisteState.off ∧ s.dev.pisteFaulted n = false ∧ (s.dev.piste n).st =
      PisteState.running ∧ s.dev.pth.seams = [] ∧ (s.dev.planUntil s.mem n (s.dev.refTime n) ((s.dev.tb + s.dev.lead n + 640) * cycUnit) 600).snd
      = true ∧ ((s.dev.planUntil s.mem n (s.dev.refTime n) ((s.dev.tb + s.dev.lead n + 640) * cycUnit) 600).fst.piste n).exit.t < (s.dev.tb +
      s.dev.lead n + 160) * cycUnit) ∧
    (∃ (s : State) (n : Nat) (f : Feed) (b : Brick), s.dev.mainUp = true ∧ n < 16 ∧ f.refill = true ∧ s.dev.brick? f.key = some b ∧ s.mem.poisoned =
      [] ∧ (∀ (g : Feed), (s.dev.piste n).run = some g → g.refill = false) ∧ (s.dev.piste n).queued = some f) ∧
    (∃ (s : State) (n : Nat) (x : Seam), s.dev.mainUp = true ∧ s.dev.regs.wf = true ∧ ((s.dev.piste n).st = PisteState.running ∨ (s.dev.piste n).st =
      PisteState.holding) ∧ s.dev.tmb.cycle = 0 ∧ (s.dev.planUntil s.mem n (s.dev.refTime n) ((s.dev.beatWide + ↑(s.dev.act
      Reg.PTH_SEAM_CTL_SEAM_LEAD) + 1) * 80 * cycUnit) 1024).fst.nextCandidate n = some x ∧ s.dev.leadTo x.tIn < ↑(s.dev.act
      Reg.PTH_SEAM_CTL_SEAM_LEAD)) ∧
    (∃ (s : State) (n : Nat) (x : Seam), s.dev.mainUp = true ∧ s.dev.regs.wf = true ∧ ((s.dev.piste n).st = PisteState.running ∨ (s.dev.piste n).st =
      PisteState.holding) ∧ s.dev.tmb.cycle = 0 ∧ (s.dev.planUntil s.mem n (s.dev.refTime n) ((s.dev.beatWide + ↑(s.dev.act
      Reg.PTH_SEAM_CTL_SEAM_LEAD) + 1) * 80 * cycUnit) 1024).fst.nextCandidate n = some x ∧ ↑(s.dev.act Reg.PTH_SEAM_CTL_SEAM_LEAD) < s.dev.leadTo
      x.tIn) :=
  ⟨⟨parked0, 0, by decide +kernel⟩,
    ⟨s0, 0, by decide +kernel⟩,
    ⟨refills, 0, { key := 5, vcount := 1, refill := true }, brick5, by decide +kernel⟩,
    ⟨offering, 0, ((offered offering).nextCandidate 0).get!, by decide +kernel⟩,
    ⟨s0, 0, by decide +kernel⟩,
    ⟨starves, 0, by decide +kernel⟩,
    ⟨refillsQ, 0, { key := 5, vcount := 300, next := 200, refill := true }, brick5, by decide +kernel⟩,
    ⟨(offeringAt 33), 0, ((offered (offeringAt 33)).nextCandidate 0).get!, by decide +kernel⟩,
    ⟨(offeringAt 31), 0, ((offered (offeringAt 31)).nextCandidate 0).get!, by decide +kernel⟩⟩
theorem live_Grids :
    (∃ (s : State) (n : Nat) (e : Entry), s.dev.mainUp = true ∧ s.dev.front n 8 1 = some e ∧ e.ring = n ∧ s.dev.calBusy = false ∧ s.dev.isNext 8 e =
      true ∧ e.f 1 5 0 = 0 ∧ e.f 2 4 0 ≤ 16 ∧ s.dev.slotUsed (e.f 2 4 0) = false ∧ (e.sched = true → s.dev.beatAhead e.startBeat = false) ∧ (e.f 2
      8 8 = 0 → s.dev.canRequest = true)) ∧
    (∃ (s : State) (n : Nat) (e : Entry), s.dev.mainUp = true ∧ s.dev.front n 8 1 = some e ∧ e.ring = n ∧ s.dev.calBusy = false ∧ s.dev.isNext 8 e =
      true ∧ e.f 1 5 0 = 0 ∧ e.f 2 4 0 ≤ 16 ∧ s.dev.slotUsed (e.f 2 4 0) = true) ∧
    (∃ (s : State) (n : Nat) (e : Entry), s.dev.mainUp = true ∧ s.dev.front n 8 2 = some e ∧ e.ring = n ∧ s.dev.calBusy = false ∧ s.dev.isNext 8 e =
      true ∧ gridPoison s.mem (e.f 1 12 8) = none ∧ e.f 1 12 8 ≤ 16 ∧ gridGood s.mem (e.f 1 12 8) = false) ∧
    (∃ (s : State) (n : Nat) (k : Nat) (e : Entry), s.dev.mainUp = true ∧ n < 16 ∧ (s.dev.piste n).swap = some (k, e) ∧ k ≤ 16 ∧ (s.dev.piste n).slot
      < 32 ∧ s.dev.tmb.cycle = 0 ∧ s.dev.beatMultiple 16 = true ∧ (e.sched = true → s.dev.beatAhead e.startBeat = false) ∧ ((s.dev.piste n).st =
      PisteState.off ∨ (s.dev.piste n).st = PisteState.parked ∨ s.dev.headDark n = true)) ∧
    (∃ (s : State), s.dev.mainUp = true ∧ (s.dev.beatMultiple 16 = false ∨ s.dev.tmb.cycle ≠ 0)) ∧
    (∃ (s : State) (n : Nat) (e : Entry), s.dev.mainUp = true ∧ s.dev.front n 8 2 = some e ∧ e.ring = n ∧ s.dev.calBusy = false ∧ s.dev.isNext 8 e =
      true ∧ gridPoison s.mem (e.f 1 12 8) = none ∧ e.f 1 12 8 ≤ 16 ∧ gridGood s.mem (e.f 1 12 8) = true ∧ s.dev.fieldFits s.mem (e.f 1 3 0) (e.f
      1 12 8) = true ∧ (∀ (j : Nat), j < 16 → j ≠ e.f 1 3 0 → (s.dev.piste j).slot ≠ e.f 1 12 8)) ∧
    (∃ (s : State) (n : Nat) (e : Entry), s.dev.mainUp = true ∧ s.dev.front n 8 2 = some e ∧ e.ring = n ∧ s.dev.calBusy = false ∧ s.dev.isNext 8 e =
      true ∧ gridPoison s.mem (e.f 1 12 8) = none ∧ e.f 1 12 8 ≤ 16 ∧ gridGood s.mem (e.f 1 12 8) = true ∧ s.dev.fieldFits s.mem (e.f 1 3 0) (e.f
      1 12 8) = false) ∧
    (∃ (s : State) (n : Nat) (e : Entry), s.dev.mainUp = true ∧ s.dev.front n 8 2 = some e ∧ e.ring = n ∧ s.dev.calBusy = false ∧ s.dev.isNext 8 e =
      true ∧ gridPoison s.mem (e.f 1 12 8) = none ∧ e.f 1 12 8 ≤ 16 ∧ gridGood s.mem (e.f 1 12 8) = true ∧ s.dev.fieldFits s.mem (e.f 1 3 0) (e.f
      1 12 8) = true ∧ (∃ j, j < 16 ∧ j ≠ e.f 1 3 0 ∧ (s.dev.piste j).slot = e.f 1 12 8)) :=
  ⟨⟨(w (fun d => inRing (gridLoads 16) (linked d))), 1, (gridLoads 16), by decide +kernel⟩,
    ⟨(w (fun d => piste0 { slot := 16 } (inRing (gridLoads 16) d))), 1, (gridLoads 16), by decide +kernel⟩,
    ⟨(w (inRing gridSwaps)), 1, gridSwaps, by decide +kernel⟩,
    ⟨swapping, 0, 16, gridSwaps, by decide +kernel⟩,
    ⟨offBeat, by decide +kernel⟩,
    ⟨(swaps fits), 1, gridSwaps, ⟨by decide +kernel, by decide +kernel, by decide +kernel, by decide +kernel, by decide +kernel, by decide +kernel,
      by decide +kernel, gridOf_good 16 _ rfl, (gridOf_fits _ 0 16 _ 0).trans (by decide +kernel), by decide +kernel⟩⟩,
    ⟨(swaps id), 1, gridSwaps, ⟨by decide +kernel, by decide +kernel, by decide +kernel, by decide +kernel, by decide +kernel, by decide +kernel,
      by decide +kernel, gridOf_good 16 _ rfl, (gridOf_fits _ 0 16 _ 0).trans (by decide +kernel)⟩⟩,
    ⟨(swaps (fun d => usedSlot (fits d))), 1, gridSwaps, ⟨by decide +kernel, by decide +kernel, by decide +kernel, by decide +kernel,
      by decide +kernel, by decide +kernel, by decide +kernel, gridOf_good 16 _ rfl, (gridOf_fits _ 0 16 _ 0).trans (by decide +kernel),
      by decide +kernel⟩⟩⟩
theorem live_DropsAndBrickEnds :
    (∃ (s : State) (n : Nat) (k : Nat) (b : Brick), s.dev.mainUp = true ∧ s.mem.wf = true ∧ n < 16 ∧ (s.dev.chan n).drop = true ∧ s.dev.tmb.cycle = 0
      ∧ (s.dev.chan n).dropBeat < s.dev.beatWide ∧ ((s.dev.laser n).st = LaserState.running ∨ (s.dev.laser n).st = LaserState.plumeHeld) ∧
      (s.dev.laser n).handed = false ∧ (s.dev.laser n).running = some k ∧ s.dev.brick? k = some b ∧ (s.dev.laser n).queued ≠ some k ∧ (s.dev.laser
      n).assigned ≠ some k ∧ (∀ (x : Seam), x ∈ s.dev.pth.seams → x.receiver ≠ n ∧ x.donor ≠ n)) ∧
    (∃ (s : State) (n : Nat), s.dev.mainUp = true ∧ n < 16 ∧ (s.dev.chan n).drop = true ∧ s.dev.tmb.cycle = 0 ∧ (s.dev.chan n).dropBeat <
      s.dev.beatWide ∧ (∀ (x : Seam), x ∈ s.dev.pth.seams → x.receiver ≠ n ∧ x.donor ≠ n) ∧ ((s.dev.laser n).st = LaserState.idle ∨ (s.dev.laser
      n).st = LaserState.chanHold)) ∧
    (∃ (s : State) (n : Nat), s.dev.mainUp = true ∧ n < 16 ∧ (s.dev.chan n).drop = true ∧ s.dev.tmb.cycle = 0 ∧ (s.dev.chan n).dropBeat <
      s.dev.beatWide ∧ (∀ (x : Seam), x ∈ s.dev.pth.seams → x.receiver ≠ n ∧ x.donor ≠ n) ∧ (s.dev.laser n).st = LaserState.stopping) ∧
    (∃ (s : State) (n : Nat), s.dev.mainUp = true ∧ ((s.dev.chan n).drop = false ∨ s.dev.tmb.cycle ≠ 0 ∨ s.dev.beatWide ≤ (s.dev.chan n).dropBeat)) ∧
    (∃ (s : State) (k : Nat) (due : Int) (b : Brick), s.dev.mainUp = true ∧ (k, due) ∈ s.dev.msn.due ∧ 80 * due + 48 ≤ 80 * s.dev.beatWide +
      ↑s.dev.tmb.cycle ∧ s.dev.brick? k = some b ∧ b.reach ≠ 0) ∧
    (∃ (s : State) (k : Nat) (due : Int) (b : Brick), s.dev.mainUp = true ∧ (k, due) ∈ s.dev.msn.due ∧ 80 * due + 48 ≤ 80 * s.dev.beatWide +
      ↑s.dev.tmb.cycle ∧ s.dev.brick? k = some b ∧ b.reach = 0 ∧ b.fedBy = none) ∧
    (∃ (s : State) (k : Nat), s.dev.mainUp = true ∧ (∀ (x : Nat × Int), x ∈ s.dev.msn.due → x.fst = k → 80 * s.dev.beatWide + ↑s.dev.tmb.cycle < 80 *
      x.snd + 48)) ∧
    (∃ (s : State) (n : Nat), s.dev.mainUp = true ∧ n < 16 ∧ (s.dev.piste n).st = PisteState.stopping ∧ s.dev.tmb.cycle = 0 ∧ (s.dev.piste n).stopEnd
      + ↑(s.dev.act Reg.PTH_TIMING_TRACK_DELAY n) * cycUnit ≤ s.dev.refTime n ∧ (s.dev.laser n).st = LaserState.stopping) ∧
    (∃ (s : State) (n : Nat) (k : Nat) (e : Int) (b : Brick), s.dev.mainUp = true ∧ n < 16 ∧ (s.dev.laser n).st = LaserState.running ∧ s.dev.tmb.cycle
      = 0 ∧ (s.dev.piste n).brickEnd = some e ∧ e ≤ (s.dev.piste n).lastT + 80 ∧ (s.dev.laser n).handed = false ∧ (s.dev.laser n).running = some k
      ∧ s.dev.brick? k = some b ∧ b.fedBy = none) ∧
    (∃ (s : State) (n : Nat), s.dev.mainUp = true ∧ (s.dev.tmb.cycle ≠ 0 ∨ ∀ (e : Int), (s.dev.piste n).brickEnd = some e → (s.dev.piste n).lastT + 80
      < e)) :=
  ⟨⟨dropped, 0, 5, brick5, by decide +kernel⟩,
    ⟨(droppedAt .idle), 0, by decide +kernel⟩,
    ⟨(droppedAt .stopping), 0, by decide +kernel⟩,
    ⟨s0, 0, by decide +kernel⟩,
    ⟨lateRemnant, 5, 0, brick5, by decide +kernel⟩,
    ⟨lostRemnant, 5, 0, brick0, by decide +kernel⟩,
    ⟨(remnantDue brick5 0), 5, by decide +kernel⟩,
    ⟨stopped, 0, by decide +kernel⟩,
    ⟨ending, 0, 5, 1000, brick5, by decide +kernel⟩,
    ⟨clearOf1, 0, by decide +kernel⟩⟩
theorem live_ChannelStates :
    (∃ (s : State) (n : Nat) (v : W64), s.dev.mainUp = true ∧ s.dev.regs.wf = true ∧ n < 16 ∧ Reg.LSR_CHAN_CTL_EN.of v = 1 ∧ s.dev.cur
      Reg.LSR_CHAN_CTL_EN n ≠ 1 ∧ chanCtlOk v = true ∧ s.dev.chanEnableRefused s.mem n = false ∧ s.dev.cal.run = none) ∧
    (∃ (s : State) (n : Nat) (v : W64), s.dev.mainUp = true ∧ s.dev.regs.wf = true ∧ n < 16 ∧ Reg.LSR_CHAN_CTL_EN.of v = 1 ∧ s.dev.cur
      Reg.LSR_CHAN_CTL_EN n ≠ 1 ∧ (chanCtlOk v = false ∨ s.dev.chanEnableRefused s.mem n = true)) ∧
    (∃ (s : State) (n : Nat) (v : W64), s.dev.mainUp = true ∧ s.dev.regs.wf = true ∧ n < 16 ∧ chanCtlOk v = true ∧ Reg.LSR_CHAN_CTL_EN.of v = 0 ∧
      s.dev.cal.run = none ∧ ((s.dev.chan n).st = ChanState.off ∨ s.dev.changes Reg.LSR_CHAN_CTL [Reg.LSR_CHAN_CTL_EN] v n = false)) ∧
    (∃ (d : Dev) (n : Nat), d.regs.wf = true ∧ n < 16 ∧ (d.chan n).next = none ∧ d.act Reg.LSR_CHAN_CTL_EN n = 1 ∧ (d.chan n).st = ChanState.off ∧
      d.safe.closed = true) ∧
    (∃ (d : Dev) (n : Nat), d.regs.wf = true ∧ n < 16 ∧ (d.chan n).next = none ∧ d.act Reg.LSR_CHAN_CTL_EN n = 1 ∧ (d.chan n).st = ChanState.off ∧
      d.safe.closed = false) ∧
    (∃ (d : Dev) (n : Nat), d.regs.wf = true ∧ n < 16 ∧ (d.chan n).next = none ∧ d.act Reg.LSR_CHAN_CTL_EN n = 0 ∧ (d.chan n).active = true ∧ (d.chan
      n).pend = 0) ∧
    (∃ (s : State) (n : Nat), s.dev.mainUp = true ∧ n < 16 ∧ (s.dev.chan n).st = ChanState.arming ∧ (s.dev.chan n).next = none ∧ s.dev.armed n = true
      ∧ s.dev.tmb.cycle = 0) ∧
    (∃ (s : State) (n : Nat), s.dev.mainUp = true ∧ n < 16 ∧ (s.dev.chan n).st = ChanState.arming ∧ (s.dev.chan n).next = none ∧ (s.dev.armed n =
      false ∨ s.dev.tmb.cycle ≠ 0) ∧ s.dev.armed n = false ∧ (s.dev.act Reg.LSR_CHAN_ARM_ARM_TIMEOUT n ≠ 0 ∧ ↑(s.dev.act
      Reg.LSR_CHAN_ARM_ARM_TIMEOUT n) ≤ s.dev.beatWide - (s.dev.chan n).since)) ∧
    (∃ (s : State) (n : Nat), s.dev.mainUp = true ∧ n < 16 ∧ (s.dev.chan n).st = ChanState.arming ∧ (s.dev.chan n).next = none ∧ s.dev.armed n = false
      ∧ ↑(s.dev.act Reg.LSR_CHAN_ARM_ARM_TIMEOUT n) > s.dev.beatWide - (s.dev.chan n).since) ∧
    (∃ (s : State) (n : Nat), s.dev.mainUp = true ∧ s.dev.regs.wf = true ∧ n < 16) ∧
    (∃ (d : Dev) (n : Nat), n < 16 ∧ (d.chan n).st = ChanState.fault ∧ d.flag Reg.LSR_CHAN_FAULT_CAUSE n = 0 ∧ d.safe.closed = true ∧ d.alarmOn n =
      false ∧ (padWrong (d.chan n).emitPad (d.emitDriven n) || padWrong (d.chan n).gatePad (d.gateDriven n)) = false) ∧
    (∃ (d : Dev) (n : Nat), n < 16 ∧ (d.chan n).st = ChanState.fault ∧ (padWrong (d.chan n).emitPad (d.emitDriven n) || padWrong (d.chan n).gatePad
      (d.gateDriven n)) = true) ∧
    (∃ (d : Dev) (n : Nat), n < 16 ∧ (d.chan n).st = ChanState.fault ∧ d.safe.closed = false) ∧
    (∃ (d : Dev) (n : Nat), n < 16 ∧ (d.chan n).st = ChanState.fault ∧ d.alarmOn n = true) :=
  ⟨⟨mayEnable, 0, ctlOn, by decide +kernel⟩,
    ⟨s0, 15, ctlOn, by decide +kernel⟩,
    ⟨(chanOn enabled), 0, ctlOff, by decide +kernel⟩,
    ⟨armsNow.dev, 0, by decide +kernel⟩,
    ⟨opened.dev, 0, by decide +kernel⟩,
    ⟨(chanIs enabled).dev, 0, by decide +kernel⟩,
    ⟨(chanIs arming), 0, by decide +kernel⟩,
    ⟨notReady, 0, by decide +kernel⟩,
    ⟨notReadyYet, 0, by decide +kernel⟩,
    ⟨(w (causes 511)), 0, by decide +kernel⟩,
    ⟨(chanIs faulted).dev, 0, by decide +kernel⟩,
    ⟨(chanIs { faulted with emitPad := some true }).dev, 0, by decide +kernel⟩,
    ⟨(w (setChan faulted)).dev, 0, by decide +kernel⟩,
    ⟨(chanIs { faulted with alarm := true }).dev, 0, by decide +kernel⟩⟩
theorem live_ChannelInputs :
    (∃ (s : State) (n : Nat) (level : Bool), s.dev.mainUp = true ∧ n < 16 ∧ level ≠ (s.dev.chan n).alarm ∧ 80 * ↑(s.dev.act
      Reg.LSR_CHAN_CTL_ALARM_QUAL n) ≤ s.dev.cycleNow - (s.dev.chan n).alarmAt ∧ (level != s.dev.on Reg.LSR_CHAN_CTL_ALARM_POL n) = true ∧
      (s.dev.chan n).active = true ∧ (s.dev.chan n).next = none ∧ (level = (s.dev.chan n).ready ∨ 0 ≤ s.dev.cycleNow - (s.dev.chan n).readyAt ∧
      s.dev.cycleNow - (s.dev.chan n).readyAt < 80 * ↑(s.dev.act Reg.LSR_CHAN_CTL_READY_QUAL n))) ∧
    (∃ (s : State) (n : Nat) (level : Bool), s.dev.mainUp = true ∧ n < 16 ∧ level ≠ (s.dev.chan n).alarm ∧ 80 * ↑(s.dev.act
      Reg.LSR_CHAN_CTL_ALARM_QUAL n) ≤ s.dev.cycleNow - (s.dev.chan n).alarmAt ∧ (level != s.dev.on Reg.LSR_CHAN_CTL_ALARM_POL n) = false ∧ level
      ≠ (s.dev.chan n).ready ∧ 80 * ↑(s.dev.act Reg.LSR_CHAN_CTL_READY_QUAL n) ≤ s.dev.cycleNow - (s.dev.chan n).readyAt ∧ (level != s.dev.on
      Reg.LSR_CHAN_CTL_READY_POL n) = false ∧ (s.dev.chan n).st = ChanState.enabled ∧ (s.dev.chan n).next = none ∧ s.dev.on
      Reg.LSR_CHAN_CTL_READY_REQ n = true) ∧
    (∃ (s : State) (n : Nat) (level : Bool), s.dev.mainUp = true ∧ n < 16 ∧ (level = (s.dev.chan n).alarm ∨ 0 ≤ s.dev.cycleNow - (s.dev.chan
      n).alarmAt ∧ s.dev.cycleNow - (s.dev.chan n).alarmAt < 80 * ↑(s.dev.act Reg.LSR_CHAN_CTL_ALARM_QUAL n))) ∧
    (∃ (s : State) (n : Nat) (level : Bool), s.dev.mainUp = true ∧ n < 16 ∧ level ≠ (s.dev.chan n).ready ∧ 80 * ↑(s.dev.act
      Reg.LSR_CHAN_CTL_READY_QUAL n) ≤ s.dev.cycleNow - (s.dev.chan n).readyAt ∧ (level != s.dev.on Reg.LSR_CHAN_CTL_READY_POL n) = true) ∧
    (∃ (s : State) (n : Nat) (emit : Bool) (gate : Bool), s.dev.mainUp = true ∧ n < 16 ∧ (emit || gate) = true ∧ (s.dev.chan n).active = true ∧
      (s.dev.chan n).next = none) ∧
    (∃ (s : State) (n : Nat), s.dev.mainUp = true ∧ n < 16 ∧ (s.dev.chan n).active = true ∧ (s.dev.chan n).next = none ∧ 4 ≤ (s.dev.chan n).highRun) ∧
    (∃ (s : State) (n : Nat), s.dev.mainUp = true ∧ n < 16 ∧ (s.dev.chan n).highRun < 4) ∧
    (∃ (d : Dev) (n : Nat) (c : Nat), d.regs.wf = true ∧ n < 16 ∧ (c = 6 ∨ c = 7 ∨ c = 8) ∧ (d.chan n).pend = 2 ^ c ∧ (d.chan n).next = none ∧ (d.chan
      n).active = true) ∧
    (∃ (s : State) (b : Nat), s.dev.mainUp = true ∧ b < 4) ∧
    (∃ (d : Dev) (b : Nat) (st : Nat), d.mainUp = true ∧ b < 4 ∧ at' d.lsr.reported b = some st) ∧
    (∃ (d : Dev) (b : Nat) (st : Nat) (c : Nat), d.mainUp = true ∧ b < 4 ∧ at' d.lsr.reported b = some st ∧ c < 4 ∧ c ≠ b) ∧
    (∃ (d : Dev) (b : Nat) (st : Nat) (n : Nat), d.mainUp = true ∧ b < 4 ∧ at' d.lsr.reported b = some st ∧ n < 16 ∧ d.beaconLinked n = true ∧
      d.beaconOf n = b ∧ (d.chan n).next = none ∧ (st = 0 ∨ st = 2) ∧ (d.chan n).st = ChanState.enabled) ∧
    (∃ (d : Dev) (b : Nat) (st : Nat) (n : Nat), d.mainUp = true ∧ b < 4 ∧ at' d.lsr.reported b = some st ∧ n < 16 ∧ d.beaconLinked n = true ∧
      d.beaconOf n = b ∧ (d.chan n).next = none ∧ st = 1 ∧ (d.chan n).st = ChanState.hold ∧ (d.chan n).hold = 2) ∧
    (∃ (d : Dev) (b : Nat) (st : Nat) (n : Nat), d.mainUp = true ∧ b < 4 ∧ at' d.lsr.reported b = some st ∧ n < 16 ∧ d.beaconLinked n = true ∧
      d.beaconOf n = b ∧ (d.chan n).next = none ∧ st = 3 ∧ (d.chan n).st = ChanState.enabled ∧ (d.chan n).unverSince = none) ∧
    (∃ (d : Dev) (b : Nat) (st : Nat) (n : Nat), d.mainUp = true ∧ b < 4 ∧ at' d.lsr.reported b = some st ∧ n < 16 ∧ (d.beaconLinked n = false ∨
      d.beaconOf n ≠ b)) ∧
    (∃ (s : State) (n : Nat) (b0 : Int), s.dev.mainUp = true ∧ n < 16 ∧ (s.dev.chan n).unverSince = some b0 ∧ s.dev.beaconLinked n = true ∧
      (s.dev.chan n).st = ChanState.enabled ∧ (s.dev.chan n).next = none ∧ s.dev.tmb.cycle = 0 ∧ 20000 * ↑(s.dev.act Reg.LSR_CHAN_BEACON_UNVER_MAX
      n) ≤ s.dev.beatWide - b0) ∧
    (∃ (s : State) (n : Nat) (b0 : Int), s.dev.mainUp = true ∧ n < 16 ∧ (s.dev.chan n).unverSince = some b0 ∧ s.dev.beaconLinked n = true ∧
      (s.dev.chan n).st = ChanState.enabled ∧ (s.dev.chan n).next = none ∧ (s.dev.tmb.cycle ≠ 0 ∨ s.dev.beatWide - b0 < 20000 * ↑(s.dev.act
      Reg.LSR_CHAN_BEACON_UNVER_MAX n))) :=
  ⟨⟨(chanIs enabled), 0, true, by decide +kernel⟩,
    ⟨(chanIs alarmed), 0, false, by decide +kernel⟩,
    ⟨(readyReq (chanIs enabled)), 0, false, by decide +kernel⟩,
    ⟨(readyReq (chanIs { enabled with ready := false })), 0, true, by decide +kernel⟩,
    ⟨(chanIs { enabled with highRun := 4 }), 0, true, false, by decide +kernel⟩,
    ⟨(chanIs { enabled with highRun := 4 }), 0, by decide +kernel⟩,
    ⟨(chanIs enabled), 0, by decide +kernel⟩,
    ⟨(pended 6).dev, 0, 6, by decide +kernel⟩,
    ⟨s0, 3, by decide +kernel⟩,
    ⟨(reportOf 2 enabled).dev, 2, 2, by decide +kernel⟩,
    ⟨(reportOf 2 enabled).dev, 2, 2, 0, by decide +kernel⟩,
    ⟨(reportOf 2 enabled).dev, 2, 2, 0, by decide +kernel⟩,
    ⟨(reportOf 1 { enabled with st := .hold, hold := 2 }).dev, 2, 1, 0, by decide +kernel⟩,
    ⟨(reportOf 3 enabled).dev, 2, 3, 0, by decide +kernel⟩,
    ⟨(reportOf 3 enabled).dev, 2, 3, 1, by decide +kernel⟩,
    ⟨(unverified (-100000000000)), 0, (-100000000000), by decide +kernel⟩,
    ⟨(unverified 0), 0, 0, by decide +kernel⟩⟩
theorem live_SafetyMonitor :
    (∃ (s : State), s.dev.mainUp = true) ∧
    (∃ (s : State), s.dev.mainUp = true ∧ s.dev.safe.closed = false ∧ s.dev.safe.lowAt + 80 * ↑(s.dev.act Reg.MGT_SAFE_CTL_SAFE_QUAL) ≤
      s.dev.cycleNow) ∧
    (∃ (s : State), s.dev.mainUp = true ∧ (s.dev.safe.closed = true ∨ s.dev.safe.lowAt ≤ s.dev.cycleNow ∧ s.dev.cycleNow < s.dev.safe.lowAt + 80 *
      ↑(s.dev.act Reg.MGT_SAFE_CTL_SAFE_QUAL))) ∧
    (∃ (s : State), s.dev.mainUp = true ∧ s.dev.tmb.run = true ∧ s.dev.beatWide % 1000 = 0 ∧ s.dev.tmb.cycle = 0) ∧
    (∃ (s : State), s.dev.mainUp = true ∧ (s.dev.tmb.run = false ∨ s.dev.beatWide % 1000 ≠ 0 ∨ s.dev.tmb.cycle ≠ 0)) ∧
    (∃ (s : State) (v : W64), s.dev.mainUp = true ∧ Reg.MGT_SAFE_KICK_KEY.of v = 23294) ∧
    (∃ (s : State) (v : W64), s.dev.mainUp = true ∧ Reg.MGT_SAFE_KICK_KEY.of v ≠ 23294) ∧
    (∃ (s : State), s.dev.mainUp = true ∧ s.dev.safe.expired = false ∧ (↑(s.dev.act Reg.MGT_SAFE_CTL_KICK_TIMEOUT) = 0 ∨ s.dev.pwr.clock -
      s.dev.safe.kickAt < ↑(s.dev.act Reg.MGT_SAFE_CTL_KICK_TIMEOUT) * msUnit)) ∧
    (∃ (s : State), s.dev.mainUp = true ∧ s.dev.safe.expired = false ∧ (↑(s.dev.act Reg.MGT_SAFE_CTL_KICK_TIMEOUT) ≠ 0 ∧ ↑(s.dev.act
      Reg.MGT_SAFE_CTL_KICK_TIMEOUT) * msUnit ≤ s.dev.pwr.clock - s.dev.safe.kickAt)) :=
  ⟨⟨(chanIs enabled), by decide +kernel⟩,
    ⟨(w (fun d => { d with safe.lowAt := -100000000 })), by decide +kernel⟩,
    ⟨s0, by decide +kernel⟩,
    ⟨(w running), by decide +kernel⟩,
    ⟨s0, by decide +kernel⟩,
    ⟨s0, 0x5AFE, by decide +kernel⟩,
    ⟨s0, 0x5AFF, by decide +kernel⟩,
    ⟨s0, by decide +kernel⟩,
    ⟨(w (fun d => { d.setRwNow Reg.MGT_SAFE_CTL_KICK_TIMEOUT 1 0 with pwr.clock := 1000000 * 4294967296 })), by decide +kernel⟩⟩
theorem live_MeltPool :
    (∃ (s : State) (n : Nat), s.dev.mainUp = true ∧ n < 16 ∧ s.dev.tmb.cycle = 0 ∧ (∀ (x : Meas), (s.dev.mpmCh n).meas.head? = some x → x.beat ≠
      s.dev.beatWide)) ∧
    (∃ (s : State) (n : Nat), s.dev.mainUp = true ∧ n < 16 ∧ (s.dev.tmb.cycle ≠ 0 ∨ ∃ x, (s.dev.mpmCh n).meas.head? = some x ∧ x.beat =
      s.dev.beatWide)) ∧
    (∃ (s : State) (n : Nat), s.dev.mainUp = true ∧ n < 16 ∧ s.dev.act Reg.MPM_CHAN_CTL_BR_QUAL n ≤ (s.dev.mpmCh n).brRun ∧ (s.dev.mpmCh n).out =
      false ∧ s.dev.act Reg.MPM_CHAN_CTL_LOW_RATIO n ≠ 0 ∧ s.dev.act Reg.MPM_CHAN_CTL_LOW_BEATS n ≤ (s.dev.mpmCh n).lowRun ∧ (s.dev.mpmCh
      n).lowSaid = false ∧ s.dev.act Reg.MPM_CHAN_CTL_SAT_BEATS n ≤ (s.dev.mpmCh n).satRun ∧ (s.dev.mpmCh n).satSaid = false) ∧
    (∃ (s : State) (n : Nat), s.dev.mainUp = true ∧ n < 16 ∧ ((s.dev.mpmCh n).brRun < s.dev.act Reg.MPM_CHAN_CTL_BR_QUAL n ∨ (s.dev.mpmCh n).out =
      true) ∧ ((s.dev.mpmCh n).lowRun < s.dev.act Reg.MPM_CHAN_CTL_LOW_BEATS n ∨ (s.dev.mpmCh n).lowSaid = true ∨ s.dev.act
      Reg.MPM_CHAN_CTL_LOW_RATIO n = 0) ∧ ((s.dev.mpmCh n).satRun < s.dev.act Reg.MPM_CHAN_CTL_SAT_BEATS n ∨ (s.dev.mpmCh n).satSaid = true)) :=
  ⟨⟨(measured {}), 0, by decide +kernel⟩,
    ⟨(secondHalf meas0), 0, by decide +kernel⟩,
    ⟨(melts lastTwo counted (fun d => d.setRwNow Reg.MPM_CHAN_CTL_LOW_RATIO 1 0)), 0, by decide +kernel⟩,
    ⟨(melts lastTwo {} (fun d => d)), 15, by decide +kernel⟩⟩
theorem live_DacAndCorrection :
    (∃ (s : State) (n : Nat) (x : Sample), s.dev.mainUp = true ∧ s.dev.regs.wf = true ∧ n < 16 ∧ s.dev.cal.run = none ∧ s.dev.tmb.run = true ∧
      s.dev.tmb.cycle = 0 ∧ (s.dev.chan n).now.beat ≠ s.dev.beatWide ∧ (List.find? (fun x => x.beat == s.dev.beatWide) (s.dev.chan n).pipe = some
      x) ∧ s.dev.safe.raw = true ∧ s.dev.emits n = true ∧ x.on < x.off ∧ x.s ≤ 65535 ∧ s.dev.act Reg.MPM_CHAN_CTL_LOOP_EN n = 0) ∧
    (∃ (s : State) (n : Nat), s.dev.mainUp = true ∧ s.dev.regs.wf = true ∧ n < 16 ∧ s.dev.cal.run = none ∧ s.dev.tmb.run = true ∧ s.dev.tmb.cycle = 0
      ∧ (s.dev.chan n).now.beat ≠ s.dev.beatWide ∧ (List.find? (fun x => x.beat == s.dev.beatWide) (s.dev.chan n).pipe = none)) ∧
    (∃ (s : State) (n : Nat), s.dev.mainUp = true ∧ (s.dev.tmb.run = false ∨ s.dev.tmb.cycle ≠ 0 ∨ (s.dev.chan n).now.beat = s.dev.beatWide)) ∧
    (∃ (s : State) (n : Nat) (x : Sample) (y : Meas), s.dev.mainUp = true ∧ n < 16 ∧ s.dev.safe.raw = true ∧ s.dev.cal.run = none ∧ s.dev.tmb.run =
      true ∧ s.dev.tmb.cycle = 0 ∧ (s.dev.chan n).now.beat ≠ s.dev.beatWide ∧ s.dev.emits n = true ∧ (s.dev.chan n).st = ChanState.enabled ∧
      s.dev.act Reg.MPM_CHAN_CTL_LOOP_EN n ≠ 0 ∧ (List.find? (fun x => x.beat == s.dev.beatWide) (s.dev.chan n).pipe = some x) ∧ x.on < x.off ∧
      x.vec ≠ 0 ∧ (s.dev.mpmCh n).refOf = x.pv ∧ (s.dev.mpmCh n).zeroNext = false ∧ x.blend = 0 ∧ x.hold = false ∧ x.mpm = true ∧ (s.dev.mpmCh
      n).ref.valid = true ∧ ((s.dev.mpmCh n).fresh && (s.dev.mpmCh n).ref.restart) = false ∧ (s.dev.mpmCh n).out = false ∧ (List.find? (fun y =>
      y.beat == x.beat - 3) (s.dev.mpmCh n).meas = some y) ∧ y.valid = true ∧ y.late = false ∧ y.pv = x.pv ∧ 1 ≤ y.r) ∧
    (∃ (s : State) (n : Nat) (x : Sample), s.dev.mainUp = true ∧ n < 16 ∧ s.dev.safe.raw = true ∧ s.dev.cal.run = none ∧ s.dev.tmb.run = true ∧
      s.dev.tmb.cycle = 0 ∧ (s.dev.chan n).now.beat ≠ s.dev.beatWide ∧ s.dev.emits n = true ∧ (s.dev.chan n).st = ChanState.enabled ∧ s.dev.act
      Reg.MPM_CHAN_CTL_LOOP_EN n ≠ 0 ∧ (List.find? (fun x => x.beat == s.dev.beatWide) (s.dev.chan n).pipe = some x) ∧ x.on < x.off ∧ x.vec ≠ 0 ∧
      (s.dev.mpmCh n).refOf = x.pv ∧ (s.dev.mpmCh n).zeroNext = false ∧ (x.blend = 1 ∨ x.blend = 0 ∧ x.hold = true)) :=
  ⟨⟨(melts (due (emitting 0)) {} (fun d => d)), 0, (emitting 0), by decide +kernel⟩,
    ⟨(melts enabled {} (fun d => withEff Reg.LSR_CHAN_SCALE_IDLE_CODE 300 0 d)), 0, by decide +kernel⟩,
    ⟨s0, 0, by decide +kernel⟩,
    ⟨(melts (due (emitting 0)) inLoop loopOn), 0, (emitting 0), meas3, by decide +kernel⟩,
    ⟨(melts (due heldBeat) inLoop loopOn), 0, heldBeat, by decide +kernel⟩⟩
theorem live_ServoLoops :
    (∃ (s : State) (a : Nat), s.dev.mainUp = true ∧ a < 48 ∧ s.dev.tmb.run = true ∧ s.dev.beatMultiple 4 = true ∧ s.dev.tmb.cycle = 0 ∧ (s.dev.axis
      a).velAt ≠ s.dev.beatWide ∧ (s.dev.axis a).st = AxisState.off) ∧
    (∃ (s : State) (a : Nat), s.dev.mainUp = true ∧ a < 48 ∧ s.dev.tmb.run = true ∧ s.dev.beatMultiple 4 = true ∧ s.dev.tmb.cycle = 0 ∧ (s.dev.axis
      a).velAt ≠ s.dev.beatWide ∧ (s.dev.axis a).st = AxisState.fault) ∧
    (∃ (s : State) (a : Nat), s.dev.mainUp = true ∧ a < 48 ∧ s.dev.tmb.run = true ∧ s.dev.beatMultiple 4 = true ∧ s.dev.tmb.cycle = 0 ∧ (s.dev.axis
      a).velAt ≠ s.dev.beatWide ∧ (s.dev.axis a).live = true) ∧
    (∃ (s : State) (a : Nat), s.dev.mainUp = true ∧ (s.dev.tmb.run = false ∨ s.dev.beatMultiple 4 = false ∨ s.dev.tmb.cycle ≠ 0 ∨ (s.dev.axis a).velAt
      = s.dev.beatWide)) ∧
    (∃ (s : State) (a : Nat), s.dev.mainUp = true ∧ a < 48 ∧ s.dev.tmb.run = true ∧ s.dev.beatMultiple 16 = true ∧ s.dev.tmb.cycle = 0 ∧ (s.dev.axis
      a).posAt ≠ s.dev.beatWide ∧ (s.dev.axis a).st = AxisState.closed ∧ (s.dev.axis a).waiting = false ∧ (s.dev.axis a).live = true) ∧
    (∃ (s : State) (a : Nat), s.dev.mainUp = true ∧ a < 48 ∧ s.dev.tmb.run = true ∧ s.dev.beatMultiple 16 = true ∧ s.dev.tmb.cycle = 0 ∧ (s.dev.axis
      a).posAt ≠ s.dev.beatWide ∧ (s.dev.axis a).waiting = true) ∧
    (∃ (s : State) (a : Nat), s.dev.mainUp = true ∧ a < 48 ∧ s.dev.tmb.run = true ∧ s.dev.beatMultiple 16 = true ∧ s.dev.tmb.cycle = 0 ∧ (s.dev.axis
      a).posAt ≠ s.dev.beatWide ∧ (s.dev.axis a).st = AxisState.acquire ∧ (s.dev.axis a).waiting = false ∧ s.dev.hasRef a = true) ∧
    (∃ (s : State) (a : Nat), s.dev.mainUp = true ∧ (s.dev.tmb.run = false ∨ s.dev.beatMultiple 16 = false ∨ s.dev.tmb.cycle ≠ 0 ∨ (s.dev.axis
      a).posAt = s.dev.beatWide)) :=
  ⟨⟨(servo {}), 1, by decide +kernel⟩,
    ⟨(servo { st := .fault, rangeRun := 100000 }), 1, by decide +kernel⟩,
    ⟨(servo closedAx), 1, by decide +kernel⟩,
    ⟨s0, 1, by decide +kernel⟩,
    ⟨(servo closedAx), 1, by decide +kernel⟩,
    ⟨(servo { waiting := true }), 1, by decide +kernel⟩,
    ⟨(acquires 10000), 1, by decide +kernel⟩,
    ⟨(servo { closedAx with posAt := 0 }), 1, by decide +kernel⟩⟩
theorem live_ServoFaults :
    (∃ (s : State) (a : Nat) (sensed : BitVec 20) (forced : BitVec 4), s.dev.mainUp = true ∧ a < 48 ∧ s.dev.tmb.run = true ∧ s.dev.tmb.cycle = 76 ∧
      (s.dev.axis a).live = true ∧ (s.dev.axis a).decAt ≠ s.dev.beatWide ∧ ((decide (sensed.toInt > (fun (v : Int) => 16 * (v / 4 * 4))
      ↑(s.dev.act Reg.SRV_AXIS_CUR_I_TRIP a)) || forced.getLsbD 2 || (decide (sensed.toInt < (fun (v : Int) => 16 * (v / 4 * 4)) (-↑(s.dev.act
      Reg.SRV_AXIS_CUR_I_TRIP a))) || forced.getLsbD 3)) = false)) ∧
    (∃ (s : State) (a : Nat) (sensed : BitVec 20) (forced : BitVec 4), s.dev.mainUp = true ∧ a < 48 ∧ s.dev.tmb.run = true ∧ s.dev.tmb.cycle = 76 ∧
      (s.dev.axis a).live = true ∧ (s.dev.axis a).decAt ≠ s.dev.beatWide ∧ ((decide (sensed.toInt > (fun (v : Int) => 16 * (v / 4 * 4))
      ↑(s.dev.act Reg.SRV_AXIS_CUR_I_TRIP a)) || forced.getLsbD 2 || (decide (sensed.toInt < (fun (v : Int) => 16 * (v / 4 * 4)) (-↑(s.dev.act
      Reg.SRV_AXIS_CUR_I_TRIP a))) || forced.getLsbD 3)) = true) ∧ bitOf (s.dev.flag Reg.SRV_AXIS_FAULT_CAUSE a) 1 = false) ∧
    (∃ (s : State) (a : Nat), s.dev.mainUp = true ∧ ((s.dev.axis a).live = false ∨ s.dev.tmb.run = false ∨ s.dev.tmb.cycle ≠ 76 ∨ (s.dev.axis a).decAt
      = s.dev.beatWide)) ∧
    (∃ (d : Dev) (a : Nat), a < 48 ∧ (d.axis a).live = true ∧ (d.axis a).faulting = false ∧ d.act Reg.SRV_AXIS_CTL_EN a = 1) ∧
    (∃ (d : Dev) (a : Nat), (d.axis a).live = false) ∧
    (∃ (s : State) (a : Nat), s.dev.mainUp = true ∧ a < 48 ∧ (s.dev.axis a).live = true ∧ s.dev.flag Reg.SRV_AXIS_FAULT_CAUSE a = 0 ∧ (s.dev.axis
      a).perrRun < s.dev.act Reg.SRV_AXIS_PERR_PERR_TICKS a ∧ (s.dev.axis a).stuckRun < s.dev.act Reg.SRV_AXIS_CTL_STUCK_BEATS a ∧ (s.dev.axis
      a).senseRun < 4 ∧ (s.dev.axis a).rangeRun < s.dev.act Reg.SRV_AXIS_CTL_POS_QUAL a) ∧
    (∃ (s : State) (a : Nat), s.dev.mainUp = true ∧ a < 48 ∧ (s.dev.axis a).live = true ∧ s.dev.flag Reg.SRV_AXIS_FAULT_CAUSE a = 0 ∧ (s.dev.axis
      a).st = AxisState.closed ∧ s.dev.act Reg.SRV_AXIS_PERR_PERR_TICKS a ≤ (s.dev.axis a).perrRun ∧ s.dev.act Reg.SRV_AXIS_CTL_STUCK_BEATS a ≤
      (s.dev.axis a).stuckRun ∧ 4 ≤ (s.dev.axis a).senseRun ∧ s.dev.act Reg.SRV_AXIS_CTL_POS_QUAL a ≤ (s.dev.axis a).rangeRun) ∧
    (∃ (s : State) (a : Nat) (gates : BitVec 4), s.dev.mainUp = true ∧ a < 48 ∧ (s.dev.axis a).live = true ∧ s.dev.flag Reg.SRV_AXIS_FAULT_CAUSE a = 0
      ∧ gates ≠ 0) ∧
    (∃ (s : State) (a : Nat), s.dev.mainUp = true ∧ a < 48 ∧ (s.dev.axis a).live = true ∧ s.dev.flag Reg.SRV_AXIS_FAULT_CAUSE a = 0 ∧ (s.dev.axis
      a).st = AxisState.acquire ∧ (s.dev.act Reg.SRV_AXIS_PERR_ACQ_TIMEOUT a ≠ 0 ∧ s.dev.act Reg.SRV_AXIS_PERR_ACQ_TIMEOUT a ≤ (s.dev.axis
      a).acqTicks ∨ s.dev.hasRef a = false)) ∧
    (∃ (d : Dev) (a : Nat), d.regs.wf = true ∧ a < 48 ∧ (d.axis a).faulting = true) :=
  ⟨⟨(at76 id), 1, 0, 0, by decide +kernel⟩,
    ⟨(at76 id), 1, 0x7FFFF, 0, by decide +kernel⟩,
    ⟨(servo closedAx), 1, by decide +kernel⟩,
    ⟨(servoEn { closedAx with bridgeNext := some .rev }).dev, 1, by decide +kernel⟩,
    ⟨(servo {}).dev, 1, by decide +kernel⟩,
    ⟨(servo closedAx), 1, by decide +kernel⟩,
    ⟨(servo brokenAx), 1, by decide +kernel⟩,
    ⟨(servo brokenAx), 1, 15, by decide +kernel⟩,
    ⟨(servo { brokenAx with st := .acquire, acqTicks := 10000000 }), 1, by decide +kernel⟩,
    ⟨(servo { closedAx with faulting := true }).dev, 1, by decide +kernel⟩⟩
theorem live_ServoSettings :
    (∃ (s : State), s.dev.mainUp = true ∧ s.dev.crs.srvPending = true ∧ s.dev.tmb.run = true ∧ s.dev.beatMultiple 16 = true ∧ s.dev.tmb.cycle = 0 ∧
      keysRise s.dev.regs.srvNext = true ∧ (∀ (p : Nat × Nat), p ∈ s.dev.regs.srvNext → isSrvKey p.fst = true ∧ p.snd < 2 ^ 64)) ∧
    (∃ (s : State), s.dev.mainUp = true ∧ (s.dev.crs.srvPending = false ∨ s.dev.beatMultiple 16 = false ∨ s.dev.tmb.cycle ≠ 0)) ∧
    (∃ (s : State) (a : Nat) (v : W64), s.dev.mainUp = true ∧ s.dev.regs.wf = true ∧ a < 48 ∧ s.dev.cal.run = none ∧ Reg.SRV_AXIS_CTL_EN.of v = 1 ∧
      s.dev.cur Reg.SRV_AXIS_CTL_EN a ≠ 1 ∧ (Reg.SRV_AXIS_CTL_STUCK_BEATS.of v ≠ 0 ∧ Reg.SRV_AXIS_CTL_POS_QUAL.of v ≠ 0 ∧ 4 ≤
      Reg.SRV_AXIS_CTL_DEAD.of v ∧ Reg.SRV_AXIS_CTL_DEAD.of v ≤ 40 ∧ Reg.SRV_AXIS_CTL_MIN_DWELL.of v ≠ 0) ∧ ((s.dev.axis a).st = AxisState.off ∨
      s.dev.changes Reg.SRV_AXIS_CTL [Reg.SRV_AXIS_CTL_EN] v a = false) ∧ (s.dev.axis a).st ≠ AxisState.fault ∧ s.dev.bankValid (s.dev.eff
      Reg.SRV_AXIS_BANK_BANK a) = true ∧ s.dev.tmb.run = true) ∧
    (∃ (s : State) (a : Nat) (v : W64), s.dev.mainUp = true ∧ s.dev.regs.wf = true ∧ a < 48 ∧ s.dev.cal.run = none ∧ Reg.SRV_AXIS_CTL_EN.of v = 1 ∧
      s.dev.cur Reg.SRV_AXIS_CTL_EN a ≠ 1 ∧ (¬(Reg.SRV_AXIS_CTL_STUCK_BEATS.of v ≠ 0 ∧ Reg.SRV_AXIS_CTL_POS_QUAL.of v ≠ 0 ∧ 4 ≤
      Reg.SRV_AXIS_CTL_DEAD.of v ∧ Reg.SRV_AXIS_CTL_DEAD.of v ≤ 40 ∧ Reg.SRV_AXIS_CTL_MIN_DWELL.of v ≠ 0) ∨ ¬((s.dev.axis a).st = AxisState.off ∨
      s.dev.changes Reg.SRV_AXIS_CTL [Reg.SRV_AXIS_CTL_EN] v a = false) ∨ (s.dev.axis a).st = AxisState.fault ∨ s.dev.bankValid (s.dev.eff
      Reg.SRV_AXIS_BANK_BANK a) = false ∨ s.dev.tmb.run = false)) ∧
    (∃ (s : State) (a : Nat) (v : W64), s.dev.mainUp = true ∧ s.dev.regs.wf = true ∧ a < 48 ∧ s.dev.cal.run = none ∧ Reg.SRV_AXIS_CTL_EN.of v = 0 ∧
      s.dev.cur Reg.SRV_AXIS_CTL_EN a = 1 ∧ (Reg.SRV_AXIS_CTL_STUCK_BEATS.of v ≠ 0 ∧ Reg.SRV_AXIS_CTL_POS_QUAL.of v ≠ 0 ∧ 4 ≤
      Reg.SRV_AXIS_CTL_DEAD.of v ∧ Reg.SRV_AXIS_CTL_DEAD.of v ≤ 40 ∧ Reg.SRV_AXIS_CTL_MIN_DWELL.of v ≠ 0) ∧ ((s.dev.axis a).st = AxisState.off ∨
      s.dev.changes Reg.SRV_AXIS_CTL [Reg.SRV_AXIS_CTL_EN] v a = false) ∧ (s.dev.chan (a / 3)).active = false) ∧
    (∃ (s : State) (a : Nat) (v : W64), s.dev.mainUp = true ∧ s.dev.regs.wf = true ∧ a < 48 ∧ s.dev.cal.run = none ∧ Reg.SRV_AXIS_CTL_EN.of v = 0 ∧
      s.dev.cur Reg.SRV_AXIS_CTL_EN a = 1 ∧ (¬(Reg.SRV_AXIS_CTL_STUCK_BEATS.of v ≠ 0 ∧ Reg.SRV_AXIS_CTL_POS_QUAL.of v ≠ 0 ∧ 4 ≤
      Reg.SRV_AXIS_CTL_DEAD.of v ∧ Reg.SRV_AXIS_CTL_DEAD.of v ≤ 40 ∧ Reg.SRV_AXIS_CTL_MIN_DWELL.of v ≠ 0) ∨ ¬((s.dev.axis a).st = AxisState.off ∨
      s.dev.changes Reg.SRV_AXIS_CTL [Reg.SRV_AXIS_CTL_EN] v a = false) ∨ (s.dev.chan (a / 3)).active = true)) ∧
    (∃ (d : Dev) (a : Nat), a < 48 ∧ (d.axis a).faulting = false ∧ d.act Reg.SRV_AXIS_CTL_EN a = 1 ∧ (d.axis a).st = AxisState.off) ∧
    (∃ (d : Dev) (a : Nat), a < 48 ∧ (d.axis a).faulting = false ∧ d.act Reg.SRV_AXIS_CTL_EN a = 0 ∧ (d.axis a).live = true) ∧
    (∃ (s : State) (a : Nat), s.dev.mainUp = true ∧ s.dev.regs.wf = true ∧ a < 48) ∧
    (∃ (d : Dev) (a : Nat), a < 48 ∧ (d.axis a).st = AxisState.fault ∧ d.axisPersist a = 0 ∧ d.flag Reg.SRV_AXIS_FAULT_CAUSE a = 0) :=
  ⟨⟨(committed (swapsTo 0) id), by decide +kernel⟩,
    ⟨s0, by decide +kernel⟩,
    ⟨(axOn id), 1, (axCtl 1), by decide +kernel⟩,
    ⟨(w running), 1, (axCtl 1), by decide +kernel⟩,
    ⟨(axOn (fun d => d.setRwNow Reg.SRV_AXIS_CTL_EN 1 1)), 1, (axCtl 0), by decide +kernel⟩,
    ⟨(axOn (fun d => setChan enabled (d.setRwNow Reg.SRV_AXIS_CTL_EN 1 1))), 1, (axCtl 0), by decide +kernel⟩,
    ⟨(servoEn {}).dev, 1, by decide +kernel⟩,
    ⟨(servo closedAx).dev, 1, by decide +kernel⟩,
    ⟨s0, 1, by decide +kernel⟩,
    ⟨(servo { st := .fault }).dev, 1, by decide +kernel⟩⟩
theorem live_CameraInput :
    (∃ (s : State) (c : Nat) (v : W64), s.dev.mainUp = true ∧ s.dev.regs.wf = true ∧ c < 4 ∧ Reg.CAM_PORT_CFG_EN.of v = 1 ∧ (s.dev.cport c).st =
      CamState.off ∧ camCfgOk v = true) ∧
    (∃ (s : State) (c : Nat) (v : W64), s.dev.mainUp = true ∧ s.dev.regs.wf = true ∧ c < 4 ∧ Reg.CAM_PORT_CFG_EN.of v = 1 ∧ (s.dev.cport c).st =
      CamState.off ∧ camCfgOk v = false) ∧
    (∃ (s : State) (c : Nat) (v : W64), s.dev.mainUp = true ∧ s.dev.regs.wf = true ∧ c < 4 ∧ Reg.CAM_PORT_CFG_EN.of v = 0 ∧ camCfgOk v = true ∧
      s.dev.changes Reg.CAM_PORT_CFG [Reg.CAM_PORT_CFG_EN] v c = false ∧ (s.dev.cport c).st = CamState.idle) ∧
    (∃ (s : State) (c : Nat) (a : Entry), s.dev.mainUp = true ∧ s.dev.regs.wf = true ∧ c < 4 ∧ (s.dev.cport c).st = CamState.armed ∧ (s.dev.cport
      c).arm = some a ∧ (s.dev.cport c).frame = none ∧ (a.sched = false ∨ (s.dev.cport c).seq ≠ 0 ∨ s.dev.beatAhead a.startBeat = false)) ∧
    (∃ (s : State) (c : Nat) (a : Entry) (f : CamFrame), s.dev.mainUp = true ∧ s.dev.regs.wf = true ∧ c < 4 ∧ (s.dev.cport c).st = CamState.frame ∧
      (s.dev.cport c).arm = some a ∧ (s.dev.cport c).frame = some f ∧ f.arm = a ∧ a.f 1 63 48 = 0 ∧ a.sched = false ∧ bitOf f.flags 8 = false) ∧
    (∃ (s : State) (c : Nat), s.dev.mainUp = true ∧ s.dev.regs.wf = true ∧ c < 4 ∧ (s.dev.cport c).st = CamState.idle ∧ (s.dev.cport c).frame = none) ∧
    (∃ (s : State) (c : Nat), s.dev.mainUp = true ∧ s.dev.regs.wf = true ∧ c < 4 ∧ (s.dev.cport c).st = CamState.off) ∧
    (∃ (s : State) (c : Nat) (f : CamFrame), s.dev.mainUp = true ∧ c < 4 ∧ (s.dev.cport c).st ≠ CamState.off ∧ (s.dev.cport c).frame = some f ∧
      (s.dev.cport c).st = CamState.frame ∧ bitOf f.flags 9 = false ∧ (↑(s.dev.cur Reg.CAM_PORT_GEOM_FRAME_TIMEOUT c) = 0 ∨ s.dev.beatWide -
      f.since < ↑(s.dev.cur Reg.CAM_PORT_GEOM_FRAME_TIMEOUT c))) ∧
    (∃ (s : State) (c : Nat), s.dev.mainUp = true ∧ c < 4 ∧ (s.dev.cport c).st ≠ CamState.off ∧ (s.dev.cport c).frame = none ∧ (s.dev.cport c).discard
      = false ∧ (s.dev.cport c).syncSaid = false) ∧
    (∃ (s : State) (c : Nat) (f : CamFrame), s.dev.mainUp = true ∧ c < 4 ∧ (s.dev.cport c).st ≠ CamState.off ∧ (s.dev.cport c).frame = some f ∧
      (s.dev.cport c).st = CamState.frame ∧ bitOf f.flags 9 = false ∧ (↑(s.dev.cur Reg.CAM_PORT_GEOM_FRAME_TIMEOUT c) ≠ 0 ∧ ↑(s.dev.cur
      Reg.CAM_PORT_GEOM_FRAME_TIMEOUT c) ≤ s.dev.beatWide - f.since)) :=
  ⟨⟨(camera {}), 1, (camWord 1), by decide +kernel⟩,
    ⟨(camera {}), 1, 1, by decide +kernel⟩,
    ⟨(camera { st := .idle }), 1, (camWord 0), by decide +kernel⟩,
    ⟨(camera { st := .armed, arm := some bigArm }), 1, bigArm, by decide +kernel⟩,
    ⟨(camera (inFrame (aFrame (capOf 0 1 1)))), 1, (capOf 0 1 1), (aFrame (capOf 0 1 1)), by decide +kernel⟩,
    ⟨(camera { st := .idle }), 1, by decide +kernel⟩,
    ⟨s0, 1, by decide +kernel⟩,
    ⟨(camera (inFrame (aFrame bigArm))), 1, (aFrame bigArm), by decide +kernel⟩,
    ⟨(camera { st := .armed, arm := some bigArm }), 1, by decide +kernel⟩,
    ⟨(timing 5 (camera (inFrame { aFrame bigArm with since := -5 }))), 1, { aFrame bigArm with since := -5 }, by decide +kernel⟩⟩
theorem live_CameraLines :
    (∃ (s : State) (c : Nat) (f : CamFrame), s.dev.mainUp = true ∧ s.dev.regs.wf = true ∧ c < 4 ∧ (s.dev.cport c).st = CamState.frame ∧ (s.dev.cport
      c).frame = some f ∧ f.received < f.height ∧ (s.dev.cport c).buf.length < 8) ∧
    (∃ (s : State) (c : Nat) (f : CamFrame), s.dev.mainUp = true ∧ s.dev.regs.wf = true ∧ c < 4 ∧ (s.dev.cport c).st = CamState.frame ∧ (s.dev.cport
      c).frame = some f ∧ f.received < f.height ∧ 8 ≤ (s.dev.cport c).buf.length ∧ bitOf f.flags 4 = false) ∧
    (∃ (s : State) (c : Nat) (f : CamFrame), s.dev.mainUp = true ∧ s.dev.regs.wf = true ∧ c < 4 ∧ (s.dev.cport c).st = CamState.frame ∧ (s.dev.cport
      c).frame = some f ∧ f.height ≤ f.received ∧ bitOf f.flags 3 = false) ∧
    (∃ (s : State) (c : Nat) (f : CamFrame) (v : Nat) (y : Nat), s.dev.mainUp = true ∧ s.dev.regs.wf = true ∧ c < 4 ∧ (s.dev.cport c).st =
      CamState.frame ∧ (s.dev.cport c).frame = some f ∧ (v ≠ s.dev.cur Reg.CAM_PORT_CFG_VC c ∨ y ≠ s.dev.cur Reg.CAM_PORT_CFG_DT c)) ∧
    (∃ (s : State) (c : Nat), s.dev.mainUp = true ∧ c < 4 ∧ (s.dev.cport c).st ≠ CamState.off) ∧
    (∃ (s : State) (e : Nat) (c : Nat) (cl : Nat) (k : Nat) (l : CamLine) (rest : List CamLine) (f : CamFrame), s.dev.mainUp = true ∧ e < 2 ∧ c < 4 ∧
      (s.dev.engine e).held = none ∧ s.dev.nextPort e = some (c, cl, k) ∧ (s.dev.cport c).buf = l :: rest ∧ s.dev.frameOf c l = some f ∧
      s.dev.canWriteOut f = true) ∧
    (∃ (s : State) (e : Nat) (c : Nat) (cl : Nat) (k : Nat) (l : CamLine) (rest : List CamLine) (f : CamFrame), s.dev.mainUp = true ∧ e < 2 ∧ c < 4 ∧
      (s.dev.engine e).held = none ∧ s.dev.nextPort e = some (c, cl, k) ∧ (s.dev.cport c).buf = l :: rest ∧ s.dev.frameOf c l = some f ∧
      s.dev.canWriteOut f = false ∧ f.hasOut 0 = true) ∧
    (∃ (s : State) (e : Nat) (c : Nat) (l : CamLine) (b0 : Int) (f : CamFrame), s.dev.mainUp = true ∧ e < 2 ∧ c < 4 ∧ (s.dev.engine e).held = some (c,
      l, b0) ∧ s.dev.frameOf c l = some f ∧ 64 ≤ s.dev.beatWide - b0 ∧ s.dev.canWriteOut f = false) ∧
    (∃ (s : State) (e : Nat) (c : Nat) (l : CamLine) (b0 : Int) (f : CamFrame), s.dev.mainUp = true ∧ e < 2 ∧ c < 4 ∧ (s.dev.engine e).held = some (c,
      l, b0) ∧ s.dev.frameOf c l = some f ∧ s.dev.beatWide - b0 < 64) ∧
    (∃ (s : State) (e : Nat), s.dev.mainUp = true ∧ (s.dev.engine e).held = none ∧ s.dev.nextPort e = none) :=
  ⟨⟨(camera (inFrame (aFrame bigArm))), 1, (aFrame bigArm), by decide +kernel⟩,
    ⟨(camera { inFrame (aFrame bigArm) with buf := List.replicate 8 (aLine 0) }), 1, (aFrame bigArm), by decide +kernel⟩,
    ⟨(camera (inFrame { aFrame bigArm with received := 2 })), 1, { aFrame bigArm with received := 2 }, by decide +kernel⟩,
    ⟨(camera (inFrame (aFrame bigArm))), 1, (aFrame bigArm), 1, 1, by decide +kernel⟩,
    ⟨(camera { st := .idle }), 1, by decide +kernel⟩,
    ⟨(camera (engineLine bigArm)), 0, 1, 0, 1, (aLine 1), [], { aFrame bigArm with received := 2 }, by decide +kernel⟩,
    ⟨(unlinked (camera (engineLine bigArm))), 0, 1, 0, 1, (aLine 1), [], { aFrame bigArm with received := 2 }, by decide +kernel⟩,
    ⟨(heldLine (-64) false), 0, 1, (aLine 1), (-64), { aFrame bigArm with received := 2 }, by decide +kernel⟩,
    ⟨(heldLine (-63) false), 0, 1, (aLine 1), (-63), { aFrame bigArm with received := 2 }, by decide +kernel⟩,
    ⟨s0, 0, by decide +kernel⟩⟩
theorem live_CameraOutput :
    (∃ (s : State) (c : Nat) (f : CamFrame) (rest : List CamFrame), s.dev.mainUp = true ∧ c < 4 ∧ (s.dev.cport c).closing = f :: rest ∧ (∀ (l :
      CamLine), l ∈ (s.dev.cport c).buf → l.ofFrame f = false) ∧ (∀ (e : Nat), e < 2 → ∀ (q : Nat) (l : CamLine) (b : Int), (s.dev.engine e).held
      = some (q, l, b) → ¬(q = c ∧ l.ofFrame f = true)) ∧ (f.arm.f 1 39 36 = 0 ∨ s.dev.canWriteOut f = true)) ∧
    (∃ (s : State) (c : Nat), s.dev.mainUp = true ∧ (s.dev.cport c).closing = []) ∧
    (∃ (s : State) (n : Nat) (e : Entry), s.dev.mainUp = true ∧ s.dev.front n 7 1 = some e ∧ s.dev.isNextPort e = true ∧ (s.dev.cport (e.f 1 1 0)).st
      = CamState.idle ∧ s.dev.armBad e (e.f 1 1 0) = false) ∧
    (∃ (s : State) (n : Nat) (e : Entry), s.dev.mainUp = true ∧ s.dev.front n 7 1 = some e ∧ s.dev.isNextPort e = true ∧ (s.dev.cport (e.f 1 1 0)).st
      = CamState.off) ∧
    (∃ (s : State) (n : Nat) (e : Entry), s.dev.mainUp = true ∧ s.dev.front n 7 1 = some e ∧ s.dev.isNextPort e = true ∧ ((s.dev.cport (e.f 1 1 0)).st
      = CamState.armed ∨ (s.dev.cport (e.f 1 1 0)).st = CamState.frame)) ∧
    (∃ (s : State) (n : Nat) (e : Entry), s.dev.mainUp = true ∧ s.dev.front n 7 1 = some e ∧ s.dev.isNextPort e = true ∧ (s.dev.cport (e.f 1 1 0)).st
      = CamState.idle ∧ s.dev.armBad e (e.f 1 1 0) = true) ∧
    (∃ (s : State) (n : Nat) (e : Entry) (a : Entry), s.dev.mainUp = true ∧ s.dev.front n 7 2 = some e ∧ s.dev.isNextPort e = true ∧ (e.sched = false
      ∨ s.dev.beatAhead e.startBeat = false) ∧ (s.dev.cport (e.f 1 1 0)).st = CamState.armed ∧ (s.dev.cport (e.f 1 1 0)).arm = some a) ∧
    (∃ (s : State) (n : Nat) (e : Entry), s.dev.mainUp = true ∧ s.dev.front n 7 2 = some e ∧ s.dev.isNextPort e = true ∧ (e.sched = false ∨
      s.dev.beatAhead e.startBeat = false) ∧ ((s.dev.cport (e.f 1 1 0)).st = CamState.idle ∨ (s.dev.cport (e.f 1 1 0)).st = CamState.off)) ∧
    (∃ (s : State) (n : Nat) (e : Entry), s.dev.mainUp = true ∧ s.dev.front n 7 2 = some e ∧ s.dev.isNextPort e = true ∧ e.sched = true ∧
      s.dev.beatAhead e.startBeat = true) ∧
    (∃ (s : State) (n : Nat) (e : Entry), s.dev.mainUp = true ∧ s.dev.front n 7 3 = some e ∧ s.dev.isNextPort e = true ∧ (e.sched = true ∨ e.f 2 2 0 ≠
      0)) ∧
    (∃ (s : State) (n : Nat) (e : Entry), s.dev.mainUp = true ∧ s.dev.front n 7 3 = some e ∧ s.dev.isNextPort e = true ∧ e.sched = false ∧ e.f 2 2 0 =
      0 ∧ ((s.dev.cport (e.f 1 1 0)).st = CamState.armed ∨ (s.dev.cport (e.f 1 1 0)).st = CamState.frame)) ∧
    (∃ (s : State) (n : Nat) (e : Entry), s.dev.mainUp = true ∧ s.dev.front n 7 3 = some e ∧ s.dev.isNextPort e = true ∧ e.sched = false ∧ e.f 2 2 0 =
      0 ∧ ((s.dev.cport (e.f 1 1 0)).st = CamState.idle ∨ (s.dev.cport (e.f 1 1 0)).st = CamState.off) ∧ e.f 1 9 8 = 3) ∧
    (∃ (s : State) (n : Nat) (e : Entry) (bs : List Byte), s.dev.mainUp = true ∧ s.dev.front n 7 3 = some e ∧ s.dev.isNextPort e = true ∧ e.sched =
      false ∧ e.f 2 2 0 = 0 ∧ ((s.dev.cport (e.f 1 1 0)).st = CamState.idle ∨ (s.dev.cport (e.f 1 1 0)).st = CamState.off) ∧ s.dev.canRequest =
      true ∧ e.f 1 9 8 = 2 ∧ e.f 3 31 0 = 1024 ∧ bs.length = 1024) ∧
    (∃ (s : State) (n : Nat) (e : Entry), s.dev.mainUp = true ∧ s.dev.front n 7 3 = some e ∧ s.dev.isNextPort e = true ∧ e.sched = false ∧ e.f 2 2 0 =
      0 ∧ ((s.dev.cport (e.f 1 1 0)).st = CamState.idle ∨ (s.dev.cport (e.f 1 1 0)).st = CamState.off) ∧ s.dev.canRequest = true ∧ e.f 1 9 8 = 1 ∧
      e.f 3 31 0 = 2178) ∧
    (∃ (s : State) (n : Nat) (e : Entry) (bs : List Byte), s.dev.mainUp = true ∧ s.dev.front n 7 3 = some e ∧ s.dev.isNextPort e = true ∧ e.sched =
      false ∧ e.f 2 2 0 = 0 ∧ ((s.dev.cport (e.f 1 1 0)).st = CamState.idle ∨ (s.dev.cport (e.f 1 1 0)).st = CamState.off) ∧ s.dev.canRequest =
      true ∧ e.f 1 9 8 = 0 ∧ 0 < e.f 3 31 0 ∧ e.f 3 31 0 ≤ 4096 ∧ e.f 3 31 0 % 4 = 0 ∧ (ascending (defectList (e.f 3 31 0) bs) = true ∧ ∀ (x : Nat
      × Nat), x ∈ defectList (e.f 3 31 0) bs → x.fst < s.dev.cur Reg.CAM_PORT_GEOM_HEIGHT (e.f 1 1 0) ∧ x.snd < s.dev.cur Reg.CAM_PORT_GEOM_WIDTH
      (e.f 1 1 0))) ∧
    (∃ (s : State) (n : Nat) (e : Entry) (bs : List Byte), s.dev.mainUp = true ∧ s.dev.front n 7 3 = some e ∧ s.dev.isNextPort e = true ∧ e.sched =
      false ∧ e.f 2 2 0 = 0 ∧ ((s.dev.cport (e.f 1 1 0)).st = CamState.idle ∨ (s.dev.cport (e.f 1 1 0)).st = CamState.off) ∧ s.dev.canRequest =
      true ∧ e.f 1 9 8 = 0 ∧ 0 < e.f 3 31 0 ∧ e.f 3 31 0 ≤ 4096 ∧ e.f 3 31 0 % 4 = 0 ∧ (¬(ascending (defectList (e.f 3 31 0) bs) = true ∧ ∀ (x :
      Nat × Nat), x ∈ defectList (e.f 3 31 0) bs → x.fst < s.dev.cur Reg.CAM_PORT_GEOM_HEIGHT (e.f 1 1 0) ∧ x.snd < s.dev.cur
      Reg.CAM_PORT_GEOM_WIDTH (e.f 1 1 0)))) ∧
    (∃ (s : State) (n : Nat) (e : Entry), s.dev.mainUp = true ∧ s.dev.front n 7 3 = some e ∧ s.dev.isNextPort e = true ∧ e.sched = false ∧ e.f 2 2 0 =
      0 ∧ ((s.dev.cport (e.f 1 1 0)).st = CamState.idle ∨ (s.dev.cport (e.f 1 1 0)).st = CamState.off) ∧ s.dev.canRequest = true ∧ e.f 1 9 8 = 2 ∧
      e.f 3 31 0 = 1024) :=
  ⟨⟨(camera { st := .idle, closing := [{ aFrame (capOf 1 1 (2 ^ 35 + 1)) with done := [(bigArm, 0, 0)] }] }), 1,
      { aFrame (capOf 1 1 (2 ^ 35 + 1)) with done := [(bigArm, 0, 0)] }, [], ⟨by decide +kernel, by decide +kernel, by decide +kernel,
      by decide +kernel, fun e he q l b h => absurd (h ▸ (show ∀ e, e < 2 → (Dev.engine _ e).held = none from by decide +kernel) e he : some (q,
      l, b) = none) (by simp), by decide +kernel⟩⟩,
    ⟨s0, 1, by decide +kernel⟩,
    ⟨(camAsks bigArm { st := .idle }), 1, bigArm, by decide +kernel⟩,
    ⟨(camAsks bigArm {}), 1, bigArm, by decide +kernel⟩,
    ⟨(camAsks bigArm { st := .armed, arm := some bigArm }), 1, bigArm, by decide +kernel⟩,
    ⟨(camAsks (capOf 1 2 1) { st := .idle }), 1, (capOf 1 2 1), by decide +kernel⟩,
    ⟨(camAsks stopEntry { st := .armed, arm := some bigArm }), 1, stopEntry, bigArm, by decide +kernel⟩,
    ⟨(camAsks stopEntry { st := .idle }), 1, stopEntry, by decide +kernel⟩,
    ⟨(camAsks stopLater { st := .idle }), 1, stopLater, by decide +kernel⟩,
    ⟨(camAsks (tableEntry 2 1024 1) {}), 1, (tableEntry 2 1024 1), by decide +kernel⟩,
    ⟨(camAsks (tableEntry 2 1024 0) { st := .armed }), 1, (tableEntry 2 1024 0), by decide +kernel⟩,
    ⟨(camAsks (tableEntry 3 1024 0) {}), 1, (tableEntry 3 1024 0), by decide +kernel⟩,
    ⟨(camAsks (tableEntry 2 1024 0) {}), 1, (tableEntry 2 1024 0), (List.replicate 1024 7), by decide +kernel⟩,
    ⟨(camAsks (tableEntry 1 2178 0) {}), 1, (tableEntry 1 2178 0), by decide +kernel⟩,
    ⟨(camAsks (tableEntry 0 4 0) {}), 1, (tableEntry 0 4 0), [1, 0, 1, 0], by decide +kernel⟩,
    ⟨(camAsks (tableEntry 0 8 0) {}), 1, (tableEntry 0 8 0), [1, 0, 1, 0, 0, 0, 1, 0], by decide +kernel⟩,
    ⟨(camAsks (tableEntry 2 1024 0) {}), 1, (tableEntry 2 1024 0), by decide +kernel⟩⟩
theorem live_CodecQueue :
    (∃ (s : State) (n : Nat) (op : Nat) (e : Entry) (ctx : HostRead) (c : Instr), s.dev.mainUp = true ∧ (op = 1 ∧ c = Instr.compress n ctx ∨ op = 2 ∧
      c = Instr.decompress n ctx) ∧ s.dev.front n 5 op = some e ∧ s.dev.isNext 5 e = true ∧ s.dev.act Reg.CDC_CTL_EN ≠ 0 ∧ s.dev.cdc.queue.length
      < 8 ∧ codecDescBad e = false ∧ e.f 6 54 54 = 0) ∧
    (∃ (s : State) (n : Nat) (op : Nat) (e : Entry) (ctx : HostRead) (c : Instr), s.dev.mainUp = true ∧ (op = 1 ∧ c = Instr.compress n ctx ∨ op = 2 ∧
      c = Instr.decompress n ctx) ∧ s.dev.front n 5 op = some e ∧ s.dev.isNext 5 e = true ∧ s.dev.act Reg.CDC_CTL_EN ≠ 0 ∧ s.dev.cdc.queue.length
      < 8 ∧ codecDescBad e = true) ∧
    (∃ (s : State) (n : Nat) (op : Nat) (e : Entry) (ctx : HostRead) (c : Instr) (bs : List Byte), s.dev.mainUp = true ∧ (op = 1 ∧ c = Instr.compress
      n ctx ∨ op = 2 ∧ c = Instr.decompress n ctx) ∧ s.dev.front n 5 op = some e ∧ s.dev.isNext 5 e = true ∧ s.dev.act Reg.CDC_CTL_EN ≠ 0 ∧
      s.dev.cdc.queue.length < 8 ∧ codecDescBad e = false ∧ e.f 6 54 54 = 1 ∧ e.f 6 55 55 = 0 ∧ s.dev.canRequest = true ∧ ctx = HostRead.ok bs ∧
      s.dev.readContext e (List.take 65536 bs) = none) ∧
    (∃ (s : State) (n : Nat) (op : Nat) (e : Entry) (ctx : HostRead) (c : Instr) (bs : List Byte) (x : CodecStream), s.dev.mainUp = true ∧ (op = 1 ∧ c
      = Instr.compress n ctx ∨ op = 2 ∧ c = Instr.decompress n ctx) ∧ s.dev.front n 5 op = some e ∧ s.dev.isNext 5 e = true ∧ s.dev.act
      Reg.CDC_CTL_EN ≠ 0 ∧ s.dev.cdc.queue.length < 8 ∧ codecDescBad e = false ∧ e.f 6 54 54 = 1 ∧ e.f 6 55 55 = 0 ∧ s.dev.canRequest = true ∧ ctx
      = HostRead.ok bs ∧ s.dev.readContext e (List.take 65536 bs) = some x) ∧
    (∃ (s : State) (n : Nat) (op : Nat) (e : Entry) (ctx : HostRead) (c : Instr) (got : List Byte), s.dev.mainUp = true ∧ (op = 1 ∧ c = Instr.compress
      n ctx ∨ op = 2 ∧ c = Instr.decompress n ctx) ∧ s.dev.front n 5 op = some e ∧ s.dev.isNext 5 e = true ∧ s.dev.act Reg.CDC_CTL_EN ≠ 0 ∧
      s.dev.cdc.queue.length < 8 ∧ codecDescBad e = false ∧ e.f 6 54 54 = 1 ∧ e.f 6 55 55 = 0 ∧ s.dev.canRequest = true ∧ ctx = HostRead.fail got) ∧
    (∃ (s : State) (n : Nat) (op : Nat) (e : Entry) (ctx : HostRead) (c : Instr), s.dev.mainUp = true ∧ (op = 1 ∧ c = Instr.compress n ctx ∨ op = 2 ∧
      c = Instr.decompress n ctx) ∧ s.dev.front n 5 op = some e ∧ s.dev.isNext 5 e = true ∧ s.dev.act Reg.CDC_CTL_EN ≠ 0 ∧ 8 ≤
      s.dev.cdc.queue.length) ∧
    (∃ (s : State) (n : Nat) (op : Nat) (e : Entry) (ctx : HostRead) (c : Instr), s.dev.mainUp = true ∧ (op = 1 ∧ c = Instr.compress n ctx ∨ op = 2 ∧
      c = Instr.decompress n ctx) ∧ s.dev.front n 5 op = some e ∧ s.dev.isNext 5 e = true ∧ ¬s.dev.act Reg.CDC_CTL_EN ≠ 0) ∧
    (∃ (s : State) (j : CodecJob) (rest : List CodecJob), s.dev.mainUp = true ∧ s.dev.cdc.job = none ∧ s.dev.cdc.queue = j :: rest ∧ (j.entry.sched =
      false ∨ s.dev.beatAhead j.entry.startBeat = false) ∧ j.entry.f 6 57 57 = 0 ∧ s.dev.canRequest = true ∧ j.entry.f 3 63 32 ≠ 0) ∧
    (∃ (s : State) (j : CodecJob) (rest : List CodecJob), s.dev.mainUp = true ∧ s.dev.cdc.job = none ∧ s.dev.cdc.queue = j :: rest ∧ (j.entry.sched =
      false ∨ s.dev.beatAhead j.entry.startBeat = false) ∧ j.entry.f 6 57 57 = 1) ∧
    (∃ (s : State) (j : CodecJob) (rest : List CodecJob), s.dev.mainUp = true ∧ s.dev.cdc.job = none ∧ s.dev.cdc.queue = j :: rest ∧ j.entry.sched =
      true ∧ s.dev.beatAhead j.entry.startBeat = true) ∧
    (∃ (s : State), s.dev.mainUp = true ∧ (s.dev.cdc.job.isSome = true ∨ s.dev.cdc.queue = [])) ∧
    (∃ (s : State) (v : W64), s.dev.mainUp = true ∧ s.dev.regs.wf = true ∧ Reg.CDC_CTL_EN.of v = 0) ∧
    (∃ (s : State) (v : W64), s.dev.mainUp = true ∧ s.dev.regs.wf = true ∧ Reg.CDC_CTL_EN.of v = 1) ∧
    (∃ (was : RegFile) (d : Dev), d.turnsOff was Reg.CDC_CTL_EN = true) ∧
    (∃ (was : RegFile) (d : Dev) (j : CodecJob), d.turnsOff was Reg.CDC_CTL_EN = true ∧ j ∈ d.cdc.queue) ∧
    (∃ (was : RegFile) (d : Dev) (j : CodecJob), d.turnsOff was Reg.CDC_CTL_EN = true ∧ d.cdc.job = some j) ∧
    (∃ (was : RegFile) (d : Dev), d.turnsOff was Reg.CDC_CTL_EN = true ∧ d.cdc.job = none) :=
  ⟨⟨(codecAsks compress1 (fun d => d)), 1, 1, compress1, (HostRead.ok []), (.compress 1 (HostRead.ok [])), by decide +kernel⟩,
    ⟨(codecAsks badPack (fun d => d)), 1, 1, badPack, (HostRead.ok []), (.compress 1 (HostRead.ok [])), by decide +kernel⟩,
    ⟨(codecAsks resumed (fun d => d)), 1, 1, resumed, (HostRead.ok [1]), (.compress 1 (HostRead.ok [1])), [1], by decide +kernel⟩,
    ⟨(remembers resumed), 1, 1, resumed, (HostRead.ok (contextOf keptStream)), (.compress 1 (HostRead.ok (contextOf keptStream))), (contextOf
      keptStream), keptStream, ⟨by decide +kernel, Or.inl ⟨rfl, rfl⟩, by decide +kernel, by decide +kernel, by decide +kernel, by decide +kernel,
      by decide +kernel, by decide +kernel, by decide +kernel, by decide +kernel, rfl, context_reads _ rfl⟩⟩,
    ⟨(codecAsks resumed (fun d => d)), 1, 1, resumed, (HostRead.fail [1]), (.compress 1 (HostRead.fail [1])), [1], by decide +kernel⟩,
    ⟨(codecAsks compress1 (fun d => { d with cdc.queue := List.replicate 8 (jobOf compress1) })), 1, 1, compress1, (HostRead.ok []), (.compress 1
      (HostRead.ok [])), by decide +kernel⟩,
    ⟨(w (fun d => inRing compress1 (d.setRwNow Reg.CDC_CTL_EN 0 0))), 1, 1, compress1, (HostRead.ok []), (.compress 1 (HostRead.ok [])),
      by decide +kernel⟩,
    ⟨(queuedJob compress1 (fun d => d)), (jobOf compress1), [], by decide +kernel⟩,
    ⟨(queuedJob fromDram (fun d => d)), (jobOf fromDram), [], by decide +kernel⟩,
    ⟨(queuedJob kept1 (fun d => d)), (jobOf kept1), [], by decide +kernel⟩,
    ⟨s0, by decide +kernel⟩,
    ⟨s0, 0, by decide +kernel⟩,
    ⟨s0, 1, by decide +kernel⟩,
    ⟨wasOn, codecOff, by decide +kernel⟩,
    ⟨wasOn, codecOff, (jobOf compress1), by decide +kernel⟩,
    ⟨wasOn, codecOff, (jobOf expand1), by decide +kernel⟩,
    ⟨wasOn, { codecOff with cdc.job := none }, by decide +kernel⟩⟩
theorem live_CodecJobs :
    (∃ (s : State) (j : CodecJob) (src : List Byte), s.dev.mainUp = true ∧ s.dev.cdc.job = some j ∧ j.stop = none ∧ j.entry.opcode = 1 ∧ j.stream =
      newStream j.entry ∧ s.dev.canRequest = true ∧ j.entry.noDone = false ∧ j.entry.w 4 = 0 ∧ j.entry.f 6 59 58 = 0 ∧ j.entry.f 6 57 56 = 0 ∧
      j.entry.f 6 53 53 = 1 ∧ src.length = j.entry.f 3 63 32 ∧ src.length ≤ 65535 ∧ src.length + 5 ≤ j.entry.f 3 31 0) ∧
    (∃ (s : State) (j : CodecJob) (data : List Byte), s.dev.mainUp = true ∧ s.dev.cdc.job = some j ∧ j.stop = none ∧ j.entry.opcode = 2 ∧ j.stream =
      newStream j.entry ∧ s.dev.canRequest = true ∧ j.entry.noDone = false ∧ j.entry.w 4 = 0 ∧ j.entry.f 6 59 58 = 0 ∧ j.entry.f 6 57 56 = 0 ∧
      j.entry.f 6 51 51 = 0 ∧ data ≠ [] ∧ data.length ≤ 65535 ∧ j.entry.f 3 63 32 = (1 :: (leBytes 2 data.length ++ leBytes 2 (65535 -
      data.length) ++ data)).length ∧ data.length ≤ j.entry.f 3 31 0) ∧
    (∃ (s : State), s.dev.mainUp = true ∧ s.dev.cdc.job = none) :=
  ⟨⟨(jobRuns compress1), (jobOf compress1), [1, 1, 1, 1], by decide +kernel⟩,
    ⟨(jobRuns expand1), (jobOf expand1), [9, 8], by decide +kernel⟩,
    ⟨s0, by decide +kernel⟩⟩
theorem live_Moves :
    (∃ (s : State) (n : Nat) (e : Entry) (rest : List Entry), s.dev.mainUp = true ∧ n < 64 ∧ s.dev.movesOf n = e :: rest ∧ e.ring = n ∧ (∀ (m : Nat),
      m < 64 → ∀ (x : Entry), x ∈ s.dev.movesOf m → e.seq ≤ x.seq) ∧ s.dev.island 576 ≠ 2 ∧ s.dev.act Reg.DMA_CHAN_CFG_EN (moveChan e) = 1 ∧
      moveCheck e = 0 ∧ (s.dev.mover (moveChan e)).queue.length < 4) ∧
    (∃ (s : State) (n : Nat) (e : Entry) (rest : List Entry), s.dev.mainUp = true ∧ n < 64 ∧ s.dev.movesOf n = e :: rest ∧ e.ring = n ∧ (∀ (m : Nat),
      m < 64 → ∀ (x : Entry), x ∈ s.dev.movesOf m → e.seq ≤ x.seq) ∧ s.dev.island 576 ≠ 2 ∧ s.dev.act Reg.DMA_CHAN_CFG_EN (moveChan e) = 1 ∧
      moveCheck e = 0 ∧ 4 ≤ (s.dev.mover (moveChan e)).queue.length) ∧
    (∃ (s : State) (n : Nat) (e : Entry) (rest : List Entry), s.dev.mainUp = true ∧ n < 64 ∧ s.dev.movesOf n = e :: rest ∧ e.ring = n ∧ (∀ (m : Nat),
      m < 64 → ∀ (x : Entry), x ∈ s.dev.movesOf m → e.seq ≤ x.seq) ∧ s.dev.island 576 ≠ 2 ∧ (s.dev.act Reg.DMA_CHAN_CFG_EN (moveChan e) = 1 ∨
      moveCheck e = 1) ∧ moveCheck e ≠ 0) ∧
    (∃ (s : State) (n : Nat) (e : Entry) (rest : List Entry), s.dev.mainUp = true ∧ n < 64 ∧ s.dev.movesOf n = e :: rest ∧ e.ring = n ∧ (∀ (m : Nat),
      m < 64 → ∀ (x : Entry), x ∈ s.dev.movesOf m → e.seq ≤ x.seq) ∧ s.dev.island 576 ≠ 2 ∧ ¬s.dev.act Reg.DMA_CHAN_CFG_EN (moveChan e) = 1 ∧
      moveCheck e ≠ 1) ∧
    (∃ (s : State) (c : Nat) (e : Entry) (rest : List Entry), s.dev.mainUp = true ∧ c < 32 ∧ (s.dev.mover c).run = none ∧ (s.dev.mover c).queue = e ::
      rest ∧ moveCount e ≠ 0 ∧ (s.dev.act Reg.DMA_CHAN_CFG_EN c = 1 ∧ (e.sched = false ∨ s.dev.beatAhead e.startBeat = false)) ∧ moveSrc e ≠ 0) ∧
    (∃ (s : State) (c : Nat) (e : Entry) (rest : List Entry), s.dev.mainUp = true ∧ c < 32 ∧ (s.dev.mover c).run = none ∧ (s.dev.mover c).queue = e ::
      rest ∧ moveCount e ≠ 0 ∧ (s.dev.act Reg.DMA_CHAN_CFG_EN c = 1 ∧ (e.sched = false ∨ s.dev.beatAhead e.startBeat = false)) ∧ moveSrc e = 0 ∧
      moveMode e = 0 ∧ s.dev.canRequest = true) ∧
    (∃ (s : State) (c : Nat) (e : Entry) (rest : List Entry), s.dev.mainUp = true ∧ c < 32 ∧ (s.dev.mover c).run = none ∧ (s.dev.mover c).queue = e ::
      rest ∧ moveCount e ≠ 0 ∧ (¬(s.dev.act Reg.DMA_CHAN_CFG_EN c = 1 ∧ (e.sched = false ∨ s.dev.beatAhead e.startBeat = false)) ∨ moveSrc e = 0 ∧
      s.dev.canRequest = false)) ∧
    (∃ (s : State) (c : Nat), s.dev.mainUp = true ∧ ((s.dev.mover c).run.isSome = true ∨ (s.dev.mover c).queue = [])) ∧
    (∃ (s : State) (c : Nat) (r : DmaRun), s.dev.mainUp = true ∧ c < 32 ∧ (s.dev.mover c).run = some r ∧ r.abort = none ∧ r.flush = none) ∧
    (∃ (s : State) (c : Nat), s.dev.mainUp = true ∧ (s.dev.mover c).run = none) ∧
    (∃ (s : State) (c : Nat) (r : DmaRun), s.dev.mainUp = true ∧ c < 32 ∧ (s.dev.mover c).run = some r ∧ r.readBack = true ∧ r.abort = none ∧ r.flush
      = none ∧ r.entry.noDone = false) ∧
    (∃ (s : State) (c : Nat) (r : DmaRun), s.dev.mainUp = true ∧ c < 32 ∧ (s.dev.mover c).run = some r ∧ r.readBack = false) :=
  ⟨⟨(movesAsk copy1 {}), 1, copy1, [], by decide +kernel⟩,
    ⟨(movesAsk copy1 { queue := List.replicate 4 copyHost }), 1, copy1, [], by decide +kernel⟩,
    ⟨(movesAsk badMove {}), 1, badMove, [], by decide +kernel⟩,
    ⟨(w (fun d => inRing copy1 (d.setRwNow Reg.DMA_CHAN_CFG_EN 0 31))), 1, copy1, [], by decide +kernel⟩,
    ⟨(moving 31 { queue := [copy1] }), 31, copy1, [], by decide +kernel⟩,
    ⟨(moving 31 { queue := [copyHost] }), 31, copyHost, [], by decide +kernel⟩,
    ⟨(unlinked (moving 31 { queue := [copyHost] })), 31, copyHost, [], by decide +kernel⟩,
    ⟨s0, 31, by decide +kernel⟩,
    ⟨(moving 31 (runs copy1)), 31, { entry := copy1 }, by decide +kernel⟩,
    ⟨s0, 31, by decide +kernel⟩,
    ⟨(moving 31 { run := some readsBack }), 31, readsBack, by decide +kernel⟩,
    ⟨(moving 31 (runs copy1)), 31, { entry := copy1 }, by decide +kernel⟩⟩
theorem live_MoveBursts :
    (∃ (s : State) (c : Nat) (e : Entry), s.dev.mainUp = true ∧ s.mem.wf = true ∧ c < 32 ∧ (s.dev.mover c).run = some { entry := e } ∧ e.noDone =
      false ∧ moveSrc e = 2 ∧ moveDst e = 2 ∧ moveCheck e = 0 ∧ 1 ≤ moveCount e ∧ if moveMode e = 0 then moveCount e ≤ 4096 / moveSize e else
      moveCount e ≤ 512 ∧ s.mem.poisonIn (moveReads e 0 (moveCount e)) = none) ∧
    (∃ (s : State) (n : Nat) (e : Entry), s.dev.mainUp = true ∧ n < 64 ∧ (List.find? (fun e => e.cls == 6 && e.opcode == 2 && !(e.sched &&
      s.dev.beatAhead e.startBeat)) (s.dev.ring n).inQ = some e) ∧ s.dev.island 576 ≠ 2 ∧ (s.dev.mover (e.f 1 4 0)).run = none) ∧
    (∃ (s : State) (c : Nat) (v : W64), s.dev.mainUp = true ∧ s.dev.regs.wf = true ∧ c < 32 ∧ s.dev.cur Reg.DMA_CHAN_CFG_EN c = 1 ∧
      Reg.DMA_CHAN_CFG_EN.of v = 0 ∧ (1 ≤ Reg.DMA_CHAN_CFG_WEIGHT.of v ∧ Reg.DMA_CHAN_CFG_WEIGHT.of v ≤ 8)) ∧
    (∃ (s : State) (c : Nat) (v : W64), s.dev.mainUp = true ∧ s.dev.regs.wf = true ∧ c < 32 ∧ s.dev.cur Reg.DMA_CHAN_CFG_EN c = 1 ∧
      Reg.DMA_CHAN_CFG_EN.of v = 0 ∧ (Reg.DMA_CHAN_CFG_WEIGHT.of v < 1 ∨ 8 < Reg.DMA_CHAN_CFG_WEIGHT.of v)) ∧
    (∃ (was : RegFile) (d : Dev) (c : Nat), c < 32 ∧ d.turnsOff was Reg.DMA_CHAN_CFG_EN c = true) ∧
    (∃ (was : RegFile) (d : Dev) (c : Nat) (x : Entry), c < 32 ∧ d.turnsOff was Reg.DMA_CHAN_CFG_EN c = true ∧ x ∈ (d.mover c).queue) ∧
    (∃ (was : RegFile) (d : Dev) (c : Nat) (k : Nat), c < 32 ∧ d.turnsOff was Reg.DMA_CHAN_CFG_EN c = true ∧ k < 32 ∧ k ≠ c) ∧
    (∃ (was : RegFile) (d : Dev) (c : Nat), c < 32 ∧ d.turnsOff was Reg.DMA_CHAN_CFG_EN c = true ∧ (d.mover c).run = none) ∧
    (∃ (was : RegFile) (d : Dev) (c : Nat) (r : DmaRun), c < 32 ∧ d.turnsOff was Reg.DMA_CHAN_CFG_EN c = true ∧ (d.mover c).run = some r ∧ r.readBack
      = false ∧ r.aborting = none) :=
  ⟨⟨(mixed (moving 31 (runs copy1))), 31, copy1, by decide +kernel⟩,
    ⟨(movesAsk (abortOf 1) { queue := [copy1] }), 1, (abortOf 1), by decide +kernel⟩,
    ⟨(moving 31 {}), 31, (BitVec.ofNat 64 (8 * 2 ^ Reg.DMA_CHAN_CFG_WEIGHT.lo)), by decide +kernel⟩,
    ⟨(moving 31 {}), 31, 0, by decide +kernel⟩,
    ⟨(moving 31 {}).dev.regs, (dmaOff { queue := [copy1] }), 31, by decide +kernel⟩,
    ⟨(moving 31 {}).dev.regs, (dmaOff { queue := [copy1] }), 31, copy1, by decide +kernel⟩,
    ⟨(moving 31 {}).dev.regs, (dmaOff { queue := [copy1] }), 31, 30, by decide +kernel⟩,
    ⟨(moving 31 {}).dev.regs, (dmaOff { queue := [copy1] }), 31, by decide +kernel⟩,
    ⟨(moving 31 {}).dev.regs, (dmaOff (runs copy1)), 31, { entry := copy1 }, by decide +kernel⟩⟩
theorem live_DramControl :
    (∃ (s : State) (c : Nat) (v : W64), s.dev.mainUp = true ∧ s.dev.regs.wf = true ∧ c < 2 ∧ s.dev.cur Reg.MEM_DDR_CFG_EN c = 0 ∧
      Reg.MEM_DDR_CFG_EN.of v = 1 ∧ ddrCfgOk v = true) ∧
    (∃ (s : State) (c : Nat) (v : W64), s.dev.mainUp = true ∧ s.dev.regs.wf = true ∧ c < 2 ∧ s.dev.cur Reg.MEM_DDR_CFG_EN c = 0 ∧
      Reg.MEM_DDR_CFG_EN.of v = 1 ∧ ddrCfgOk v = false) ∧
    (∃ (s : State) (c : Nat) (v : W64), s.dev.mainUp = true ∧ s.dev.regs.wf = true ∧ c < 2 ∧ s.dev.cur Reg.MEM_DDR_CFG_EN c = 1 ∧
      Reg.MEM_DDR_CFG_EN.of v = 0 ∧ s.dev.changes Reg.MEM_DDR_CFG [Reg.MEM_DDR_CFG_EN] v c = false ∧ s.dev.ddrInUse c = false) ∧
    (∃ (s : State) (c : Nat) (v : W64), s.dev.mainUp = true ∧ s.dev.regs.wf = true ∧ c < 2 ∧ s.dev.cur Reg.MEM_DDR_CFG_EN c = 1 ∧
      Reg.MEM_DDR_CFG_EN.of v = 0 ∧ (s.dev.changes Reg.MEM_DDR_CFG [Reg.MEM_DDR_CFG_EN] v c = true ∨ s.dev.ddrInUse c = true)) ∧
    (∃ (c : Nat) (k : Nat), c < 2 ∧ k < 2 ∧ k ≠ c) ∧
    (∃ (d : Dev) (c : Nat), c < 2 ∧ d.act Reg.MEM_DDR_CFG_EN c = 1) ∧
    (∃ (d : Dev) (c : Nat), c < 2 ∧ d.act Reg.MEM_DDR_CFG_EN c = 0 ∧ (d.ddr c).st = DdrState.up ∧ (d.ddr c).st ≠ DdrState.off) ∧
    (∃ (s : State) (c : Nat), s.dev.mainUp = true ∧ c < 2 ∧ (s.dev.ddr c).st = DdrState.init) ∧
    (∃ (s : State) (c : Nat) (r : Nat) (l : Nat), s.dev.mainUp = true ∧ c < 2 ∧ (s.dev.ddr c).st = DdrState.init ∧ r < 2 ∧ l < 5) ∧
    (∃ (s : State) (c : Nat), s.dev.mainUp = true ∧ (s.dev.ddr c).st ≠ DdrState.init) ∧
    (∃ (s : State) (c : Nat) (k : Nat), s.dev.mainUp = true ∧ c < 2 ∧ (s.dev.ddr c).st = DdrState.up ∧ k < 2 ∧ k ≤ s.dev.cur Reg.MEM_DDR_CFG_RANKS c) ∧
    (∃ (s : State) (c : Nat), s.dev.mainUp = true ∧ c < 2 ∧ (s.dev.ddr c).st = DdrState.up) ∧
    (∃ (s : State) (c : Nat) (bank : Nat) (req : Nat), s.dev.mainUp = true ∧ c < 2 ∧ (s.dev.ddr c).st = DdrState.up ∧ at' s.dev.memc.actLimit c ≠ 0 ∧
      req < 6 ∧ bank < 256 ∧ ¬(bank, req) ∈ (s.dev.ddr c).throttled) ∧
    (∃ (s : State) (c : Nat) (bank : Nat) (req : Nat), s.dev.mainUp = true ∧ ((s.dev.ddr c).st ≠ DdrState.up ∨ at' s.dev.memc.actLimit c = 0 ∨ (bank,
      req) ∈ (s.dev.ddr c).throttled)) ∧
    (∃ (s : State), s.dev.mainUp = true ∧ s.dev.beatWide / 640000 ≠ s.dev.memc.window) ∧
    (∃ (s : State), s.dev.mainUp = true ∧ s.dev.beatWide / 640000 = s.dev.memc.window) :=
  ⟨⟨s0, 0, (ddrWord 1 6400), by decide +kernel⟩,
    ⟨s0, 0, (ddrWord 1 3199), by decide +kernel⟩,
    ⟨(ddrOn (fun d => d)), 0, (ddrNow &&& ~~~ (BitVec.ofNat 64 (2 ^ Reg.MEM_DDR_CFG_EN.lo))), by decide +kernel⟩,
    ⟨(ddrOn portUses), 0, (ddrNow &&& ~~~ (BitVec.ofNat 64 (2 ^ Reg.MEM_DDR_CFG_EN.lo))), by decide +kernel⟩,
    ⟨0, 1, by decide +kernel⟩,
    ⟨(ddrOn (fun d => d)).dev, 0, by decide +kernel⟩,
    ⟨(ddrSt .up).dev, 0, by decide +kernel⟩,
    ⟨(ddrSt .init), 0, by decide +kernel⟩,
    ⟨(ddrSt .init), 0, 1, 4, by decide +kernel⟩,
    ⟨(ddrSt .down), 0, by decide +kernel⟩,
    ⟨(ddrSt .up), 0, 0, by decide +kernel⟩,
    ⟨(ddrSt .up), 0, by decide +kernel⟩,
    ⟨(ddrSt .up), 0, 255, 5, by decide +kernel⟩,
    ⟨(ddrSt .up), 1, 255, 5, by decide +kernel⟩,
    ⟨(beats 640000 (ddrSt .up)), by decide +kernel⟩,
    ⟨s0, by decide +kernel⟩⟩
theorem live_LanesAndEthernet :
    (∃ (s : State) (src : Source) (l : Nat) (v : W64), s.dev.mainUp = true ∧ s.dev.regs.wf = true ∧ l < 32 ∧ (Reg.LNK_LANE_TEST_PATTERN.of v ≠ 0 ∨
      Reg.LNK_LANE_TEST_LOOP.of v ≠ 0) ∧ (Reg.LNK_LANE_TEST_PATTERN.of v ≤ 4 ∧ Reg.LNK_LANE_TEST_RATE.of v ≤ 8) ∧ s.dev.testing l = false ∧
      s.dev.testAllowed src l = true ∧ Reg.LNK_LANE_TEST_INJECT.of v = 0) ∧
    (∃ (s : State) (src : Source) (l : Nat) (v : W64), s.dev.mainUp = true ∧ s.dev.regs.wf = true ∧ l < 32 ∧ (Reg.LNK_LANE_TEST_PATTERN.of v ≠ 0 ∨
      Reg.LNK_LANE_TEST_LOOP.of v ≠ 0) ∧ s.dev.testing l = false ∧ (¬(Reg.LNK_LANE_TEST_PATTERN.of v ≤ 4 ∧ Reg.LNK_LANE_TEST_RATE.of v ≤ 8) ∨
      s.dev.testAllowed src l = false)) ∧
    (∃ (s : State) (l : Nat) (v : W64), s.dev.mainUp = true ∧ s.dev.regs.wf = true ∧ l < 32 ∧ (Reg.LNK_LANE_TEST_PATTERN.of v ≠ 0 ∨
      Reg.LNK_LANE_TEST_LOOP.of v ≠ 0) ∧ (Reg.LNK_LANE_TEST_PATTERN.of v ≤ 4 ∧ Reg.LNK_LANE_TEST_RATE.of v ≤ 8) ∧ s.dev.testing l = true ∧
      Reg.LNK_LANE_TEST_INJECT.of v = 1) ∧
    (∃ (s : State) (l : Nat) (v : W64) (errs : Nat), s.dev.mainUp = true ∧ s.dev.regs.wf = true ∧ l < 32 ∧ (¬(Reg.LNK_LANE_TEST_PATTERN.of v ≠ 0 ∨
      Reg.LNK_LANE_TEST_LOOP.of v ≠ 0)) ∧ (Reg.LNK_LANE_TEST_PATTERN.of v ≤ 4 ∧ Reg.LNK_LANE_TEST_RATE.of v ≤ 8) ∧ s.dev.testing l = true ∧ 1024 <
      errs ∧ (s.dev.lane l).chk = true) ∧
    (∃ (s : State) (l : Nat) (errs : Nat), s.dev.mainUp = true ∧ s.dev.regs.wf = true ∧ l < 32 ∧ errs ≤ 1024) ∧
    (∃ (s : State) (e : Nat), s.dev.mainUp = true ∧ e < 2 ∧ s.dev.act Reg.LNK_ETH_CFG_EN e = 1 ∧ at' s.dev.lnk.ethUp e = false) ∧
    (∃ (s : State) (e : Nat), s.dev.mainUp = true ∧ e < 2 ∧ (s.dev.act Reg.LNK_ETH_CFG_EN e ≠ 1 ∨ at' s.dev.lnk.ethUp e = true) ∧ at' s.dev.lnk.ethUp
      e = true) ∧
    (∃ (d : Dev) (e : Nat), e < 2 ∧ d.act Reg.LNK_ETH_CFG_EN e = 1) ∧
    (∃ (d : Dev) (e : Nat), e < 2 ∧ d.act Reg.LNK_ETH_CFG_EN e ≠ 1 ∧ at' d.lnk.ethUp e = true) :=
  ⟨⟨s0, Source.host, 8, (testWord 4 0 8 0), by decide +kernel⟩,
    ⟨s0, Source.sideband, 31, (testWord 5 0 8 1), by decide +kernel⟩,
    ⟨(testingLane { chk := true, bits := 5 }), 8, (testWord 1 0 1 1), by decide +kernel⟩,
    ⟨(testingLane { chk := true, bits := 5 }), 8, 0, 1025, by decide +kernel⟩,
    ⟨(testingLane { chk := false, bits := 5 }), 8, 1024, by decide +kernel⟩,
    ⟨(ethOn (fun d => d)), 0, by decide +kernel⟩,
    ⟨(ethOn ethUp0), 0, by decide +kernel⟩,
    ⟨(ethOn ethUp0).dev, 0, by decide +kernel⟩,
    ⟨(w ethUp0).dev, 0, by decide +kernel⟩⟩
theorem live_BeatLinkPorts :
    (∃ (s : State) (p : Nat) (v : W64), s.dev.mainUp = true ∧ s.dev.regs.wf = true ∧ p < 10 ∧ Reg.LNK_BL_CFG_EN.of v = 1 ∧ (s.dev.bl p).st =
      BlState.off ∧ Reg.LNK_BL_CFG_RETRY_MAX.of v ≠ 0 ∧ (p < 8 ∨ s.dev.cur Reg.LNK_DEV_EXT_PORTS ≠ 0) ∧ (blLanes p).any s.dev.testing = false ∧
      s.dev.skewRuns p = false) ∧
    (∃ (s : State) (p : Nat) (v : W64), s.dev.mainUp = true ∧ s.dev.regs.wf = true ∧ p < 10 ∧ Reg.LNK_BL_CFG_EN.of v = 1 ∧ (s.dev.bl p).st =
      BlState.off ∧ (Reg.LNK_BL_CFG_RETRY_MAX.of v = 0 ∨ 8 ≤ p ∧ s.dev.cur Reg.LNK_DEV_EXT_PORTS = 0 ∨ (blLanes p).any s.dev.testing = true)) ∧
    (∃ (s : State) (p : Nat) (v : W64), s.dev.mainUp = true ∧ s.dev.regs.wf = true ∧ p < 10 ∧ Reg.LNK_BL_CFG_EN.of v = 0 ∧ Reg.LNK_BL_CFG_RETRY_MAX.of
      v ≠ 0 ∧ ((s.dev.bl p).st = BlState.off ∨ s.dev.changes Reg.LNK_BL_CFG [Reg.LNK_BL_CFG_EN] v p = false)) ∧
    (∃ (d : Dev) (p : Nat), p < 10 ∧ d.act Reg.LNK_BL_CFG_EN p = 1 ∧ (d.bl p).st = BlState.off) ∧
    (∃ (d : Dev) (p : Nat), p < 10 ∧ d.act Reg.LNK_BL_CFG_EN p = 1 ∧ (d.bl p).st ≠ BlState.off) ∧
    (∃ (d : Dev) (p : Nat), p < 10 ∧ d.act Reg.LNK_BL_CFG_EN p ≠ 1 ∧ (d.bl p).st = BlState.up) ∧
    (∃ (d : Dev) (p : Nat) (l : Nat), p < 10 ∧ d.act Reg.LNK_BL_CFG_EN p ≠ 1 ∧ (d.bl p).st ≠ BlState.off ∧ l ∈ blLanes p) ∧
    (∃ (s : State) (p : Nat), s.dev.mainUp = true ∧ p < 10 ∧ (s.dev.bl p).st = BlState.training ∧ (s.dev.bl p).st ≠ BlState.aligning ∧ ((s.dev.bl
      p).st ≠ BlState.aligning ∨ s.dev.pwr.clock - (s.dev.bl p).since < 10 * msUnit) ∧ ((s.dev.bl p).st ≠ BlState.hello ∨ s.dev.pwr.clock -
      (s.dev.bl p).since < 100 * msUnit) ∧ (s.dev.bl p).st ≠ BlState.hello ∧ (s.dev.bl p).st ≠ BlState.isolated) ∧
    (∃ (s : State) (p : Nat), s.dev.mainUp = true ∧ p < 10 ∧ (s.dev.bl p).st ≠ BlState.training ∧ (s.dev.bl p).st = BlState.aligning) ∧
    (∃ (s : State) (p : Nat), s.dev.mainUp = true ∧ p < 10 ∧ (s.dev.bl p).st = BlState.aligning ∧ 10 * msUnit ≤ s.dev.pwr.clock - (s.dev.bl p).since) ∧
    (∃ (s : State) (p : Nat), s.dev.mainUp = true ∧ p < 10 ∧ (((s.dev.bl p).st = BlState.hello ∧ ∀ (a : Int), (s.dev.bl p).helloAt = some a → 1 *
      msUnit ≤ s.dev.pwr.clock - a) ∨ (s.dev.bl p).st = BlState.isolated ∧ ∀ (a : Int), (s.dev.bl p).helloAt = some a → 100 * msUnit ≤
      s.dev.pwr.clock - a)) ∧
    (∃ (s : State) (p : Nat), s.dev.mainUp = true ∧ p < 10 ∧ (s.dev.bl p).st = BlState.hello ∧ 100 * msUnit ≤ s.dev.pwr.clock - (s.dev.bl p).since) ∧
    (∃ (s : State) (p : Nat) (w0 : W64), s.dev.mainUp = true ∧ p < 10 ∧ wbits w0 63 56 = 1 ∧ ((s.dev.bl p).st = BlState.hello ∨ (s.dev.bl p).st =
      BlState.isolated) ∧ wbits w0 55 40 = s.dev.act Reg.LNK_DEV_DOMAIN ∧ wbits w0 9 0 ≠ s.dev.id) ∧
    (∃ (s : State) (p : Nat) (w0 : W64), s.dev.mainUp = true ∧ p < 10 ∧ wbits w0 63 56 = 1 ∧ (s.dev.bl p).st = BlState.hello ∧ ¬wbits w0 55 40 =
      s.dev.act Reg.LNK_DEV_DOMAIN) ∧
    (∃ (s : State) (p : Nat) (w0 : W64), s.dev.mainUp = true ∧ p < 10 ∧ wbits w0 63 56 = 1 ∧ (s.dev.bl p).st = BlState.hello ∧ wbits w0 55 40 =
      s.dev.act Reg.LNK_DEV_DOMAIN ∧ wbits w0 9 0 = s.dev.id) ∧
    (∃ (s : State) (p : Nat) (w0 : W64), s.dev.mainUp = true ∧ p < 10 ∧ wbits w0 63 56 ≠ 1) ∧
    (∃ (s : State) (p : Nat), s.dev.mainUp = true ∧ p < 10 ∧ ((s.dev.bl p).st = BlState.off ∨ (s.dev.bl p).st = BlState.training ∨ (s.dev.bl p).st =
      BlState.aligning)) ∧
    (∃ (s : State) (p : Nat) (w0 : W64), s.dev.mainUp = true ∧ p < 10 ∧ wbits w0 63 56 = 1 ∧ (s.dev.bl p).st = BlState.up ∧ (wbits w0 55 40 ≠
      (s.dev.bl p).peerDomain ∨ wbits w0 9 0 ≠ (s.dev.bl p).peerDev)) ∧
    (∃ (s : State) (p : Nat) (w0 : W64), s.dev.mainUp = true ∧ p < 10 ∧ (s.dev.bl p).st = BlState.up ∧ wbits w0 55 40 = (s.dev.bl p).peerDomain ∧
      wbits w0 9 0 = (s.dev.bl p).peerDev) ∧
    (∃ (s : State) (p : Nat) (errs : Nat), s.dev.mainUp = true ∧ p < 10 ∧ (s.dev.bl p).st = BlState.up ∧ errs = 0) ∧
    (∃ (s : State) (p : Nat) (errs : Nat), s.dev.mainUp = true ∧ p < 10 ∧ (s.dev.bl p).st = BlState.up ∧ 64 ≤ errs) ∧
    (∃ (s : State) (p : Nat) (errs : Nat), s.dev.mainUp = true ∧ p < 10 ∧ (s.dev.bl p).st = BlState.up ∧ 0 < errs ∧ errs < 64) :=
  ⟨⟨s0, 0, (blCfg 1 8), by decide +kernel⟩,
    ⟨s0, 9, (blCfg 1 8), by decide +kernel⟩,
    ⟨s0, 0, (blCfg 0 1), by decide +kernel⟩,
    ⟨(w (fun d => d.setRwNow Reg.LNK_BL_CFG_EN 1 0)).dev, 0, by decide +kernel⟩,
    ⟨(w (fun d => portIs 0 upPort (d.setRwNow Reg.LNK_BL_CFG_EN 1 0))).dev, 0, by decide +kernel⟩,
    ⟨(port0 upPort).dev, 0, by decide +kernel⟩,
    ⟨(port0 upPort).dev, 0, 8, by decide +kernel⟩,
    ⟨(port0 { st := .training }), 0, by decide +kernel⟩,
    ⟨(port0 { st := .aligning }), 0, by decide +kernel⟩,
    ⟨(later100 (port0 { st := .aligning })), 0, by decide +kernel⟩,
    ⟨(port0 { st := .hello }), 0, by decide +kernel⟩,
    ⟨(later100 (port0 { st := .hello })), 0, by decide +kernel⟩,
    ⟨(peers { st := .hello }), 0, (helloWord 0 3 2), by decide +kernel⟩,
    ⟨(peers { st := .hello }), 0, (helloWord 9 3 2), by decide +kernel⟩,
    ⟨(peers { st := .hello }), 0, (helloWord 0 3 1), by decide +kernel⟩,
    ⟨(peers { st := .hello }), 0, 0, by decide +kernel⟩,
    ⟨(peers {}), 0, by decide +kernel⟩,
    ⟨(peers upPort), 0, (helloWord 0 3 3), by decide +kernel⟩,
    ⟨(peers upPort), 0, (helloWord 0 3 2), by decide +kernel⟩,
    ⟨(peers upPort), 0, 0, by decide +kernel⟩,
    ⟨(peers upPort), 0, 64, by decide +kernel⟩,
    ⟨(peers upPort), 0, 63, by decide +kernel⟩⟩
theorem live_LinkFrames :
    (∃ (s : State) (p : Nat) (w : W64), s.dev.mainUp = true ∧ p < 10 ∧ (s.dev.bl p).st = BlState.up ∧ s.dev.lnk.exports = [] ∧ (∀ (l : Nat), l < 2 →
      (at' (s.dev.bl p).vl l).queue = []) ∧ wbits w 63 56 = 45 ∧ crc8 (BitVec.toNat w) = wbits w 7 0 ∧ wbits w 15 14 = 0) ∧
    (∃ (s : State) (p : Nat) (w : W64), s.dev.mainUp = true ∧ p < 10 ∧ (s.dev.bl p).st = BlState.up ∧ s.dev.lnk.exports = [] ∧ (∀ (l : Nat), l < 2 →
      (at' (s.dev.bl p).vl l).queue = []) ∧ (wbits w 63 56 ≠ 45 ∨ crc8 (BitVec.toNat w) ≠ wbits w 7 0)) ∧
    (∃ (s : State) (p : Nat) (w : W64), s.dev.mainUp = true ∧ p < 10 ∧ (s.dev.bl p).st = BlState.up ∧ s.dev.lnk.exports = [] ∧ (∀ (l : Nat), l < 2 →
      (at' (s.dev.bl p).vl l).queue = []) ∧ wbits w 63 56 = 45 ∧ crc8 (BitVec.toNat w) = wbits w 7 0 ∧ wbits w 15 14 = 2 ∧ ((if (at' (s.dev.bl
      p).vl 0).naks ≠ 0 ∧ (at' (s.dev.bl p).vl 0).nakAck = wbits w 55 44 then (at' (s.dev.bl p).vl 0).naks + 1 else 1) < s.dev.act
      Reg.LNK_BL_CFG_RETRY_MAX p)) ∧
    (∃ (s : State) (p : Nat) (w : W64), s.dev.mainUp = true ∧ p < 10 ∧ (s.dev.bl p).st = BlState.up ∧ s.dev.lnk.exports = [] ∧ (∀ (l : Nat), l < 2 →
      (at' (s.dev.bl p).vl l).queue = []) ∧ wbits w 63 56 = 45 ∧ crc8 (BitVec.toNat w) = wbits w 7 0 ∧ wbits w 15 14 = 2 ∧ (s.dev.act
      Reg.LNK_BL_CFG_RETRY_MAX p ≤ if (at' (s.dev.bl p).vl 0).naks ≠ 0 ∧ (at' (s.dev.bl p).vl 0).nakAck = wbits w 55 44 then (at' (s.dev.bl p).vl
      0).naks + 1 else 1)) ∧
    (∃ (s : State) (p : Nat), s.dev.mainUp = true ∧ s.dev.blUp p = false) ∧
    (∃ (s : State) (p : Nat) (pairs : List (LaneBlock × LaneBlock)) (drift : Int), s.dev.mainUp = true ∧ s.dev.blUp p = true ∧ (s.dev.hearPairs p
      pairs drift).snd.fst = []) ∧
    (∃ (s : State) (p : Nat) (pairs : List (LaneBlock × LaneBlock)) (drift : Int) (f : Frame) (good : Bool), s.dev.mainUp = true ∧ s.dev.blUp p = true
      ∧ (s.dev.hearPairs p pairs drift).snd.fst = [(f, good)] ∧ f.ftype ≠ 4 ∧ (f.ftype = 5 → wbits (f.words.getD 0 0) 63 56 ≠ 1) ∧ (good = false ∨
      f.seq ≠ (at' (s.dev.bl p).vl (frameVl f)).expect)) ∧
    (∃ (s : State) (p : Nat) (pairs : List (LaneBlock × LaneBlock)) (drift : Int) (f : Frame) (good : Bool), s.dev.mainUp = true ∧ s.dev.blUp p = true
      ∧ (s.dev.hearPairs p pairs drift).snd.fst = [(f, good)] ∧ f.ftype ≠ 4 ∧ (f.ftype = 5 → wbits (f.words.getD 0 0) 63 56 ≠ 1) ∧ good = true ∧
      f.seq = (at' (s.dev.bl p).vl (frameVl f)).expect ∧ f.dst = s.dev.id) ∧
    (∃ (s : State) (p : Nat) (pairs : List (LaneBlock × LaneBlock)) (drift : Int) (f : Frame) (good : Bool), s.dev.mainUp = true ∧ s.dev.blUp p = true
      ∧ (s.dev.hearPairs p pairs drift).snd.fst = [(f, good)] ∧ f.ftype ≠ 4 ∧ (f.ftype = 5 → wbits (f.words.getD 0 0) 63 56 ≠ 1) ∧ good = true ∧
      f.seq = (at' (s.dev.bl p).vl (frameVl f)).expect ∧ f.dst ≠ s.dev.id ∧ f.hops = 16) ∧
    (∃ (s : State) (p : Nat) (pairs : List (LaneBlock × LaneBlock)) (drift : Int) (f : Frame) (good : Bool), s.dev.mainUp = true ∧ s.dev.blUp p = true
      ∧ (s.dev.hearPairs p pairs drift).snd.fst = [(f, good)] ∧ f.ftype ≠ 4 ∧ (f.ftype = 5 → wbits (f.words.getD 0 0) 63 56 ≠ 1) ∧ good = true ∧
      f.seq = (at' (s.dev.bl p).vl (frameVl f)).expect ∧ f.dst ≠ s.dev.id ∧ f.hops ≠ 16 ∧ (s.dev.blUp (s.dev.routeOf f.dst) = false ∨
      s.dev.routeOf f.dst = p)) ∧
    (∃ (s : State) (p : Nat) (pairs : List (LaneBlock × LaneBlock)) (drift : Int) (f : Frame) (good : Bool), s.dev.mainUp = true ∧ s.dev.blUp p = true
      ∧ (s.dev.hearPairs p pairs drift).snd.fst = [(f, good)] ∧ f.ftype ≠ 4 ∧ (f.ftype = 5 → wbits (f.words.getD 0 0) 63 56 ≠ 1) ∧ good = true ∧
      f.seq = (at' (s.dev.bl p).vl (frameVl f)).expect ∧ f.dst ≠ s.dev.id ∧ f.hops ≠ 16 ∧ s.dev.blUp (s.dev.routeOf f.dst) = true ∧ s.dev.routeOf
      f.dst ≠ p ∧ s.dev.launchClear (s.dev.routeOf f.dst) f = true ∧ (∀ (l : Nat), l < 2 → (at' (s.dev.bl (s.dev.routeOf f.dst)).vl l).queue = [])
      ∧ ((at' (s.dev.bl (s.dev.routeOf f.dst)).vl (frameVl f)).started + 256 - (at' (s.dev.bl (s.dev.routeOf f.dst)).vl (frameVl f)).credit) % 256
      < vlSlots (frameVl f)) ∧
    (∃ (k : Nat), k < 64) ∧
    (∃ (sync : BitVec 2), (sync = 0 ∨ sync = 3)) ∧
    (∃ (f : Frame), f.ftype < 16 ∧ f.hops < 32 ∧ f.dst < 1024 ∧ f.src < 1024 ∧ f.seq < 4096 ∧ f.words.length < 16384) ∧
    (∃ (x : BlLine) (p : Nat), x.pairs % 16384 = 0 ∧ p < 10 ∧ ((fun z => z.sinceSkip ≤ 2046 ∨ z.sinceSkip = 2047 ∧ z.pairs % 16384 = 1) x) ∧
      (x.nextPair p).snd.snd.sinceSkip ≠ 0) ∧
    (∃ (x : BlLine) (p : Nat), (x.nextPair p).snd.snd.sinceSkip = 0) :=
  ⟨⟨(peers (retrying 0)), 0, (control 0 4 0 9 7), by decide +kernel⟩,
    ⟨(peers (retrying 0)), 0, 0, by decide +kernel⟩,
    ⟨(peers (retrying 6)), 0, (control 2 4 0 9 7), by decide +kernel⟩,
    ⟨(peers (retrying 7)), 0, (control 2 4 0 9 7), by decide +kernel⟩,
    ⟨s0, 0, by decide +kernel⟩,
    ⟨(peers upPort), 0, (onLanes 0 0 [(skipBlock, skipBlock), (idleBlock, idleBlock)]), 1, by decide +kernel⟩,
    ⟨(peers upPort), 0, (onAir (toUs 1)), 0, (toUs 1), true, by decide +kernel⟩,
    ⟨(peers upPort), 0, (onAir (toUs 0)), (-1), (toUs 0), true, by decide +kernel⟩,
    ⟨(peers upPort), 0, (onAir (onward 16)), 1, (onward 16), true, by decide +kernel⟩,
    ⟨(peers upPort), 0, (onAir (onward 15)), 1, (onward 15), true, by decide +kernel⟩,
    ⟨relays, 0, (onAir (onward 15)), 0, (onward 15), true, by decide +kernel⟩,
    ⟨63, by decide +kernel⟩,
    ⟨3, by decide +kernel⟩,
    ⟨(onward 15), by decide +kernel⟩,
    ⟨aLine0, 9, by decide +kernel⟩,
    ⟨{ pairs := 16385, sinceSkip := 2047 }, 9, by decide +kernel⟩⟩
theorem live_TimeTransfer :
    (∃ (s : State) (p : Nat), s.dev.mainUp = true ∧ p < 10 ∧ (s.dev.bl p).st = BlState.up ∧ s.dev.beatMultiple (64 * max 1 (s.dev.act
      Reg.LNK_TIME_CTL_TIME_PERIOD)) = true) ∧
    (∃ (s : State) (p : Nat), s.dev.mainUp = true ∧ p < 10 ∧ ((s.dev.bl p).st ≠ BlState.up ∨ s.dev.beatMultiple (64 * max 1 (s.dev.act
      Reg.LNK_TIME_CTL_TIME_PERIOD)) = false)) ∧
    (∃ (s : State) (p : Nat), s.dev.mainUp = true ∧ p < 10 ∧ (s.dev.bl p).st = BlState.up ∧ s.dev.isRoot = false) ∧
    (∃ (s : State) (p : Nat) (ws : List W64), s.dev.mainUp = true ∧ p < 10 ∧ (s.dev.bl p).st = BlState.up ∧ s.dev.isRoot = true ∧ (wbits ((fun i =>
      ws.getD i 0) 4) 17 16 ≠ 2) ∧ (wbits ((fun i => ws.getD i 0) 4) 9 0 ≠ s.dev.id)) ∧
    (∃ (s : State), s.dev.mainUp = true ∧ s.dev.isRoot = false ∧ s.dev.upstreamOf = none ∧ s.dev.lnk.upstream = 15) ∧
    (∃ (s : State), s.dev.mainUp = true ∧ s.dev.isRoot = false ∧ s.dev.upstreamOf = none ∧ s.dev.lnk.upstream < 10) :=
  ⟨⟨(peers upPort), 0, by decide +kernel⟩,
    ⟨(peers {}), 0, by decide +kernel⟩,
    ⟨(peers upPort), 0, by decide +kernel⟩,
    ⟨(w (fun d => (device1 (portIs 0 upPort d)).setRwNow Reg.LNK_DEV_ROOT 1 0)), 0, (timeWords 9 0), by decide +kernel⟩,
    ⟨(peers upPort), by decide +kernel⟩,
    ⟨(w (fun d => { device1 d with lnk.upstream := 0 })), by decide +kernel⟩⟩
theorem live_FedStreams :
    (∃ (s : State) (p : Option Nat) (f : Frame) (rest : List (Option Nat × Frame)) (st : FedStream), s.dev.mainUp = true ∧ s.dev.lnk.arrived = (p, f)
      :: rest ∧ f.ftype = 1 ∧ s.dev.stream? f.src (frameRing f) = some st) ∧
    (∃ (s : State) (p : Option Nat) (f : Frame) (rest : List (Option Nat × Frame)), s.dev.mainUp = true ∧ s.dev.lnk.arrived = (p, f) :: rest ∧ f.ftype
      = 1 ∧ s.dev.stream? f.src (frameRing f) = none ∧ s.dev.lnk.streams.length < 64) ∧
    (∃ (s : State) (p : Option Nat) (f : Frame) (rest : List (Option Nat × Frame)), s.dev.mainUp = true ∧ s.dev.lnk.arrived = (p, f) :: rest ∧ f.ftype
      = 1 ∧ s.dev.stream? f.src (frameRing f) = none ∧ 64 ≤ s.dev.lnk.streams.length) ∧
    (∃ (s : State), s.dev.mainUp = true ∧ (∀ (x : Option Nat × Frame), x ∈ s.dev.lnk.arrived → x.snd.ftype ≠ 1)) ∧
    (∃ (s : State) (dev : Nat) (ring : Nat) (st : FedStream) (y : FedIn), s.dev.mainUp = true ∧ s.dev.stream? dev ring = some st ∧ st.q.head? = some y
      ∧ y.port.isSome = true ∧ y.frame.ftype = 1 ∧ pagesFor (wordBytes (List.drop 3 y.frame.words)).length ≤ s.dev.pagesFree ∧ s.dev.courseCheck
      ((fedEntryOf y.frame).f 2 63 32) = CourseCheck.waits) ∧
    (∃ (s : State) (dev : Nat) (ring : Nat) (st : FedStream) (y : FedIn), s.dev.mainUp = true ∧ s.dev.stream? dev ring = some st ∧ st.q.head? = some y
      ∧ y.port.isSome = true ∧ y.frame.ftype = 1 ∧ s.dev.pagesFree < pagesFor (wordBytes (List.drop 3 y.frame.words)).length) ∧
    (∃ (s : State) (p : Option Nat) (f : Frame) (rest : List (Option Nat × Frame)), s.dev.mainUp = true ∧ s.dev.lnk.arrived = (p, f) :: rest ∧ f.ftype
      = 5 ∧ frameSub f = 2 ∧ s.dev.stream? f.src (frameRing f) = none ∧ s.dev.lnk.streams.length < 64 ∧ s.dev.island 128 = 2) ∧
    (∃ (s : State) (p : Option Nat) (f : Frame) (rest : List (Option Nat × Frame)), s.dev.mainUp = true ∧ s.dev.lnk.arrived = (p, f) :: rest ∧ f.ftype
      = 5 ∧ frameSub f = 2 ∧ s.dev.stream? f.src (frameRing f) = none ∧ s.dev.lnk.streams.length < 64 ∧ s.dev.island 128 ≠ 2 ∧ (fedEntryOf
      f).opcode = 2 ∧ s.dev.tmb.run = true ∧ s.dev.tmb.cycle = 0 ∧ s.dev.crs.st = CourseState.idle ∧ (fedEntryOf f).sched = false ∧
      (s.dev.crs.lastValid = false ∨ 0 < beatDiff ((fedEntryOf f).f 1 63 32) s.dev.crs.number)) ∧
    (∃ (s : State) (dev : Nat) (ring : Nat) (st : FedStream), s.dev.mainUp = true ∧ s.dev.stream? dev ring = some st ∧ ((st.q ≠ [] ∨ ∃ b, b ∈
      s.dev.crs.bricks ∧ b.entry.ring = virtualRing dev ring) ∨ s.dev.pwr.clock - st.last < 1000000000 * nsUnit)) ∧
    (∃ (s : State) (dev : Nat) (ring : Nat) (st : FedStream), s.dev.mainUp = true ∧ s.dev.stream? dev ring = some st ∧ (¬(st.q ≠ [] ∨ ∃ b, b ∈
      s.dev.crs.bricks ∧ b.entry.ring = virtualRing dev ring)) ∧ s.dev.crs.endEntry = none ∧ s.dev.crs.abortEntry = none ∧ 1000000000 * nsUnit ≤
      s.dev.pwr.clock - st.last) :=
  ⟨⟨(arrived (brickFrame 1) (streaming [] 0)), (some 0), (brickFrame 1), [], (stream1 [] 0), by decide +kernel⟩,
    ⟨(arrived (brickFrame 1) (fun d => d)), (some 0), (brickFrame 1), [], by decide +kernel⟩,
    ⟨(arrived (brickFrame 1) fullStreams), (some 0), (brickFrame 1), [], by decide +kernel⟩,
    ⟨s0, by decide +kernel⟩,
    ⟨(w (streaming [fed1 (some 0)] 0)), 2, 3, (stream1 [fed1 (some 0)] 0), (fed1 (some 0)), by decide +kernel⟩,
    ⟨(w (fun d => noPages (streaming [fed1 (some 0)] 0 d))), 2, 3, (stream1 [fed1 (some 0)] 0), (fed1 (some 0)), by decide +kernel⟩,
    ⟨(arrived (ctrlFrame 2) (fun d => { d with pwr.isl := [(128, 2)] })), (some 0), (ctrlFrame 2), [], by decide +kernel⟩,
    ⟨(arrived (ctrlFrame 2) running), (some 0), (ctrlFrame 2), [], by decide +kernel⟩,
    ⟨(w (streaming [] 0)), 2, 3, (stream1 [] 0), by decide +kernel⟩,
    ⟨(w (streaming [] (-1000000000 * nsUnit))), 2, 3, (stream1 [] (-1000000000 * nsUnit)), by decide +kernel⟩⟩
theorem live_FeedUnit :
    (∃ (s : State) (key : Nat) (x : FedEntry), s.dev.mainUp = true ∧ (List.find? (fun x => x.entry.key == key) s.dev.lnk.fed = some x) ∧ x.sent =
      false ∧ x.entry.opcode = 1 ∧ x.entry.ring < 64 ∧ (∀ (y : FedEntry), y ∈ s.dev.lnk.fed → y.entry.ring = x.entry.ring → y.sent = false → y =
      x) ∧ x.dev ≠ s.dev.id ∧ s.dev.blUp (s.dev.routeOf x.dev) = true ∧ (∀ (l : Nat), l < 2 → (at' (s.dev.bl (s.dev.routeOf x.dev)).vl l).queue =
      []) ∧ have v := at' (s.dev.bl (s.dev.routeOf x.dev)).vl 1; (v.started + 256 - v.credit) % 256 < 2 ∧ (∀ (sl : Nat), sl < 8 → at'
      s.dev.tmb.launchReady sl = false)) ∧
    (∃ (s : State) (key : Nat) (x : FedEntry), s.dev.mainUp = true ∧ (List.find? (fun x => x.entry.key == key) s.dev.lnk.fed = some x) ∧ x.sent =
      false ∧ x.entry.opcode = 1 ∧ x.entry.ring < 64 ∧ (∀ (y : FedEntry), y ∈ s.dev.lnk.fed → y.entry.ring = x.entry.ring → y.sent = false → y =
      x) ∧ x.dev ≠ s.dev.id ∧ s.dev.blUp (s.dev.routeOf x.dev) = false) ∧
    (∃ (s : State) (p : Option Nat) (f : Frame) (rest : List (Option Nat × Frame)), s.dev.mainUp = true ∧ s.dev.lnk.arrived = (p, f) :: rest ∧
      (f.ftype = 3 ∧ frameSub f = 1 ∨ f.ftype = 2)) ∧
    (∃ (s : State) (p : Option Nat) (f : Frame) (rest : List (Option Nat × Frame)), s.dev.mainUp = true ∧ s.dev.lnk.arrived = (p, f) :: rest ∧
      (f.ftype = 3 ∧ frameSub f = 1 ∨ f.ftype = 2) ∧ s.dev.fedEntry? (frameRing f) (frameIdx f) = none) ∧
    (∃ (s : State) (key : Nat) (x : FedEntry), s.dev.mainUp = true ∧ (List.find? (fun x => x.entry.key == key) s.dev.lnk.fed = some x) ∧ x.entry.ring
      < 64 ∧ (x.sent = true ∧ ↑(s.dev.act Reg.LNK_FEED_CTL_FEED_TIMEOUT) ≠ 0 ∧ ↑(s.dev.act Reg.LNK_FEED_CTL_FEED_TIMEOUT) * 1000000000 * nsUnit ≤
      s.dev.pwr.clock - x.since)) ∧
    (∃ (s : State) (key : Nat) (x : FedEntry), s.dev.mainUp = true ∧ (List.find? (fun x => x.entry.key == key) s.dev.lnk.fed = some x) ∧ x.entry.ring
      < 64 ∧ (¬(x.sent = true ∧ ↑(s.dev.act Reg.LNK_FEED_CTL_FEED_TIMEOUT) ≠ 0 ∧ ↑(s.dev.act Reg.LNK_FEED_CTL_FEED_TIMEOUT) * 1000000000 * nsUnit
      ≤ s.dev.pwr.clock - x.since))) ∧
    (∃ (s : State) (p : Option Nat) (f : Frame) (rest : List (Option Nat × Frame)), s.dev.mainUp = true ∧ s.dev.lnk.arrived = (p, f) :: rest ∧ f.ftype
      = 3 ∧ frameSub f = 2 ∧ s.dev.act Reg.HST_FOREIGN_ROUTE_EVT_EN = 1 ∧ ((fun s n => n < 64 ∧ (s.dev.ring n).st = RingState.active ∧ (s.dev.ring
      n).loss = none ∧ (s.dev.ring n).holdQ = [] ∧ s.dev.canRequest = true ∧ 0 < s.dev.ringFree n) s (s.dev.act Reg.HST_FOREIGN_ROUTE_EVT_RING))) ∧
    (∃ (s : State) (p : Option Nat) (f : Frame) (rest : List (Option Nat × Frame)), s.dev.mainUp = true ∧ s.dev.lnk.arrived = (p, f) :: rest ∧ f.ftype
      = 3 ∧ frameSub f = 2 ∧ (s.dev.act Reg.HST_FOREIGN_ROUTE_EVT_EN ≠ 1 ∨ (s.dev.ring (s.dev.act Reg.HST_FOREIGN_ROUTE_EVT_RING)).st =
      RingState.disabled)) :=
  ⟨⟨(feedsOn false 0), (fedOut false 0).entry.key, (fedOut false 0), by decide +kernel⟩,
    ⟨(feedsOff false 0), (fedOut false 0).entry.key, (fedOut false 0), by decide +kernel⟩,
    ⟨(arrived (resultFrame 0) (feeding (fedOut true 0))), (some 0), (resultFrame 0), [], by decide +kernel⟩,
    ⟨(arrived (resultFrame 1) (feeding (fedOut true 0))), (some 0), (resultFrame 1), [], by decide +kernel⟩,
    ⟨(w (fun d => (feeding (fedOut true (-10000000000 * nsUnit)) d).setRwNow Reg.LNK_FEED_CTL_FEED_TIMEOUT 10 0)), (fedOut true 0).entry.key, (fedOut
      true (-10000000000 * nsUnit)), by decide +kernel⟩,
    ⟨(feedsOff false 0), (fedOut true 0).entry.key, (fedOut false 0), by decide +kernel⟩,
    ⟨(arrived foreignFrame foreignRing), (some 0), foreignFrame, [], by decide +kernel⟩,
    ⟨(arrived foreignFrame (fun d => d)), (some 0), foreignFrame, [], by decide +kernel⟩⟩
theorem live_DomainTime :
    (∃ (s : State), s.pending = [] ∧ s.dev.mainUp = true) ∧
    (∃ (s : State) (v : W64), s.dev.mainUp = true ∧ s.dev.tmb.run = false ∧ s.dev.timeSource.fst = 0 ∧ Reg.TMB_CTL_BEAT_START.of v = 0) ∧
    (∃ (s : State), s.dev.mainUp = true ∧ s.dev.tmb.run = true ∧ s.dev.timeSource.fst = 0) ∧
    (∃ (s : State), s.dev.mainUp = true ∧ s.dev.timeSource.fst ≠ 0) ∧
    (∃ (s : State) (v : W64), s.dev.mainUp = true ∧ Reg.TMB_CTL_BEAT_START.of v = 1 ∧ 1 ≤ Reg.TMB_CTL_SLEW_PPM.of v ∧ Reg.TMB_CTL_SLEW_PPM.of v ≤ 100
      ∧ (s.dev.tmb.run = false ∧ s.dev.cur Reg.TMB_INCR_INCR = 2684354560 ∧ s.dev.cur Reg.TMB_START_TIME_START_TIME % 3200 = 0 ∧ 3200 ≤ timeDiff
      (s.dev.cur Reg.TMB_START_TIME_START_TIME) s.dev.ns ∧ s.dev.tmb.startAt = none)) ∧
    (∃ (s : State) (v : W64), s.dev.mainUp = true ∧ Reg.TMB_CTL_BEAT_START.of v = 1 ∧ (¬(s.dev.tmb.run = false ∧ s.dev.cur Reg.TMB_INCR_INCR =
      2684354560 ∧ s.dev.cur Reg.TMB_START_TIME_START_TIME % 3200 = 0 ∧ 3200 ≤ timeDiff (s.dev.cur Reg.TMB_START_TIME_START_TIME) s.dev.ns ∧
      s.dev.tmb.startAt = none))) ∧
    (∃ (s : State), s.dev.mainUp = true) ∧
    (∃ (s : State), s.dev.mainUp = true ∧ (∀ (st : Nat), s.dev.tmb.startAt = some st → timeDiff s.dev.ns st < 0)) ∧
    (∃ (d : Dev), d.act Reg.MGT_GPIO_PPS_EN = 1 ∧ d.beatWide % 20000000 = 0) ∧
    (∃ (d : Dev), d.act Reg.MGT_GPIO_PPS_EN = 1 ∧ d.beatWide % 20000000 ≠ 0 ∧ d.beatWide % 20000000 < 2000000) ∧
    (∃ (d : Dev), d.act Reg.MGT_GPIO_PPS_EN = 1 ∧ 2000000 ≤ d.beatWide % 20000000) ∧
    (∃ (d : Dev), d.act Reg.MGT_GPIO_PPS_EN ≠ 1) ∧
    (∃ (s : State) (i : Nat) (falling : Bool), s.dev.mainUp = true ∧ i < 8 ∧ bitOf (s.dev.act (have __src := Reg.TMB_CAP_CTL_EDGE0;
      { addr := __src.addr, s1 := __src.s1, s2 := __src.s2, hi := 2 * i + 1, lo := 2 * i, acc := __src.acc, reset := __src.reset, resets := __src.resets }))
      (bit falling) = true ∧ (at' s.dev.tmb.caps i).beat ≠ some s.dev.beat) ∧
    (∃ (s : State) (i : Nat) (falling : Bool), s.dev.mainUp = true ∧ i < 8 ∧ bitOf (s.dev.act (have __src := Reg.TMB_CAP_CTL_EDGE0;
      { addr := __src.addr, s1 := __src.s1, s2 := __src.s2, hi := 2 * i + 1, lo := 2 * i, acc := __src.acc, reset := __src.reset, resets := __src.resets }))
      (bit falling) = false) ∧
    (∃ (s : State) (i : Nat) (falling : Bool), s.dev.mainUp = true ∧ i < 8 ∧ bitOf (s.dev.act (have __src := Reg.TMB_CAP_CTL_EDGE0;
      { addr := __src.addr, s1 := __src.s1, s2 := __src.s2, hi := 2 * i + 1, lo := 2 * i, acc := __src.acc, reset := __src.reset, resets := __src.resets }))
      (bit falling) = true ∧ (at' s.dev.tmb.caps i).beat = some s.dev.beat) ∧
    (∃ (s : State), s.dev.mainUp = true ∧ (s.dev.tmb.cycle = 0 ∧ s.dev.beatWide % (20000 * ↑(s.dev.act Reg.TMB_EPOCH_EPOCH_MS)) = 0)) ∧
    (∃ (s : State), s.dev.mainUp = true ∧ (¬(s.dev.tmb.cycle = 0 ∧ s.dev.beatWide % (20000 * ↑(s.dev.act Reg.TMB_EPOCH_EPOCH_MS)) = 0))) :=
  ⟨⟨s0, by decide +kernel⟩,
    ⟨(at7 (startsAt 1000)), (1234 : W64), by decide +kernel⟩,
    ⟨(at7 running), by decide +kernel⟩,
    ⟨(at7 slaved), by decide +kernel⟩,
    ⟨(at7 (startTime 32000)), (beatStartWord 50), by decide +kernel⟩,
    ⟨(at7 (startTime 32001)), (beatStartWord 50), by decide +kernel⟩,
    ⟨(at7 (startsAt 320)), by decide +kernel⟩,
    ⟨(at7 (startsAt 3200)), by decide +kernel⟩,
    ⟨(clocked 20000000 false), by decide +kernel⟩,
    ⟨(clocked 20000001 true), by decide +kernel⟩,
    ⟨(clocked 22000000 true), by decide +kernel⟩,
    ⟨s0.dev, by decide +kernel⟩,
    ⟨(captures {}), 2, false, by decide +kernel⟩,
    ⟨(captures {}), 2, true, by decide +kernel⟩,
    ⟨(captures { beat := some 0 }), 2, false, by decide +kernel⟩,
    ⟨s0, by decide +kernel⟩,
    ⟨(at7 (fun d => d)), by decide +kernel⟩⟩
theorem live_ClockServo :
    (∃ (s : State) (e : Nat), s.dev.mainUp = true ∧ e < 2 ∧ s.dev.ptpOn e = false) ∧
    (∃ (s : State) (e : Nat) (m : PtpMsg), s.dev.mainUp = true ∧ e < 2 ∧ s.dev.ptpOn e = true ∧ m.kind < 8 ∧ m.kind = 0) ∧
    (∃ (s : State) (e : Nat) (m : PtpMsg) (st : Nat), s.dev.mainUp = true ∧ e < 2 ∧ s.dev.ptpOn e = true ∧ 8 ≤ m.kind ∧ st = (at' s.dev.tmb.ports
      e).state) ∧
    (∃ (s : State) (e : Nat) (m : PtpMsg) (ts : Int) (st : Nat) (c : Instr), s.dev.mainUp = true ∧ e < 2 ∧ s.dev.ptpOn e = true ∧ (s.dev.isRoot = true
      ∨ st ≠ 8 ∧ st ≠ 9) ∧ st ≠ (at' s.dev.tmb.ports e).state ∧ c ∈ [Instr.ptpMessageReceive e m ts st, Instr.announceReceiptTimeout e st]) ∧
    (∃ (s : State) (e : Nat), s.dev.mainUp = true ∧ s.dev.isRoot = true ∧ s.dev.slavePort = some e) ∧
    (∃ (s : State) (e : Nat), s.dev.mainUp = true ∧ (s.dev.timeSource = (1, e) ∧ ∀ (t0 : Int), (at' s.dev.tmb.ports e).lastSync = some t0 →
      s.dev.syncLimit ≤ s.dev.tmb.time - t0)) ∧
    (∃ (s : State) (e : Nat), s.dev.mainUp = true ∧ (¬(s.dev.timeSource = (1, e) ∧ ∀ (t0 : Int), (at' s.dev.tmb.ports e).lastSync = some t0 →
      s.dev.syncLimit ≤ s.dev.tmb.time - t0)) ∧ s.dev.slavePort ≠ some e) ∧
    (∃ (s : State), s.dev.mainUp = true ∧ (s.dev.beatMultiple 64 = true ∧ s.dev.tmb.cycle = 0 ∧ s.dev.tmb.freqBeat ≠ s.dev.beatWide)) ∧
    (∃ (s : State), s.dev.mainUp = true ∧ (¬(s.dev.beatMultiple 64 = true ∧ s.dev.tmb.cycle = 0 ∧ s.dev.tmb.freqBeat ≠ s.dev.beatWide))) :=
  ⟨⟨s0, 0, by decide +kernel⟩,
    ⟨(w (ptpAt 9)), 0, (msg 0), by decide +kernel⟩,
    ⟨(w (ptpAt 9)), 0, (msg 11), 9, by decide +kernel⟩,
    ⟨(w (ptpAt 9)), 0, (msg 0), 5, 4, (.ptpMessageReceive 0 (msg 0) 5 4), by decide +kernel⟩,
    ⟨(slave0 (fun d => d)), 0, by decide +kernel⟩,
    ⟨(slave0 (fun d => d)), 0, by decide +kernel⟩,
    ⟨s0, 0, by decide +kernel⟩,
    ⟨s0, by decide +kernel⟩,
    ⟨(at7 (fun d => d)), by decide +kernel⟩⟩
theorem live_Launches :
    (∃ (s : State) (sl : Nat) (v : W64), s.dev.mainUp = true ∧ s.dev.regs.wf = true ∧ sl < 8 ∧ Reg.TMB_LAUNCH_CTL_ARM.of v = 1 ∧ (60 ≤
      Reg.TMB_LAUNCH_CTL_LENGTH.of v ∧ Reg.TMB_LAUNCH_CTL_LENGTH.of v ≤ 1536 ∧ Reg.TMB_LAUNCH_CTL_PORT.of v ≤ 11) ∧ s.dev.launchArmed sl = false ∧
      10000 ≤ timeDiff (s.dev.launchTime sl) s.dev.ns ∧ (¬∃ o, o < 8 ∧ o ≠ sl ∧ s.dev.launchArmed o = true ∧ s.dev.cur Reg.TMB_LAUNCH_CTL_PORT o =
      Reg.TMB_LAUNCH_CTL_PORT.of v ∧ (timeDiff (s.dev.launchTime o) (s.dev.launchTime sl)).natAbs ≤ 4000)) ∧
    (∃ (s : State) (sl : Nat) (v : W64), s.dev.mainUp = true ∧ s.dev.regs.wf = true ∧ sl < 8 ∧ Reg.TMB_LAUNCH_CTL_ARM.of v = 1 ∧ (¬(60 ≤
      Reg.TMB_LAUNCH_CTL_LENGTH.of v ∧ Reg.TMB_LAUNCH_CTL_LENGTH.of v ≤ 1536 ∧ Reg.TMB_LAUNCH_CTL_PORT.of v ≤ 11) ∨ s.dev.launchArmed sl = true)) ∧
    (∃ (s : State) (sl : Nat) (v : W64), s.dev.mainUp = true ∧ s.dev.regs.wf = true ∧ sl < 8 ∧ Reg.TMB_LAUNCH_CTL_ARM.of v = 1 ∧ (60 ≤
      Reg.TMB_LAUNCH_CTL_LENGTH.of v ∧ Reg.TMB_LAUNCH_CTL_LENGTH.of v ≤ 1536 ∧ Reg.TMB_LAUNCH_CTL_PORT.of v ≤ 11) ∧ s.dev.launchArmed sl = false ∧
      timeDiff (s.dev.launchTime sl) s.dev.ns < 10000) ∧
    (∃ (s : State) (sl : Nat) (v : W64), s.dev.mainUp = true ∧ s.dev.regs.wf = true ∧ sl < 8 ∧ Reg.TMB_LAUNCH_CTL_ARM.of v = 1 ∧ (60 ≤
      Reg.TMB_LAUNCH_CTL_LENGTH.of v ∧ Reg.TMB_LAUNCH_CTL_LENGTH.of v ≤ 1536 ∧ Reg.TMB_LAUNCH_CTL_PORT.of v ≤ 11) ∧ s.dev.launchArmed sl = false ∧
      10000 ≤ timeDiff (s.dev.launchTime sl) s.dev.ns ∧ (∃ o, o < 8 ∧ o ≠ sl ∧ s.dev.launchArmed o = true ∧ s.dev.cur Reg.TMB_LAUNCH_CTL_PORT o =
      Reg.TMB_LAUNCH_CTL_PORT.of v ∧ (timeDiff (s.dev.launchTime o) (s.dev.launchTime sl)).natAbs ≤ 4000)) ∧
    (∃ (s : State) (sl : Nat) (v : W64), s.dev.mainUp = true ∧ s.dev.regs.wf = true ∧ sl < 8 ∧ Reg.TMB_LAUNCH_CTL_ARM.of v = 0 ∧ (60 ≤
      Reg.TMB_LAUNCH_CTL_LENGTH.of v ∧ Reg.TMB_LAUNCH_CTL_LENGTH.of v ≤ 1536 ∧ Reg.TMB_LAUNCH_CTL_PORT.of v ≤ 11) ∧ s.dev.launchArmed sl = true) ∧
    (∃ (s : State) (sl : Nat) (v : W64), s.dev.mainUp = true ∧ s.dev.regs.wf = true ∧ sl < 8 ∧ Reg.TMB_LAUNCH_CTL_ARM.of v = 0 ∧ s.dev.launchArmed sl
      = false) ∧
    (∃ (s : State) (sl : Nat), s.dev.mainUp = true ∧ s.dev.regs.wf = true ∧ s.dev.launchArmed sl = true ∧ at' s.dev.tmb.launchReady sl = false ∧ 4000
      < timeDiff (s.dev.launchTime sl) s.dev.ns) ∧
    (∃ (s : State) (sl : Nat), s.dev.mainUp = true ∧ s.dev.regs.wf = true ∧ s.dev.launchArmed sl = true ∧ at' s.dev.tmb.launchReady sl = false ∧
      timeDiff (s.dev.launchTime sl) s.dev.ns ≤ 4000 ∧ s.dev.launchPortOk (s.dev.cur Reg.TMB_LAUNCH_CTL_PORT sl) = false) ∧
    (∃ (s : State) (sl : Nat), s.dev.mainUp = true ∧ s.dev.regs.wf = true ∧ s.dev.launchArmed sl = true ∧ at' s.dev.tmb.launchReady sl = false ∧
      timeDiff (s.dev.launchTime sl) s.dev.ns ≤ 4000 ∧ s.dev.launchPortOk (s.dev.cur Reg.TMB_LAUNCH_CTL_PORT sl) = true) ∧
    (∃ (s : State) (sl : Nat), s.dev.mainUp = true ∧ s.dev.regs.wf = true ∧ s.dev.launchArmed sl = true ∧ at' s.dev.tmb.launchReady sl = false) ∧
    (∃ (s : State) (sl : Nat) (ns : W64) (frac : W16), s.dev.mainUp = true ∧ s.dev.regs.wf = true ∧ s.dev.launchArmed sl = true ∧ at'
      s.dev.tmb.launchReady sl = true ∧ timeDiff (s.dev.launchTime sl) s.dev.ns ≤ 1 ∧ s.dev.launchOnTime sl (BitVec.toNat ns) (BitVec.toNat frac)
      = true ∧ s.dev.launchPortOk (s.dev.cur Reg.TMB_LAUNCH_CTL_PORT sl) = true ∧ (s.dev.cur Reg.TMB_LAUNCH_CTL_PORT sl < 10 → (∀ (l : Nat), l < 2
      → (at' (s.dev.bl (s.dev.cur Reg.TMB_LAUNCH_CTL_PORT sl)).vl l).queue = []) ∧ ∀ (o : Nat), o < 8 → o ≠ sl → at' s.dev.tmb.launchReady o =
      false)) ∧
    (∃ (s : State) (sl : Nat) (ns : W64) (frac : W16), s.dev.mainUp = true ∧ s.dev.regs.wf = true ∧ s.dev.launchArmed sl = true ∧ at'
      s.dev.tmb.launchReady sl = true ∧ timeDiff (s.dev.launchTime sl) s.dev.ns ≤ 1 ∧ s.dev.launchOnTime sl (BitVec.toNat ns) (BitVec.toNat frac)
      = true ∧ s.dev.launchPortOk (s.dev.cur Reg.TMB_LAUNCH_CTL_PORT sl) = false) ∧
    (∃ (s : State) (sl : Nat) (ns : W64) (frac : W16), s.dev.mainUp = true ∧ s.dev.regs.wf = true ∧ s.dev.launchArmed sl = true ∧ at'
      s.dev.tmb.launchReady sl = true ∧ (1 < timeDiff (s.dev.launchTime sl) s.dev.ns ∨ s.dev.launchOnTime sl (BitVec.toNat ns) (BitVec.toNat frac)
      = false)) :=
  ⟨⟨(w (slotAt 2 0 0 20000)), 2, (launchCtl 1 3 64), by decide +kernel⟩,
    ⟨(w (slotAt 2 1 0 20000)), 2, (launchCtl 1 3 64), by decide +kernel⟩,
    ⟨(w (slotAt 2 0 0 2000)), 2, (launchCtl 1 3 64), by decide +kernel⟩,
    ⟨(w (fun d => slotAt 4 1 3 24000 (slotAt 2 0 0 20000 d))), 2, (launchCtl 1 3 64), by decide +kernel⟩,
    ⟨(w (slotAt 2 1 0 20000)), 2, (launchCtl 0 3 64), by decide +kernel⟩,
    ⟨s0, 2, (launchCtl 0 3 64), by decide +kernel⟩,
    ⟨(w (slotAt 2 1 10 20000)), 2, by decide +kernel⟩,
    ⟨(w (slotAt 2 1 10 2000)), 2, by decide +kernel⟩,
    ⟨(w (fun d => ethUp0 (slotAt 2 1 10 2000 d))), 2, by decide +kernel⟩,
    ⟨(w (fun d => ethUp0 (slotAt 2 1 10 2000 d))), 2, by decide +kernel⟩,
    ⟨(w (fun d => slotReady 2 (ethUp0 (slotAt 2 1 10 1 d)))), 2, (1 : W64), (1 : W16), by decide +kernel⟩,
    ⟨(w (fun d => slotReady 2 (slotAt 2 1 3 1 d))), 2, (1 : W64), (1 : W16), by decide +kernel⟩,
    ⟨(w (fun d => slotReady 2 (slotAt 2 1 3 1 d))), 2, (10 : W64), (1 : W16), by decide +kernel⟩⟩
theorem live_AxisEntries :
    (∃ (s : State) (n : Nat) (op : Nat) (e : Entry) (c : Instr), s.dev.mainUp = true ∧ s.dev.front n 3 op = some e ∧ (op = 1 ∧ c = Instr.axsMove n ∨
      op = 2 ∧ c = Instr.home n ∨ op = 3 ∧ c = Instr.stop n ∨ op = 4 ∧ c = Instr.setPos n) ∧ s.dev.axDue e = false) ∧
    (∃ (s : State) (n : Nat) (op : Nat) (e : Entry) (c : Instr), s.dev.mainUp = true ∧ s.dev.front n 3 op = some e ∧ (op = 1 ∧ c = Instr.axsMove n ∨
      op = 2 ∧ c = Instr.home n ∨ op = 3 ∧ c = Instr.stop n ∨ op = 4 ∧ c = Instr.setPos n) ∧ s.dev.axDue e = true ∧ (axesOf (axMask e) = [] ∨ op =
      2 ∧ (axesOf (axMask e)).length ≠ 1)) ∧
    (∃ (s : State) (n : Nat) (op : Nat) (e : Entry) (c : Instr), s.dev.mainUp = true ∧ s.dev.front n 3 op = some e ∧ (op = 1 ∧ c = Instr.axsMove n ∨
      op = 2 ∧ c = Instr.home n ∨ op = 3 ∧ c = Instr.stop n ∨ op = 4 ∧ c = Instr.setPos n) ∧ s.dev.axDue e = true ∧ axesOf (axMask e) ≠ [] ∧ (op =
      2 → (axesOf (axMask e)).length = 1) ∧ (∃ m, m ∈ axesOf (axMask e) ∧ (s.dev.stepper m).on = false)) ∧
    (∃ (s : State) (n : Nat) (op : Nat) (e : Entry) (c : Instr), s.dev.mainUp = true ∧ s.dev.front n 3 op = some e ∧ (op = 1 ∧ c = Instr.axsMove n ∨
      op = 2 ∧ c = Instr.home n ∨ op = 3 ∧ c = Instr.stop n ∨ op = 4 ∧ c = Instr.setPos n) ∧ s.dev.axDue e = true ∧ (axesOf (axMask e) ≠ [] ∧ (op
      = 2 → (axesOf (axMask e)).length = 1) ∧ ∀ (m : Nat), m ∈ axesOf (axMask e) → (s.dev.stepper m).on = true) ∧ op = 1 ∧ axReplace e = false ∧
      s.dev.axBusy (axMask e) = false ∧ (∃ m, m ∈ axesOf (axMask e) ∧ (s.dev.stepper m).homed = false ∧ s.dev.act Reg.AXS_AXIS_CFG_ALLOW_UNHOMED m
      = 0)) ∧
    (∃ (s : State) (n : Nat) (op : Nat) (e : Entry) (c : Instr), s.dev.mainUp = true ∧ s.dev.front n 3 op = some e ∧ (op = 1 ∧ c = Instr.axsMove n ∨
      op = 2 ∧ c = Instr.home n ∨ op = 3 ∧ c = Instr.stop n ∨ op = 4 ∧ c = Instr.setPos n) ∧ s.dev.axDue e = true ∧ (axesOf (axMask e) ≠ [] ∧ (op
      = 2 → (axesOf (axMask e)).length = 1) ∧ ∀ (m : Nat), m ∈ axesOf (axMask e) → (s.dev.stepper m).on = true) ∧ op = 1 ∧ axReplace e = false ∧
      s.dev.axBusy (axMask e) = false ∧ (¬∃ m, m ∈ axesOf (axMask e) ∧ (s.dev.stepper m).homed = false ∧ s.dev.act Reg.AXS_AXIS_CFG_ALLOW_UNHOMED
      m = 0) ∧ (∃ m, m ∈ axesOf (axMask e) ∧ (s.dev.limOn m true = true ∧ (s.dev.stepper m).p < s.dev.moveTarget e m ∨ s.dev.limOn m false = true
      ∧ s.dev.moveTarget e m < (s.dev.stepper m).p))) ∧
    (∃ (s : State) (n : Nat) (op : Nat) (e : Entry) (c : Instr), s.dev.mainUp = true ∧ s.dev.front n 3 op = some e ∧ (op = 1 ∧ c = Instr.axsMove n ∨
      op = 2 ∧ c = Instr.home n ∨ op = 3 ∧ c = Instr.stop n ∨ op = 4 ∧ c = Instr.setPos n) ∧ s.dev.axDue e = true ∧ (axesOf (axMask e) ≠ [] ∧ (op
      = 2 → (axesOf (axMask e)).length = 1) ∧ ∀ (m : Nat), m ∈ axesOf (axMask e) → (s.dev.stepper m).on = true) ∧ op = 4 ∧ (s.dev.axBusy (axMask
      e) = false ∧ ∀ (w : Entry), w ∈ s.dev.axs.waiting → ∀ (m : Nat), m ∈ axesOf (axMask e) → bitOf (axMask w) m = false)) ∧
    (∃ (s : State) (n : Nat) (op : Nat) (e : Entry) (c : Instr), s.dev.mainUp = true ∧ s.dev.front n 3 op = some e ∧ (op = 1 ∧ c = Instr.axsMove n ∨
      op = 2 ∧ c = Instr.home n ∨ op = 3 ∧ c = Instr.stop n ∨ op = 4 ∧ c = Instr.setPos n) ∧ s.dev.axDue e = true ∧ (axesOf (axMask e) ≠ [] ∧ (op
      = 2 → (axesOf (axMask e)).length = 1) ∧ ∀ (m : Nat), m ∈ axesOf (axMask e) → (s.dev.stepper m).on = true) ∧ op = 4 ∧ (¬(s.dev.axBusy (axMask
      e) = false ∧ ∀ (w : Entry), w ∈ s.dev.axs.waiting → ∀ (m : Nat), m ∈ axesOf (axMask e) → bitOf (axMask w) m = false))) ∧
    (∃ (s : State) (n : Nat) (op : Nat) (e : Entry) (c : Instr), s.dev.mainUp = true ∧ s.dev.front n 3 op = some e ∧ (op = 1 ∧ c = Instr.axsMove n ∨
      op = 2 ∧ c = Instr.home n ∨ op = 3 ∧ c = Instr.stop n ∨ op = 4 ∧ c = Instr.setPos n) ∧ s.dev.axDue e = true ∧ (axesOf (axMask e) ≠ [] ∧ (op
      = 2 → (axesOf (axMask e)).length = 1) ∧ ∀ (m : Nat), m ∈ axesOf (axMask e) → (s.dev.stepper m).on = true) ∧ op = 3 ∧ s.dev.axBusy (axMask e)
      = false) ∧
    (∃ (s : State) (n : Nat) (op : Nat) (e : Entry) (c : Instr), s.dev.mainUp = true ∧ s.dev.front n 3 op = some e ∧ (op = 1 ∧ c = Instr.axsMove n ∨
      op = 2 ∧ c = Instr.home n ∨ op = 3 ∧ c = Instr.stop n ∨ op = 4 ∧ c = Instr.setPos n) ∧ s.dev.axDue e = true ∧ (axesOf (axMask e) ≠ [] ∧ (op
      = 2 → (axesOf (axMask e)).length = 1) ∧ ∀ (m : Nat), m ∈ axesOf (axMask e) → (s.dev.stepper m).on = true) ∧ op = 3 ∧ s.dev.axBusy (axMask e)
      = true) ∧
    (∃ (s : State) (m : Nat) (v : W64), s.dev.mainUp = true ∧ s.dev.regs.wf = true ∧ m < 8 ∧ Reg.AXS_AXIS_CFG_EN.of v = 1 ∧ s.dev.cur
      Reg.AXS_AXIS_CFG_EN m = 0 ∧ axCfgOk v = true ∧ (s.dev.stepper m).on = false ∧ s.dev.tmb.run = true) ∧
    (∃ (s : State) (m : Nat) (v : W64), s.dev.mainUp = true ∧ s.dev.regs.wf = true ∧ m < 8 ∧ Reg.AXS_AXIS_CFG_EN.of v = 1 ∧ s.dev.cur
      Reg.AXS_AXIS_CFG_EN m = 0 ∧ (axCfgOk v = false ∨ (s.dev.stepper m).on = false ∧ s.dev.tmb.run = false ∨ (s.dev.stepper m).on = true ∧
      s.dev.changes Reg.AXS_AXIS_CFG [Reg.AXS_AXIS_CFG_EN] v m = true)) ∧
    (∃ (s : State) (m : Nat) (v : W64), s.dev.mainUp = true ∧ s.dev.regs.wf = true ∧ m < 8 ∧ Reg.AXS_AXIS_CFG_EN.of v = 0 ∧ s.dev.cur
      Reg.AXS_AXIS_CFG_EN m = 1 ∧ axCfgOk v = true ∧ ((s.dev.stepper m).on = false ∨ ¬s.dev.changes Reg.AXS_AXIS_CFG [Reg.AXS_AXIS_CFG_EN] v m =
      true)) ∧
    (∃ (s : State) (m : Nat) (v : W64), s.dev.mainUp = true ∧ s.dev.regs.wf = true ∧ m < 8 ∧ Reg.AXS_AXIS_CFG_EN.of v = 0 ∧ s.dev.cur
      Reg.AXS_AXIS_CFG_EN m = 1 ∧ (axCfgOk v = false ∨ (s.dev.stepper m).on = true ∧ s.dev.changes Reg.AXS_AXIS_CFG [Reg.AXS_AXIS_CFG_EN] v m =
      true)) ∧
    (∃ (d : Dev) (m : Nat), m < 8 ∧ d.act Reg.AXS_AXIS_CFG_EN m = 1 ∧ d.tmb.run = true) ∧
    (∃ (d : Dev) (m : Nat), m < 8 ∧ d.act Reg.AXS_AXIS_CFG_EN m ≠ 1 ∧ d.moveOn m = none) ∧
    (∃ (was : RegFile) (d : Dev) (m : Nat) (x : AxMove), m < 8 ∧ (d.stepper m).on = true ∧ d.turnsOff was Reg.AXS_AXIS_CFG_EN m = true ∧ d.moveOn m =
      some x ∧ x.cause = 0) :=
  ⟨⟨(w (fun d => inRing (axEntry 1 1 0 0 5 0 0) d)), 1, 1, (axEntry 1 1 0 0 5 0 0), (.axsMove 1), by decide +kernel⟩,
    ⟨(axAsks (axEntry 1 0 0 0 5 0 0) freeAxes), 1, 1, (axEntry 1 0 0 0 5 0 0), (.axsMove 1), by decide +kernel⟩,
    ⟨(axAsks (axEntry 1 3 0 0 5 0 0) running), 1, 1, (axEntry 1 3 0 0 5 0 0), (.axsMove 1), by decide +kernel⟩,
    ⟨(axAsks (axEntry 1 3 0 0 5 0 0) (axesOn id)), 1, 1, (axEntry 1 3 0 0 5 0 0), (.axsMove 1), by decide +kernel⟩,
    ⟨(axAsks (axEntry 1 3 0 0 5 0 0) (axesOn (fun a => { a with homed := true, limP := true }))), 1, 1, (axEntry 1 3 0 0 5 0 0), (.axsMove 1),
      by decide +kernel⟩,
    ⟨(axAsks (axEntry 4 3 0 0 5 7 0) freeAxes), 1, 4, (axEntry 4 3 0 0 5 7 0), (.setPos 1), by decide +kernel⟩,
    ⟨(axAsks (axEntry 4 3 0 0 5 7 0) (fun d => moves (aMove 1) (freeAxes d))), 1, 4, (axEntry 4 3 0 0 5 7 0), (.setPos 1), by decide +kernel⟩,
    ⟨(axAsks (axEntry 3 3 0 0 0 0 0) freeAxes), 1, 3, (axEntry 3 3 0 0 0 0 0), (.stop 1), by decide +kernel⟩,
    ⟨(axAsks (axEntry 3 3 0 4 0 0 0) (fun d => { freeAxes d with axs.moves := [aMove 1, aMove 16] })), 1, 3, (axEntry 3 3 0 4 0 0 0), (.stop 1),
      by decide +kernel⟩,
    ⟨(w running), 3, (axCfg 1 3), by decide +kernel⟩,
    ⟨s0, 3, (axCfg 1 3), by decide +kernel⟩,
    ⟨(w (fun d => d.setRwNow Reg.AXS_AXIS_CFG_EN 1 3)), 3, (axCfg 0 3), by decide +kernel⟩,
    ⟨(w (fun d => d.setRwNow Reg.AXS_AXIS_CFG_EN 1 3)), 3, (0 : W64), by decide +kernel⟩,
    ⟨((running s0.dev).setRwNow Reg.AXS_AXIS_CFG_EN 1 3), 3, by decide +kernel⟩,
    ⟨s0.dev, 3, by decide +kernel⟩,
    ⟨(enWas 0), (moves (aMove 1) (freeAxes s0.dev)), 0, (aMove 1), by decide +kernel⟩⟩
theorem live_AxisMoves :
    (∃ (s : State) (n : Nat) (e : Entry), s.dev.mainUp = true ∧ s.dev.front n 3 1 = some e ∧ s.dev.axDue e = true ∧ axesOf (axMask e) ≠ [] ∧ (∀ (m :
      Nat), m ∈ axesOf (axMask e) → (s.dev.stepper m).on = true) ∧ axReplace e = false ∧ s.dev.axBusy (axMask e) = true) ∧
    (∃ (s : State) (n : Nat) (e : Entry), s.dev.mainUp = true ∧ s.dev.front n 3 1 = some e ∧ s.dev.axDue e = true ∧ axesOf (axMask e) ≠ [] ∧ (∀ (m :
      Nat), m ∈ axesOf (axMask e) → (s.dev.stepper m).on = true) ∧ axReplace e = false ∧ s.dev.axBusy (axMask e) = false ∧ s.dev.axCheck34 e =
      none ∧ (∀ (m : Nat), m ∈ axesOf (axMask e) → s.dev.act Reg.AXS_AXIS_CFG_VLIM_EN m ≠ 1) ∧ (∃ m, m ∈ axesOf (axMask e) ∧ s.dev.moveTarget e m
      ≠ (s.dev.stepper m).p)) ∧
    (∃ (s : State) (n : Nat) (m : Nat) (e : Entry) (c : Instr), s.dev.mainUp = true ∧ s.dev.front n 3 2 = some e ∧ s.dev.axDue e = true ∧ axesOf
      (axMask e) = [m] ∧ (s.dev.stepper m).on = true ∧ s.dev.axBusy (axMask e) = false ∧ s.dev.axCheck34 e = none ∧ c ∈ [Instr.home n,
      Instr.axsEntryResume n]) ∧
    (∃ (s : State) (n : Nat) (m : Nat) (e : Entry) (o : Entry) (x : AxMove), s.dev.mainUp = true ∧ s.dev.front n 3 1 = some e ∧ s.dev.axDue e = true ∧
      axesOf (axMask e) = [m] ∧ (s.dev.stepper m).on = true ∧ axReplace e = true ∧ s.dev.axs.moves = [x] ∧ x.mask = axMask e ∧ x.entry = some o ∧
      x.home = none ∧ x.decel = 0 ∧ s.dev.axs.waiting = [] ∧ s.dev.axCheck34 e = none ∧ ((at' x.dist x.lead < 0 ↔ at' (s.dev.planMove e).dist
      (s.dev.planMove e).lead < 0) ∧ 0 < (s.dev.planMove e).len ∧ x.v * x.v ≤ (s.dev.planMove e).len * (s.dev.planMove e).dec)) ∧
    (∃ (s : State) (n : Nat) (m : Nat) (e : Entry) (o : Entry) (x : AxMove), s.dev.mainUp = true ∧ s.dev.front n 3 1 = some e ∧ s.dev.axDue e = true ∧
      axesOf (axMask e) = [m] ∧ (s.dev.stepper m).on = true ∧ axReplace e = true ∧ s.dev.axs.moves = [x] ∧ x.mask = axMask e ∧ x.entry = some o ∧
      x.home = none ∧ x.decel = 0 ∧ s.dev.axs.waiting = [] ∧ s.dev.axCheck34 e = none ∧ (¬((at' x.dist x.lead < 0 ↔ at' (s.dev.planMove e).dist
      (s.dev.planMove e).lead < 0) ∧ 0 < (s.dev.planMove e).len ∧ x.v * x.v ≤ (s.dev.planMove e).len * (s.dev.planMove e).dec))) ∧
    (∃ (d : Dev) (m : Nat), m < 8 ∧ ((d.axTurn m).stepper m).dir ≠ (d.stepper m).dir) ∧
    (∃ (d : Dev) (m : Nat), m < 8 ∧ ((d.axStep m).stepper m).pos ≠ (d.stepper m).pos) ∧
    (∃ (s : State), s.dev.mainUp = true ∧ (s.dev.tmb.run = false ∨ s.dev.tmb.cycle ≠ 0 ∨ s.dev.beatMultiple 100 = false ∨ s.dev.axs.tick =
      s.dev.beatWide)) ∧
    (∃ (s : State) (x : AxMove) (e : Entry), s.dev.mainUp = true ∧ s.dev.tmb.run = true ∧ s.dev.tmb.cycle = 0 ∧ s.dev.beatMultiple 100 = true ∧
      s.dev.axs.tick ≠ s.dev.beatWide ∧ s.dev.axs.moves = [x] ∧ s.dev.axs.stops = [] ∧ s.dev.axs.waiting = [] ∧ x.home = none ∧ x.entry = some e ∧
      x.mask < 256) ∧
    (∃ (x : AxMove), x.home = none ∧ x.s ≤ x.len ∧ x.decel = 0) ∧
    (∃ (x : AxMove), x.home = none ∧ x.s ≤ x.len) ∧
    (∃ (x : AxMove), x.home = none ∧ x.s ≤ x.len ∧ x.decel ≠ 0) :=
  ⟨⟨(axAsks (axEntry 1 3 0 0 5 7 0) (fun d => moves (aMove 1) (freeAxes d))), 1, (axEntry 1 3 0 0 5 7 0), by decide +kernel⟩,
    ⟨(axAsks (axEntry 1 3 0 0 5 7 0) freeAxes), 1, (axEntry 1 3 0 0 5 7 0), by decide +kernel⟩,
    ⟨(axAsks (axEntry 2 1 0 256 5 0 0) freeAxes), 1, 0, (axEntry 2 1 0 256 5 0 0), (.home 1), by decide +kernel⟩,
    ⟨(axAsks (axEntry 1 1 0 2 5 0 0) (fun d => moves (longMove (aMove 1)) (freeAxes d))), 1, 0, (axEntry 1 1 0 2 5 0 0), (axEntry 1 1 0 0 900 0 0),
      (longMove (aMove 1)), by decide +kernel⟩,
    ⟨(axAsks (axEntry 1 1 0 2 (2 ^ 32 - 5) 0 0) (fun d => moves (longMove (aMove 1)) (freeAxes d))), 1, 0, (axEntry 1 1 0 2 (2 ^ 32 - 5) 0 0),
      (axEntry 1 1 0 0 900 0 0), (longMove (aMove 1)), by decide +kernel⟩,
    ⟨(stepAx { dir := true, p := 5, pNext := -9, stepAt := some 3 }), 2, by decide +kernel⟩,
    ⟨(stepAx { dir := true, pos := 0, goal := 5, dirAt := some 3, stepAt := some 4 }), 2, by decide +kernel⟩,
    ⟨s0, by decide +kernel⟩,
    ⟨(w (fun d => moves (aMove 1) (freeAxes (tickNext d)))), (aMove 1), (axEntry 1 1 0 0 9 0 0), by decide +kernel⟩,
    ⟨(aMove 1), by decide +kernel⟩,
    ⟨(aMove 1), by decide +kernel⟩,
    ⟨{ aMove 1 with decel := 7 }, by decide +kernel⟩⟩
theorem live_AxisInputs :
    (∃ (s : State) (m : Nat) (plus : Bool) (level : Bool), s.dev.mainUp = true ∧ m < 8 ∧ (s.dev.tmb.run = false ∨ (if plus = true then (s.dev.stepper
      m).limP else (s.dev.stepper m).limN) = level ∨ s.dev.heldTicks (if plus = true then (s.dev.stepper m).limPAt else (s.dev.stepper m).limNAt)
      (s.dev.act Reg.AXS_AXIS_CFG_LIM_QUAL m) = false)) ∧
    (∃ (s : State) (m : Nat) (plus : Bool) (level : Bool), s.dev.mainUp = true ∧ m < 8 ∧ s.dev.tmb.run = true ∧ (if plus = true then (s.dev.stepper
      m).limP else (s.dev.stepper m).limN) ≠ level ∧ s.dev.heldTicks (if plus = true then (s.dev.stepper m).limPAt else (s.dev.stepper m).limNAt)
      (s.dev.act Reg.AXS_AXIS_CFG_LIM_QUAL m) = true ∧ (¬level ≠ s.dev.on Reg.AXS_AXIS_CFG_LIM_POL m ∨ (s.dev.stepper m).on = false)) ∧
    (∃ (s : State) (m : Nat) (plus : Bool) (level : Bool), s.dev.mainUp = true ∧ m < 8 ∧ s.dev.tmb.run = true ∧ (if plus = true then (s.dev.stepper
      m).limP else (s.dev.stepper m).limN) ≠ level ∧ s.dev.heldTicks (if plus = true then (s.dev.stepper m).limPAt else (s.dev.stepper m).limNAt)
      (s.dev.act Reg.AXS_AXIS_CFG_LIM_QUAL m) = true ∧ level ≠ s.dev.on Reg.AXS_AXIS_CFG_LIM_POL m ∧ (s.dev.stepper m).on = true ∧ s.dev.moveOn m
      = none) ∧
    (∃ (s : State) (m : Nat) (level : Bool), s.dev.mainUp = true ∧ m < 8 ∧ (s.dev.tmb.run = false ∨ (s.dev.stepper m).homeIn = level ∨ s.dev.heldTicks
      (s.dev.stepper m).homeAt (s.dev.act Reg.AXS_AXIS_CFG_HOME_QUAL m) = false)) ∧
    (∃ (s : State) (m : Nat) (level : Bool), s.dev.mainUp = true ∧ m < 8 ∧ s.dev.tmb.run = true ∧ (s.dev.stepper m).homeIn ≠ level ∧ s.dev.heldTicks
      (s.dev.stepper m).homeAt (s.dev.act Reg.AXS_AXIS_CFG_HOME_QUAL m) = true ∧ s.dev.moveOn m = none) ∧
    (∃ (s : State) (m : Nat) (level : Bool) (x : AxMove) (h : HomeRun), s.dev.mainUp = true ∧ m < 8 ∧ s.dev.tmb.run = true ∧ (s.dev.stepper m).homeIn
      ≠ level ∧ s.dev.heldTicks (s.dev.stepper m).homeAt (s.dev.act Reg.AXS_AXIS_CFG_HOME_QUAL m) = true ∧ s.dev.moveOn m = some x ∧ x.home = some
      h ∧ x.decel = 0 ∧ level ≠ s.dev.on Reg.AXS_AXIS_CFG_HOME_POL m ∧ h.phase = HomePhase.seek) ∧
    (∃ (s : State) (m : Nat) (level : Bool) (x : AxMove) (h : HomeRun), s.dev.mainUp = true ∧ m < 8 ∧ s.dev.tmb.run = true ∧ (s.dev.stepper m).homeIn
      ≠ level ∧ s.dev.heldTicks (s.dev.stepper m).homeAt (s.dev.act Reg.AXS_AXIS_CFG_HOME_QUAL m) = true ∧ s.dev.moveOn m = some x ∧ x.home = some
      h ∧ x.decel = 0 ∧ ¬level ≠ s.dev.on Reg.AXS_AXIS_CFG_HOME_POL m ∧ h.phase = HomePhase.away) ∧
    (∃ (s : State) (m : Nat), s.dev.mainUp = true ∧ m < 8 ∧ (∀ (x : AxMove), x ∈ s.dev.axs.moves → bitOf x.mask m = true → x.home = none) ∧ (∀ (x :
      AxMove), x ∈ s.dev.axs.moves → bitOf x.mask m = true → x.s < s.dev.act Reg.AXS_AXIS_HOME_HOME_MAX m * 2000000000000)) ∧
    (∃ (s : State) (m : Nat) (x : AxMove) (h : HomeRun), s.dev.mainUp = true ∧ m < 8 ∧ s.dev.moveOn m = some x ∧ x.home = some h ∧ x.cause = 0 ∧
      h.phase = HomePhase.seekStop) ∧
    (∃ (s : State) (m : Nat) (x : AxMove) (h : HomeRun), s.dev.mainUp = true ∧ m < 8 ∧ s.dev.moveOn m = some x ∧ x.home = some h ∧ x.cause = 0 ∧
      h.phase = HomePhase.seek ∧ x.decel = 0 ∧ s.dev.act Reg.AXS_AXIS_HOME_HOME_MAX m ≠ 0 ∧ s.dev.act Reg.AXS_AXIS_HOME_HOME_MAX m * 2000000000000
      ≤ x.s) :=
  ⟨⟨s0, 2, true, true, by decide +kernel⟩,
    ⟨(inputAx {} id), 2, true, true, by decide +kernel⟩,
    ⟨(inputAx { on := true } id), 2, true, true, by decide +kernel⟩,
    ⟨s0, 2, true, by decide +kernel⟩,
    ⟨(inputAx { on := true } id), 2, true, by decide +kernel⟩,
    ⟨(inputAx { on := true } (moves (home2 .seek))), 2, true, (home2 .seek), { phase := .seek, plus := true }, by decide +kernel⟩,
    ⟨(inputAx { on := true, homeIn := true } (moves (home2 .away))), 2, false, (home2 .away), { phase := .away, plus := true }, by decide +kernel⟩,
    ⟨s0, 2, by decide +kernel⟩,
    ⟨(inputAx { on := true } (moves (home2 .seekStop))), 2, (home2 .seekStop), { phase := .seekStop, plus := true }, by decide +kernel⟩,
    ⟨(inputAx { on := true } (fun d => (moves (home2 .seek) d).setRwNow Reg.AXS_AXIS_HOME_HOME_MAX 10 2)), 2, (home2 .seek),
      { phase := .seek, plus := true }, by decide +kernel⟩⟩
theorem live_StopCauses :
    (∃ (x : AxMove), x.cause = 0) ∧
    (∃ (x : AxMove) (tick : Int), x.cause ≠ 0 ∧ x.causeTick ≠ tick) ∧
    (∃ (x : AxMove) (i : Nat) (j : Nat), i < j ∧ j < 5 ∧ x.cause = [53250, 53252, 53256, 53257, 53255].getD i 0) ∧
    (∃ (x : AxMove) (i : Nat) (j : Nat), i < j ∧ j < 5 ∧ x.cause = [53250, 53252, 53256, 53257, 53255].getD j 0) ∧
    (∃ (x : AxMove) (e : Entry), x.entry = some e ∧ x.cause ≠ 0) :=
  ⟨⟨(aMove 1), by decide +kernel⟩,
    ⟨{ aMove 1 with cause := 0xD008 }, (100 : Int), by decide +kernel⟩,
    ⟨{ aMove 1 with cause := 0xD002 }, 0, 1, by decide +kernel⟩,
    ⟨{ aMove 1 with cause := 0xD004 }, 0, 1, by decide +kernel⟩,
    ⟨{ aMove 1 with cause := 0xD008 }, (axEntry 1 1 0 0 9 0 0), by decide +kernel⟩⟩
theorem live_LightingControl :
    (∃ (s : State) (n : Nat), s.dev.mainUp = true ∧ s.dev.lightNext n 1 = none ∧ s.dev.lightNext n 2 = none ∧ s.dev.lightNext n 3 = none) ∧
    (∃ (s : State) (n : Nat) (e : Entry), s.dev.mainUp = true ∧ s.dev.lightNext n 1 = some e ∧ (1 ≤ e.f 1 12 8 ∧ e.f 1 12 8 ≤ 24 ∧ ∀ (k : Nat), k <
      e.f 1 12 8 → lightUsed (e.f 1 6 0 + k) = true)) ∧
    (∃ (s : State) (n : Nat) (e : Entry), s.dev.mainUp = true ∧ s.dev.lightNext n 1 = some e ∧ (¬(1 ≤ e.f 1 12 8 ∧ e.f 1 12 8 ≤ 24 ∧ ∀ (k : Nat), k <
      e.f 1 12 8 → lightUsed (e.f 1 6 0 + k) = true))) ∧
    (∃ (s : State) (n : Nat) (e : Entry), s.dev.mainUp = true ∧ s.dev.lightNext n 2 = some e ∧ BitVec.toNat (e.w 1) % 64 ≠ 0) ∧
    (∃ (s : State) (n : Nat) (e : Entry), s.dev.mainUp = true ∧ s.dev.lightNext n 2 = some e ∧ BitVec.toNat (e.w 1) % 64 = 0 ∧ s.dev.canRequest =
      false) ∧
    (∃ (s : State) (n : Nat) (e : Entry) (bs : List Byte), s.dev.mainUp = true ∧ s.dev.lightNext n 2 = some e ∧ BitVec.toNat (e.w 1) % 64 = 0 ∧
      s.dev.canRequest = true ∧ (∀ (i : Nat), i < 96 → lightUsed i = false → (fun bs i => leNat (List.take 2 (List.drop (2 * i) bs))) bs i = 0)) ∧
    (∃ (s : State) (n : Nat) (e : Entry) (bs : List Byte), s.dev.mainUp = true ∧ s.dev.lightNext n 2 = some e ∧ BitVec.toNat (e.w 1) % 64 = 0 ∧
      s.dev.canRequest = true ∧ (∃ i, i < 96 ∧ lightUsed i = false ∧ (fun bs i => leNat (List.take 2 (List.drop (2 * i) bs))) bs i ≠ 0)) ∧
    (∃ (s : State) (n : Nat) (e : Entry), s.dev.mainUp = true ∧ s.dev.lightNext n 2 = some e ∧ BitVec.toNat (e.w 1) % 64 = 0 ∧ s.dev.canRequest =
      true) ∧
    (∃ (s : State) (n : Nat) (e : Entry), s.dev.mainUp = true ∧ s.dev.lightNext n 3 = some e) ∧
    (∃ (s : State) (v : W64), s.dev.mainUp = true ∧ s.dev.regs.wf = true ∧ Reg.LGT_CTL_EN.of v = 1 ∧ s.dev.cur Reg.LGT_CTL_EN = 0 ∧ lgtCtlOk v = true
      ∧ Reg.LGT_STATUS_BOOST_FAULT.of v = 1) ∧
    (∃ (s : State) (v : W64), s.dev.mainUp = true ∧ s.dev.regs.wf = true ∧ Reg.LGT_CTL_EN.of v = 1 ∧ s.dev.cur Reg.LGT_CTL_EN = 0 ∧ lgtCtlOk v =
      false) ∧
    (∃ (s : State) (v : W64), s.dev.mainUp = true ∧ s.dev.regs.wf = true ∧ Reg.LGT_CTL_EN.of v = 0 ∧ s.dev.cur Reg.LGT_CTL_EN = 1 ∧ lgtCtlOk v = true
      ∧ (¬(s.dev.cur Reg.LGT_CTL_FRAME_LOG2 ≠ Reg.LGT_CTL_FRAME_LOG2.of v ∨ s.dev.cur Reg.LGT_CTL_PRE_CYC ≠ Reg.LGT_CTL_PRE_CYC.of v))) ∧
    (∃ (s : State) (v : W64), s.dev.mainUp = true ∧ s.dev.regs.wf = true ∧ Reg.LGT_CTL_EN.of v = 0 ∧ s.dev.cur Reg.LGT_CTL_EN = 1 ∧ (lgtCtlOk v =
      false ∨ s.dev.cur Reg.LGT_CTL_FRAME_LOG2 ≠ Reg.LGT_CTL_FRAME_LOG2.of v ∨ s.dev.cur Reg.LGT_CTL_PRE_CYC ≠ Reg.LGT_CTL_PRE_CYC.of v)) ∧
    (∃ (was : RegFile) (d : Dev), d.turnsOn was Reg.LGT_CTL_EN = true) ∧
    (∃ (was : RegFile) (d : Dev), d.turnsOn was Reg.LGT_CTL_EN = false) ∧
    (∃ (s : State) (beyond : Bool), s.dev.mainUp = true ∧ (s.dev.on Reg.LGT_CTL_EN = true ∧ s.dev.boostFault = false ∧ if beyond = true then 4 ≤
      s.dev.beatWide - s.dev.lgt.boostAt else s.dev.lgt.litRun = 16)) ∧
    (∃ (s : State) (beyond : Bool), s.dev.mainUp = true ∧ (¬(s.dev.on Reg.LGT_CTL_EN = true ∧ s.dev.boostFault = false ∧ if beyond = true then 4 ≤
      s.dev.beatWide - s.dev.lgt.boostAt else s.dev.lgt.litRun = 16))) ∧
    (∃ (s : State) (i : Nat) (v : W64), s.dev.mainUp = true ∧ i < 96 ∧ lightUsed i = true ∧ Reg.LGT_CH_CLEAR.of v = 1 ∧ (s.dev.light i).on ≠ 0 ∧
      s.dev.changes Reg.LGT_CH [] v i = true) ∧
    (∃ (s : State) (i : Nat) (v : W64), s.dev.mainUp = true ∧ i < 96 ∧ lightUsed i = true ∧ Reg.LGT_CH_CLEAR.of v = 1 ∧ ((s.dev.light i).on = 0 ∨
      s.dev.changes Reg.LGT_CH [] v i = false) ∧ (s.dev.light i).st ≠ 2) ∧
    (∃ (s : State) (i : Nat) (v : W64), s.dev.mainUp = true ∧ i < 96 ∧ lightUsed i = true ∧ Reg.LGT_CH_CLEAR.of v = 1 ∧ ((s.dev.light i).on = 0 ∨
      s.dev.changes Reg.LGT_CH [] v i = false) ∧ (s.dev.light i).st = 2) :=
  ⟨⟨s0, 1, by decide +kernel⟩,
    ⟨(lights (lightSet 3 5) id), 1, (lightSet 3 5), by decide +kernel⟩,
    ⟨(lights (lightSet 26 5) id), 1, (lightSet 26 5), by decide +kernel⟩,
    ⟨(lights (lightLoad 33) id), 1, (lightLoad 33), by decide +kernel⟩,
    ⟨(w (fun d => inRing (lightLoad 64) { running d with tmb.time := 1024 * 50 * 4294967296 })), 1, (lightLoad 64), by decide +kernel⟩,
    ⟨(lights (lightLoad 64) id), 1, (lightLoad 64), (duties 0), by decide +kernel⟩,
    ⟨(lights (lightLoad 64) id), 1, (lightLoad 64), (duties 1), by decide +kernel⟩,
    ⟨(lights (lightLoad 64) id), 1, (lightLoad 64), by decide +kernel⟩,
    ⟨(lights (groupOff 1) (fun d => lit1 { duty := 5 } 40 (d.setRwNow Reg.LGT_CH_GROUP 3 50))), 1, (groupOff 1), by decide +kernel⟩,
    ⟨s0, (lgtCtl 1 200), by decide +kernel⟩,
    ⟨s0, (lgtCtl 1 2), by decide +kernel⟩,
    ⟨(w lgtOn), (lgtCtl 0 160), by decide +kernel⟩,
    ⟨(w lgtOn), (lgtCtl 0 200), by decide +kernel⟩,
    ⟨s0.dev.regs, (lgtOn s0.dev), by decide +kernel⟩,
    ⟨s0.dev.regs, s0.dev, by decide +kernel⟩,
    ⟨(w (fun d => lgtOn { d with lgt.boostAt := -5 })), true, by decide +kernel⟩,
    ⟨(w (fun d => lgtOn d)), false, by decide +kernel⟩,
    ⟨(w (lit1 { on := 5 } 40)), 40, (0xFF0002 : W64), by decide +kernel⟩,
    ⟨(w (lit1 {} 40)), 40, (lgtCh 40 s0.dev), by decide +kernel⟩,
    ⟨(w (fun d => { lit1 { st := 2, cause := 1 } 40 d with lgt.groupOff := 1 })), 40, (lgtCh 40 s0.dev), by decide +kernel⟩⟩
theorem live_LightFrames :
    (∃ (s : State), s.dev.mainUp = true ∧ s.dev.frameDue = false) ∧
    (∃ (s : State), s.dev.mainUp = true ∧ s.dev.frameDue = true) ∧
    (∃ (s : State) (i : Nat), s.dev.mainUp = true ∧ s.dev.frameDue = true ∧ i < 96 ∧ lightUsed i = true ∧ isBeacon i = false ∧ s.dev.on Reg.LGT_CTL_EN
      = true ∧ (s.dev.light i).st ≠ 2 ∧ s.dev.lightDown i = false ∧ s.dev.on Reg.LGT_CTL_STRETCH_EN = false ∧ (s.dev.light i).left = 0 ∧ s.dev.on
      Reg.LGT_CH_COMP_EN i = false) ∧
    (∃ (s : State) (i : Nat) (x : SinkTest), s.dev.mainUp = true ∧ s.dev.frameDue = true ∧ i < 96 ∧ lightUsed i = true ∧ x.ch = i ∧ (s.dev.light
      i).tested = true ∧ (s.dev.light i).st ≠ 2 ∧ x.current < 250 * s.dev.act Reg.LGT_CH_I_SET i ∧ s.dev.act Reg.LGT_CTL_FAIL_QUAL ≤ (s.dev.light
      i).fails + 1) ∧
    (∃ (s : State) (c : Nat), s.dev.mainUp = true ∧ c < 4 ∧ (¬(s.dev.tmb.run = true ∧ s.dev.frameNumber % 16 = 0 ∧ s.dev.frameDue = false ∧ at'
      s.dev.lgt.ntcAt c ≠ s.dev.beatWide / 2 ^ s.dev.act Reg.LGT_CTL_FRAME_LOG2))) ∧
    (∃ (s : State) (c : Nat) (r : Nat), s.dev.mainUp = true ∧ c < 4 ∧ (s.dev.tmb.run = true ∧ s.dev.frameNumber % 16 = 0 ∧ s.dev.frameDue = false ∧
      at' s.dev.lgt.ntcAt c ≠ s.dev.beatWide / 2 ^ s.dev.act Reg.LGT_CTL_FRAME_LOG2) ∧ (r < 100 ∨ 1000000 < r)) ∧
    (∃ (s : State) (c : Nat) (r : Nat), s.dev.mainUp = true ∧ c < 4 ∧ (s.dev.tmb.run = true ∧ s.dev.frameNumber % 16 = 0 ∧ s.dev.frameDue = false ∧
      at' s.dev.lgt.ntcAt c ≠ s.dev.beatWide / 2 ^ s.dev.act Reg.LGT_CTL_FRAME_LOG2) ∧ 100 ≤ r ∧ r ≤ 1000000) ∧
    (∃ (d : Dev), d.matrixRuns = true ∧ d.preCharge = true) ∧
    (∃ (d : Dev), d.matrixRuns = true ∧ d.preCharge = false) ∧
    (∃ (d : Dev), d.matrixRuns = true ∧ d.preCharge = false) :=
  ⟨⟨s0, by decide +kernel⟩,
    ⟨(w lgtOn), by decide +kernel⟩,
    ⟨(w (fun d => lit1 { duty := 0x8000 } 40 ((lgtOn d).setRwNow Reg.LGT_CTL_STRETCH_EN 0 0))), 40, by decide +kernel⟩,
    ⟨(w (fun d => lit1 { tested := true, fails := 1 } 40 (((lgtOn d).setRwNow Reg.LGT_CTL_GROUP_FAIL_OFF 1 0).setRwNow Reg.LGT_CH_I_SET 8 40))), 40,
      (sink 40 10), by decide +kernel⟩,
    ⟨s0, 2, by decide +kernel⟩,
    ⟨(w (fun d => { running d with lgt.frame := 0 })), 2, 50, by decide +kernel⟩,
    ⟨(w (fun d => { running d with lgt.frame := 0 })), 2, 5000, by decide +kernel⟩,
    ⟨(matrixAt 5), by decide +kernel⟩,
    ⟨((matrixAt 50).setRwNow Reg.LGT_CTL_PRE_CYC 16 0), by decide +kernel⟩,
    ⟨((matrixAt 50).setRwNow Reg.LGT_CTL_PRE_CYC 16 0), by decide +kernel⟩⟩
theorem live_ThermalSamples :
    (∃ (s : State) (n : Nat), (24 ≤ n ∨ (s.dev.sensor n).st = SensState.off ∨ s.dev.pwr.standby = false ∨ s.dev.sampleDue n = false)) ∧
    (∃ (s : State) (n : Nat) (raw : Option Int) (T : Int), n < 24 ∧ s.dev.mainUp = true ∧ s.dev.pwr.standby = true ∧ s.dev.sampleDue n = true ∧
      (s.dev.sensor n).fault = false ∧ (s.dev.sensorTemp n raw).fst = some T ∧ (16 ≤ n ∨ -640 ≤ T ∧ T ≤ 2400) ∧ (¬(s.dev.thresh
      Reg.THM_SENS_THRESH_SHUT n ≤ T ∧ s.dev.cur Reg.THM_SENS_CFG_SHUT_EN n = 1)) ∧ (s.dev.sensor n).st = SensState.normal ∧ T < s.dev.thresh
      Reg.THM_SENS_THRESH_WARN n ∧ T < s.dev.thresh Reg.THM_SENS_THRESH_THROT n) ∧
    (∃ (s : State) (n : Nat) (raw : Option Int) (T : Int), n < 24 ∧ s.dev.mainUp = true ∧ s.dev.pwr.standby = true ∧ s.dev.sampleDue n = true ∧
      (s.dev.sensor n).fault = false ∧ (s.dev.sensorTemp n raw).fst = some T ∧ (16 ≤ n ∨ -640 ≤ T ∧ T ≤ 2400) ∧ (s.dev.sensor n).st ≠
      SensState.off ∧ (s.dev.thresh Reg.THM_SENS_THRESH_SHUT n ≤ T ∧ s.dev.cur Reg.THM_SENS_CFG_SHUT_EN n = 1) ∧ s.dev.ev.merge = [] ∧
      s.dev.cal.run = none) ∧
    (∃ (s : State) (n : Nat) (raw : Option Int) (T : Int), n < 24 ∧ s.dev.mainUp = true ∧ s.dev.pwr.standby = true ∧ s.dev.sampleDue n = true ∧
      (s.dev.sensor n).fault = false ∧ (s.dev.sensorTemp n raw).fst = some T ∧ (16 ≤ n ∨ -640 ≤ T ∧ T ≤ 2400) ∧ (¬(s.dev.thresh
      Reg.THM_SENS_THRESH_SHUT n ≤ T ∧ s.dev.cur Reg.THM_SENS_CFG_SHUT_EN n = 1)) ∧ ((s.dev.sensor n).st = SensState.normal ∨ (s.dev.sensor n).st
      = SensState.warn) ∧ s.dev.thresh Reg.THM_SENS_THRESH_THROT n ≤ T ∧ s.dev.cur Reg.THM_CTL_GRACE_MS ≠ 0) ∧
    (∃ (s : State) (n : Nat) (raw : Option Int) (T : Int), n < 24 ∧ s.dev.mainUp = true ∧ s.dev.pwr.standby = true ∧ s.dev.sampleDue n = true ∧
      (s.dev.sensor n).fault = false ∧ (s.dev.sensorTemp n raw).fst = some T ∧ (16 ≤ n ∨ -640 ≤ T ∧ T ≤ 2400) ∧ (¬(s.dev.thresh
      Reg.THM_SENS_THRESH_SHUT n ≤ T ∧ s.dev.cur Reg.THM_SENS_CFG_SHUT_EN n = 1)) ∧ ((s.dev.sensor n).st = SensState.normal ∨ (s.dev.sensor n).st
      = SensState.warn) ∧ s.dev.thresh Reg.THM_SENS_THRESH_THROT n ≤ T ∧ s.dev.cur Reg.THM_CTL_GRACE_MS = 0) ∧
    (∃ (s : State) (n : Nat) (raw : Option Int) (T : Int), n < 24 ∧ s.dev.mainUp = true ∧ s.dev.pwr.standby = true ∧ s.dev.sampleDue n = true ∧
      (s.dev.sensor n).fault = false ∧ (s.dev.sensorTemp n raw).fst = some T ∧ (16 ≤ n ∨ -640 ≤ T ∧ T ≤ 2400) ∧ (¬(s.dev.thresh
      Reg.THM_SENS_THRESH_SHUT n ≤ T ∧ s.dev.cur Reg.THM_SENS_CFG_SHUT_EN n = 1)) ∧ (s.dev.sensor n).st = SensState.normal ∧ s.dev.thresh
      Reg.THM_SENS_THRESH_WARN n ≤ T ∧ T < s.dev.thresh Reg.THM_SENS_THRESH_THROT n) ∧
    (∃ (s : State) (n : Nat) (raw : Option Int) (T : Int), n < 24 ∧ s.dev.mainUp = true ∧ s.dev.pwr.standby = true ∧ s.dev.sampleDue n = true ∧
      (s.dev.sensor n).fault = false ∧ (s.dev.sensorTemp n raw).fst = some T ∧ (16 ≤ n ∨ -640 ≤ T ∧ T ≤ 2400) ∧ (¬(s.dev.thresh
      Reg.THM_SENS_THRESH_SHUT n ≤ T ∧ s.dev.cur Reg.THM_SENS_CFG_SHUT_EN n = 1)) ∧ (s.dev.sensor n).st = SensState.warn ∧ T < s.dev.thresh
      Reg.THM_SENS_THRESH_WARN n - ↑(s.dev.cur Reg.THM_SENS_THRESH_HYST n) ∧ T < s.dev.thresh Reg.THM_SENS_THRESH_THROT n) ∧
    (∃ (s : State) (n : Nat) (raw : Option Int) (T : Int), n < 24 ∧ s.dev.mainUp = true ∧ s.dev.pwr.standby = true ∧ s.dev.sampleDue n = true ∧
      (s.dev.sensor n).fault = false ∧ (s.dev.sensorTemp n raw).fst = some T ∧ (16 ≤ n ∨ -640 ≤ T ∧ T ≤ 2400) ∧ (¬(s.dev.thresh
      Reg.THM_SENS_THRESH_SHUT n ≤ T ∧ s.dev.cur Reg.THM_SENS_CFG_SHUT_EN n = 1)) ∧ (s.dev.sensor n).st = SensState.grace ∧ T < s.dev.thresh
      Reg.THM_SENS_THRESH_THROT n - ↑(s.dev.cur Reg.THM_SENS_THRESH_HYST n)) ∧
    (∃ (s : State) (n : Nat) (raw : Option Int) (T : Int), n < 24 ∧ s.dev.mainUp = true ∧ s.dev.pwr.standby = true ∧ s.dev.sampleDue n = true ∧
      (s.dev.sensor n).fault = false ∧ (s.dev.sensorTemp n raw).fst = some T ∧ (16 ≤ n ∨ -640 ≤ T ∧ T ≤ 2400) ∧ (¬(s.dev.thresh
      Reg.THM_SENS_THRESH_SHUT n ≤ T ∧ s.dev.cur Reg.THM_SENS_CFG_SHUT_EN n = 1)) ∧ (s.dev.sensor n).st = SensState.enforced ∧ T < s.dev.thresh
      Reg.THM_SENS_THRESH_THROT n - ↑(s.dev.cur Reg.THM_SENS_THRESH_HYST n)) ∧
    (∃ (s : State) (n : Nat) (r : Option Int), n < 16 ∧ s.dev.mainUp = true ∧ s.dev.pwr.standby = true ∧ s.dev.sampleDue n = true ∧ (s.dev.sensor
      n).st = SensState.normal ∧ (s.dev.sensor n).fault = false ∧ (∀ (T : Int), (s.dev.sensorTemp n r).fst = some T → T < -640 ∨ 2400 < T)) ∧
    (∃ (s : State) (n : Nat), s.dev.mainUp = true ∧ n < 24 ∧ ((s.dev.sensor n).st = SensState.grace ∧ ↑(s.dev.cur Reg.THM_CTL_GRACE_MS) * 1000000 *
      nsUnit ≤ s.dev.pwr.clock - (s.dev.sensor n).graceAt)) ∧
    (∃ (s : State) (n : Nat), s.dev.mainUp = true ∧ n < 24 ∧ (¬((s.dev.sensor n).st = SensState.grace ∧ ↑(s.dev.cur Reg.THM_CTL_GRACE_MS) * 1000000 *
      nsUnit ≤ s.dev.pwr.clock - (s.dev.sensor n).graceAt))) ∧
    (∃ (d : Dev) (n : Nat), (16 ≤ n ∨ d.cur Reg.THM_SENS_CFG_TYPE n ≠ 2) ∧ (d.sensor n).sampledAt = none) ∧
    (∃ (d : Dev) (n : Nat) (raw : Option Int) (r : Int) (T : Int), n < 16 ∧ d.cur Reg.THM_SENS_CFG_TYPE n = 2 ∧ raw = some r ∧ ntcTemp r.toNat (10 *
      d.cur Reg.THM_SENS_CFG_R26 n) (d.cur Reg.THM_SENS_CFG_BETA n) = some T) ∧
    (∃ (d : Dev) (n : Nat) (t : Int), (d.sensor n).sampledAt = some t) :=
  ⟨⟨(sensed 3 .off), 3, by decide +kernel⟩,
    ⟨(sensed 3 .normal), 3, (some 300), 300, by decide +kernel⟩,
    ⟨(sensed 3 .normal), 3, (some 2000), 2000, by decide +kernel⟩,
    ⟨(sensed 3 .normal), 3, (some 1300), 1300, by decide +kernel⟩,
    ⟨(noGrace 3 .warn), 3, (some 1300), 1300, by decide +kernel⟩,
    ⟨(sensed 3 .normal), 3, (some 1200), 1200, by decide +kernel⟩,
    ⟨(sensed 3 .warn), 3, (some 300), 300, by decide +kernel⟩,
    ⟨(sensed 3 .grace), 3, (some 300), 300, by decide +kernel⟩,
    ⟨(sensed 3 .enforced), 3, (some 1200), 1200, by decide +kernel⟩,
    ⟨(sensed 3 .normal), 3, none, by decide +kernel⟩,
    ⟨(clockAt (3000 * 1000000 * 4294967296) (sensed 3 .grace)), 3, by decide +kernel⟩,
    ⟨(sensed 3 .grace), 3, by decide +kernel⟩,
    ⟨s0.dev, 3, by decide +kernel⟩,
    ⟨(s0.dev.setRwNow Reg.THM_SENS_CFG_TYPE 2 3), 3, (some 10000), 10000, (25 * 2 ^ 32), by decide +kernel⟩,
    ⟨(sensorIs 3 { st := .normal, sampledAt := some 0 } s0.dev), 3, 0, by decide +kernel⟩⟩
theorem live_Calibration :
    (∃ (s : State) (n : Nat) (e : Entry), s.dev.mainUp = true ∧ s.dev.front n 8 3 = some e ∧ e.ring = n ∧ n < 64 ∧ s.dev.calBusy = false ∧
      s.dev.isNext 8 e = true) ∧
    (∃ (s : State) (n : Nat) (e : Entry), s.dev.mainUp = true ∧ s.dev.front n 8 3 = some e ∧ e.ring = n ∧ n < 64 ∧ s.dev.calBusy = false ∧
      s.dev.isNext 8 e = true ∧ calBodyBad e = false ∧ (e.sched = false ∨ s.dev.beatAhead e.startBeat = false) ∧ e.f 1 3 0 ≠ 4 ∧ e.f 1 3 0 ≠ 6 ∧
      (s.dev.calUnmet (e.f 1 3 0) (e.f 1 15 8) + if s.dev.tmb.run = true then 0 else 2 ^ 31) = 0) ∧
    (∃ (s : State) (n : Nat) (e : Entry), s.dev.mainUp = true ∧ s.dev.front n 8 3 = some e ∧ e.ring = n ∧ n < 64 ∧ s.dev.calBusy = false ∧
      s.dev.isNext 8 e = true ∧ calBodyBad e = false ∧ (e.sched = false ∨ s.dev.beatAhead e.startBeat = false) ∧ e.f 1 3 0 ≠ 4 ∧ e.f 1 3 0 ≠ 6 ∧
      (s.dev.calUnmet (e.f 1 3 0) (e.f 1 15 8) + if s.dev.tmb.run = true then 0 else 2 ^ 31) ≠ 0) ∧
    (∃ (s : State) (n : Nat) (e : Entry), s.dev.mainUp = true ∧ s.dev.front n 8 3 = some e ∧ e.ring = n ∧ n < 64 ∧ s.dev.calBusy = false ∧
      s.dev.isNext 8 e = true ∧ calBodyBad e = false ∧ (e.sched = false ∨ s.dev.beatAhead e.startBeat = false) ∧ (e.f 1 3 0 = 4 ∨ e.f 1 3 0 = 6) ∧
      s.dev.canRequest = false) ∧
    (∃ (s : State) (n : Nat) (e : Entry) (bs : List Byte), s.dev.mainUp = true ∧ s.dev.front n 8 3 = some e ∧ e.ring = n ∧ n < 64 ∧ s.dev.calBusy =
      false ∧ s.dev.isNext 8 e = true ∧ calBodyBad e = false ∧ (e.sched = false ∨ s.dev.beatAhead e.startBeat = false) ∧ (e.f 1 3 0 = 4 ∨ e.f 1 3
      0 = 6) ∧ s.dev.canRequest = true ∧ (∀ (c : Nat), c ∈ s.dev.calFields (e.f 1 3 0) (e.f 1 15 8) → ∀ (p : Int × Int), p ∈ tableMarks bs (e.f 4
      31 16) → s.dev.markInField c p = true) ∧ (s.dev.calUnmet (e.f 1 3 0) (e.f 1 15 8) + if s.dev.tmb.run = true then 0 else 2 ^ 31) = 0) ∧
    (∃ (s : State) (n : Nat) (e : Entry) (bs : List Byte), s.dev.mainUp = true ∧ s.dev.front n 8 3 = some e ∧ e.ring = n ∧ n < 64 ∧ s.dev.calBusy =
      false ∧ s.dev.isNext 8 e = true ∧ calBodyBad e = false ∧ (e.sched = false ∨ s.dev.beatAhead e.startBeat = false) ∧ (e.f 1 3 0 = 4 ∨ e.f 1 3
      0 = 6) ∧ s.dev.canRequest = true ∧ (¬∀ (c : Nat), c ∈ s.dev.calFields (e.f 1 3 0) (e.f 1 15 8) → ∀ (p : Int × Int), p ∈ tableMarks bs (e.f 4
      31 16) → s.dev.markInField c p = true)) ∧
    (∃ (s : State), s.dev.mainUp = true ∧ s.dev.cal.run = none) ∧
    (∃ (s : State) (r : CalRun), s.dev.mainUp = true ∧ s.dev.cal.run = some r ∧ r.phase = CalPhase.draining ∧ (s.dev.tmb.run = true ∧ s.dev.tmb.cycle
      = 0 ∧ s.dev.beatMultiple 64 = true ∧ s.dev.calUnmet r.kind r.unit = 0 ∧ s.dev.calDrained = true)) ∧
    (∃ (s : State) (r : CalRun), s.dev.mainUp = true ∧ s.dev.cal.run = some r ∧ r.phase = CalPhase.draining ∧ (¬(s.dev.tmb.run = true ∧
      s.dev.tmb.cycle = 0 ∧ s.dev.beatMultiple 64 = true ∧ s.dev.calUnmet r.kind r.unit = 0 ∧ s.dev.calDrained = true))) ∧
    (∃ (s : State) (r : CalRun), s.dev.mainUp = true ∧ s.dev.cal.run = some r ∧ r.phase = CalPhase.run1 ∧ calHalf r.kind ≤ s.dev.beatWide - r.since) ∧
    (∃ (s : State) (r : CalRun), s.dev.mainUp = true ∧ s.dev.cal.run = some r ∧ r.phase = CalPhase.run1 ∧ s.dev.beatWide - r.since < calHalf r.kind) ∧
    (∃ (s : State) (r : CalRun), s.dev.mainUp = true ∧ s.dev.cal.run = some r ∧ (¬(r.phase = CalPhase.run2 ∧ s.dev.tmb.cycle = 0 ∧ calHalf r.kind ≤
      s.dev.beatWide - r.since ∧ (r.entry.w 2 = 0 ∨ s.dev.canRequest = true)))) ∧
    (∃ (s : State) (r : CalRun) (r1 : List CalPoint) (r2 : List CalPoint) (i : Nat), s.dev.mainUp = true ∧ s.dev.cal.run = some r ∧ (r.phase =
      CalPhase.run2 ∧ s.dev.tmb.cycle = 0 ∧ calHalf r.kind ≤ s.dev.beatWide - r.since ∧ (r.entry.w 2 = 0 ∨ s.dev.canRequest = true)) ∧ r.kind < 8
      ∧ r.table.length ≤ 289 ∧ i < calCount r.kind r.table.length ∧ (s.dev.act Reg.MGT_CAL_TOL_TOL (r.kind - 1) < (fun i => calDiff r.kind
      (r1.getD i default) (r2.getD i default)) i) ∧ (∀ (k : Nat), k < i → (fun i => calDiff r.kind (r1.getD i default) (r2.getD i default)) k ≤
      s.dev.act Reg.MGT_CAL_TOL_TOL (r.kind - 1))) ∧
    (∃ (s : State) (r : CalRun) (r1 : List CalPoint) (r2 : List CalPoint), s.dev.mainUp = true ∧ s.dev.cal.run = some r ∧ (r.phase = CalPhase.run2 ∧
      s.dev.tmb.cycle = 0 ∧ calHalf r.kind ≤ s.dev.beatWide - r.since ∧ (r.entry.w 2 = 0 ∨ s.dev.canRequest = true)) ∧ r.kind < 8 ∧ r.table.length
      ≤ 289 ∧ (∀ (k : Nat), k < calCount r.kind r.table.length → (fun i => calDiff r.kind (r1.getD i default) (r2.getD i default)) k ≤ s.dev.act
      Reg.MGT_CAL_TOL_TOL (r.kind - 1)) ∧ r.kind ≠ 6 ∧ r.entry.f 1 16 16 = 0) ∧
    (∃ (s : State), s.dev.mainUp = true ∧ s.dev.cal.run = none) ∧
    (∃ (s : State) (n : Nat) (e : Entry), s.dev.mainUp = true ∧ s.dev.front n 8 4 = some e ∧ e.ring = n ∧ n < 64 ∧ s.dev.calBusy = false ∧
      s.dev.isNext 8 e = true ∧ (e.sched = true ∨ calUnitOk (e.f 1 3 0) (e.f 1 15 8) = false ∨ e.f 2 5 0 ≠ 0)) ∧
    (∃ (s : State) (n : Nat) (e : Entry), s.dev.mainUp = true ∧ s.dev.front n 8 4 = some e ∧ e.ring = n ∧ n < 64 ∧ s.dev.calBusy = false ∧
      s.dev.isNext 8 e = true ∧ (¬(e.sched = true ∨ calUnitOk (e.f 1 3 0) (e.f 1 15 8) = false ∨ e.f 2 5 0 ≠ 0)) ∧ (List.find? (fun x => x.kind ==
      e.f 1 3 0 && x.unit == e.f 1 15 8) s.dev.cal.store = none)) :=
  ⟨⟨(calAsks (calEntry 3 0 0 0 0 0 0) id), 1, (calEntry 3 0 0 0 0 0 0), by decide +kernel⟩,
    ⟨(calAsks run2 id), 1, run2, by decide +kernel⟩,
    ⟨(w (fun d => inRing run2 d)), 1, run2, by decide +kernel⟩,
    ⟨(calAsks (calEntry 3 4 0 64 1 0 0) (allChans .enabled)), 1, (calEntry 3 4 0 64 1 0 0), by decide +kernel⟩,
    ⟨(calAsks (calEntry 3 4 0 64 1 0 0) (fun d => allChans .enabled (linked d))), 1, (calEntry 3 4 0 64 1 0 0), (List.replicate 8 0),
      by decide +kernel⟩,
    ⟨(calAsks (calEntry 3 4 0 64 1 0 0) (fun d => allChans .enabled (linked d))), 1, (calEntry 3 4 0 64 1 0 0), (List.replicate 8 0x7F),
      by decide +kernel⟩,
    ⟨s0, by decide +kernel⟩,
    ⟨(calAt 64 (runs1 2 .draining 0 0) id), (runs1 2 .draining 0 0), by decide +kernel⟩,
    ⟨(calAt 65 (runs1 2 .draining 0 0) id), (runs1 2 .draining 0 0), by decide +kernel⟩,
    ⟨(calAt 60000 (runs1 2 .run1 0 0) id), (runs1 2 .run1 0 0), by decide +kernel⟩,
    ⟨(calAt 65 (runs1 2 .run1 0 0) id), (runs1 2 .run1 0 0), by decide +kernel⟩,
    ⟨(calAt 65 (runs1 2 .run1 0 0) id), (runs1 2 .run1 0 0), by decide +kernel⟩,
    ⟨(calAt 60000 (runs1 2 .run2 0 0) id), (runs1 2 .run2 0 0), (calPts 0), (calPts 1000000000), 0, by decide +kernel⟩,
    ⟨(calAt 60000 (runs1 2 .run2 0 0) id), (runs1 2 .run2 0 0), (calPts 0), (calPts 0), by decide +kernel⟩,
    ⟨s0, by decide +kernel⟩,
    ⟨(calAsks (calEntry 4 0 0 0 0 0 0) id), 1, (calEntry 4 0 0 0 0 0 0), by decide +kernel⟩,
    ⟨(calAsks (calEntry 4 2 0 0 0 0 0) id), 1, (calEntry 4 2 0 0 0 0 0), by decide +kernel⟩⟩

end Sys2Proof.Tests
end

section
/-!
SUPPORT. The frame of every command, by the row of the table: what `Instr.writes` and `Instr.storesMem` say, command by command.
-/
namespace Sys2Proof.Machine

/-- Every command keeps the parts of the device that are not its own, the memories unless its row stores, and the queue. -/
theorem exec_keeps : ∀ (c : Instr) (s : State), KeepsX c.writes c.storesMem s (exec c s)
  | .registerWrite src off v, s => execRegisterWrite_keeps src off v s
  | .lowerHalfWrite src off v, s => execLowerHalfWrite_keeps src off v s
  | .upperHalfWrite src off v, s => execUpperHalfWrite_keeps src off v s
  | .lowerHalfRead src off, s => execLowerHalfRead_keeps src off s
  | .upperHalfRead src off, s => execUpperHalfRead_keeps src off s
  | .clockGateEntry blk isl, s => execClockGateEntry_keeps blk isl s
  | .islandOffEntry blk isl, s => execIslandOffEntry_keeps blk isl s
  | .islandWake blk isl, s => execIslandWake_keeps blk isl s
  | .pcieLinkUp speed width, s => execPcieLinkUp_keeps speed width s
  | .pcieLinkDown, s => execPcieLinkDown_keeps s
  | .functionLevelReset, s => execFunctionLevelReset_keeps s
  | .bar2Write addr bytes ecc, s => execBar2Write_keeps addr bytes ecc s
  | .bar2Read addr ecc, s => execBar2Read_keeps addr ecc s
  | .doorbellPoll, s => execDoorbellPoll_keeps s
  | .doorbellReturn table, s => execDoorbellReturn_keeps table s
  | .entryArrival ring rd, s => execEntryArrival_keeps ring rd s
  | .ringEnable src ring v, s => execRingEnable_keeps src ring v s
  | .ringDisable src ring v, s => execRingDisable_keeps src ring v s
  | .routeWrite src blk v, s => execRouteWrite_keeps src blk v s
  | .completionWrite, s => execCompletionWrite_keeps s
  | .msixModTimer ring, s => execMsixModTimer_keeps ring s
  | .msixTableAccess off acc, s => execMsixTableAccess_keeps off acc s
  | .psetWrite ring, s => execPsetWrite_keeps ring s
  | .psetLoad ring, s => execPsetLoad_keeps ring s
  | .psetLoadData ring rd, s => execPsetLoadData_keeps ring rd s
  | .psetCommit ring, s => execPsetCommit_keeps ring s
  | .paramCommit, s => execParamCommit_keeps s
  | .brick ring, s => execBrick_keeps ring s
  | .brickVerdict key rd, s => execBrickVerdict_keeps key rd s
  | .courseBegin ring, s => execCourseBegin_keeps ring s
  | .courseEnd ring, s => execCourseEnd_keeps ring s
  | .courseAbort ring, s => execCourseAbort_keeps ring s
  | .courseClose, s => execCourseClose_keeps s
  | .abortComplete, s => execAbortComplete_keeps s
  | .courseWaitResume ring, s => execCourseWaitResume_keeps ring s
  | .startBeatReached key, s => execStartBeatReached_keeps key s
  | .unplaceableTimeout key, s => execUnplaceableTimeout_keeps key s
  | .standstill, s => execStandstill_keeps s
  | .starveLimitReached key, s => execStarveLimitReached_keeps key s
  | .hostHold src v, s => execHostHold_keeps src v s
  | .masonSelection unserved, s => execMasonSelection_keeps unserved s
  | .assignmentInForce ch, s => execAssignmentInForce_keeps ch s
  | .plumeGuard undecided, s => execPlumeGuard_keeps undecided s
  | .trailSliceClose ch, s => execTrailSliceClose_keeps ch s
  | .trailSliceExpire ch, s => execTrailSliceExpire_keeps ch s
  | .holdPass ch, s => execHoldPass_keeps ch s
  | .plumeHoldTimeout ch, s => execPlumeHoldTimeout_keeps ch s
  | .masonDrop ch, s => execMasonDrop_keeps ch s
  | .remnantReady key, s => execRemnantReady_keeps key s
  | .stopSegmentDone ch, s => execStopSegmentDone_keeps ch s
  | .brickEnd ch, s => execBrickEnd_keeps ch s
  | .pisteSampleIssue ch ev, s => execPisteSampleIssue_keeps ch ev s
  | .vectorRefillDone ch ecc, s => execVectorRefillDone_keeps ch ecc s
  | .gridLoad ring, s => execGridLoad_keeps ring s
  | .gridLoadComplete rd, s => execGridLoadComplete_keeps rd s
  | .gridSwap ring ecc, s => execGridSwap_keeps ring ecc s
  | .gridSwapEffect ch, s => execGridSwapEffect_keeps ch s
  | .seamOffer ch, s => execSeamOffer_keeps ch s
  | .channelEnable src ch v, s => execChannelEnable_keeps src ch v s
  | .channelDisable src ch v, s => execChannelDisable_keeps src ch v s
  | .armingComplete ch, s => execArmingComplete_keeps ch s
  | .armingTimeout ch, s => execArmingTimeout_keeps ch s
  | .alarmQualified ch level, s => execAlarmQualified_keeps ch level s
  | .readyQualified ch level, s => execReadyQualified_keeps ch level s
  | .padReadbackMismatch ch emit gate, s => execPadReadbackMismatch_keeps ch emit gate s
  | .dacComplianceLoss ch, s => execDacComplianceLoss_keeps ch s
  | .channelFaultClear src ch v, s => execChannelFaultClear_keeps src ch v s
  | .safeInLow, s => execSafeInLow_keeps s
  | .safeInQualified, s => execSafeInQualified_keeps s
  | .heartbeatBoundary, s => execHeartbeatBoundary_keeps s
  | .safeKick src v, s => execSafeKick_keeps src v s
  | .kickTimeoutExpiry, s => execKickTimeoutExpiry_keeps s
  | .beaconReport b, s => execBeaconReport_keeps b s
  | .beaconUnverifiedTimeout ch, s => execBeaconUnverifiedTimeout_keeps ch s
  | .dacUpdate ch, s => execDacUpdate_keeps ch s
  | .mpmSample ch second mp br late, s => execMpmSample_keeps ch second mp br late s
  | .brQualReached ch, s => execBrQualReached_keeps ch s
  | .lowBeatsReached ch, s => execLowBeatsReached_keeps ch s
  | .satBeatsReached ch, s => execSatBeatsReached_keeps ch s
  | .velocityTick ax code late, s => execVelocityTick_keeps ax code late s
  | .positionTick ax code late, s => execPositionTick_keeps ax code late s
  | .currentDecision ax sensed hiHeld loHeld tripHeld, s => execCurrentDecision_keeps ax sensed hiHeld loHeld tripHeld s
  | .perrTicksReached ax, s => execPerrTicksReached_keeps ax s
  | .stuckBeatsReached ax, s => execStuckBeatsReached_keeps ax s
  | .curSenseCountReached ax, s => execCurSenseCountReached_keeps ax s
  | .posQualReached ax, s => execPosQualReached_keeps ax s
  | .gateReadbackMismatch ax gates, s => execGateReadbackMismatch_keeps ax gates s
  | .acquireTimeoutExpiry ax, s => execAcquireTimeoutExpiry_keeps ax s
  | .srvCommitEffect, s => execSrvCommitEffect_keeps s
  | .axisEnable src ax v, s => execAxisEnable_keeps src ax v s
  | .axisDisable src ax v, s => execAxisDisable_keeps src ax v s
  | .axisFaultClear src ax v, s => execAxisFaultClear_keeps src ax v s
  | .cameraPortEnable src c v, s => execCameraPortEnable_keeps src c v s
  | .cameraPortDisable src c v, s => execCameraPortDisable_keeps src c v s
  | .frameStart c vc frameNo hdr, s => execFrameStart_keeps c vc frameNo hdr s
  | .frameEnd c vc hdr, s => execFrameEnd_keeps c vc hdr s
  | .longPacket c vc dt px crcOk hdr, s => execLongPacket_keeps c vc dt px crcOk hdr s
  | .dphySotError c lanes, s => execDphySotError_keeps c lanes s
  | .camFrameTimeout c, s => execCamFrameTimeout_keeps c s
  | .engineLine e ecc, s => execEngineLine_keeps e ecc s
  | .outputHoldTimeout e, s => execOutputHoldTimeout_keeps e s
  | .frameWriteout c, s => execFrameWriteout_keeps c s
  | .capArm ring, s => execCapArm_keeps ring s
  | .capStop ring, s => execCapStop_keeps ring s
  | .tableLoad ring rd, s => execTableLoad_keeps ring rd s
  | .compress ring ctx, s => execCompress_keeps ring ctx s
  | .decompress ring ctx, s => execDecompress_keeps ring ctx s
  | .codecJobRun, s => execCodecJobRun_keeps s
  | .codecJobDone input busErr, s => execCodecJobDone_keeps input busErr s
  | .codecDisable src v, s => execCodecDisable_keeps src v s
  | .codecEnable src v, s => execCodecEnable_keeps src v s
  | .dmaMove ring, s => execDmaMove_keeps ring s
  | .dmaEntryStart c, s => execDmaEntryStart_keeps c s
  | .dmaBurstWritten c rd, s => execDmaBurstWritten_keeps c rd s
  | .dmaBusError c addr write, s => execDmaBusError_keeps c addr write s
  | .dmaAbort ring, s => execDmaAbort_keeps ring s
  | .dmaChannelDisable src c v, s => execDmaChannelDisable_keeps src c v s
  | .scrubRead addr ecc clash, s => execScrubRead_keeps addr ecc clash s
  | .dramReadReturn addr req ecc, s => execDramReadReturn_keeps addr req ecc s
  | .ddrEnable src c v, s => execDdrEnable_keeps src c v s
  | .ddrInitDone c bad, s => execDdrInitDone_keeps c bad s
  | .ddrDisable src c v, s => execDdrDisable_keeps src c v s
  | .ddrRefresh c rank waiting, s => execDdrRefresh_keeps c rank waiting s
  | .ddrMr4Poll c doubled, s => execDdrMr4Poll_keeps c doubled s
  | .rowWindowEnd, s => execRowWindowEnd_keeps s
  | .actLimitReached c bank req, s => execActLimitReached_keeps c bank req s
  | .laneTestStart src l v, s => execLaneTestStart_keeps src l v s
  | .laneTestStop src l v bits errs, s => execLaneTestStop_keeps src l v bits errs s
  | .laneInject src l v, s => execLaneInject_keeps src l v s
  | .blPortEnable src p v, s => execBlPortEnable_keeps src p v s
  | .blPortDisable src p v, s => execBlPortDisable_keeps src p v s
  | .blLaneLock p, s => execBlLaneLock_keeps p s
  | .blAlignFound p swapped, s => execBlAlignFound_keeps p swapped s
  | .blAlignTimeout p, s => execBlAlignTimeout_keeps p s
  | .blHelloSend p, s => execBlHelloSend_keeps p s
  | .blHelloReceive p w0 w1, s => execBlHelloReceive_keeps p w0 w1 s
  | .blHelloTimeout p, s => execBlHelloTimeout_keeps p s
  | .blLinkLoss p blockErrors, s => execBlLinkLoss_keeps p blockErrors s
  | .blLinkctl p w, s => execBlLinkctl_keeps p w s
  | .blFrameReceive p pairs drift, s => execBlFrameReceive_keeps p pairs drift s
  | .timeFrameSend p inner, s => execTimeFrameSend_keeps p inner s
  | .timeFrameReceive p words inner good, s => execTimeFrameReceive_keeps p words inner good s
  | .rootTimeout, s => execRootTimeout_keeps s
  | .brickFrameReceive, s => execBrickFrameReceive_keeps s
  | .fedBrickStaging dev ring, s => execFedBrickStaging_keeps dev ring s
  | .ctrlEntryReceive, s => execCtrlEntryReceive_keeps s
  | .remnantFrameReceive, s => execRemnantFrameReceive_keeps s
  | .fedResultReceive, s => execFedResultReceive_keeps s
  | .foreignEventReceive, s => execForeignEventReceive_keeps s
  | .feedTimeoutExpiry key, s => execFeedTimeoutExpiry_keeps key s
  | .fedStreamClose dev ring, s => execFedStreamClose_keeps dev ring s
  | .ethLinkRise e, s => execEthLinkRise_keeps e s
  | .ethLinkFall e, s => execEthLinkFall_keeps e s
  | .tmbSetWrite src v, s => execTmbSetWrite_keeps src v s
  | .tmbStepWrite src v, s => execTmbStepWrite_keeps src v s
  | .beatStart src v, s => execBeatStart_keeps src v s
  | .beatStartReached, s => execBeatStartReached_keeps s
  | .ptpMessageReceive e m ts newState, s => execPtpMessageReceive_keeps e m ts newState s
  | .ptpMeasurement e off, s => execPtpMeasurement_keeps e off s
  | .syncTimeout e, s => execSyncTimeout_keeps e s
  | .freqUpdate, s => execFreqUpdate_keeps s
  | .statsEpoch, s => execStatsEpoch_keeps s
  | .tcapEdge idx falling ns frac, s => execTcapEdge_keeps idx falling ns frac s
  | .launchArm src sl v, s => execLaunchArm_keeps src sl v s
  | .launchCancel src sl v, s => execLaunchCancel_keeps src sl v s
  | .launchWindow sl, s => execLaunchWindow_keeps sl s
  | .launchSend sl ns frac, s => execLaunchSend_keeps sl ns frac s
  | .axsMove ring, s => execAxsMove_keeps ring s
  | .home ring, s => execHome_keeps ring s
  | .stop ring, s => execStop_keeps ring s
  | .setPos ring, s => execSetPos_keeps ring s
  | .axsEntryResume ring, s => execAxsEntryResume_keeps ring s
  | .profileTick late, s => execProfileTick_keeps late s
  | .limitQualified m plus level, s => execLimitQualified_keeps m plus level s
  | .homeQualified m level latch, s => execHomeQualified_keeps m level latch s
  | .homeInputDeassert m, s => execHomeInputDeassert_keeps m s
  | .homeMaxReached m, s => execHomeMaxReached_keeps m s
  | .stepperEnable src m v, s => execStepperEnable_keeps src m v s
  | .stepperDisable src m v, s => execStepperDisable_keeps src m v s
  | .lightSet ring, s => execLightSet_keeps ring s
  | .lightLoad ring rd, s => execLightLoad_keeps ring rd s
  | .lightGroupOff ring, s => execLightGroupOff_keeps ring s
  | .lightFrame tests late, s => execLightFrame_keeps tests late s
  | .boostOutOfRange beyond, s => execBoostOutOfRange_keeps beyond s
  | .boostFaultClear src v, s => execBoostFaultClear_keeps src v s
  | .ntcConversion c r, s => execNtcConversion_keeps c r s
  | .lightingEnable src v, s => execLightingEnable_keeps src v s
  | .lightingDisable src v, s => execLightingDisable_keeps src v s
  | .lightClear src idx v, s => execLightClear_keeps src idx v s
  | .thermalSample sn reading, s => execThermalSample_keeps sn reading s
  | .graceExpiry sn, s => execGraceExpiry_keeps sn s
  | .calRun ring table, s => execCalRun_keeps ring table s
  | .calMeasurementStart, s => execCalMeasurementStart_keeps s
  | .calRunComplete run1 run2, s => execCalRunComplete_keeps run1 run2 s
  | .calRecall ring, s => execCalRecall_keeps ring s
  | .pmpIdent h, s => execPmpIdent_keeps h s
  | .regRead h off, s => execRegRead_keeps h off s
  | .regWrite h off v, s => execRegWrite_keeps h off v s
  | .logRead h first count, s => execLogRead_keeps h first count s
  | .imgBegin h slot len sha flashOk, s => execImgBegin_keeps h slot len sha flashOk s
  | .imgPiece h slot idx crc data flashOk, s => execImgPiece_keeps h slot idx crc data flashOk s
  | .imgStatus h slot, s => execImgStatus_keeps h slot s
  | .imgActivate h slot, s => execImgActivate_keeps h slot s
  | .fwHandover, s => execFwHandover_keeps s
  | .activateTimeout, s => execActivateTimeout_keeps s
  | .imgConfirm h flashOk, s => execImgConfirm_keeps h flashOk s
  | .imgRevert h flashOk, s => execImgRevert_keeps h flashOk s
  | .pmpReset h k, s => execPmpReset_keeps h k s
  | .export_ h addr len port dst udp, s => execExport_keeps h addr len port dst udp s
  | .exportComplete, s => execExportComplete_keeps s
  | .configGet h, s => execConfigGet_keeps h s
  | .configSet h settings flashOk, s => execConfigSet_keeps h settings flashOk s
  | .smbStatus, s => execSmbStatus_keeps s
  | .smbIdent, s => execSmbIdent_keeps s
  | .smbTemp, s => execSmbTemp_keeps s
  | .smbReset v, s => execSmbReset_keeps v s
  | .smbCause, s => execSmbCause_keeps s
  | .fullDeviceReset cause, s => execFullDeviceReset_keeps cause s
  | .resetNLow ns, s => execResetNLow_keeps ns s
  | .resetSequenceComplete, s => execResetSequenceComplete_keeps s
  | .standbyPowerGood straps, s => execStandbyPowerGood_keeps straps s
  | .standbyPowerLoss, s => execStandbyPowerLoss_keeps s
  | .mainPgRise, s => execMainPgRise_keeps s
  | .mainPgFall, s => execMainPgFall_keeps s
  | .ref100Loss ns, s => execRef100Loss_keeps ns s
  | .pciePerstN, s => execPciePerstN_keeps s
  | .pcieConfigWrite func msix, s => execPcieConfigWrite_keeps func msix s
  | .pciePerstNRise, s => execPciePerstNRise_keeps s
  | .resetNRise, s => execResetNRise_keeps s
  | .ref100Return, s => execRef100Return_keeps s
  | .smbAlertResponse, s => execSmbAlertResponse_keeps s
  | .checkerLock l, s => execCheckerLock_keeps l s
  | .checkerLockLoss l bits errs, s => execCheckerLockLoss_keeps l bits errs s
  | .readBackComplete c, s => execReadBackComplete_keeps c s
  | .fedBrickReadDone key rd, s => execFedBrickReadDone_keeps key rd s
  | .announceReceiptTimeout e newState, s => execAnnounceReceiptTimeout_keeps e newState s
  | .ptpMessageSend e m ts, s => execPtpMessageSend_keeps e m ts s
/-- So does the state that it leads to. -/
theorem exec_frame {c : Instr} {s t : State} (h : exec c s = .next t) : KeepsS c.writes c.storesMem s t := (exec_keeps c s).keeps t h

end Sys2Proof.Machine
end

section
/-!
SUPPORT. The invariant of the model (O4): the memories, the register file and the island table keep their canonical form along every step. The
register file's share stands in the frames; the memories' share is asked of the rows that store, the island table's of those that may
change the power state.
-/
namespace Sys2Proof.Machine

/-! ## Outcomes -/

/-- What holds of either state that a command may choose holds of the one that it leads to. -/
theorem next_ite_inv {P : State → Prop} {p : Prop} [Decidable p] {u v t : State}
    (h : (.next (if p then u else v) : Host.Outcome State Fault Refusal) = .next t) (hu : P u) (hv : P v) : P t := by
  cases h
  split
  · exact hu
  · exact hv

/-- A command that leads to a state has not stopped at its address check. -/
theorem next_of_fault_ite {p : Prop} [Decidable p] {f : Fault} {o : Host.Outcome State Fault Refusal} {t : State}
    (h : (if p then .fault f else o) = .next t) : o = .next t := by
  split at h
  · cases h
  · exact h

/-- A low RESET_N resets or does not; between 200 ns and 1 µs a free value decides, which leaves everything but the count of such values
alone (R557). -/
theorem execResetNLow_eq (ns : Nat) (s : State) : ∃ v d, Keeps [.freeCount] s.dev d ∧ execResetNLow ns s =
    .next (if s.dev.pwr.standby && v % 2 == 1 then s.afterReset { d with pwr.resetN := false } 1 else { s with dev := d }) := by
  unfold execResetNLow
  split
  rename_i v d hvd
  refine ⟨v, d, ?_, rfl⟩
  split at hvd
  · exact Keeps.pairR hvd (Dev.free_keeps s.dev)
  · cases hvd
    exact Keeps.refl _ _

/-! ## The island table (R29) -/

/-- The island table holds one entry at most for each island. -/
def Dev.islandsRise (d : Dev) : Prop := keysRise d.pwr.isl = true

theorem Keeps.islandsRise {w : List Part} {d d' : Dev} (h : Keeps w d d') (hd : d.islandsRise) (hw : Part.pwr ∉ w := by decide) :
    d'.islandsRise := by
  unfold Dev.islandsRise
  rw [h.same .pwr hw]
  exact hd

theorem Dev.islandsRise_of_empty {d : Dev} (h : d.pwr.isl = []) : d.islandsRise := by
  unfold Dev.islandsRise
  rw [h]
  rfl

theorem Dev.setIsland_islandsRise {d : Dev} (k st : Nat) (h : d.islandsRise) : (d.setIsland k st).islandsRise :=
  keysRise_put k st 0 _ h

theorem Dev.workFor_islandsRise {d : Dev} (ks : List Nat) (h : d.islandsRise) : (d.workFor ks).islandsRise := by
  unfold Dev.workFor
  refine foldl_inv Dev.islandsRise ks _ _ h (fun e k he => ?_)
  split
  · exact Dev.setIsland_islandsRise k 0 he
  · split <;> exact he

theorem Dev.settleIslands_islandsRise {d : Dev} (h : d.islandsRise) : d.settleIslands.islandsRise := by
  unfold Dev.settleIslands
  refine foldl_inv Dev.islandsRise _ _ _ h (fun e x he => ?_)
  split
  · exact Dev.workFor_islandsRise _ he
  · exact he

theorem Dev.gateIsland_islandsRise {d : Dev} (k : Nat) (h : d.islandsRise) : (d.gateIsland k).islandsRise := by
  unfold Dev.gateIsland
  split
  · exact Dev.setIsland_islandsRise k 1 h
  · exact h

theorem Dev.offIsland_islandsRise {d : Dev} (k : Nat) (h : d.islandsRise) : (d.offIsland k).islandsRise := by
  unfold Dev.offIsland
  have hoff : (d.setIsland k 2).islandsRise := Dev.setIsland_islandsRise k 2 h
  split
  · dsimp only
    split <;> exact hoff
  · exact h

theorem Dev.wakeIsland_islandsRise {d : Dev} (k : Nat) (h : d.islandsRise) : (d.wakeIsland k).islandsRise := by
  unfold Dev.wakeIsland
  split
  · exact Dev.setIsland_islandsRise k 0 h
  · exact h

theorem Dev.acceptEntry_islandsRise {d : Dev} (e : Entry) (h : d.islandsRise) : (d.acceptEntry e).islandsRise :=
  (Dev.passOn_keeps _ _).islandsRise ((Dev.updRing_keeps _ _ _).islandsRise (Dev.workFor_islandsRise _ h))

/-- An entry that is accepted is work for its islands; every other way of an arrival leaves the table alone (R29, R52). -/
theorem Dev.entryArrival_islandsRise {d : Dev} (n : Nat) (rd : EntryRead) (h : d.islandsRise) : (d.entryArrival n rd).islandsRise := by
  unfold Dev.entryArrival
  dsimp only
  split
  · exact h
  refine (Dev.writeBack_keeps _).islandsRise ?_
  cases rd with
  | ok ws =>
    have hb := (Dev.bump_keeps { d.updRing n (fun r => { r with index := (r.index + 1) % 2 ^ 32, fetching := r.fetching - 1 }) with
      hst.wbDirty := true } Reg.HST_RING_COUNTS_ENTRIES 1 n 0).islandsRise h
    dsimp only
    split
    · exact (Dev.bump_keeps _ _ _ _ _).islandsRise
        ((Dev.complete_keeps _ _ _ _ _ _).islandsRise ((Dev.updRing_keeps _ _ _).islandsRise hb))
    · exact Dev.acceptEntry_islandsRise _ hb
  | failWithTag w0 => exact (Dev.bodyFetchErr_keeps _ _).islandsRise h
  | fail => exact (Dev.ringError_keeps _ _ _ _).islandsRise h

/-! ## Resets and losses (R540, R555) -/

theorem Dev.fullReset_islandsRise (d : Dev) (cause : Nat) : (d.fullReset cause).islandsRise := by
  unfold Dev.fullReset
  refine (Dev.chooseSettings_keeps _ _).islandsRise ?_
  dsimp only
  split
  · exact (Dev.fwEvent_keeps _ _ _).islandsRise ((Dev.dropTrial_keeps _).islandsRise
      ((Dev.raise_keeps _ _ _ _ _ _).islandsRise (Dev.islandsRise_of_empty rfl)))
  · exact (Dev.raise_keeps _ _ _ _ _ _).islandsRise (Dev.islandsRise_of_empty rfl)

theorem Dev.mainLost_islandsRise (d : Dev) : d.mainLost.islandsRise := Dev.islandsRise_of_empty rfl

theorem Dev.sequenceDone_islandsRise {d : Dev} (h : d.islandsRise) : d.sequenceDone.islandsRise := by
  unfold Dev.sequenceDone
  split <;> exact h

theorem Dev.thermTests_islandsRise {d : Dev} (s : Nat) (t : Option Int) (h : d.islandsRise) : (d.thermTests s t).islandsRise := by
  have event : ∀ {e : Dev} (src code extra : Nat), e.islandsRise → (e.thmEvent src s code extra).islandsRise :=
    fun src code extra he => (Dev.thmEvent_keeps _ src s code extra).islandsRise he
  unfold Dev.thermTests
  extract_lets beyond hyst under warn throt st hot rest
  split
  · exact Dev.mainLost_islandsRise _
  split
  · exact (Dev.throttleReq_keeps d s).islandsRise h
  split
  · exact event _ _ _ h
  split
  · exact (Dev.enforce_keeps d s).islandsRise h
  split
  · exact event _ _ _ h
  split
  · exact event _ _ _ h
  split
  · exact event _ _ _ h
  · exact h

/-- A sample that shuts the main domain down empties the table; every other one leaves it alone (R502, R505). -/
theorem Dev.thermalSample_islandsRise {d : Dev} (s : Nat) (raw : Option Int) (h : d.islandsRise) : (d.thermalSample s raw).islandsRise := by
  unfold Dev.thermalSample
  split
  · exact h
  · exact Dev.thermTests_islandsRise _ _ ((Dev.takeReading_keeps _ _ _).islandsRise ((Dev.sensorTemp_keeps _ _ _).islandsRise h))

/-! ## One FCLK cycle -/

theorem Dev.everyCycle_islandsRise {d : Dev} (h : d.islandsRise) : d.everyCycle.islandsRise := by
  unfold Dev.everyCycle
  refine Dev.settleIslands_islandsRise ((Dev.peak_keeps _ _ _ _ _).islandsRise
    ((Dev.lineCycle_keeps _).islandsRise ((Dev.axCycle_keeps _).islandsRise ?_)))
  dsimp only
  split
  · exact (Dev.bump_keeps _ _ _ _ _).islandsRise h
  · exact h

theorem Dev.everyEdge_islandsRise {d : Dev} (was : RegFile) (h : d.islandsRise) : (d.everyEdge was).islandsRise := by
  have hs : (d.sampled was).countIdle.islandsRise := (Dev.sampled_keeps was d).islandsRise h
  unfold Dev.everyEdge
  dsimp only
  split
  · exact (Dev.everyBeat_keeps _).islandsRise hs
  · exact hs

theorem Dev.tick_islandsRise {d : Dev} (h : d.islandsRise) : d.tick.islandsRise := by
  unfold Dev.tick
  extract_lets pwr e t
  have he : e.islandsRise := by
    unfold e
    split <;> exact h
  have ht : t.islandsRise := (Dev.advance_keeps e).islandsRise he
  split
  · exact he
  split
  · refine Dev.everyEdge_islandsRise _ (Dev.everyCycle_islandsRise ((Dev.advance_keeps _).islandsRise ?_))
    split
    · exact (Dev.countBeat_keeps e).islandsRise he
    · exact he
  · refine Dev.everyCycle_islandsRise ?_
    split
    · exact (Dev.takeCut_keeps t).islandsRise ht
    · exact ht

/-! ## Every command -/

/-- A command that may change the power state keeps the island table's form: the island rows and an arrival by their own operations, the
resets and losses by emptying it. -/
theorem exec_pwr_islandsRise {c : Instr} {s t : State} (h : exec c s = .next t) (hs : s.dev.islandsRise) (hc : Part.pwr ∈ c.writes) :
    t.dev.islandsRise := by
  have either : ∀ {p : Prop} [Decidable p] {u v : State}, (.next (if p then u else v) : Host.Outcome State Fault Refusal) = .next t →
      u.dev.islandsRise → v.dev.islandsRise → t.dev.islandsRise := fun h hu hv => next_ite_inv (P := fun x => x.dev.islandsRise) h hu hv
  cases c
  case clockGateEntry blk isl => exact either h (Dev.gateIsland_islandsRise _ hs) hs
  case islandOffEntry blk isl => exact either h (Dev.offIsland_islandsRise _ hs) hs
  case islandWake blk isl => exact either h (Dev.wakeIsland_islandsRise _ hs) hs
  case entryArrival ring rd => exact either h (Dev.entryArrival_islandsRise ring rd hs) hs
  case thermalSample sn reading => cases h; exact Dev.thermalSample_islandsRise sn reading hs
  case resetNRise => cases h; exact hs
  case resetSequenceComplete => cases h; exact Dev.sequenceDone_islandsRise hs
  case smbReset v => exact either h (Dev.fullReset_islandsRise _ _) hs
  case fullDeviceReset cause => exact either h (Dev.fullReset_islandsRise _ _) hs
  case resetNLow ns =>
    obtain ⟨v, d, hd, he⟩ := execResetNLow_eq ns s
    exact either (he.symm.trans h) (Dev.fullReset_islandsRise _ _) (hd.islandsRise hs)
  case standbyPowerGood straps => exact either h hs (Dev.fullReset_islandsRise _ _)
  case standbyPowerLoss => cases h; exact Dev.islandsRise_of_empty rfl
  case mainPgRise => exact either h (Dev.fullReset_islandsRise _ _) hs
  case mainPgFall => exact either h (Dev.mainLost_islandsRise _) hs
  case ref100Loss ns => exact either h (Dev.mainLost_islandsRise _) hs
  case ref100Return => exact either h (Dev.fullReset_islandsRise _ _) hs
  all_goals exact absurd hc (of_decide_eq_false rfl)

theorem exec_islandsRise {c : Instr} {s t : State} (h : exec c s = .next t) (hs : s.dev.islandsRise) : t.dev.islandsRise := by
  by_cases hc : Part.pwr ∈ c.writes
  · exact exec_pwr_islandsRise h hs hc
  · exact (exec_frame h).dev.islandsRise hs hc

/-! ## The memories -/

/-- A command whose row stores keeps the memories' canonical form: it writes by operations that do, or empties them. -/
theorem exec_stores_wf {c : Instr} {s t : State} (h : exec c s = .next t) (hs : s.mem.wf = true) (hc : c.storesMem = true) :
    t.mem.wf = true := by
  have either : ∀ {p : Prop} [Decidable p] {u v : State}, (.next (if p then u else v) : Host.Outcome State Fault Refusal) = .next t →
      u.mem.wf = true → v.mem.wf = true → t.mem.wf = true := fun h hu hv => next_ite_inv (P := fun x => x.mem.wf = true) h hu hv
  cases c
  case bar2Write a bs ecc => exact either (next_of_fault_ite h) (Mem.wf_bar2Write _ _ _ _ hs) hs
  case bar2Read a ecc => exact either (next_of_fault_ite h) (Mem.wf_bar2Read _ _ _ hs) hs
  case scrubRead a ecc clash => exact either (next_of_fault_ite h) (Mem.wf_scrubRead _ _ _ _ hs) hs
  case psetWrite ring => exact either h (Mem.wf_psetWrite _ _ hs) hs
  case psetLoadData ring rd => exact either h (Mem.wf_psetLoadData _ _ _ hs) hs
  case paramCommit => exact either h (Mem.wf_paramCommit _ hs) hs
  case brickVerdict key rd => exact either h (Mem.wf_brickVerdict _ _ _ hs) hs
  case plumeHoldTimeout ch => exact either h (Mem.wf_withRemnants _ _ hs) hs
  case masonDrop ch => exact either h (Mem.wf_withRemnants _ _ hs) hs
  case pisteSampleIssue ch ev => exact either h (Mem.wf_withRemnants _ _ hs) hs
  case fedBrickStaging dev ring => exact either h (Mem.wf_fedStaging _ _ _ hs) hs
  case fedBrickReadDone key rd => exact either h (Mem.wf_fedRead _ _ _ hs) hs
  case gridLoadComplete rd => exact either h (Mem.wf_gridLoadComplete _ _ hs) hs
  case engineLine e ecc => exact either h (Mem.wf_engineLine _ _ _ hs) hs
  case frameWriteout c => exact either h (Mem.wf_frameWriteout _ _ hs) hs
  case codecJobDone input busErr => exact either h (Mem.wf_codecEnd _ _ _ hs) hs
  case dmaBurstWritten c rd => exact either h (Mem.wf_burstWritten _ _ _ hs) hs
  case dmaBusError c addr write => exact either h (Mem.wf_busError _ _ _ _ hs) hs
  case ddrInitDone c bad => exact either h (Mem.wf_ddrInitDone _ _ _ hs) hs
  case smbReset v => exact either h Mem.wf_empty hs
  case fullDeviceReset cause => exact either h Mem.wf_empty hs
  case resetNLow ns =>
    obtain ⟨v, d, _, he⟩ := execResetNLow_eq ns s
    exact either (he.symm.trans h) Mem.wf_empty hs
  case standbyPowerGood straps => exact either h hs Mem.wf_empty
  case standbyPowerLoss => cases h; exact Mem.wf_empty
  case mainPgRise => exact either h Mem.wf_empty hs
  case mainPgFall => exact either h Mem.wf_empty hs
  case ref100Loss ns => exact either h Mem.wf_empty hs
  case ref100Return => exact either h Mem.wf_empty hs
  all_goals exact absurd hc Bool.false_ne_true

theorem exec_mem_wf {c : Instr} {s t : State} (h : exec c s = .next t) (hs : s.mem.wf = true) : t.mem.wf = true := by
  cases hc : c.storesMem with
  | true => exact exec_stores_wf h hs hc
  | false => rw [(exec_frame h).mem hc]; exact hs

/-! ## The obligation -/

/-- Settles O4: a step runs the front command, whose row keeps each of the three parts, or lets one cycle pass, which keeps them too. -/
theorem stepKeepsTheInvariant : Obligations.StepKeepsTheInvariant := by
  unfold Obligations.StepKeepsTheInvariant
  rintro s t ⟨hmem, hregs, hisl⟩ h
  unfold step at h
  split at h
  · rename_i c rest _
    exact ⟨exec_mem_wf h hmem, (exec_frame h).dev.regs hregs, exec_islandsRise h hisl⟩
  · cases h
    exact ⟨hmem, (Dev.tick_keeps s.dev).regs hregs, Dev.tick_islandsRise hisl⟩

end Sys2Proof.Machine
end

section
/-!
SUPPORT. A write of a register that has no command of its own (R6, R21): block by block it stores the word or refuses it, and the side-band's two
halves land it as the host's one access does (R213).
-/
namespace Sys2Proof.Machine

/-! ## Where the registers lie (R3, R16) -/

/-- A register lies in its block, below the in-effect copies and the MSI-X area. -/
def RegDef.inBlock (b : Nat) (r : RegDef) : Bool :=
  decide (b * 0x100000 ≤ r.addr) && decide (r.addr + (r.n1 - 1) * r.s1 + (r.n2 - 1) * r.s2 < b * 0x100000 + 0x40000)

theorem regTable_inBlock (b : Nat) : (regTable b).all (RegDef.inBlock b) = true := by
  match b with
  | 0 | 1 | 2 | 3 | 4 | 5 | 6 | 7 | 8 | 9 | 10 | 11 | 12 | 13 | 14 | 15 => decide
  | n + 16 => rfl

theorem atMsix_of_low {off : Nat} (h : off % 0x100000 < 0x40000) : atMsix off = false := by
  have hi : inMsix (off % 0x100000) = false := by
    simp only [inMsix, Bool.and_eq_false_iff, decide_eq_false_iff_not]
    omega
  rw [atMsix, hi, Bool.and_false]

theorem isCopy_of_low {off : Nat} (h : off % 0x100000 < 0x40000) : isCopy off = false := by
  simp only [isCopy, decide_eq_false_iff_not]
  omega

/-- A defined register stands in the first 256 KiB of its block. -/
theorem regAt_low {off : Nat} {r : RegDef} {i j : Nat} (h : regAt off = some (r, i, j)) : off % 0x100000 < 0x40000 := by
  have hb := List.all_eq_true.mp (regTable_inBlock (blockOf off)) r (findReg_some h).1
  obtain ⟨hoff, hi, hj⟩ := regAt_off h
  simp only [RegDef.inBlock, Bool.and_eq_true, decide_eq_true_eq] at hb
  have hi' : i * r.s1 ≤ (r.n1 - 1) * r.s1 := Nat.mul_le_mul_right _ (by omega)
  have hj' : j * r.s2 ≤ (r.n2 - 1) * r.s2 := Nat.mul_le_mul_right _ (by omega)
  unfold blockOf at hb
  omega

/-- The MSI-X area consists of whole 64-bit words. -/
theorem atMsix_upper {off : Nat} (h8 : off % 8 = 0) : atMsix (off + 4) = atMsix off := by
  have hb : blockOf (off + 4) = blockOf off := by unfold blockOf; omega
  have hi : inMsix ((off + 4) % 0x100000) = inMsix (off % 0x100000) := by
    rw [Bool.eq_iff_iff]
    simp only [inMsix, Bool.and_eq_true, decide_eq_true_eq]
    omega
  unfold atMsix
  rw [hb, hi]

/-! ## Plain registers -/

/-- A register that no command of its own writes; among the ones whose block checks a write its offset tells it apart. -/
structure RegDef.plain (r : RegDef) : Prop where
  acts : ∀ x ∈ Reg.acting, r.addr ≠ x.addr
  checks : ∀ x ∈ Reg.checked, r.addr = x.addr → r = x

/-- Every register of the tables has an offset of its own among those that act or check. -/
theorem regTable_named (b : Nat) : (regTable b).all (fun r => (Reg.acting ++ Reg.checked).all (fun x => r.addr != x.addr || r == x)) = true := by
  match b with
  | 0 | 1 | 2 | 3 | 4 | 5 | 6 | 7 | 8 | 9 | 10 | 11 | 12 | 13 | 14 | 15 => decide
  | n + 16 => rfl

theorem regAt_plain {off : Nat} {r : RegDef} {i j : Nat} (h : regAt off = some (r, i, j)) (ha : r ∉ Reg.acting) : r.plain := by
  have hn : ∀ x ∈ Reg.acting ++ Reg.checked, r.addr = x.addr → r = x := by
    intro x hx he
    have := List.all_eq_true.mp (List.all_eq_true.mp (regTable_named (blockOf off)) r (findReg_some h).1) x hx
    simpa [he] using this
  refine ⟨fun x hx he => ha ?_, fun x hx => hn x (List.mem_append_right _ hx)⟩
  rw [hn x (List.mem_append_left _ hx) he]
  exact hx

/-! ## Storing or refusing -/

/-- What a write of register `r` of block `b` may make of the device: it is stored, or a block that checks it refuses it (R21). -/
def Dev.storesOrRefuses (d : Dev) (b : Nat) (r : RegDef) (v : W64) (i j : Nat) (d' : Dev) : Prop :=
  d' = d.store r v i j ∨ (r ∈ Reg.checked ∧ ∃ f, refusedBit b = some f ∧ d' = d.refuse f)

theorem Dev.storesOrRefuses_store (d : Dev) (b : Nat) (r : RegDef) (v : W64) (i j : Nat) :
    d.storesOrRefuses b r v i j (d.store r v i j) := .inl rfl

/-- A check that passes every register but the checked ones stores the word or refuses it by right. -/
theorem Dev.storesOrRefuses_storeIf {d : Dev} {b : Nat} {r : RegDef} {v : W64} {i j : Nat} {f : Field} {ok : Bool} (hr : r.plain)
    (hb : refusedBit b = some f) (hok : (∀ x ∈ Reg.checked, r.addr ≠ x.addr) → ok = true) :
    d.storesOrRefuses b r v i j (d.storeIf f ok r v i j) := by
  cases ok with
  | true => exact .inl rfl
  | false =>
    refine .inr ⟨Decidable.byContradiction fun hc => ?_, f, hb, rfl⟩
    exact Bool.false_ne_true (hok fun x hx he => hc (hr.checks x hx he ▸ hx))

section
variable (d : Dev) {r : RegDef} (v : W64) (i j : Nat) (hr : r.plain)
include hr

theorem Dev.writeMgt_plain : d.storesOrRefuses 0 r v i j (d.writeMgt r v i j) := by
  unfold Dev.writeMgt
  rw [if_neg (by simp [hr.acts Reg.MGT_SAFE_KICK (by decide), hr.acts Reg.MGT_SAFE_CTL (by decide)]),
    if_neg (hr.acts Reg.MGT_CAL_TOL (by decide))]
  exact d.storesOrRefuses_store 0 r v i j

theorem Dev.writeHst_plain (hi : i < r.n1) (hj : j < r.n2) : d.storesOrRefuses 1 r v i j (d.writeHst r v i j) := by
  unfold Dev.writeHst
  rw [if_neg (hr.acts Reg.HST_RING_CFG (by decide))]
  split
  · rename_i he
    obtain rfl := hr.checks Reg.HST_EVT_ROUTE (by decide) he
    obtain rfl : j = 0 := Nat.lt_one_iff.mp hj
    exact Dev.storesOrRefuses_storeIf hr rfl fun hn => absurd rfl (hn Reg.HST_EVT_ROUTE (by decide))
  split
  · rename_i he
    obtain rfl := hr.checks Reg.HST_FOREIGN_ROUTE (by decide) he
    obtain rfl : i = 0 := Nat.lt_one_iff.mp hi
    obtain rfl : j = 0 := Nat.lt_one_iff.mp hj
    exact Dev.storesOrRefuses_storeIf hr rfl fun hn => absurd rfl (hn Reg.HST_FOREIGN_ROUTE (by decide))
  refine Dev.storesOrRefuses_storeIf hr rfl fun hn => ?_
  simp [hn Reg.HST_CTL (by decide), hn Reg.HST_DB_BASE (by decide), hn Reg.HST_WB_BASE (by decide), hn Reg.HST_RING_BASE (by decide)]

theorem Dev.writeMsn_plain : d.storesOrRefuses 2 r v i j (d.writeMsn r v i j) := by
  refine Dev.storesOrRefuses_storeIf hr rfl fun hn => ?_
  unfold Dev.msnOk
  simp [hn Reg.MSN_CTL (by decide), hn Reg.MSN_GAS (by decide), hn Reg.MSN_FAIR (by decide)]

theorem Dev.writePth_plain (hj : j < r.n2) : d.storesOrRefuses 3 r v i j (d.writePth r v i j) := by
  unfold Dev.writePth
  extract_lets perZone perChan ok
  split
  · rename_i hz
    obtain ⟨x, hx, he⟩ := List.any_eq_true.mp hz
    have hc : ∀ y ∈ perZone, y ∈ Reg.checked ∧ y.n2 = 1 := by decide
    obtain rfl := hr.checks x (hc x hx).1 (beq_iff_eq.mp he).symm
    obtain rfl : j = 0 := by have := (hc _ hx).2; omega
    unfold Dev.writeSeam
    extract_lets clears stored
    split
    · exact .inr ⟨(hc _ hx).1, _, rfl, rfl⟩
    · exact .inl rfl
  · refine Dev.storesOrRefuses_storeIf hr rfl fun hn => ?_
    have hp : perChan.any (fun x => x.addr == r.addr) = false := by
      rw [List.any_eq_false]
      intro x hx he
      have hc : ∀ y ∈ perChan, y ∈ Reg.checked := by decide
      exact hn x (hc x hx) (beq_iff_eq.mp he).symm
    simp [ok, hp, hn Reg.PTH_CTL (by decide), hn Reg.PTH_SEAM_CTL (by decide), hn Reg.PTH_SPEED (by decide)]

theorem Dev.writeLsr_plain (m : Mem) : d.storesOrRefuses 4 r v i j (d.writeLsr m r v i j) := by
  unfold Dev.writeLsr
  rw [if_neg (hr.acts Reg.LSR_CHAN_CTL (by decide))]
  refine Dev.storesOrRefuses_storeIf hr rfl fun hn => ?_
  simp [hn Reg.LSR_CHAN_ARM (by decide), hn Reg.LSR_CHAN_BEACON (by decide)]

theorem Dev.writeSrv_plain : d.storesOrRefuses 5 r v i j (d.writeSrv r v i j) := by
  unfold Dev.writeSrv
  rw [if_neg (hr.acts Reg.SRV_AXIS_CTL (by decide))]
  refine Dev.storesOrRefuses_storeIf hr rfl fun hn => ?_
  simp [hn Reg.SRV_AXIS_CUR (by decide), hn Reg.SRV_AXIS_LOOP (by decide), hn Reg.SRV_AXIS_PERR (by decide),
    hn Reg.SRV_BANK_CFG (by decide)]

theorem Dev.writeMpm_plain : d.storesOrRefuses 6 r v i j (d.writeMpm r v i j) := by
  refine Dev.storesOrRefuses_storeIf hr rfl fun hn => ?_
  simp [hn Reg.MPM_CHAN_CTL (by decide), hn Reg.MPM_CHAN_LIMIT (by decide), hn Reg.MPM_REF0 (by decide), hn Reg.MPM_REF1 (by decide)]

theorem Dev.writeCam_plain : d.storesOrRefuses 7 r v i j (d.writeCam r v i j) := by
  unfold Dev.writeCam
  rw [if_neg (hr.acts Reg.CAM_PORT_CFG (by decide))]
  refine Dev.storesOrRefuses_storeIf hr rfl fun hn => ?_
  simp [hn Reg.CAM_PORT_GEOM (by decide)]

theorem Dev.writeDma_plain : d.storesOrRefuses 9 r v i j (d.writeDma r v i j) := by
  unfold Dev.writeDma
  rw [if_neg (hr.acts Reg.DMA_CHAN_CFG (by decide))]
  exact d.storesOrRefuses_store 9 r v i j

theorem Dev.writeMem_plain : d.storesOrRefuses 10 r v i j (d.writeMem r v i j) := by
  unfold Dev.writeMem
  rw [if_neg (hr.acts Reg.MEM_DDR_CFG (by decide))]
  refine Dev.storesOrRefuses_storeIf hr rfl fun hn => ?_
  simp [hn Reg.MEM_SRAM_CTL (by decide), hn Reg.MEM_DDR_TIMING (by decide), hn Reg.MEM_DDR_LANE (by decide),
    hn Reg.MEM_DDR_MR (by decide)]

theorem Dev.writeLnk_plain (src : Source) : d.storesOrRefuses 11 r v i j (d.writeLnk src r v i j) := by
  unfold Dev.writeLnk
  rw [if_neg (hr.acts Reg.LNK_BL_CFG (by decide)), if_neg (hr.acts Reg.LNK_LANE_TEST (by decide)),
    if_neg (hr.acts Reg.LNK_ETH_CFG (by decide))]
  refine Dev.storesOrRefuses_storeIf hr rfl fun hn => ?_
  unfold Dev.lnkOk
  simp [hn Reg.LNK_DEV (by decide), hn Reg.LNK_TIME_CTL (by decide), hn Reg.LNK_LANE_EQ (by decide), hn Reg.LNK_FEED (by decide)]

theorem Dev.writeTmb_plain : d.storesOrRefuses 12 r v i j (d.writeTmb r v i j) := by
  unfold Dev.writeTmb
  rw [if_neg (hr.acts Reg.TMB_CTL (by decide)), if_neg (hr.acts Reg.TMB_SET (by decide)), if_neg (hr.acts Reg.TMB_STEP (by decide)),
    if_neg (hr.acts Reg.TMB_LAUNCH_CTL (by decide))]
  split
  · rename_i he
    refine Dev.storesOrRefuses_storeIf hr rfl fun hn => ?_
    simp [hn Reg.TMB_LAUNCH_TIME (by decide), hn Reg.TMB_LAUNCH_DATA (by decide)] at he
  · refine Dev.storesOrRefuses_storeIf hr rfl fun hn => ?_
    simp [hn Reg.TMB_INCR (by decide), hn Reg.TMB_START_TIME (by decide), hn Reg.TMB_SERVO (by decide), hn Reg.TMB_EPOCH (by decide),
      hn Reg.TMB_PTP_CFG (by decide)]

theorem Dev.writeAxs_plain : d.storesOrRefuses 13 r v i j (d.writeAxs r v i j) := by
  unfold Dev.writeAxs
  rw [if_neg (hr.acts Reg.AXS_AXIS_CFG (by decide))]
  refine Dev.storesOrRefuses_storeIf hr rfl fun hn => ?_
  simp [hn Reg.AXS_PROF0 (by decide), hn Reg.AXS_PROF1 (by decide), hn Reg.AXS_AXIS_VLIM (by decide)]

theorem Dev.writeLgt_plain : d.storesOrRefuses 14 r v i j (d.writeLgt r v i j) := by
  unfold Dev.writeLgt
  rw [if_neg (hr.acts Reg.LGT_CTL (by decide)), if_neg (hr.acts Reg.LGT_STATUS (by decide)), if_neg (hr.acts Reg.LGT_CH (by decide))]
  refine Dev.storesOrRefuses_storeIf hr rfl fun hn => ?_
  simp [hn Reg.LGT_BOOST (by decide), hn Reg.LGT_BEACON (by decide)]

theorem Dev.writeThm_plain : d.storesOrRefuses 15 r v i j (d.writeThm r v i j) := by
  unfold Dev.writeThm
  rw [if_neg (hr.acts Reg.THM_SENS_CFG (by decide))]
  refine Dev.storesOrRefuses_storeIf hr rfl fun hn => ?_
  simp [hn Reg.THM_CTL (by decide), hn Reg.THM_SENS_THRESH (by decide)]

theorem Dev.writeBlock_plain (m : Mem) (src : Source) (hi : i < r.n1) (hj : j < r.n2) :
    ∀ b, b < 16 → d.storesOrRefuses b r v i j (d.writeBlock m src b r v i j)
  | 0, _ => d.writeMgt_plain v i j hr
  | 1, _ => d.writeHst_plain v i j hr hi hj
  | 2, _ => d.writeMsn_plain v i j hr
  | 3, _ => d.writePth_plain v i j hr hj
  | 4, _ => d.writeLsr_plain v i j hr m
  | 5, _ => d.writeSrv_plain v i j hr
  | 6, _ => d.writeMpm_plain v i j hr
  | 7, _ => d.writeCam_plain v i j hr
  | 8, _ => d.storesOrRefuses_store 8 r v i j
  | 9, _ => d.writeDma_plain v i j hr
  | 10, _ => d.writeMem_plain v i j hr
  | 11, _ => d.writeLnk_plain v i j hr src
  | 12, _ => d.writeTmb_plain v i j hr
  | 13, _ => d.writeAxs_plain v i j hr
  | 14, _ => d.writeLgt_plain v i j hr
  | 15, _ => d.writeThm_plain v i j hr
  | n + 16, hb => absurd hb (by omega)

end

/-! ## A whole register (R6, R516) -/

/-- With no calibration in progress a write of a plain register stores its word or is refused. -/
theorem Dev.writeReg_plain (d : Dev) (m : Mem) (src : Source) {off : Nat} (v : W64) {r : RegDef} {i j : Nat} (hcal : d.cal.run = none)
    (hoff : off < bar0Size) (h : regAt off = some (r, i, j)) (ha : r ∉ Reg.acting) :
    d.storesOrRefuses (blockOf off) r v i j (d.writeReg m src off v) := by
  have hlow := regAt_low h
  obtain ⟨_, hi, hj⟩ := regAt_off h
  have hidle : (d.writeBlock m src (blockOf off) r v i j).calBroken = false := by
    unfold Dev.calBroken
    rw [(Dev.writeBlock_keeps ..).same .cal (by decide), hcal]
  unfold Dev.writeReg Dev.calGuard
  rw [atMsix_of_low hlow, isCopy_of_low hlow, h]
  simp only [hidle, Bool.false_and, Bool.false_eq_true, if_false]
  exact d.writeBlock_plain v i j (regAt_plain h ha) m src hi hj _ (by unfold blockOf bar0Size at *; omega)

/-- No register stands in the in-effect copies or where no chapter defines one, and a write there is ignored (R3, R7). -/
theorem Dev.writeReg_nowhere (d : Dev) (m : Mem) (src : Source) {off : Nat} (v : W64) (hm : atMsix off = false)
    (h : isCopy off = true ∨ regAt off = none) : d.writeReg m src off v = d := by
  unfold Dev.writeReg
  rw [hm]
  rcases h with h | h <;> simp [h]

/-- A refused write sets the block's REFUSED flag and touches no other field (R21). -/
theorem Dev.refuse_flags (d : Dev) {b : Nat} {f : Field} (hwf : d.regs.wf = true) (hf : refusedBit b = some f) :
    (d.refuse f).flag f = 1 ∧ ∀ k e, k ≠ f.key 0 0 → Assoc.get (d.refuse f).regs.w1c k e = Assoc.get d.regs.w1c k e := by
  have hw : f.width = 1 := by
    unfold refusedBit at hf
    split at hf <;> cases hf <;> rfl
  refine ⟨?_, fun k e hk => Assoc.get_put_other _ _ _ _ _ hk _⟩
  calc (d.refuse f).flag f = (d.flag f ||| 1) % 2 ^ f.width := Dev.flag_setFlag d f _ 0 0 hwf
    _ = 1 := by rw [hw, Nat.pow_one, Nat.or_mod_two_eq_one]; exact .inr rfl

/-- A word stored at a register fills its fields and leaves every other register alone (R6). -/
theorem Dev.store_word (d : Dev) {off : Nat} {r : RegDef} {i j : Nat} (v : W64) (hwf : d.regs.wf = true)
    (h : regAt off = some (r, i, j)) : (∀ f ∈ r.fields, Dev.stored d (d.store r v i j) v i j f) ∧
      ∀ k e, k / 64 ≠ off → Assoc.get (d.store r v i j).regs.rw k e = Assoc.get d.regs.rw k e ∧
        Assoc.get (d.store r v i j).regs.shadow k e = Assoc.get d.regs.shadow k e ∧
        Assoc.get (d.store r v i j).regs.w1c k e = Assoc.get d.regs.w1c k e := by
  have hok := regAt_ok h
  refine ⟨Dev.store_stored d r v i j hwf (RegDef.ok_nodup hok i j), fun k e hk => Dev.store_other d r v i j k e fun f hf hkey => hk ?_⟩
  rw [hkey, RegDef.ok_addr hok i j f hf, (regAt_off h).1]

theorem Dev.storesOrRefuses_keeps {d d' : Dev} {b : Nat} {r : RegDef} {v : W64} {i j : Nat} (h : d.storesOrRefuses b r v i j d') :
    Keeps [.rw, .shadow, .w1c] d d' := by
  rcases h with rfl | ⟨_, f, _, rfl⟩
  · exact d.store_keeps r v i j
  · exact (d.refuse_keeps f 0).step (by decide) (Keeps.refl _ d)

/-! ## The two sources (R17, R213) -/

/-- The device with the lower half that a source has staged forgotten. -/
def Dev.unstaged (d : Dev) (src : Source) : Dev := { d with mgt.stage := upd d.mgt.stage (srcIndex src) (fun _ => none) }

theorem Dev.unstaged_keeps (d : Dev) (src : Source) : Keeps [.latches] d (d.unstaged src) := by
  refine ⟨fun p hp => ?_, fun h => h, fun _ => Grows.refl _⟩
  cases p
  case latches => exact absurd (List.mem_singleton_self _) hp
  all_goals rfl

theorem srcIndex_lt (src : Source) : srcIndex src < 2 := by cases src <;> decide

theorem upd_upd {α : Type} {n : Nat} (v : Vector α n) (i : Nat) (f g : α → α) : upd (upd v i f) i g = upd v i (fun x => g (f x)) := by
  unfold upd
  by_cases hi : i < n <;> simp [hi]

/-- The two halves of a word, the lower one staged, land as the word (R213). -/
theorem Dev.landHigh_stageLow (d : Dev) (m : Mem) (src : Source) (off : Nat) (lo hi : W32) :
    (d.stageLow src off lo).landHigh m src off hi = (d.unstaged src).writeReg m src off (hi ++ lo) := by
  unfold Dev.landHigh Dev.stageLow Dev.unstaged
  simp only [at'_upd_same _ _ _ (srcIndex_lt src), upd_upd, beq_self_eq_true, if_true]

/-- The device on which a source's whole write lands: the side-band's empties its latch on the way. -/
def Dev.landing (d : Dev) : Source → Dev
  | .host => d
  | .sideband => d.unstaged .sideband

theorem Dev.landing_keeps (d : Dev) (src : Source) : Keeps [.latches] d (d.landing src) := by
  cases src with
  | host => exact Keeps.refl _ _
  | sideband => exact d.unstaged_keeps _

@[simp] theorem Dev.landing_regs (d : Dev) (src : Source) : (d.landing src).regs = d.regs := by cases src <;> rfl

theorem Dev.landing_stage (d : Dev) (src : Source) :
    at' (d.landing src).mgt.stage 1 = if src = .host then at' d.mgt.stage 1 else none := by
  cases src with
  | host => rfl
  | sideband => exact at'_upd_same _ _ _ (by decide)

/-- A whole write lands as one word, the side-band's too (R17, R213). -/
theorem Dev.write64_eq (d : Dev) (m : Mem) (src : Source) {off : Nat} (v : W64) (h8 : off % 8 = 0) (hm : atMsix off = false) :
    d.write64 m src off v = (d.landing src).writeReg m src off v := by
  cases src with
  | host => rfl
  | sideband =>
    have hv : v.extractLsb' 32 32 ++ v.extractLsb' 0 32 = v :=
      (BitVec.extractLsb'_append_extractLsb'_eq_extractLsb' (show 32 = 0 + 32 from rfl)).trans BitVec.extractLsb'_eq_self
    have hup : (off + 4) % 8 ≠ 0 := by omega
    unfold Dev.write64 Dev.write32
    simp only [atMsix_upper h8, hm, h8, hup, Nat.add_sub_cancel, Bool.false_eq_true, if_true, if_false]
    rw [Dev.landHigh_stageLow, hv]
    rfl

/-! ## The obligation -/

theorem execRegisterWrite_eq (src : Source) {off : Nat} (v : W64) (s : State) (hoff : off < bar0Size) (h8 : off % 8 = 0)
    (hr : s.dev.reaches src off = true) :
    execRegisterWrite src off v s = .next { s with dev := s.dev.write64 s.mem src off v } := by
  unfold execRegisterWrite
  rw [if_neg (by omega), if_pos hr]

/-- A whole write of a plain register lands on the device with the source's latch emptied. -/
theorem exec_registerWrite_plain (src : Source) {off : Nat} (v : W64) (s : State) {r : RegDef} {i j : Nat} (hcal : s.dev.cal.run = none)
    (hreach : s.dev.reaches src off = true) (hoff : off < bar0Size) (h8 : off % 8 = 0) (ha : r ∉ Reg.acting)
    (hat : regAt off = some (r, i, j)) :
    ∃ d, exec (.registerWrite src off v) s = .next { s with dev := d } ∧ (s.dev.landing src).storesOrRefuses (blockOf off) r v i j d := by
  refine ⟨_, execRegisterWrite_eq src v s hoff h8 hreach, ?_⟩
  rw [Dev.write64_eq _ _ _ _ h8 (atMsix_of_low (regAt_low hat))]
  refine Dev.writeReg_plain _ _ _ _ ?_ hoff hat ha
  rw [(s.dev.landing_keeps src).same .cal (by decide), hcal]

/-- An unreachable register takes no write (R28). -/
theorem exec_registerWrite_unreached (src : Source) {off : Nat} (v : W64) (s : State) (hoff : off < bar0Size) (h8 : off % 8 = 0)
    (h : s.dev.reaches src off = false) : exec (.registerWrite src off v) s = .next s := by
  change execRegisterWrite src off v s = .next s
  unfold execRegisterWrite
  rw [if_neg (by omega), h]
  rfl

/-- The host's write where no register stands changes nothing, and the side-band's only empties its latch (R3, R7). -/
theorem exec_registerWrite_nowhere (src : Source) {off : Nat} (v : W64) (s : State) (hoff : off < bar0Size) (h8 : off % 8 = 0)
    (hm : atMsix off = false) (h : isCopy off = true ∨ regAt off = none) :
    exec (.registerWrite src off v) s = .next (if s.dev.reaches src off then { s with dev := s.dev.landing src } else s) := by
  cases hr : s.dev.reaches src off with
  | false => exact exec_registerWrite_unreached src v s hoff h8 hr
  | true =>
    refine (execRegisterWrite_eq src v s hoff h8 hr).trans ?_
    rw [Dev.write64_eq _ _ _ _ h8 hm, Dev.writeReg_nowhere _ _ _ _ hm h]
    rfl

/-- Settles O8: a plain register's write lands as one word that its block stores or refuses; elsewhere nothing takes it. -/
theorem registerWrites : Obligations.RegisterWrites := by
  unfold Obligations.RegisterWrites
  refine ⟨?_, ?_, fun s src off v => exec_registerWrite_unreached src v s, ?_, ?_⟩
  · intro s src off v r i j hwf hcal hreach hoff h8 ha hat
    obtain ⟨d, hexec, hd⟩ := exec_registerWrite_plain src v s hcal hreach hoff h8 ha hat
    have hland := s.dev.landing_keeps src
    have hregs := s.dev.landing_regs src
    have hkeeps := Dev.storesOrRefuses_keeps hd
    have hstage : d.mgt.stage = (s.dev.landing src).mgt.stage := congrArg Prod.fst (hkeeps.same .latches (by decide))
    refine ⟨_, hexec, .ofDev (hkeeps.step (by decide) (hland.step (by decide) (Keeps.refl _ _))), ?_, ?_, ?_⟩
    · rintro rfl
      exact .ofDev hkeeps
    · exact hstage ▸ s.dev.landing_stage src
    · generalize s.dev.landing src = d0 at hd hregs
      rw [← hregs] at hwf ⊢
      rcases hd with rfl | ⟨hc, f, hf, rfl⟩
      · obtain ⟨hfields, hother⟩ := d0.store_word v hwf hat
        refine .inl ⟨fun f hf => ?_, hother⟩
        obtain ⟨hrw, hrws, hw1c⟩ := hfields f hf
        refine ⟨hrw, fun ha => ⟨hrws ha, ?_⟩, fun ha => (hw1c ha).trans ?_⟩
        · unfold Dev.eff
          rw [(d0.store_keeps r v i j).same .effect (by decide), hregs]
        · unfold Dev.flag
          rw [hregs]
      · obtain ⟨hset, hrest⟩ := d0.refuse_flags hwf hf
        exact .inr ⟨hc, rfl, rfl, f, hf, hset, hrest⟩
  · intro s off v hoff h8 hm h
    refine ⟨?_, _, exec_registerWrite_nowhere .sideband v s hoff h8 hm h, ?_⟩
    · rw [exec_registerWrite_nowhere .host v s hoff h8 hm h]
      exact congrArg _ (ite_self s)
    · split
      · exact .ofDev (s.dev.landing_keeps .sideband)
      · exact .refl _ _ s
  · intro s src off v w h
    exact ⟨if_pos h, if_pos h, if_pos h⟩
  · intro s src off w h
    exact ⟨if_pos h, if_pos h⟩

end Sys2Proof.Machine
end

section
/-!
SUPPORT. Melt-pool samples and the tests that count (O31): what a sample does at either instant of a beat, what the first and the second of
a beat do besides, and the three trips.
-/
namespace Sys2Proof.Machine

/-! ## Bits and flags -/

/-- A value that the map lists is read back, in whatever order its keys stand. -/
theorem Assoc.get_put_listed {q v e : Nat} (hv : v ≠ e) : ∀ m : FieldMap, Assoc.get (Assoc.put m q v e) q e = v
  | [] => by simp [Assoc.put, Assoc.get, hv]
  | (k, w) :: t => by
    unfold Assoc.put
    split
    · simp [Assoc.get]
    · split
      · simp [Assoc.get]
      · rename_i hne
        simp [Assoc.get, Ne.symm hne, Assoc.get_put_listed hv t]

theorem bitOf_eq_testBit (w i : Nat) : bitOf w i = w.testBit i := Nat.testBit_eq_decide_div_mod_eq.symm

/-- A bit that is set in a field whose reset value has it clear is read back as set. -/
theorem Dev.bitOf_orFlag (d : Dev) (f : Field) {i : Nat} (hi : i < f.width) (h0 : bitOf (f.resetAt 0) i = false) :
    bitOf ((d.orFlag f (2 ^ i)).flag f) i = true := by
  have hset : bitOf (f.fit (d.flag f ||| 2 ^ i)) i = true := by
    unfold Field.fit
    rw [bitOf_eq_testBit, Nat.testBit_mod_two_pow, Nat.testBit_or, Nat.testBit_two_pow_self]
    simp [hi]
  have hne : f.fit (d.flag f ||| 2 ^ i) ≠ f.resetAt 0 := by
    intro h
    rw [h, h0] at hset
    cases hset
  exact (congrArg (bitOf · i) (Assoc.get_put_listed hne _)).trans hset

/-! ## One channel's monitor -/

theorem Keeps.mpmCh {w : List Part} {d d' : Dev} (h : Keeps w d d') (n : Nat) (hw : Part.mpm ∉ w := by decide) :
    d'.mpmCh n = d.mpmCh n := congrArg (fun m : Mpm => at' m.ch n) (h.same .mpm hw)

/-- What the device samples of an RW field rests on the sampled registers alone (R20). -/
theorem Keeps.act {w : List Part} {d d' : Dev} (h : Keeps w d d') (f : Field) (i : Nat) (hw : Part.rwAct ∉ w := by decide) :
    d'.act f i = d.act f i := congrArg (fun m => Assoc.get m (f.key i 0) (f.resetAt i)) (h.same .rwAct hw)

/-- A flag rests on the W1C fields alone. -/
theorem Keeps.flag {w : List Part} {d d' : Dev} (h : Keeps w d d') (f : Field) (hw : Part.w1c ∉ w := by decide) :
    d'.flag f = d.flag f := congrArg (fun m => Assoc.get m (f.key 0 0) (f.resetAt 0)) (h.same .w1c hw)

theorem Dev.mpmCh_updMpm (d : Dev) {n : Nat} (f : MpmChan → MpmChan) (hn : n < 16) : (d.updMpm n f).mpmCh n = f (d.mpmCh n) :=
  at'_upd_same _ _ _ hn
theorem Dev.mpmCh_updMpm_ne (d : Dev) {n k : Nat} (f : MpmChan → MpmChan) (hk : k ≠ n) : (d.updMpm n f).mpmCh k = d.mpmCh k :=
  at'_upd_ne _ _ _ _ hk

theorem Dev.mpmEvent_hasEvent (d : Dev) (n detail : Nat) {code : Nat} (hup : d.mainUp = true) (hc : code ≠ 0xC009) :
    (d.mpmEvent n code detail).hasEvent code (detail % 2 ^ 32) = true := Dev.raise_event _ _ _ _ _ _ hup hc

/-- An event whose DETAIL is the channel alone (R254). -/
theorem Dev.mpmEvent_hasChannel (d : Dev) {n code : Nat} (hn : n < 16) (hup : d.mainUp = true) (hc : code ≠ 0xC009) :
    (d.mpmEvent n code n).hasEvent code n = true := by
  have h := d.mpmEvent_hasEvent n n hup hc
  rwa [Nat.mod_eq_of_lt (by omega)] at h

/-! ## Codes and values (R228, R239) -/

/-- A trimmed value is never negative, so none is lost in a natural number. -/
theorem trimRaw_cast (raw : Nat) (offset : Int) (gain : Nat) :
    (trimRaw raw offset gain : Int) = clampI 0 65535 (divRound ((4 * (raw : Int) - offset) * gain) 32768) :=
  Int.toNat_of_nonneg (Int.le_max_left _ _)

theorem overRange_iff (code : BitVec 14) : overRange code.toNat = true ↔ code = 0 ∨ code = 16383 := by
  simp [overRange, ← BitVec.toNat_inj]

theorem Dev.brOver_iff (d : Dev) (n v : Nat) (br : BitVec 14) :
    d.brOver n br.toNat v = true ↔ (v : Int) > d.act Reg.MPM_CHAN_LIMIT_BR_LIMIT n ∨ br = 0 ∨ br = 16383 := by
  simp [Dev.brOver, overRange_iff]

/-- The trimmed MP value of a code on channel `n` (R228). -/
def Dev.mpValue (d : Dev) (n mp : Nat) : Nat :=
  trimRaw mp (d.effS Reg.MPM_CHAN_TRIM_MP_OFFSET n) (d.eff Reg.MPM_CHAN_TRIM_MP_GAIN n)

/-- The trimmed BR value of a code on channel `n` (R228). -/
def Dev.brValue (d : Dev) (n br : Nat) : Nat :=
  trimRaw br (d.effS Reg.MPM_CHAN_TRIM_BR_OFFSET n) (d.eff Reg.MPM_CHAN_TRIM_BR_GAIN n)

/-! ## The sample at either instant (R239, R241) -/

/-- ADC_OVERRANGE is due: an over-range MP code in an emitting DAC beat, the first of its vector (R241). -/
def Dev.saysRange (d : Dev) (n mp : Nat) : Bool :=
  overRange mp && ((d.chan n).now.beat == d.beatWide && (d.chan n).now.vec != 0) && !(d.mpmCh n).rangeSaid

theorem Dev.saysRange_of {d : Dev} {n mp : Nat} (hr : overRange mp = true) (hb : (d.chan n).now.beat = d.beatWide)
    (hv : (d.chan n).now.vec ≠ 0) (hs : (d.mpmCh n).rangeSaid = false) : d.saysRange n mp = true := by
  simp [Dev.saysRange, hr, hb, hv, hs]

/-- The over-range codes of a sample are counted, and reported where that is due (R241). -/
def Dev.mpmRanged (d : Dev) (n mp br : Nat) : Dev :=
  let e := d.bump Reg.MPM_STAT_OVERRANGE_COUNT (bit (overRange mp) + bit (overRange br))
  if d.saysRange n mp then e.mpmEvent n 0x6005 n else e

/-- The run of over samples with one more, while the ADCs are in service (R239, R243). -/
def MpmChan.brRunWith (c : MpmChan) (beyond : Bool) : Nat := if c.out then c.brRun else if beyond then c.brRun + 1 else 0

theorem MpmChan.brRunWith_beyond {c : MpmChan} {beyond : Bool} (ho : c.out = false) (hb : beyond = true) :
    c.brRunWith beyond = c.brRun + 1 := by simp [MpmChan.brRunWith, ho, hb]
theorem MpmChan.brRunWith_within {c : MpmChan} {beyond : Bool} (ho : c.out = false) (hb : ¬ beyond = true) :
    c.brRunWith beyond = 0 := by simp [MpmChan.brRunWith, ho, hb]
theorem MpmChan.brRunWith_out {c : MpmChan} {beyond : Bool} (ho : c.out = true) : c.brRunWith beyond = c.brRun := if_pos ho

/-- The monitor with a sample noted: what was reported, the BR value `v`, and the run of over samples (R239). -/
def MpmChan.noted (c : MpmChan) (said beyond : Bool) (v : Nat) : MpmChan :=
  { c with rangeSaid := c.rangeSaid || said, lastBr := v, brRun := c.brRunWith beyond }

/-- What a sample does at either instant of a beat. -/
def Dev.mpmNote (d : Dev) (n mp br : Nat) : Dev :=
  (d.mpmRanged n mp br).updMpm n (fun c => c.noted (d.saysRange n mp) ((d.mpmRanged n mp br).brOver n br (d.brValue n br)) (d.brValue n br))

theorem Dev.mpmRanged_keeps (d : Dev) (n mp br : Nat) : Keeps [.cnt, .merge, .log] d (d.mpmRanged n mp br) := by
  have hb := (d.bump_keeps Reg.MPM_STAT_OVERRANGE_COUNT (bit (overRange mp) + bit (overRange br)) 0 0).step
    (w := [.cnt, .merge, .log]) (by decide) (Keeps.refl _ d)
  exact Keeps.ite ((Dev.mpmEvent_keeps _ _ _ _).step (by decide) hb) hb

theorem Dev.mpmNote_keeps (d : Dev) (n mp br : Nat) : Keeps [.cnt, .merge, .mpm, .log] d (d.mpmNote n mp br) :=
  (Dev.updMpm_keeps _ _ _).step (by decide) ((d.mpmRanged_keeps n mp br).step (by decide) (Keeps.refl _ d))

theorem Dev.mpmCh_mpmNote (d : Dev) {n : Nat} (mp br : Nat) (hn : n < 16) : (d.mpmNote n mp br).mpmCh n =
    (d.mpmCh n).noted (d.saysRange n mp) (d.brOver n br (d.brValue n br)) (d.brValue n br) := by
  have hr := d.mpmRanged_keeps n mp br
  unfold Dev.mpmNote
  rw [Dev.mpmCh_updMpm _ _ hn, hr.mpmCh n]
  unfold Dev.brOver
  rw [hr.act Reg.MPM_CHAN_LIMIT_BR_LIMIT n]

theorem Dev.mpmCh_mpmNote_ne (d : Dev) {n k : Nat} (mp br : Nat) (hk : k ≠ n) : (d.mpmNote n mp br).mpmCh k = d.mpmCh k :=
  (Dev.mpmCh_updMpm_ne _ _ hk).trans ((d.mpmRanged_keeps n mp br).mpmCh k)

/-- The first over-range MP code in an emitting DAC beat of a vector raises ADC_OVERRANGE (R241). -/
theorem Dev.mpmNote_hasRange (d : Dev) {n mp : Nat} (br : Nat) (hn : n < 16) (hup : d.mainUp = true) (h : d.saysRange n mp = true) :
    (d.mpmNote n mp br).hasEvent 0x6005 n = true := by
  unfold Dev.mpmNote Dev.mpmRanged
  dsimp only
  rw [if_pos h]
  exact Dev.mpmEvent_hasChannel _ hn hup (by decide)

/-! ## The sample of cycle 0 (R231, R242) -/

/-- The measurement that the first sample of the beat makes (R231, R232). -/
def Dev.firstMeas (d : Dev) (n mp br : Nat) (late : Bool) : Meas :=
  let c := d.mpmCh n
  let ch := d.chan n
  { beat := d.beatWide, pv := ch.prev.pv, ranged := overRange mp, m := d.mpValue n mp,
    r := (d.mpmNote n mp br).mpmReference n c.ref ch.prev,
    valid := ch.now.beat == d.beatWide && ch.prev.beat == d.beatWide - 1 && sameWhole ch.prev ch.now && ch.prev.mpm && !ch.prev.hold &&
      c.ref.valid && !overRange mp && !c.out,
    late, br := [d.brValue n br] }

/-- A late sample is reported (R242). -/
def Dev.mpmLate (d : Dev) (n : Nat) (late : Bool) : Dev :=
  if late then (d.orFlag Reg.MGT_OVERRUN_SUMMARY_OVR (2 ^ 6)).mpmEvent n 0x6001 n else d

/-- The monitor with a new measurement. -/
def MpmChan.measured (c : MpmChan) (x : Meas) : MpmChan := { c with meas := (x :: c.meas).take 4, lastM := x.m }

/-- What the first sample of a beat does. -/
def Dev.mpmFirst (d : Dev) (n mp br : Nat) (late : Bool) : Dev :=
  ((d.mpmNote n mp br).mpmLate n late).updMpm n (fun c => c.measured (d.firstMeas n mp br late))

theorem Dev.mpmLate_keeps (d : Dev) (n : Nat) (late : Bool) : Keeps [.w1c, .merge, .log] d (d.mpmLate n late) :=
  Keeps.ite ((Dev.mpmEvent_keeps _ _ _ _).step (by decide) ((Dev.orFlag_keeps _ _ _ _ _).step (by decide) (Keeps.refl _ d)))
    (Keeps.refl _ d)

theorem Dev.one_le_firstMeas_r (d : Dev) (n mp br : Nat) (late : Bool) : 1 ≤ (d.firstMeas n mp br late).r := Nat.le_max_left _ _

theorem Dev.firstMeas_valid (d : Dev) (n mp br : Nat) (late : Bool) :
    let c := d.mpmCh n
    let ch := d.chan n
    (d.firstMeas n mp br late).valid = true ↔ ch.now.beat = d.beatWide ∧ ch.prev.beat = d.beatWide - 1 ∧ ch.prev.vec ≠ 0 ∧
      ch.now.vec ≠ 0 ∧ ch.prev.pv = ch.now.pv ∧ ch.prev.on = 0 ∧ ch.prev.off = 80 ∧ ch.now.on = 0 ∧ ch.now.off = 80 ∧
      ch.prev.blend = 0 ∧ ch.now.blend = 0 ∧ ch.prev.mpm = true ∧ ch.prev.hold = false ∧ c.ref.valid = true ∧
      ¬ overRange mp = true ∧ c.out = false := by
  simp [Dev.firstMeas, sameWhole, and_assoc]

theorem Dev.mpmCh_mpmFirst (d : Dev) {n : Nat} (mp br : Nat) (late : Bool) (hn : n < 16) : (d.mpmFirst n mp br late).mpmCh n =
    ((d.mpmCh n).noted (d.saysRange n mp) (d.brOver n br (d.brValue n br)) (d.brValue n br)).measured (d.firstMeas n mp br late) := by
  unfold Dev.mpmFirst
  rw [Dev.mpmCh_updMpm _ _ hn, (Dev.mpmLate_keeps _ n late).mpmCh n, Dev.mpmCh_mpmNote d mp br hn]

theorem Dev.mpmCh_mpmFirst_ne (d : Dev) {n k : Nat} (mp br : Nat) (late : Bool) (hk : k ≠ n) :
    (d.mpmFirst n mp br late).mpmCh k = d.mpmCh k := by
  unfold Dev.mpmFirst
  rw [Dev.mpmCh_updMpm_ne _ _ hk, (Dev.mpmLate_keeps _ n late).mpmCh k, Dev.mpmCh_mpmNote_ne d mp br hk]

/-- A late sample raises MPM_OVERRUN and its summary bit (R33, R242). -/
theorem Dev.mpmFirst_hasLate (d : Dev) {n : Nat} (mp br : Nat) (hn : n < 16) (hup : d.mainUp = true) :
    (d.mpmFirst n mp br true).hasEvent 0x6001 n = true ∧
      bitOf ((d.mpmFirst n mp br true).flag Reg.MGT_OVERRUN_SUMMARY_OVR) 6 = true := by
  have hup' : (d.mpmNote n mp br).mainUp = true := ((d.mpmNote_keeps n mp br).mainUp (by decide) (by decide)).trans hup
  refine ⟨Dev.mpmEvent_hasChannel _ hn hup' (by decide), ?_⟩
  have hkeep : Keeps [.merge, .mpm, .log] ((d.mpmNote n mp br).orFlag Reg.MGT_OVERRUN_SUMMARY_OVR (2 ^ 6)) (d.mpmFirst n mp br true) :=
    (Dev.updMpm_keeps _ _ _).step (by decide) ((Dev.mpmEvent_keeps _ _ _ _).step (by decide) (Keeps.refl _ _))
  rw [hkeep.flag]
  exact Dev.bitOf_orFlag _ _ (by decide) (by decide)

/-- The report of an over-range code stands after the measurement is entered. -/
theorem Dev.mpmFirst_hasRange (d : Dev) {n mp : Nat} (br : Nat) (late : Bool) (hn : n < 16) (hup : d.mainUp = true)
    (h : d.saysRange n mp = true) : (d.mpmFirst n mp br late).hasEvent 0x6005 n = true :=
  (Dev.updMpm_keeps _ _ _).event (by decide) (by decide)
    ((Dev.mpmLate_keeps _ n late).event (by decide) (by decide) (d.mpmNote_hasRange br hn hup h))

/-! ## The sample of cycle 40 (R231, R240) -/

/-- A measurement as the second sample of beat `b` completes it. -/
def Meas.completed (x : Meas) (b : Int) (range : Bool) (v : Nat) : Meas :=
  if x.beat == b then { x with valid := x.valid && !range, ranged := x.ranged || range, br := x.br ++ [v] } else x

theorem Meas.completed_present {x : Meas} {b : Int} {range : Bool} {v : Nat} (h : x.beat = b) :
    x.completed b range v = { x with valid := x.valid && !range, ranged := x.ranged || range, br := x.br ++ [v] } := if_pos (by simpa using h)

/-- What the second sample of a beat does. -/
def Dev.mpmSecond (d : Dev) (n mp br : Nat) : Dev :=
  ((d.mpmNote n mp br).updMpm n (fun c =>
    { c with meas := c.meas.map (fun x => x.completed d.beatWide (overRange mp) (d.brValue n br)) })).countLow n

/-- The run of MP_LOW with a complete measurement, whose limit is `ratio` (R240). -/
def MpmChan.lowRunWith (c : MpmChan) (x : Meas) (ratio : Nat) : Nat :=
  if x.valid then if x.m * 256 < x.r * ratio then c.lowRun + 1 else 0 else c.lowRun

theorem Dev.mpmSecond_keeps (d : Dev) (n mp br : Nat) : Keeps [.cnt, .merge, .mpm, .log] d (d.mpmSecond n mp br) :=
  (Dev.countLow_keeps _ n).step (by decide) ((Dev.updMpm_keeps _ _ _).step (by decide) (d.mpmNote_keeps n mp br))

theorem Dev.mpmCh_countLow (d : Dev) {n : Nat} {x : Meas} {rest : List Meas} (hn : n < 16) (h : (d.mpmCh n).meas = x :: rest) :
    (d.countLow n).mpmCh n =
      { d.mpmCh n with lowRun := (d.mpmCh n).lowRunWith x (d.act Reg.MPM_CHAN_CTL_LOW_RATIO n) } := by
  unfold Dev.countLow MpmChan.lowRunWith
  rw [h]
  dsimp only
  split
  · simp [Dev.mpmCh_updMpm _ _ hn]
  · rfl

theorem Dev.mpmCh_mpmSecond (d : Dev) {n : Nat} {x : Meas} {rest : List Meas} (mp br : Nat) (hn : n < 16)
    (h : (d.mpmCh n).meas = x :: rest) :
    let v := d.brValue n br
    let c := (d.mpmCh n).noted (d.saysRange n mp) (d.brOver n br v) v
    let whole := fun x : Meas => x.completed d.beatWide (overRange mp) v
    (d.mpmSecond n mp br).mpmCh n =
      { c with meas := whole x :: rest.map whole, lowRun := c.lowRunWith (whole x) (d.act Reg.MPM_CHAN_CTL_LOW_RATIO n) } := by
  extract_lets v c whole
  have he : ((d.mpmNote n mp br).updMpm n (fun c => { c with meas := c.meas.map whole })).mpmCh n =
      { c with meas := whole x :: rest.map whole } := by
    rw [Dev.mpmCh_updMpm _ _ hn, Dev.mpmCh_mpmNote d mp br hn]
    simp only [MpmChan.noted, h, List.map_cons, c, v]
  have hact := ((Dev.updMpm_keeps (d.mpmNote n mp br) n (fun c => { c with meas := c.meas.map whole })).step (w := [.cnt, .merge, .mpm, .log])
    (by decide) (d.mpmNote_keeps n mp br)).act Reg.MPM_CHAN_CTL_LOW_RATIO n
  refine (Dev.mpmCh_countLow _ hn (congrArg MpmChan.meas he)).trans ?_
  rw [hact, he]
  rfl

/-! ## When a sample is taken (R227) -/

theorem Dev.mpmSample_first (d : Dev) {n : Nat} (mp br : Nat) (late : Bool) (hc : d.tmb.cycle = 0)
    (hb : ∀ x, (d.mpmCh n).meas.head? = some x → x.beat ≠ d.beatWide) : d.mpmSample n false mp br late = d.mpmFirst n mp br late := by
  have ht : (d.mpmCh n).taken d.beatWide false = false := by
    unfold MpmChan.taken
    split
    · rename_i x rest h
      simpa using hb x (by rw [h]; rfl)
    · rfl
  unfold Dev.mpmSample
  dsimp only
  rw [if_neg (by simp [hc, ht])]
  rfl

theorem Dev.mpmSample_second (d : Dev) {n : Nat} {x : Meas} {rest : List Meas} (mp br : Nat) (late : Bool) (hc : d.tmb.cycle = 40)
    (h : (d.mpmCh n).meas = x :: rest) (hb : x.beat = d.beatWide) (hl : x.br.length < 2) :
    d.mpmSample n true mp br late = d.mpmSecond n mp br := by
  have ht : (d.mpmCh n).taken d.beatWide true = false := by
    unfold MpmChan.taken
    rw [h]
    simp [hb, hl]
  unfold Dev.mpmSample
  dsimp only
  rw [if_neg (by simp [hc, ht])]
  rfl

/-- Outside cycle 0, and where the beat has its measurement, the first sample does nothing. -/
theorem Dev.mpmSample_idle (d : Dev) {n : Nat} (mp br : Nat) (late : Bool)
    (h : d.tmb.cycle ≠ 0 ∨ ∃ x, (d.mpmCh n).meas.head? = some x ∧ x.beat = d.beatWide) : d.mpmSample n false mp br late = d := by
  refine if_pos ?_
  rcases h with h | ⟨x, hx, hb⟩
  · simp [h]
  · obtain ⟨rest, hm⟩ := List.head?_eq_some_iff.mp hx
    simp [MpmChan.taken, hm, hb]

theorem exec_mpmSample {s : State} (n : Nat) (second : Bool) (mp br : BitVec 14) (late : Bool) (hup : s.dev.mainUp = true) :
    exec (.mpmSample n second mp br late) s = .next { s with dev := s.dev.mpmSample n second mp.toNat br.toNat late } :=
  State.mainOnly_up _ _ hup

/-! ## The trips (R239 to R241) -/

theorem Dev.causeFrom_pend (d : Dev) {n : Nat} (b : Nat) (hn : n < 16) : bitOf ((d.causeFrom n b).chan n).pend b = true := by
  have h : (d.causeFrom n b).chan n = { d.chan n with pend := (d.chan n).pend ||| 2 ^ b } := at'_upd_same _ _ _ hn
  rw [h, bitOf_eq_testBit, Nat.testBit_or, Nat.testBit_two_pow_self, Bool.or_true]

/-- What the back-reflection trip does but for the cause that it hands to LSR. -/
def Dev.brReported (d : Dev) (n : Nat) : Dev :=
  ((d.mpmEvent n 0x6002 (n + (d.mpmCh n).lastBr * 65536)).bump Reg.MPM_STAT_BR_TRIPS_COUNT).updMpm n (fun c => { c with brRun := 0 })

/-- What MP_LOW does but for the fault that LOW_FAULT asks for. -/
def Dev.lowReported (d : Dev) (n : Nat) : Dev :=
  (d.mpmEvent n 0x6003 (n + (d.mpmCh n).lastM * 65536)).updMpm n (fun c => { c with lowSaid := true })

theorem Dev.brTrip_full (d : Dev) {n : Nat} (hq : d.act Reg.MPM_CHAN_CTL_BR_QUAL n ≤ (d.mpmCh n).brRun) (ho : (d.mpmCh n).out = false) :
    d.brTrip n = (d.brReported n).causeFrom n 8 := if_neg (by simp [hq, ho])

theorem Dev.brTrip_idle (d : Dev) {n : Nat} (h : (d.mpmCh n).brRun < d.act Reg.MPM_CHAN_CTL_BR_QUAL n ∨ (d.mpmCh n).out = true) :
    d.brTrip n = d := if_pos (by simpa using h)

theorem Dev.lowTrip_full (d : Dev) {n : Nat} (hr : d.act Reg.MPM_CHAN_CTL_LOW_RATIO n ≠ 0)
    (hb : d.act Reg.MPM_CHAN_CTL_LOW_BEATS n ≤ (d.mpmCh n).lowRun) (hs : (d.mpmCh n).lowSaid = false) (ho : (d.mpmCh n).out = false) :
    d.lowTrip n = if d.act Reg.MPM_CHAN_CTL_LOW_FAULT n = 1 then (d.lowReported n).causeFrom n 8 else d.lowReported n := by
  have hk : Keeps [.merge, .mpm, .log] d (d.lowReported n) :=
    (Dev.updMpm_keeps _ _ _).step (by decide) ((Dev.mpmEvent_keeps _ _ _ _).step (by decide) (Keeps.refl _ d))
  rw [← hk.act Reg.MPM_CHAN_CTL_LOW_FAULT n]
  exact (if_neg (by simp [hr, hb, hs, ho])).trans (ite_congr (propext beq_iff_eq) (fun _ => rfl) (fun _ => rfl))

theorem Dev.lowTrip_idle (d : Dev) {n : Nat} (h : (d.mpmCh n).lowRun < d.act Reg.MPM_CHAN_CTL_LOW_BEATS n ∨
    (d.mpmCh n).lowSaid = true ∨ d.act Reg.MPM_CHAN_CTL_LOW_RATIO n = 0) : d.lowTrip n = d := by
  refine if_pos ?_
  rcases h with h | h | h <;> simp [h]

theorem Dev.satTrip_full (d : Dev) {n : Nat} (hb : d.act Reg.MPM_CHAN_CTL_SAT_BEATS n ≤ (d.mpmCh n).satRun)
    (hs : (d.mpmCh n).satSaid = false) :
    d.satTrip n = (d.mpmEvent n 0x6004 (n + 16 * bit (d.mpmCh n).satHi)).updMpm n (fun c => { c with satSaid := true }) :=
  if_neg (by simp [hb, hs])

theorem Dev.satTrip_idle (d : Dev) {n : Nat} (h : (d.mpmCh n).satRun < d.act Reg.MPM_CHAN_CTL_SAT_BEATS n ∨ (d.mpmCh n).satSaid = true) :
    d.satTrip n = d := if_pos (by simpa using h)

theorem exec_brQualReached {s : State} (n : Nat) (hup : s.dev.mainUp = true) :
    exec (.brQualReached n) s = .next { s with dev := s.dev.brTrip n } := State.mainOnly_up _ _ hup

theorem exec_lowBeatsReached {s : State} (n : Nat) (hup : s.dev.mainUp = true) :
    exec (.lowBeatsReached n) s = .next { s with dev := s.dev.lowTrip n } := State.mainOnly_up _ _ hup

theorem exec_satBeatsReached {s : State} (n : Nat) (hup : s.dev.mainUp = true) :
    exec (.satBeatsReached n) s = .next { s with dev := s.dev.satTrip n } := State.mainOnly_up _ _ hup

/-- BACKREFLECT is raised with the BR value, the run starts anew, and the channel's fault is pending (R197, R239). -/
theorem Dev.brTrip_reports (d : Dev) {n : Nat} (hn : n < 16) (hup : d.mainUp = true)
    (hq : d.act Reg.MPM_CHAN_CTL_BR_QUAL n ≤ (d.mpmCh n).brRun) (ho : (d.mpmCh n).out = false) :
    (d.brTrip n).hasEvent 0x6002 ((n + (d.mpmCh n).lastBr * 65536) % 2 ^ 32) = true ∧ bitOf ((d.brTrip n).chan n).pend 8 = true ∧
      ((d.brTrip n).mpmCh n).brRun = 0 := by
  rw [Dev.brTrip_full d hq ho]
  have hc := (d.brReported n).causeFrom_keeps n 8
  refine ⟨hc.event (by decide) (by decide) ?_, Dev.causeFrom_pend _ 8 hn, ?_⟩
  · exact Dev.mpmEvent_hasEvent d n _ hup (by decide)
  · rw [hc.mpmCh n]
    exact congrArg MpmChan.brRun (Dev.mpmCh_updMpm _ _ hn)

/-- MP_LOW is raised with the measurement, once in its vector, and the channel's fault is pending where LOW_FAULT asks for it (R240). -/
theorem Dev.lowTrip_reports (d : Dev) {n : Nat} (hn : n < 16) (hup : d.mainUp = true) (hr : d.act Reg.MPM_CHAN_CTL_LOW_RATIO n ≠ 0)
    (hb : d.act Reg.MPM_CHAN_CTL_LOW_BEATS n ≤ (d.mpmCh n).lowRun) (hs : (d.mpmCh n).lowSaid = false) (ho : (d.mpmCh n).out = false) :
    (d.lowTrip n).hasEvent 0x6003 ((n + (d.mpmCh n).lastM * 65536) % 2 ^ 32) = true ∧ ((d.lowTrip n).mpmCh n).lowSaid = true ∧
      (d.act Reg.MPM_CHAN_CTL_LOW_FAULT n = 1 → bitOf ((d.lowTrip n).chan n).pend 8 = true) ∧
      (d.act Reg.MPM_CHAN_CTL_LOW_FAULT n ≠ 1 → (d.lowTrip n).lsr = d.lsr) := by
  have hev : (d.lowReported n).hasEvent 0x6003 ((n + (d.mpmCh n).lastM * 65536) % 2 ^ 32) = true :=
    Dev.mpmEvent_hasEvent d n _ hup (by decide)
  have hsaid : ((d.lowReported n).mpmCh n).lowSaid = true := congrArg MpmChan.lowSaid (Dev.mpmCh_updMpm _ _ hn)
  rw [Dev.lowTrip_full d hr hb hs ho]
  split
  · rename_i hf
    have hc := (d.lowReported n).causeFrom_keeps n 8
    refine ⟨hc.event (by decide) (by decide) hev, ?_, fun _ => Dev.causeFrom_pend _ 8 hn, fun h => absurd hf h⟩
    rw [hc.mpmCh n, hsaid]
  · rename_i hf
    exact ⟨hev, hsaid, fun h => absurd h hf, fun _ => (Dev.mpmEvent_keeps d n _ _).same .lsr (by decide)⟩

/-- MPM_SAT is raised with the clamp that the run stands at, once in its vector (R241). -/
theorem Dev.satTrip_reports (d : Dev) {n : Nat} (hn : n < 16) (hup : d.mainUp = true)
    (hb : d.act Reg.MPM_CHAN_CTL_SAT_BEATS n ≤ (d.mpmCh n).satRun) (hs : (d.mpmCh n).satSaid = false) :
    (d.satTrip n).hasEvent 0x6004 (n + 16 * bit (d.mpmCh n).satHi) = true ∧ ((d.satTrip n).mpmCh n).satSaid = true := by
  rw [Dev.satTrip_full d hb hs]
  refine ⟨?_, congrArg MpmChan.satSaid (Dev.mpmCh_updMpm _ _ hn)⟩
  have hsmall : n + 16 * bit (d.mpmCh n).satHi < 2 ^ 32 := by
    have hbit : bit (d.mpmCh n).satHi ≤ 1 := by cases (d.mpmCh n).satHi <;> decide
    omega
  have hev := d.mpmEvent_hasEvent n (n + 16 * bit (d.mpmCh n).satHi) (code := 0x6004) hup (by decide)
  rwa [Nat.mod_eq_of_lt hsmall] at hev

/-! ## The obligation -/

/-- Settles O31: a sample is noted, then measured or completed; a trip reports and hands on its cause, or does nothing. -/
theorem meltPool : Obligations.MeltPool := by
  unfold Obligations.MeltPool
  refine ⟨?_, ?_⟩
  · intro s n mp br late hup hn c ch m v beyond range
    have hm : (s.dev.mpValue n mp.toNat : Int) = m := trimRaw_cast _ _ _
    have hv : (s.dev.brValue n br.toNat : Int) = v := trimRaw_cast _ _ _
    have hbeyond : s.dev.brOver n br.toNat (s.dev.brValue n br.toNat) = true ↔ beyond := by
      rw [Dev.brOver_iff, hv]
    have hrange : overRange mp.toNat = true ↔ range := overRange_iff mp
    refine ⟨?_, ?_, ?_⟩
    · intro hc hb
      have hexec := exec_mpmSample n false mp br late hup
      rw [Dev.mpmSample_first _ _ _ _ hc hb] at hexec
      have hch := s.dev.mpmCh_mpmFirst mp.toNat br.toNat late hn
      refine ⟨_, s.dev.firstMeas n mp.toNat br.toNat late, hexec, exec_frame hexec, ?_⟩
      dsimp only
      rw [hch]
      refine ⟨rfl, rfl, hm, rfl, Dev.one_le_firstMeas_r .., rfl, hm, hv, ?_, fun ho hbr => ?_, fun ho hbr => ?_, fun ho => ?_, rfl, ?_, ?_,
        fun k _ hk => Dev.mpmCh_mpmFirst_ne _ _ _ _ hk⟩
      · rw [← hrange]
        exact Dev.firstMeas_valid ..
      · exact MpmChan.brRunWith_beyond ho (hbeyond.mpr hbr)
      · exact MpmChan.brRunWith_within ho (fun h => hbr (hbeyond.mp h))
      · exact MpmChan.brRunWith_out ho
      · rintro rfl
        exact Dev.mpmFirst_hasLate _ _ _ hn hup
      · intro hr hb hvec hs
        exact Dev.mpmFirst_hasRange _ _ _ hn hup (Dev.saysRange_of (hrange.mpr hr) hb hvec hs)
    · intro x rest hc hmeas hb hl
      have hexec := exec_mpmSample n true mp br late hup
      rw [Dev.mpmSample_second _ _ _ _ hc hmeas hb hl] at hexec
      have hch := s.dev.mpmCh_mpmSecond mp.toNat br.toNat hn hmeas
      refine ⟨_, x.completed s.dev.beatWide (overRange mp.toNat) (s.dev.brValue n br.toNat), hexec, .ofDev (Dev.mpmSecond_keeps ..), ?_⟩
      dsimp only at hch ⊢
      rw [hch, Meas.completed_present hb]
      refine ⟨rfl, rfl, ?_, List.length_append, hv, rfl, rfl, fun ho hbr => ?_, fun ho hbr => ?_⟩
      · simp [← hrange]
      · exact MpmChan.brRunWith_beyond ho (hbeyond.mpr hbr)
      · exact MpmChan.brRunWith_within ho (fun h => hbr (hbeyond.mp h))
    · intro h
      rw [exec_mpmSample n false mp br late hup, Dev.mpmSample_idle _ _ _ _ h]
  · intro s n hup hn c
    refine ⟨?_, ?_, ?_, ?_, ?_, ?_⟩
    · intro hq ho
      have hexec := exec_brQualReached n hup
      exact ⟨_, hexec, exec_frame hexec, Dev.brTrip_reports _ hn hup hq ho⟩
    · intro h
      rw [exec_brQualReached n hup, Dev.brTrip_idle _ h]
    · intro hr hb hs ho
      have hexec := exec_lowBeatsReached n hup
      exact ⟨_, hexec, exec_frame hexec, Dev.lowTrip_reports _ hn hup hr hb hs ho⟩
    · intro h
      rw [exec_lowBeatsReached n hup, Dev.lowTrip_idle _ h]
    · intro hb hs
      have hexec := exec_satBeatsReached n hup
      exact ⟨_, hexec, exec_frame hexec, Dev.satTrip_reports _ hn hup hb hs⟩
    · intro h
      rw [exec_satBeatsReached n hup, Dev.satTrip_idle _ h]

end Sys2Proof.Machine
end
